-- ==== Sys2Proof/Word.lean ====
section
/-! DEFINITION. The word types of the DZX-9664 and their plainest arithmetic: bytes and dwords, bit fields, little-endian
lists of bytes (R12), saturating and wrapping counters (R19). -/

namespace Sys2Proof

/-- One byte. -/
abbrev Byte := BitVec 8
/-- One 32-bit register or command dword. -/
abbrev Dword := BitVec 32

/-- Bits [hi:lo] of a number (notation of Chapter 0). -/
def bits (w hi lo : Nat) : Nat := (w / 2 ^ lo) % 2 ^ (hi + 1 - lo)

/-- One bit of a number. -/
def bit (w n : Nat) : Bool := (w / 2 ^ n) % 2 == 1

/-- A Bool as a bit. -/
def b2n (b : Bool) : Nat := if b then 1 else 0

/-- The value `v` placed in a field of `width` bits whose lowest bit is `lo`. -/
def fld (lo width v : Nat) : Nat := (v % 2 ^ width) * 2 ^ lo

/-- The `n` little-endian bytes of a number (R12). -/
def leBytes : Nat → Nat → List Byte
  | 0, _ => []
  | n + 1, v => BitVec.ofNat 8 (v % 256) :: leBytes n (v / 256)

/-- The number that little-endian bytes spell (R12). -/
def leNat : List Byte → Nat
  | [] => 0
  | b :: bs => b.toNat + 256 * leNat bs

/-- The big-endian bytes of a number (used by the cipher's counter block only). -/
def beBytes (n v : Nat) : List Byte := (leBytes n v).reverse

/-- `n` bytes of zero. -/
def zeroBytes (n : Nat) : List Byte := List.replicate n 0

/-- The bytes `l` cut or padded with zeros to exactly `n`. -/
def padTo (n : Nat) (l : List Byte) : List Byte := (l ++ zeroBytes (n - l.length)).take n

/-- The all-ones value of `w` bits. -/
def ones (w : Nat) : Nat := 2 ^ w - 1

/-- A counter of `w` bits that saturates (R19). -/
def satAdd (w a b : Nat) : Nat := min (a + b) (2 ^ w - 1)

/-- A counter of `w` bits that wraps. -/
def wrapAdd (w a b : Nat) : Nat := (a + b) % 2 ^ w

/-- Division rounding up. -/
def ceilDiv (a b : Nat) : Nat := (a + b - 1) / b

/-- Bytes at offset `o` of a list, `n` of them, zero past its end. -/
def sliceB (l : List Byte) (o n : Nat) : List Byte := padTo n ((l.drop o).take n)

/-- The little-endian number at byte offset `o`, `n` bytes. -/
def numAt (l : List Byte) (o n : Nat) : Nat := leNat (sliceB l o n)

/-- The signed value of a byte. -/
def signed8 (v : Nat) : Int := if v % 256 < 128 then ((v % 256 : Nat) : Int) else ((v % 256 : Nat) : Int) - 256

/-- The two's complement of `w` bits of an integer. -/
def toBits (w : Nat) (i : Int) : Nat := (i % (2 ^ w : Int)).toNat

/-! Sparse tables: lists of (key, value) with strictly rising keys. -/

/-- A sparse table keyed by a number. -/
abbrev Tbl (α : Type) := List (Nat × α)

/-- The entry under a key. -/
def Tbl.get? {α : Type} : Tbl α → Nat → Option α
  | [], _ => none
  | (k, v) :: t, x => if k = x then some v else Tbl.get? t x

/-- The entry under a key, or the default the table's absent entries stand for. -/
def Tbl.getD {α : Type} (t : Tbl α) (x : Nat) (d : α) : α := (Tbl.get? t x).getD d

/-- Put an entry, keeping the keys strictly rising. -/
def Tbl.put {α : Type} : Tbl α → Nat → α → Tbl α
  | [], x, a => [(x, a)]
  | (k, v) :: t, x, a =>
    if x < k then (x, a) :: (k, v) :: t
    else if x = k then (x, a) :: t
    else (k, v) :: Tbl.put t x a

/-- Remove the entry under a key. -/
def Tbl.del {α : Type} (t : Tbl α) (x : Nat) : Tbl α := t.filter (fun p => p.1 != x)

/-- Change the entry under a key, if there is one. -/
def Tbl.upd {α : Type} (t : Tbl α) (x : Nat) (f : α → α) : Tbl α :=
  t.map (fun p => if p.1 = x then (p.1, f p.2) else p)

/-- Change every entry. -/
def Tbl.mapV {α : Type} (t : Tbl α) (f : Nat → α → α) : Tbl α := t.map (fun p => (p.1, f p.1 p.2))

/-- The keys rise strictly. -/
def Tbl.rising {α : Type} : Tbl α → Bool
  | [] => true
  | [_] => true
  | (k, _) :: (k', v') :: t => decide (k < k') && Tbl.rising ((k', v') :: t)

/-- The element of a list at a position, or a default. -/
def nth {α : Type} (l : List α) (i : Nat) (d : α) : α := (l[i]?).getD d

/-- Replace the element at a position. -/
def setNth {α : Type} (l : List α) (i : Nat) (a : α) : List α := l.set i a

/-- The sum of a list of numbers. -/
def sumN (l : List Nat) : Nat := l.foldl (· + ·) 0

end Sys2Proof
end

