-- ==== Sys2Proof/Syntax.lean ====
section
/-! DEFINITION. The commands the block takes: one constructor of `Instr` for each row of spec/opcode_table.json, with the
operands a row needs. Operands carry what comes from outside the block: a host's command and its data, what a sensor, a rail,
the media, the board or another device answered. -/

namespace Sys2Proof

/-- An NVMe command as a function's submission queue holds it (Chapter 8). -/
structure Cmd where
  /-- Function: 0 Owner PF, 1 … 1,023 stalls, 1,024 port B PF (R313). -/
  fn : Nat
  /-- Submission queue, 0 the admin queue. -/
  sqid : Nat
  /-- Command identifier. -/
  cid : Nat
  /-- Namespace identifier. -/
  nsid : Nat
  cdw10 : Dword
  cdw11 : Dword
  cdw12 : Dword
  cdw13 : Dword
  cdw14 : Dword
  cdw15 : Dword
  /-- Opcode byte, as the entry holds it. -/
  opc : Nat
  /-- FUSE field. -/
  fuse : Nat
  /-- An SGL Bit Bucket descriptor is used (R226). -/
  bitBucket : Bool
  /-- Host address of the data pointer. -/
  dptr : Nat
deriving DecidableEq, Repr

/-- One logical block of host data: its 4,096 bytes and its metadata bytes. -/
structure Blk where
  data : List Byte
  md : List Byte
deriving DecidableEq, Repr

/-- The level of a strap at sampling: low, high, or changing inside its window (R46). -/
inductive Strap where
  | low | high | changing
deriving DecidableEq, Repr

/-- What discovery finds on a LUN: its parameter page (R63, R166, R167). -/
structure LunReport where
  ch : Nat
  /-- Its target's place in the channel's chain, from 0, and its number within the target, which may hold 1, 2 or 4 LUNs (R167). -/
  target : Nat
  unit : Nat
  /-- The page's CRC holds and every feature marked Required in Table 6.1 is reported. -/
  crcOk : Bool
  featOk : Bool
  pageData : Nat
  spare : Nat
  pagesPerBlock : Nat
  blocksPerLun : Nat
  planes : Nat
  cell : Nat
  /-- Program suspend and erase suspend are both reported (R189). -/
  susp : Bool
  /-- Highest NV-LPDDR4 rate reported, MT/s. -/
  rate : Nat
  /-- Bytes 240–243 of the page. -/
  retimer : Nat
  /-- Program/erase endurance of the page (Table 17.6, RATED_CYCLES). -/
  cycles : Nat
deriving DecidableEq, Repr

/-- A channel's training and qualification in discovery (R168, R169). -/
structure ChTrain where
  ch : Nat
  /-- The rate at which training succeeded under R168; 0: at none. -/
  rate : Nat
  /-- Table 6.2 step 2 completes at 4,800 MT/s. -/
  trainOk : Bool
  /-- Narrowest read and write eyes at 4,800 MT/s, 1/256 UI. -/
  eyeRd : Nat
  eyeWr : Nat
  /-- Narrowest write eye of the training at no more than 3,600 MT/s. -/
  eyeWrSlow : Nat
  /-- Bit errors of the loop-back (step 4). -/
  loopErrs : Nat
deriving DecidableEq, Repr

/-- A range RECOVERY finds lost (R68): the owner (device zone number, or the conventional namespace as 0x8000_0000 plus its
NSID), the first lost LBA as an LBA offset, and the count. For a zone the first LBA is the persisted write pointer. -/
structure Lost where
  owner : Nat
  first : Nat
  count : Nat
deriving DecidableEq, Repr

/-- A journal fault RECOVERY finds (R67, Table 5.3): the Pen, whether the copy read back and was adopted, and then the copy record's
destinations of the Pen's live units in order: Pen and unit in it. -/
structure JFault where
  pen : Nat
  adopted : Bool
  copy : List (Nat × Nat)
deriving DecidableEq, Repr

/-- What a Currycomb pass counted (Table 7.9), and the Pens it found to mark: Pen and ladder code. -/
structure PassRes where
  words : Nat
  c1 : Nat
  c2 : Nat
  c3 : Nat
  c4 : Nat
  ladderHi : Nat
  rebuilt : Nat
  uncorr : Nat
  durMs : Nat
  marks : List (Nat × Nat)
deriving DecidableEq, Repr

/-- What host memory answers to the reads of a step: address and bytes. A read at an address not listed is a host memory
error. Of two entries at one address the first answers the first read. -/
abbrev HostMem := List (Nat × List Byte)

/-- A thermistor input as converted (R387): its temperature in 1/16 degree, open, or short. -/
inductive Therm where
  | val (t : Int) | openIn | shortIn
deriving DecidableEq, Repr

/-- What a housekeeping round reads (Table 14.5). Diodes in 1/16 degree, Core die first, none where a die is absent; targets as
channel, volume and the reading in degrees, if one came; rails as mV and power in 10 mW; HOLD in mV. -/
structure HkRound where
  die : List (Option Int)
  therm : List Therm
  flash : List (Nat × Nat × Option Int)
  rails : List (Nat × Nat)
  hold : Nat
deriving DecidableEq, Repr

/-- What a BIST run found (R447): macros run, repaired, unrepairable. -/
structure BistRes where
  run : Nat
  repaired : Nat
  fails : Nat
  first : Nat
deriving DecidableEq, Repr

/-- What a flash pattern test found (R448): blocks tested, Tack Room blocks skipped, blocks failed, the worst bit count, whether a
channel failed to train, and whether power failed (R444). -/
structure FpRes where
  blocks : Nat
  skipped : Nat
  failed : Nat
  worst : Nat
  untrained : Bool
  power : Bool
deriving DecidableEq, Repr

/-- What RECOVERY finds beside lost ranges: journal faults (R67); wordlines that fail the test of R186, as channel, LUN, block and wordline;
re-erases that fail (R184), as channel, LUN and block. -/
structure RecovFound where
  faults : List JFault
  deadWls : List (Nat × Nat × Nat × Nat)
  badErases : List (Nat × Nat × Nat)
deriving DecidableEq, Repr

/-- The voltages of a pulse's end, mV: V2 (R74), and what HOLD has recovered to when the evaluation is due (R78). -/
structure PulseV where
  v2 : Nat
  back : Nat
deriving DecidableEq, Repr

/-- A Gather Read as fetched: its command, and the bytes its SGL describes, none with PRPs (R256). -/
structure GatherCmd where
  cmd : Cmd
  sgl : Option Nat
deriving DecidableEq, Repr

/-- A write of GDC_CTL that stops a channel: its value, the beats its COPY has moved, and what host memory answered (R267). -/
structure StopWrite where
  v : Dword
  moved : Nat
  mem : HostMem
deriving DecidableEq, Repr

/-- A turn as a participant receives it: the 32 header bytes, the DN roll-call map, and what each downstream port captured of the roll call
on CAD_UP (R340, R343, R347). -/
structure TurnIn where
  hdr : List Byte
  rollcall : BitVec 1024
  ups : List (Nat × BitVec 1024)
deriving DecidableEq, Repr

/-- The address and the CRC-8 of a poll slot on CAD_DN (R344). -/
structure PollAt where
  addr : Nat
  crc : Nat
deriving DecidableEq, Repr

/-- PCODE and PARG of a poll slot (R344). -/
structure PollAsk where
  code : Nat
  arg : Nat
deriving DecidableEq, Repr

/-- Where a register read goes: its offset and its width in bytes (R17). -/
structure RegAt where
  off : Nat
  width : Nat
deriving DecidableEq, Repr

/-- The commands and events of the block: one constructor per row of spec/opcode_table.json. -/
inductive Instr where
  /-- POWER_ON (R44): VDD_AON and VDD_CORE reach their operating range; all state except media is lost, ST fields are restored to Reset, and a start begins in RESET. -/
  | powerOn
  /-- SYS_RST_N_LOW (R44): SYS_RST_N held low for 10 µs or longer resets the device as power-on does and starts it; in EMERGENCY_FLUSH the trigger is held until the flush ends. -/
  | sysRstNLow (ns : Nat)
  /-- DEVICE_LEVEL_PERST (R36): PERST# in x16 mode, or on both ports at once in dual-port mode, stops admission and begins draining every Slack-acknowledged write before RESET. -/
  | deviceLevelPerst
  /-- DEVICE_RESET_DRAIN_END (R36): The drain of a device-level reset ends; the clean-close record is written and the device enters RESET. -/
  | deviceResetDrainEnd
  /-- PORT_PERST (R333): PERST# of one port in dual-port mode resets only that port's functions; for port A this removes every stall, and TXS_MODE.CUR does not change. -/
  | portPerst (port : Nat)
  /-- DL_DOWN (R333): DL_Down on a port without PERST# acts as that port's PERST#. -/
  | dlDown (port : Nat)
  /-- STRAP_SAMPLE (R46): 100 µs after SYS_RST_N rises the straps are sampled in RESET, and the device goes to IMAGE_LOAD, or to TEST if STRAP_TEST is 1. -/
  | strapSample (dual test noimg : Strap)
  /-- IMAGE_LOAD_END (R59): SFDP discovery and the reading of both slots end; the valid slot with the higher SEQ, or the factory defaults, are taken, the start registers are written and PROOF_LOAD begins. -/
  | imageLoadEnd (sfdpOk : Bool) (slotA slotB : List Byte) (fwOk : Bool)
  /-- FLASH_DISCOVERY_END (R63): PROOF_LOAD job (b) ends: LUNs are checked against the reference geometry and mismatches are excluded; the flush rehearsal may then begin. -/
  | flashDiscoveryEnd (luns : List LunReport) (chs : List ChTrain) (temps : List (Nat × Nat × Int))
  /-- FLUSH_REHEARSAL_END (R75): The 8 MiB flush rehearsal ends and P_FL, e_byte and E_fixed are derived. -/
  | flushRehearsalEnd (milliW rate : Nat)
  /-- TABLE_LOAD_END (R65): PROOF_LOAD job (c) ends: tables, both journal copies and the Studbook ring are loaded, the closing record decides whether the shutdown was safe, and a pending sanitize is detected. -/
  | tableLoadEnd (copy0 copy1 : Bool)
  /-- PROOF_LOAD_END (R48): When jobs (a), (b) and (c) have ended, PROOF_LOAD ends and the device enters RECOVERY, or else its base mode. -/
  | proofLoadEnd
  /-- RECOVERY_END (R67): RECOVERY completes its eight steps, writes recovery-done and record 0x1031, and enters SANITIZE or the base mode. -/
  | recoveryEnd (lost : List Lost) (found : RecovFound)
  /-- START_MODE_OVERRUN (R48): A start mode exceeds its bound; the device enters HALTED and writes record 0x10E0. -/
  | startModeOverrun
  /-- OSTLER_WATCHDOG_EXPIRY (R27): An Ostler core silent for 10 ms is restarted; four or more cores in restart halt the device. -/
  | ostlerWatchdogExpiry (core : Nat)
  /-- SPINE_LINK_FAULT (R24): A flit fails 16 consecutive replays; the device enters HALTED and records the Shed die. -/
  | spineLinkFault (shed : Nat)
  /-- REFCLK_38M4_LOST (R430): Loss of the 38.4 MHz reference in service is a fatal fault, and the device enters HALTED on its backup oscillator. -/
  | refclk38m4Lost
  /-- VDD_RET_LOST (R385): VDD_RET leaves its range during RETAIN; RET_LOST is latched, and the next wake begins a start instead of an exit. -/
  | vddRetLost
  /-- PWRFAIL_N_FALL (R95): PWRFAIL_N falls: in the allowed modes the device stops admission and enters EMERGENCY_FLUSH, and a root also broadcasts CAD_PF. -/
  | pwrfailNFall
  /-- CAD_PF_ACCEPTED (R362): A CAD_PF pulse of 208 ns or longer is accepted; a hub regenerates it downstream, and the device enters EMERGENCY_FLUSH where allowed. -/
  | cadPfAccepted (ns : Nat)
  /-- EMERGENCY_FLUSH_COMPLETE (R95): The flush finishes writing Slack data and the fixed set and parks the LUNs; a flush begun in HALTED returns to HALTED. -/
  | emergencyFlushComplete (temp : Int) (us : Nat)
  /-- FLUSH_RESTART_DELAY_EXPIRY (R34): After a completed flush, PWRFAIL_N has been high for 10 ms, and the device passes through RESET to a full start. -/
  | flushRestartDelayExpiry
  /-- THERMAL_TRIP (R393): A die comparator trips at 120 °C; admission stops and a drain of Slack bytes and the fixed set begins, or the mode-specific action is taken. -/
  | thermalTrip (die : Nat) (temp : Int)
  /-- THERMAL_TRIP_DRAIN_END (R393): The thermal trip drain ends; the device enters HALTED and writes record 0xB050. -/
  | thermalTripDrainEnd (us : Nat)
  /-- HU_OK_RISE (R77): HU_OK rises: the bank is charged, a proof-load pulse is scheduled in PROOF_LOAD, and a proof-load is triggered in WRITE_THROUGH. -/
  | huOkRise
  /-- HU_OK_FALL (R80): HU_OK falls while PWRFAIL_N stays high; early completions stop, WT becomes 1 and record 0x2030 is written. -/
  | huOkFall
  /-- CHG_TIMEOUT_EXPIRY (R76): HU_OK is not high within CHG_TIMEOUT, and the proof-load fails with code 0x1. -/
  | chgTimeoutExpiry
  /-- PROOF_NOW (R77): A write of 1 to SLK_CTL.PROOF_NOW requests a proof-load. -/
  | proofNow (fn : Nat)
  /-- PROOF_AGE_EXPIRY (R77): 24 hours of yard time pass since the last completed proof-load, and a proof-load is triggered. -/
  | proofAgeExpiry
  /-- PROOF_WINDOW_OPEN (R78): A proof-load outside PROOF_LOAD opens a proof window; WINDOW is set, and every write decided from then on is held. -/
  | proofWindowOpen
  /-- PROOF_PULSE_START (R78): With USE_KIB at 0, or in PROOF_LOAD after HU_OK and the rehearsal, HU_LOAD is driven high for 2 ms. -/
  | proofPulseStart (v0 : Nat)
  /-- PROOF_WINDOW_TIMEOUT (R78): USE_KIB has not reached 0 within 10 ms; the window closes without a pulse, and the proof-load is retried later. -/
  | proofWindowTimeout
  /-- PROOF_PULSE_END (R74): HU_LOAD falls after 2.000 ms, V2 is taken, and recharge begins. -/
  | proofPulseEnd (v1 : Nat) (v2 : PulseV)
  /-- PROOF_LOAD_EVALUATION (R76): After recharge the bank figures and Slack are computed, the result code is set, and WT, TOTAL_MIB and the window are updated. -/
  | proofLoadEvaluation
  /-- SLACK_DECISION (R83): When a write's last byte is staged and its checks have passed, it is decided once as early, with charge reserved and completion posted, or as held. -/
  | slackDecision (w : Nat) (rest : List Blk)
  /-- SLACK_REPORT (R100): Admin 0xC1 returns the Slack header and per-function entries taken in one clock. -/
  | slackReport (c : Cmd)
  /-- NAMESPACE_CREATE (R102): Namespace Management create makes a zoned or conventional namespace, assigning zone numbers or forming conventional region Pens, and generates its key pair. -/
  | namespaceCreate (c : Cmd) (buf : List Byte)
  /-- NAMESPACE_DELETE (R103): Namespace Management delete discards the namespace's zones and key pair, and is refused if any zone is Active. -/
  | namespaceDelete (c : Cmd)
  /-- NAMESPACE_ATTACHMENT (R226): Namespace Attachment attaches or detaches a namespace to a controller. -/
  | namespaceAttachment (c : Cmd) (buf : List Byte)
  /-- WRITE (R116): A Write is checked as Table 4.5 orders, or as a conventional write, then accepted and staged. -/
  | write (c : Cmd) (blks : List Blk)
  /-- WRITE_ZEROES (R116): A Write Zeroes is checked and staged as a Write; on the conventional namespace DEAC = 1 unmaps whole units. -/
  | writeZeroes (c : Cmd)
  /-- ZONE_APPEND (R116): A Zone Append is checked and takes the write pointer as its SLBA at acceptance. -/
  | zoneAppend (c : Cmd) (blks : List Blk)
  /-- READ (R29): A Read is dispatched along the read path, served from staging or media, with overlap and FUA rules applied. -/
  | read (c : Cmd)
  /-- DATASET_MANAGEMENT (R134): Deallocate unmaps whole conventional units, and changes nothing on a zoned namespace. -/
  | datasetManagement (c : Cmd) (buf : List Byte)
  /-- FLUSH (R89): A Flush waits until every write it covers is durable, or completes at once if none is outstanding. -/
  | flush (c : Cmd)
  /-- ZONE_OPEN (R108): Zone Management Send Open makes a zone Explicitly Opened, subject to the activation checks. -/
  | zoneOpen (c : Cmd)
  /-- ZONE_CLOSE (R106): Zone Management Send Close makes an Open zone Closed and releases nothing. -/
  | zoneClose (c : Cmd)
  /-- ZONE_FINISH (R125): Zone Management Send Finish makes the zone Full and releases the unwritten reservation. -/
  | zoneFinish (c : Cmd)
  /-- ZONE_RESET (R122): Zone Management Send Reset makes the zone Empty, increments GEN and releases the reservation. -/
  | zoneReset (c : Cmd)
  /-- SCRUBBING_RESET (R123): A Reset with SCRUB set resets the zone and begins erasing every block that holds older generations. -/
  | scrubbingReset (c : Cmd)
  /-- ZONE_OFFLINE_ACTION (R105): Zone Management Send Offline ends with 1h/0xBF. -/
  | zoneOfflineAction (c : Cmd)
  /-- SET_ZONE_DESCRIPTOR_EXTENSION (R105): Zone Management Send Set Zone Descriptor Extension ends with 0h/0x02. -/
  | setZoneDescriptorExtension (c : Cmd)
  /-- REPORT_ZONES (R128): Zone Management Receive Report Zones returns a header and the matching zone descriptors. -/
  | reportZones (c : Cmd)
  /-- EXTENDED_REPORT_ZONES (R105): Extended Report Zones ends with 0h/0x02. -/
  | extendedReportZones (c : Cmd)
  /-- PLACEMENT_OPEN (R115): Vendor I/O 0x85 activates or opens a zone with Yard, lifetime class, compression and seal attributes. -/
  | placementOpen (c : Cmd)
  /-- ZONE_FINISHED_BY_CONTROLLER (R119): Within 1 ms of block failures leaving a reservation short, the zone is made Full with ZFC set and reported. -/
  | zoneFinishedByController (zone : Nat)
  /-- SCRUB_COMPLETE (R123): The last block of a scrubbing reset is erased, the command completes and record 0x3020 is written. -/
  | scrubComplete (zone : Nat)
  /-- SCRUB_SCHEDULE_BREAK_EXPIRY (R123): 60 s after fetch an unfinished scrub runs regardless of the schedule, and record 0x3022 is written. -/
  | scrubScheduleBreakExpiry (zone : Nat)
  /-- SANITIZE_BLOCK_ERASE (R126): Sanitize with SANACT 010b enters SANITIZE and erases every block that has held user data. -/
  | sanitizeBlockErase (c : Cmd)
  /-- SANITIZE_CRYPTO_ERASE (R126): Sanitize with SANACT 100b destroys every key, binding and map and generates new namespace keys. -/
  | sanitizeCryptoErase (c : Cmd)
  /-- SANITIZE_EXIT_FAILURE_MODE (R126): Sanitize with SANACT 001b ends sanitize failure mode, or succeeds and changes nothing. -/
  | sanitizeExitFailureMode (c : Cmd)
  /-- SANITIZE_OVERWRITE (R126): Sanitize with SANACT 011b ends with 0h/0x02. -/
  | sanitizeOverwrite (c : Cmd)
  /-- SANITIZE_END (R126): A sanitize completes: zones are Empty, maps unmapped, SPARES_OUT re-evaluated, warning bit 2 cleared; or it fails into sanitize failure mode. -/
  | sanitizeEnd (failed : Option Nat)
  /-- FORMAT_NVM (R127): Format NVM with SES 0 empties a namespace's zones or unmaps its units and rekeys it within 2 s. -/
  | formatNvm (c : Cmd)
  /-- CONVENTIONAL_GARBAGE_COLLECTION (R133): With fewer than 3 free Pens in the region, the full Pen with the fewest valid units is compacted and erased. -/
  | conventionalGarbageCollection
  /-- SET_FEATURES_YARD_LAYOUT (R137): Set Features 0xC5 from the Owner PF assigns rows to Yards and sets PARITY and WL_SPREAD, marking rows PENDING where needed. -/
  | setFeaturesYardLayout (c : Cmd) (buf : List Byte)
  /-- FOLD (R148): A unit of a zone is copied from the Paddock into its next QLC unit. -/
  | fold (zone : Nat)
  /-- PADDOCK_COMPACTION (R149): A Yard short of free landing Pens copies live data from its oldest Paddock Pen and erases the source. -/
  | paddockCompaction (yard : Nat)
  /-- RELOCATION (R155): Live units of a source Pen are copied under the journal order copy, map-commit, erase-intent, erase-done. -/
  | relocation (pen : Nat)
  /-- WEAR_LEVELLING (R158): A wear-levelling move copies the least-worn Full Pen into a Pen formed from the most-worn free blocks. -/
  | wearLevelling (yard : Nat)
  /-- LANDING_SPACE_RETURNS (R150): Landing space returns to a Yard, and data transfers of writes waiting for that Yard start. -/
  | landingSpaceReturns (yard : Nat)
  /-- YARD_STATUS_LOG (R164): Get Log Page 0xD5 returns the Yard Status entries, restricted to its mask for a stall. -/
  | yardStatusLog (c : Cmd)
  /-- ARRAY_OPERATION_START (R172): A sequencer starts the next queued array operation in class order, within the rate limit N, after checking a program against the block state table. -/
  | arrayOperationStart (ch typ : Nat)
  /-- PROGRAM_END (R180): A program ends: on pass NEXT_WL advances and data becomes durable; on fail the block goes Bad and is replaced. -/
  | programEnd (ch lun : Nat) (pass : Bool)
  /-- ERASE_END (R184): An erase ends: on pass the block is Erased with erase-done written; on fail the block goes Bad. -/
  | eraseEnd (ch lun : Nat) (pass : Bool)
  /-- READ_END (R204): A page read completes and each codeword runs the decode ladder, with rereads, rebuild, seal and guard checks as needed. -/
  | readEnd (ch lun ladder corr : Nat)
  /-- PRE_PROGRAM_CHECK_END (R185): The one-bit reads of a new block end; PRECHK is set, or the block is re-erased, or on a second failure it goes Bad. -/
  | preProgramCheckEnd (ch lun zeros : Nat)
  /-- SUSPEND_ARBITER_DECISION (R187): A class-2 read meeting a busy die is decided within 1 µs as suspend, reconstruct or wait. -/
  | suspendArbiterDecision (op : Nat)
  /-- SUSPEND_RUN_MIN_REACHED (R187): A busy operation reaches its RUN_MIN mark, and waiting reads are decided again. -/
  | suspendRunMinReached (ch lun : Nat)
  /-- DIE_SUSPENDED (R188): The die reports the suspension, and queued class-2 reads are served. -/
  | dieSuspended (ch lun : Nat)
  /-- SUSPEND_HOLD_EXPIRY (R188): HOLD passes since the suspension began, and the arbiter issues resume. -/
  | suspendHoldExpiry (ch lun : Nat)
  /-- CONTINUOUS_READ_WAIT_EXPIRY (R191): Another read for the LUN has waited 20 µs, and the continuous chain ends at the next page boundary. -/
  | continuousReadWaitExpiry (ch lun : Nat)
  /-- EYE_PASS (R170): Every EYE_PERIOD turns a read DQ training pass runs on each volume, and a full retrain is scheduled if the eye is narrow. -/
  | eyePass (ch eye : Nat)
  /-- RETRAIN_END (R170): A full retrain ends; the channel stays at 4,800 MT/s or drops to 3,600 MT/s with XDROP set. -/
  | retrainEnd (ch eyeRd eyeWr rate : Nat)
  /-- LUN_TIMEOUT (R195): A LUN busy beyond four times its maximum time is reset; the operation is failed or retried, and repeated timeouts fail the LUN. -/
  | lunTimeout (ch lun : Nat)
  /-- TACK_FIRMWARE_REFRESH (R194): Every 720 hours, and after a start that follows a flush outside the SLC window, firmware blocks are read and those above threshold are refreshed. -/
  | tackFirmwareRefresh (shed : Nat) (moved : List (Nat × Nat × Nat))
  /-- FCH_DIAG_GO (R197): A write of 1 to FCH_DIAG_CTL.GO starts a diagnostic access in the modes that allow it. -/
  | fchDiagGo (fn ch : Nat) (v : Dword)
  /-- FCH_DIAG_DONE (R197): A diagnostic access ends within 2 ms with DONE set and the status and result fields filled. -/
  | fchDiagDone (ch zeros corr ladder : Nat)
  /-- LOW_WEAR_LIST_REFILL_END (R179): A die's wear list is refilled from the ledger, and deferred Pen members are bound. -/
  | lowWearListRefillEnd (ch lun : Nat)
  /-- RECONSTRUCTION_END (R210): A busy-die reconstruction finishes its member reads and delivers the rebuilt codeword, or fails and returns the read to its die queue. -/
  | reconstructionEnd (op ladder : Nat)
  /-- SRAM_CORRECTABLE_ERROR (R214): An SRAM word with a single-bit error is corrected and rewritten, counted, and record 0x5001 is written. -/
  | sramCorrectableError (die region word syndrome : Nat)
  /-- SRAM_UNCORRECTABLE_ERROR (R214): An uncorrectable SRAM word is handled by region as Table 7.7 states, up to HALTED. -/
  | sramUncorrectableError (die region word syndrome : Nat) (hit : Nat) (again : Bool)
  /-- TABLE_LINE_REBUILD_END (R214): A table line is rebuilt from the journal within 10 ms and waiting commands proceed; a failed rebuild halts the device. -/
  | tableLineRebuildEnd (die region word : Nat) (ok : Bool)
  /-- ECC_FLIP_ARM (R215): A write of ECC_FLIP_CTL with ARM = 1 arms the flip mask for an SRAM or media target. -/
  | eccFlipArm (fn : Nat) (v : Dword)
  /-- ECC_FLIP_DISARM (R215): A write of ECC_FLIP_CTL with ARM = 0 disarms the mask. -/
  | eccFlipDisarm (fn : Nat) (v : Dword)
  /-- CURRYCOMB_PASS (R217): Admin 0xCC requests a namespace, Yard or SRAM pass, queued up to four. -/
  | currycombPass (c : Cmd)
  /-- CURRYCOMB_AUTO_PASS_START (R216): With AUTO = 1, firmware starts an automatic Paddock, Yard or SRAM pass when its interval falls due. -/
  | currycombAutoPassStart
  /-- CURRYCOMB_PASS_END (R217): A pass ends; its summary goes to CCB_LAST, record 0x5020 is written, and a requested pass completes. -/
  | currycombPassEnd (res : PassRes)
  /-- ENTROPY_HEALTH_FAIL (R297): The entropy source fails its health test; the device enters HALTED and writes record 0x8031. -/
  | entropyHealthFail
  /-- SQ_TAIL_DOORBELL (R223): A write to an SQ tail doorbell records the new tail, is ignored if invalid, and is a wake event in states 3 and 4. -/
  | sqTailDoorbell (fn qid val : Nat)
  /-- CQ_HEAD_DOORBELL (R223): A write to a CQ head doorbell frees entries, lets held completions post, and never wakes the device. -/
  | cqHeadDoorbell (fn qid val : Nat)
  /-- FETCH_SLOT (R230): In each fetch slot one command is fetched from the next fetchable function by round robin, and from its SQ by its arbitration mode. -/
  | fetchSlot (c : Cmd)
  /-- CONTROLLER_ENABLE (R224): CC.EN 0 to 1 is checked against the supported values; CSTS.RDY becomes 1 when the mode allows, or stays 0 with record 0x6001. -/
  | controllerEnable (fn : Nat) (cc : Dword)
  /-- CONTROLLER_RESET (R240): CC.EN 1 to 0 stops fetching, discards or fences commands without completion, deletes queues and resets Features. -/
  | controllerReset (fn : Nat)
  /-- FUNCTION_LEVEL_RESET_PF (R240): A function-level reset of the Owner PF or port B PF acts as a controller reset; for the Owner PF it also removes every stall. -/
  | functionLevelResetPf (fn : Nat)
  /-- SHUTDOWN (R91): A CC.SHN write stops fetching for the controller and begins completing its writes, with a device-wide drain if it is the last function fetching. -/
  | shutdown (fn shn : Nat)
  /-- SHUTDOWN_COMPLETE (R91): The controller's writes are durable, a clean-close is written if no function still fetches, and SHST reads 2h. -/
  | shutdownComplete (fn : Nat)
  /-- CREATE_IO_SQ (R222): Create I/O Submission Queue, checked against the function's pairs. -/
  | createIoSq (c : Cmd)
  /-- CREATE_IO_CQ (R223): Create I/O Completion Queue, checked against the function's pairs and vectors. -/
  | createIoCq (c : Cmd)
  /-- DELETE_IO_SQ (R235): Delete I/O SQ aborts undispatched commands with 0h/0x08 and completes after dispatched ones. -/
  | deleteIoSq (c : Cmd)
  /-- DELETE_IO_CQ (R235): Delete I/O CQ, refused with 1h/0x0C while an SQ is attached. -/
  | deleteIoCq (c : Cmd)
  /-- GET_LOG_PAGE (R9): Get Log Page of a standard page, including SMART/Health, Error Information, Changed Zone List and Sanitize Status. -/
  | getLogPage (c : Cmd)
  /-- IDENTIFY (R249): Identify returns the controller, namespace, primary capability or secondary list data for the function. -/
  | identify (c : Cmd)
  /-- GET_FEATURES (R228): Get Features returns the current value, the factory default, or the capabilities of a Feature. -/
  | getFeatures (c : Cmd)
  /-- SET_FEATURES_ARBITRATION (R230): Set Features 01h sets AB and the class weights for the function. -/
  | setFeaturesArbitration (c : Cmd)
  /-- SET_FEATURES_VOLATILE_WRITE_CACHE (R88): Set Features 06h sets WCE, refused while WT = 1. -/
  | setFeaturesVolatileWriteCache (c : Cmd)
  /-- SET_FEATURES_NUMBER_OF_QUEUES (R222): Set Features 07h returns the fixed queue counts, refused once an I/O queue exists. -/
  | setFeaturesNumberOfQueues (c : Cmd)
  /-- SET_FEATURES_INTERRUPT_COALESCING (R228): Set Features 08h sets THR and TIME. -/
  | setFeaturesInterruptCoalescing (c : Cmd)
  /-- SET_FEATURES_INTERRUPT_VECTOR_CONFIG (R228): Set Features 09h sets Coalescing Disable for a vector. -/
  | setFeaturesInterruptVectorConfig (c : Cmd)
  /-- SET_FEATURES_WRITE_ATOMICITY (R228): Set Features 0Ah is accepted and has no effect. -/
  | setFeaturesWriteAtomicity (c : Cmd)
  /-- SET_FEATURES_ASYNC_EVENT_CONFIG (R228): Set Features 0Bh enables the asynchronous event notices. -/
  | setFeaturesAsyncEventConfig (c : Cmd)
  /-- SET_FEATURES_HOST_BEHAVIOR_SUPPORT (R248): Set Features 16h sets ACRE, which enables CRD. -/
  | setFeaturesHostBehaviorSupport (c : Cmd) (buf : List Byte)
  /-- SET_FEATURES_EXTENSION_LEVEL (R243): Set Features 0xC0 negotiates the function's Extension Level. -/
  | setFeaturesExtensionLevel (c : Cmd)
  /-- SET_FEATURES_POWER_MANAGEMENT (R373): Set Features 02h changes the controller's power state, and the device state follows R373. -/
  | setFeaturesPowerManagement (c : Cmd)
  /-- SET_FEATURES_APST (R372): Set Features 0Ch configures autonomous power state transitions. -/
  | setFeaturesApst (c : Cmd) (buf : List Byte)
  /-- SET_FEATURES_NOPSC (R372): Set Features 11h sets NOPPME. -/
  | setFeaturesNopsc (c : Cmd)
  /-- SET_FEATURES_TEMPERATURE_THRESHOLD (R394): Set Features 04h sets over and under thresholds for the composite and sensors 1 to 8. -/
  | setFeaturesTemperatureThreshold (c : Cmd)
  /-- APST_IDLE_EXPIRY (R372): A controller idle for its APST time autonomously moves to its configured non-operational state. -/
  | apstIdleExpiry (fn : Nat)
  /-- ASYNCHRONOUS_EVENT_REQUEST (R226): An AER is held outstanding until an enabled event is posted through it. -/
  | asynchronousEventRequest (c : Cmd)
  /-- ABORT (R238): Abort is decided in one clock: from the Owner PF an undispatched target is aborted, elsewhere nothing changes. -/
  | abort (c : Cmd)
  /-- FIRMWARE_IMAGE_DOWNLOAD (R242): Firmware Image Download stores a part of an image at 32 KiB granularity. -/
  | firmwareImageDownload (c : Cmd)
  /-- FW_COMMIT_REPLACE (R242): Firmware Commit CA 000b writes and checks the image with no activation. -/
  | fwCommitReplace (c : Cmd)
  /-- FW_COMMIT_REPLACE_ACTIVATE_NEXT (R242): Firmware Commit CA 001b writes and checks the image and activates it at the next start. -/
  | fwCommitReplaceActivateNext (c : Cmd)
  /-- FW_COMMIT_ACTIVATE_NEXT (R242): Firmware Commit CA 010b activates the slot's image at the next start. -/
  | fwCommitActivateNext (c : Cmd)
  /-- FW_COMMIT_ACTIVATE_NOW (R242): Firmware Commit CA 011b writes and checks the image and activates it without reset. -/
  | fwCommitActivateNow (c : Cmd)
  /-- FW_COMMIT_CHECK_DONE (R242): The image signature check ends; on pass with CA 011b, FW_ACTIVATE is entered and fetching stops. -/
  | fwCommitCheckDone (ok : Bool) (rev : Nat)
  /-- FW_ACTIVATION_END (R242): Activation ends within 500 ms; TXS_FWREV updates, the mode returns, fetching resumes, and held CC writes take effect. -/
  | fwActivationEnd (ok : Bool)
  /-- INTERRUPT_COALESCING_TIME_EXPIRY (R228): The coalescing TIME expires and the vector is signalled. -/
  | interruptCoalescingTimeExpiry (fn vec : Nat)
  /-- HOST_MEMORY_ERROR (R118): A host memory transfer fails; an accepted write's range becomes unreadable, or the command ends with 0h/0x04. -/
  | hostMemoryError (fn sqid cid : Nat)
  /-- GATHER_READ (R255): Vendor I/O 0x81 is fetched and waits for a Gather Read channel. -/
  | gatherRead (c : GatherCmd)
  /-- GATHER_CHANNEL_GRANT (R257): A channel is granted to a waiting Gather Read, which reads and checks its index table, then reads and packs its elements. -/
  | gatherChannelGrant (mem : HostMem)
  /-- GATHER_CHANNEL_WAIT_EXPIRY (R257): A Gather Read waits more than one turn for a channel, and record 0x7030 is written. -/
  | gatherChannelWaitExpiry (fn sqid cid : Nat)
  /-- GATHER_READ_COMPLETE (R261): Within 1 µs of the last beat, the completion is posted with the element-failure outcome. -/
  | gatherReadComplete (ch : Nat) (badBeat : Option Nat)
  /-- BEAT_LANE_AGEING (R254): A channel granted no beat for 100 µs raises its effective priority. -/
  | beatLaneAgeing (ch : Nat)
  /-- GDC_START (R269): GDC_CTL.START starts a maintenance transfer from the registers, after the checks of R265. -/
  | gdcStart (fn ch : Nat) (v : Dword) (mem : HostMem)
  /-- GDC_STOP (R270): GDC_CTL.STOP parks a running maintenance channel and keeps its buffers. -/
  | gdcStop (fn ch : Nat) (w : StopWrite)
  /-- GDC_RESUME (R269): GDC_CTL.RESUME continues a parked channel, re-reads the tail link word, or sets RESUME_PEND. -/
  | gdcResume (fn ch : Nat) (v : Dword) (mem : HostMem)
  /-- GDC_CLEAR (R269): GDC_CTL.CLEAR abandons a parked, tail or faulted channel and returns it to idle. -/
  | gdcClear (fn ch : Nat) (v : Dword)
  /-- GDC_TRANSFER_END (R267): A maintenance transfer writes its last beat and reads its link word, then loads the next descriptor or stops at the tail. -/
  | gdcTransferEnd (ch moved : Nat) (mem : HostMem)
  /-- HALF_HITCH_APPEND (R277): Vendor I/O 0x8D is checked, then its data is transferred and coded block by block. -/
  | halfHitchAppend (c : Cmd) (blks : List Blk)
  /-- HALF_HITCH_ACCEPTANCE (R277): When the last block is coded, the checks are repeated and the blocks take units from HALF_WP, or the command ends with 1h/0xB8. -/
  | halfHitchAcceptance (fn sqid cid : Nat) (mapOk : Bool)
  /-- HALF_HITCH_READ (R279): Vendor I/O 0x8E walks stored blocks from HADDR and delivers each one decoded. -/
  | halfHitchRead (c : Cmd)
  /-- KEY_SLOT_WRITE (R293): A key-slot write collects key bytes; a write covering +0x1F commits the key or clears the slot. -/
  | keySlotWrite (fn off : Nat) (bytes : List Byte)
  /-- SEAL_ZONE (R305): Vendor I/O 0x8A pads and finishes a sealed zone, sets SEALED and returns the seal record. -/
  | sealZone (c : Cmd)
  /-- CVU_INIT (R309): CVU_CTL.INIT resets a check-value unit's value, counts and DONE. -/
  | cvuInit (fn unit : Nat) (v : Dword)
  /-- CVU_FEED_WRITE (R308): With SRC 0x5, a write to CVU_FEED folds its bytes into the CRC. -/
  | cvuFeedWrite (fn unit : Nat) (bytes : List Byte)
  /-- CVU_VAL_WRITE (R309): A write to CVU_VAL sets the running CRC context. -/
  | cvuValWrite (fn unit : Nat) (v : BitVec 64)
  /-- VF_ENABLE_SET (R314): Setting VF Enable creates stalls 1 to NumVFs in the offline state with default resources. -/
  | vfEnableSet
  /-- VF_ENABLE_CLEAR (R314): Clearing VF Enable resets and removes every stall and returns its resources. -/
  | vfEnableClear
  /-- NUMVFS_WRITE (R313): A write of NumVFs is clamped to TotalVFs, and is ignored while VF Enable = 1. -/
  | numvfsWrite (n : Nat)
  /-- VIRT_MGMT_RESOURCE_ASSIGN (R221): Virtualization Management assigns VQ or VI flexible resources to an offline stall. -/
  | virtMgmtResourceAssign (c : Cmd)
  /-- VIRT_MGMT_SECONDARY_ONLINE (R314): Secondary Online brings a stall online. -/
  | virtMgmtSecondaryOnline (c : Cmd)
  /-- VIRT_MGMT_SECONDARY_OFFLINE (R321): Secondary Offline takes a stall offline, resetting it if its CC.EN = 1. -/
  | virtMgmtSecondaryOffline (c : Cmd)
  /-- VF_FUNCTION_LEVEL_RESET (R321): A stall reset fences the stall's work, clears its keys and private units, and closes its open zones. -/
  | vfFunctionLevelReset (fn : Nat)
  /-- STALL_RESOURCE_SET (R317): Admin 0xC2 changes a function's quota, zone limits, Yard mask, key slots or private units. -/
  | stallResourceSet (c : Cmd) (buf : List Byte)
  /-- STALL_FREEZE (R323): Admin 0xC4 with THAW = 0 freezes a stall and ends its undispatched commands with 7h/0x87. -/
  | stallFreeze (c : Cmd)
  /-- STALL_THAW (R323): Admin 0xC4 with THAW = 1 clears FRZ, and fetching resumes from the recorded tails. -/
  | stallThaw (c : Cmd)
  /-- STALL_FREEZE_QUIET (R323): A frozen stall's last command completes; QUIET becomes 1 and the Freeze completes. -/
  | stallFreezeQuiet (fn : Nat)
  /-- STALL_FREEZE_TIMEOUT (R324): TIMEOUT passes before QUIET; the Freeze ends with 7h/0x87 and the stall stays frozen. -/
  | stallFreezeTimeout (fn : Nat)
  /-- STALL_SAVE (R325): Admin 0xC5 writes the frozen, quiet stall's tagged state blob. -/
  | stallSave (c : Cmd)
  /-- STALL_RESTORE (R329): Admin 0xC6 checks a blob and loads it into a frozen target stall, moving zone and seal ownership on the same device. -/
  | stallRestore (c : Cmd) (buf : List Byte)
  /-- TURN_START (R342): A new turn begins by the cycle count; reconstruction tokens refill, and due busy-turn work and proof-loads may start. -/
  | turnStart
  /-- EPOCH_BOUNDARY (R364): TURN wraps to 0; EPOCH increments, and version changes, pending schedules, MAXDEPTH and RESYNC take effect. -/
  | epochBoundary
  /-- TURN_HEADER (R340): A turn header is received; a good CRC corrects the count and applies TOKEN, and a bad one is counted in CAD_HDR_ERR. -/
  | turnHeader (t : TurnIn)
  /-- ALL_QUIET (R341): Header command 0x01 makes the next N turns quiet for every participant. -/
  | allQuiet (n seq : Nat)
  /-- RELEASE (R341): Header command 0x02 ends an ALL_QUIET early. -/
  | release (seq : Nat)
  /-- RESYNC (R341): Header command 0x03 announces an EPOCH jump at the next boundary. -/
  | resync (epoch seq : Nat)
  /-- ALL_QUIET_EXPIRY (R341): The N turns of an ALL_QUIET have passed, and schedules apply again. -/
  | allQuietExpiry
  /-- LOCK_ACQUIRED (R349): A second good header 100,000 cycles after the first sets LOCK and TSRC at the next turn. -/
  | lockAcquired
  /-- LOCK_LOST (R350): Three bad headers in a row, or 1 µs without CAD_CK, clears LOCK and TSRC, and the device counts alone. -/
  | lockLost (clock : Bool)
  /-- POLL_STATUS (R345): A STATUS poll addressed to the participant is answered with status, and BREAK and BRK_TURNS clear. -/
  | pollStatus (slot : PollAt)
  /-- POLL_IDENT (R345): An IDENT poll is answered with role, depth and part. -/
  | pollIdent (slot : PollAt)
  /-- POLL_SCHED_COMMIT (R357): A SCHED_COMMIT poll moves a complete staged schedule to pending, or is refused with chunks missing. -/
  | pollSchedCommit (slot : PollAt) (arg : Nat)
  /-- POLL_SCHED_DATA (R357): A SCHED_DATA poll stores one 32-bit schedule chunk in staging. -/
  | pollSchedData (slot : PollAt) (idx : Nat) (data : Dword)
  /-- POLL_UNKNOWN (R344): A poll with an unknown PCODE is answered with RSTAT 0b001. -/
  | pollUnknown (slot : PollAt) (ask : PollAsk)
  /-- ROOT_POLL_ANSWER (R345): The root captures an answer with a good CRC-8, marks the address present and updates log page 0xD3. -/
  | rootPollAnswer (addr code : Nat) (ports : List Nat) (words : List (BitVec 40))
  /-- PARTICIPANT_ABSENT (R345): An address unanswered for 600 turns is marked absent and record 0xA051 is written. -/
  | participantAbsent (addr : Nat)
  /-- PORT_TRAINING_SWEEP_END (R348): A downstream port ends a 16-step phase sweep and takes the centre step, or fails after two empty sweeps. -/
  | portTrainingSweepEnd (port : Nat) (steps : List Bool)
  /-- CADENCE_SCHEDULE_LOAD (R358): Admin 0xC8 commits a schedule locally, or has the root deliver it to a target participant. -/
  | cadenceScheduleLoad (c : Cmd) (buf : List Byte)
  /-- SCHEDULE_DELIVERY_TIMEOUT (R358): A delivery target stops answering for 1,000 turns, and the command ends with 0h/0x06. -/
  | scheduleDeliveryTimeout
  /-- CAD_PF_SEND (R361): A write of CAD_CTL.PF_SEND makes a root broadcast power failure and enter EMERGENCY_FLUSH. -/
  | cadPfSend (fn : Nat)
  /-- TOKEN_RELEASE (R360): A write of CAD_CTL.TOKEN_RELEASE lifts a token level held after lock loss. -/
  | tokenRelease (fn : Nat)
  /-- RELOCK (R368): A write of CAD_CTL.RELOCK drops lock and searches again. -/
  | relock (fn : Nat)
  /-- CAD_ROOT_CMD_SEND (R367): A write of CAD_ROOT_CMD.SEND sends the command in four headers with a new CMD_SEQ. -/
  | cadRootCmdSend (fn : Nat) (v : BitVec 64)
  /-- CAD_ROOT_EPOCH_WRITE (R367): A write to CAD_ROOT_EPOCH sends RESYNC, and EPOCH takes the value at the next boundary. -/
  | cadRootEpochWrite (fn : Nat) (v : BitVec 64)
  /-- CADENCE_DOMAIN_STATUS_LOG (R369): Get Log Page 0xD3 on a root returns the per-address domain status. -/
  | cadenceDomainStatusLog (c : Cmd)
  /-- POWER_LOOP_WINDOW (R376): At the end of each 100 µs window the rate factor F is updated from P_meas and P_lim. -/
  | powerLoopWindow (pMeas : Nat)
  /-- HOUSEKEEPING_ROUND (R387): Every 100 turns sensors and rails are read, then throttling, THM, HOLD sag, proof-load triggers and life use are evaluated. -/
  | housekeepingRound (r : HkRound)
  /-- NONOP_ENTRY_BEGIN (R378): When every entry condition holds, entry to state 3 or 4 begins with the first sleep request. -/
  | nonopEntryBegin
  /-- SLEEP_HANDSHAKE_REPLY (R379): A block agrees or refuses; the next block is asked, entry completes after block 10, or a refusal aborts the entry. -/
  | sleepHandshakeReply (agree : Bool)
  /-- NONOP_EXIT_END (R383): Exit restores the blocks and fetching resumes; after state 4 the base mode is entered. -/
  | nonopExitEnd (hdr : Option (Nat × Nat))
  /-- PWR_MEAS_READ (R395): A read of PWR_MEAS returns P_PEAK and resets it. -/
  | pwrMeasRead (fn : Nat)
  /-- STUDBOOK_RECORD_PLACE (R400): A queued event is placed in the ring with the next SEQ, merged into REPEAT, overwriting a lower record, or dropped. -/
  | studbookRecordPlace
  /-- STUDBOOK_PERSIST (R403): Dirty ring groups and a SEQ reservation are programmed into both journal copies. -/
  | studbookPersist
  /-- STUDBOOK_READ (R408): Admin 0xCA returns filtered records from SEQ_FROM, taken in one clock. -/
  | studbookRead (c : Cmd)
  /-- STB_SLOT_FIRST_DWORD_READ (R407): A read of a window slot's first dword latches all 32 bytes of that slot. -/
  | stbSlotFirstDwordRead (view slot : Nat)
  /-- TAP_RESET (R445): TRST_N low or Test-Logic-Reset selects IDCODE. -/
  | tapReset
  /-- SAMPLE_PRELOAD (R445): Instruction 0x01 samples and preloads the boundary register. -/
  | samplePreload (inp : List Bool) (shift : List Bool)
  /-- IDCODE (R445): Instruction 0x02 selects the 32-bit IDCODE register. -/
  | idcode
  /-- EXTEST (R445): Instruction 0x03 drives balls from the boundary register in TEST. -/
  | extest (shift : List Bool)
  /-- CLAMP (R445): Instruction 0x04 holds the boundary outputs and selects bypass in TEST. -/
  | clamp
  /-- HIGHZ (R445): Instruction 0x05 places outputs in high impedance in TEST. -/
  | highz
  /-- EXTEST_PULSE (R445): Instruction 0x06 runs 1149.6 pulse testing of the AC-coupled lanes in TEST. -/
  | extestPulse
  /-- EXTEST_TRAIN (R445): Instruction 0x07 runs 1149.6 train testing of the AC-coupled lanes in TEST. -/
  | extestTrain
  /-- BYPASS (R445): An unlisted instruction, or a TEST-only one outside TEST, selects the bypass register. -/
  | bypass (ir : Nat)
  /-- TEST_ENTER (R442): Instruction 0x20 with 0x7E57 enters TEST at once or after a drain, or is refused. -/
  | testEnter (key : Nat)
  /-- TEST_DRAIN_END (R442): The drain for a port entry ends with a clean-close, and the device enters TEST. -/
  | testDrainEnd
  /-- TSTAT (R445): Instruction 0x21 reads the test status word. -/
  | tstat
  /-- TXS_READ (R445): Instruction 0x22 reads a TXS offset as an Owner PF read would. -/
  | txsRead (off : Nat)
  /-- MBIST (R447): Instruction 0x30 with START going 0 to 1 begins a memory BIST run. -/
  | mbist (v : Nat)
  /-- MBIST_RES (R447): Instruction 0x31 reads the memory BIST results. -/
  | mbistRes
  /-- MBIST_END (R447): A BIST run ends; macros are repaired or FAIL is set, valid bits and keys are cleared, and records are written. -/
  | mbistEnd (res : BistRes)
  /-- FPTEST (R448): Instruction 0x38 with START going 0 to 1 begins a read-scan or destructive flash pattern test. -/
  | fptest (v : Nat)
  /-- FP_RES (R448): Instruction 0x39 reads the flash pattern test results. -/
  | fpRes
  /-- FPTEST_END (R448): A flash pattern test ends, or stops on power failure; FP_RES is filled and record 0xC021 is written. -/
  | fptestEnd (res : FpRes) (bad : List (Nat × Nat × Nat))
  /-- SPI_PROG (R445): Instruction 0x40 erases an image slot or appends a word to it in TEST. -/
  | spiProg (v : Nat)
  /-- SERVICE_LIFE_LOG (R452): Get Log Page 0xD7 returns the Service Life page to a PF. -/
  | serviceLifeLog (c : Cmd)
  /-- NVME_MI_COMMAND (R420): An NVMe-MI command over SMBus or I3C is answered, and wakes the device from states 3 and 4. -/
  | nvmeMiCommand (fn : Option Nat)
  /-- I3C_DYNAMIC_ADDRESS_ASSIGNMENT (R420): An ENTDAA or SETDASA broadcast turns the management port into an I3C Basic target. -/
  | i3cDynamicAddressAssignment (addr : Nat)
  /-- REGISTER_WRITE (R14): A write to a register with no row of its own applies under its access code and width rules. -/
  | registerWrite (fn space off width : Nat) (v : BitVec 64)
  /-- REG_READ_LOW_DWORD (R18): A 32-bit read of a 64-bit register's low dword latches the high dword into a shadow. `width`: the bytes read (R17). -/
  | regReadLowDword (fn space : Nat) (a : RegAt)
  /-- REG_READ_HIGH_DWORD (R18): A 32-bit read of a high dword returns and drops the shadow, or returns the live value if none is held. `width`: the bytes read (R17). -/
  | regReadHighDword (fn space : Nat) (a : RegAt)
  /-- POWER_LOSS (R31): The supplies leave their range, or HOLD reaches VCUT and the converter stops, so the device loses all state except media and a flush in progress ends where it stands. -/
  | powerLoss
  /-- PWRFAIL_N_RISE (R34): PWRFAIL_N returns high, which starts the 10 ms count after which a completed flush passes through RESET. -/
  | pwrfailNRise
  /-- SYS_RST_N_RISE (R46): SYS_RST_N rises, ending the reset and starting the 100 µs to strap sampling and the RESET bounds of Table 2.3. -/
  | sysRstNRise
  /-- PERST_DEASSERT (R49): PERST# deasserts; link training to Detect follows within 15.2 ms, or waits for a device-level drain still running. -/
  | perstDeassert (port : Nat)
  /-- JOURNAL_CHECKPOINT (R178): The device writes a journal checkpoint, rewriting the block ledger, learned offsets, the committed schedule, the service-life page and dirty Studbook groups. -/
  | journalCheckpoint
  /-- OSCILLATOR_32K_STOPPED (R430): The 32.768 kHz oscillator is absent or stops, and the always-on counter moves to the 38.4 MHz reference, or in RETAIN without lock to the internal oscillator. -/
  | oscillator32kStopped
  /-- INVALID_COMMAND_OPCODE (R9): A command with an opcode the device does not support, such as Device Self-test or Copy, ends with 0h/0x01. -/
  | invalidCommandOpcode (c : Cmd)
deriving DecidableEq, Repr

end Sys2Proof
end

