-- ==== Sys2Proof/Machine/Crypto.lean ====
section
/-! DEFINITION. The ciphers of Chapter 11: AES-256, AES-CMAC (NIST SP 800-38B), the counter mode of R300, the KDF of R300, XTS
(IEEE 1619). -/

namespace Sys2Proof.Machine
open Sys2Proof

/-! ## AES-256 (FIPS 197, to which R296 and R300 refer) -/

/-- Doubling in GF(2^8). -/
def gfDbl (b : Byte) : Byte := if b.getLsbD 7 then (b <<< 1) ^^^ 0x1B else b <<< 1
/-- Multiplication in GF(2^8), by the bits of the second factor. -/
def gfMul (a b : Byte) : Byte :=
  ((List.range 8).foldl (fun (s : Byte × Byte) i => (if b.getLsbD i then s.1 ^^^ s.2 else s.1, gfDbl s.2)) (0, a)).1
/-- Inversion: the 254th power. -/
def gfInv (a : Byte) : Byte :=
  let sq := fun x => gfMul x x
  let a2 := sq a
  let a3 := gfMul a2 a
  let a12 := sq (sq a3)
  let a15 := gfMul a12 a3
  let a240 := sq (sq (sq (sq a15)))
  gfMul (gfMul a240 a12) a2
/-- The S-box. -/
def sbox (a : Byte) : Byte :=
  let b := gfInv a
  b ^^^ b.rotateLeft 1 ^^^ b.rotateLeft 2 ^^^ b.rotateLeft 3 ^^^ b.rotateLeft 4 ^^^ 0x63

/-- Exclusive or of two byte strings. -/
def xorB (a b : List Byte) : List Byte := List.zipWith (· ^^^ ·) a b

/-- The next words of the key schedule; `w` is the schedule so far, last word first, of `i` words. -/
def keyStep (w : List (List Byte)) (i : Nat) (rc : Byte) : List (List Byte) :=
  let last := w.headD []
  let t := if i % 8 = 0 then xorB ((last.drop 1 ++ last.take 1).map sbox) [rc, 0, 0, 0]
           else if i % 8 = 4 then last.map sbox else last
  xorB (w.getD 7 []) t :: w

/-- The words of a key. -/
def wordsOf : Nat → List Byte → List (List Byte)
  | 0, _ => []
  | n + 1, l => l.take 4 :: wordsOf n (l.drop 4)

/-- The fifteen round keys of AES-256. -/
def roundKeys (k : List Byte) : List (List Byte) :=
  let w := (List.range 52).foldl (fun (s : List (List Byte) × Byte) j =>
    (keyStep s.1 (j + 8) s.2, if (j + 8) % 8 = 0 then gfDbl s.2 else s.2)) ((wordsOf 8 k).reverse, 1)
  let r := w.1.reverse
  (List.range 15).map (fun i => ((r.drop (4 * i)).take 4).flatten)

/-- ShiftRows on the column-major state. -/
def shiftRows (s : List Byte) : List Byte :=
  (List.range 16).map (fun i => nth s ((i + 4 * (i % 4)) % 16) 0)
/-- MixColumns on one column. -/
def mixCol : List Byte → List Byte
  | [a, b, c, d] =>
    [gfDbl a ^^^ gfDbl b ^^^ b ^^^ c ^^^ d, a ^^^ gfDbl b ^^^ gfDbl c ^^^ c ^^^ d,
     a ^^^ b ^^^ gfDbl c ^^^ gfDbl d ^^^ d, gfDbl a ^^^ a ^^^ b ^^^ c ^^^ gfDbl d]
  | l => l
/-- MixColumns. -/
def mixCols (s : List Byte) : List Byte := (wordsOf 4 s).flatMap mixCol

/-- One block under expanded keys. -/
def aesWith (rk : List (List Byte)) (b : List Byte) : List Byte :=
  let s0 := xorB b (rk.headD [])
  let s13 := ((rk.drop 1).take 13).foldl (fun s k => xorB (mixCols (shiftRows (s.map sbox))) k) s0
  xorB (shiftRows (s13.map sbox)) (rk.getD 14 [])
/-- AES-256 of one block. -/
def aes (k b : List Byte) : List Byte := aesWith (roundKeys k) b

/-! ### The inverse cipher -/

/-- The inverse S-box. -/
def sboxInv (a : Byte) : Byte := gfInv (a.rotateLeft 1 ^^^ a.rotateLeft 3 ^^^ a.rotateLeft 6 ^^^ 0x05)
/-- InvShiftRows. -/
def shiftRowsInv (s : List Byte) : List Byte :=
  (List.range 16).map (fun i => nth s ((i + 12 * (i % 4)) % 16) 0)
/-- InvMixColumns on one column. -/
def mixColInv : List Byte → List Byte
  | [a, b, c, d] =>
    [gfMul a 14 ^^^ gfMul b 11 ^^^ gfMul c 13 ^^^ gfMul d 9, gfMul a 9 ^^^ gfMul b 14 ^^^ gfMul c 11 ^^^ gfMul d 13,
     gfMul a 13 ^^^ gfMul b 9 ^^^ gfMul c 14 ^^^ gfMul d 11, gfMul a 11 ^^^ gfMul b 13 ^^^ gfMul c 9 ^^^ gfMul d 14]
  | l => l
/-- InvMixColumns. -/
def mixColsInv (s : List Byte) : List Byte := (wordsOf 4 s).flatMap mixColInv
/-- One block deciphered under expanded keys. -/
def aesInvWith (rk : List (List Byte)) (b : List Byte) : List Byte :=
  let s0 := (shiftRowsInv (xorB b (rk.getD 14 []))).map sboxInv
  let s13 := ((rk.drop 1).take 13).reverse.foldl (fun s k => (shiftRowsInv (mixColsInv (xorB s k))).map sboxInv) s0
  xorB s13 (rk.headD [])

/-! ## CMAC -/

/-- Doubling in GF(2^128), big-endian. -/
def dbl128 (b : List Byte) : List Byte :=
  let v := leNat b.reverse
  let d := v * 2 % 2 ^ 128
  beBytes 16 (if v / 2 ^ 127 = 1 then d ^^^ 0x87 else d)

/-- Cut a string into blocks of 16 bytes. -/
def blocks16 : Nat → List Byte → List (List Byte)
  | 0, _ => []
  | n + 1, l => l.take 16 :: blocks16 n (l.drop 16)

/-- AES-CMAC. -/
def cmac (k m : List Byte) : List Byte :=
  let rk := roundKeys k
  let k1 := dbl128 (aesWith rk (zeroBytes 16))
  let n := max 1 (ceilDiv m.length 16)
  let whole := m.length == 16 * n
  let bs := blocks16 n m
  let last := bs.getD (n - 1) []
  let l' := if whole then xorB last k1 else xorB (padTo 16 (last ++ [0x80])) (dbl128 k1)
  aesWith rk (xorB ((bs.take (n - 1)).foldl (fun s b => aesWith rk (xorB s b)) (zeroBytes 16)) l')

/-- KCV of a key (R294): the first three bytes, byte 0 in [7:0]. -/
def kcvOf (k : List Byte) : Nat := leNat ((cmac k (zeroBytes 16)).take 3)

/-! ## Sealed zones (R300, R301) -/

/-- The derivation input M_i. -/
def kdfInput (i dev zone gen : Nat) : List Byte :=
  leBytes 1 i ++ [0x44, 0x5A, 0x58, 0x53, 0x45, 0x41, 0x4C, 0x31, 0x00] ++ leBytes 8 dev ++ leBytes 4 zone
    ++ leBytes 4 (gen % 2 ^ 32) ++ leBytes 2 (gen / 2 ^ 32) ++ [0x02, 0x00]
/-- K_enc. -/
def kEnc (k : List Byte) (dev zone gen : Nat) : List Byte := cmac k (kdfInput 1 dev zone gen) ++ cmac k (kdfInput 2 dev zone gen)
/-- K_mac. -/
def kMac (k : List Byte) (dev zone gen : Nat) : List Byte := cmac k (kdfInput 3 dev zone gen) ++ cmac k (kdfInput 4 dev zone gen)
/-- The counter block T(u, j). -/
def ctrBlock (u j : Nat) : List Byte := leBytes 4 u ++ zeroBytes 8 ++ beBytes 4 j
/-- AES-256-CTR over bytes that begin at byte `off` of a zone, a multiple of 16. The same function decrypts. -/
def ctrCrypt (ke : List Byte) (off : Nat) (l : List Byte) : List Byte :=
  let rk := roundKeys ke
  xorB l ((List.range (ceilDiv l.length 16)).flatMap (fun i =>
    let a := off / 16 + i
    aesWith rk (ctrBlock (a / 4096) (a % 4096))))
/-- The tag of a unit (R301). -/
def sealTag (km : List Byte) (zone gen u : Nat) (c : List Byte) : List Byte :=
  cmac km ([0x44, 0x5A, 0x58, 0x54] ++ leBytes 4 zone ++ leBytes 4 gen ++ leBytes 4 u ++ c)
/-- ZONE_TAG (R305). -/
def zoneTag (km : List Byte) (zone gen units : Nat) (tags : List (List Byte)) : List Byte :=
  cmac km ([0x44, 0x5A, 0x58, 0x5A] ++ leBytes 4 zone ++ leBytes 4 gen ++ leBytes 4 units ++ tags.flatten)

/-! ## XTS (R296) -/

/-- Multiply an XTS tweak by alpha, little-endian. -/
def xtsNext (t : List Byte) : List Byte :=
  let v := leNat t
  let d := v * 2 % 2 ^ 128
  leBytes 16 (if v / 2 ^ 127 = 1 then d ^^^ 0x87 else d)
/-- The blocks of a data unit under a block operation, each masked by its tweak. -/
def xtsBlocks (op : List Byte → List Byte) : List Byte → List (List Byte) → List Byte
  | _, [] => []
  | t, b :: bs => xorB (op (xorB b t)) t ++ xtsBlocks op (xtsNext t) bs
/-- The first tweak of a data unit with a sequence number. -/
def xtsFirst (pair : List Byte) (tweak : Nat) : List Byte := aesWith (roundKeys (pair.drop 32)) (leBytes 16 tweak)
/-- XTS-AES-256 encryption of a data unit of whole blocks, with its sequence number as tweak. -/
def xtsEnc (pair : List Byte) (tweak : Nat) (l : List Byte) : List Byte :=
  xtsBlocks (aesWith (roundKeys (pair.take 32))) (xtsFirst pair tweak) (blocks16 (l.length / 16) l)
/-- XTS-AES-256 decryption. -/
def xtsDec (pair : List Byte) (tweak : Nat) (l : List Byte) : List Byte :=
  xtsBlocks (aesInvWith (roundKeys (pair.take 32))) (xtsFirst pair tweak) (blocks16 (l.length / 16) l)
/-- The tweak of an uncompressed block, and of a compressed unit (R296). -/
def xtsTweak (half : Bool) (n : Nat) : Nat := if half then n + 2 ^ 127 else n

end Sys2Proof.Machine
end

