-- ==== Sys2Proof/Config.lean ====
section
/-! DEFINITION. What the spec leaves open and the machine goes on with: free values. Each is a constant without a body, applied
to the State's counter `free` (or to the operands it depends on), so no proof can rest on a value of it. -/

namespace Sys2Proof.Config

/-- A bit the spec leaves undefined (a strap that changes inside its window, R46; a pulse of an unspecified length). -/
opaque freeBit : Nat → Bool

/-- A number the spec leaves open (a firmware policy's choice, a count no rule gives, a syndrome). -/
opaque freeNat : Nat → Nat

/-- A byte the spec leaves open (a vendor-defined byte of a data structure, a tag no rule gives). -/
opaque freeByte : Nat → BitVec 8

/-- The 32 key bytes drawn from the entropy source (R297). -/
opaque freeKey : Nat → List (BitVec 8)

/-- The device's own number, fixed at manufacture: bytes 3,072 to 3,079 of Identify Controller (Table 12.6). -/
opaque devId : Nat

/-- The wear bin of a wear count: firmware sets the bounds (R204). -/
opaque wearBin : Nat → Fin 4

/-- Bits of a codeword that a class decodes at steps 0 to 2: the design points of Table 7.3 bind nothing. -/
opaque ldpcLimit : Nat → Nat

/-- LDPC parity bytes of a codeword's 4,144 or 4,192 information bytes at a class (R199): the construction of the code is not given. -/
opaque ldpc : Nat → List (BitVec 8) → List (BitVec 8)

/-- The pseudo-random sequence of a codeword, seeded by block, wordline and its number in the page (R199). -/
opaque scramble : Nat → Nat → Nat → List (BitVec 8)

/-- Format 4096+16 uses the 64-bit guard, not the 32-bit one (Table 11.9). -/
opaque guard64 : Bool

/-- The half-hitch coding of a block: which of the decodings' inverses the encoder picks (R287). -/
opaque hhCode : List (BitVec 8) → List (BitVec 8)

end Sys2Proof.Config
end

