-- ==== Sys2Proof/Machine/Crc.lean ====
section
/-! DEFINITION. The check values the spec names: the three models of Table 11.7, the CRC-8 of R344, the word sum of R283. -/

namespace Sys2Proof.Machine
open Sys2Proof

/-- Width of a model of Table 11.7. -/
def crcWidth (poly : Nat) : Nat := if poly = 0 then 16 else if poly = 1 then 32 else 64

/-- The reflected polynomial of CRC-32C and CRC-64/NVMe; CRC-16/T10-DIF is not reflected. -/
def crcPoly (poly : Nat) : Nat :=
  if poly = 0 then 0x8BB7 else if poly = 1 then 0x82F63B78 else 0x9A6C9329AC4BC9B5

/-- One bit of a reflected register. -/
def crcRefl (p : Nat) : Nat → Nat → Nat
  | 0, r => r
  | n + 1, r => crcRefl p n (if r % 2 = 1 then (r / 2) ^^^ p else r / 2)

/-- One bit of the 16-bit register, most significant first. -/
def crcMsb (p : Nat) : Nat → Nat → Nat
  | 0, r => r
  | n + 1, r => crcMsb p n (if r / 32768 % 2 = 1 then (r * 2 % 65536) ^^^ p else r * 2 % 65536)

/-- The register of a model from a finished CRC, and back: the final XOR. -/
def crcFlip (poly v : Nat) : Nat := if poly = 0 then v else v ^^^ (2 ^ crcWidth poly - 1)

/-- Continue a finished CRC over more bytes: the CRC of the streams laid end to end (R307, R308). After INIT the value is 0. -/
def crcOn (poly v : Nat) (l : List Byte) : Nat :=
  crcFlip poly (l.foldl (fun r b =>
    if poly = 0 then crcMsb 0x8BB7 8 (r ^^^ (b.toNat * 256)) else crcRefl (crcPoly poly) 8 (r ^^^ b.toNat)) (crcFlip poly v))

/-- CRC of a byte string under a model. -/
def crcOf (poly : Nat) (l : List Byte) : Nat := crcOn poly 0 l

/-- CRC-8 over bits in transmission order, polynomial 0x07 (R344). -/
def crc8 (l : List Bool) : Nat :=
  l.foldl (fun r b =>
    let fb := (r / 128 % 2 == 1) != b
    let r' := r * 2 % 256
    if fb then r' ^^^ 7 else r') 0

/-- The sum of the little-endian 16-bit words of a block (Table 10.4). -/
def wordSum : List Byte → Nat
  | a :: b :: t => (a.toNat + 256 * b.toNat + wordSum t) % 65536
  | _ => 0

end Sys2Proof.Machine
end

