-- ==== Sys2Proof/Machine/TypesA.lean ====
section
/-! DEFINITION. Data types of the machine, part A: modes, pins and start-up (Chapters 1 and 2), the Studbook (Chapter 15),
Slack (Chapter 3). -/

namespace Sys2Proof.Machine
open Sys2Proof

/-- The operating modes of Table 1.6. -/
inductive Mode where
  | reset | imageLoad | proofLoad | recovery | service | writeThrough | thermalHold | readOnly
  | retain | emergencyFlush | fwActivate | sanitize | test | halted
deriving DecidableEq, Repr

/-- The code of a mode in TXS_MODE.CUR (Table 1.6). -/
def Mode.code : Mode → Nat
  | .reset => 0 | .imageLoad => 1 | .proofLoad => 2 | .recovery => 3 | .service => 4 | .writeThrough => 5
  | .thermalHold => 6 | .readOnly => 7 | .retain => 8 | .emergencyFlush => 9 | .fwActivate => 10
  | .sanitize => 11 | .test => 12 | .halted => 13

/-- The precedence of a mode, higher wins (R32). -/
def Mode.rank : Mode → Nat
  | .emergencyFlush => 13 | .halted => 12 | .test => 11 | .sanitize => 10 | .fwActivate => 9 | .recovery => 8
  | .retain => 7 | .readOnly => 6 | .thermalHold => 5 | .writeThrough => 4 | .service => 3 | .proofLoad => 2
  | .imageLoad => 1 | .reset => 0

/-- The modes 0x4 to 0x7, in which level conditions choose the base mode (R33). -/
def Mode.isBase : Mode → Bool
  | .service | .writeThrough | .thermalHold | .readOnly => true
  | _ => false

/-- The modes in which CSTS.RDY may read 1 (R31). -/
def Mode.ready : Mode → Bool
  | .service | .writeThrough | .thermalHold | .readOnly | .retain | .fwActivate | .sanitize => true
  | _ => false

/-- The modes from which EMERGENCY_FLUSH is entered (Table 1.6, R95). -/
def Mode.flushable : Mode → Bool
  | .proofLoad | .recovery | .service | .writeThrough | .thermalHold | .readOnly | .retain | .fwActivate
  | .sanitize | .halted => true
  | _ => false

/-- The start modes, whose durations Table 2.3 bounds. -/
def Mode.isStart : Mode → Bool
  | .reset | .imageLoad | .proofLoad | .recovery => true
  | _ => false

/-- The part fitted: the family member of Table 0.1 and the speed grade of R5. -/
structure Part where
  /-- Part digits, one per nibble: 0x9664, 0x9648 or 0x9632. -/
  part : Nat
  /-- Shed dies fitted: 4, 3 or 2. -/
  sheds : Nat
  /-- Speed grade X. -/
  gradeX : Bool
deriving DecidableEq, Repr

/-- Channels fitted (Table 0.1). -/
def Part.channels (p : Part) : Nat := 16 * p.sheds
/-- Device zone numbers (Table 1.4). -/
def Part.zones (p : Part) : Nat := 65536 * p.sheds
/-- Largest conventional namespace, in LBAs: 16 GiB a Shed die (R25). -/
def Part.convMax (p : Part) : Nat := 4194304 * p.sheds

/-- The drain that runs before a mode is entered (R36, R442, R393). A thermal trip's names the die, 0 Core, n + 1 Shed die n,
and its reading. -/
inductive Drain where
  | none | devReset | testPort | thermalTrip (die : Nat) (temp : Int)
deriving DecidableEq, Repr

/-- TXS_MODE and the conditions behind it (Tables 1.7 and 1.8, R32 to R36). -/
structure ModeS where
  cur : Mode
  prev : Mode
  chgCnt : Nat
  /-- TXS_MODE_STAMP. -/
  stamp : Nat
  wt : Bool
  /-- 0, 1 or 2 (R390). -/
  thm : Nat
  sparesOut : Bool
  /-- SMART critical warning bits 0 to 4 (R35). -/
  warn0 : Bool
  warn1 : Bool
  warn2 : Bool
  warn3 : Bool
  warn4 : Bool
  /-- Elapsed time at which the current mode was entered (R48). -/
  since : Nat
  drain : Drain
  /-- A TEST port entry that waits for the end of FW_ACTIVATE (R32). -/
  testPend : Bool
  /-- Ostler cores in restart (R27). -/
  cores : List Nat
deriving DecidableEq, Repr

/-- Input and output pins the spec gives levels to (Chapter 16). -/
structure Pins where
  sysRstN : Bool
  perstA : Bool
  perstB : Bool
  pwrfailN : Bool
  huOk : Bool
  huChgEn : Bool
  huLoad : Bool
  /-- Write protect to the flash: true when driven low, LUNs parked (Table 3.3 step 7). -/
  wpLow : Bool
  /-- The LTSSM has entered Detect (R49). -/
  detect : Bool
  /-- Device-level reset trigger held for the end of a flush (R45): 0 none, 1 SYS_RST_N, 2 PERST#. -/
  heldReset : Nat
  /-- PWRFAIL_N has returned high: the 10 ms count of R34 runs. -/
  pfHigh : Bool
  /-- Straps as sampled (Table 2.2). -/
  strapDual : Bool
  strapTest : Bool
  strapNoimg : Bool
  /-- GPIO0 … GPIO4 as the retention flip-flops hold them in RETAIN (R421). -/
  gpio : List Bool
deriving DecidableEq, Repr

/-- TXS_START, TXS_START_SEQ_A and _B, TXS_START_DUR (Tables 2.10 to 2.13). -/
structure StartS where
  cfgDefaulted : Bool
  slot : Nat
  slotASt : Nat
  slotBSt : Nat
  imgFmt : Nat
  secDflt : Nat
  unsafeSd : Bool
  flushShort : Bool
  jfault : Bool
  geomMismatch : Bool
  jcopy : Bool
  seqA : Nat
  seqB : Nat
  imgUs : Nat
  proofMs : Nat
  recovMs : Nat
  /-- PROOF_LOAD jobs (a), (b), (c) ended, and RECOVERY is needed. -/
  jobA : Bool
  jobB : Bool
  jobC : Bool
  needRecovery : Bool
  /-- The journal heads have been located in job (c) (R51). -/
  headsFound : Bool
  /-- This start has reached PROOF_LOAD. -/
  inProof : Bool
  /-- The start has ended: a service period may hold acknowledged data (R69). -/
  up : Bool
  /-- The SPI NOR slot contents the tester programs in TEST (R445). -/
  spiA : List Byte
  spiB : List Byte
deriving DecidableEq, Repr

/-- The configuration image's fields (Table 2.7). -/
structure Img where
  ssvid : Nat
  ssid : Nat
  maxRate : Nat
  widthCap : Nat
  pm : Nat
  totalVfs : Nat
  pfQueues : Nat
  portbPf : Bool
  derate : Nat
  chgTimeout : Nat
  vcut : Nat
  pageData : Nat
  spare : Nat
  pagesPerBlock : Nat
  blocksPerLun : Nat
  lunsPerCh : Nat
  planes : Nat
  cell : Nat
  xmode : Nat
  xmodeMask : Nat
  /-- Thermal limits, signed degrees. -/
  tjThrottle : Int
  tfThrottle : Int
  qlcLo : Int
  qlcHi : Int
  slcLo : Int
  slcHi : Int
  cadEnable : Bool
  cadRoot : Bool
  cadHub : Bool
  protoMax : Nat
  addr : Nat
  downMask : Nat
  budget : Nat
  padMax : Nat
  padMin : Nat
deriving DecidableEq, Repr

/-! ## Studbook -/

/-- A Studbook record (Table 15.1). `args` are the seven half-words H0 to H6. -/
structure Rec where
  stamp : Nat
  code : Nat
  rpt : Nat
  seq : Nat
  args : List Nat
  sev : Nat
  early : Bool
  aon : Bool
deriving DecidableEq, Repr

/-- An event raised and not yet placed (R400). -/
structure Ev where
  stamp : Nat
  code : Nat
  sev : Nat
  args : List Nat
  aon : Bool
  /-- Elapsed microseconds when it was raised. -/
  us : Nat
deriving DecidableEq, Repr

/-- A register view's Studbook window (R40, R406, R407). -/
structure StbWin where
  base : Nat
  src : Bool
  /-- The latched slot and its 32 bytes; none before the first latch. -/
  latch : Option (Nat × List Byte)
deriving DecidableEq, Repr

/-- The persisted copy of the ring in the Tack journal (R403, R404). -/
structure StbPersist where
  ring : Tbl Rec
  /-- The last durable sequence reservation. -/
  reserve : Nat
  dropFull : Nat
  dropQueue : Nat
  stamp : Nat
  /-- An early-save page, written before a ring was loaded (R51). -/
  earlySave : List Rec
deriving DecidableEq, Repr

/-- The Studbook (Chapter 15). -/
structure Stb where
  /-- Events raised in the step being run, in the order raised; empty between steps. -/
  raised : List Ev
  /-- The queue of R400: at most 256. -/
  queue : List Ev
  /-- Live ring slots, 0 … 32,767. -/
  ring : Tbl Rec
  seqNext : Nat
  dropFull : Nat
  dropQueue : Nat
  /-- The drop counters hold what was persisted of them too. -/
  dropsIn : Bool
  persistStamp : Nat
  loaded : Bool
  /-- Dirty groups, 0 … 255 (R403). -/
  dirty : List Nat
  /-- The early buffer: at most 64 (R51). -/
  early : List Rec
  /-- The always-on buffer: at most 16 (R405), and the events dropped from it. -/
  aon : List Ev
  aonDrop : Nat
  /-- Elapsed time of the last occurrence counted into the newest record (R401); none for a record loaded at the start. -/
  lastUs : Option Nat
  winA : StbWin
  winB : StbWin
  per : StbPersist
deriving DecidableEq, Repr

/-! ## Slack -/

/-- The phase of a proof-load (R74 to R78). -/
inductive ProofPhase where
  | idle
  /-- Waiting for HU_OK and the rehearsal (PROOF_LOAD). -/
  | charging
  /-- A window is open, waiting for USE_KIB = 0. -/
  | window
  /-- HU_LOAD is high. -/
  | pulse
  /-- Recharging, measured. -/
  | recharge
deriving DecidableEq, Repr

/-- A function's Slack account (R82 to R88, Tables 3.10 and 3.12). Quantities in bytes unless named. -/
structure SlkFn where
  quotaKiB : Nat
  effKiB : Nat
  scaled : Bool
  useQ : Nat
  useP : Nat
  holding : Bool
  earlyCnt : Nat
  heldCnt : Nat
  /-- Held completions since the last Owner PF report (Table 3.12). -/
  heldSince : Nat
  /-- Elapsed time of the last hold for exhausted quota and pool that was recorded (R84). -/
  lastHold : Nat
  /-- First write whose reservation the stall's page shows (R99, R322). -/
  pageFrom : Nat
deriving DecidableEq, Repr

/-- The last flush's figures (SLK_LASTFLUSH). -/
structure LastFlush where
  durUs : Nat
  kib : Nat
  state : Nat
deriving DecidableEq, Repr

/-- The Slack manager (Chapter 3). -/
structure Slk where
  noEarly : Bool
  brk : Bool
  window : Bool
  admissionOff : Bool
  result : Nat
  proofCnt : Nat
  totalMiB : Nat
  capUf : Nat
  esr : Nat
  v0 : Nat
  v1 : Nat
  v2 : Nat
  euseMj : Nat
  /-- E_fixed in µJ, exact (R75). -/
  efixUj : Nat
  ebyte : Nat
  pfl : Nat
  proofStamp : Nat
  /-- Elapsed microseconds at the last completed proof-load. -/
  proofUs : Nat
  /-- Board temperature at the last completed proof-load. -/
  proofTemp : Int
  earlyCnt : Nat
  heldCnt : Nat
  last : LastFlush
  phase : ProofPhase
  /-- A trigger is due and waits (R77, R78). -/
  due : Bool
  /-- A 24-hour or temperature trigger is due: it may have to wait for a busy turn (R77). -/
  dueSoft : Bool
  /-- A busy turn began with such a trigger due (R77). -/
  softOk : Bool
  /-- A window closed without a pulse in this turn: the next one waits for the next eligible turn (R78). -/
  holdTurn : Bool
  /-- A further proof-load follows the present one (R77), asked for by a trigger that acts at once, or by one that may wait. -/
  again : Bool
  againSoft : Bool
  /-- USE_KIB has exceeded a lowered S and has not fallen below it since (R87). -/
  overS : Bool
  /-- The rehearsal of this start has ended (R75). -/
  rehearsed : Bool
  /-- The flush reserve cannot be kept (R94). -/
  reserveShort : Bool
  fns : Tbl SlkFn
  /-- Bytes drawn from the shared pool and not yet durable. -/
  poolUse : Nat
  /-- HOLD voltage last read by housekeeping, mV. -/
  holdMv : Nat
  /-- HOLD voltage since the last pulse, mV: what it has recovered to (R78). -/
  back : Nat
deriving DecidableEq, Repr

end Sys2Proof.Machine
end

