-- ==== Sys2Proof/Machine/TypesC.lean ====
section
/-! DEFINITION. Data types of the machine, part C: yard time (Chapter 13), stalls (Chapter 12). -/

namespace Sys2Proof.Machine
open Sys2Proof

/-- Yard time (R339, R352). -/
structure Tm where
  epoch : Nat
  turn : Nat
  us : Nat
  /-- Elapsed microseconds since power-on, never corrected. -/
  elapsed : Nat
  /-- Turns begun since power-on. -/
  turns : Nat
  /-- TXS_MODE.TSRC. -/
  tsrc : Bool
  /-- Estimated (stamp bit 0). -/
  est : Bool
  /-- Resynchronised in this epoch (stamp bit 2). -/
  resync : Bool
deriving DecidableEq, Repr

/-- A stall protection entry's writable fields (Table 12.4). -/
structure StlEnt where
  yards : Nat
  write : Bool
  gather : Bool
  sealP : Bool
  comp : Bool
  scrub : Bool
  gchMax : Nat
deriving DecidableEq, Repr

/-- The entry at Reset (Table 12.4). -/
def StlEnt.dflt : StlEnt := ⟨1, true, true, true, true, true, 12⟩
/-- Entry 0, the Owner PF's (R318). -/
def StlEnt.owner : StlEnt := ⟨2 ^ 64 - 1, true, true, true, true, true, 48⟩

/-- A stall's resources (Table 12.2) beside those its function record and Slack account hold. -/
structure StlRes where
  actLim : Nat
  openLim : Nat
  keySlots : Nat
  cvus : Nat
  frz : Bool
deriving DecidableEq, Repr

/-- The resources at creation (Table 12.2). -/
def StlRes.dflt : StlRes := ⟨16, 8, 8, 2, false⟩

/-- The stall manager (Chapter 12). -/
structure Stl where
  vfEnable : Bool
  numVfs : Nat
  ents : Tbl StlEnt
  res : Tbl StlRes
  saveSeq : Nat
deriving DecidableEq, Repr

end Sys2Proof.Machine
end

