-- ==== Sys2Proof/Machine/TypesB.lean ====
section
/-! DEFINITION. Data types of the machine, part B: command queues (Chapter 8), zones and namespaces (Chapter 4), writes in
flight (R28, R118, R233), placement (Chapter 5), flash channels (Chapter 6), integrity (Chapter 7). -/

namespace Sys2Proof.Machine
open Sys2Proof

/-! ## Command queues (Chapter 8) -/

/-- A completion as the device posts it (Table 8.14), with the data it delivered to the host. -/
structure Cqe where
  fn : Nat
  cqid : Nat
  sqid : Nat
  cid : Nat
  sqhd : Nat
  dw0 : Nat
  /-- DW1 [15:0]. -/
  cs1 : Nat
  /-- DW1 [31:16]. -/
  detail : Nat
  sct : Nat
  sc : Nat
  crd : Nat
  more : Bool
  dnr : Bool
  phase : Bool
  /-- Bytes transferred to the host by the command. -/
  data : List Byte
deriving DecidableEq, Repr

/-- A submission queue. -/
structure Sq where
  size : Nat
  base : Nat
  head : Nat
  tail : Nat
  cq : Nat
  prio : Nat
deriving DecidableEq, Repr

/-- A completion queue. `held` are completions that wait for room (R245); `coal` counts entries not yet signalled. -/
structure Cq where
  size : Nat
  base : Nat
  head : Nat
  tail : Nat
  phase : Bool
  iv : Nat
  ien : Bool
  held : List Cqe
  coal : Nat
deriving DecidableEq, Repr

/-- The Features of a function (Table 8.6, Table 14.x, R243). -/
structure Feats where
  ab : Nat
  lpw : Nat
  mpw : Nat
  hpw : Nat
  wce : Bool
  thr : Nat
  time : Nat
  /-- Vectors with Coalescing Disable set. -/
  cd : List Nat
  /-- Asynchronous Event Configuration, CDW11. -/
  aec : Nat
  acre : Bool
  xlevel : Nat
  /-- Write Atomicity Normal's DN and Power Management's WH, kept for Get Features; neither has an effect (R228, R372). -/
  dn : Bool
  wh : Nat
  /-- The controller's own power state (R373), and its most recent operational one (R374). -/
  ps : Nat
  opPs : Nat
  apste : Bool
  /-- APST entries: for each power state, ITPS in [7:3] and ITPT in [31:8]. -/
  apst : List Nat
  noppme : Bool
  /-- Temperature thresholds, kelvins: entry 2·sensor over, 2·sensor + 1 under (R394). -/
  tmpth : Tbl Nat
deriving DecidableEq, Repr

/-- A register write held during FW_ACTIVATE (R241), or by exit from a power state. -/
inductive HeldWr where
  | ccEn (v : Bool) | flr | shn (v : Nat)
deriving DecidableEq, Repr

/-- A function (Chapter 8). -/
structure Fn where
  en : Bool
  /-- The enable checks of R224 passed. -/
  cfgOk : Bool
  shn : Nat
  shst : Nat
  ams : Nat
  css : Nat
  mps : Nat
  iosqes : Nat
  iocqes : Nat
  asqs : Nat
  acqs : Nat
  asq : Nat
  acq : Nat
  sqs : Tbl Sq
  cqs : Tbl Cq
  feats : Feats
  /-- Arbitration state: the last SQ granted and its consecutive grants (R230). -/
  lastSq : Nat
  burst : Nat
  /-- Last QID granted in the high, medium and low class, the credits left to each, last QID granted in the urgent class. -/
  wrr : List Nat
  /-- VQ and VI flexible resources assigned (R221). -/
  vq : Nat
  vi : Nat
  online : Bool
  /-- Changed Zone List (log 0xBF): NSID and ZSLBA. -/
  changed : List (Nat × Nat)
  /-- Changed Attached Namespace List (log 04h). -/
  chNs : List Nat
  /-- Logs whose events are masked until the log is read (NVMe; PRESUMED, log 5). -/
  masked : List Nat
  held : List HeldWr
  /-- The temperature conditions last reported (R394). -/
  tmpState : Nat
  /-- Vectors signalled, counted. -/
  msix : Tbl Nat
  /-- The MSI-X table of BAR0 by dword; absent: zero, and a vector control dword masked (PCI Express; PRESUMED, log 5). -/
  msixTab : Tbl Nat
  /-- Vectors pending while masked. -/
  pba : List Nat
deriving DecidableEq, Repr

/-- What a fetched command waits for. -/
inductive Wait where
  /-- Fetched, its own row not yet run. -/
  | fetched
  /-- A write, by its record. -/
  | write (id : Nat)
  /-- A read with `left` codewords outstanding. -/
  | read (left : Nat)
  /-- A Flush: it waits for the writes it covers (R89). -/
  | flush
  | aer
  | scrub (zone : Nat)
  | ccb
  | sanitize
  | fwCommit
  | fwActivate
  | gatherWait
  | gather (ch : Nat)
  | halfHitch
  | hhRead
  | freeze (fn : Nat)
  /-- A stall command that waits for a Freeze of the same stall (R331); its buffer is in `data`. -/
  | stallQ (fn : Nat)
  | sealZ (zone : Nat)
  | sched
  | sqDelete (qid : Nat)
  | format
  /-- Discarded by a reset while internal work goes on: no completion (R240). -/
  | fenced
  /-- Completed, its completion held for room in its CQ (R245). -/
  | posted
deriving DecidableEq, Repr

/-- One block that a read needs: its owner and 2 KiB position, its bytes once they are there, the status it met (0 none, else
SCT·256 + SC), and the codewords the media have answered for it. `kind`: 0 a logical block; in a compressed zone's walk 1 a
half-hitch, 2 a spilled block, 3 a unit at or above HALF_WP, 4 the second unit of a spilled block, 5 one not resolved yet, 6 one whose
metadata cannot be read. -/
structure RPart where
  owner : Nat
  pos : Nat
  kind : Nat
  blk : Option Blk
  st : Nat
  got : List Nat
deriving DecidableEq, Repr

/-- What a read has gathered (R233, R204). -/
structure Rd where
  slba : Nat
  n : Nat
  fua : Bool
  parts : List RPart
  rpath : Nat
  ladder : Nat
deriving DecidableEq, Repr

/-- A command context (R231). -/
structure Ctx where
  cmd : Cmd
  /-- Fetch order. -/
  seq : Nat
  /-- A reserved context of the function, not a shared one. -/
  reserved : Bool
  dispatched : Bool
  wait : Wait
  /-- The stall entry as it stood at the fetch (R319). -/
  snap : StlEnt
  /-- CVUs bound to the command at fetch (R308). -/
  cvus : List Nat
  rd : Rd
  /-- Completion detail gathered: WPATH, HH, SEAL codes. -/
  wpath : Nat
  hh : Nat
  sealF : Nat
  /-- DW0 to return, and the data collected. -/
  dw0 : Nat
  data : List Byte
  startUs : Nat
deriving DecidableEq, Repr

/-- An Error Information log entry (R247). -/
structure ErrEnt where
  count : Nat
  fn : Nat
  sqid : Nat
  cid : Nat
  status : Nat
  nsid : Nat
deriving DecidableEq, Repr

/-- A firmware slot: the revision characters and whether an image is held. -/
structure FwSlot where
  held : Bool
  rev : Nat
deriving DecidableEq, Repr

/-- Firmware download and activation (R242, R43). -/
structure Fw where
  slots : List FwSlot
  /-- The slot whose image runs (1 or 2). -/
  running : Nat
  /-- TXS_FWREV. -/
  rev : Nat
  /-- The slot to run at the next start. -/
  next : Nat
  /-- Parts downloaded: offset and length in bytes. -/
  parts : List (Nat × Nat)
  /-- Commits whose image is being written and checked, oldest first: context, slot, action. -/
  commit : List (Nat × Nat × Nat)
  /-- An activation in progress: context, slot, microseconds since fetching stopped. -/
  act : Option (Nat × Nat × Nat)
deriving DecidableEq, Repr

/-- The command engine (Chapter 8). -/
structure Qs where
  fns : Tbl Fn
  lastFn : Nat
  seq : Nat
  ctxs : List Ctx
  errLog : List ErrEnt
  /-- Errors logged so far, by function. -/
  errCount : Tbl Nat
  fw : Fw
  /-- Completions posted, oldest first: the completion queues in host memory. -/
  out : List Cqe
  /-- Turn in which 0x6050 was last raised. -/
  exhTurn : Nat
  /-- A pending asynchronous event a function has had no AER for: function, type, info, log. -/
  pendAen : List (Nat × Nat × Nat × Nat)
  unsafeCount : Nat
  powerCycles : Nat
deriving DecidableEq, Repr

/-! ## Namespaces and zones (Chapter 4) -/

/-- A namespace (R102, R103). -/
structure Ns where
  conv : Bool
  nsze : Nat
  /-- LBA format: 0 4096, 1 4096+8, 2 4096+16, 3 4096+64. -/
  lbaf : Nat
  /-- Protection type, 0 none (R310). -/
  pi : Nat
  /-- Device zone numbers of its zones, in order. -/
  zones : List Nat
  attached : List Nat
deriving DecidableEq, Repr

/-- Zone states (R106). -/
inductive ZS where
  | empty | impOpen | expOpen | closed | full | offline
deriving DecidableEq, Repr

/-- The ZS code of a zone state (R106). -/
def ZS.code : ZS → Nat
  | .empty => 0x1 | .impOpen => 0x2 | .expOpen => 0x3 | .closed => 0x4 | .full => 0xE | .offline => 0xF

/-- Active: Implicitly Opened, Explicitly Opened or Closed (R106). -/
def ZS.active : ZS → Bool
  | .impOpen | .expOpen | .closed => true
  | _ => false

/-- Open: Implicitly or Explicitly Opened (R106). -/
def ZS.isOpen : ZS → Bool
  | .impOpen | .expOpen => true
  | _ => false

/-- A zone descriptor (Table 4.7) and what the zone manager holds beside it. Positions count 2 KiB units from ZSLBA. -/
structure Zone where
  nsid : Nat
  /-- Index of the zone in its namespace. -/
  idx : Nat
  st : ZS
  zfc : Bool
  /-- Write pointer in 2 KiB units from ZSLBA (HALF_WP in compressed zones, twice the LBA offset otherwise). -/
  wp : Nat
  yard : Nat
  lclass : Nat
  comp : Bool
  sealF : Bool
  activeRes : Bool
  keySlot : Nat
  scrubPend : Bool
  unread : Bool
  sealed : Bool
  actFn : Nat
  actStamp : Nat
  resHandle : Nat
  /-- GEN_HI:GEN, 48 bits. -/
  gen : Nat
  /-- Order of the last accepted write (R113). -/
  lastWr : Nat
  /-- Runs of the reservation: Pen, first unit, count (R144). -/
  runs : List (Nat × Nat × Nat)
  /-- The lowest units folded or programmed directly, without a gap, and those programmed above them: programs of a zone's units are
  queued in order and may end out of it (R142, R148). -/
  folded : Nat
  ahead : List Nat
  /-- Seal units closed and their tags (R301). -/
  tags : Tbl (List Byte)
  /-- The key id the seal binds to (R298). -/
  sealKey : Nat
  /-- The function that last activated the zone (R68). -/
  lastFn : Nat
deriving DecidableEq, Repr

/-- A conventional map entry (Table 4.8), with the lost mark of R161. -/
structure CMap where
  heat : Nat
  pen : Nat
  slot : Nat
  lost : Bool
deriving DecidableEq, Repr

/-- A scrubbing reset in progress (R123, R124). -/
structure Scrub where
  zone : Nat
  /-- The command's context, if it is still there. -/
  ctx : Option Nat
  /-- Blocks still to erase: die·8192 + block. -/
  blocks : List Nat
  erased : Nat
  startUs : Nat
  broke : Bool
  /-- The Yard its break is reported for. -/
  yard : Nat
deriving DecidableEq, Repr

/-- A stored piece: 2 KiB or 4 KiB at a 2 KiB position (Table 7.2, R199). -/
structure Piece where
  /-- 1 or 2 units. -/
  units : Nat
  data : List Byte
  md : List Byte
  unread : Bool
  half : Bool
  /-- Key id that encrypted it: 0 namespace key, else the sealed zone's key. -/
  enc : Nat
  /-- Where it lies: Pen and codeword slot in it. -/
  pen : Nat
  slot : Nat
  /-- The write that brought it, for the order of R234. -/
  wseq : Nat
  /-- LSEQ: the number of the Paddock program that landed it, counted per Yard; zero in QLC Pens (Table 7.2). -/
  lseq : Nat
deriving DecidableEq, Repr

/-- Decisions on a write (R83, R85). -/
inductive WDec where
  | undecided | early | held (wpath : Nat) | fua | failed
deriving DecidableEq, Repr

/-- A write in flight, from acceptance until durable (R233). -/
structure Wr where
  id : Nat
  fn : Nat
  sqid : Nat
  cid : Nat
  /-- Its context's fetch order; 0 once the context is gone. -/
  seq : Nat
  nsid : Nat
  /-- Owner: device zone number, or `convOwner`. -/
  owner : Nat
  /-- First position, 2 KiB units. -/
  pos : Nat
  /-- Length in 2 KiB units. -/
  len : Nat
  yard : Nat
  gen : Nat
  fuaFlag : Bool
  /-- Pieces staged so far: position and piece. -/
  staged : List (Nat × Piece)
  /-- Its host transfer waits for landing space (R150). -/
  xferWait : Bool
  /-- Every byte has been staged. -/
  ready : Bool
  dec : WDec
  /-- Bytes charged, and what was drawn from quota and pool (R83). -/
  chargeQ : Nat
  chargeP : Nat
  /-- Positions of pieces not yet durable. -/
  left : List Nat
  /-- Its data has been discarded by a Reset (R121). -/
  discarded : Bool
  /-- The completion has been posted. -/
  posted : Bool
deriving DecidableEq, Repr

/-- The zone manager and the logical store. -/
structure Zn where
  nss : Tbl Ns
  zones : Tbl Zone
  /-- The conventional map by unit. -/
  cmap : Tbl CMap
  /-- The pieces in flash: owner, then position in 2 KiB units. -/
  store : Tbl (Tbl Piece)
  wrs : List Wr
  nextWr : Nat
  /-- Counter of accepted writes, for R113. -/
  acc : Nat
  scrubs : List Scrub
  /-- Pens that hold dead copies of a zone's earlier generations: zone, Pen (R122, R123). -/
  stale : List (Nat × Nat)
  /-- Blocks that left their Pens with such copies and are not erased yet: zone, block key (R123). -/
  staleBlks : List (Nat × Nat)
  /-- Conventional units changed since the last persisted delta: the map entry and the pieces that were persisted (R68). -/
  convOld : Tbl (Option CMap × Tbl Piece)
  /-- Generation at which a device zone number that has gone back to the pool begins again (Table 4.7: none repeats). -/
  gens : Tbl Nat
  /-- Paddock programs of each Yard so far, wrapping at 2^32 (LSEQ, Table 7.2). -/
  lseq : Tbl Nat
  /-- Sanitize in progress: 0 none, 1 Block Erase, 2 Crypto Erase, 3 recorded by a flash pattern test. -/
  sanit : Nat
  /-- Blocks a Block Erase has still to erase. -/
  sanFail : Bool
  /-- Sanitize Status log: SSTAT low bits, and the progress. -/
  sstat : Nat
  scdw10 : Nat
  /-- Bad outcome counts for SMART: media errors. -/
  mediaErr : Nat
  nextRes : Nat
deriving DecidableEq, Repr

/-! ## Placement (Chapter 5) -/

/-- Kinds of Pen. -/
inductive PenKind where
  | host | reloc | wear | landing | flushRes | conv
deriving DecidableEq, Repr

/-- A Pen's life. -/
inductive PenState where
  | erased | filling | full | dying
deriving DecidableEq, Repr

/-- A Pen (superblock): R140 to R146, R203. -/
structure Pen where
  kind : PenKind
  yard : Nat
  shed : Nat
  rowA : Nat
  rowB : Option Nat
  parity : Nat
  cls : Nat
  lclass : Nat
  /-- Members in position order: die key, block (8,191 while not yet bound, R179), lost flag. -/
  mem : List (Nat × Nat × Bool)
  /-- Data units reserved so far, lowest first (QLC); codewords landed so far (one-bit Pens). -/
  next : Nat
  st : PenState
  degraded : Bool
  refresh : Bool
  /-- Parity units programmed: stripe and position (R209). -/
  closed : List (Nat × Nat)
  /-- ACT_STAMP order for wear levelling; formation order. -/
  born : Nat
  /-- Blocks that failed as members and still hold wordlines the new member lacks, newest first: die, block, wordlines programmed in it
  (R160 step 3). -/
  old : List (Nat × Nat × Nat)
deriving DecidableEq, Repr

/-- Configuration and running state of a Yard (R137, Table 5.4). -/
structure YardS where
  parity : Nat
  wlSpread : Nat
  tokens : Nat
  /-- No-token event already raised this turn (R211). -/
  exhTurn : Bool
  breaks : Nat
  padLow : Bool
  wlActive : Bool
  noLanding : Bool
  badBlocks : Nat
  relocPrio : Bool
  /-- Relocations running (R154). -/
  relocs : Nat
deriving DecidableEq, Repr

/-- One item of a move: a unit of a zone, or a piece of a one-bit Pen, with the generation it was copied at and its destination. -/
structure MvU where
  owner : Nat
  /-- Unit of the zone, or position of the piece. -/
  k : Nat
  gen : Nat
  pen : Nat
  /-- Unit in the destination Pen, or codeword slot of it. -/
  slot : Nat
deriving DecidableEq, Repr

/-- A move being journalled (R155): what follows the copy is its map-commit and the source's erase. -/
structure Move where
  src : Nat
  yard : Nat
  /-- Kind of the destination Pens: relocation, wear levelling, landing (compaction). -/
  kind : PenKind
  items : List MvU
  seq : Nat
deriving DecidableEq, Repr

/-- Placement (Chapter 5). -/
structure Pl where
  /-- Yard of each existing row; absent: 0xFF. -/
  rowYard : Tbl Nat
  /-- Pending moves: row to its new Yard. -/
  pending : Tbl Nat
  yards : Tbl YardS
  pens : Tbl Pen
  nextPen : Nat
  /-- Open host Pen of a Yard and class: key yard·16 + lclass. -/
  openHost : Tbl Nat
  /-- Landing Pen in use, by Yard. -/
  landing : Tbl Nat
  /-- Relocation Pen, by yard·16 + lclass. -/
  relocPen : Tbl Nat
  /-- Conventional region: its Pens in index order; the hot and the cold Pen in use. -/
  convPens : List Nat
  convHot : Nat
  convCold : Nat
  convBreak : Bool
  /-- Paddock size P in Paddock Pens, and the fill at which it was set: bytes filled, bytes usable (R151). -/
  p : Nat
  fillSet : Nat × Nat
  moves : List Move
  moveSeq : Nat
  /-- Erase-intent records open: die·8192 + block. -/
  intents : List Nat
  /-- Flush reserve Pens by Shed die. -/
  flushRes : Tbl Nat
  /-- Codewords wait in staging for placement: write id and positions. -/
  waiting : List (Nat × Nat)
  /-- Sources of running copies that reached code 7: owner, position, Pen, slot. Their copies carry UNREAD (R205). -/
  lostSrc : List (Nat × Nat × Nat × Nat)
deriving DecidableEq, Repr

/-! ## Flash channels (Chapter 6) -/

/-- Block states (Table 6.6). -/
inductive BSt where
  | erased | openB | full | pending | bad
deriving DecidableEq, Repr

/-- The state map code (Table 6.6). -/
def BSt.code : BSt → Nat
  | .erased => 0 | .openB => 1 | .full => 1 | .pending => 2 | .bad => 3

/-- What a block is set to: free, a Pen's member, the journal area or the firmware area of the Tack Room (R192), calibration, a pattern
test. -/
inductive Role where
  | free | pen (p : Nat) | tack | fw | calib | test
deriving DecidableEq, Repr

/-- A block's records: state map, live-block entry, ledger (R174 to R178). -/
structure Bk where
  st : BSt
  nextWl : Nat
  /-- EGEN of the ledger, and that read when the block was opened. -/
  egen : Nat
  liveEgen : Nat
  hasLive : Bool
  quar : Bool
  onebit : Bool
  prechk : Bool
  wear : Nat
  role : Role
  /-- The pre-program check failed once (R185). -/
  prechkFailed : Bool
  /-- Elapsed time of its last program, which its retention bin counts from (R204). -/
  pgmAt : Nat
deriving DecidableEq, Repr

/-- A die (LUN) as the die table holds it (Table 6.8). -/
structure Lun where
  excluded : Bool
  failed : Bool
  wornOut : Bool
  tack : Bool
  tackEnd : Nat
  low : List (Nat × Nat)
  high : List (Nat × Nat)
  /-- Timeouts counted in this epoch (R195), and the epoch. -/
  timeouts : Nat
  toEpoch : Nat
  /-- Elapsed time at which the die reported a suspension. -/
  suspAt : Nat
  /-- Pages of the continuous chain that runs, 0 none, with its block and last page (R191). -/
  chain : Nat
  chainEnd : Bool
  chainAt : Nat × Nat
deriving DecidableEq, Repr

/-- What an array operation carries. -/
inductive Work where
  /-- Pieces of writes: (write id, position) pairs. -/
  | land (ps : List (Nat × Nat)) (pen slot : Nat)
  /-- A zone's QLC unit from staging or from the Paddock. -/
  | unit (zone : Nat) (u : Nat) (pen : Nat) (isFold : Bool)
  /-- Parity of a stripe. -/
  | parity (pen : Nat) (stripe : Nat) (pos : Nat)
  /-- A programmed unit of an open stripe read to recompute its running parity (R209). -/
  | par (pen : Nat) (stripe : Nat)
  /-- Copies of a move. -/
  | move (seq : Nat)
  | journal
  | flush
  /-- A codeword read for a context: context order, index in its parts, ladder position. -/
  | host (seq : Nat) (owner : Nat) (pos : Nat)
  | gather (ch : Nat) (elem : Nat) (owner : Nat) (pos : Nat)
  /-- A rebuild from the stripe for a reader: its path code, 4 where the arbiter handed it over, else ladder step 3; the members read, and
  those that failed (R208). -/
  | recon (seq : Nat) (owner : Nat) (pos : Nat) (path : Nat) (used bad : List Nat)
  /-- A member read of a rebuild: the rebuild's operation, the member (R210). -/
  | member (op : Nat) (m : Nat)
  | background
  | diag
  | prechk
  | eraseFor (pen : Nat)
  | none
deriving DecidableEq, Repr

/-- Kinds of array operation. -/
inductive OpKind where
  | read | program | erase
deriving DecidableEq, Repr

/-- Where an array operation stands. -/
inductive OpSt where
  | queued | running | suspending | suspended
deriving DecidableEq, Repr

/-- An array operation in a sequencer's queue (R172). -/
structure AOp where
  id : Nat
  ch : Nat
  lun : Nat
  cls : Nat
  kind : OpKind
  blk : Nat
  wl : Nat
  /-- One-bit mode. -/
  onebit : Bool
  egen : Nat
  st : OpSt
  /-- Elapsed time at the start or the last resume, and suspensions so far. -/
  since : Nat
  susp : Nat
  /-- Elapsed time at which it was queued. -/
  queuedAt : Nat
  /-- The arbiter has decided the read waits (R187 case 3), or it has been through reconstruction once. -/
  waited : Bool
  reconDone : Bool
  retried : Bool
  /-- Page of the wordline (R191). -/
  page : Nat
  /-- FCH_SUSP and FCH_MEDIA as they stood when it started (R196): RUN_MIN, the suspensions allowed, HOLD, PRECHK_ZEROS. -/
  lim : Nat × Nat × Nat × Nat
  work : Work
deriving DecidableEq, Repr

/-- A channel's diagnostic block (Table 6.12) and its eye state. -/
structure Chn where
  /-- FCH_STAT.STATE. -/
  state : Nat
  xqual : Bool
  xdrop : Bool
  suspCap : Bool
  rate : Nat
  runMin : Nat
  pgmMax : Nat
  ersMax : Nat
  hold : Nat
  prechkZeros : Nat
  eyePeriod : Nat
  eyeRd : Nat
  eyeWr : Nat
  retrainCnt : Nat
  rdCnt : Nat
  pgmCnt : Nat
  ersCnt : Nat
  suspCnt : Nat
  waitCnt : Nat
  reconCnt : Nat
  contCnt : Nat
  fPgm : Nat
  fErs : Nat
  fRef : Nat
  fPre : Nat
  fTo : Nat
  fTack : Nat
  dLun : Nat
  dBlk : Nat
  dWl : Nat
  dPage : Nat
  dPlane : Nat
  dMode : Nat
  dBusy : Bool
  dDone : Bool
  dTack : Bool
  dBad : Bool
  dEmpty : Bool
  dBst : Nat
  dOpen : Bool
  dQuar : Bool
  dNext : Nat
  rZero : Nat
  rCorr : Nat
  rLad : Nat
  lWear : Nat
  lEgen : Nat
  /-- LUNs appointed. -/
  luns : Nat
  /-- Narrow passes in a row; a full retrain is due; it is running. -/
  narrow : Nat
  retrainDue : Bool
  retraining : Bool
  /-- Turn count of the last eye pass. -/
  eyeAt : Nat
  /-- NV-LPDDR4 rate the pages allow. -/
  pageRate : Nat
deriving DecidableEq, Repr

/-- The accepted geometry (R63, R171). -/
structure Geom where
  ok : Bool
  pageData : Nat
  spare : Nat
  pagesPerBlock : Nat
  blocksPerLun : Nat
  lunsPerCh : Nat
  planes : Nat
  cell : Nat
deriving DecidableEq, Repr

/-- The flash side (Chapter 6). -/
structure Fl where
  geom : Geom
  chs : Tbl Chn
  /-- Dies by key ch·64 + lun. -/
  luns : Tbl Lun
  /-- Blocks by key die·8192 + block; absent: erased, never worn, free. -/
  blks : Tbl Bk
  ops : List AOp
  nextOp : Nat
  /-- Open stripes whose running parity the Shed dies' stores hold, oldest first: Pen, stripe (R209). -/
  rpar : List (Nat × Nat)
  /-- LUNs parked with WP low. -/
  parked : Bool
  /-- Live-block table full already recorded, by Shed die. -/
  fullRec : List Nat
  /-- Elapsed time of the last firmware refresh, by Shed die, and the Shed dies refreshed since the start (R194). -/
  refreshAt : Tbl Nat
  fwFresh : List Nat
  /-- The last flush ran outside the SLC window (R97). -/
  flushHot : Bool
  /-- Calibration blocks (R146): die·8192 + block. -/
  calib : List Nat
  /-- Shed dies whose Spine link is faulted (R24). -/
  down : List Nat
  /-- Codewords that a media flip mask has marred: block, wordline, codeword, the bits that stand inverted (R215). -/
  marred : List (Nat × Nat × Nat × List Nat)
deriving DecidableEq, Repr

/-! ## Integrity (Chapter 7) -/

/-- A Currycomb summary (Table 7.9). -/
structure Summary where
  words : Nat
  c1 : Nat
  c2 : Nat
  c3 : Nat
  c4 : Nat
  ladderHi : Nat
  rebuilt : Nat
  uncorr : Nat
  refreshed : Nat
  durMs : Nat
  scope : Nat
  flags : Nat
  target : Nat
deriving DecidableEq, Repr

/-- A Currycomb pass (R216, R217). -/
structure Pass where
  /-- The requesting context; none for an automatic pass. -/
  ctx : Option Nat
  scope : Nat
  refresh : Bool
  target : Nat
  nsid : Nat
  slba : Nat
  nlb : Nat
  part : Bool
  /-- The codeword to read next: for a namespace its position, for a Yard or the Paddock Pen, member, wordline, codeword. -/
  cur : Nat × Nat × Nat × Nat
  /-- Elapsed time of its first read. -/
  begun : Option Nat
  /-- What it has counted so far; `words` are the words read. -/
  sum : Summary
  /-- Corrected bits of the codewords decoded at step 0, by wear bin (R203). -/
  samples : List (Nat × Nat)
deriving DecidableEq, Repr

/-- Integrity registers (Table 7.10) and passes. -/
structure Ecc where
  sramCe : Nat
  sramUe : Nat
  lastDie : Nat
  lastRegion : Nat
  lastUe : Bool
  lastValid : Bool
  lastSyn : Nat
  lastWord : Nat
  ref1 : Nat
  ref2 : Nat
  ref3 : Nat
  ref4 : Nat
  arm : Bool
  target : Bool
  fDie : Nat
  fRegion : Nat
  fChannel : Nat
  fCount : Nat
  applied : Bool
  fAddr : Nat
  fMask : Nat
  fChk : Nat
  tokenExh : Nat
  reconFail : Nat
  ladder : Tbl Nat
  /-- ECC_TOKENS by Yard; absent: 256. -/
  tokens : Tbl Nat
  auto : Bool
  mediaDays : Nat
  sramMin : Nat
  passCnt : Nat
  progress : Nat
  last : Summary
  running : Option Pass
  queued : List Pass
  /-- A pass over every Paddock Pen is due first (R216). -/
  paddockDue : Bool
  /-- Elapsed time of the last automatic Yard round and SRAM round. -/
  mediaAt : Nat
  sramAt : Nat
  /-- Table lines being rebuilt: die, region, word. -/
  rebuild : List (Nat × Nat × Nat)
  /-- Learned offsets, by die·32 + retention and wear bin (R204). -/
  learned : Tbl Nat
  /-- Corrected bits per codeword of the last pass over a Yard, by Yard·4 + wear bin (R203). -/
  survey : Tbl (List Nat)
  /-- Valid lines of the conventional map's shards, and words stored with errors, by key: data and check bits inverted (R213, R215). -/
  lines : List Nat
  flips : Tbl (Nat × Nat)
deriving DecidableEq, Repr

end Sys2Proof.Machine
end

