-- ==== Sys2Proof/Machine/TypesD.lean ====
section
/-! DEFINITION. Data types of the machine, part D: cipher and check-value units (Chapter 11), the Gather engine (Chapter 9), the
cadence link (Chapter 13), power and housekeeping (Chapter 14), test and service life (Chapter 17), the Tack journal's records
that a start reads (Chapters 2 and 15), register read state (R18). -/

namespace Sys2Proof.Machine
open Sys2Proof

/-! ## Cipher (Chapter 11) -/

/-- A check-value unit (Table 11.8). -/
structure Cvu where
  src : Nat
  poly : Nat
  one : Bool
  sqid : Nat
  fn : Nat
  nsid : Nat
  val : Nat
  done : Bool
  cnt : Nat
  skip : Nat
  cid : Nat
  cidEn : Bool
  /-- The one command of ONE mode has been captured. -/
  took : Bool
deriving DecidableEq, Repr

/-- A seal binding (R298), and the stamp of the zone's first Seal Zone (Table 11.6). -/
structure SealBind where
  fn : Nat
  slot : Nat
  kcv : Nat
  stamp : Option Nat
deriving DecidableEq, Repr

/-- Key pages, namespace keys, bindings, check-value units. -/
structure Ciph where
  /-- Keys by function·8 + slot; absent: cleared. -/
  keys : Tbl (List Byte)
  /-- Bytes written since the last commit, by function·8 + slot, then offset (R293). -/
  kbuf : Tbl (Tbl Byte)
  sealFail : Nat
  denied : Nat
  /-- Key pairs by namespace, 64 bytes each (R297). -/
  nsKeys : Tbl (List Byte)
  /-- Bindings by device zone number (R298). -/
  bind : Tbl SealBind
  /-- Check-value units: 0 … 15 device-wide, 16 + 2·function + m private; absent: at Reset. -/
  cvus : Tbl Cvu
deriving DecidableEq, Repr

/-! ## Gather engine (Chapter 9) -/

/-- An index table entry (Table 9.2). -/
structure GEnt where
  slba : Nat
  off : Nat
  len : Nat
  hh : Bool
  zero : Bool
deriving DecidableEq, Repr

/-- A Gather Read channel in use. -/
structure GCh where
  /-- Its command's context. -/
  seq : Nat
  ents : List GEnt
  level : Nat
  /-- Raised by ageing (R254). -/
  aged : Bool
deriving DecidableEq, Repr

/-- A maintenance channel (Table 9.6). -/
structure Gdc where
  src : Nat
  dst : Nat
  cnt : Nat
  dlen : Nat
  /-- Index table address bits [63:4]. -/
  idx : Nat
  mode : Nat
  prio : Nat
  int : Bool
  nent : Nat
  vec : Nat
  entry : Nat
  linkEnd : Bool
  /-- Address bits [63:6]. -/
  linkNext : Nat
  state : Nat
  done : Bool
  fault : Bool
  resumePend : Bool
  aged : Bool
  fcode : Nat
  buf : Nat
  desc : Nat
  ents : List GEnt
  /-- Blocks gathered so far in GATHER mode. -/
  rd : Rd
  /-- Bytes of the transfer in progress that a GATHER has written (R270). -/
  sent : Nat
  /-- Bytes that a COPY has read and holds in its beat buffer (R270). -/
  held : List Byte
deriving DecidableEq, Repr

/-- The Gather DMA engine. Engine channels: 0 … 47 Gather Read, 48 + n maintenance. -/
structure Gath where
  chs : Tbl GCh
  gdc : Tbl Gdc
  /-- Beat lanes granted: engine channel and level at its grant, earliest burst first; at most 4 (R254). -/
  lanes : List (Nat × Nat)
  /-- Requesting channels without a lane. -/
  laneWait : List Nat
  /-- Host memory written by the engine and by Half-hitch Appends' maps, oldest first. -/
  wr : List (Nat × List Byte)
  /-- Contexts whose wait for a channel has been recorded, with the turn last recorded (R257). -/
  waited : Tbl Nat
deriving DecidableEq, Repr

/-! ## Cadence link (Chapter 13) -/

/-- A break in force (R359): its cause record, the Yard, turns broken. -/
structure Brk where
  cause : Nat
  yard : Option Nat
  turns : Nat
deriving DecidableEq, Repr

/-- What a root holds of an address (R345, R369). -/
structure Part13 where
  word : Nat
  /-- Turns since the last good answer. -/
  since : Nat
  ver : Nat
  present : Bool
  crcFail : Bool
deriving DecidableEq, Repr

/-- A schedule delivery (R358). -/
structure Deliv where
  /-- The command's context. -/
  seq : Nat
  target : Nat
  data : List Byte
  apply : Nat
  /-- Delivery has begun: it is among the first 16. -/
  begun : Bool
  /-- Chunks not yet acknowledged. -/
  left : List Nat
  refusals : Nat
  /-- Turns since the target last answered. -/
  since : Nat
deriving DecidableEq, Repr

/-- The cadence logic (Tables 13.3 and 13.10). -/
structure Cad where
  pfOnPwrfail : Bool
  lock : Bool
  /-- Lock conditions of R349 met; LOCK rises at the next turn. -/
  lockReady : Bool
  lockPend : Bool
  /-- Count of the last good header while searching. -/
  good : Option (Nat × Nat)
  /-- Bad headers in a row. -/
  badRow : Nat
  depth : Nat
  maxDepth : Nat
  ver : Nat
  nextVer : Nat
  /-- The epoch of the last record 0xA011. -/
  overEpoch : Option Nat
  /-- Token level in force, and that of the header just received. -/
  token : Nat
  tokNext : Nat
  hdrErr : Nat
  losses : Nat
  resyncs : Nat
  brkCnt : Nat
  /-- Schedule in force, 128 bytes; `loaded`: not the factory one. -/
  sched : List Byte
  loaded : Bool
  /-- Pending schedule and the epoch of its commit. -/
  pendSched : Option (List Byte × Nat)
  /-- Staged chunks. -/
  stage : Tbl Nat
  downLink : Nat
  phases : Tbl Nat
  /-- Sweeps without a passing step in a row, by port. -/
  sweepFail : Tbl Nat
  cmdDone : Nat
  cmdUnknown : Nat
  pollCnt : Nat
  /-- CAD_MAP. -/
  map : Nat
  /-- The last CMD_SEQ acted on. -/
  lastSeq : Option Nat
  /-- ALL_QUIET: turns left, and what the header just received asks for from the next turn on. -/
  quiet : Nat
  quietNext : Option Nat
  brks : List Brk
  /-- BREAK and BRK_TURNS of the next STATUS answer. -/
  brkFlag : Bool
  brkTurns : Nat
  /-- Absent for one turn after FW_ACTIVATE (R365). -/
  absent : Bool
  /-- Answers sent upward, 40 bits each (REPLY and its CRC-8), and CAD_PF pulses driven on the downstream ports. -/
  answers : List Nat
  pfPulses : Nat
  /-- What the downstream ports carry in the present turn: the header's 32 bytes and the 128 of the roll-call map; none: idle (R340, R343). -/
  dn : List Byte
  /-- Roll-call bits driven upward in the present turn (R343, R347). -/
  up : Nat
  /-- Root settings and state. -/
  rootDepth : Nat
  rootDepthNext : Nat
  rootTok : Nat
  rootCmd : Nat
  rootArg : Nat
  sendLeft : Nat
  sendCmd : Nat
  sendArg : Nat
  sendSeq : Nat
  epochReq : Option Nat
  /-- Lowest VER_MIN of this epoch's turns. -/
  epochMin : Nat
  parts : Tbl Part13
  dels : List Deliv
deriving DecidableEq, Repr

/-! ## Power, housekeeping (Chapter 14) -/

/-- Power management and housekeeping (Tables 14.8, 14.9). -/
structure Pwr where
  /-- PWR_STAT.PS. -/
  ps : Nat
  /-- Entry in progress: the target state; 0: none. The block being asked (Table 14.2). -/
  entering : Nat
  block : Nat
  exiting : Bool
  floor : Bool
  f : Nat
  t : Nat
  /-- P_lim of the last window, 0.1 W. -/
  limSeen : Nat
  pWin : Nat
  pPeak : Nat
  noNonop : Bool
  wakeCause : Nat
  duringEntry : Bool
  /-- A wake was recorded during the entry in progress (R382). -/
  wakePend : Bool
  retLost : Bool
  refCnt : Nat
  refBlock : Nat
  ent3 : Nat
  ent4 : Nat
  entryUs : Nat
  exitUs : Nat
  /-- Elapsed time at which the present entry or exit began. -/
  beganUs : Nat
  /-- Stamp, in microseconds of yard time, at the entry to state 4, and whether it was locked then. -/
  entryYt : Nat
  entryLocked : Bool
  /-- CAD_CK or the 32.768 kHz oscillator stopped during RETAIN. -/
  oscLost : Bool
  /-- Residency counted, and the elapsed time up to which. -/
  res : List Nat
  resEst : Nat
  resAt : Nat
  /-- After a refusal the next entry waits for the next round (R378). -/
  waitRound : Bool
  /-- Set while an entry's first agreement, a stay or an exit keeps fetching stopped. -/
  stopFetch : Bool
  /-- Board temperature last read: thermistor 0, or the Core die diode if it reads open (R77). -/
  boardTemp : Int
  /-- The thermal reduction and its source. -/
  r : Nat
  src : Bool
  round : Nat
  /-- Diodes, 1/16 °C: Core die, Shed dies 0 … 3. -/
  die : List (Option Int)
  /-- Thermistors: reading, open, short. -/
  therm : List (Int × Bool × Bool)
  /-- Latest reading and failed visits, up to 3, of each target, by channel·16 + volume. -/
  flash : Tbl (Option Int × Nat)
  /-- Rails: mV, power, outside its window at the last round. -/
  rails : List (Nat × Nat × Bool)
  thmQlc : Nat
  thmAll : Nat
  /-- VDD_CORE target, mV (R424). -/
  vcore : Nat
  /-- Temperature thresholds reported: composite time above WCTEMP and CCTEMP, µs. -/
  wcUs : Nat
  ccUs : Nat
  /-- Elapsed time of the last round. -/
  roundAt : Nat
deriving DecidableEq, Repr

/-! ## Test and service life (Chapter 17) -/

/-- Service life (Table 17.6). -/
structure Life where
  powerUs : Nat
  /-- Life used, in 2^-32 hours of rated life. -/
  lifeFine : Nat
  /-- Sum of temperature × time, 1/16 °C · µs, and the time. -/
  tjSum : Int
  tjTime : Nat
  tjPeak : Int
  above100 : Nat
  above105 : Nat
  above110 : Nat
  cycles : Nat
  trips : Nat
  halts : Nat
  rated : Nat
  updated : Nat
deriving DecidableEq, Repr

/-- The test access port and TEST mode (Tables 17.1, 17.3, 17.4). -/
structure Tst where
  /-- Instruction selected; 0xFF: bypass. -/
  ir : Nat
  /-- Boundary register: captured inputs, and the values shifted in. -/
  captured : List Bool
  boundary : List Bool
  /-- What drives the balls: 0 the mode, 1 the boundary register (EXTEST, CLAMP), 2 none (HIGHZ), 3 and 4 the AC tests' pulse and train. -/
  drive : Nat
  entryRef : Bool
  /-- Data captured for TDO by the last instruction. -/
  tdo : Nat
  txsOut : Nat
  mbStart : Bool
  mbBusy : Bool
  mbFail : Bool
  mbReg : Nat
  mbRun : Nat
  mbRep : Nat
  mbDone : Bool
  mbFirst : Nat
  mbSpare : Nat
  fpStart : Bool
  fpBusy : Bool
  fpReg : Nat
  fpBlocks : Nat
  fpFailed : Nat
  fpMax : Nat
  fpTack : Nat
  fpDone : Bool
  fpFail : Bool
  /-- A BIST or a flash pattern test in progress has been told to stop (R444, R393). -/
  mbStop : Bool
  fpStop : Bool
  /-- Management port: I3C dynamic address, 0 while an SMBus target; NVMe-MI commands answered. -/
  i3c : Nat
  mi : Nat
  /-- The subsystem health status last answered (R420). -/
  health : List Byte
  life : Life
deriving DecidableEq, Repr

/-! ## Tack journal -/

/-- Closing records of the Tack journal (R65). -/
inductive Closing where
  | none | clean | flush | retain
deriving DecidableEq, Repr

/-- The Tack journal's records that a start reads (R65, R66, R126). -/
structure Jrn where
  /-- The last closing record after the last start or resume record. -/
  closing : Closing
  /-- A service period is open: a start or resume record has been written. -/
  opened : Bool
  copy0 : Bool
  copy1 : Bool
  /-- The copy whose last journal page was not programmed when power failed: it ends at an earlier record (R66). -/
  behind : Option Nat
  /-- A copy's rewrite waits for programming to be allowed (R66). -/
  rebuild : Option Nat
  /-- A sanitize record without its sanitize-done record: the SANACT kind. -/
  sanitize : Nat
  /-- The newest stamp persisted (R353): epoch, turn, microsecond. -/
  stamp : Nat × Nat × Nat
  /-- Admission is stopped device-wide (R36, R91). -/
  admOff : Bool
  checkpoints : Nat
  /-- The schedule persisted (R355): in force, loaded, pending. -/
  sched : List Byte
  schedLoaded : Bool
  schedPend : Option (List Byte × Nat)
  /-- Slack data a flush left in the flush reserve, with the flush-close record: bytes. -/
  flushed : Nat
  /-- Service life as persisted (R452). -/
  life : Life
  /-- Learned offsets as persisted at the last checkpoint (R204). -/
  learned : Tbl Nat
  /-- The figures of the last flush (Table 3.3 step 6), which job (c) loads into SLK_LASTFLUSH. -/
  lastFlush : LastFlush
  /-- The part's device was ever started: 0x1031 and unsafe shutdowns need a start record. -/
  used : Bool
  /-- The factory layout has been laid: once in a device's life (R137). -/
  laid : Bool
  /-- SPARES_OUT as it last was (R163). -/
  sparesOut : Bool
deriving DecidableEq, Repr

/-- Register read state (R18) and the results of reads. -/
structure Regs where
  /-- Shadows by view and register: the high dword. -/
  shadow : Tbl Nat
  /-- Low dwords written and not yet committed. -/
  low : Tbl Nat
  /-- Results of reads, oldest first. -/
  reads : List Nat
deriving DecidableEq, Repr

end Sys2Proof.Machine
end

