-- ==== Sys2Proof/Machine/State.lean ====
section
/-! DEFINITION. The state of the block, whole, and its value right after power-on. -/

namespace Sys2Proof.Machine
open Sys2Proof

/-- Reasons the block stops with a fault. No meaning of this model raises one: the spec gives every row an effect. -/
inductive Fault where
  /-- Never raised; kept so that the type is inhabited. Safe. -/
  | never
deriving DecidableEq, Repr

/-- Reasons the block refuses a command. -/
inductive Refusal where
  /-- Raised by Dispatch alone for a row that has no meaning yet. Safe: nothing is claimed of the row. -/
  | notModelled (mnemonic : String)
deriving DecidableEq, Repr

/-- The state. Each field is an area of the spec; `pending` is the queue of waiting commands, first in, first out. -/
structure State where
  /-- The part fitted (R2, R5, R42). No step changes it. -/
  part : Part
  m : ModeS
  pins : Pins
  st : StartS
  img : Img
  stb : Stb
  slk : Slk
  q : Qs
  zn : Zn
  pl : Pl
  fl : Fl
  ecc : Ecc
  tm : Tm
  stl : Stl
  ci : Ciph
  ga : Gath
  cad : Cad
  pw : Pwr
  ts : Tst
  jn : Jrn
  /-- Register read shadows and the last read results (R18). -/
  rg : Regs
  /-- The model's own counter for free values. -/
  free : Nat
  pending : List Instr
deriving DecidableEq, Repr

/-- The DZX-9664-X: the part State.reset fits (DESIGN CHOICE, log 1). -/
def Part.dflt : Part := ⟨0x9664, 4, true⟩

/-- Owner number of the conventional namespace's pieces (Table 7.2: CONV). -/
def convOwner : Nat := 2 ^ 31

/-- The factory defaults of Table 2.7 for a part. -/
def Img.dflt (p : Part) : Img where
  ssvid := 0
  ssid := 0
  maxRate := 0
  widthCap := 0
  pm := 0
  totalVfs := 0
  pfQueues := 64
  portbPf := true
  derate := 850
  chgTimeout := 1500
  vcut := 11000
  pageData := 0
  spare := 0
  pagesPerBlock := 0
  blocksPerLun := 0
  lunsPerCh := 0
  planes := 0
  cell := 0
  xmode := 0
  xmodeMask := 2 ^ 64 - 1
  tjThrottle := 90
  tfThrottle := 70
  qlcLo := 5
  qlcHi := 80
  slcLo := 0
  slcHi := 90
  cadEnable := false
  cadRoot := false
  cadHub := false
  protoMax := 2
  addr := 0
  downMask := 0
  budget := 750
  padMax := 8000 * p.channels / 64
  padMin := 256 * p.channels / 64

/-- TXS_MODE at Reset (Tables 1.7, 1.8). -/
def ModeS.dflt : ModeS where
  cur := .reset
  prev := .reset
  chgCnt := 0
  stamp := 0
  wt := false
  thm := 0
  sparesOut := false
  warn0 := false
  warn1 := false
  warn2 := false
  warn3 := false
  warn4 := false
  since := 0
  drain := .none
  testPend := false
  cores := []

/-- Pins at power-on: SYS_RST_N and PERST# low, PWRFAIL_N high (DESIGN CHOICE, log 2). -/
def Pins.dflt : Pins where
  sysRstN := false
  perstA := false
  perstB := false
  pwrfailN := true
  huOk := false
  huChgEn := false
  huLoad := false
  wpLow := true
  detect := false
  heldReset := 0
  pfHigh := false
  strapDual := false
  strapTest := false
  strapNoimg := false
  gpio := []

/-- The start-up registers at Reset (Tables 2.10 to 2.13). -/
def StartS.dflt : StartS where
  cfgDefaulted := false
  slot := 0
  slotASt := 0
  slotBSt := 0
  imgFmt := 0
  secDflt := 0
  unsafeSd := false
  flushShort := false
  jfault := false
  geomMismatch := false
  jcopy := false
  seqA := 0
  seqB := 0
  imgUs := 0
  proofMs := 0
  recovMs := 0
  jobA := false
  jobB := false
  jobC := false
  needRecovery := false
  headsFound := false
  inProof := false
  up := false
  spiA := []
  spiB := []

/-- A Studbook window at Reset (Table 15.5). -/
def StbWin.dflt : StbWin := ⟨0, false, none⟩

/-- The Studbook of a device whose journal holds nothing. The first reservation lets 65,536 records be placed
(DESIGN CHOICE, log 3). -/
def Stb.dflt : Stb where
  raised := []
  queue := []
  ring := []
  seqNext := 0
  dropFull := 0
  dropQueue := 0
  dropsIn := false
  persistStamp := 0
  loaded := false
  dirty := []
  early := []
  aon := []
  aonDrop := 0
  lastUs := none
  winA := StbWin.dflt
  winB := StbWin.dflt
  per := ⟨[], 65536, 0, 0, 0, []⟩

/-- A function's Slack account at Reset. -/
def SlkFn.dflt : SlkFn := ⟨0, 0, false, 0, 0, false, 0, 0, 0, 0, 0⟩

/-- The Slack manager at Reset (Tables 3.4 to 3.9). -/
def Slk.dflt : Slk where
  noEarly := false
  brk := false
  window := false
  admissionOff := true
  result := 0
  proofCnt := 0
  totalMiB := 0
  capUf := 0
  esr := 0
  v0 := 0
  v1 := 0
  v2 := 0
  euseMj := 0
  efixUj := 0
  ebyte := 0
  pfl := 0
  proofStamp := 0
  proofUs := 0
  proofTemp := 0
  earlyCnt := 0
  heldCnt := 0
  last := ⟨0, 0, 0⟩
  phase := .idle
  due := false
  dueSoft := false
  softOk := false
  holdTurn := false
  again := false
  againSoft := false
  overS := false
  rehearsed := false
  reserveShort := false
  fns := []
  poolUse := 0
  holdMv := 0
  back := 0

/-- The Features at their defaults (Table 8.6, R243, R372). -/
def Feats.dflt : Feats where
  ab := 3
  lpw := 0
  mpw := 0
  hpw := 0
  wce := true
  thr := 0
  time := 0
  cd := []
  aec := 0
  acre := false
  xlevel := 1
  dn := false
  wh := 0
  ps := 0
  opPs := 0
  apste := false
  apst := List.replicate 32 0
  noppme := false
  tmpth := []

/-- A function at Reset. -/
def Fn.dflt : Fn where
  en := false
  cfgOk := false
  shn := 0
  shst := 0
  ams := 0
  css := 0
  mps := 0
  iosqes := 0
  iocqes := 0
  asqs := 0
  acqs := 0
  asq := 0
  acq := 0
  sqs := []
  cqs := []
  feats := Feats.dflt
  lastSq := 0
  burst := 0
  wrr := [0, 0, 0, 0, 0, 0, 0]
  vq := 0
  vi := 0
  online := false
  changed := []
  chNs := []
  masked := []
  held := []
  tmpState := 0
  msix := []
  msixTab := []
  pba := []

/-- Firmware at manufacture: slot 1 holds the image that runs (DESIGN CHOICE, log 4). -/
def Fw.dflt : Fw := ⟨[⟨true, 0⟩, ⟨false, 0⟩], 1, 0, 1, [], [], none⟩

/-- The command engine at Reset. -/
def Qs.dflt : Qs where
  fns := []
  lastFn := 0
  seq := 0
  ctxs := []
  errLog := []
  errCount := []
  fw := Fw.dflt
  out := []
  exhTurn := 0
  pendAen := []
  unsafeCount := 0
  powerCycles := 0

/-- The zone manager of a device with no namespace. -/
def Zn.dflt : Zn where
  nss := []
  zones := []
  cmap := []
  store := []
  wrs := []
  nextWr := 1
  acc := 0
  scrubs := []
  stale := []
  staleBlks := []
  convOld := []
  gens := []
  lseq := []
  sanit := 0
  sanFail := false
  sstat := 0
  scdw10 := 0
  mediaErr := 0
  nextRes := 1

/-- A Yard at the factory layout (R137, Table 7.10). -/
def YardS.dflt : YardS where
  parity := 2
  wlSpread := 400
  tokens := 256
  exhTurn := false
  breaks := 0
  padLow := false
  wlActive := false
  noLanding := false
  badBlocks := 0
  relocPrio := false
  relocs := 0

/-- Placement of a device with no geometry. -/
def Pl.dflt : Pl where
  rowYard := []
  pending := []
  yards := []
  pens := []
  nextPen := 1
  openHost := []
  landing := []
  relocPen := []
  convPens := []
  convHot := 0
  convCold := 0
  convBreak := false
  p := 0
  fillSet := (0, 1)
  moves := []
  moveSeq := 1
  intents := []
  flushRes := []
  waiting := []
  lostSrc := []

/-- A block never used (Table 6.6: Erased). -/
def Bk.dflt : Bk := ⟨.erased, 0, 0, 0, false, false, false, false, 0, .free, false, 0⟩

/-- A LUN just discovered. -/
def Lun.dflt : Lun := ⟨false, false, false, false, 0xFFFF, [], [], 0, 0, 0, 0, false, (0, 0)⟩

/-- A channel's diagnostic block at Reset (Table 6.12). -/
def Chn.dflt : Chn where
  state := 0
  xqual := false
  xdrop := false
  suspCap := false
  rate := 0
  runMin := 300
  pgmMax := 4
  ersMax := 8
  hold := 100
  prechkZeros := 16
  eyePeriod := 1000
  eyeRd := 0
  eyeWr := 0
  retrainCnt := 0
  rdCnt := 0
  pgmCnt := 0
  ersCnt := 0
  suspCnt := 0
  waitCnt := 0
  reconCnt := 0
  contCnt := 0
  fPgm := 0
  fErs := 0
  fRef := 0
  fPre := 0
  fTo := 0
  fTack := 0
  dLun := 0
  dBlk := 0
  dWl := 0
  dPage := 0
  dPlane := 0
  dMode := 0
  dBusy := false
  dDone := false
  dTack := false
  dBad := false
  dEmpty := false
  dBst := 0
  dOpen := false
  dQuar := false
  dNext := 0
  rZero := 0
  rCorr := 0
  rLad := 0
  lWear := 0
  lEgen := 0
  luns := 0
  narrow := 0
  retrainDue := false
  retraining := false
  eyeAt := 0
  pageRate := 0

/-- No geometry accepted. -/
def Geom.dflt : Geom := ⟨false, 0, 0, 0, 0, 0, 0, 0⟩

/-- The flash side before discovery. -/
def Fl.dflt : Fl := ⟨Geom.dflt, [], [], [], [], 1, [], false, [], [], [], false, [], [], []⟩

/-- A summary of zeros. -/
def Summary.zero : Summary := ⟨0, 0, 0, 0, 0, 0, 0, 0, 0, 0, 0, 0, 0⟩

/-- Integrity registers at Reset (Table 7.10). -/
def Ecc.dflt : Ecc where
  sramCe := 0
  sramUe := 0
  lastDie := 0
  lastRegion := 0
  lastUe := false
  lastValid := false
  lastSyn := 0
  lastWord := 0
  ref1 := 100
  ref2 := 140
  ref3 := 180
  ref4 := 220
  arm := false
  target := false
  fDie := 0
  fRegion := 0
  fChannel := 0
  fCount := 0
  applied := false
  fAddr := 0
  fMask := 0
  fChk := 0
  tokenExh := 0
  reconFail := 0
  ladder := []
  tokens := []
  auto := true
  mediaDays := 7
  sramMin := 60
  passCnt := 0
  progress := 0
  last := Summary.zero
  running := none
  queued := []
  paddockDue := false
  mediaAt := 0
  sramAt := 0
  rebuild := []
  learned := []
  survey := []
  lines := []
  flips := []

/-- Yard time after power-on with nothing persisted: alone, estimated (R353). -/
def Tm.dflt : Tm := ⟨0, 0, 0, 0, 0, false, true, false⟩

/-- No stall. -/
def Stl.dflt : Stl := ⟨false, 0, [], [], 0⟩

/-- A check-value unit at Reset (Table 11.8); a private one holds its stall's number. -/
def Cvu.dflt (fn : Nat) : Cvu := ⟨0, 1, false, 0xFFFF, fn, 0, 0, false, 0, 0, 0, false, false⟩

/-- The cipher at Reset. -/
def Ciph.dflt : Ciph := ⟨[], [], 0, 0, [], [], []⟩

/-- A read of nothing. -/
def Rd.none : Rd := ⟨0, 0, false, [], 0, 0⟩

/-- A maintenance channel at Reset (Table 9.6). -/
def Gdc.dflt : Gdc where
  src := 0
  dst := 0
  cnt := 0
  dlen := 0
  idx := 0
  mode := 0
  prio := 0
  int := false
  nent := 0
  vec := 0
  entry := 0
  linkEnd := true
  linkNext := 0
  state := 0
  done := false
  fault := false
  resumePend := false
  aged := false
  fcode := 0
  buf := 0
  desc := 0
  ents := []
  rd := Rd.none
  sent := 0
  held := []

/-- The Gather engine at Reset. -/
def Gath.dflt : Gath := ⟨[], [], [], [], [], []⟩

/-- The factory schedule: every turn busy (R355). -/
def schedFactory : List Byte := List.replicate 128 0xFF

/-- The cadence logic at Reset (Table 13.10). -/
def Cad.dflt : Cad where
  pfOnPwrfail := true
  lock := false
  lockReady := false
  lockPend := false
  good := none
  badRow := 0
  depth := 0
  maxDepth := 0
  ver := 0
  nextVer := 0
  overEpoch := none
  token := 0xFF
  tokNext := 0xFF
  hdrErr := 0
  losses := 0
  resyncs := 0
  brkCnt := 0
  sched := schedFactory
  loaded := false
  pendSched := none
  stage := []
  downLink := 0
  phases := []
  sweepFail := []
  cmdDone := 0
  cmdUnknown := 0
  pollCnt := 0
  map := 0
  lastSeq := none
  quiet := 0
  quietNext := none
  brks := []
  brkFlag := false
  brkTurns := 0
  absent := false
  answers := []
  pfPulses := 0
  dn := []
  up := 0
  rootDepth := 2
  rootDepthNext := 2
  rootTok := 0xFF
  rootCmd := 0
  rootArg := 0
  sendLeft := 0
  sendCmd := 0
  sendArg := 0
  sendSeq := 0
  epochReq := none
  epochMin := 2
  parts := []
  dels := []

/-- Power management at Reset (Tables 14.8, 14.9). -/
def Pwr.dflt : Pwr where
  ps := 0
  entering := 0
  block := 0
  exiting := false
  floor := false
  f := 64
  t := 64
  limSeen := 750
  pWin := 0
  pPeak := 0
  noNonop := false
  wakeCause := 0
  duringEntry := false
  wakePend := false
  retLost := false
  refCnt := 0
  refBlock := 0
  ent3 := 0
  ent4 := 0
  entryUs := 0
  exitUs := 0
  beganUs := 0
  entryYt := 0
  entryLocked := false
  oscLost := false
  res := [0, 0, 0, 0, 0]
  resEst := 0
  resAt := 0
  waitRound := false
  stopFetch := false
  boardTemp := 0
  r := 0
  src := false
  round := 0
  die := [none, none, none, none, none]
  therm := List.replicate 8 (0, false, false)
  flash := []
  rails := List.replicate 6 (0, 0, false)
  thmQlc := 0
  thmAll := 0
  vcore := 700
  wcUs := 0
  ccUs := 0
  roundAt := 0

/-- A service life not begun. -/
def Life.dflt : Life := ⟨0, 0, 0, 0, 0, 0, 0, 0, 0, 0, 0, 0, 0⟩

/-- The test port at Reset: IDCODE selected (R445). -/
def Tst.dflt : Tst where
  ir := 2
  captured := []
  boundary := []
  drive := 0
  entryRef := false
  tdo := 0
  txsOut := 0
  mbStart := false
  mbBusy := false
  mbFail := false
  mbReg := 0
  mbRun := 0
  mbRep := 0
  mbDone := false
  mbFirst := 0
  mbSpare := 0
  fpStart := false
  fpBusy := false
  fpReg := 0
  fpBlocks := 0
  fpFailed := 0
  fpMax := 0
  fpTack := 0
  fpDone := false
  fpFail := false
  mbStop := false
  fpStop := false
  i3c := 0
  mi := 0
  health := []
  life := Life.dflt

/-- The Tack journal of a device never started: the first start is safe (DESIGN CHOICE, log 9). -/
def Jrn.dflt : Jrn where
  closing := .clean
  opened := false
  copy0 := true
  copy1 := true
  behind := none
  rebuild := none
  sanitize := 0
  stamp := (0, 0, 0)
  admOff := true
  checkpoints := 0
  sched := schedFactory
  schedLoaded := false
  schedPend := none
  flushed := 0
  life := Life.dflt
  learned := []
  lastFlush := ⟨0, 0, 0⟩
  used := false
  laid := false
  sparesOut := false

/-- No register read in progress. -/
def Regs.dflt : Regs := ⟨[], [], []⟩

/-- The block in RESET after power-on, before anything has happened: every register at its Reset value, an empty journal, no
commands waiting. -/
def State.reset : State where
  part := Part.dflt
  m := ModeS.dflt
  pins := Pins.dflt
  st := StartS.dflt
  img := Img.dflt Part.dflt
  stb := Stb.dflt
  slk := Slk.dflt
  q := Qs.dflt
  zn := Zn.dflt
  pl := Pl.dflt
  fl := Fl.dflt
  ecc := Ecc.dflt
  tm := Tm.dflt
  stl := Stl.dflt
  ci := Ciph.dflt
  ga := Gath.dflt
  cad := Cad.dflt
  pw := Pwr.dflt
  ts := Tst.dflt
  jn := Jrn.dflt
  rg := Regs.dflt
  free := 0
  pending := []

end Sys2Proof.Machine
end

