-- ==== Sys2Proof/Machine/Ops.lean ====
section
/-! DEFINITION. The shared operations every meaning uses: yard-time stamps, Studbook events, the mode and its base, functions and
command contexts, completions and asynchronous events. -/

namespace Sys2Proof.Machine
open Sys2Proof

/-- The outcome type of a meaning. -/
abbrev Out := Host.Outcome State Fault Refusal

/-! ## Yard time -/

/-- The present yard-time stamp (Table 13.8). -/
def stampNow (s : State) : Nat :=
  s.tm.epoch * 2 ^ 24 + s.tm.turn * 2 ^ 14 + s.tm.us * 2 ^ 4 + b2n s.tm.resync * 4 + b2n s.tm.tsrc * 2
    + b2n (s.tm.est && !s.tm.tsrc)

/-! ## Events (R397 to R400) -/

/-- An argument of one half-word; too large a value is stored as all ones (R398). -/
def h1 (v : Nat) : List Nat := [if v < 65536 then v else 65535]
/-- An argument of two half-words. -/
def h2 (v : Nat) : List Nat := if v < 2 ^ 32 then [v % 65536, v / 65536] else [65535, 65535]
/-- An argument of four half-words. -/
def h4 (v : Nat) : List Nat :=
  if v < 2 ^ 64 then [v % 65536, v / 65536 % 65536, v / 2 ^ 32 % 65536, v / 2 ^ 48] else List.replicate 4 65535
/-- A signed temperature argument. -/
def hT (t : Int) : List Nat := [toBits 16 t]
/-- The half-words H0 to H6 of an event's arguments (R398). -/
def packArgs (l : List (List Nat)) : List Nat := (l.flatten ++ List.replicate 7 0).take 7

/-- Raise an event in the present step (R400). In RETAIN it is an always-on event (R405). -/
def raise (code sev : Nat) (args : List (List Nat)) (s : State) : State :=
  { s with stb := { s.stb with raised := s.stb.raised ++
      [⟨stampNow s, code, sev, packArgs args, s.m.cur == .retain && !s.pw.exiting, s.tm.elapsed⟩] } }

/-- Insert an event behind those of the same or a lower code (R400). -/
def insertEv (e : Ev) : List Ev → List Ev
  | [] => [e]
  | x :: xs => if e.code < x.code then e :: x :: xs else x :: insertEv e xs

/-- The events of one clock in ascending code order (R400). -/
def sortEvs (l : List Ev) : List Ev := l.foldl (fun acc e => insertEv e acc) []

/-- Put one event in its queue: 256 records, or the always-on buffer's 16 (R400, R405). A full one drops it. -/
def enqueueEv (b : Stb) (e : Ev) : Stb :=
  if e.aon then
    if b.aon.length < 16 then { b with aon := b.aon ++ [e] } else { b with aonDrop := b.aonDrop + 1 }
  else if b.queue.length < 256 then { b with queue := b.queue ++ [e] }
  else { b with dropQueue := satAdd 32 b.dropQueue 1 }

/-- Move the step's events to the queue, in ascending code order (R400). -/
def settle (s : State) : State :=
  { s with stb := (sortEvs s.stb.raised).foldl enqueueEv { s.stb with raised := [] } }

/-! ## Functions -/

/-- A function's record; absent ones are at Reset. -/
def fnOf (f : Nat) (s : State) : Fn := Tbl.getD s.q.fns f Fn.dflt

/-- Change a function's record. -/
def updFn (f : Nat) (g : Fn → Fn) (s : State) : State :=
  { s with q := { s.q with fns := Tbl.put s.q.fns f (g (fnOf f s)) } }

/-- The function is present (Table 12.1). -/
def fnPresent (f : Nat) (s : State) : Bool :=
  if f = 0 then true
  else if f = 1024 then s.pins.strapDual && s.img.portbPf
  else s.stl.vfEnable && decide (f ≤ s.stl.numVfs)

/-- Owner PF or port B PF. -/
def isPf (f : Nat) : Bool := f == 0 || f == 1024

/-- A stall: 1 … 1,023. -/
def isStall (f : Nat) : Bool := decide (0 < f ∧ f < 1024)

/-- Every function number present, Owner PF first. -/
def allFns (s : State) : List Nat :=
  [0] ++ (if s.stl.vfEnable then (List.range s.stl.numVfs).map (· + 1) else []) ++ (if fnPresent 1024 s then [1024] else [])

/-- Queue pairs of a function (R221). -/
def pairsOf (f : Nat) (s : State) : Nat :=
  if f = 0 then (if fnPresent 1024 s then min s.img.pfQueues 8128 else s.img.pfQueues)
  else if f = 1024 then 64 else (fnOf f s).vq

/-- MSI-X vectors of a function (R221). -/
def vectorsOf (f : Nat) (s : State) : Nat :=
  if f = 0 then min (pairsOf 0 s) 2048 else if f = 1024 then 64 else (fnOf f s).vi

/-- A stall's resources (Table 12.2). -/
def resOf (f : Nat) (s : State) : StlRes := Tbl.getD s.stl.res f StlRes.dflt

/-- A function's protection entry: entry 0 for the Owner PF, the same rights for the port B PF (R318). -/
def entOf (f : Nat) (s : State) : StlEnt := if isPf f then StlEnt.owner else Tbl.getD s.stl.ents f StlEnt.dflt

/-- The stall is frozen (R323). -/
def frozen (f : Nat) (s : State) : Bool := isStall f && (resOf f s).frz

/-- CSTS.RDY of a function (R31, R50). -/
def rdy (f : Nat) (s : State) : Bool :=
  let n := fnOf f s
  fnPresent f s && n.en && n.cfgOk && s.m.cur.ready && (isPf f || n.online)

/-- CSTS.CFS (R31). -/
def cfs (s : State) : Bool := s.m.cur == .halted

/-- The modes that fetch (Table 8.7). -/
def fetchMode (s : State) : Bool :=
  s.m.cur.isBase || s.m.cur == .sanitize

/-- The function may fetch now (R229, R91, R36, R442, R378). -/
def mayFetch (f : Nat) (s : State) : Bool :=
  fetchMode s && rdy f s && !frozen f s && (fnOf f s).shst == 0 && !s.jn.admOff && s.m.drain == .none && !s.pw.stopFetch

/-! ## Command contexts (R231) -/

/-- Contexts a function holds. -/
def ctxsOf (f : Nat) (s : State) : List Ctx := s.q.ctxs.filter (fun k => k.cmd.fn == f)

/-- Enabled functions: each has 16 contexts reserved. -/
def enabledFns (s : State) : Nat := (s.q.fns.filter (fun p => p.2.en)).length

/-- A reserved context of the function is free. -/
def reservedFree (f : Nat) (s : State) : Bool := decide (((ctxsOf f s).filter (·.reserved)).length < 16)

/-- A shared context is free. One that a reset left with a function no longer enabled is none of the reserved ones (R239, R240). -/
def sharedFree (s : State) : Bool :=
  decide ((s.q.ctxs.filter (fun k => !k.reserved || !(fnOf k.cmd.fn s).en)).length + 16 * enabledFns s < 65536)

/-- A context is free for the function. -/
def ctxFree (f : Nat) (s : State) : Bool := reservedFree f s || sharedFree s

/-! ### Check-value units' captures (R307, R308) -/

/-- A check-value unit. -/
def cvuAt (u : Nat) (s : State) : Cvu := Tbl.getD s.ci.cvus u (Cvu.dflt (if u < 16 then 0x7FF else (u - 16) / 2))
/-- Change a check-value unit. -/
def updCvu (u : Nat) (g : Cvu → Cvu) (s : State) : State := { s with ci := { s.ci with cvus := Tbl.put s.ci.cvus u (g (cvuAt u s)) } }
/-- SRC as it acts: POLY 0b11, 0x6 and 0x7 act as 0, and 0x4 on a private unit (Tables 11.7, 11.8). -/
def cvuSrc (u : Nat) (s : State) : Nat :=
  let c := cvuAt u s
  if c.poly = 3 ∨ 6 ≤ c.src ∨ (c.src = 4 ∧ 16 ≤ u) then 0 else c.src
/-- The units a function's command may meet: the device-wide ones and the stall's own assigned ones (R307). -/
def cvuUnits (f : Nat) (s : State) : List Nat :=
  List.range 16 ++ (if isStall f then (List.range (min 2 (resOf f s).cvus)).map (fun m => 16 + 2 * f + m) else [])
/-- A command matches a unit's filters while its source is on (R308). -/
def cvuMatch (u : Nat) (c : Cmd) (s : State) : Bool :=
  let v := cvuAt u s
  let src := cvuSrc u s
  decide (1 ≤ src ∧ src ≤ 3) && (16 ≤ u || v.fn == 0x7FF || v.fn == c.fn) && (v.sqid == 0xFFFF || v.sqid == c.sqid) &&
    (v.nsid == 0 || v.nsid == c.nsid) && (!v.cidEn || v.cid == c.cid) && !(v.one && v.took)
/-- The captures of a fetch: unit·8 + SRC. -/
def cvuCaptures (c : Cmd) (s : State) : List Nat :=
  ((cvuUnits c.fn s).filter (fun u => cvuMatch u c s)).map (fun u => u * 8 + cvuSrc u s)
/-- Fold a completed command into its units, or count it as skipped (R308). Read and write data are in the context. -/
def cvuFold (k : Ctx) (good : Bool) (s : State) : State :=
  k.cvus.foldl (fun s e =>
    let wr := [0x01, 0x7D, 0x8D].contains k.cmd.opc
    let rd := [0x02, 0x81, 0x8E].contains k.cmd.opc
    let take_ := k.cmd.sqid != 0 && ((wr && bit (e % 8) 0) || (rd && bit (e % 8) 1))
    let l := if take_ then k.data else []
    updCvu (e / 8) (fun c =>
      if good then { c with val := crcOn c.poly c.val l, cnt := satAdd 64 c.cnt l.length, done := c.done || c.one }
      else { c with skip := satAdd 32 c.skip 1, done := c.done || c.one }) s) s

/-- The context of a fetch (R231, R319). -/
def newCtx (c : Cmd) (s : State) : Ctx where
  cmd := c
  seq := s.q.seq + 1
  reserved := reservedFree c.fn s
  dispatched := false
  wait := .fetched
  snap := entOf c.fn s
  cvus := cvuCaptures c s
  rd := Rd.none
  wpath := 0
  hh := 0
  sealF := 0
  dw0 := 0
  data := []
  startUs := s.tm.elapsed

/-- Advance an SQ's head past the fetched entry. A command row on an empty SQ stands for its doorbell too: the tail moves with it. -/
def popSq (f qid : Nat) (s : State) : State :=
  updFn f (fun n => { n with sqs := Tbl.upd n.sqs qid (fun q =>
    let h := if q.size = 0 then 0 else (q.head + 1) % q.size
    { q with head := h, tail := if q.head = q.tail then h else q.tail }) }) s

/-- An SQ of the function that is not being deleted (R235). -/
def sqLive (f qid : Nat) (s : State) : Bool :=
  (Tbl.get? (fnOf f s).sqs qid).isSome && !s.q.ctxs.any (fun k => k.cmd.fn == f && k.wait == .sqDelete qid)

/-- 0x6050, once per turn in which a function finds no context (R231). -/
def noteExh (s : State) : State :=
  if s.q.exhTurn = s.tm.turns + 1 then s else raise 0x6050 1 [] { s with q := { s.q with exhTurn := s.tm.turns + 1 } }

/-- After a clean-close, the resume record is made durable before the first fetch (R65). -/
def resumeRecord (s : State) : State :=
  if s.jn.opened then s else { s with jn := { s.jn with opened := true, closing := .none } }

/-- The context a (function, SQ, CID) names. -/
def ctxKey (k : Ctx) (f sq cid : Nat) : Bool := k.cmd.fn == f && k.cmd.sqid == sq && k.cmd.cid == cid

/-- Fetch a command: take a context, advance the SQ head (R230, R231). -/
def fetchNow (c : Cmd) (s : State) : Ctx × State :=
  let k := newCtx c s
  let s0 := k.cvus.foldl (fun s e => updCvu (e / 8) (fun c => { c with took := c.took || c.one }) s) s
  let s1 := resumeRecord (popSq c.fn c.sqid s0)
  (k, { s1 with q := { s1.q with seq := k.seq, ctxs := s1.q.ctxs ++ [k] } })

/-- The context of a command already fetched and not yet run. -/
def fetchedCtx (c : Cmd) (s : State) : Option Ctx :=
  s.q.ctxs.find? (fun k => k.cmd == c && k.wait == .fetched)

/-- The context with a fetch order. -/
def ctxAt (q : Nat) (s : State) : Option Ctx := s.q.ctxs.find? (fun k => k.seq == q)

/-- The live context a (function, SQ, CID) names. -/
def ctxNamed (f sq cid : Nat) (s : State) : Option Ctx :=
  s.q.ctxs.find? (fun k => ctxKey k f sq cid && k.wait != .posted && k.wait != .fenced)

/-- Replace a context. -/
def putCtx (k : Ctx) (s : State) : State :=
  { s with q := { s.q with ctxs := s.q.ctxs.map (fun x => if x.seq == k.seq then k else x) } }

/-- Release a context. -/
def dropCtx (q : Nat) (s : State) : State :=
  { s with q := { s.q with ctxs := s.q.ctxs.filter (fun x => x.seq != q) } }

/-- Run a command's meaning on its context: one FETCH_SLOT has fetched it, or it is fetched now if its function may fetch
and a context is free. Otherwise nothing happens: the command stays in its submission queue (log 6). -/
def withCmd (c : Cmd) (s : State) (f : Ctx → State → State) : State :=
  match fetchedCtx c s with
  | some k => f k s
  | none =>
    if mayFetch c.fn s && sqLive c.fn c.sqid s then
      (if ctxFree c.fn s then f (fetchNow c s).1 (fetchNow c s).2 else noteExh s)
    else s

/-! ## Completions (R245 to R248) -/

/-- DNR and CRD of a status (Table 8.16, R456). -/
def dnrOf (sct sc : Nat) : Bool :=
  if sct = 0 ∧ sc = 0 then false
  else if sct = 7 then !([0x82, 0x85, 0x87].contains sc)
  else !([(0, 0x04), (0, 0x06), (0, 0x07), (0, 0x08), (0, 0x1D), (1, 0x03), (1, 0x13), (1, 0xBD), (1, 0xBE)].contains (sct, sc))

/-- CRD of a status while ACRE = 1 (Table 8.16, R248). -/
def crdOf (sct sc : Nat) : Nat :=
  if sct = 7 then (if sc = 0x82 ∨ sc = 0x87 then 1 else if sc = 0x85 then 2 else 0) else 0

/-- The device is below power state 0, capped by a power token, or throttled (THROT of Table 8.15; R377). -/
def throttledNow (s : State) : Bool := decide (0 < s.pw.ps) || s.cad.token != 0xFF || decide (min s.pw.f s.pw.t < 64)

/-- The completion detail DW1 [31:16] of a context (Tables 8.13, 8.15). -/
def detailOf (k : Ctx) (s : State) : Nat :=
  let lvl := (fnOf k.cmd.fn s).feats.xlevel
  let l2 := fld 0 3 k.wpath + fld 3 3 k.rd.rpath + fld 6 3 (if k.rd.rpath ≤ 1 then 0 else k.rd.ladder) + fld 9 1 (b2n (throttledNow s))
  if lvl ≤ 1 then 0 else if lvl = 2 then l2 else l2 + fld 10 3 k.hh + fld 13 3 k.sealF

/-- A vector's mask bit in the MSI-X table. -/
def vecMasked (n : Fn) (vec : Nat) : Bool := bit (Tbl.getD n.msixTab (4 * vec + 3) 1) 0

/-- Signal a vector; while it is masked it stays pending. -/
def signal (f vec : Nat) (s : State) : State :=
  updFn f (fun n =>
    if vecMasked n vec then { n with pba := if n.pba.contains vec then n.pba else n.pba ++ [vec] }
    else { n with msix := Tbl.put n.msix vec (Tbl.getD n.msix vec 0 + 1) }) s

/-- A completion queue is full. -/
def cqFull (c : Cq) : Bool := decide (c.size ≤ 1) || (c.tail + 1) % c.size == c.head

/-- Write a completion into its queue, or hold it for room (R245). -/
def cqPush (f : Nat) (e : Cqe) (s : State) : State × Bool :=
  let n := fnOf f s
  match Tbl.get? n.cqs e.cqid with
  | none => (s, true)
  | some c =>
    if cqFull c || !c.held.isEmpty then
      (updFn f (fun n => { n with cqs := Tbl.put n.cqs e.cqid { c with held := c.held ++ [e] } }) s, false)
    else
      let wrap := c.tail + 1 == c.size
      let now := e.cqid == 0 || n.feats.time == 0 || n.feats.cd.contains c.iv || decide (n.feats.thr ≤ c.coal)
      let c' := { c with tail := if wrap then 0 else c.tail + 1, phase := if wrap then !c.phase else c.phase,
                         coal := if now then 0 else c.coal + 1 }
      let s1 := updFn f (fun n => { n with cqs := Tbl.put n.cqs e.cqid c' }) s
      let s2 := { s1 with q := { s1.q with out := s1.q.out ++ [{ e with phase := c.phase }] } }
      (if now && c.ien then signal f c.iv s2 else s2, true)

/-- Enter an error in its controller's Error Information log: 64 entries, newest first (R247). -/
def logError (k : Ctx) (sct sc : Nat) (s : State) : State :=
  let f := k.cmd.fn
  let n := Tbl.getD s.q.errCount f 0 + 1
  let e : ErrEnt := ⟨n, f, k.cmd.sqid, k.cmd.cid, sct * 256 + sc, k.cmd.nsid⟩
  let keep := fun (x : ErrEnt) => x.fn != f || decide (n < x.count + 64)
  { s with q := { s.q with errCount := Tbl.put s.q.errCount f n, errLog := e :: s.q.errLog.filter keep } }

/-- The completion entry of a context (Table 8.14). -/
def cqeOf (k : Ctx) (sct sc dw0 cs1 : Nat) (data : List Byte) (s : State) : Cqe :=
  let n := fnOf k.cmd.fn s
  let sq := Tbl.get? n.sqs k.cmd.sqid
  { fn := k.cmd.fn, cqid := (sq.map (·.cq)).getD 0, sqid := k.cmd.sqid, cid := k.cmd.cid,
    sqhd := (sq.map (·.head)).getD 0, dw0 := dw0, cs1 := cs1, detail := detailOf k s, sct := sct, sc := sc,
    crd := if n.feats.acre then crdOf sct sc else 0, more := sct == 7, dnr := dnrOf sct sc, phase := false, data := data }

/-- Post a completion. None is posted in HALTED or EMERGENCY_FLUSH (Table 8.7), or for a command a reset has fenced (R240). -/
def postFull (k : Ctx) (sct sc dw0 cs1 : Nat) (data : List Byte) (s : State) : State :=
  if s.m.cur == .halted || s.m.cur == .emergencyFlush then s
  else if k.wait == .fenced then dropCtx k.seq s
  else
    let s1 := cvuFold k (sct == 0 && sc == 0) (if sct = 7 then logError k sct sc s else s)
    let r := cqPush k.cmd.fn (cqeOf k sct sc dw0 cs1 data s1) s1
    if r.2 then dropCtx k.seq r.1 else putCtx { k with wait := .posted } r.1

/-- End a command with a status. -/
def fin (k : Ctx) (sct sc : Nat) (s : State) : State := postFull k sct sc 0 0 [] s
/-- End a command with success. -/
def ok (k : Ctx) (s : State) : State := postFull k 0 0 0 0 [] s
/-- End a command with success and data. -/
def okData (k : Ctx) (data : List Byte) (s : State) : State := postFull k 0 0 0 0 data s
/-- End a command with success and DW0. -/
def okDw0 (k : Ctx) (dw0 : Nat) (s : State) : State := postFull k 0 0 dw0 0 [] s

/-- A Delete I/O SQ completes once every fetched command of its SQ has been completed; the SQ is then gone (R235). -/
def endDeletes (s : State) : State :=
  s.q.ctxs.foldl (fun s k => match k.wait with
    | .sqDelete q =>
      if s.q.ctxs.any (fun x => x.cmd.fn == k.cmd.fn && x.cmd.sqid == q && x.wait != .fenced) then s
      else ok k (updFn k.cmd.fn (fun n => { n with sqs := Tbl.del n.sqs q }) s)
    | _ => s) s

/-- How every meaning ends: its next state, the deletions it lets end, its events queued. -/
def done (s : State) : Out := .next (settle (endDeletes s))

/-! ## Asynchronous events -/

/-- Post held events of a function through its outstanding AERs, oldest first; a posted event's log is masked until it is read. -/
def deliverAen (f : Nat) : Nat → State → State
  | 0, s => s
  | n + 1, s =>
    match s.q.ctxs.find? (fun k => k.cmd.fn == f && k.wait == .aer),
        s.q.pendAen.find? (fun p => p.1 == f && !(fnOf f s).masked.contains p.2.2.2) with
    | some k, some p =>
      let s1 := { s with q := { s.q with pendAen := s.q.pendAen.erase p } }
      let s2 := updFn f (fun n => { n with masked := n.masked ++ [p.2.2.2] }) s1
      deliverAen f n (postFull k 0 0 (p.2.1 + p.2.2.1 * 256 + p.2.2.2 * 65536) 0 [] s2)
    | _, _ => s

/-- An asynchronous event of a function: it is posted through the oldest AER, or waits for a request; while its log is masked it is
not reported. -/
def aenFn (f typ info log : Nat) (s : State) : State :=
  if (fnOf f s).masked.contains log || s.q.pendAen.contains (f, typ, info, log) then s
  else deliverAen f 1 { s with q := { s.q with pendAen := s.q.pendAen ++ [(f, typ, info, log)] } }

/-- A log is read with Retain Asynchronous Event clear: its events may be reported again. -/
def unmask (f log : Nat) (s : State) : State :=
  deliverAen f 8 (updFn f (fun n => { n with masked := n.masked.filter (· != log) }) s)

/-- Post an event to every enabled function whose Asynchronous Event Configuration enables it by `bit`. -/
def aenAll (bitNo typ info log : Nat) (s : State) : State :=
  (allFns s).foldl (fun s f => if (fnOf f s).en && bit (fnOf f s).feats.aec bitNo then aenFn f typ info log s else s) s

/-- SMART / Health information codes of the critical warning bits (NVMe; PRESUMED, log 7). -/
def warnInfo (b : Nat) : Nat := if b = 0 then 2 else if b = 1 then 1 else 0

/-- Set or clear critical warning bit b; a set is posted where enabled (R35). -/
def setWarn (b : Nat) (v : Bool) (s : State) : State :=
  let old := match b with
    | 0 => s.m.warn0 | 1 => s.m.warn1 | 2 => s.m.warn2 | 3 => s.m.warn3 | _ => s.m.warn4
  let m := match b with
    | 0 => { s.m with warn0 := v } | 1 => { s.m with warn1 := v } | 2 => { s.m with warn2 := v }
    | 3 => { s.m with warn3 := v } | _ => { s.m with warn4 := v }
  let s1 := { s with m := m }
  if v && !old then aenAll b 1 (warnInfo b) 2 s1 else s1

/-! ## The mode (R32 to R35) -/

/-- The base mode the standing conditions give (R33). -/
def baseMode (s : State) : Mode :=
  if s.m.sparesOut then .readOnly else if s.m.thm ≠ 0 then .thermalHold else if s.m.wt then .writeThrough else .service

/-- Change TXS_MODE.CUR: PREV, CHG_CNT and the stamp change in the same clock, and 0x10F0 is written (R35). Entry to
THERMAL_HOLD sets warning bit 1, entry to READ_ONLY bit 3. -/
def setMode (md : Mode) (s : State) : State :=
  if s.m.cur = md then s
  else
    let old := s.m.cur
    let s1 := raise 0x10F0 1 [h1 old.code, h1 md.code] s
    let s2 := { s1 with m := { s1.m with cur := md, prev := old, chgCnt := wrapAdd 16 s1.m.chgCnt 1,
                                         stamp := stampNow s, since := s.tm.elapsed } }
    if md = .thermalHold then setWarn 1 true s2 else if md = .readOnly then setWarn 3 true s2 else s2

/-- Re-evaluate the base mode in modes 0x4 to 0x7 (R33). -/
def reBase (s : State) : State := if s.m.cur.isBase then setMode (baseMode s) s else s

/-- In HALTED the LUNs are parked with WP low once every operation in progress has ended (R173). -/
def parkHalted (s : State) : State :=
  if s.m.cur == .halted && !s.fl.parked && s.fl.ops.all (fun o => o.st == .queued || o.ch == 64) then
    { s with fl := { s.fl with parked := true }, pins := { s.pins with wpLow := true } }
  else s
/-- Enter HALTED, a fatal fault: only EMERGENCY_FLUSH stands above it (R32). A drain that ran, and an entry to or exit from a
non-operational state, are cut short; service life counts it (R452). -/
def halt (s : State) : State :=
  if s.m.cur = .emergencyFlush ∨ s.m.cur = .halted then s
  else parkHalted (setMode .halted { s with m := { s.m with drain := .none, testPend := false },
                                            pw := { s.pw with entering := 0, block := 0, exiting := false, wakePend := false },
                                            ts := { s.ts with life := { s.ts.life with halts := satAdd 32 s.ts.life.halts 1 } } })

/-- Take a new free value index. -/
def tick (s : State) : State := { s with free := s.free + 1 }

/-! ## Lists and counts -/

/-- Change the element of a list that meets a test. -/
def updWhere {α : Type} (p : α → Bool) (g : α → α) (l : List α) : List α := l.map (fun x => if p x then g x else x)

end Sys2Proof.Machine
end

