-- ==== Sys2Proof/Machine/Operands.lean ====
section
/-! DEFINITION. The operand forms: where each command keeps its fields. The vendor commands' fields are the spec's (Tables 4.4,
7.8, 9.x, 10.x, 11.x, 12.x, 15.6); those of the standard commands are NVMe's own, to which R10 refers (PRESUMED places, log 5). -/

namespace Sys2Proof.Machine
open Sys2Proof

/-- A 64-bit field over CDW10 and CDW11. -/
def slbaOf (c : Cmd) : Nat := c.cdw10.toNat + c.cdw11.toNat * 2 ^ 32
/-- NLB, 0-based, CDW12 [15:0] plus one. -/
def nblocks (c : Cmd) : Nat := bits c.cdw12.toNat 15 0 + 1
/-- FUA, CDW12 [30]. -/
def fuaOf (c : Cmd) : Bool := bit c.cdw12.toNat 30
/-- DEAC, CDW12 [25]. -/
def deacOf (c : Cmd) : Bool := bit c.cdw12.toNat 25
/-- PRINFO, CDW12 [29:26]: PRACT [3], guard, application and reference checks [2:0]. -/
def prinfoOf (c : Cmd) : Nat := bits c.cdw12.toNat 29 26
/-- Zone Management Send action, CDW13 [7:0]. -/
def zsaOf (c : Cmd) : Nat := bits c.cdw13.toNat 7 0
/-- Select All, CDW13 [8]. -/
def selAllOf (c : Cmd) : Bool := bit c.cdw13.toNat 8
/-- SCRUB, CDW14 [0] (R123). -/
def scrubOf (c : Cmd) : Bool := bit c.cdw14.toNat 0
/-- Zone Management Receive: state filter, CDW13 [15:8]; Partial Report, CDW13 [16]; dwords, CDW12 plus one. -/
def zrasfOf (c : Cmd) : Nat := bits c.cdw13.toNat 15 8
/-- Partial Report. -/
def partialOf (c : Cmd) : Bool := bit c.cdw13.toNat 16
/-- Dwords of the buffer, NUMD plus one. -/
def numdOf (c : Cmd) : Nat := c.cdw12.toNat + 1
/-- Get Log Page: identifier, dwords, offset. -/
def lidOf (c : Cmd) : Nat := bits c.cdw10.toNat 7 0
/-- Get Log Page length in bytes. -/
def logLen (c : Cmd) : Nat := (bits c.cdw10.toNat 31 16 + bits c.cdw11.toNat 15 0 * 65536 + 1) * 4
/-- Get Log Page offset in bytes. -/
def logOff (c : Cmd) : Nat := c.cdw12.toNat + c.cdw13.toNat * 2 ^ 32
/-- Retain Asynchronous Event, CDW10 [15]. -/
def raeOf (c : Cmd) : Bool := bit c.cdw10.toNat 15
/-- Feature Identifier. -/
def fidOf (c : Cmd) : Nat := bits c.cdw10.toNat 7 0
/-- SV of Set Features. -/
def svOf (c : Cmd) : Bool := bit c.cdw10.toNat 31
/-- SEL of Get Features. -/
def selOf (c : Cmd) : Nat := bits c.cdw10.toNat 10 8
/-- CNS and CNTID of Identify. -/
def cnsOf (c : Cmd) : Nat := bits c.cdw10.toNat 7 0
/-- Queue identifier and size of queue commands. -/
def qidOf (c : Cmd) : Nat := bits c.cdw10.toNat 15 0
/-- QSIZE, 0-based. -/
def qsizeOf (c : Cmd) : Nat := bits c.cdw10.toNat 31 16
/-- Sanitize action. -/
def sanactOf (c : Cmd) : Nat := bits c.cdw10.toNat 2 0

/-- Placement Open (Table 4.4). -/
def poYard (c : Cmd) : Nat := bits c.cdw12.toNat 7 0
/-- LCLASS. -/
def poClass (c : Cmd) : Nat := bits c.cdw12.toNat 11 8
/-- COMP. -/
def poComp (c : Cmd) : Bool := bit c.cdw12.toNat 12
/-- SEAL. -/
def poSeal (c : Cmd) : Bool := bit c.cdw12.toNat 13
/-- KEY_SLOT. -/
def poSlot (c : Cmd) : Nat := bits c.cdw12.toNat 16 14
/-- Reserved bits of CDW12. -/
def poRsvd (c : Cmd) : Nat := bits c.cdw12.toNat 31 17

/-- FN of the stall commands. -/
def stlFn (c : Cmd) : Nat := bits c.cdw10.toNat 10 0

/-- Bytes of metadata per block of an LBA format (R102). -/
def mdLen (lbaf : Nat) : Nat := if lbaf = 0 then 0 else if lbaf = 1 then 8 else if lbaf = 2 then 16 else 64

end Sys2Proof.Machine
end

