-- ==== Sys2Proof/Machine/Flags.lean ====
section
/-! DEFINITION. Computed status: what the status fields of the registers and logs follow from the state (Slack figures and
EARLY_OFF, zone counts, CSTS, warnings, geometry figures). -/

namespace Sys2Proof.Machine
open Sys2Proof

/-! ## Slack figures (R82, R87, Table 3.6) -/

/-- A function's Slack account. -/
def slkOf (f : Nat) (s : State) : SlkFn := Tbl.getD s.slk.fns f SlkFn.dflt
/-- Change a function's Slack account. -/
def updSlk (f : Nat) (g : SlkFn → SlkFn) (s : State) : State :=
  { s with slk := { s.slk with fns := Tbl.put s.slk.fns f (g (slkOf f s)) } }

/-- S in KiB: 0 while WT = 1 (Table 3.6). -/
def sKiB (s : State) : Nat := if s.m.wt then 0 else s.slk.totalMiB * 1024
/-- ΣQ of the assigned quotas. -/
def sumQ (s : State) : Nat := sumN (s.slk.fns.map (fun p => p.2.quotaKiB))
/-- Σ of the effective quotas. -/
def sumEff (s : State) : Nat := sumN (s.slk.fns.map (fun p => p.2.effKiB))
/-- The shared pool P = S − ΣQ, remainders of scaling included (R82, R87). It follows the quotas at a start too, although R14 keeps POOL_KIB
there (DESIGN CHOICE, log 90). -/
def poolKiB (s : State) : Nat := sKiB s - sumEff s
/-- Bytes acknowledged and not yet durable. -/
def useBytes (s : State) : Nat := sumN (s.slk.fns.map (fun p => p.2.useQ + p.2.useP))
/-- SLK_AMT.USE_KIB. -/
def useKiB (s : State) : Nat := ceilDiv (useBytes s) 1024
/-- SLK_AMT.POOL_FREE_KIB. -/
def poolFreeKiB (s : State) : Nat := poolKiB s - ceilDiv s.slk.poolUse 1024

/-- A device-wide reason that no write completes early (R83, R87, R94, R95). -/
def holdAll (s : State) : Bool :=
  s.m.wt || s.slk.noEarly || s.slk.window || decide (useKiB s > sKiB s) || (s.slk.overS && decide (useKiB s = sKiB s)) || s.slk.reserveShort

/-- Keep the mark that USE_KIB has exceeded a lowered S, until it falls below it (R87). -/
def noteOver (s : State) : State :=
  { s with slk := { s.slk with overS := decide (sKiB s < useKiB s) || (s.slk.overS && decide (useKiB s = sKiB s)) } }

/-- SLK_STAT.EARLY_OFF. -/
def earlyOff (s : State) : Bool := holdAll s || s.slk.admissionOff || s.m.cur == .emergencyFlush

/-- Scale the effective quotas to S, rounded down to 4 KiB (R87). The scaling is recorded when it takes effect. -/
def scaleQuotas (s : State) : State :=
  let q := sumQ s
  let t := sKiB s
  if t < q then
    let s1 := { s with slk := { s.slk with fns := Tbl.mapV s.slk.fns (fun _ a =>
      { a with effKiB := a.quotaKiB * t / q / 4 * 4, scaled := true }) } }
    raise 0x2011 1 [h2 t, h2 q] s1
  else s

/-- Restore the assigned quotas, at a proof-load whose S covers them (R87). -/
def restoreQuotas (s : State) : State :=
  if sumQ s ≤ sKiB s then
    { s with slk := { s.slk with fns := Tbl.mapV s.slk.fns (fun _ a => { a with effKiB := a.quotaKiB, scaled := false }) } }
  else s

/-! ## Geometry figures (R104, R142, R145, R159) -/

/-- One program unit of one die, bytes. -/
def unitBytes (g : Geom) : Nat := g.pageData * g.planes * g.cell
/-- Zone capacity, bytes. -/
def zcapBytes (g : Geom) : Nat :=
  let l := Nat.lcm (unitBytes g) 65536
  if l = 0 then 0 else 4294967296 / l * l
/-- Zone capacity, LBAs. -/
def zcapLbas (g : Geom) : Nat := zcapBytes g / 4096
/-- Units of a zone's reservation. -/
def zoneUnits (g : Geom) : Nat := if unitBytes g = 0 then 0 else zcapBytes g / unitBytes g
/-- Wordlines per block. -/
def wordlines (g : Geom) : Nat := if g.cell = 0 then 0 else g.pagesPerBlock / g.cell
/-- SLC data per die block. -/
def bSlc (g : Geom) : Nat := g.pageData * g.planes * wordlines g
/-- 192 MiB. -/
def padPenBytes : Nat := 201326592
/-- Data dies of a Paddock Pen. -/
def padD (g : Geom) : Nat := if bSlc g = 0 then 0 else ceilDiv padPenBytes (bSlc g)
/-- 4 KiB codewords of a one-bit wordline on all planes. -/
def cwPerWl (g : Geom) : Nat := g.pageData * g.planes / 4096
/-- Codewords of a QLC or TLC unit. -/
def cwPerUnit (g : Geom) : Nat := unitBytes g / 4096
/-- Spare blocks of a die. -/
def spareTarget (g : Geom) : Nat := ceilDiv (2 * g.blocksPerLun) 100

/-! ## Zones -/

/-- A zone's descriptor. -/
def zoneAt? (z : Nat) (s : State) : Option Zone := Tbl.get? s.zn.zones z
/-- Change a zone's descriptor. -/
def updZone (z : Nat) (g : Zone → Zone) (s : State) : State := { s with zn := { s.zn with zones := Tbl.upd s.zn.zones z g } }
/-- Active zones counted against a function (R110). -/
def activeCount (f : Nat) (s : State) : Nat := (s.zn.zones.filter (fun p => p.2.st.active && p.2.actFn == f)).length
/-- Open zones counted against a function. -/
def openCount (f : Nat) (s : State) : Nat := (s.zn.zones.filter (fun p => p.2.st.isOpen && p.2.actFn == f)).length
/-- Active zones device-wide. -/
def activeAll (s : State) : Nat := (s.zn.zones.filter (fun p => p.2.st.active)).length
/-- Open zones device-wide. -/
def openAll (s : State) : Nat := (s.zn.zones.filter (fun p => p.2.st.isOpen)).length
/-- A function's active limit (R111). -/
def activeLim (f : Nat) (s : State) : Nat := if isPf f then 16384 else (resOf f s).actLim
/-- A function's open limit (R111). -/
def openLim (f : Nat) (s : State) : Nat := if isPf f then 8192 else (resOf f s).openLim

/-- A namespace. -/
def nsAt? (n : Nat) (s : State) : Option Ns := Tbl.get? s.zn.nss n
/-- The conventional namespace and its identifier. -/
def convNs? (s : State) : Option (Nat × Ns) := s.zn.nss.find? (fun p => p.2.conv)
/-- A namespace as a function sees it: attached, and with CC.CSS = 000b the conventional one only (Table 8.2). -/
def nsFor? (f n : Nat) (s : State) : Option Ns :=
  match nsAt? n s with
  | some x => if x.attached.contains f && (x.conv || (fnOf f s).css == 6) then some x else none
  | none => none

/-- Bytes of the wordlines of a one-bit Pen's last data die: what 192 MiB leaves when the others are full (R145), in wordlines. -/
def padLastWls (g : Geom) : Nat := ceilDiv (49152 - (padD g - 1) * (cwPerWl g * wordlines g)) (max 1 (cwPerWl g))
/-- Data wordlines of a one-bit Pen. -/
def padWls (g : Geom) : Nat := (padD g - 1) * wordlines g + padLastWls g
/-- Codeword slots of a one-bit Pen, counted by wordline; the last wordline of the last data die may hold fewer codewords. -/
def padSlots (g : Geom) : Nat := padWls g * max 1 (cwPerWl g)
/-- Codewords that wordline j of a one-bit Pen holds, counted in program order. -/
def padRoom (j : Nat) (g : Geom) : Nat :=
  let c := max 1 (cwPerWl g)
  let d := padD g
  let r := (49152 - (d - 1) * (c * wordlines g)) % c
  if j + 1 = d * padLastWls g ∧ r ≠ 0 then r else c

end Sys2Proof.Machine
end

