-- ==== Sys2Proof/Machine/Media.lean ====
section
/-! DEFINITION. The flash array as placement and the sequencers share it: rows, Yards, dies, blocks, Pens, reservations, array
operations (Chapters 5 and 6, R199 to R209). -/

namespace Sys2Proof.Machine
open Sys2Proof

/-! ## Dies and blocks -/

/-- The key of a die: channel and dense LUN index (R167). -/
def dieKey (ch lun : Nat) : Nat := ch * 64 + lun
/-- Channel of a die key. -/
def dieCh (d : Nat) : Nat := d / 64
/-- LUN of a die key. -/
def dieLun (d : Nat) : Nat := d % 64
/-- Flash die argument: [5:0] channel, [11:6] LUN (Table 15.2). -/
def dieArg (d : Nat) : Nat := dieCh d + dieLun d * 64
/-- The key of a block. -/
def blkKey (d b : Nat) : Nat := d * 8192 + b
/-- The Shed die of a die key (R21). -/
def dieShed (d : Nat) : Nat := d / 1024

/-- A LUN's die-table entry. -/
def lunOf (d : Nat) (s : State) : Lun := Tbl.getD s.fl.luns d Lun.dflt
/-- Change a LUN's entry. -/
def updLun (d : Nat) (g : Lun → Lun) (s : State) : State := { s with fl := { s.fl with luns := Tbl.upd s.fl.luns d g } }
/-- A block's records. -/
def bkOf (d b : Nat) (s : State) : Bk := Tbl.getD s.fl.blks (blkKey d b) Bk.dflt
/-- Change a block's records; a block as it was made takes no entry. -/
def updBk (d b : Nat) (g : Bk → Bk) (s : State) : State :=
  let x := g (bkOf d b s)
  { s with fl := { s.fl with blks := if x = Bk.dflt then Tbl.del s.fl.blks (blkKey d b) else Tbl.put s.fl.blks (blkKey d b) x } }
/-- A channel's diagnostic block. -/
def chnOf (c : Nat) (s : State) : Chn := Tbl.getD s.fl.chs c Chn.dflt
/-- Change a channel's block. -/
def updChn (c : Nat) (g : Chn → Chn) (s : State) : State :=
  { s with fl := { s.fl with chs := Tbl.put s.fl.chs c (g (chnOf c s)) } }

/-- The die is present, in service and not worn out (R136, R160, R195). -/
def dieUsable (d : Nat) (s : State) : Bool :=
  match Tbl.get? s.fl.luns d with
  | some l => !l.excluded && !l.failed && !l.wornOut && (chnOf (dieCh d) s).state == 2
  | none => false

/-- The die can be read: present and neither excluded nor failed. -/
def dieReadable (d : Nat) (s : State) : Bool :=
  match Tbl.get? s.fl.luns d with
  | some l => !l.excluded && !l.failed && (chnOf (dieCh d) s).state == 2
  | none => false

/-- A block is free: Erased or Erase-pending, in no Pen (R179); a quarantined one is free again once its erase has passed (R181). -/
def Bk.free (b : Bk) : Bool := b.role == .free && (b.st == .erased || b.st == .pending) && !b.quar
/-- A block of the Tack Room, of either area (R192). -/
def Role.inTack (r : Role) : Bool := r == .tack || r == .fw

/-- The blocks of a die with an entry. -/
def dieEntries (d : Nat) (s : State) : List Bk := (s.fl.blks.filter (fun p => p.1 / 8192 == d)).map (·.2)
/-- Good blocks of a die outside Pens, spares included. -/
def dieFreeAll (d : Nat) (s : State) : Nat :=
  s.fl.geom.blocksPerLun - ((dieEntries d s).filter (fun b => !b.free)).length
/-- Spares held (R159). -/
def dieSpares (d : Nat) (s : State) : Nat := min (spareTarget s.fl.geom) (dieFreeAll d s)
/-- Free blocks that are not spares. -/
def dieFree (d : Nat) (s : State) : Nat := dieFreeAll d s - spareTarget s.fl.geom
/-- Bad blocks. -/
def dieBad (d : Nat) (s : State) : Nat := ((dieEntries d s).filter (fun b => b.st == .bad)).length

/-- Wear counts of the good blocks of a die with an entry. -/
def dieWears (d : Nat) (s : State) : List Nat := ((dieEntries d s).filter (fun b => b.st != .bad)).map (·.wear)
/-- Largest of a list. -/
def maxL (l : List Nat) : Nat := l.foldl max 0
/-- Smallest of a list, or a default. -/
def minL (d : Nat) (l : List Nat) : Nat := match l with | [] => d | x :: xs => xs.foldl min x
/-- Lowest wear count of a die: 0 while some block has none. -/
def dieWearMin (d : Nat) (s : State) : Nat :=
  if (dieEntries d s).length < s.fl.geom.blocksPerLun then 0 else minL 0 (dieWears d s)
/-- Highest wear count. -/
def dieWearMax (d : Nat) (s : State) : Nat := maxL (dieWears d s)
/-- Sum of the wear counts of the good blocks, and their number. -/
def dieWearSum (d : Nat) (s : State) : Nat × Nat := (sumN (dieWears d s), s.fl.geom.blocksPerLun - dieBad d s)

/-- The free blocks of a die by ascending wear: block and wear count. -/
def freeByWear (d : Nat) (s : State) : List (Nat × Nat) :=
  (((List.range s.fl.geom.blocksPerLun).filter (fun b => (bkOf d b s).free)).map
    (fun b => (b, (bkOf d b s).wear))).insertionSort (fun a b => a.2 ≤ b.2)

/-- The free blocks of a die, split: its spares (R159), and the others by ascending wear. Which blocks are the spares the spec does not
say: the model keeps those between the least worn and the two most worn (DESIGN CHOICE, log 76). -/
def spareSplit (d : Nat) (s : State) : List (Nat × Nat) × List (Nat × Nat) :=
  let f := freeByWear d s
  let n := min (spareTarget s.fl.geom) f.length
  let lo := (f.length - n) - min 2 ((f.length - n) / 2)
  ((f.drop lo).take n, f.take lo ++ f.drop (lo + n))

/-- Refill the low-wear and high-wear lists of a die from the ledger (R179): ten and two free blocks that are no spares. -/
def refillLists (d : Nat) (s : State) : State :=
  let l := (spareSplit d s).2
  updLun d (fun x => { x with low := l.take 10, high := l.reverse.take 2 }) s

/-- Wear counts of a die's good blocks that are not spares (R158). -/
def dieSpreadWears (d : Nat) (s : State) : List Nat :=
  (spareSplit d s).2.map (·.2) ++ ((dieEntries d s).filter (fun b => b.st != .bad && !b.free)).map (·.wear)

/-! ## Rows and Yards -/

/-- Rows that exist (R136). -/
def rows (s : State) : List Nat :=
  (List.range (64 * s.part.sheds)).filter (fun r => decide (r % 64 < s.fl.geom.lunsPerCh))
/-- Dies of a row. -/
def rowAllDies (r : Nat) : List Nat := (List.range 16).map (fun i => dieKey (16 * (r / 64) + i) (r % 64))
/-- Usable dies of a row, ascending channel. -/
def rowDies (r : Nat) (s : State) : List Nat := (rowAllDies r).filter (fun d => dieUsable d s)
/-- The Yard of a row; 0xFF unused. -/
def yardOfRow (r : Nat) (s : State) : Nat := Tbl.getD s.pl.rowYard r 0xFF
/-- A Yard's configuration; one never touched holds the tokens ECC_TOKENS grants it (R211). -/
def yardOf (y : Nat) (s : State) : YardS := Tbl.getD s.pl.yards y { YardS.dflt with tokens := Tbl.getD s.ecc.tokens y 256 }
/-- Change a Yard. -/
def updYard (y : Nat) (g : YardS → YardS) (s : State) : State :=
  { s with pl := { s.pl with yards := Tbl.put s.pl.yards y (g (yardOf y s)) } }
/-- Rows of a Yard. -/
def yardRows (y : Nat) (s : State) : List Nat := (rows s).filter (fun r => yardOfRow r s == y)
/-- Rows of a Yard that form new Pens: not pending (R138). -/
def yardFormRows (y : Nat) (s : State) : List Nat := (yardRows y s).filter (fun r => (Tbl.get? s.pl.pending r).isNone)
/-- Usable dies of a Yard. -/
def yardDies (y : Nat) (s : State) : List Nat := (yardRows y s).flatMap (fun r => rowDies r s)

/-- Pair rows in ascending order (R140). -/
def pairUp : List Nat → List (Nat × Option Nat)
  | a :: b :: t => (a, some b) :: pairUp t
  | [a] => [(a, none)]
  | [] => []

/-- The row pairs of a Yard, by Shed die. A pending row forms no new Pen (R138), so the others are paired among themselves: the spec does
not say how a Yard with a pending row pairs (DESIGN CHOICE, log 77). -/
def yardPairs (y : Nat) (s : State) : List (Nat × Option Nat) :=
  (List.range s.part.sheds).flatMap (fun sh => pairUp ((yardFormRows y s).filter (fun r => r / 64 == sh)))

/-- The row pairs of a Yard with its pending rows, which still hold Pens: those R153's limit counts over. -/
def yardPairsAll (y : Nat) (s : State) : List (Nat × Option Nat) :=
  (List.range s.part.sheds).flatMap (fun sh => pairUp ((yardRows y s).filter (fun r => r / 64 == sh)))

/-- Usable dies of a row pair, in position order (R207). -/
def pairDies (p : Nat × Option Nat) (s : State) : List Nat :=
  rowDies p.1 s ++ (match p.2 with | some b => rowDies b s | none => [])

/-- The dies of a pair that have a free block to give. -/
def pairOpen (p : Nat × Option Nat) (s : State) : List Nat := (pairDies p s).filter (fun d => decide (0 < dieFree d s))

/-! ## Pens -/

/-- A Pen. -/
def penOf? (p : Nat) (s : State) : Option Pen := Tbl.get? s.pl.pens p
/-- Change a Pen. -/
def updPen (p : Nat) (g : Pen → Pen) (s : State) : State := { s with pl := { s.pl with pens := Tbl.upd s.pl.pens p g } }
/-- One-bit Pens: the Paddock's, the flush reserve, the conventional region. -/
def PenKind.oneBit : PenKind → Bool
  | .landing | .flushRes | .conv => true
  | _ => false
/-- Data units of a QLC Pen (R142). -/
def penUnits (p : Pen) (g : Geom) : Nat := wordlines g * (p.mem.length - p.parity)

/-- The live-block table of a Shed die is full (R177). -/
def liveFull (sh : Nat) (s : State) : Bool :=
  decide (16384 ≤ (s.fl.blks.filter (fun p => p.2.hasLive && dieShed (p.1 / 8192) == sh)).length)

/-- Units of a Pen that zones' reservations hold. -/
def penReserved (p : Nat) (s : State) : Nat :=
  sumN (s.zn.zones.map (fun z => sumN ((z.2.runs.filter (fun r => r.1 == p)).map (·.2.2))))

/-- A Pen stands on a row. -/
def Pen.onRow (p : Pen) (r : Nat) : Bool := p.rowA == r || p.rowB == some r

/-- The block that holds a wordline of a Pen's member: the member's own once it is programmed there, until then the failed one it
replaces (R160 step 3, R182). -/
def memBlk (p : Pen) (m wl : Nat) (s : State) : Nat :=
  let e := nth p.mem m (0, 8191, true)
  let b := bkOf e.1 e.2.1 s
  if e.2.1 != 8191 && b.st != .erased && b.st != .pending && (b.st == .full || decide (wl < b.nextWl)) then e.2.1
  else match p.old.find? (fun o => o.1 == e.1 && decide (wl < o.2.2)) with
    | some o => o.2.1
    | none => e.2.1

/-- Take a member block on a die: the head of its low-wear or high-wear list; 8,191 marks a member bound later (R179). -/
def takeBlock (d : Nat) (wear : Bool) (pen : Nat) (s : State) : Nat × State :=
  let l := lunOf d s
  match (if wear then l.high else l.low) with
  | [] => (8191, s)
  | (b, _) :: _ =>
    (b, updBk d b (fun x => { x with role := .pen pen, prechkFailed := false })
          (updLun d (fun x => { x with low := x.low.filter (fun e => e.1 != b), high := x.high.filter (fun e => e.1 != b) }) s))

/-- Take a member block on each of a list of dies. -/
def takeBlocks (pen : Nat) (wear : Bool) : List Nat → State → List (Nat × Nat × Bool) × State
  | [], s => ([], s)
  | d :: ds, s =>
    let r := takeBlock d wear pen s
    let t := takeBlocks pen wear ds r.2
    ((d, r.1, false) :: t.1, t.2)

/-- The 99.9th percentile of a survey's figures (R203). -/
def surveyFig (l : List Nat) : Nat := nth (l.insertionSort (fun a b => a ≤ b)) (ceilDiv (999 * l.length) 1000 - 1) 0
/-- The lowest class whose refresh threshold is at least twice a figure; class 4 where none is (R203). -/
def classFor (n : Nat) (s : State) : Nat :=
  if 2 * n ≤ s.ecc.ref1 then 1 else if 2 * n ≤ s.ecc.ref2 then 2 else if 2 * n ≤ s.ecc.ref3 then 3 else 4
/-- The LDPC class of a new Pen: class 1 in one-bit mode; else from the last pass over the Yard, for the wear bin of its blocks, class 2
where that bin has no measurement (R203). Blocks of several bins: that of the most worn (DESIGN CHOICE, log 82). -/
def penClass (k : PenKind) (y : Nat) (mem : List (Nat × Nat × Bool)) (s : State) : Nat :=
  if k.oneBit then 1
  else
    let w := maxL ((mem.filter (fun m => m.2.1 != 8191)).map (fun m => (bkOf m.1 m.2.1 s).wear))
    match Tbl.get? s.ecc.survey (y * 4 + (Config.wearBin w).val) with
    | some (x :: l) => classFor (surveyFig (x :: l)) s
    | _ => 2

/-- Queue an array operation. -/
def queueOp (ch lun cls : Nat) (k : OpKind) (b wl : Nat) (onebit : Bool) (w : Work) (s : State) : State :=
  let o : AOp := ⟨s.fl.nextOp, ch, lun, cls, k, b, wl, onebit, (bkOf (dieKey ch lun) b s).egen, .queued, 0, 0, s.tm.elapsed, false, false, false, 0, (0, 0, 0, 0), w⟩
  { s with fl := { s.fl with ops := s.fl.ops ++ [o], nextOp := s.fl.nextOp + 1 } }

/-- Queue the erase of a block: its erase-intent record is written first (R155, R184). At most 1,024 intents are open (R154);
past them the intent is written when the erase starts. -/
def queueErase (d b : Nat) (w : Work) (s : State) : State :=
  let s1 := if s.pl.intents.length < 1024 && !s.pl.intents.contains (blkKey d b) then
      { s with pl := { s.pl with intents := s.pl.intents ++ [blkKey d b] } } else s
  queueOp (dieCh d) (dieLun d) 7 .erase b 0 false w s1

/-- Make a new member block ready: an erase-pending block is erased first (R141), and its pre-program check follows that erase; an Erased
one is checked now (R185). -/
def readyBlock (pen : Nat) (s : State) (m : Nat × Nat × Bool) : State :=
  if m.2.1 = 8191 then s
  else if (bkOf m.1 m.2.1 s).st == .pending then
    if s.fl.ops.any (fun o => o.kind == .erase && o.blk == m.2.1 && dieKey o.ch o.lun == m.1) then s
    else queueErase m.1 m.2.1 (.eraseFor pen) s
  else queueOp (dieCh m.1) (dieLun m.1) 5 .read m.2.1 0 true .prechk s

/-- Form a Pen on given dies (R140, R141, R145). -/
def formOn (k : PenKind) (y lcl par : Nat) (pr : Nat × Option Nat) (ds : List Nat) (s : State) : Nat × State :=
  let id := s.pl.nextPen
  let r := takeBlocks id (k == .wear) ds s
  let p : Pen := ⟨k, y, pr.1 / 64, pr.1, pr.2, par, penClass k y r.1 r.2, lcl, r.1, 0, .erased, false, false, [], id, []⟩
  (id, r.1.foldl (readyBlock id) { r.2 with pl := { r.2.pl with pens := Tbl.put r.2.pl.pens id p, nextPen := id + 1 } })

/-- The pairs of a Yard whose dies are enough for a QLC Pen: at least 8 data dies (R140). -/
def widePairs (y : Nat) (s : State) : List (Nat × Option Nat) :=
  (yardPairs y s).filter (fun p => decide (8 + (yardOf y s).parity ≤ (pairDies p s).length))
/-- The pairs of a Yard on which a QLC Pen can form: every usable die has a free block to give, and the live table has room (R140,
R177). -/
def qlcPairs (y : Nat) (s : State) : List (Nat × Option Nat) :=
  (widePairs y s).filter (fun p => (pairDies p s).all (fun d => decide (0 < dieFree d s)) && !liveFull (p.1 / 64) s)

/-- The pairs on which a one-bit Pen can form. -/
def padPairs (y : Nat) (s : State) : List (Nat × Option Nat) :=
  (yardPairs y s).filter (fun p => decide (0 < padD s.fl.geom ∧ padD s.fl.geom ≤ 30) &&
    decide (padD s.fl.geom + 1 ≤ (pairOpen p s).length) && !liveFull (p.1 / 64) s)

/-- The pair with most free blocks: the policy's choice among those that can form (log 12). -/
def bestPair (l : List (Nat × Option Nat)) (s : State) : Option (Nat × Option Nat) :=
  l.foldl (fun o p =>
    match o with
    | none => some p
    | some q => if sumN ((pairDies q s).map (fun d => dieFree d s)) < sumN ((pairDies p s).map (fun d => dieFree d s)) then some p else o) none

/-- Form a QLC Pen in a Yard. -/
def formQlc (k : PenKind) (y lcl : Nat) (s : State) : Option (Nat × State) :=
  (bestPair (qlcPairs y s) s).map (fun p => formOn k y lcl (yardOf y s).parity p (pairDies p s) s)

/-- Form a one-bit Pen in a Yard: d data dies and one XOR parity die (R145). -/
def formPad (k : PenKind) (y : Nat) (s : State) : Option (Nat × State) :=
  (bestPair (padPairs y s) s).map (fun p => formOn k y 0xF 1 p ((pairOpen p s).take (padD s.fl.geom + 1)) s)

/-- Form a one-bit Pen on a Shed die, from any Yard's rows (R146: the flush reserve). Which Yard's the spec leaves open: the lowest-numbered
Yard with a pair that can, and its first such pair (DESIGN CHOICE, log 78). -/
def formPadShed (k : PenKind) (sh : Nat) (s : State) : Option (Nat × State) :=
  let l := ((List.range 64).flatMap (fun y => (padPairs y s).map (fun p => (y, p)))).filter (fun q => q.2.1 / 64 == sh)
  l.head?.map (fun q => formOn k q.1 0xF 1 q.2 ((pairOpen q.2 s).take (padD s.fl.geom + 1)) s)

/-! ## Paddock shares and reservable space (R143, R146, R152) -/

/-- Pens of a kind in a Yard. -/
def pensIn (y : Nat) (k : PenKind) (s : State) : List (Nat × Pen) := s.pl.pens.filter (fun p => p.2.yard == y && p.2.kind == k)

/-- Yards with at least one Paddock Pen's worth of usable rows: one or two rows of one Shed die (R145). -/
def padYards (s : State) : List Nat :=
  (List.range 64).filter (fun y => decide (0 < padD s.fl.geom) && (yardPairs y s).any (fun p => decide (padD s.fl.geom + 1 ≤ (pairDies p s).length)))

/-- The share of a Yard when the Paddock holds P Pens: proportional to usable dies, rounded down, no fewer than 2, Pens left over
one each to the lowest-numbered Yards (R146). -/
def shareAt (p y : Nat) (s : State) : Nat :=
  let ys := padYards s
  if ys.contains y then
    let rest := p - s.part.sheds
    let tot := sumN (ys.map (fun x => (yardDies x s).length))
    let base := fun x => rest * (yardDies x s).length / max 1 tot
    let left := rest - sumN (ys.map base)
    max 2 (base y + (if ((ys.takeWhile (· != y)).length) < left then 1 else 0))
  else 0

/-- A Yard's share of the present Paddock. -/
def yardShare (y : Nat) (s : State) : Nat := shareAt s.pl.p y s
/-- PAD_MAX in Paddock Pens. -/
def padMaxPens (s : State) : Nat := s.img.padMax * 1000000000 / padPenBytes
/-- Free landing Pens of a Yard: its share less the Pens in use. -/
def freeLanding (y : Nat) (s : State) : Nat :=
  yardShare y s - ((pensIn y .landing s).filter (fun p => p.2.st != .erased)).length

/-- Blocks of a Yard outside Pens and spares. -/
def yardFreeBlocks (y : Nat) (s : State) : Nat := sumN ((yardDies y s).map (fun d => dieFree d s))
/-- Blocks set aside for the Paddock at PAD_MAX, beyond those its Pens hold (R146). -/
def setAside (y : Nat) (s : State) : Nat :=
  (shareAt (padMaxPens s) y s - (pensIn y .landing s).length) * (padD s.fl.geom + 1)
/-- The widest Pen of a Yard. -/
def yardWidth (y : Nat) (s : State) : Nat := maxL ((yardPairs y s).map (fun p => (pairDies p s).length))
/-- Relocation headroom: blocks for two Pens of the widest kind (R152). -/
def headroom (y : Nat) (s : State) : Nat := 2 * yardWidth y s
/-- Take blocks off a list of (blocks, width), the first entries first. -/
def lessBlocks : Nat → List (Nat × Nat) → List (Nat × Nat)
  | _, [] => []
  | n, (b, w) :: t => (b - n, w) :: lessBlocks (n - b) t
/-- Blocks of each pair that whole Pens of its width can take: every usable die gives one to each (R140, R143). -/
def pairBlocks (y : Nat) (s : State) : List (Nat × Nat) :=
  (qlcPairs y s).map (fun p =>
    let ds := pairDies p s
    (minL 0 (ds.map (fun d => dieFree d s)) * ds.length, ds.length))
/-- QLC Pens that free blocks can still form for reservations, set-aside and headroom left out, by width: Pens and width (R143, R146,
R152). -/
def formable (y : Nat) (s : State) : List (Nat × Nat) :=
  (lessBlocks (setAside y s + headroom y s) (pairBlocks y s)).map (fun e => (e.1 / max 1 e.2, e.2))
/-- Data units of those Pens. -/
def formUnits (y : Nat) (s : State) : Nat :=
  sumN ((formable y s).map (fun e => e.1 * (wordlines s.fl.geom * (e.2 - (yardOf y s).parity))))
/-- Data units of a Pen of the widest kind. -/
def widePenUnits (y : Nat) (s : State) : Nat := wordlines s.fl.geom * (yardWidth y s - (yardOf y s).parity)
/-- Usable QLC data capacity of a Yard, bytes (R146, R164): its good blocks except spares, the Paddock's set-aside at PAD_MAX, calibration
blocks and the conventional region, at the widths of its pairs. -/
def yardCapacity (y : Nat) (s : State) : Nat :=
  let g := s.fl.geom
  let par := (yardOf y s).parity
  let blks := (widePairs y s).map (fun p =>
    let ds := pairDies p s
    (sumN (ds.map (fun d => g.blocksPerLun - dieBad d s - spareTarget g - ((dieEntries d s).filter (fun b => b.role == .calib)).length)), ds.length))
  let off := shareAt (padMaxPens s) y s * (padD g + 1) + (if y = 0 then s.pl.convPens.length * (padD g + 1) else 0)
  sumN ((lessBlocks off blks).map (fun e => e.1 * (e.2 - par) / max 1 e.2 * (wordlines g * unitBytes g)))
/-- Unreserved units of a Yard's open host Pens. -/
def openUnits (y : Nat) (s : State) : Nat :=
  sumN ((pensIn y .host s).map (fun p => penUnits p.2 s.fl.geom - p.2.next))
/-- Reservable space of a Yard in units (R143). -/
def reservable (y : Nat) (s : State) : Nat := openUnits y s + formUnits y s

/-- Take `n` units for a class in a Yard, from its open host Pen and then from new Pens (R143). Fuel bounds the Pens formed. -/
def takeUnits (y lcl : Nat) : Nat → Nat → State → Option (List (Nat × Nat × Nat) × State)
  | _, 0, s => some ([], s)
  | 0, _ + 1, _ => none
  | fuel + 1, n + 1, s =>
    let openP := (Tbl.get? s.pl.openHost (y * 16 + lcl)).bind (fun id => (penOf? id s).map (fun p => (id, p)))
    match openP with
    | some (id, p) =>
      let room := penUnits p s.fl.geom - p.next
      if room = 0 then
        takeUnits y lcl fuel (n + 1) { s with pl := { s.pl with openHost := Tbl.del s.pl.openHost (y * 16 + lcl) } }
      else
        let k := min room (n + 1)
        let s1 := updPen id (fun p => { p with next := p.next + k }) s
        (takeUnits y lcl fuel (n + 1 - k) s1).map (fun r => ((id, p.next, k) :: r.1, r.2))
    | none =>
      match formQlc .host y lcl s with
      | none => none
      | some (id, s1) =>
        takeUnits y lcl fuel (n + 1) { s1 with pl := { s1.pl with openHost := Tbl.put s1.pl.openHost (y * 16 + lcl) id } }

/-- Make a zone's reservation in a Yard (R107, R143, R144): all of it, or nothing. -/
def reserve (y lcl n : Nat) (s : State) : Option (List (Nat × Nat × Nat) × State) :=
  if reservable y s < n ∨ n = 0 then none else takeUnits y lcl (2 * n + 2) n s

/-- Where unit k of a reservation lies: Pen and unit in it. -/
def unitAt : List (Nat × Nat × Nat) → Nat → Option (Nat × Nat)
  | [], _ => none
  | (p, f, c) :: t, k => if k < c then some (p, f + k) else unitAt t (k - c)

/-- The Pen and unit pairs of a run list, one by one. -/
def runUnits (r : List (Nat × Nat × Nat)) : List (Nat × Nat) := r.flatMap (fun q => (List.range q.2.2).map (fun i => (q.1, q.2.1 + i)))
/-- Runs of a list of units. -/
def toRuns : List (Nat × Nat) → List (Nat × Nat × Nat)
  | [] => []
  | (p, u) :: t =>
    match toRuns t with
    | (p', u', n) :: r => if p = p' ∧ u' = u + 1 then (p, u, n + 1) :: r else (p, u, 1) :: (p', u', n) :: r
    | [] => [(p, u, 1)]

/-- Position of data index i in stripe k of a Pen of width W (R207). -/
def memberPos (W par k i : Nat) : Nat :=
  let pp := (W - 1 + W * k - k) % W
  let qp := (W - 2 + W * k - k) % W
  (((List.range W).filter (fun m => m != pp && (par < 2 || m != qp)))[i]?).getD 0

/-- The positions of a stripe's parity units: the last member of a one-bit Pen, else P and with PARITY 2 also Q, rotating (R207). -/
def parityAt (p : Pen) (k : Nat) : List Nat :=
  let W := p.mem.length
  if p.kind.oneBit then [W - 1]
  else if p.parity = 2 then [(W - 1 + W * k - k) % W, (W - 2 + W * k - k) % W] else [(W - 1 + W * k - k) % W]
/-- A stripe is closed: all its parity units have been programmed (R209). -/
def stripeClosed (p : Pen) (k : Nat) : Bool := (parityAt p k).all (fun m => p.closed.contains (k, m))

/-- The member, wordline of data unit n of a QLC Pen (R142). -/
def unitLoc (p : Pen) (n : Nat) : Nat × Nat :=
  let dd := p.mem.length - p.parity
  let k := if dd = 0 then 0 else n / dd
  (memberPos p.mem.length p.parity k (if dd = 0 then 0 else n % dd), k)

/-- The member and wordline that hold a codeword slot of a Pen: slots of a QLC Pen count 4 KiB codewords unit by unit, those of a
one-bit Pen wordline by wordline across the data dies. -/
def slotLoc (p : Pen) (slot : Nat) (g : Geom) : Nat × Nat :=
  if p.kind.oneBit then
    let j := slot / max 1 (cwPerWl g)
    let d := max 1 (p.mem.length - 1)
    -- the last data die holds only what 192 MiB leaves to it (R145)
    if j < d * padLastWls g then (j % d, j / d)
    else ((j - d * padLastWls g) % max 1 (d - 1), padLastWls g + (j - d * padLastWls g) / max 1 (d - 1))
  else unitLoc p (slot / max 1 (cwPerUnit g))

/-! ## Array operations (R172) -/

/-- Page of its wordline on which a codeword of a unit lies: a unit's pages follow one another, each across the planes (DESIGN CHOICE, log
83). -/
def pageIn (onebit : Bool) (c : Nat) (g : Geom) : Nat := if onebit then 0 else c / max 1 (cwPerWl g)
/-- Queue the read of a page of a wordline. -/
def queueRead (d b cls wl page : Nat) (onebit : Bool) (w : Work) (s : State) : State :=
  let t := queueOp (dieCh d) (dieLun d) cls .read b wl onebit w s
  { t with fl := { t.fl with ops := updWhere (fun o => o.id == s.fl.nextOp) (fun o => { o with page := page }) t.fl.ops } }

/-- Queue a program of a Pen member, or of a bound-later member once bound (R179). -/
def queueProg (d b cls wl : Nat) (onebit : Bool) (w : Work) (s : State) : State :=
  queueOp (dieCh d) (dieLun d) cls .program b wl onebit w s

/-- Operations of a die. -/
def dieOps (d : Nat) (s : State) : List AOp := s.fl.ops.filter (fun o => o.ch == dieCh d && o.lun == dieLun d)
/-- The operation running on a die, suspended or not. -/
def runningOp (d : Nat) (s : State) : Option AOp := (dieOps d s).find? (fun o => o.st != .queued)
/-- The die is busy in an operation that is not suspended. -/
def dieBusy (d : Nat) (s : State) : Bool := (dieOps d s).any (fun o => o.st != .queued && o.st != .suspended)
/-- Remove an operation. -/
def dropOp (id : Nat) (s : State) : State := { s with fl := { s.fl with ops := s.fl.ops.filter (fun o => o.id != id) } }
/-- Change an operation. -/
def updOp (id : Nat) (g : AOp → AOp) (s : State) : State :=
  { s with fl := { s.fl with ops := updWhere (fun o => o.id == id) g s.fl.ops } }

/-- Suspended operations resume once the class-2 queue of their die is empty (R188). -/
def resumeIdle (s : State) : State :=
  let ds := ((s.fl.ops.filter (fun o => o.st == .suspended)).map (fun o => dieKey o.ch o.lun)).filter (fun d => !(dieOps d s).any (fun o => o.cls == 2))
  if ds.isEmpty then s
  else
    let l := updWhere (fun o => o.st == .suspended && ds.contains (dieKey o.ch o.lun)) (fun o => { o with st := .running, since := s.tm.elapsed }) s.fl.ops
    { s with fl := { s.fl with ops := l } }

/-- A failed block whose wordlines have all been copied: a quarantined one is erased in the normal order, one that was still Erased
becoming Erase-pending first (R184); a Bad one stays (R160, R181). -/
def releaseOld (o : Nat × Nat × Nat) (s : State) : State :=
  if (bkOf o.1 o.2.1 s).quar && !(s.fl.ops.any (fun x => x.kind == .erase && x.blk == o.2.1 && dieKey x.ch x.lun == o.1)) then
    queueErase o.1 o.2.1 .background (updBk o.1 o.2.1 (fun b => if b.st = .erased then { b with st := .pending } else b) s) else s

/-- A Pen's members become Erase-pending and leave it, and their erases are queued (R149, R154). -/
def retirePen (id : Nat) (s : State) : State :=
  match penOf? id s with
  | none => s
  | some p =>
    let s1 := p.mem.foldl (fun s m =>
      if m.2.1 = 8191 then s
      else
        let b := bkOf m.1 m.2.1 s
        if b.st == .bad then s
        else if b.st == .erased then updBk m.1 m.2.1 (fun x => { x with role := .free }) s
        else queueErase m.1 m.2.1 (.eraseFor id) (updBk m.1 m.2.1 (fun x => { x with st := if x.quar then x.st else .pending, role := .free }) s)) s
    let zs := (s.zn.stale.filter (fun q => q.2 == id)).map (·.1)
    let bs := (p.mem.filter (fun m => m.2.1 != 8191 && (bkOf m.1 m.2.1 s).st != .erased && (bkOf m.1 m.2.1 s).st != .bad)).map (fun m => blkKey m.1 m.2.1)
    let s1 := p.old.foldl (fun s o => releaseOld o s) s1
    let mine := fun (o : AOp) => o.st == .queued && o.kind != .erase && p.mem.any (fun m => m.1 == dieKey o.ch o.lun && m.2.1 == o.blk) &&
      (match o.work with | .prechk => true | .background => true | .parity _ _ _ => true | .par _ _ => true | _ => false)
    let s1 := { s1 with fl := { s1.fl with ops := s1.fl.ops.filter (fun o => !mine o), rpar := s1.fl.rpar.filter (fun r => r.1 != id) } }
    { s1 with zn := { s1.zn with stale := s1.zn.stale.filter (fun q => q.2 != id),
                                 staleBlks := s1.zn.staleBlks ++ zs.flatMap (fun z => bs.map (fun b => (z, b))) }, pl := { s1.pl with
        pens := Tbl.del s1.pl.pens id,
        openHost := s1.pl.openHost.filter (fun q => q.2 != id), landing := s1.pl.landing.filter (fun q => q.2 != id),
        relocPen := s1.pl.relocPen.filter (fun q => q.2 != id), convPens := s1.pl.convPens.filter (· != id),
        flushRes := s1.pl.flushRes.filter (fun q => q.2 != id) } }

/-- Erase a Pen of the conventional region in place: its members become Erase-pending, their erases are queued, and it is free again
when the last has ended. -/
def recyclePen (id : Nat) (s : State) : State :=
  match penOf? id s with
  | none => s
  | some p =>
    if p.st = .erased then s
    else
      let s1 := p.mem.foldl (fun s m =>
        if m.2.1 = 8191 || (bkOf m.1 m.2.1 s).st == .bad || (bkOf m.1 m.2.1 s).st == .erased then s
        else queueErase m.1 m.2.1 (.eraseFor id) (updBk m.1 m.2.1 (fun x => { x with st := if x.quar then x.st else .pending }) s)) s
      updPen id (fun q => { q with next := 0, refresh := false, st := .dying })
        { s1 with fl := { s1.fl with rpar := s1.fl.rpar.filter (fun r => r.1 != id) } }

/-- Usable QLC capacity of the device in bytes (R146). -/
def usableQlc (s : State) : Nat := sumN ((List.range 64).map (fun y => yardCapacity y s))
/-- Bytes that zones' reservations hold, and the conventional namespace's size (R70, R151). -/
def filledBytes (s : State) : Nat :=
  sumN (s.zn.zones.map (fun z => sumN (z.2.runs.map (·.2.2)))) * unitBytes s.fl.geom
    + (match convNs? s with | some (_, n) => n.nsze * 4096 | none => 0)
/-- The fill f of R70, exactly: its numerator and denominator. With no usable capacity it is 1. -/
def fillOf (s : State) : Nat × Nat := if usableQlc s = 0 then (1, 1) else (filledBytes s, usableQlc s)
/-- Two fills differ by more than 0.05 (R151). -/
def fillMoved (a b : Nat × Nat) : Bool := decide (a.2 * b.2 < 20 * ((a.1 * b.2 - b.1 * a.2) + (b.1 * a.2 - a.1 * b.2)))

/-- P from the fill (R70): whole Paddock Pens between PAD_MIN and PAD_MAX. -/
def paddockSize (f : Nat × Nat) (s : State) : Nat :=
  let p := s.img.padMax * 1000000000 * (f.2 - f.1) / max 1 f.2
  min (max p (s.img.padMin * 1000000000)) (s.img.padMax * 1000000000) / padPenBytes

/-- No Yard can form a QLC Pen, or the flush reserve cannot be formed on some Shed die (R163): the cause, if so (Table 15.8). -/
def sparesCause (s : State) : Option Nat :=
  if !s.fl.geom.ok then some (if s.fl.geom.lunsPerCh = 0 then 0 else 2)
  else if padD s.fl.geom = 0 ∨ 30 < padD s.fl.geom then some 3
  else if (List.range 64).all (fun y => (qlcPairs y s).isEmpty) then some 0
  else if (List.range s.part.sheds).any (fun sh => (Tbl.get? s.pl.flushRes sh).isNone && (formPadShed .flushRes sh s).isNone) then some 1
  else none

/-- Set SPARES_OUT when its condition arises: 0x3003, and the base mode becomes READ_ONLY (R163). -/
def checkSpares (s : State) : State :=
  if s.m.sparesOut then s
  else match sparesCause s with
    | none => s
    | some c => reBase (raise 0x3003 3 [h1 c] { s with m := { s.m with sparesOut := true }, jn := { s.jn with sparesOut := true } })

/-- Re-evaluate SPARES_OUT at a start or at the end of a sanitize: it may clear, with 0x3004 (R163); bit 3 clears with it. -/
def reevalSpares (s : State) : State :=
  match sparesCause s with
  | none =>
    if s.m.sparesOut || s.jn.sparesOut then
      setWarn 3 false (raise 0x3004 1 [] { s with m := { s.m with sparesOut := false }, jn := { s.jn with sparesOut := false } })
    else s
  | some c =>
    if s.m.sparesOut then s
    else raise 0x3003 3 [h1 c] { s with m := { s.m with sparesOut := true }, jn := { s.jn with sparesOut := true } }

end Sys2Proof.Machine
end

