-- ==== Sys2Proof/Machine/Data.lean ====
section
/-! DEFINITION. User data: the store, writes in flight, their placement on the media, durability, Slack charges and what waits
for durable writes (R28, R81 to R90, R118, R147, R233). -/

namespace Sys2Proof.Machine
open Sys2Proof

/-! ## The store -/

/-- The pieces of an owner in flash. -/
def piecesOf (o : Nat) (s : State) : Tbl Piece := Tbl.getD s.zn.store o []
/-- The piece in flash that holds a 2 KiB position. -/
def pieceAt (o pos : Nat) (s : State) : Option (Nat × Piece) :=
  match Tbl.get? (piecesOf o s) pos with
  | some p => some (pos, p)
  | none => if pos = 0 then none
            else match Tbl.get? (piecesOf o s) (pos - 1) with
              | some p => if p.units = 2 then some (pos - 1, p) else none
              | none => none
/-- Store a piece. -/
def putPiece (o pos : Nat) (p : Piece) (s : State) : State :=
  { s with zn := { s.zn with store := Tbl.put s.zn.store o (Tbl.put (piecesOf o s) pos p) } }
/-- Remove every piece of an owner. -/
def dropPieces (o : Nat) (s : State) : State := { s with zn := { s.zn with store := Tbl.del s.zn.store o } }
/-- Change every stored piece of an owner. -/
def mapPieces (o : Nat) (g : Nat → Piece → Piece) (s : State) : State :=
  { s with zn := { s.zn with store := Tbl.upd s.zn.store o (fun t => Tbl.mapV t g) } }

/-- Live pieces of a Pen: (owner, position). A Pen is dead when it has none. -/
def livePieces (p : Nat) (s : State) : List (Nat × Nat) :=
  s.zn.store.flatMap (fun q => (q.2.filter (fun e => e.2.pen == p)).map (fun e => (q.1, e.1)))
/-- The zone has data waiting in the Paddock: pieces in one-bit Pens. -/
def inPaddock (z : Nat) (s : State) : Bool :=
  (piecesOf z s).any (fun e => match penOf? e.2.pen s with | some p => p.kind.oneBit | none => false)

/-! ## The conventional map's words in SRAM (R131, R213 to R215) -/

/-- The map entry of a unit as SRAM holds it (Table 4.8): VALID, HEAT, the Pen's index in the region, SLOT; zero while unmapped. -/
def mapEntry (u : Nat) (s : State) : Nat :=
  match Tbl.get? s.zn.cmap u with
  | some e => 2 ^ 31 + e.heat % 4 * 2 ^ 29 + s.pl.convPens.idxOf e.pen % 32768 * 2 ^ 14 + e.slot % 16384
  | none => 0
/-- Where that entry lies: byte 4u of the map, so the module die of its shard and the 64-bit word within the shard (R131). -/
def mapPlace (u : Nat) : Nat × Nat := (1 + u / 1048576, u % 1048576 / 2)
/-- Key of an SRAM line of a map shard, eight words each, and of a word. -/
def lineKey (die word : Nat) : Nat := die * 131072 + word / 8
def wordKey (die word : Nat) : Nat := die * 1048576 + word
/-- Bits in which a stored word differs from its code word. -/
def flipWeight (die word : Nat) (s : State) : Nat :=
  match Tbl.get? s.ecc.flips (wordKey die word) with
  | some m => ((List.range 64).filter (fun i => bit m.1 i)).length + ((List.range 8).filter (fun i => bit m.2 i)).length
  | none => 0

/-- A corrected word: rewritten, counted, 0x5001 (R214). -/
def sramCorrected (die region word syn : Nat) (s : State) : State :=
  raise 0x5001 0 [h1 die, h1 region, h2 word] { s with ecc := { s.ecc with
    sramCe := satAdd 64 s.ecc.sramCe 1, lastDie := die, lastRegion := region, lastUe := false, lastValid := true,
    lastSyn := syn % 256, lastWord := word % 2 ^ 32, flips := if region = 3 then Tbl.del s.ecc.flips (wordKey die word) else s.ecc.flips } }
/-- Severity of an uncorrectable word by region (Table 7.7). -/
def ueSev (region : Nat) : Nat := if region = 0 ∨ region = 4 then 3 else if region = 1 ∨ region = 5 then 1 else 2
/-- An uncorrectable word: counted, 0x5002 (R214). -/
def sramBroken (die region word syn : Nat) (s : State) : State :=
  raise 0x5002 (ueSev region) [h1 die, h1 region, h2 word] { s with ecc := { s.ecc with
    sramUe := satAdd 32 s.ecc.sramUe 1, lastDie := die, lastRegion := region, lastUe := true, lastValid := true,
    lastSyn := syn % 256, lastWord := word % 2 ^ 32 } }
/-- A table line waits for its rebuild from the journal. -/
def sramRebuild (die region word : Nat) (s : State) : State :=
  if s.ecc.rebuild.contains (die, region, word) then s else { s with ecc := { s.ecc with rebuild := s.ecc.rebuild ++ [(die, region, word)] } }
/-- A word of the map is read: a single-bit error is corrected, two make the line wait for its rebuild; a line whose valid bit is 0 reads as
zeros without a check (R213, R214). The syndrome is the code's, which the spec does not give: a free value. -/
def mapRead (u : Nat) (s : State) : State :=
  let p := mapPlace u
  let n := flipWeight p.1 p.2 s
  if n = 0 || !s.ecc.lines.contains (lineKey p.1 p.2) then s
  else if n = 1 then tick (sramCorrected p.1 3 p.2 (Config.freeNat s.free) s)
  else sramRebuild p.1 3 p.2 (tick (sramBroken p.1 3 p.2 (Config.freeNat s.free) s))
/-- A word is written: the armed SRAM flip mask is stored with it (R215). -/
def sramStore (die region word : Nat) (s : State) : State :=
  if s.ecc.arm && !s.ecc.target && s.ecc.fDie == die && s.ecc.fRegion == region && s.ecc.fAddr == word then
    let m := (s.ecc.fMask, s.ecc.fChk)
    raise 0x5040 0 [h1 0, h1 die] { s with ecc := { s.ecc with
      arm := false, applied := true,
      flips := if region = 3 ∧ m ≠ (0, 0) then Tbl.put s.ecc.flips (wordKey die word) m else s.ecc.flips } }
  else s
/-- A unit's map entry has changed: a write narrower than the word reads, corrects and rewrites it; one to a line whose valid bit is 0 zeroes
the line's other words and sets the bit (R213). -/
def mapWrite (u : Nat) (s : State) : State :=
  let p := mapPlace u
  let l := lineKey p.1 p.2
  let s1 := if s.ecc.lines.contains l then
      let t := mapRead u s
      { t with ecc := { t.ecc with flips := Tbl.del t.ecc.flips (wordKey p.1 p.2) } }
    else { s with ecc := { s.ecc with lines := s.ecc.lines ++ [l], flips := s.ecc.flips.filter (fun e => e.1 / 8 != wordKey p.1 p.2 / 8) } }
  sramStore p.1 3 p.2 s1
/-- Set a unit's map entry. -/
def putMap (u : Nat) (e : CMap) (s : State) : State := mapWrite u { s with zn := { s.zn with cmap := Tbl.put s.zn.cmap u e } }
/-- Unmap a unit. -/
def delMap (u : Nat) (s : State) : State := mapWrite u { s with zn := { s.zn with cmap := Tbl.del s.zn.cmap u } }
/-- The line of a unit's map entry is being rebuilt: commands that touch it wait (R214). -/
def mapWaits (u : Nat) (s : State) : Bool :=
  let p := mapPlace u
  s.ecc.rebuild.any (fun r => r.1 == p.1 && r.2.1 == 3 && r.2.2 / 8 == p.2 / 8)

/-! ## Writes in flight -/

/-- A write in flight. -/
def wrAt (id : Nat) (s : State) : Option Wr := s.zn.wrs.find? (fun w => w.id == id)
/-- Change a write in flight. -/
def updWr (id : Nat) (g : Wr → Wr) (s : State) : State :=
  { s with zn := { s.zn with wrs := updWhere (fun w => w.id == id) g s.zn.wrs } }
/-- Remove a write. -/
def dropWr (id : Nat) (s : State) : State := { s with zn := { s.zn with wrs := s.zn.wrs.filter (fun w => w.id != id) } }
/-- A write covers a 2 KiB position. -/
def Wr.covers (w : Wr) (o pos : Nat) : Bool := w.owner == o && decide (w.pos ≤ pos ∧ pos < w.pos + w.len) && !w.discarded
/-- The bytes a write is charged for (R81): 2,048 for each 2 KiB unit it places in staging. -/
def Wr.charge (w : Wr) : Nat := if w.fuaFlag then 0 else sumN (w.staged.map (fun p => p.2.units * 2048))

/-- Bytes that write staging holds. -/
def stagedBytes (s : State) : Nat :=
  sumN (s.zn.wrs.map (fun w => sumN ((w.staged.filter (fun p => w.left.contains p.1)).map (fun p => p.2.units * 2048))))
/-- Blocks that staging has room for: it is 96 MiB (Table 1.3). The rest of a write's transfer waits (log 75). -/
def stageRoom (s : State) : Nat := (100663296 - stagedBytes s) / 4096

/-- Return charged bytes to the quota or pool they came from (R86): quota first. -/
def returnCharge (id n : Nat) (s : State) : State :=
  match wrAt id s with
  | none => s
  | some w =>
    let a := min n w.chargeQ
    let b := min (n - a) w.chargeP
    updWr id (fun w => { w with chargeQ := w.chargeQ - a, chargeP := w.chargeP - b })
      (noteOver (updSlk w.fn (fun x => { x with useQ := x.useQ - a, useP := x.useP - b })
        { s with slk := { s.slk with poolUse := s.slk.poolUse - b } }))

/-- Post a write's completion, if its context still wants one: `k.dw0` holds DW0, DW1 [15:0] above it, and in bit 48 that the write of
its spill map failed (0h/0x04, R278). The held counters count it when it is
posted, so not in HALTED or EMERGENCY_FLUSH, which post nothing (R84). -/
def postWrite (id : Nat) (wpath : Nat) (isHeld : Bool) (s : State) : State :=
  match wrAt id s with
  | none => s
  | some w =>
    if w.posted || s.m.cur == .halted || s.m.cur == .emergencyFlush then s
    else match s.q.ctxs.find? (fun k => k.wait == .write id) with
      | none => s
      | some k =>
        let s1 := updWr id (fun w => { w with posted := true }) s
        let s2 := postFull { k with wpath := wpath } 0 (if bit k.dw0 48 then 4 else 0) (k.dw0 % 2 ^ 32) (k.dw0 / 2 ^ 32 % 65536) [] s1
        if isHeld then
          updSlk w.fn (fun x => { x with heldCnt := satAdd 64 x.heldCnt 1, heldSince := satAdd 32 x.heldSince 1 })
            { s2 with slk := { s2.slk with heldCnt := satAdd 64 s2.slk.heldCnt 1 } }
        else s2

/-- Opcodes that write: Write, Write Zeroes, Zone Append, Half-hitch Append. -/
def isWriteOpc (o : Nat) : Bool := [0x01, 0x08, 0x7D, 0x8D].contains o

/-- A Flush still covers a write not durable: one of its controller and namespace (every one for 0xFFFF_FFFF), fetched before it,
accepted or not yet, a Half-hitch Append being coded among them (R89). -/
def flushBlocked (k : Ctx) (s : State) : Bool :=
  let mine := fun n => k.cmd.nsid == 0xFFFFFFFF || n == k.cmd.nsid
  s.zn.wrs.any (fun w => w.fn == k.cmd.fn && decide (w.seq < k.seq) && mine w.nsid) ||
    s.q.ctxs.any (fun x => x.cmd.fn == k.cmd.fn && decide (x.seq < k.seq) && (x.wait == .fetched || x.wait == .halfHitch) && x.cmd.sqid != 0 &&
      isWriteOpc x.cmd.opc && mine x.cmd.nsid)

/-- Complete the Flushes whose writes are all durable (R89). -/
def wakeFlushes (s : State) : State :=
  s.q.ctxs.foldl (fun s k => if k.wait == .flush && !flushBlocked k s then ok k s else s) s

/-- A write has become durable: its completion is posted if it was held or FUA, and Flushes that waited for it complete. -/
def wrDurable (id : Nat) (s : State) : State :=
  match wrAt id s with
  | none => s
  | some w =>
    let s1 := match w.dec with
      | .held c => postWrite id c true s
      | .fua => postWrite id 2 false s
      | _ => s
    wakeFlushes (dropWr id (returnCharge id (w.chargeQ + w.chargeP) s1))

/-- The pieces of a conventional unit. -/
def unitPieces (u : Nat) (s : State) : Tbl Piece := (piecesOf convOwner s).filter (fun e => e.1 / 8 == u)
/-- Keep what the last persisted delta held of a conventional unit before it changes: a flush that does not complete returns it (R68). -/
def keepOld (u : Nat) (s : State) : State :=
  if (Tbl.get? s.zn.convOld u).isSome then s
  else { s with zn := { s.zn with convOld := Tbl.put s.zn.convOld u (Tbl.get? s.zn.cmap u, unitPieces u s) } }
/-- The conventional map as it stands is persisted. -/
def dropOld (s : State) : State := { s with zn := { s.zn with convOld := [] } }
/-- A unit returns to its last persisted mapping (R68). -/
def restoreOld (u : Nat) (s : State) : State :=
  match Tbl.get? s.zn.convOld u with
  | none => s
  | some (e, ps) =>
    let t := match e with | some e => putMap u e s | none => delMap u s
    { t with zn := { t.zn with
      store := Tbl.put t.zn.store convOwner (ps.foldl (fun t p => Tbl.put t p.1 p.2) ((piecesOf convOwner t).filter (fun e => e.1 / 8 != u))),
      convOld := Tbl.del t.zn.convOld u } }

/-- A conventional unit's map entry takes its new place, HEAT and all, and the merged rest of the unit lies there too (R131,
R132). Nothing for zones. -/
def convCommit (o pos pen slot : Nat) (s : State) : State :=
  if o ≠ convOwner then s
  else
    let u := pos / 8
    let s1 := mapPieces convOwner (fun q p => if q / 8 = u then { p with pen := pen, slot := slot / 4 * 4 + q % 8 / 2 } else p) s
    match Tbl.get? s.zn.cmap u with
    | some e =>
      if e.pen = pen ∧ e.slot = slot / 4 then s1
      else putMap u ⟨min 3 (e.heat + 1), pen, slot / 4, false⟩ s1
    | none => putMap u ⟨0, pen, slot / 4, false⟩ s1

/-- Take positions of the conventional namespace out of writes in flight that a later command has overtaken: they leave staging, and their
charge returns (R86, R234). -/
def supersedeBy (older : Wr → Bool) (lo hi : Nat) (s : State) : State :=
  (s.zn.wrs.filter (fun w => w.owner == convOwner && older w)).foldl (fun s w =>
    let gone := (w.staged.filter (fun p => decide (lo ≤ p.1 ∧ p.1 < hi) && w.left.contains p.1))
    if gone.isEmpty then s
    else
      let s1 := returnCharge w.id (2048 * sumN (gone.map (fun p => p.2.units))) s
      let s2 := updWr w.id (fun w => { w with staged := w.staged.filter (fun p => !decide (lo ≤ p.1 ∧ p.1 < hi)),
                                              left := w.left.filter (fun p => !decide (lo ≤ p ∧ p < hi)) }) s1
      match wrAt w.id s2 with
      | some w' => if w'.left.isEmpty && w'.dec != .undecided then wrDurable w.id s2 else s2
      | none => s2) s
/-- An earlier write of the fetch order (R234). -/
def Wr.before (w x : Wr) : Bool := decide (x.seq < w.seq) || (x.seq == w.seq && decide (x.id < w.id))
/-- A conventional write overtakes the staged data of earlier ones in its range: once it is acknowledged early, or durable there, the older
bytes leave staging (R86; the moment is DEDUCED, log 33). -/
def overtake (w : Wr) (lo hi : Nat) (s : State) : State := if w.owner = convOwner then supersedeBy w.before lo hi s else s

/-- The Yard of a Pen. -/
def penYard (p : Nat) (s : State) : Nat := match penOf? p s with | some x => x.yard | none => 0
/-- LSEQ of a codeword programmed into a Pen now: the Yard's count of Paddock programs, zero in a QLC Pen (Table 7.2). -/
def lseqIn (p : Nat) (s : State) : Nat :=
  match penOf? p s with
  | some x => if x.kind.oneBit then Tbl.getD s.zn.lseq x.yard 0 else 0
  | none => 0
/-- A Paddock program has ended: the Yard's next one takes the next number, wrapping. -/
def lseqNext (p : Nat) (s : State) : State :=
  let y := penYard p s
  { s with zn := { s.zn with lseq := Tbl.put s.zn.lseq y ((Tbl.getD s.zn.lseq y 0 + 1) % 2 ^ 32) } }

/-- A piece of a write is durable at (Pen, slot): it enters the store and its charge returns (R86, DATA_DURABLE). A piece that a
later write in flight or in the store has overtaken on the conventional namespace is dead already (R234). -/
def pieceDurable (id pos pen slot : Nat) (s : State) : State :=
  match wrAt id s with
  | none => s
  | some w =>
    match w.staged.find? (fun p => p.1 == pos) with
    | none => s
    | some (_, p) =>
      let stale := w.owner == convOwner && (match pieceAt w.owner pos s with | some q => decide (w.id < q.2.wseq) | none => false)
      let s1 := if w.discarded || stale then s else convCommit w.owner pos pen slot (putPiece w.owner pos { p with pen := pen, slot := slot, lseq := lseqIn pen s }
        (if w.owner = convOwner then keepOld (pos / 8) s else s))
      let s2 := returnCharge id (p.units * 2048) (if w.discarded || stale then s1 else overtake w pos (pos + p.units) s1)
      let s3 := updWr id (fun w => { w with left := w.left.filter (· != pos) }) s2
      match wrAt id s3 with
      | some w' => if w'.left.isEmpty && w'.dec != .undecided then wrDurable id s3 else s3
      | none => s3

/-! ## Placing staged data on the media (R147) -/

/-- The landing Pen of a Yard that has room, formed from the Yard's share if need be (R146, R150). -/
def landingPen (y : Nat) (s : State) : Option (Nat × State) :=
  match (Tbl.get? s.pl.landing y).bind (fun id => (penOf? id s).map (fun p => (id, p))) with
  | some (id, p) => if p.next < padSlots s.fl.geom then some (id, s) else fresh { s with pl := { s.pl with landing := Tbl.del s.pl.landing y } }
  | none => fresh s
where
  /-- A new landing Pen, while the share has one free. -/
  fresh (s : State) : Option (Nat × State) :=
    if freeLanding y s = 0 then none
    else (formPad .landing y s).map (fun r => (r.1, { r.2 with pl := { r.2.pl with landing := Tbl.put r.2.pl.landing y r.1 } }))

/-- Catch a member block up: the wordlines below the target that no program waits for are programmed first, for a replaced member as
background copies of what the failed block holds (R160 step 3). -/
def catchUp (d b wl cls : Nat) (onebit : Bool) (s : State) : State :=
  let k := bkOf d b s
  let nxt := if k.hasLive then k.nextWl else 0
  let got := ((dieOps d s).filter (fun o => o.kind == .program && o.blk == b)).map (·.wl)
  (((List.range (wl - nxt)).map (· + nxt)).filter (fun i => !got.contains i)).foldl
    (fun s i => queueProg d b cls i onebit .background s) s

/-- Program one wordline of a one-bit Pen at its next place; after a stripe's last data wordline its parity follows (R209). -/
def landWork (id cls : Nat) (mk : Nat → Work) (s : State) : State :=
  match penOf? id s with
  | none => s
  | some p =>
    let g := s.fl.geom
    let loc := slotLoc p p.next g
    let mem := nth p.mem loc.1 (0, 8191, false)
    let s1 := queueProg mem.1 mem.2.1 cls loc.2 true (mk p.next) (catchUp mem.1 mem.2.1 loc.2 cls true s)
    let nx := p.next + max 1 (cwPerWl g)
    let s2 := updPen id (fun q => { q with next := nx, st := if padSlots g ≤ nx then .full else .filling }) s1
    if padSlots g ≤ nx ∨ (slotLoc p nx g).2 ≠ loc.2 then
      let par := nth p.mem (p.mem.length - 1) (0, 8191, false)
      queueProg par.1 par.2.1 cls loc.2 true (.parity id loc.2 (p.mem.length - 1)) (catchUp par.1 par.2.1 loc.2 cls true s2)
    else s2

/-- Codewords the next wordline of a one-bit Pen takes. -/
def wlRoom (id : Nat) (s : State) : Nat :=
  match penOf? id s with
  | some p => padRoom (p.next / max 1 (cwPerWl s.fl.geom)) s.fl.geom
  | none => 1

/-- Program one wordline of a one-bit Pen with codewords of writes. -/
def landChunk (id : Nat) (ps : List (Nat × Nat)) (cls : Nat) (s : State) : State := landWork id cls (fun n => .land ps id n) s

/-- Land pieces in a Yard, wordline by wordline; what finds no landing space waits, and 0x3041 is written once (R150). -/
def landAll (y : Nat) : Nat → List (Nat × Nat) → State → State
  | _, [], s => s
  | 0, ps, s => { s with pl := { s.pl with waiting := s.pl.waiting ++ ps } }
  | fuel + 1, ps, s =>
    match landingPen y s with
    | none =>
      let s1 := if (yardOf y s).noLanding then s else raise 0x3041 1 [h1 y] (updYard y (fun x => { x with noLanding := true }) s)
      { s1 with pl := { s1.pl with waiting := s1.pl.waiting ++ ps } }
    | some (id, s1) =>
      let n := wlRoom id s1
      landAll y fuel (ps.drop n) (landChunk id (ps.take n) 3 s1)

/-- Units of a zone whose programs are queued or running. -/
def unitsQueued (z : Nat) (s : State) : List Nat :=
  s.fl.ops.filterMap (fun o => match o.work with | .unit q k _ _ => if q == z then some k else none | _ => none)
/-- The first of up to n units from k on that is not in a list. -/
def firstFree (l : List Nat) : Nat → Nat → Nat
  | 0, k => k
  | n + 1, k => if l.contains k then firstFree l n (k + 1) else k
/-- The zone's next unit: the lowest that is neither programmed nor queued (R142, R147, R148). -/
def nextUnit (z : Nat) (zn : Zone) (s : State) : Nat :=
  let l := zn.ahead ++ unitsQueued z s
  firstFree l l.length zn.folded
/-- One past the highest unit programmed or queued. -/
def unitsTaken (z : Nat) (zn : Zone) (s : State) : Nat := (zn.ahead ++ unitsQueued z s).foldl (fun a k => max a (k + 1)) zn.folded
/-- Unit u of a zone has been programmed. -/
def Zone.unitDone (u : Nat) (q : Zone) : Zone :=
  let l := if u < q.folded ∨ q.ahead.contains u then q.ahead else q.ahead ++ [u]
  let f := firstFree l l.length q.folded
  { q with folded := f, ahead := l.filter (fun k => decide (f ≤ k)) }

/-- The first unit of a reservation in a Pen that is not yet programmed or queued; `t`: the units taken. -/
def firstUntaken (pid : Nat) : List (Nat × Nat × Nat) → Nat → Option Nat
  | [], _ => none
  | (p, f, c) :: r, t =>
    if t < c then (if p = pid then some (f + t) else firstUntaken pid r 0) else firstUntaken pid r (t - c)

/-- The units of a Pen are programmed in ascending order: a unit waits, its data in the Paddock, while another zone's reservation holds
a lower one not yet programmed. The spec is silent on Pens that zones share (DESIGN CHOICE, log 17). -/
def unitTurn (z k : Nat) (zn : Zone) (s : State) : Bool :=
  match unitAt zn.runs k with
  | none => false
  | some (pid, n) => s.zn.zones.all (fun q => q.1 == z || (match firstUntaken pid q.2.runs (unitsTaken q.1 q.2 s) with
      | some m => decide (n < m) | none => true))

/-- The parity of a stripe follows its last data unit (R209). -/
def stripeParity (pid : Nat) (p : Pen) (n cls : Nat) (s : State) : State :=
  let dd := p.mem.length - p.parity
  if dd ≠ 0 ∧ (n + 1) % dd = 0 then
    let k := (unitLoc p n).2
    (parityAt p k).foldl (fun s m =>
      let e := nth p.mem m (0, 8191, false)
      queueProg e.1 e.2.1 cls k false (.parity pid k m) (catchUp e.1 e.2.1 k cls false s)) s
  else s

/-- Queue the program of a zone's unit k from staging or the Paddock, at its place in the reservation (R143, R147, R148); the
stripe's parity follows its last data unit (R209). -/
def queueUnit (z k : Nat) (isFold : Bool) (s : State) : State :=
  match zoneAt? z s with
  | none => s
  | some zn =>
    match unitAt zn.runs k with
    | none => s
    | some (pid, n) =>
      match penOf? pid s with
      | none => s
      | some p =>
        let loc := unitLoc p n
        let mem := nth p.mem loc.1 (0, 8191, false)
        let cls := if isFold then 6 else 3
        let s1 := queueProg mem.1 mem.2.1 cls loc.2 false (.unit z k pid isFold) (catchUp mem.1 mem.2.1 loc.2 cls false s)
        stripeParity pid p n cls s1

/-- Positions (2 KiB units) of one program unit. -/
def unitPos (g : Geom) : Nat := unitBytes g / 2048

/-- Where a piece of a write waits: still in staging alone, and not in a program that has started. -/
def inStaging (id pos : Nat) (s : State) : Bool :=
  !(s.fl.ops.any (fun o => match o.work with | .land ps _ _ => o.st != .queued && ps.contains (id, pos) | _ => false))
/-- The staged pieces that fill unit k of a zone, of one write or several, all decided and in staging; none while a position is missing
(R147). -/
def stagedUnit (z k : Nat) (s : State) : Option (List (Nat × Nat)) :=
  let U := unitPos s.fl.geom
  let es := s.zn.wrs.flatMap (fun w =>
    if w.owner == z && w.ready && !w.discarded && (match w.dec with | .undecided => false | .failed => false | _ => true) then
      (w.staged.filter (fun p => w.left.contains p.1 && decide (p.1 / max 1 U = k))).map (fun p => (w.id, p.1, p.2.units)) else [])
  if U ≠ 0 ∧ sumN (es.map (·.2.2)) = U ∧ es.all (fun e => inStaging e.1 e.2.1 s) then some (es.map (fun e => (e.1, e.2.1))) else none
/-- Take pieces out of queued landings and of what waits for landing space: a whole unit takes them to QLC. -/
def withdraw (ps : List (Nat × Nat)) (s : State) : State :=
  { s with
    pl := { s.pl with waiting := s.pl.waiting.filter (fun q => !ps.contains q) },
    fl := { s.fl with ops := s.fl.ops.map (fun o => match o.work with
      | .land qs p n => if o.st == .queued then { o with work := .land (qs.map (fun q => if ps.contains q then (0, 0) else q)) p n } else o
      | _ => o) } }
/-- Data of the zone waits in the Paddock: programmed there, or in a landing program that has started (R147). -/
def landingNow (z : Nat) (s : State) : Bool :=
  inPaddock z s || s.fl.ops.any (fun o => o.st != .queued && (match o.work with
    | .land ps _ _ => ps.any (fun q => match wrAt q.1 s with | some w => w.owner == z | none => false)
    | _ => false))

/-- Send whole units of a zone's staged data directly to QLC, as many as R147 allows. -/
def directUnits (z : Nat) : Nat → State → State
  | 0, s => s
  | fuel + 1, s =>
    match zoneAt? z s with
    | some zn =>
      let k := nextUnit z zn s
      match (if s.m.thm = 0 ∧ !landingNow z s ∧ unitTurn z k zn s then stagedUnit z k s else none) with
      | some ps => directUnits z fuel (queueUnit z k false (withdraw ps s))
      | none => s
    | none => s

/-- The positions of a write that no direct unit takes. -/
def notDirect (w : Wr) (s : State) : List Nat :=
  let U := unitPos s.fl.geom
  let ks := s.fl.ops.filterMap (fun o => match o.work with | .unit z k _ false => if z == w.owner then some k else none | _ => none)
  (w.staged.map (·.1)).filter (fun p => w.left.contains p && !(U ≠ 0 && ks.contains (p / U)))

/-- Drop queued programs of parity for stripes whose last data unit is not to be programmed now. -/
def dropParity (pid stripe : Nat) (s : State) : State :=
  { s with fl := { s.fl with ops := s.fl.ops.filter (fun o => !(o.st == .queued && (match o.work with | .parity p k _ => p == pid && k == stripe | _ => false))) } }
/-- Drop the queued programs of units that a test picks, and the parity that followed a stripe's last one. -/
def dropUnits (pick : AOp → Bool) (s : State) : State :=
  let gone := s.fl.ops.filter (fun o => o.st == .queued && pick o)
  gone.foldl (fun s o => match o.work with
    | .unit z u pid _ => (match (zoneAt? z s).bind (fun q => unitAt q.runs u), penOf? pid s with
      | some (_, n), some p => if (n + 1) % max 1 (p.mem.length - p.parity) = 0 then dropParity pid (unitLoc p n).2 s else s
      | _, _ => s)
    | _ => s) { s with fl := { s.fl with ops := s.fl.ops.filter (fun o => !(o.st == .queued && pick o)) } }
/-- The queued direct programs of QLC units wait no longer when such programs stop: their data goes to the Paddock (R93, R150). -/
def divertDirect (s : State) : State :=
  let zs := (s.fl.ops.filterMap (fun o => match o.work with | .unit z k _ false => if o.st == .queued then some (z, k) else none | _ => none))
  let s1 := dropUnits (fun o => match o.work with | .unit _ _ _ false => true | _ => false) s
  let U := unitPos s.fl.geom
  zs.foldl (fun s e =>
    let ps := s.zn.wrs.flatMap (fun w => if w.owner = e.1 ∧ !w.discarded then (w.left.filter (fun p => U != 0 && p / U == e.2)).map (fun p => (w.id, p)) else [])
    landAll (match zoneAt? e.1 s with | some q => q.yard | none => 0) (ps.length + 1) ps s) s1

/-! ### The conventional region (R131, R132) -/

/-- HEAT of a unit after a write to it (R132). -/
def heatAfter (u : Nat) (s : State) : Nat :=
  match Tbl.get? s.zn.cmap u with
  | some e => min 3 (e.heat + 1)
  | none => 0

/-- Pens of the conventional region that are erased and free (R133). -/
def convFree (s : State) : Nat :=
  (s.pl.convPens.filter (fun p => match penOf? p s with | some x => x.st == .erased | none => false)).length

/-- The hot or cold Pen of the region that has room (R132); the other one while the region has no erased Pen left (log 19). -/
def convPen (hot : Bool) (s : State) : Option (Nat × State) :=
  let cur := if hot then s.pl.convHot else s.pl.convCold
  match penOf? cur s with
  | some p => if p.next < padSlots s.fl.geom then some (cur, s) else pick s
  | none => pick s
where
  /-- The first erased Pen of the region becomes the hot or cold Pen. -/
  pick (s : State) : Option (Nat × State) :=
    (s.pl.convPens.find? (fun p => p != s.pl.convHot && p != s.pl.convCold &&
        (match penOf? p s with | some x => x.st == .erased | none => false))).map
      (fun p => (p, { s with pl := if hot then { s.pl with convHot := p } else { s.pl with convCold := p } }))
    |>.orElse (fun _ => let q := if hot then s.pl.convCold else s.pl.convHot
      match penOf? q s with
      | some p => if p.next < padSlots s.fl.geom then some (q, s) else none
      | none => none)

/-- Program units of one temperature, as many a wordline as fit. -/
def landUnits (hot : Bool) : Nat → List (Nat × List (Nat × Nat)) → State → State
  | _, [], s => s
  | 0, us, s => { s with pl := { s.pl with waiting := s.pl.waiting ++ us.flatMap (·.2) } }
  | fuel + 1, us, s =>
    match convPen hot s with
    | none => { s with pl := { s.pl with waiting := s.pl.waiting ++ us.flatMap (·.2) } }
    | some (id, s1) =>
      let n := max 1 (wlRoom id s1 / 4)
      landUnits hot fuel (us.drop n) (landChunk id ((us.take n).flatMap (·.2)) 3 s1)

/-- Place pieces of the conventional namespace: whole units out of place, hot or cold by their HEAT (R132). -/
def landConv (ps : List (Nat × Nat)) (s : State) : State :=
  let us := (ps.map (fun p => p.2 / 8)).dedup
  let g := us.map (fun u => (u, ps.filter (fun p => p.2 / 8 == u)))
  let hot := g.filter (fun x => decide (2 ≤ heatAfter x.1 s))
  let cold := g.filter (fun x => decide (heatAfter x.1 s < 2))
  landUnits false (cold.length + 1) cold (landUnits true (hot.length + 1) hot s)

/-- Place a wholly staged write (R28 step 12, R147). -/
def placeWrite (id : Nat) (s : State) : State :=
  match wrAt id s with
  | none => s
  | some w =>
    if w.owner = convOwner then landConv (w.left.map (fun p => (id, p))) s
    else
      let s1 := directUnits w.owner (w.len + 1) s
      let ps := (notDirect w s1).map (fun p => (id, p))
      landAll w.yard (ps.length + 1) ps s1

/-- Place the pieces that waited for landing space in a Yard (R150). -/
def placeWaiting (y : Nat) (s : State) : State :=
  let mine := s.pl.waiting.filter (fun q => match wrAt q.1 s with | some w => w.yard == y | none => false)
  let rest := s.pl.waiting.filter (fun q => match wrAt q.1 s with | some w => w.yard != y | none => false)
  let conv := mine.filter (fun q => match wrAt q.1 s with | some w => w.owner == convOwner | none => false)
  let zs := mine.filter (fun q => match wrAt q.1 s with | some w => w.owner != convOwner | none => false)
  landConv conv (landAll y (zs.length + 1) zs { s with pl := { s.pl with waiting := rest } })

/-! ## Pens at work -/

/-- A program of a Pen is still to come. -/
def penPending (p : Nat) (s : State) : Bool :=
  s.fl.ops.any (fun o => match o.work with
    | .unit _ _ q _ => q == p | .land _ q _ => q == p | .parity q _ _ => q == p | _ => false)
/-- A Pen takes part in a running move. -/
def penMoving (p : Nat) (s : State) : Bool := s.pl.moves.any (fun m => m.src == p || m.items.any (fun i => i.pen == p))
/-- Retire the Paddock Pens of a Yard that hold no live data, once their programs have ended (R149). -/
def retireDead (y : Nat) (s : State) : State :=
  ((pensIn y .landing s).filter (fun p => p.2.st == .full && (livePieces p.1 s).isEmpty && !penPending p.1 s && !penMoving p.1 s)).foldl
    (fun s p => retirePen p.1 s) s

/-! ## Rows that move, units that are lost (R138, R161) -/

/-- A row holds live data or a reservation. -/
def rowHeld (r : Nat) (s : State) : Bool :=
  s.pl.pens.any (fun p => p.2.onRow r && (decide (0 < penReserved p.1 s) || !(livePieces p.1 s).isEmpty ||
    (p.2.kind == .conv && p.2.st != .erased)))

/-- An erased Pen of the conventional region gives way to a fresh one on Yard 0's other rows (R138). -/
def freshConv (src : Nat) (s : State) : State :=
  match formPad .conv 0 s with
  | none => s
  | some (id, t) => { t with pl := { t.pl with convPens := t.pl.convPens.map (fun p => if p = src then id else p) } }

/-- A row leaves for its new Yard: Pens left on it hold nothing and are dissolved; the region's keep their number. -/
def moveRow (r y : Nat) (s : State) : State :=
  let s0 := { s with pl := { s.pl with
      rowYard := if y = 0xFF then Tbl.del s.pl.rowYard r else Tbl.put s.pl.rowYard r y, pending := Tbl.del s.pl.pending r } }
  let ps := s.pl.pens.filter (fun p => p.2.onRow r && p.2.kind != .flushRes)
  ps.foldl (fun s p => retirePen p.1 (if p.2.kind == .conv then freshConv p.1 s else s)) s0

/-- Pending rows from which the last live unit has gone join their new Yards: 0x3013 (R138). -/
def settleRows (s : State) : State :=
  s.pl.pending.foldl (fun s p =>
    if rowHeld p.1 s then s
    else raise 0x3013 0 [h1 p.1, h1 (yardOfRow p.1 s), h1 p.2] (moveRow p.1 p.2 s)) s

/-- A data unit of a Pen can no longer be programmed: its member is lost (R161), or its wordline lies below the member's NEXT_WL, as RECOVERY
may advance it (R186). -/
def unitGone (p : Pen) (n : Nat) (s : State) : Bool :=
  let l := unitLoc p n
  let m := nth p.mem l.1 (0, 8191, true)
  let b := bkOf m.1 m.2.1 s
  m.2.2 || (m.2.1 != 8191 && (b.st == .openB || b.st == .full) && decide (l.2 < b.nextWl))
/-- A zone's reservation without its unwritten units of a Pen that can no longer be programmed (R161, R186). A lost one below units already
programmed or queued is replaced by the reservation's last. -/
def Zone.loseUnits (z pid : Nat) (p : Pen) (s : State) (q : Zone) : Zone :=
  let us := runUnits q.runs
  if !(us.any (fun u => u.1 == pid)) then q
  else
    let top := unitsTaken z q s
    let l := q.ahead ++ unitsQueued z s
    let lost := fun (k : Nat) (u : Nat × Nat) => u.1 == pid && decide (q.folded ≤ k) && !l.contains k && unitGone p u.2 s
    let kept := (us.zipIdx.filter (fun e => decide (e.2 < top) || !lost e.2 e.1)).map (·.1)
    let holes := (List.range top).filter (fun i => match us[i]? with | some u => lost i u | none => false)
    { q with runs := toRuns (holes.foldl (fun us i => match us.getLast? with
      | some u => if top < us.length then (setNth us i u).dropLast else us
      | none => us) kept) }
/-- Units reserved and not yet written on the lost members of a Pen are lost to their reservations (R161). -/
def loseUnits (pid : Nat) (s : State) : State :=
  match penOf? pid s with
  | none => s
  | some p => if p.kind.oneBit then s else { s with zn := { s.zn with zones := Tbl.mapV s.zn.zones (fun z q => Zone.loseUnits z pid p s q) } }

/-! ## The decision (R83 to R85) -/

/-- A write at a lower position of the same zone is still undecided, or was held (R85). -/
def lowerUndecided (w : Wr) (s : State) : Bool :=
  w.owner != convOwner && s.zn.wrs.any (fun x => x.owner == w.owner && decide (x.id < w.id) && x.dec == .undecided && !x.discarded)
/-- A lower write of the zone is held, or FUA and not durable. -/
def lowerHeld (w : Wr) (s : State) : Bool :=
  w.owner != convOwner && s.zn.wrs.any (fun x => x.owner == w.owner && decide (x.id < w.id) && !x.discarded &&
    (match x.dec with | .held _ => true | .fua => true | _ => false))

/-- What the decision on a write is (R83); the WPATH code of a hold follows Table 8.15. -/
def decision (w : Wr) (s : State) : WDec :=
  let a := slkOf w.fn s
  let qFree := a.effKiB * 1024 - a.useQ
  let pFree := poolKiB s * 1024 - s.slk.poolUse
  if holdAll s then .held 3
  else if !(fnOf w.fn s).feats.wce then .held 4
  else if lowerHeld w s then .held 5
  else if w.charge ≤ qFree + pFree then .early
  else .held 6

/-- Take the decision on one write and start its placement. -/
def decideOne (id : Nat) (s : State) : State :=
  match wrAt id s with
  | none => s
  | some w =>
    if w.dec != .undecided || !w.ready || lowerUndecided w s then s
    else match decision w s with
      | .early =>
        let a := slkOf w.fn s
        let q := min w.charge (a.effKiB * 1024 - a.useQ)
        let p := w.charge - q
        let s1 := updSlk w.fn (fun x => { x with useQ := x.useQ + q, useP := x.useP + p, holding := false,
                                                 earlyCnt := satAdd 64 x.earlyCnt 1 })
          { s with slk := { s.slk with poolUse := s.slk.poolUse + p, earlyCnt := satAdd 64 s.slk.earlyCnt 1 } }
        placeWrite id (overtake w w.pos (w.pos + w.len) (postWrite id 1 false (updWr id (fun w => { w with dec := .early, chargeQ := q, chargeP := p }) s1)))
      | .held 6 =>
        let a := slkOf w.fn s
        let rec_ := !a.holding || decide (s.tm.elapsed ≤ a.lastHold + 1000)
        let s1 := if rec_ then raise 0x2020 1 [h1 w.fn] s else s
        placeWrite id (updWr id (fun w => { w with dec := .held 6 })
          (updSlk w.fn (fun x => { x with holding := true, lastHold := if rec_ then s.tm.elapsed else x.lastHold }) s1))
      | d => placeWrite id (updWr id (fun w => { w with dec := d }) s)

/-- Decide every write that may be decided, in order of acceptance. None is decided once admission has stopped (Table 3.3, R36). -/
def decideAll (s : State) : State :=
  if s.m.cur == .emergencyFlush || s.m.cur == .halted || s.m.drain != .none then s
  else (s.zn.wrs.map (·.id)).foldl (fun s id => decideOne id s) s

/-- Mark a write's staged pieces as holding no valid data (R118). -/
def Wr.asUnread (w : Wr) : Wr :=
  { w with staged := ((List.range ((w.len + 1) / 2)).map (fun i => (w.pos + 2 * i, ⟨min 2 (w.len - 2 * i), [], [], true, false, 0, 0, 0, w.id, 0⟩))),
           left := (List.range ((w.len + 1) / 2)).map (fun i => w.pos + 2 * i), ready := true, dec := .failed, chargeQ := 0, chargeP := 0 }

/-- An accepted write fails: its range stays written and unreadable, 0x3031 is written, and it counts as decided (R118, R85). -/
def failWrite (id : Nat) (s : State) : State :=
  match wrAt id s with
  | none => s
  | some w =>
    let s1 := returnCharge id (w.chargeQ + w.chargeP) s
    let s2 := raise 0x3031 2 [h1 w.nsid,
      h4 ((match zoneAt? w.owner s with | some z => z.idx * 2 ^ 20 | none => 0) + w.pos / 2), h2 (ceilDiv w.len 2)] s1
    let s3 := updZone w.owner (fun z => { z with unread := true }) s2
    decideAll (placeWrite id (updWr id Wr.asUnread s3))

/-- Discard a write whose range is no longer wanted: a Reset (R121), a sanitize, a reset while partly staged (R90). -/
def discardWrite (id : Nat) (s : State) : State :=
  match wrAt id s with
  | none => s
  | some w =>
    let s1 := returnCharge id (w.chargeQ + w.chargeP) s
    dropWr id { s1 with pl := { s1.pl with waiting := s1.pl.waiting.filter (fun q => q.1 != id) } }

/-- The lowest position of a write whose data has not reached the media; none if all of it has. -/
def Wr.firstLost (w : Wr) : Option Nat :=
  let staged := sumN (w.staged.map (fun p => p.2.units))
  match w.left ++ (if staged < w.len then [w.pos + staged] else []) with
  | [] => none
  | x :: xs => some (xs.foldl min x)

/-- A zone's write pointer falls back to a position: what lay above it is gone, and a Full zone becomes Closed, counted against the
function that last activated it (R68). -/
def cutZone (z wp : Nat) (s : State) : State :=
  match zoneAt? z s with
  | none => s
  | some q =>
    if q.wp ≤ wp ∨ q.st = .offline then s
    else
      let s1 := { s with zn := { s.zn with store := Tbl.upd s.zn.store z (fun t => t.filter (fun e => decide (e.1 < wp))) } }
      updZone z (fun q => { q with
        wp := wp, st := if q.st = .full then .closed else q.st, actFn := if q.st = .full then q.lastFn else q.actFn,
        tags := q.tags.filter (fun t => decide (32 * (t.1 + 1) ≤ wp)), folded := min q.folded (wp / max 1 (unitPos s.fl.geom)), ahead := [] }) s1

/-- A write whose staged data is lost: its zone falls back to where the media end. A failed write's range stays marked as holding no
valid data (R118). -/
def cutWrite (w : Wr) (s : State) : State :=
  if w.discarded ∨ w.owner = convOwner then s
  else if w.dec = .failed then
    (w.staged.filter (fun p => w.left.contains p.1)).foldl (fun s p => putPiece w.owner p.1 p.2 s) s
  else match w.firstLost with
    | none => s
    | some p => cutZone w.owner p s

/-- Every write in flight loses what has not reached the media. -/
def cutAll (s : State) : State :=
  let t := s.zn.wrs.foldl (fun s w => cutWrite w s) s
  { t with zn := { t.zn with wrs := [] } }

/-- The present content of a 2 KiB position: the last write fetched in flight, else the store (R233). The Bool says it came from
staging. A covering write not yet staged there answers `none` under `some`; one staged whole without the position has had it unmapped
(R134). -/
def contentAt (o pos : Nat) (fromFlash : Bool) (s : State) : Option (Option (Nat × Piece × Bool)) :=
  let ws := if fromFlash then [] else s.zn.wrs.filter (fun w => w.covers o pos)
  match ws.foldl (fun (a : Option Wr) w => match a with | none => some w | some b => if b.seq < w.seq ∨ (b.seq = w.seq ∧ b.id < w.id) then some w else some b) none with
  | some w =>
    match w.staged.find? (fun p => decide (p.1 ≤ pos ∧ pos < p.1 + p.2.units)) with
    | some (q, p) => some (some (q, p, true))
    | none => if w.ready then (pieceAt o pos s).map (fun p => some (p.1, p.2, false)) else some none
  | none => (pieceAt o pos s).map (fun p => some (p.1, p.2, false))

end Sys2Proof.Machine
end

