-- ==== Sys2Proof/Machine/CadOps.lean ====
section
/-! DEFINITION. Yard time and busy turns as every chapter uses them: turns, schedules, breaks, token levels (R339 to R360). -/

namespace Sys2Proof.Machine
open Sys2Proof

/-! ## Roles -/

/-- VER_SUPP (Table 13.6): min(PROTO_MAX, TXS_VERS.CAD_PROTO_MAX = 2). -/
def verSupp (s : State) : Nat := min s.img.protoMax 2
/-- A root with ENABLE = 1 (Table 13.1). -/
def isRoot (s : State) : Bool := s.img.cadEnable && s.img.cadRoot
/-- The device receives a beat: a leaf or a hub, not in TEST (Table 13.1, R444). -/
def listens (s : State) : Bool := s.img.cadEnable && !s.img.cadRoot && s.m.cur != .test

/-! ## Busy turns (R355, R356) -/

/-- Absent from the fleet (R365). -/
def absentNow (s : State) : Bool := s.m.cur == .fwActivate || s.cad.absent
/-- A turn's bit in a schedule (R355). -/
def schedBit (l : List Byte) (t : Nat) : Bool := (nth l (t / 8) 0).getLsbD (t % 8)
/-- Busy turns of a schedule: bits 1,000 … 1,023 are ignored. -/
def busyTurns (l : List Byte) : Nat := ((List.range 1000).filter (schedBit l)).length
/-- An ALL_QUIET is in force (R341). -/
def allQuiet (s : State) : Bool := decide (0 < s.cad.quiet)
/-- Turn t would be busy as things stand (R355). -/
def busyAt (t : Nat) (s : State) : Bool := schedBit s.cad.sched t && !allQuiet s && !absentNow s
/-- The present turn is busy. -/
def busyTurn (s : State) : Bool := busyAt s.tm.turn s
/-- A schedule other than the factory's is in force (CAD_SCHED_STAT.LOADED). -/
def schedLoaded (s : State) : Bool := s.cad.loaded
/-- The schedule that the next epoch boundary leaves in force (R357). -/
def schedAfter (s : State) : List Byte :=
  match s.cad.pendSched with
  | some (l, e) => if e ≤ s.cad.epochReq.getD (s.tm.epoch + 1) then l else s.cad.sched
  | none => s.cad.sched
/-- The schedule's bit of the turn that follows turn i, counted from the present epoch's turn 0. -/
def schedBitAt (i : Nat) (s : State) : Bool := if i < 1000 then schedBit s.cad.sched i else schedBit (schedAfter s) (i % 1000)
/-- ALL_QUIET covers the next turn, as things stand (R341). -/
def quietSoon (s : State) : Nat := match s.cad.quietNext with | some n => n | none => s.cad.quiet - 1
/-- Turns from turn i on that are busy without a gap. -/
def busyRun : Nat → Nat → State → Nat
  | 0, _, _ => 0
  | n + 1, i, s => if schedBitAt i s then 1 + busyRun n (i + 1) s else 0
/-- Microseconds to the end of the last of the consecutive busy turns that contain this moment (R356). -/
def busyLeft (s : State) : Nat :=
  if busyTurn s then 1000 - s.tm.us + (if quietSoon s = 0 then 1000 * busyRun 1000 (s.tm.turn + 1) s else 0) else 0
/-- A break is in force. -/
def breaking (s : State) : Bool := !s.cad.brks.isEmpty
/-- The device does background work at all: not in state 4, in state 3 with NOPPME only, not during FW_ACTIVATE but for a break
(R356, R384). -/
def bgAllowed (s : State) : Bool :=
  (decide (s.pw.ps < 3) || (s.pw.ps == 3 && s.q.fns.any (fun p => p.2.en && p.2.feats.noppme))) &&
    (s.m.cur != .fwActivate || breaking s)
/-- A background operation of a typical time may start now (R356). -/
def bgFits (typ : Nat) (s : State) : Bool := bgAllowed s && (breaking s || (busyTurn s && decide (typ ≤ busyLeft s)))
/-- Background work may run in this turn at all. -/
def bgTurn (s : State) : Bool := bgAllowed s && (breaking s || busyTurn s)

/-! ## Breaks (R359) -/

/-- Report a break: record 0xA030 once, the Yard's BREAKS, and the flag of the next STATUS answer. -/
def reportBreak (cause : Nat) (y : Option Nat) (s : State) : State :=
  if s.cad.brks.any (fun b => b.cause == cause && b.yard == y) then s
  else
    let s1 := raise 0xA030 1 [h1 cause, h2 0] { s with cad := { s.cad with brks := s.cad.brks ++ [⟨cause, y, 0⟩], brkFlag := true } }
    match y with
    | some y => updYard y (fun x => { x with breaks := satAdd 32 x.breaks 1 }) s1
    | none => s1

/-- A break ends: record 0xA030 again, with the turns broken. -/
def endBreak (cause : Nat) (y : Option Nat) (s : State) : State :=
  match s.cad.brks.find? (fun b => b.cause == cause && b.yard == y) with
  | some b => raise 0xA030 1 [h1 cause, h2 b.turns] { s with cad := { s.cad with brks := s.cad.brks.erase b } }
  | none => s

/-! ## Breaks that landing space brings (Table 5.2, R94) -/

/-- PAD_LOW of a Yard: set below ceil(share / 8) free landing Pens, with 0x3044 and the break; clear at ceil(share / 4). -/
def padWatch (y : Nat) (s : State) : State :=
  let sh := yardShare y s
  let f := freeLanding y s
  if !(yardOf y s).padLow && decide (f < ceilDiv sh 8) then
    reportBreak 0x3044 (some y) (raise 0x3044 1 [h1 y, h2 f] (updYard y (fun x => { x with padLow := true }) s))
  else if (yardOf y s).padLow && decide (ceilDiv sh 4 ≤ f) then
    endBreak 0x3044 (some y) (updYard y (fun x => { x with padLow := false }) s)
  else s

/-- Erased landing space of the device, bytes. -/
def landingFree (s : State) : Nat :=
  sumN ((padYards s).map (fun y => freeLanding y s * padPenBytes +
    (match (Tbl.get? s.pl.landing y).bind (fun id => penOf? id s) with | some p => padPenBytes - p.next * 4096 | none => 0)))

/-- The flush reserve: re-formed where a Shed die lacks it; while one is missing no write completes early (R94). -/
def keepReserve (s : State) : State :=
  let s1 := (List.range s.part.sheds).foldl (fun s sh =>
    if (Tbl.get? s.pl.flushRes sh).isSome then s
    else match formPadShed .flushRes sh s with
      | some (id, t) => { t with pl := { t.pl with flushRes := Tbl.put t.pl.flushRes sh id } }
      | none => s) s
  { s1 with slk := { s1.slk with reserveShort := (List.range s.part.sheds).any (fun sh => (Tbl.get? s1.pl.flushRes sh).isNone) } }

/-- SLK_STAT.BREAK: landing space beyond the reserve below 2 × S asks for erase bursts outside the schedule: 0x2050 (R94). -/
def slackWatch (s : State) : State :=
  let low := decide (landingFree s < 2 * sKiB s * 1024)
  let on := s.cad.brks.any (fun b => b.cause == 0x2050)
  if low && !on then reportBreak 0x2050 none (raise 0x2050 1 [] { s with slk := { s.slk with brk := true } })
  else if !low && on then endBreak 0x2050 none s
  else s

/-- The break of conventional garbage collection ends when 2 Pens of the region are free again (R133, Table 5.2). -/
def convWatch (s : State) : State :=
  if s.pl.convBreak && decide (2 ≤ convFree s) then endBreak 0x3030 (some 0) { s with pl := { s.pl with convBreak := false } } else s

/-- What landing space and free blocks bring after each operation that moves data, once the start has ended: PAD_LOW, the flush reserve,
the breaks, SPARES_OUT (R94, R133, R146, R163). -/
def landWatch (s : State) : State :=
  if !s.st.up || !s.fl.geom.ok then s
  else
    let ys := ((s.pl.landing.map (·.1)) ++ (s.pl.yards.filter (fun y => y.2.padLow)).map (·.1)).dedup
    let s1 := ys.foldl (fun s y => padWatch y (retireDead y s)) s
    checkSpares (convWatch (slackWatch (if s1.slk.reserveShort then keepReserve s1 else s1)))

/-! ## Power tokens (R360) -/

/-- The cap of a level, 0.1 W. -/
def tokenCap (lvl : Nat) (s : State) : Nat := s.img.budget * (lvl + 1) / 256

/-- The level in force changes: 0xA070. Level 0xFF has no cap to name: a free value. -/
def setToken (lvl : Nat) (s : State) : State :=
  if lvl = s.cad.token then s
  else
    let cap := if lvl = 0xFF then Config.freeNat s.free % 65536 else tokenCap lvl s
    tick (raise 0xA070 1 [h1 lvl, h1 cap] { s with cad := { s.cad with token := lvl } })

/-! ## Header commands (R341) -/

/-- Act on a header command once for each CMD_SEQ: 0xA060, CMD_CNT; an ALL_QUIET of 0 turns is ignored (log 94). ALL_QUIET and RELEASE take effect from the next turn. -/
def headerCmd (cmd arg seq : Nat) (s : State) : State :=
  if cmd = 0 ∨ s.cad.lastSeq = some seq then s
  else
    let s0 := { s with cad := { s.cad with lastSeq := some seq } }
    if 3 < cmd then { s0 with cad := { s0.cad with cmdUnknown := satAdd 16 s0.cad.cmdUnknown 1 } }
    else if cmd = 1 ∧ arg % 65536 = 0 then s0
    else
      let s1 := raise 0xA060 0 [h1 cmd, h2 arg] { s0 with cad := { s0.cad with cmdDone := wrapAdd 16 s0.cad.cmdDone 1 } }
      if cmd = 1 then { s1 with cad := { s1.cad with quietNext := some (arg % 65536) } }
      else if cmd = 2 then { s1 with cad := { s1.cad with quietNext := some 0 } }
      else s1

/-! ## Versions (R363, R364) -/

/-- VER_MIN: the lowest offer among the root's own and every address that has answered within 600 turns. -/
def verMin (s : State) : Nat :=
  (s.cad.parts.filter (fun p => decide (p.2.since < 600) && decide (0 < p.2.ver))).foldl (fun m p => min m p.2.ver) (verSupp s)
/-- The version of the next boundary, as the turn stands. -/
def verNext (s : State) : Nat :=
  if verMin s < s.cad.ver then verMin s else if verMin s ≤ s.cad.epochMin then verMin s else s.cad.ver
/-- The version in force changes: 0xA010. At version 1 no token is in force (R360). -/
def setVer (v : Nat) (s : State) : State :=
  if v = s.cad.ver then s
  else
    let s1 := raise 0xA010 0 [h1 s.cad.ver, h1 v, h4 s.tm.epoch] { s with cad := { s.cad with ver := v } }
    if v < 2 then setToken 0xFF { s1 with cad := { s1.cad with tokNext := 0xFF } } else s1

/-! ## Turns (R342) -/

/-- A pending schedule takes force once its epoch has come (R357). -/
def takeSched (s : State) : State :=
  match s.cad.pendSched with
  | some (l, e) => if e ≤ s.tm.epoch then { s with cad := { s.cad with sched := l, loaded := true, pendSched := none } } else s
  | none => s

/-- What an epoch boundary brings: a pending schedule (R357), MAXDEPTH and the version at a root (R364, R367). -/
def epochWork (s : State) : State :=
  let s1 := takeSched s
  if isRoot s1 then
    let v := verNext s1
    let s2 := setVer v { s1 with cad := { s1.cad with rootDepth := s1.cad.rootDepthNext, maxDepth := s1.cad.rootDepthNext } }
    { s2 with cad := { s2.cad with epochMin := verMin s2 } }
  else s1

/-- The header a root sends in the present turn (Table 13.3). -/
def rootHeader (s : State) : List Byte :=
  let on := decide (0 < s.cad.sendLeft)
  let body := leBytes 2 0xB4E1 ++ leBytes 1 (fld 0 4 s.cad.ver + fld 4 4 (verNext s)) ++ leBytes 1 (1 + fld 2 2 s.cad.rootDepth) ++ leBytes 5 s.tm.epoch ++
    leBytes 2 s.tm.turn ++ leBytes 1 (if on then s.cad.sendCmd else 0) ++ leBytes 1 s.cad.sendSeq ++ leBytes 1 (if 2 ≤ s.cad.ver then s.cad.rootTok else 0) ++
    leBytes 4 (if on then s.cad.sendArg else 0) ++ zeroBytes 12
  body ++ leBytes 2 (crcOf 0 body)
/-- A root drives its header and, in version 2, the map it collected in the turn before (R340, R343). -/
def driveTurn (s : State) : State :=
  { s with cad := { s.cad with dn := if s.img.cadHub then rootHeader s ++ leBytes 128 (if 2 ≤ s.cad.ver then s.cad.map else 0) else [] } }

/-- What a root does in each turn: its header, with its TOKEN and command, presence and delivery counts (R341, R345, R358). -/
def rootTurn (s : State) : State :=
  let s0 := { s with cad := { s.cad with
    parts := Tbl.mapV s.cad.parts (fun _ p => { p with since := satAdd 16 p.since 1 }),
    dels := s.cad.dels.map (fun (d : Deliv) => if d.begun then { d with since := d.since + 1 } else d),
    tokNext := if 2 ≤ s.cad.ver then s.cad.rootTok else 0xFF } }
  let s1 := driveTurn { s0 with cad := { s0.cad with epochMin := min s0.cad.epochMin (verMin s0) } }
  if 0 < s1.cad.sendLeft then
    headerCmd s1.cad.sendCmd s1.cad.sendArg s1.cad.sendSeq { s1 with cad := { s1.cad with sendLeft := s1.cad.sendLeft - 1 } }
  else s1

/-- The turn that ends: a quiet turn under a break counts as broken (R359). -/
def turnEnds (s : State) : State :=
  if breaking s && !busyTurn s then
    { s with cad := { s.cad with brkCnt := satAdd 64 s.cad.brkCnt 1, brkTurns := min 255 (s.cad.brkTurns + 1), brkFlag := true,
                                 brks := s.cad.brks.map (fun b => { b with turns := b.turns + 1 }) } }
  else s

/-- LOCK and TSRC rise at the start of a turn (R349): 0xA001. -/
def lockRises (s : State) : State :=
  if s.cad.lockPend then
    raise 0xA001 0 [h1 s.cad.depth, h1 s.cad.ver]
      { s with cad := { s.cad with lock := true, lockPend := false, lockReady := false, badRow := 0 }, tm := { s.tm with tsrc := true, est := false } }
  else s

/-- The start of a busy turn: a 24-hour or temperature trigger that is due may open its proof window in it (R77). -/
def softTurn (s : State) : State := { s with slk := { s.slk with softOk := s.slk.dueSoft && busyTurn s } }

/-- A new turn begins (R339, R342): reconstruction tokens refill (R211), header settings take effect, the epoch wraps after turn 999. -/
def newTurn (s : State) : State :=
  let s1 := turnEnds s
  let wrap := s1.tm.turn == 999
  let tm := { s1.tm with
    turn := if wrap then 0 else s1.tm.turn + 1, us := 0, elapsed := s1.tm.elapsed + (1000 - s1.tm.us), turns := s1.tm.turns + 1,
    epoch := if wrap then (s1.cad.epochReq.getD (s1.tm.epoch + 1)) % 2 ^ 40 else s1.tm.epoch,
    resync := if wrap then s1.cad.epochReq.isSome else s1.tm.resync }
  let cad := { s1.cad with
    quiet := match s1.cad.quietNext with | some n => n | none => s1.cad.quiet - 1,
    quietNext := none, absent := false, epochReq := if wrap then none else s1.cad.epochReq }
  let s2 := lockRises { s1 with
    tm := tm, cad := cad,
    slk := { s1.slk with holdTurn := false },
    pl := { s1.pl with yards := Tbl.mapV s1.pl.yards (fun y x => { x with exhTurn := false, tokens := Tbl.getD s1.ecc.tokens y 256 }) } }
  let s3 := setToken (if !s2.cad.lock then s2.cad.token else if 2 ≤ s2.cad.ver then s2.cad.tokNext else 0xFF) s2
  let s4 := softTurn (if wrap then epochWork s3 else s3)
  if isRoot s4 && s4.m.cur != .test then rootTurn s4 else s4

/-! ## Ends of Currycomb passes (R217, R218) -/

/-- The summary of Table 7.9 as its 64 bytes; its counters saturate. -/
def sumBytes (x : Summary) : List Byte :=
  let c := fun w v => leBytes (w / 8) (satAdd w v 0)
  c 64 x.words ++ c 64 x.c1 ++ c 64 x.c2 ++ c 64 x.c3 ++ c 64 x.c4 ++ c 32 x.ladderHi ++ c 32 x.rebuilt ++ c 32 x.uncorr
    ++ c 32 x.refreshed ++ c 32 x.durMs ++ leBytes 1 x.scope ++ leBytes 1 x.flags ++ leBytes 2 x.target

/-- A pass ends with a summary: CCB_LAST, 0x5020, and the completion of a requested pass (R217). -/
def closePass (p : Pass) (x : Summary) (s : State) : State :=
  let s1 := raise 0x5020 0 [h1 x.scope, h1 x.target, h2 (satAdd 32 x.uncorr 0)]
    { s with ecc := { s.ecc with last := x, passCnt := wrapAdd 16 s.ecc.passCnt 1 } }
  match p.ctx.bind (fun q => ctxAt q s1) with
  | some k => if k.wait == .ccb then postFull k 0 0 (satAdd 32 x.uncorr 0) 0 (sumBytes x) s1 else s1
  | none => s1

/-- SCOPE of a pass's summary: 0b11 for an automatic Yard or Paddock pass. -/
def passScope (p : Pass) : Nat := if p.ctx.isNone && p.scope != 2 then 3 else p.scope

/-- The reader that the Currycomb's codeword reads belong to. -/
def combReader : Nat := 2 ^ 42
/-- A read, or a rebuild, that a Currycomb pass waits for. -/
def AOp.isComb (o : AOp) : Bool :=
  match o.work with | .host i _ _ => i == combReader | .recon i _ _ _ _ _ => i == combReader | _ => false
/-- The running pass no longer waits for its read. -/
def dropComb (s : State) : State :=
  let rs := (s.fl.ops.filter (fun o => o.isComb)).map (·.id)
  if rs.isEmpty then s
  else { s with fl := { s.fl with ops := s.fl.ops.filter (fun o => !o.isComb && (match o.work with | .member r _ => !rs.contains r | _ => true)) } }
/-- A pass's summary as it stands (Table 7.9). -/
def Pass.summary (p : Pass) (flags : Nat) : Summary :=
  { p.sum with scope := passScope p, target := p.target, flags := flags + 4 * b2n p.part + 8 * b2n p.ctx.isNone }

/-- On entry to SANITIZE the running and the queued passes end with success, ENDED = 1, with what they have read (R218). -/
def endPasses (s : State) : State :=
  let ps := (match s.ecc.running with | some p => [p] | none => []) ++ s.ecc.queued
  ps.foldl (fun s p => closePass p (p.summary 2) s)
    (dropComb { s with ecc := { s.ecc with running := none, queued := [], progress := 0 } })

/-- Passes are abandoned: no completion comes (R218). The test keeps those of other functions; the next of them runs. -/
def dropPasses (gone : Pass → Bool) (s : State) : State :=
  let left := (match s.ecc.running with | some p => if gone p then [] else [p] | none => []) ++ s.ecc.queued.filter (fun p => !gone p)
  let t := match s.ecc.running with | some p => if gone p then dropComb s else s | none => s
  { t with ecc := { t.ecc with
    running := left.head?, queued := left.drop 1,
    progress := match left.head? with | some p => p.sum.words | none => 0 } }

/-- One microsecond of an idle block: yard time counts within its turn, whose end TURN_START brings (R342, DESIGN CHOICE, log 10). -/
def passMicrosecond (s : State) : State := { s with tm := { s.tm with us := min 999 (s.tm.us + 1), elapsed := s.tm.elapsed + 1 } }

end Sys2Proof.Machine
end

