-- ==== Sys2Proof/Machine/Slack.lean ====
section
/-! DEFINITION. Slack, the hold-up budget (Chapter 3): proof-loads, the decision on writes, the Slack Report. -/

namespace Sys2Proof.Machine
open Sys2Proof

/-! ## The hold-up qualification -/

/-- Set WT to 1; `fail`: because a proof-load failed, which also sets critical warning bit 4 (R35, R79, R80). TOTAL_MIB then
reads 0, and the base mode follows. -/
def setWt (fail : Bool) (s : State) : State :=
  let s1 := if fail && !s.m.wt then setWarn 4 true s else s
  reBase { s1 with m := { s1.m with wt := true } }

/-- Clear WT at a proof-load that passes (R79); warning bit 4 follows it. -/
def clearWt (s : State) : State := reBase (setWarn 4 false { s with m := { s.m with wt := false } })

/-- A trigger of R77 arrives: a proof-load not yet pulsing meets it; one that has begun its pulse is followed by one more. -/
def proofTrigger (soft : Bool) (s : State) : State :=
  let more := if soft then { s.slk with againSoft := true } else { s.slk with again := true }
  match s.slk.phase with
  | .idle => { s with slk := if soft then { s.slk with dueSoft := true } else { s.slk with due := true } }
  | .charging => s
  | .window => s
  | .pulse => { s with slk := more }
  | .recharge => { s with slk := more }

/-- Capacitance in µF from V1 and V2 in mV (R74): 100·(V1 + V2)/(V1 − V2), truncated. Where V1 ≤ V2 the spec states no figure:
a free value. -/
def capUf (v1 v2 k : Nat) : Nat := if v2 < v1 then 100 * (v1 + v2) / (v1 - v2) else Config.freeNat k % 65536
/-- ESR in units of 0.1 mΩ, truncated (R74); with V0 < V1 or V1 = 0 the spec states no figure. -/
def esrOf (v0 v1 k : Nat) : Nat := if v1 ≤ v0 ∧ 0 < v1 then (v0 - v1) * 100000 / v1 else Config.freeNat k % 65536
/-- Twice an energy C·(V² − VCUT²)/2 in pJ; zero below the cut-off. -/
def energy2 (c v vcut : Nat) : Nat := c * (v * v - vcut * vcut)
/-- E_fixed in µJ from P_FL in mW: P_FL × 16 ms (R75). -/
def efixUj (milliW : Nat) : Nat := milliW * 16
/-- e_byte in 0.01 nJ/B, rounded up (R75). At a rate of 0 the spec states no value: a free value. -/
def ebyteOf (milliW rate k : Nat) : Nat := if rate = 0 then Config.freeNat k else ceilDiv (milliW * 100000000) rate
/-- Slack in MiB before its bounds: floor(x / 2^20) − 2, with x = (e_use·derate − E_fixed)/e_byte (R74); `efix` in µJ. -/
def slackMiB (e2 derate efix ebyte : Nat) : Nat :=
  if ebyte = 0 then 0
  else min 64 ((e2 * derate - efix * 1000000 * 2000) / (ebyte * 20000) / 1048576 - 2)

/-- The result code of Table 3.2: the first condition that fails. -/
def proofResult (huOk : Bool) (v0 v1 v2 vcut c esr efix slack : Nat) : Nat :=
  if !huOk then 1
  else if v0 < vcut + 2000 then 2
  else if v1 ≤ v2 ∨ v0 < v1 ∨ c < 100 ∨ 65535 < c then 3
  else if 2500 < esr then 4
  else if energy2 c v2 vcut < efix * 2 * 1000000 then 5
  else if slack < 1 then 6
  else 0

/-- What follows every proof-load's result: RESULT, PROOF_CNT, WT, the record; job (a) of PROOF_LOAD ends (R76, R79). -/
def proofDone (code : Nat) (s : State) : State :=
  let s1 := { s with slk := { s.slk with result := code, proofCnt := wrapAdd 16 s.slk.proofCnt 1, window := false } }
  let s2 :=
    if code = 0 then
      let s2 := clearWt (raise 0x2001 0 [h2 s.slk.capUf, h2 s.slk.esr, h2 s.slk.totalMiB] s1)
      if sumQ s2 ≤ sKiB s2 then restoreQuotas s2 else scaleQuotas s2
    else scaleQuotas (setWt true (raise 0x2002 2 [h1 code] { s1 with slk := { s1.slk with totalMiB := 0 } }))
  let s3 := noteOver s2
  { s3 with st := { s3.st with jobA := s3.st.jobA || s3.m.cur == .proofLoad },
            slk := { s3.slk with phase := .idle, due := s3.slk.again, again := false, dueSoft := s3.slk.againSoft, againSoft := false, softOk := false } }

/-- The stamps of a completed proof-load (R77). -/
def proofStamps (s : State) : State :=
  { s with slk := { s.slk with proofStamp := stampNow s, proofUs := s.tm.elapsed, proofTemp := s.pw.boardTemp } }

/-- A proof-load is interrupted (code 0x7): HU_LOAD released, nothing completed, its trigger remains due (R76, R77). Where a power failure
is the cause (`pf`) no base mode changes; otherwise the failed proof-load has all of R79's effects. -/
def proofInterrupt (pf : Bool) (s : State) : State :=
  if s.slk.phase = .pulse then
    let s1 := raise 0x2002 2 [h1 7] { s with pins := { s.pins with huLoad := false } }
    let s2 := if s.m.wt then s1 else setWarn 4 true s1
    let s3 : State := { s2 with
      m := { s2.m with wt := true },
      slk := { s2.slk with result := 7, proofCnt := wrapAdd 16 s2.slk.proofCnt 1, phase := .idle, due := s2.slk.due || !s2.slk.dueSoft,
                           window := false, totalMiB := 0 } }
    if pf then s3 else reBase (noteOver (scaleQuotas s3))
  else { s with pins := { s.pins with huLoad := false }, slk := { s.slk with window := false, phase := .idle } }

/-- HU_OK_RISE (R77): the bank is charged. In WRITE_THROUGH a proof-load is triggered. -/
def execHuOkRise (s : State) : Out :=
  if s.pins.huOk then .next s
  else
    let s1 := { s with pins := { s.pins with huOk := true } }
    done (if s.m.cur = .writeThrough then proofTrigger false s1 else s1)

/-- HU_OK_FALL (R80): with PWRFAIL_N high, once this start's proof-load has been evaluated, early completions stop, WT becomes 1, 0x2030. During
a pulse or its recharge, or before the first evaluation, the fall is the bank's ordinary course; in a flush the power has failed, and in
RESET, IMAGE_LOAD and TEST the bank is not in use. -/
def execHuOkFall (s : State) : Out :=
  if !s.pins.huOk then .next s
  else
    let s1 := { s with pins := { s.pins with huOk := false } }
    let measuring := s.slk.phase == .pulse || s.slk.phase == .recharge
    if s.pins.pwrfailN && !measuring && s.st.jobA && !([Mode.reset, .imageLoad, .test, .emergencyFlush].contains s.m.cur) then
      done (setWt false (raise 0x2030 2 [] s1))
    else done s1

/-- CHG_TIMEOUT_EXPIRY (R76): HU_OK not high within CHG_TIMEOUT: result code 0x1. -/
def execChgTimeoutExpiry (s : State) : Out :=
  if !s.pins.huOk && (s.slk.phase == .charging || s.slk.phase == .recharge) then
    done (proofDone 1 (proofStamps s))
  else .next s

/-- PROOF_AGE_EXPIRY (R77): 24 hours of yard time since the last completed proof-load. -/
def execProofAgeExpiry (s : State) : Out :=
  done (proofTrigger true s)

/-- A proof-load may open its window now: a trigger is due, the mode is a base mode, THM is not 0b10, no window has closed without a pulse in
this turn, and a 24-hour or temperature trigger waits for the start of the next busy turn while cadenced with a schedule (R77, R78). -/
def windowAllowed (s : State) : Bool :=
  s.m.cur.isBase && s.slk.phase == .idle && s.m.thm != 2 && !s.slk.holdTurn &&
    (s.slk.due || (s.slk.dueSoft && (!(s.tm.tsrc && schedLoaded s) || s.slk.softOk)))

/-- PROOF_WINDOW_OPEN (R78): WINDOW is set, and every write decided from then on is held. HU_CHG_EN is high. -/
def execProofWindowOpen (s : State) : Out :=
  if windowAllowed s then
    done { s with slk := { s.slk with window := true, phase := .window }, pins := { s.pins with huChgEn := true } }
  else .next s

/-- PROOF_PULSE_START (R78, R75): HU_LOAD goes high, after HU_OK and the rehearsal in PROOF_LOAD, or with USE_KIB at 0 in a
window. V0 is taken. -/
def execProofPulseStart (v0 : Nat) (s : State) : Out :=
  if (s.m.cur = .proofLoad ∧ s.slk.phase = .charging ∧ s.pins.huOk ∧ s.slk.rehearsed) ∨ (s.slk.phase = .window ∧ useKiB s = 0 ∧ s.m.thm ≠ 2) then
    done { s with slk := { s.slk with phase := .pulse, v0 := v0 }, pins := { s.pins with huLoad := true } }
  else .next s

/-- PROOF_WINDOW_TIMEOUT (R78): USE_KIB not 0 within 10 ms: the window closes without a pulse; the trigger remains due,
for the next eligible turn. -/
def execProofWindowTimeout (s : State) : Out :=
  if s.slk.phase = .window then
    done { s with slk := { s.slk with window := false, phase := .idle, due := s.slk.due || !s.slk.dueSoft, softOk := false, holdTurn := true } }
  else .next s

/-- PROOF_PULSE_END (R74): HU_LOAD falls, V1 and V2 are taken, recharge begins; the voltage HOLD comes back to is the board's (log 96). -/
def execProofPulseEnd (v1 : Nat) (v2 : PulseV) (s : State) : Out :=
  if s.slk.phase = .pulse then
    done { s with slk := { s.slk with phase := .recharge, v1 := v1, v2 := v2.v2, back := v2.back },
                  pins := { s.pins with huLoad := false, huChgEn := true } }
  else .next s

/-- PROOF_LOAD_EVALUATION (R76, R74, R78, R79, R87): the bank figures, Slack and the result. It waits for HU_OK, and in a proof window until the
bank's voltage has recovered to within 1 % of V0. -/
def execProofLoadEvaluation (s : State) : Out :=
  if s.slk.phase = .recharge ∧ s.pins.huOk ∧ (s.slk.window = true → 99 * s.slk.v0 ≤ 100 * s.slk.back) then
    let k := s.slk
    let c := capUf k.v1 k.v2 s.free
    let e := esrOf k.v0 k.v1 (s.free + 1)
    let e2 := energy2 c k.v0 s.img.vcut
    let sl := slackMiB e2 s.img.derate k.efixUj k.ebyte
    let code := proofResult s.pins.huOk k.v0 k.v1 k.v2 s.img.vcut c e k.efixUj sl
    let s1 := { s with free := s.free + 2,
                       slk := { k with capUf := min c 65535, esr := min e 65535, euseMj := min (e2 / 2000000000) 65535,
                                       totalMiB := sl } }
    done (proofDone code (proofStamps s1))
  else .next s

/-- SLACK_DECISION (R83): a write's last bytes are staged (`rest`: those the command had not yet transferred), and it is decided,
and with it every write that waited for its decision (R85). Defined with the writes' staging in Zones. -/
def stageRest (id : Nat) (mk : Nat → Nat → Blk → Nat × Piece) (rest : List Blk) (s : State) : State :=
  updWr id (fun w =>
    let have_ := sumN (w.staged.map (fun p => p.2.units))
    let new := (rest.take ((w.len - have_) / 2)).mapIdx (fun i b => mk (w.pos + have_) i b)
    let st := w.staged ++ new
    { w with staged := st, left := w.left ++ new.map (·.1), ready := sumN (st.map (fun p => p.2.units)) == w.len }) s

/-! ## Slack Report (R100) -/

/-- SLK_AMT (Table 3.6). -/
def slkAmt (s : State) : Nat :=
  fld 0 7 (if s.m.wt then 0 else s.slk.totalMiB) + fld 8 17 (useKiB s) + fld 25 17 (poolKiB s) + fld 42 17 (poolFreeKiB s)
/-- SLK_BANK (Table 3.7). -/
def slkBank (s : State) : Nat := fld 0 16 s.slk.capUf + fld 16 16 s.slk.esr + fld 32 16 s.slk.v0 + fld 48 16 s.slk.v2
/-- SLK_CAL (Table 3.8). A figure too large for its field reads all ones (the spec gives no such case; log 73). -/
def slkCal (s : State) : Nat := fld 0 16 s.slk.euseMj + fld 16 16 (min 65535 (s.slk.efixUj / 1000)) + fld 32 12 (min 4095 s.slk.ebyte) + fld 44 12 s.slk.pfl
/-- SLK_STAT (Table 3.5). -/
def slkStat (s : State) : Nat :=
  b2n (!s.m.wt && s.st.jobA) + fld 1 1 (b2n s.slk.window) + fld 2 1 (b2n (earlyOff s)) + fld 3 3 s.slk.result + fld 6 1 (b2n s.pins.huOk)
    + fld 7 1 (b2n s.slk.brk) + fld 16 16 s.slk.proofCnt
/-- SLK_VF_STAT of a stall (Table 3.10). -/
def slkVfStat (f : Nat) (s : State) : Nat :=
  b2n (earlyOff s || !(fnOf f s).feats.wce) + fld 1 1 (b2n (slkOf f s).holding) + fld 2 1 (b2n (slkOf f s).scaled)
/-- SLK_LASTFLUSH (Table 3.9). -/
def slkLast (s : State) : Nat := fld 0 24 s.slk.last.durUs + fld 24 24 s.slk.last.kib + fld 48 2 s.slk.last.state

/-- A Slack Report entry (Table 3.12). -/
def slkEntry (f : Nat) (s : State) : List Byte :=
  let a := slkOf f s
  if (fnOf f s).en && fnPresent f s then
    leBytes 2 f ++ leBytes 2 (1 + 2 * b2n a.holding + 4 * b2n ((fnOf f s).feats.wce && !s.m.wt) + 8 * b2n a.scaled) ++ leBytes 4 a.effKiB
      ++ leBytes 4 (ceilDiv (a.useQ + a.useP) 1024) ++ leBytes 4 a.heldSince
  else zeroBytes 16

/-- The Slack Report header (Table 3.11). -/
def slkHeader (n : Nat) (s : State) : List Byte :=
  leBytes 8 (slkAmt s) ++ leBytes 8 (slkBank s) ++ leBytes 8 (slkCal s) ++ leBytes 8 s.slk.proofStamp ++ leBytes 4 (slkStat s)
    ++ leBytes 2 n ++ zeroBytes 2 ++ leBytes 8 s.slk.earlyCnt ++ leBytes 8 s.slk.heldCnt ++ zeroBytes 8

/-- SLACK_REPORT (R100). -/
def slackReportOn (k : Ctx) (s : State) : State :=
  let c := k.cmd
  let first := bits c.cdw10.toNat 10 0
  let cnt := bits c.cdw11.toNat 10 0
  if isStall c.fn then
    okData k (zeroBytes 32 ++ leBytes 4 (slkVfStat c.fn s) ++ zeroBytes 28 ++ slkEntry c.fn s) s
  else if 1025 < first + cnt then fin k 0 0x02 s
  else
    let fs := (List.range cnt).map (· + first)
    let d := slkHeader cnt s ++ fs.flatMap (fun f => slkEntry f s)
    let s1 := if c.fn = 0 then fs.foldl (fun s f =>
        if (Tbl.get? s.slk.fns f).isSome then updSlk f (fun a => { a with heldSince := 0 }) s else s) s else s
    okData k d s1

end Sys2Proof.Machine
end

