-- ==== Sys2Proof/Machine/CiphOps.lean ====
section
/-! DEFINITION. Keys, seals and protection information as the data paths use them (R293 to R305, R310, R311). Staging and the media
hold ciphertext (R28, R296): XTS under the namespace's key pair, or a sealed zone's own encryption. Metadata is held in clear. -/

namespace Sys2Proof.Machine
open Sys2Proof

/-! ## Key pages -/

/-- Key slots of a function (R292). -/
def keySlots (f : Nat) (s : State) : Nat := if isPf f then 8 else min 8 (resOf f s).keySlots
/-- The key in a slot. -/
def keyAt? (f slot : Nat) (s : State) : Option (List Byte) := Tbl.get? s.ci.keys (f * 8 + slot)
/-- KCV of a slot; 0 when cleared (R294). -/
def kcvAt (f slot : Nat) (s : State) : Nat := match keyAt? f slot s with | some k => kcvOf k | none => 0
/-- Clear slots without a record (Table 11.1), and their write buffers. -/
def clearSlots (gone : Nat → Bool) (s : State) : State :=
  { s with ci := { s.ci with keys := s.ci.keys.filter (fun p => !gone (p.1 / 8)), kbuf := s.ci.kbuf.filter (fun p => !gone (p.1 / 8)) } }

/-! ## Namespace keys (R297) -/

/-- Generate a namespace's key pair from the entropy source: 0x8040. -/
def genKeys (n cause : Nat) (s : State) : State :=
  let pair := padTo 32 (Config.freeKey s.free) ++ padTo 32 (Config.freeKey (s.free + 1))
  raise 0x8040 0 [h1 n, h1 cause] { s with ci := { s.ci with nsKeys := Tbl.put s.ci.nsKeys n pair }, free := s.free + 2 }
/-- Deleting a namespace destroys its pair. -/
def dropKeys (n : Nat) (s : State) : State := { s with ci := { s.ci with nsKeys := Tbl.del s.ci.nsKeys n } }
/-- Crypto Erase destroys every pair, slot and binding, then generates new pairs: 0x8030 (R302). -/
def cryptoErase (s : State) : State :=
  let ns := s.zn.nss.map (·.1)
  let s1 := { s with ci := { s.ci with nsKeys := [], keys := [], kbuf := [], bind := [] } }
  raise 0x8030 1 [h2 ns.length] (ns.foldl (fun s n => genKeys n 2 s) s1)

/-- The key pair of the namespace an owner's data belongs to. -/
def nsPair (o : Nat) (s : State) : List Byte :=
  match zoneAt? o s with
  | some q => Tbl.getD s.ci.nsKeys q.nsid []
  | none => Tbl.getD s.ci.nsKeys (((convNs? s).map (·.1)).getD 0) []
/-- The data units of a piece at a position: length, offset and tweak (R296): one block by its LBA, or the stored units of a compressed zone
by their HADDR. -/
def dataUnits (o pos units : Nat) (s : State) : List (Nat × Nat × Nat) :=
  match zoneAt? o s with
  | some q =>
    if q.comp then (List.range units).map (fun i => (2048, 2048 * i, xtsTweak true (q.idx * 2 ^ 21 + pos + i)))
    else [(2048 * units, 0, xtsTweak false (q.idx * 2 ^ 20 + pos / 2))]
  | none => [(2048 * units, 0, xtsTweak false (pos / 2))]
/-- A piece's data as staging and the media hold it (R28 stage 7, R296). -/
def atRest (o pos units : Nat) (data : List Byte) (s : State) : List Byte :=
  (dataUnits o pos units s).flatMap (fun u => xtsEnc (nsPair o s) u.2.2 (sliceB data u.2.1 u.1))
/-- A piece's data deciphered (R29 stage 9). -/
def fromRest (o pos units : Nat) (data : List Byte) (s : State) : List Byte :=
  (dataUnits o pos units s).flatMap (fun u => xtsDec (nsPair o s) u.2.2 (sliceB data u.2.1 u.1))

/-! ## Sealed zones -/

/-- The key a zone is bound to, if the slot still holds one with the bound KCV (R299). -/
def sealKey? (z : Nat) (s : State) : Option (List Byte) :=
  match Tbl.get? s.ci.bind z with
  | none => none
  | some b => match keyAt? b.fn b.slot s with
    | some k => if kcvOf k = b.kcv then some k else none
    | none => none
/-- A sealed zone's key is absent or changed. -/
def sealDenied (z : Nat) (q : Zone) (s : State) : Bool := q.sealF && (sealKey? z s).isNone
/-- Refuse a command for a sealed zone's key: 2h/0x86, KEY_DENIED, 0x8011 (R299), SEAL detail 0b101. -/
def refuseSeal (k : Ctx) (z : Nat) (s : State) : State :=
  fin { k with sealF := 5 } 2 0x86 (raise 0x8011 1 [h1 k.cmd.fn, h2 z] { s with ci := { s.ci with denied := satAdd 64 s.ci.denied 1 } })
/-- The slot key a zone's data is worked with. Where the slot has been cleared since the check, the spec names no key: a free
value. -/
def slotKey (z : Nat) (s : State) : List Byte := (sealKey? z s).getD (padTo 32 (Config.freeKey s.free))
/-- K_enc and K_mac of a zone (R300). -/
def zoneEnc (z : Nat) (q : Zone) (s : State) : List Byte := kEnc (slotKey z s) Config.devId z q.gen
/-- K_mac. -/
def zoneMac (z : Nat) (q : Zone) (s : State) : List Byte := kMac (slotKey z s) Config.devId z q.gen

/-- Bind a zone to a slot at Placement Open with SEAL (R298), after its two checks. -/
def bindSeal (k : Ctx) (z slot : Nat) (s : State) : Option (Nat × Nat) × State :=
  if keySlots k.cmd.fn s ≤ slot then (some (0, 0x02), s)
  else match keyAt? k.cmd.fn slot s with
    | none => (some (2, 0x86), s)
    | some key => (none, { s with ci := { s.ci with bind := Tbl.put s.ci.bind z ⟨k.cmd.fn, slot, kcvOf key, none⟩ } })
/-- Zone Reset frees the entry. -/
def unbind (z : Nat) (s : State) : State := { s with ci := { s.ci with bind := Tbl.del s.ci.bind z } }

/-- A piece encrypted for its place (R28 stage 7): a sealed zone's own encryption, or XTS. -/
def encPiece (z : Nat) (zo : Option Zone) (pos units : Nat) (data : List Byte) (s : State) : List Byte :=
  match zo with
  | some q => if q.sealF then ctrCrypt (zoneEnc z q s) (pos * 2048) data else atRest z pos units data s
  | none => atRest z pos units data s

/-- A block as it is staged: encrypted (R28 stage 7). -/
def mkPiece (z : Nat) (zo : Option Zone) (w : Nat) (base i : Nat) (b : Blk) (s : State) : Nat × Piece :=
  let pos := base + 2 * i
  (pos, ⟨2, encPiece z zo pos 2 b.data s, b.md, false, false, b2n (match zo with | some q => q.sealF | none => false), 0, 0, w, 0⟩)

/-- The plaintext bytes of a stored piece. -/
def openPiece (z : Nat) (p : Nat × Piece) (s : State) : Blk :=
  if p.2.enc = 0 then ⟨fromRest z p.1 p.2.units p.2.data s, p.2.md⟩
  else match zoneAt? z s with
    | some q => ⟨ctrCrypt (zoneEnc z q s) (p.1 * 2048) p.2.data, p.2.md⟩
    | none => ⟨p.2.data, p.2.md⟩

/-- The stored bytes of one 2 KiB position, from staging or the store; none while it is accepted and not staged. -/
def storedUnit (z pos : Nat) (s : State) : Option (List Byte) :=
  match contentAt z pos false s with
  | some (some (q, p, _)) => some (sliceB p.data ((pos - q) * 2048) 2048)
  | _ => none

/-- The 65,536 stored bytes of a seal unit: what was accepted, then encrypted zeros (R302); none while some is not staged. -/
def sealUnit (z u : Nat) (q : Zone) (s : State) : Option (List Byte) :=
  let ps := (List.range 32).map (· + 32 * u)
  let have_ := ps.filter (fun p => decide (p < q.wp))
  let l := have_.filterMap (fun p => storedUnit z p s)
  if l.length < have_.length then none
  else
    let n := have_.length
    some (l.flatten ++ ctrCrypt (zoneEnc z q s) ((32 * u + n) * 2048) (zeroBytes ((32 - n) * 2048)))

/-- Tag every unit that is complete now: filled, or ended short in a zone that is Full (R301, R302). -/
def sealAfter (z : Nat) (s : State) : State :=
  match zoneAt? z s with
  | none => s
  | some q =>
    if !q.sealF then s
    else
      (List.range (ceilDiv q.wp 32)).foldl (fun s u =>
        if (Tbl.get? q.tags u).isSome || !(decide (32 * (u + 1) ≤ q.wp) || q.st == .full) then s
        else match sealUnit z u q s with
          | some c => updZone z (fun x => { x with tags := Tbl.put x.tags u (sealTag (zoneMac z q s) z (q.gen % 2 ^ 32) u c) }) s
          | none => s) s

/-- How a seal unit checks on a read: matched (1), unfilled and unchecked (2), nothing stored (3), mismatched (4) (Table 11.4). -/
def sealCheck (z u : Nat) (q : Zone) (s : State) : Nat :=
  if q.wp ≤ 32 * u then 3
  else match Tbl.get? q.tags u with
    | none => 2
    | some t => match sealUnit z u q s with
      | some c => if sealTag (zoneMac z q s) z (q.gen % 2 ^ 32) u c = t then 1 else 4
      | none => 2

/-! ## Protection information (R310, R311; PRINFO and tags as the NVM Command Set places them, log 5) -/

/-- Protection type of a namespace, and whether the information stands in the first bytes of the metadata (DPS). -/
def Ns.piType (n : Ns) : Nat := if n.lbaf = 0 then 0 else n.pi % 8
/-- DPS.PIL. -/
def Ns.pil (n : Ns) : Bool := n.pi / 8 % 2 == 1
/-- Bytes of the guard: 2, 4 or 8 (Table 11.9). Which of the two guards format 4096+16 uses is the implementation's. -/
def Ns.guardLen (n : Ns) : Nat := if n.lbaf = 1 then 2 else if n.lbaf = 2 then (if Config.guard64 then 8 else 4) else 8
/-- Bytes of protection information. -/
def Ns.piLen (n : Ns) : Nat := if n.lbaf = 1 then 8 else 16
/-- Bytes of the reference tag: 4, 10 or 6. -/
def Ns.refLen (n : Ns) : Nat := n.piLen - n.guardLen - 2
/-- Where the information begins in the metadata. -/
def Ns.piOff (n : Ns) : Nat := if n.pil then 0 else mdLen n.lbaf - n.piLen

/-- The guard of a block: over its data, and the metadata before information placed last. -/
def guardOf (n : Ns) (b : Blk) : Nat :=
  crcOf (if n.guardLen = 2 then 0 else if n.guardLen = 4 then 1 else 2) (b.data ++ (if n.pil then [] else b.md.take n.piOff))
/-- A big-endian field of the information. -/
def piField (n : Ns) (b : Blk) (o len : Nat) : Nat := leNat (sliceB b.md (n.piOff + o) len).reverse
/-- The application tag. -/
def piApp (n : Ns) (b : Blk) : Nat := piField n b n.guardLen 2
/-- The reference tag. -/
def piRef (n : Ns) (b : Blk) : Nat := piField n b (n.guardLen + 2) n.refLen
/-- The information's checks are off for a block: application tag all ones, and for Type 3 the reference tag too. -/
def piEscape (n : Ns) (b : Blk) : Bool :=
  piApp n b == 0xFFFF && (n.piType != 3 || piRef n b == 256 ^ n.refLen - 1)

/-- The initial reference tag of a command, CDW14. -/
def ilbrt (c : Cmd) : Nat := c.cdw14.toNat
/-- The reference tag block i of a command carries. -/
def refAt (c : Cmd) (n : Ns) (i : Nat) : Nat := if n.piType = 3 then ilbrt c else (ilbrt c + i) % 256 ^ n.refLen

/-- Generate a block's information: guard, LBAT, reference tag. -/
def piMake (c : Cmd) (n : Ns) (ref : Nat) (b : Blk) : Blk :=
  let md := padTo (mdLen n.lbaf) b.md
  let b1 : Blk := ⟨b.data, md⟩
  let info := beBytes n.guardLen (guardOf n b1) ++ beBytes 2 (bits c.cdw15.toNat 15 0) ++ beBytes n.refLen ref
  ⟨b.data, md.take n.piOff ++ info ++ md.drop (n.piOff + n.piLen)⟩

/-- Replace a block's reference tag. -/
def piReref (n : Ns) (ref : Nat) (b : Blk) : Blk :=
  let o := n.piOff + n.guardLen + 2
  ⟨b.data, b.md.take o ++ beBytes n.refLen ref ++ b.md.drop (o + n.refLen)⟩

/-- Zone Append's PIREMAP, CDW12 [25]. -/
def piremap (c : Cmd) : Bool := c.opc == 0x7D && bit c.cdw12.toNat 25

/-- A write's block as it is stored: with PRACT its information is generated, with PIREMAP a Type 1 reference tag becomes the
assigned LBA's (R310). -/
def piInsert (c : Cmd) (n : Ns) (lba i : Nat) (b : Blk) : Blk :=
  if n.piType = 0 then b
  else
    let ref := if piremap c && n.piType == 1 then (lba + i) % 256 ^ n.refLen else refAt c n i
    if bit (prinfoOf c) 3 then piMake c n ref b
    else if piremap c && n.piType == 1 then piReref n ref b
    else b

/-- The first failing check of a block under PRCHK: status of R311 and its kind. -/
def piCheck (c : Cmd) (n : Ns) (i : Nat) (b : Blk) : Option (Nat × Nat) :=
  let p := prinfoOf c
  let mask := bits c.cdw15.toNat 31 16
  let ref := refAt c n i
  if n.piType = 0 ∨ piEscape n b then none
  else if bit p 2 ∧ piField n b 0 n.guardLen ≠ guardOf n b then some (0x82, 0)
  else if bit p 1 ∧ piApp n b &&& mask ≠ bits c.cdw15.toNat 15 0 &&& mask then some (0x83, 1)
  else if bit p 0 ∧ n.piType ≠ 3 ∧ piRef n b ≠ ref then some (0x84, 2)
  else none

/-- The checks of a write's data from its block `base` on: the first failure, with its block (R311). None with PRACT. -/
def piWrite (c : Cmd) (n : Ns) (base : Nat) (blks : List Blk) : Option (Nat × Nat × Nat) :=
  if n.piType = 0 ∨ bit (prinfoOf c) 3 ∨ c.opc = 0x08 then none
  else ((blks.zipIdx).findSome? (fun p => (piCheck c n (base + p.2) p.1).map (fun e => (e.1, e.2, base + p.2))))

/-- Record a failed check (R311). -/
def piRecord (f lba kind : Nat) (s : State) : State := raise 0x8050 1 [h1 f, h4 lba, h1 kind] s

/-- A Zone Append's PIREMAP does not suit the protection type (NVMe's Invalid Protection Information; PRESUMED, log 5). -/
def piAppendBad (c : Cmd) (n : Ns) : Bool :=
  c.opc == 0x7D && ((n.piType == 1 && !piremap c) || (n.piType == 3 && piremap c))

/-- A block read from media fails its stored guard, whatever PRCHK says. -/
def piGuardBad (n : Ns) (b : Blk) : Bool := n.piType != 0 && !piEscape n b && piField n b 0 n.guardLen != guardOf n b

end Sys2Proof.Machine
end

