-- ==== Sys2Proof/Machine/HhCodec.lean ====
section
/-! DEFINITION. The half-hitch bitstream (R283 to R287): the decoder the spec fixes, and the device's own encoder, a free choice held
to what decodes. -/

namespace Sys2Proof.Machine
open Sys2Proof

/-- The bits of a byte, bit 0 first (R284). -/
def byteBits (b : Byte) : List Bool := (List.range 8).map (fun i => b.getLsbD i)

/-- The decoder's state: bits left below NBITS, bits consumed, output so far (last byte first), its length, last distance. -/
structure HhSt where
  bs : List Bool
  used : Nat
  out : List Byte
  pos : Nat
  last : Nat

/-- Read an n-bit value, least significant bit first; none past NBITS. -/
def hhVal : Nat → HhSt → Option (Nat × HhSt)
  | 0, t => some (0, t)
  | n + 1, t => match t.bs with
    | [] => none
    | b :: bs => (hhVal n { t with bs := bs, used := t.used + 1 }).map (fun r => (b2n b + 2 * r.1, r.2))

/-- Read a prefix code of a table: the codes as printed, with what each stands for. -/
def hhPrefix {α : Type} : List (List Bool × α) → HhSt → Option (α × HhSt)
  | [], _ => none
  | (c, a) :: t, s => if c.isPrefixOf s.bs then some (a, { s with bs := s.bs.drop c.length, used := s.used + c.length }) else hhPrefix t s

/-- Token prefixes (Table 10.5): 0 LITERAL, 1 MATCH, 2 REPEAT, 3 FILL. -/
def hhTokens : List (List Bool × Nat) := [([false], 0), ([true, false], 1), ([true, true, false], 2), ([true, true, true], 3)]
/-- Length codes (Table 10.6): value bits and low end. -/
def hhLens : List (List Bool × (Nat × Nat)) :=
  [([false, false], (1, 3)), ([false, true], (2, 5)), ([true, false, false], (3, 9)), ([true, false, true], (4, 17)),
   ([true, true, false], (6, 33)), ([true, true, true, false], (8, 97)), ([true, true, true, true], (12, 353))]
/-- Distance codes (Table 10.6). -/
def hhDists : List (List Bool × (Nat × Nat)) := [([false], (6, 1)), ([true, false], (8, 65)), ([true, true], (12, 321))]

/-- A length or distance. -/
def hhNum (tab : List (List Bool × (Nat × Nat))) (t : HhSt) : Option (Nat × HhSt) :=
  match hhPrefix tab t with
  | none => none
  | some ((n, lo), t1) => (hhVal n t1).map (fun r => (lo + r.1, r.2))

/-- Copy bytes one at a time from a distance back (R285). -/
def hhCopy : Nat → Nat → List Byte → List Byte
  | 0, _, out => out
  | n + 1, d, out => hhCopy n d (nth out (d - 1) 0 :: out)

/-- Copy after the checks of R286; the error is its cause. -/
def hhCopyTok (l : Nat) (t : HhSt) : Except Nat HhSt :=
  if t.pos < t.last then .error 4
  else if 4096 - t.pos < l then .error 5
  else .ok { t with out := hhCopy l t.last t.out, pos := t.pos + l }

/-- One token (R285, R286). -/
def hhToken (t : HhSt) : Except Nat HhSt :=
  match hhPrefix hhTokens t with
  | none => .error 3
  | some (0, t1) => match hhVal 8 t1 with
    | none => .error 3
    | some (v, t2) => .ok { t2 with out := BitVec.ofNat 8 v :: t2.out, pos := t2.pos + 1 }
  | some (3, t1) => .ok { t1 with out := List.replicate (4096 - t1.pos) 0 ++ t1.out, pos := 4096 }
  | some (1, t1) => match hhNum hhLens t1 with
    | none => .error 3
    | some (l, t2) => match hhNum hhDists t2 with
      | none => .error 3
      | some (d, t3) => hhCopyTok l { t3 with last := d }
  | some (_, t1) => match hhNum hhLens t1 with
    | none => .error 3
    | some (l, t2) => hhCopyTok l t2

/-- Tokens until 4,096 bytes are out: each puts out at least one. -/
def hhRun : Nat → HhSt → Except Nat HhSt
  | 0, t => .ok t
  | n + 1, t => if 4096 ≤ t.pos then .ok t else match hhToken t with
    | .ok t1 => hhRun n t1
    | .error e => .error e

/-- Decode one half-hitch to its 4,096 bytes, or the cause of Table 10.7 (R286). -/
def hhDecode (h : List Byte) : Except Nat (List Byte) :=
  let nbits := numAt h 2 2
  if numAt h 0 1 ≠ 0xA1 ∨ numAt h 1 1 ≠ 0 then .error 1
  else if nbits < 1 ∨ 16336 < nbits then .error 2
  else
    let pay := (h.drop 6).flatMap byteBits
    match hhRun 4096 ⟨pay.take nbits, 0, [], 0, 1⟩ with
    | .error e => .error e
    | .ok t =>
      if t.used ≠ nbits then .error 6
      else if (pay.drop nbits).any id then .error 7
      else if wordSum t.out.reverse ≠ numAt h 4 2 then .error 8
      else .ok t.out.reverse

/-- The stored form of an all-zero block: a single FILL token, NBITS = 3 (R287). -/
def hhZero : List Byte := [0xA1, 0x00, 0x03, 0x00, 0x00, 0x00, 0x07] ++ zeroBytes 2041

/-- The device's encoder (R287): its token choice is free, but what it stores as a half-hitch decodes to the block; otherwise the
block spills. -/
def hhEncode (b : List Byte) : Option (List Byte) :=
  if b = zeroBytes 4096 then some hhZero
  else
    let c := Config.hhCode b
    match hhDecode c with
    | .ok d => if d = b ∧ c.length = 2048 then some c else none
    | .error _ => none

end Sys2Proof.Machine
end

