-- ==== Sys2Proof/Machine/ReadOps.lean ====
section
/-! DEFINITION. The read path (R29, R120, R204, R205, R233, R236, R259, R279 to R281, R303): what a reader needs, where each block
comes from, and how Read and Half-hitch Read end. -/

namespace Sys2Proof.Machine
open Sys2Proof

/-! ## Readers: contexts and maintenance channels -/

/-- The identity of maintenance channel n as a reader; contexts are named by their order. -/
def gdcReader (n : Nat) : Nat := 2 ^ 40 + n
/-- A maintenance channel. -/
def gdcAt (n : Nat) (s : State) : Gdc := Tbl.getD s.ga.gdc n Gdc.dflt
/-- Change a maintenance channel. -/
def updGdc (n : Nat) (g : Gdc → Gdc) (s : State) : State := { s with ga := { s.ga with gdc := Tbl.put s.ga.gdc n (g (gdcAt n s)) } }
/-- What a reader has gathered. -/
def rdOf? (id : Nat) (s : State) : Option Rd :=
  if id < 2 ^ 40 then (ctxAt id s).map (·.rd) else if id < 2 ^ 41 then some (gdcAt (id - 2 ^ 40) s).rd else none
/-- Change what a reader has gathered. -/
def updRd (id : Nat) (g : Rd → Rd) (s : State) : State :=
  if id < 2 ^ 40 then match ctxAt id s with | some k => putCtx { k with rd := g k.rd } s | none => s
  else if id < 2 ^ 41 then updGdc (id - 2 ^ 40) (fun c => { c with rd := g c.rd }) s
  else s
/-- The reader that a program's source reads belong to: a copy's destination waits for them (R155). The Currycomb's is `combReader`. -/
def srcReader (prog : Nat) : Nat := 2 ^ 41 + prog
/-- Class of a reader's reads (Table 6.4): 2 for hosts and Gather elements, 5 for copies and the Currycomb. -/
def readClass (id : Nat) : Nat := if id < 2 ^ 41 then 2 else 5

/-- 2h/0x81 as a part's status. -/
def stUnrec : Nat := 0x281

/-! ## Codewords read (R204, R208, R210) -/

/-- Codewords of one wordline of a member of a Pen. -/
def cwPerMember (p : Pen) (g : Geom) : Nat := max 1 (if p.kind.oneBit then cwPerWl g else cwPerUnit g)
/-- A codeword of a Pen as the Currycomb names it: member, wordline, index in the wordline. -/
def combCode (m wl c : Nat) : Nat := (m * 4096 + wl) * 65536 + c
/-- A codeword read for someone: its Pen, the member, the wordline, the index in it. -/
structure Target where
  pid : Nat
  pen : Pen
  m : Nat
  wl : Nat
  cw : Nat

/-- The codeword that a read names: by owner and position, or for the Currycomb by Pen and place. -/
def targetOf (id o q : Nat) (s : State) : Option Target :=
  if id = combReader then (penOf? o s).map (fun pn => ⟨o, pn, q / 65536 / 4096, q / 65536 % 4096, q % 65536⟩)
  else match pieceAt o q s with
    | some (_, p) => (penOf? p.pen s).map (fun pn => let l := slotLoc pn p.slot s.fl.geom; ⟨p.pen, pn, l.1, l.2, p.slot % cwPerMember pn s.fl.geom⟩)
    | none => none
/-- The member's die, the block that holds the wordline, whether it is missing. -/
def Target.place (t : Target) (s : State) : Nat × Nat × Bool :=
  let e := nth t.pen.mem t.m (0, 8191, true)
  let b := memBlk t.pen t.m t.wl s
  (e.1, b, e.2.2 || b == 8191 || !dieReadable e.1 s)

/-- Members of a Pen that cannot serve a rebuild of member t now: the target, the lost and unreadable, those busy in an operation that is
not suspended, those whose codeword failed steps 0 to 2 (R208). -/
def Pen.away (p : Pen) (t : Nat) (bad : List Nat) (s : State) (m : Nat) : Bool :=
  let e := nth p.mem m (0, 8191, true)
  m == t || e.2.2 || !dieReadable e.1 s || dieBusy e.1 s || bad.contains m
/-- How many. -/
def unavailable (p : Pen) (t : Nat) (bad : List Nat) (s : State) : Nat :=
  ((List.range p.mem.length).filter (fun m => p.away t bad s m)).length
/-- The stripe of a codeword is closed and enough members remain. -/
def rebuildable (t : Target) (bad : List Nat) (s : State) : Bool :=
  stripeClosed t.pen t.wl && decide (unavailable t.pen t.m bad s ≤ t.pen.parity)

/-- Queue a member read of a rebuild: a class-2 read of its die (R210). -/
def queueMember (rid : Nat) (t : Target) (m : Nat) (s : State) : State :=
  queueRead (nth t.pen.mem m (0, 8191, true)).1 (memBlk t.pen m t.wl s) 2 t.wl (pageIn t.pen.kind.oneBit t.cw s.fl.geom) t.pen.kind.oneBit
    (.member rid m) s
/-- Queue a rebuild: it occupies no die of its own (pseudo-channel 64), and reads W − PARITY members, or d of a Paddock Pen (R210). -/
def queueRecon (id o q path : Nat) (t : Target) (s : State) : State :=
  let rid := s.fl.nextOp
  let ms := ((List.range t.pen.mem.length).filter (fun m => !t.pen.away t.m [] s m)).take (t.pen.mem.length - t.pen.parity)
  let op : AOp := ⟨rid, 64, 0, 2, .read, 0, t.wl, t.pen.kind.oneBit, 0, .running, s.tm.elapsed, 0, s.tm.elapsed, false, true, false, 0,
    (0, 0, 0, 0), .recon id o q path ms []⟩
  ms.foldl (fun s m => queueMember rid t m s) { s with fl := { s.fl with ops := s.fl.ops ++ [op], nextOp := rid + 1 } }

/-- The back-pointer of a codeword (Table 7.2): OWNER, then POS. -/
def backPtr (o q : Nat) : List Nat :=
  if o = convOwner then h2 (q / 8 + 2 ^ 31) ++ h2 (q / 2 % 4) else h2 o ++ h2 q
/-- A codeword is not recovered: 0x5010, counted as a media error (R205, R452). -/
def unrecovered (pen die o q : Nat) (s : State) : State :=
  raise 0x5010 2 [h2 pen, h1 die, backPtr o q] { s with zn := { s.zn with mediaErr := s.zn.mediaErr + 1 } }

/-- Read a codeword for a reader: a read of its die in the reader's class, or a rebuild where its die cannot be read; false where neither
is possible. A rebuild for a member that is missing is ladder step 3, on the path of a die that is not busy (log 84). -/
def readTarget (id o q : Nat) (t : Target) (s : State) : Bool × State :=
  let e := t.place s
  if !e.2.2 then
    (true, queueRead e.1 e.2.1 (readClass id) t.wl (pageIn t.pen.kind.oneBit t.cw s.fl.geom) t.pen.kind.oneBit (.host id o q) s)
  else if rebuildable t [] s then (true, queueRecon id o q 2 t s)
  else (false, s)
/-- Start reading a stored piece for a reader. -/
def startRead (id o q : Nat) (p : Piece) (s : State) : Bool × State :=
  match targetOf id o q s with
  | none => (false, unrecovered p.pen 0 o q s)
  | some t =>
    let r := readTarget id o q t s
    if r.1 then r else (false, unrecovered t.pid (dieArg (t.place s).1) o q s)

/-- A read of a reader is under way for a codeword. -/
def readGoing (id o q : Nat) (s : State) : Bool :=
  s.fl.ops.any (fun x => match x.work with
    | .host i a b => i == id && a == o && b == q
    | .recon i a b _ _ _ => i == id && a == o && b == q
    | _ => false)

/-! ## Where a position's content stands (R233, R236) -/

/-- What a reader finds at a 2 KiB position. -/
inductive UView where
  | zero | wait | bad
  | ready (q : Nat) (p : Piece)
  | media (q : Nat) (p : Piece)

/-- The view of a position: zeros past the written data or in an unmapped unit, staging, data the media have answered, data still on
the media, or data that is not staged yet. A codeword with UNREAD set is read, and holds no valid data (R118). With FUA in-flight writes
are waited for. -/
def unitView (o u : Nat) (fua : Bool) (got : List Nat) (s : State) : UView :=
  let past := match zoneAt? o s with | some z => decide (z.wp ≤ u) | none => false
  let conv := o == convOwner
  if !conv && past then .zero
  else if fua && s.zn.wrs.any (fun w => w.covers o u) then .wait
  else
    -- a lost conventional unit reads as lost on whatever member its data lies, until it is written again (R161)
    let lost := conv && (match Tbl.get? s.zn.cmap (u / 8) with | some e => e.lost | none => false)
    match contentAt o u fua s with
    | none => if lost then .bad else if conv then .zero else .bad
    | some none => .wait
    | some (some (q, p, fromStage)) =>
      if lost && !fromStage then .bad
      else if fromStage || got.contains q then (if p.unread then .bad else .ready q p)
      else if p.unread && (penOf? p.pen s).isNone then .bad
      else .media q p

/-- The zero block of R120 for a namespace: metadata bytes 0xFF. -/
def fillBlk (md : Nat) : Blk := ⟨zeroBytes 4096, List.replicate md 0xFF⟩

/-- The positions a part takes. -/
def RPart.units (p : RPart) : List Nat := if p.kind = 0 then [p.pos, p.pos + 1] else [p.pos]

/-! ### Stored blocks of a compressed zone (R279 to R281) -/

/-- The stored blocks a walk of `n` blocks meets from a unit on, up to the zone's end. None while a block of it is not staged. -/
def hhWalk (z wp cap : Nat) (fua : Bool) : Nat → Nat → State → Option (List RPart)
  | 0, _, _ => some []
  | n + 1, u, s =>
    if cap ≤ u then some []
    else if wp ≤ u then (hhWalk z wp cap fua n (u + 1) s).map (fun l => ⟨z, u, 3, none, 0, []⟩ :: l)
    else if fua && s.zn.wrs.any (fun w => w.covers z u) then none
    else match contentAt z u fua s with
      | some none => none
      | none => (hhWalk z wp cap fua n (u + 1) s).map (fun l => ⟨z, u, 1, none, stUnrec, []⟩ :: l)
      | some (some (q, p, _)) =>
        if q < u then (hhWalk z wp cap fua n (u + 1) s).map (fun l => ⟨z, u, 4, none, 0, []⟩ :: l)
        else
          let w := if p.units = 2 then 2 else 1
          (hhWalk z wp cap fua n (u + w) s).map (fun l => ⟨z, u, if p.half then 1 else 2, none, 0, []⟩ :: l)

/-- A Gather element of a compressed zone is one stored block, found when its unit is staged (kind 5 until then) (R259, R280). -/
def resolvePart (fua : Bool) (p : RPart) (s : State) : RPart :=
  if p.kind = 5 ∧ p.st = 0 then
    match zoneAt? p.owner s with
    | some q => match hhWalk p.owner q.wp (2 ^ 40) fua 1 p.pos s with
      | some (x :: _) => x
      | _ => p
    | none => p
  else p

/-- A part's codeword is lost: 2h/0x81, and a stored block's size stays unknown (R281). -/
def RPart.lose (p : RPart) : RPart := { p with st := stUnrec, kind := if p.kind = 0 then 0 else 6 }

/-- Try to fill one part of a reader: start the media reads it lacks, or set its bytes, or its status. -/
def fillPart (id : Nat) (fua : Bool) (md : Nat) (p0 : RPart) (s : State) : RPart × State :=
  let p := resolvePart fua p0 s
  if p.blk.isSome || p.st != 0 || p.kind == 5 then (p, s)
  else if p.kind = 3 then ({ p with blk := some (fillBlk md) }, s)
  else
    let vs := p.units.map (fun u => (u, unitView p.owner u fua p.got s))
    if vs.any (fun v => match v.2 with | .wait => true | _ => false) then (p, s)
    else if vs.any (fun v => match v.2 with | .bad => true | _ => false) then ({ p with st := stUnrec }, s)
    else
      let ms := (vs.filterMap (fun v => match v.2 with | .media q x => some (q, x) | _ => none)).dedup
      if ms.isEmpty && p.kind == 4 then ({ p with st := 0x784 }, s)
      else if ms.isEmpty then
        let part := fun (v : Nat × UView) => match v.2 with
          | .ready q x => sliceB (openPiece p.owner (q, x) s).data ((v.1 - q) * 2048) 2048
          | _ => zeroBytes 2048
        let whole := vs.findSome? (fun v => match v.2 with
          | .ready q x => if q = p.pos && (x.units = 2 || p.kind = 1) then some (openPiece p.owner (q, x) s) else none
          | _ => none)
        let b := match whole with
          | some b => b
          | none => if vs.all (fun v => match v.2 with | .zero => true | _ => false) then fillBlk md else ⟨vs.flatMap part, List.replicate md 0xFF⟩
        ({ p with blk := some b }, s)
      else
        ms.foldl (fun (a : RPart × State) m =>
          if readGoing id p.owner m.1 a.2 then a
          else
            let r := startRead id p.owner m.1 m.2 a.2
            (if r.1 then a.1 else a.1.lose, r.2)) (p, s)

/-- Fill what can be filled of a reader's parts. -/
def fillRd (id md : Nat) (rd : Rd) (s : State) : Rd × State :=
  let r := rd.parts.foldl (fun (a : List RPart × State) p =>
    let f := fillPart id rd.fua md p a.2
    (a.1 ++ [f.1], f.2)) ([], s)
  ({ rd with parts := r.1, rpath := if rd.rpath = 0 ∧ r.1.any (fun p => p.blk.isSome || p.st != 0) then 1 else rd.rpath }, r.2)

/-- Every part has its bytes or a status. -/
def Rd.complete (r : Rd) : Bool := r.parts.all (fun p => p.blk.isSome || p.st != 0)

/-! ## Beginning a read -/

/-- A logical block of a namespace: owner and position. -/
def blockAt (n : Ns) (lba : Nat) : Nat × Nat :=
  if n.conv then (convOwner, 2 * lba)
  else match zoneOfN n lba with | some (z, off) => (z, 2 * off) | none => (convOwner, 2 * lba)
where
  /-- The zone that holds an LBA. -/
  zoneOfN (n : Ns) (lba : Nat) : Option (Nat × Nat) := (n.zones[lba / 2 ^ 20]?).map (fun z => (z, lba % 2 ^ 20))

/-- The zones an LBA range of a namespace touches. -/
def zonesOf (n : Ns) (lba cnt : Nat) : List Nat :=
  if n.conv ∨ cnt = 0 then []
  else ((List.range ((lba + cnt - 1) / 2 ^ 20 + 1 - lba / 2 ^ 20)).filterMap (fun i => n.zones[lba / 2 ^ 20 + i]?))

/-- The parts of sealed units beyond the blocks asked for: every unit touched is read whole (R303). -/
def sealParts (ps : List RPart) (s : State) : List RPart :=
  let us := (ps.filterMap (fun p => match zoneAt? p.owner s with
    | some q => if q.sealF && p.owner != convOwner && decide (p.pos < q.wp) then some (p.owner, p.pos / 32) else none
    | none => none)).dedup
  us.flatMap (fun u =>
    let wp := match zoneAt? u.1 s with | some q => q.wp | none => 0
    ((List.range 16).map (fun i => u.2 * 32 + 2 * i)).filterMap (fun pos =>
      if pos < wp && !(ps.any (fun p => p.owner == u.1 && p.pos == pos)) then some ⟨u.1, pos, 0, none, 0, []⟩ else none))

/-- A range of LBAs reaches past the write pointer of the zone an LBA lies in: where an append to it can land. -/
def reachesWp (n : Ns) (at_ lba cnt : Nat) (s : State) : Bool :=
  let zi := at_ / 2 ^ 20
  let wp := match n.zones[zi]?.bind (fun z => zoneAt? z s) with | some q => q.wp / 2 | none => 0
  decide (lba < (zi + 1) * 2 ^ 20 ∧ zi * 2 ^ 20 + wp < lba + cnt)

/-- An earlier fetched write that has not passed its checks overlaps the range (R233): by LBA; an append by what lies past its zone's write
pointer. A Half-hitch Append repeats its checks at its acceptance, so it counts until then (R277; log 46). -/
def blockedByFetched (k : Ctx) (n : Ns) (lba cnt : Nat) (s : State) : Bool :=
  s.q.ctxs.any (fun x =>
    decide (x.seq < k.seq) && (x.wait == .fetched || x.wait == .halfHitch) && x.cmd.nsid == k.cmd.nsid && x.cmd.sqid != 0 && isWriteOpc x.cmd.opc &&
      (if x.cmd.opc = 0x7D ∨ x.cmd.opc = 0x8D then !n.conv && reachesWp n (slbaOf x.cmd) lba cnt s
       else decide (slbaOf x.cmd < lba + cnt ∧ lba < slbaOf x.cmd + nblocks x.cmd)))

/-- One sealed zone of those named whose key is refused. -/
def sealedOut (zs : List Nat) (s : State) : Option Nat :=
  zs.find? (fun z => match zoneAt? z s with | some q => sealDenied z q s | none => false)

/-- The status the zones of a range give before any read: Offline (R120). -/
def offlineIn (zs : List Nat) (s : State) : Bool :=
  zs.any (fun z => match zoneAt? z s with | some q => q.st == .offline | none => false)

/-! ## Statuses of what was read -/

/-- Bytes the spec leaves unspecified: those of a block that failed. -/
def freeBytes (n k : Nat) : List Byte := (List.range n).map (fun i => Config.freeByte (k * 65536 + i))

/-- The seal units a list of parts touches. -/
def sealUnits (ps : List RPart) (s : State) : List (Nat × Nat) :=
  (ps.filterMap (fun p => match zoneAt? p.owner s with
    | some q => if q.sealF && p.owner != convOwner then some (p.owner, p.pos / 32) else none
    | none => none)).dedup

/-- The checks of the units a command touched, each with its code of `sealCheck`; an unfilled unit of which only zeros past the data were
asked for counts as read past the tagged units (Table 11.4). -/
def sealCodes (ps : List RPart) (s : State) : List ((Nat × Nat) × Nat) :=
  (sealUnits ps s).map (fun u => (u, match zoneAt? u.1 s with
    | some q =>
      let c := sealCheck u.1 u.2 q s
      if c = 2 ∧ !(ps.any (fun p => p.owner == u.1 && p.pos / 32 == u.2 && p.kind != 3 && decide (p.pos < q.wp))) then 3 else c
    | none => 3))

/-- The SEAL detail code of checked units: the first that applies of Table 11.4. -/
def sealDetail (cs : List ((Nat × Nat) × Nat)) : Nat :=
  if cs.isEmpty then 0 else if cs.any (·.2 == 4) then 4 else if cs.any (·.2 == 2) then 2 else if cs.any (·.2 == 3) then 3 else 1

/-- Record the units that mismatched: KEY_SEAL_FAIL and 0x8010 (R303). -/
def sealFailures (f : Nat) (cs : List ((Nat × Nat) × Nat)) (s : State) : State :=
  (cs.filter (·.2 == 4)).foldl (fun s c =>
    raise 0x8010 2 [h2 c.1.1, h2 c.1.2, h1 f] { s with ci := { s.ci with sealFail := satAdd 64 s.ci.sealFail 1 } }) s

/-- The status of a block read for a Read: what it met, then protection information from media (R311). -/
def readStatus (c : Cmd) (n : Ns) (i : Nat) (p : RPart) : Nat × Option Nat :=
  if p.st ≠ 0 then (p.st, none)
  else match p.blk with
    | none => (0, none)
    | some b =>
      if !p.got.isEmpty && piGuardBad n b then (if bit (prinfoOf c) 2 then 0x282 else stUnrec, some 0)
      else match piCheck c n i b with
        | some e => (512 + e.1, some e.2)
        | none => (0, none)

/-- A block whose stored guard fails, in a read that does not check it, counts as an unrecovered codeword (R311, R205). -/
def guardLost (p : RPart) (s : State) : State :=
  match targetOf 0 p.owner p.pos s with
  | some t => unrecovered t.pid (dieArg (t.place s).1) p.owner p.pos s
  | none => s

/-- The failed check value of one block of a Read is recorded, its lost guard too (R310, R311). -/
def piNote (f lba : Nat) (r : Nat × Option Nat) (p : RPart) (s : State) : State :=
  match r.2 with
  | some kind => if r.1 = stUnrec then guardLost p (piRecord f lba kind s) else piRecord f lba kind s
  | none => s

/-- A Read ends: its blocks, its metadata, its first status; a ladder status ranks above a seal status (R303). -/
def finishRead (k : Ctx) (s : State) : State :=
  match nsAt? k.cmd.nsid s with
  | none => fin k 0 0x0B s
  | some n =>
    let rd := k.rd
    let ask := rd.parts.take rd.n
    let sts := ask.mapIdx (fun i p => readStatus k.cmd n i p)
    let st := ((sts.map (·.1)) ++ (rd.parts.drop rd.n).map (·.st)).find? (· != 0)
    let cs := sealCodes ask s
    let s1 := ((sts.zip ask).zipIdx).foldl (fun s e => piNote k.cmd.fn (rd.slba + e.2) e.1.1 e.1.2 s) s
    let s2 := tick (sealFailures k.cmd.fn cs s1)
    let strip := bit (prinfoOf k.cmd) 3 && n.piType != 0 && mdLen n.lbaf == n.piLen
    let data := ask.flatMap (fun p => match p.blk with | some b => b.data | none => freeBytes 4096 s.free)
    let md := if strip then [] else ask.flatMap (fun p => match p.blk with | some b => padTo (mdLen n.lbaf) b.md | none => freeBytes (mdLen n.lbaf) s.free)
    let k1 := { k with sealF := sealDetail cs, data := data }
    match st with
    | some e => postFull k1 (e / 256) (e % 256) 0 0 (data ++ md) s2
    | none => if cs.any (·.2 == 4) then postFull k1 7 0x81 0 0 (data ++ md) s2 else okData k1 (data ++ md) s2

/-! ## The Half-hitch walk (R279 to R281) -/

/-- A block of a walk as delivered: 4,096 bytes, its status, its decode error cause, whether spilled, decoded, zero. -/
def hhBlock (p : RPart) (free : Nat) : List Byte × Nat × Option Nat :=
  match p.kind, p.blk with
  | 4, _ => if p.st = stUnrec then (freeBytes 4096 free, stUnrec, none) else (freeBytes 4096 free, 0x784, some 9)
  | 1, some b => match hhDecode b.data with
    | .ok d => (d, 0, none)
    | .error e => (freeBytes 4096 free, 0x784, some e)
  | _, some b => (padTo 4096 b.data, 0, none)
  | _, none => (freeBytes 4096 free, p.st, none)

/-- HH detail of the blocks walked (R289). -/
def hhDetail (ps : List RPart) : Nat :=
  b2n (ps.any (fun p => p.kind == 2 && p.blk.isSome)) + 2 * b2n (ps.any (fun p => p.kind == 1 && p.blk.isSome)) + 4 * b2n (ps.any (fun p => p.kind == 3))

/-- A Half-hitch Read ends (R279, R281). -/
def finishHhRead (k : Ctx) (s : State) : State :=
  let rd := k.rd
  let all := rd.parts.filter (fun p => p.kind != 0)
  let reach := all.takeWhile (fun p => p.kind != 6)
  let ended := decide (reach.length < all.length)
  let cs := sealCodes (all.take (reach.length + 1)) s
  let bad := cs.filter (·.2 == 4)
  let one := fun (p : RPart) =>
    let b := hhBlock p s.free
    let mis := bad.any (fun c => c.1.1 == p.owner && (c.1.2 == p.pos / 32 || (p.kind == 2 && c.1.2 == (p.pos + 1) / 32)))
    (b.1, if mis then 0x781 else b.2.1, b.2.2)
  let rs := reach.map one
  let first := (rs.map (·.2.1)).find? (· != 0)
  let units := sumN (reach.map (fun p => if p.kind = 2 then 2 else 1)) + b2n ended
  let spills := (reach.filter (fun p => p.kind == 2)).length
  let extra := ((rd.parts.filter (fun p => p.kind == 0)).map (·.st)).find? (· != 0)
  let st := match first with
    | some e => if e = 0x781 && extra.isSome then stUnrec else e
    | none => if ended || extra.isSome then stUnrec else if all.length < rd.n then 0x1B8 else 0
  let s1 := (reach.zip rs).foldl (fun s e => match e.2.2.2 with
    | some c => raise 0x5060 1 [h1 k.cmd.nsid, h4 (2 * rd.slba + e.1.pos), h1 c] s
    | none => s) s
  let s2 := tick (sealFailures k.cmd.fn cs s1)
  let data := rs.flatMap (·.1) ++ freeBytes (4096 * (rd.n - rs.length)) (s.free + 1)
  postFull { k with hh := hhDetail reach, sealF := sealDetail cs, data := data } (st / 256) (st % 256) (units + 65536 * spills) 0 data s2

/-! ## The end of Seal Zone (R305) -/

/-- A Seal Zone whose zone's data and tags are durable ends with its record: ZONE_TAG over the unit tags. `k.data` holds the record's
other fields, `k.dw0` UNITS and, in bit 32, that the zone was not sealed before. Where the zone has been reset since, the spec names
no tag: free bytes. -/
def finishSeal (z : Nat) (k : Ctx) (s : State) : State :=
  if s.zn.wrs.any (fun w => w.owner == z) then s
  else
    let units := k.dw0 % 2 ^ 32
    let tag := match zoneAt? z s with
      | some q =>
        if q.sealed && q.gen % 2 ^ 32 == numAt k.data 4 4 then
          zoneTag (zoneMac z q s) z (q.gen % 2 ^ 32) units ((List.range units).map (fun u => Tbl.getD q.tags u (freeBytes 16 s.free)))
        else freeBytes 16 s.free
      | none => freeBytes 16 s.free
    let s1 := if bit k.dw0 32 then raise 0x8020 0 [h2 z, h2 units] s else s
    postFull k 0 0 units 0 (k.data.take 32 ++ tag ++ k.data.drop 48) (tick s1)

/-! ## Gather channels fenced (R262) -/

/-- Bytes a reader has taken and not delivered. -/
def Rd.held (r : Rd) : Nat := sumN (r.parts.map (fun p => match p.blk with | some b => b.data.length | _ => 0))

/-- A reset or a flush reaches the Gather Reads of a function that hold channels: the channels are freed, no completion is posted, 0x7020
gives the channels and the bytes discarded. -/
def fenceGather (f : Nat) (s : State) : State :=
  let mine := s.ga.chs.filterMap (fun c => match ctxAt c.2.seq s with | some k => if k.cmd.fn = f then some (c.1, k) else none | none => none)
  if mine.isEmpty then s
  else
    let gone := mine.map (·.1)
    let s1 := raise 0x7020 1 [h1 f, h2 mine.length, h2 (sumN (mine.map (fun c => c.2.rd.held)))] s
    { s1 with ga := { s1.ga with chs := s1.ga.chs.filter (fun c => !gone.contains c.1), lanes := s1.ga.lanes.filter (fun l => !gone.contains l.1),
                                 laneWait := s1.ga.laneWait.filter (fun l => !gone.contains l) },
              q := { s1.q with ctxs := s1.q.ctxs.filter (fun k => !mine.any (fun m => m.2.seq == k.seq)) } }

/-! ## The Currycomb's reads (R216, R218) -/

/-- Wordlines programmed of a Pen's member, on its block or the one it replaces; none on a block that is Erased or waits for its erase. -/
def progWls (p : Pen) (m : Nat) (s : State) : Nat :=
  let e := nth p.mem m (0, 8191, true)
  let b := bkOf e.1 e.2.1 s
  let own := if e.2.1 = 8191 then 0 else match b.st with | .erased => 0 | .pending => 0 | .full => wordlines s.fl.geom | _ => b.nextWl
  maxL (own :: (p.old.filter (fun o => o.1 == e.1)).map (·.2.2))
/-- The first member with a wordline programmed at or after one. -/
def combIn (p : Pen) : Nat → Nat → Nat → State → Option (Nat × Nat)
  | 0, _, _, _ => none
  | n + 1, m, wl, s => if wl < progWls p m s then some (m, wl) else combIn p n (m + 1) 0 s
/-- The first codeword at or after a place in a list of Pens by number. -/
def combPens (c : Nat × Nat × Nat × Nat) : List (Nat × Pen) → State → Option (Nat × Nat × Nat × Nat)
  | [], _ => none
  | (id, p) :: t, s =>
    let a := if id = c.1 then c.2 else (0, 0, 0)
    match combIn p (p.mem.length - a.1) a.1 a.2.1 s with
    | some (m, wl) => some (id, m, wl, if m = a.1 ∧ wl = a.2.1 then a.2.2 else 0)
    | none => combPens c t s
/-- The Pens a Yard pass or a Paddock pass reads from a Pen on: those that hold live data. -/
def combList (p : Pass) (s : State) : List (Nat × Pen) :=
  (s.pl.pens.filter (fun x => decide (p.cur.1 ≤ x.1) && (if p.scope = 3 then x.2.kind == .landing else x.2.yard == p.target)
    && !(livePieces x.1 s).isEmpty)).insertionSort (fun a b => a.1 ≤ b.1)
/-- The stored positions of a namespace range, as the namespace counts 2 KiB units, with owner and position. -/
def combNs (p : Pass) (s : State) : List (Nat × Nat × Nat) :=
  match nsAt? p.nsid s with
  | none => []
  | some n =>
    let l := if n.conv then (piecesOf convOwner s).map (fun e => (e.1, convOwner, e.1))
      else n.zones.zipIdx.flatMap (fun z => (piecesOf z.1 s).map (fun e => (z.2 * 2 ^ 21 + e.1, z.1, e.1)))
    l.filter (fun e => decide (max p.cur.1 (2 * p.slba) ≤ e.1 ∧ e.1 < 2 * (p.slba + p.nlb)) && (match pieceAt e.2.1 e.2.2 s with
      | some (_, x) => (penOf? x.pen s).isSome | none => false))
/-- The next codeword of a media pass: owner and position as its read names them, and the place after it. -/
def combNext (p : Pass) (s : State) : Option (Nat × Nat × (Nat × Nat × Nat × Nat)) :=
  if p.scope = 0 then
    match (combNs p s).foldl (fun (o : Option (Nat × Nat × Nat)) e => match o with
        | none => some e | some b => if e.1 < b.1 then some e else some b) none with
    | none => none
    | some e => match pieceAt e.2.1 e.2.2 s with
      | none => none
      | some (_, x) => (penOf? x.pen s).map (fun pn =>
        let l := slotLoc pn x.slot s.fl.geom
        (x.pen, combCode l.1 l.2 (x.slot % cwPerMember pn s.fl.geom), (e.1 + 1, 0, 0, 0)))
  else (combPens p.cur (combList p s) s).map (fun c =>
    let n := match penOf? c.1 s with | some pn => cwPerMember pn s.fl.geom | none => 1
    (c.1, combCode c.2.1 c.2.2.1 c.2.2.2, if c.2.2.2 + 1 < n then (c.1, c.2.1, c.2.2.1, c.2.2.2 + 1) else (c.1, c.2.1, c.2.2.1 + 1, 0)))
/-- The running pass, changed. -/
def updPass (g : Pass → Pass) (s : State) : State :=
  { s with ecc := { s.ecc with running := s.ecc.running.map g } }
/-- A codeword of the running pass has been read: counted (R217). -/
def combCount (g : Summary → Summary) (s : State) : State :=
  let ms := fun (p : Pass) => (s.tm.elapsed - p.begun.getD s.tm.elapsed) / 1000
  let t := updPass (fun p => { p with sum := g { p.sum with words := p.sum.words + 1, durMs := ms p } }) s
  { t with ecc := { t.ecc with progress := match t.ecc.running with | some p => p.sum.words | none => 0 } }
/-- The running media pass reads its next codeword: one at a time, as it stands when the pass reaches it (R218). -/
def combPump (s : State) : State :=
  match s.ecc.running with
  | none => s
  | some p =>
    if p.scope = 2 || !s.m.cur.isBase || s.fl.ops.any (fun o => o.isComb) then s
    else match combNext p s with
      | none => s
      | some (o, q, c) =>
        let s1 := updPass (fun p => { p with cur := c, begun := some (p.begun.getD s.tm.elapsed) }) s
        match targetOf combReader o q s1 with
        | none => s1
        | some t =>
          let r := readTarget combReader o q t s1
          if r.1 then r.2
          else
            let l := Tbl.put s1.ecc.ladder 7 (satAdd 64 (Tbl.getD s1.ecc.ladder 7 0) 1)
            combCount (fun x => { x with uncorr := x.uncorr + 1 }) { s1 with ecc := { s1.ecc with ladder := l } }

/-! ## Pumping: readers that wait are tried again -/

/-- A table line a read touches is being rebuilt (R214): the map entry of a conventional unit from `u0` to `u1`; for a zoned namespace any line
of region 2, whose layout the spec does not give (DESIGN CHOICE, log 87). -/
def tableWaits (n : Ns) (u0 u1 : Nat) (s : State) : Bool :=
  if s.ecc.rebuild.isEmpty then false
  else if n.conv then ((List.range (u1 - u0)).map (· + u0)).any (fun u => mapWaits u s)
  else s.ecc.rebuild.any (fun r => r.2.1 == 2)

/-- Begin a Read when nothing fetched before it still has to pass its checks: its parts (R233). -/
def beginRead (k : Ctx) (s : State) : Option Rd :=
  match nsAt? k.cmd.nsid s with
  | none => none
  | some n =>
    let lba := slbaOf k.cmd
    let cnt := nblocks k.cmd
    if blockedByFetched k n lba cnt s || tableWaits n (lba / 4) (ceilDiv (lba + cnt) 4) s then none
    else
      let ask := (List.range cnt).map (fun i => let b := blockAt n (lba + i); (⟨b.1, b.2, 0, none, 0, []⟩ : RPart))
      some ⟨lba, cnt, fuaOf k.cmd, ask ++ sealParts ask s, 0, 0⟩

/-- A Read that begins reads the map words of the conventional units it touches (R29, R213). -/
def readMap (k : Ctx) (s : State) : State :=
  match beginRead k s, nsAt? k.cmd.nsid s with
  | some rd, some n => if n.conv then ((List.range (ceilDiv (rd.slba + rd.n) 4 - rd.slba / 4)).map (· + rd.slba / 4)).foldl (fun s u => mapRead u s) s else s
  | _, _ => s

/-- Begin a Half-hitch Read: HALF_WP is read here, once (R279). -/
def beginHh (k : Ctx) (s : State) : Option Rd :=
  match nsAt? k.cmd.nsid s with
  | none => none
  | some n =>
    let h := slbaOf k.cmd
    let zi := h / 2 ^ 21
    match n.zones[zi]? with
    | none => none
    | some z => match zoneAt? z s with
      | none => none
      | some q =>
        if blockedByFetched k n (h / 2) (nblocks k.cmd + 1) s || tableWaits n 0 0 s then none
        else (hhWalk z q.wp (2 * zcapLbas s.fl.geom) (fuaOf k.cmd) (nblocks k.cmd) (h % 2 ^ 21) s).map (fun l =>
          ⟨zi * 2 ^ 20, nblocks k.cmd, fuaOf k.cmd, l ++ sealParts l s, 0, 0⟩)

/-- A reader is dispatched (Table 8.8): a block of it is taken, or a codeword read of it is queued. -/
def readBegun (q : Nat) (rd : Rd) (s : State) : Bool :=
  rd.parts.any (fun p => p.blk.isSome || p.st != 0)
    || s.fl.ops.any (fun o => match o.work with | .host i _ _ => i == q | .recon i _ _ _ _ _ => i == q | _ => false)

/-- Try one waiting context again. -/
def pumpCtx (q : Nat) (s : State) : State :=
  match ctxAt q s with
  | none => s
  | some k =>
    let md := match nsAt? k.cmd.nsid s with | some n => mdLen n.lbaf | none => 0
    let go := fun (begin_ : Option Rd) (started : Bool) (fin_ : Ctx → State → State) (w : Wait) (s : State) =>
      match (if started then some k.rd else begin_) with
      | none => s
      | some rd =>
        let r := fillRd q md rd s
        let k1 := { k with rd := r.1, wait := w, dispatched := k.dispatched || readBegun q r.1 r.2 }
        if r.1.complete then fin_ k1 (putCtx k1 r.2) else putCtx k1 r.2
    match k.wait with
    | .read n =>
      let t := if n = 1 then s else readMap k s
      go (beginRead k t) (n == 1) finishRead (.read 1) t
    | .hhRead => go (beginHh k s) (!k.rd.parts.isEmpty) finishHhRead .hhRead s
    | .gather _ =>
      let r := fillRd q md k.rd s
      putCtx { k with rd := r.1 } r.2
    | .sealZ z => finishSeal z k s
    | _ => s

/-- Internal work of a fenced context goes on: its codeword reads, its write, its scrub (R231, R240). -/
def workLeft (q : Nat) (s : State) : Bool :=
  s.fl.ops.any (fun o => match o.work with | .host i _ _ => i == q | .recon i _ _ _ _ _ => i == q | _ => false)
    || s.zn.wrs.any (fun w => w.seq == q) || s.zn.scrubs.any (fun c => c.ctx == some q) || s.q.fw.commit.any (fun c => c.1 == q)
    || (match s.q.fw.act with | some a => a.1 == q | none => false)

/-- Contexts held for internal work after a reset return when it has ended (R231). -/
def freeFenced (s : State) : State :=
  { s with q := { s.q with ctxs := s.q.ctxs.filter (fun k => !(k.wait == .fenced && !workLeft k.seq s)) } }

/-- Try every waiting reader again, in fetch order; maintenance channels in GATHER after them. -/
def pumpReads (s : State) : State :=
  let s := freeFenced s
  let s1 := if s.m.cur == .emergencyFlush || s.m.cur == .halted then s
    else ((s.q.ctxs.filter (fun k => match k.wait with | .read _ => true | .hhRead => true | .gather _ => true | .sealZ _ => true | _ => false)).map (·.seq)).foldl
      (fun s q => pumpCtx q s) s
  (s1.ga.gdc.filter (fun c => decide (1 ≤ c.2.state ∧ c.2.state ≤ 3) && c.2.mode == 1)).foldl (fun s c =>
    let r := fillRd (gdcReader c.1) 0 (gdcAt c.1 s).rd s
    updRd (gdcReader c.1) (fun _ => r.1) r.2) s1

/-- How the meanings that move data end: what waits for staging or durability is tried again first. -/
def doneIo (s : State) : Out := done (landWatch (resumeIdle (combPump (pumpReads s))))

end Sys2Proof.Machine
end

