-- ==== Sys2Proof/Machine/Gate.lean ====
section
/-! DEFINITION. What stands before every command's own checks: which functions may send it, reserved command forms, what SANITIZE
and sanitize failure mode refuse, namespaces, permissions (R226, R227, R126, R320). -/

namespace Sys2Proof.Machine
open Sys2Proof

/-- A command a function may not send, or of a form R226 excludes. -/
def gateForm (allowed : Bool) (k : Ctx) (s : State) (f : Ctx → State → State) : State :=
  if !allowed then fin k 0 0x01 s
  else if k.cmd.fuse ≠ 0 ∨ k.cmd.bitBucket then fin k 0 0x02 s
  else f k s

/-- An admin command. `san`: NVMe Sanitize allows it while a sanitize runs and in failure mode (PRESUMED list, log 8). -/
def gateAdmin (allowed san : Bool) (k : Ctx) (s : State) (f : Ctx → State → State) : State :=
  gateForm allowed k s (fun k s =>
    if !san && s.m.cur == .sanitize then fin k 0 0x1D s
    else if !san && s.zn.sanFail then fin k 0 0x1C s
    else f { k with dispatched := true } s)

/-- An I/O command: none runs in SANITIZE or in sanitize failure mode. -/
def gateIo (k : Ctx) (s : State) (f : Ctx → State → State) : State :=
  gateForm true k s (fun k s =>
    if s.m.cur == .sanitize then fin k 0 0x1D s
    else if s.zn.sanFail then fin k 0 0x1C s
    else f k s)

/-- A permission refuses the command: 2h/0x86 and 0x9012 (R320). -/
def denyPerm (k : Ctx) (s : State) : State := fin k 2 0x86 (raise 0x9012 1 [h1 k.cmd.fn, h1 k.cmd.opc] s)

/-- The namespace of an I/O command, attached to the function; 0h/0x0B otherwise. -/
def withNs (k : Ctx) (s : State) (f : Ns → State) : State :=
  match nsFor? k.cmd.fn k.cmd.nsid s with
  | some n => f n
  | none => fin k 0 0x0B s

/-- Check 1 of Tables 4.2 and 4.5 for a mode: 7h/0x86 in READ_ONLY (SPARES_OUT), 7h/0x82 while THM = 0b10, 0h/0x1D in SANITIZE
(R116, R392). -/
def modeStatus (s : State) : Option (Nat × Nat) :=
  if s.m.cur == .sanitize then some (0, 0x1D)
  else if s.m.sparesOut then some (7, 0x86)
  else if s.m.thm = 2 then some (7, 0x82)
  else none

/-- SLACK_REPORT. -/
def execSlackReport (c : Cmd) (s : State) : Out :=
  done (withCmd c s (fun k s => gateAdmin true false k s slackReportOn))

end Sys2Proof.Machine
end

