-- ==== Sys2Proof/Machine/ZoneOps.lean ====
section
/-! DEFINITION. The zone manager's operations: activation, acceptance, close, finish, reset, offline (Chapter 4). -/

namespace Sys2Proof.Machine
open Sys2Proof

/-- The zone of a namespace that holds an LBA: device zone number and the LBA's offset in it. -/
def zoneOfLba (n : Ns) (lba : Nat) : Option (Nat × Nat) := (n.zones[lba / 2 ^ 20]?).map (fun z => (z, lba % 2 ^ 20))

/-- ZSLBA of a zone. -/
def Zone.zslba (z : Zone) : Nat := z.idx * 2 ^ 20
/-- The descriptor's WP (R117, Table 4.7). -/
def Zone.wpLba (z : Zone) : Nat := z.zslba + z.wp / 2

/-- The Yard the device picks: among the mask's Yards the one with most reservable space, the lowest on a tie (R114). -/
def pickYard (mask : Nat) (s : State) : Option Nat :=
  ((List.range 64).filter (fun y => bit mask y && !(yardRows y s).isEmpty)).foldl
    (fun o y => match o with | none => some y | some x => if reservable x s < reservable y s then some y else some x) none

/-- The first `k` units of a run list. -/
def takeRuns : List (Nat × Nat × Nat) → Nat → List (Nat × Nat × Nat)
  | [], _ => []
  | (p, f, c) :: t, k => if k = 0 then [] else (p, f, min c k) :: takeRuns t (k - c)
/-- Give back the units of runs above the first `k`, the last run first: those at the end of a Pen's reserved units become unreserved again;
others are dead until relocation frees them (R107, R143). -/
def freeRuns : List (Nat × Nat × Nat) → Nat → State → State
  | [], _, s => s
  | (p, f, c) :: t, k, s =>
    let s1 := freeRuns t (k - c) s
    if k < c then updPen p (fun x => if x.next = f + c then { x with next := f + k } else x) s1 else s1
/-- Give back reserved units of a zone from unit `k` on. -/
def giveBack (runs : List (Nat × Nat × Nat)) (k : Nat) (s : State) : List (Nat × Nat × Nat) × State := (takeRuns runs k, freeRuns runs k s)

/-- Units of a zone up to its write pointer. -/
def unitsWritten (z : Zone) (s : State) : Nat := if unitPos s.fl.geom = 0 then 0 else ceilDiv z.wp (unitPos s.fl.geom)

/-- A zone becomes Full, by writing or by Finish: the unwritten reservation is released (R107, R125). Whether it still holds a reservation in
the sense of RES_HANDLE the spec does not say: the model's descriptor reads 0 (DESIGN CHOICE, log 79). -/
def makeFull (z : Nat) (s : State) : State :=
  match zoneAt? z s with
  | none => s
  | some q =>
    let r := giveBack q.runs (unitsWritten q s) s
    updZone z (fun q => { q with st := .full, runs := r.1, activeRes := false, actFn := 0xFFFF, resHandle := 0 }) r.2

/-- Post the completion of a write whose data a Reset discards: success with WPATH 0b000 (R121). -/
def finishDiscarded (id : Nat) (s : State) : State := postWrite id 0 false s

/-- Discard the writes in flight of a zone at a Reset: those wholly staged complete at once; those still transferring complete
when their transfer has ended (R121). -/
def discardZoneWrites (z : Nat) (s : State) : State :=
  (s.zn.wrs.filter (fun w => w.owner == z && !w.discarded)).foldl (fun s w =>
    if w.ready then wakeFlushes (discardWrite w.id (finishDiscarded w.id s))
    else
      let s1 := returnCharge w.id (w.chargeQ + w.chargeP) s
      updWr w.id (fun w => { w with discarded := true }) s1) s

/-- Drop the queued programs of a zone's units: their generation is gone (R157). -/
def dropUnitOps (z : Nat) (s : State) : State := dropUnits (fun o => match o.work with | .unit q _ _ _ => q == z | _ => false) s

/-- The Pens that hold, or are about to hold, copies of a zone: its pieces, its reservation, programs that run, both ends of moves (R123,
R157). -/
def copyPens (z : Nat) (q : Zone) (s : State) : List Nat :=
  let mine := fun (i : Nat) => match wrAt i s with | some w => w.owner == z | none => false
  ((piecesOf z s).map (fun e => e.2.pen) ++ q.runs.map (·.1)
    ++ s.fl.ops.filterMap (fun o => match o.work with
        | .land ps p _ => if ps.any (fun e => mine e.1) then some p else none
        | .unit x _ p _ => if x == z then some p else none
        | _ => none)
    ++ s.pl.moves.flatMap (fun m => (m.items.filter (fun i => i.owner == z)).flatMap (fun i => [i.pen, m.src]))).dedup

/-- Note dead copies of zones in Pens (R122, R123). -/
def addStale (l : List (Nat × Nat)) (s : State) : State := { s with zn := { s.zn with stale := (s.zn.stale ++ l).dedup } }

/-- Discard a zone: Empty, GEN up, reservation and attributes gone, data dead (R122). Units programmed, or in a program that runs, are dead
and not given back (R143). -/
def discardZone (z : Nat) (s : State) : State :=
  match zoneAt? z s with
  | none => s
  | some q =>
    let s1 := discardZoneWrites z (addStale ((copyPens z q s).map (fun p => (z, p))) s)
    let s2 := dropUnitOps z (dropPieces z (unbind z s1))
    let r := giveBack q.runs (unitsTaken z q s2) s2
    settleRows (updZone z (fun q => { q with
      st := .empty, zfc := false, wp := 0, activeRes := false, unread := false, sealed := false, comp := false,
      sealF := false, lclass := 0xF, keySlot := 0, actFn := 0xFFFF, resHandle := 0, gen := (q.gen + 1) % 2 ^ 48, runs := [], folded := 0, ahead := [],
      tags := [], sealKey := 0 }) r.2)

/-- Zone Reset of an Active or Full zone; an Empty one is left as it is (R122). -/
def resetZone (z : Nat) (s : State) : State :=
  match zoneAt? z s with
  | some q => if q.st = .empty then s else discardZone z s
  | none => s

/-- A zone goes Offline with its cause (R109, Table 15.8). -/
def makeOffline (z cause : Nat) (s : State) : State :=
  match zoneAt? z s with
  | none => s
  | some q =>
    if q.st = .offline then s
    else raise 0x3002 2 [h2 z, h1 cause]
      (updZone z (fun q => { q with st := .offline, activeRes := false, actFn := 0xFFFF, resHandle := 0, runs := [], folded := 0, ahead := [] }) s)

/-- Check 3 of Table 4.2: the open limit, with at most one implicit close (R113). -/
def openCheck (f : Nat) (s : State) : Option State :=
  if 8192 ≤ openAll s then none
  else
    let n := openCount f s
    let l := openLim f s
    if n < l then some s
    else if n = l then
      match (s.zn.zones.filter (fun p => p.2.st == .impOpen && p.2.actFn == f)).foldl
          (fun (o : Option (Nat × Zone)) p => match o with | none => some p | some q => if p.2.lastWr < q.2.lastWr then some p else some q) none with
      | some (z, _) => some (raise 0x3011 0 [h2 z, h1 f] (updZone z (fun q => { q with st := .closed }) s))
      | none => none
    else none

/-- The attributes an activation gives an Empty zone. -/
structure Attr where
  /-- Yard named, or 0xFF for the device's choice. -/
  yard : Nat
  lclass : Nat
  comp : Bool
  sealF : Bool
  slot : Nat

/-- The defaults of R115 for Open and writes. -/
def Attr.dflt : Attr := ⟨0xFF, 0xF, false, false, 0⟩

/-- The number of a new reservation record: the next that names no zone's record (R144). -/
def resNumber (s : State) : Nat :=
  let used := (s.zn.zones.map (fun z => z.2.resHandle % 2 ^ 26)).filter (· != 0)
  let n := firstFree used used.length s.zn.nextRes
  if n < 2 ^ 26 then n else firstFree used used.length 1

/-- Make a reservation for a zone in a Yard, counting the units it still holds (R68); on failure record 0x3010 names function and Yard, and the Yard's relocation priority
rises (check 5, R143). -/
def reserveFor (f z y lcl : Nat) (s : State) : Bool × State :=
  let held := match zoneAt? z s with | some q => q.runs | none => []
  let need := zoneUnits s.fl.geom - sumN (held.map (·.2.2))
  match (if 64 ≤ y then none else if need = 0 ∧ !held.isEmpty then some ([], s) else reserve y lcl need s) with
  | some (runs, s1) =>
    let n := resNumber s1
    let h := y * 2 ^ 26 + n
    let s2 := { s1 with zn := { s1.zn with nextRes := if n = 2 ^ 26 - 1 then 1 else n + 1 } }
    (true, updZone z (fun q => { q with runs := held ++ runs, activeRes := true, resHandle := h, yard := y }) s2)
  | none =>
    let s1 := raise 0x3010 1 [h1 f, h1 y] s
    (false, if y < 64 then updYard y (fun x => { x with relocPrio := true }) s1 else s1)

/-- The activation checks 3 to 5 of Table 4.2 and their effect: the zone enters `tgt` (R108, R110). The status of the first failing
check is returned with the state it leaves. -/
def activate (k : Ctx) (z : Nat) (a : Attr) (tgt : ZS) (s : State) : Option (Nat × Nat) × State :=
  match zoneAt? z s with
  | none => (some (0, 0x02), s)
  | some q =>
    let f := if q.st = .closed then q.actFn else k.cmd.fn
    match (if q.st.isOpen then some s else openCheck f s) with
    | none => (some (1, 0xBE), s)
    | some s1 =>
      if q.st = .empty then
        if activeLim f s1 ≤ activeCount f s1 ∨ 16384 ≤ activeAll s1 then (some (1, 0xBD), s1)
        else
          let y := if a.yard = 0xFF then (pickYard k.snap.yards s1).getD 0xFF
                   else if bit k.snap.yards a.yard then a.yard else 0xFF
          let r := reserveFor k.cmd.fn z y a.lclass s1
          if r.1 then
            (none, updZone z (fun q => { q with st := tgt, lclass := a.lclass, comp := a.comp, sealF := a.sealF, keySlot := a.slot,
                                                actFn := k.cmd.fn, lastFn := k.cmd.fn, actStamp := stampNow s }) r.2)
          else (some (7, 0x85), r.2)
      else if q.st = .closed ∧ !q.activeRes then
        let r := reserveFor k.cmd.fn z q.yard q.lclass s1
        if r.1 then (none, updZone z (fun q => { q with st := tgt }) r.2) else (some (7, 0x85), r.2)
      else (none, updZone z (fun q => { q with st := tgt }) s1)

/-- A Yard has no landing space (R150). -/
def noLandingSpace (y : Nat) (s : State) : Bool :=
  match (Tbl.get? s.pl.landing y).bind (fun id => penOf? id s) with
  | some p => decide (padSlots s.fl.geom ≤ p.next) && decide (freeLanding y s = 0)
  | none => decide (freeLanding y s = 0)

/-- Check 1 of Table 4.5 for a write to a Yard: with THM = 0b01 and no landing space, 7h/0x82 and 0x3042 (R150). -/
def writeModeStatus (y : Nat) (s : State) : Option (Nat × Nat) × State :=
  match modeStatus s with
  | some e => (some e, s)
  | none => if s.m.thm = 1 ∧ noLandingSpace y s then (some (7, 0x82), raise 0x3042 2 [h1 y] s) else (none, s)

/-- Take a write into flight at a position (check 8 of Table 4.5; a conventional write): its record, its first data staged. -/
def takeWrite (k : Ctx) (o pos len yard gen : Nat) (z : Option Zone) (fua : Bool) (blks : List Blk) (s : State) : Nat × State :=
  let id := s.zn.nextWr
  let wait := o != convOwner && noLandingSpace yard s
  let st := if wait then [] else (blks.take (min (len / 2) (stageRoom s))).mapIdx (fun i b => mkPiece o z id pos i b s)
  let w : Wr := ⟨id, k.cmd.fn, k.cmd.sqid, k.cmd.cid, k.seq, k.cmd.nsid, o, pos, len, yard, gen, fua, st, wait,
    decide (2 * st.length = len), if fua then .fua else .undecided, 0, 0, st.map (·.1), false, false⟩
  let s1 := if wait && !(yardOf yard s).noLanding then raise 0x3041 1 [h1 yard] (updYard yard (fun x => { x with noLanding := true }) s) else s
  (id, { s1 with zn := { s1.zn with nextWr := id + 1, wrs := s1.zn.wrs ++ [w] } })

/-- Accept a write to a zone: the write pointer advances, a zone filled to ZCAP becomes Full (check 8, R116, R107). -/
def acceptZone (z len : Nat) (s : State) : State :=
  let s1 := { s with zn := { s.zn with acc := s.zn.acc + 1 } }
  let s2 := updZone z (fun q => { q with wp := q.wp + len, lastWr := s1.zn.acc }) s1
  match zoneAt? z s2 with
  | some q => if 2 * zcapLbas s.fl.geom ≤ q.wp then makeFull z s2 else s2
  | none => s2

/-- The status of the zone's state for a write: Offline, then Full (check 4). -/
def stateStatus (q : Zone) : Option (Nat × Nat) :=
  if q.st = .offline then some (1, 0xBB) else if q.st = .full then some (1, 0xB9) else none

/-- Move an accepted write on: the check-value unit's verdict on its data, then the decision and placement (R28 steps 5 to 9). -/
def afterStage (k : Ctx) (n : Ns) (id lba : Nat) (blks : List Blk) (s : State) : State :=
  match wrAt id s with
  | none => s
  | some w =>
    match piWrite k.cmd n 0 blks with
    | some e => fin k 2 e.1 (piRecord k.cmd.fn (lba + e.2.2) e.2.1 (failWrite id s))
    | none =>
      let k := { k with wait := .write id, dispatched := true,
                        data := if k.cvus.isEmpty then [] else k.data ++ blks.flatMap (·.data) }
      let s1 := putCtx k s
      if w.ready then
        let s2 := sealAfter w.owner s1
        if w.fuaFlag then placeWrite id s2 else decideAll s2
      else s1

/-- Mark zone data: the kinds of write Table 4.5 treats. -/
inductive WKind where
  | write | zeroes | append
deriving DecidableEq

/-- Checks 1 to 8 of Table 4.5 for a Write, Write Zeroes or Zone Append to a zoned namespace. -/
def zoneWrite (kind : WKind) (n : Ns) (blks : List Blk) (k : Ctx) (s : State) : State :=
  let c := k.cmd
  let lba := slbaOf c
  let cnt := nblocks c
  if n.nsze ≤ lba ∨ (kind ≠ .append ∧ n.nsze < lba + cnt) then fin k 0 0x80 s
  else match zoneOfLba n lba with
    | none => fin k 0 0x80 s
    | some (z, off) =>
      match zoneAt? z s with
      | none => fin k 0 0x80 s
      | some q =>
        -- an Empty zone has no Yard yet: check 1 asks the one its activation would choose, which the spec does not say (DESIGN CHOICE, log 80)
        let m := writeModeStatus (if q.st = .empty then (pickYard k.snap.yards s).getD 64 else q.yard) s
        match m.1 with
        | some e => fin k e.1 e.2 m.2
        | none =>
          let s := m.2
          let at_ := if kind = .append then q.wp / 2 else off
          let inactive := kind == .append && (stateStatus q).isSome
          if kind = .append ∧ (off ≠ 0 ∨ 512 < cnt) then fin k 0 0x02 s
          else if !inactive && decide (zcapLbas s.fl.geom < at_ + cnt) then fin k 1 0xB8 s
          else match stateStatus q with
            | some e => fin k e.1 e.2 s
            | none =>
              if q.comp then fin k 1 0xBC s
              else if kind ≠ .append ∧ 2 * off ≠ q.wp then fin k 1 0xBC s
              else if sealDenied z q s then refuseSeal k z s
              else if piAppendBad c n then fin k 1 0x81 s
              else
                let r := if q.st.isOpen then (none, s) else activate k z Attr.dflt .impOpen s
                match r.1 with
                | some e => fin k e.1 e.2 r.2
                | none =>
                  let s := r.2
                  match zoneAt? z s with
                  | none => s
                  | some q =>
                    let alba := q.zslba + q.wp / 2
                    let t := takeWrite k z q.wp (2 * cnt) q.yard q.gen (some q) (fuaOf c) (blks.mapIdx (fun i b => piInsert c n alba i b)) s
                    let k := { k with sealF := if q.sealF then 6 else 0 }
                    afterStage { k with dw0 := if kind = .append then alba else 0 } n t.1 alba blks (acceptZone z (2 * cnt) t.2)

/-- Take positions of the conventional namespace out of writes in flight: a later Deallocate or unmapping Write Zeroes has removed them
(R86, R234). -/
def supersede (lo hi : Nat) (s : State) : State := supersedeBy (fun _ => true) lo hi s

/-- Unmap a conventional unit: it reads as zeros (R134). -/
def unmapUnit (u : Nat) (s : State) : State :=
  let s0 := keepOld u (supersede (8 * u) (8 * u + 8) s)
  let s1 := if (Tbl.get? s0.zn.cmap u).isSome then delMap u s0 else s0
  { s1 with zn := { s1.zn with
      store := Tbl.upd s1.zn.store convOwner (fun t => t.filter (fun e => e.1 / 8 != u)) } }

/-- Units a range of LBAs covers whole, and the LBAs of it outside them (R134). -/
def wholeUnits (lba cnt : Nat) : List Nat :=
  (List.range ((lba + cnt) / 4 - ceilDiv lba 4)).map (· + ceilDiv lba 4)

/-- A zero block of a namespace: its metadata zero, its protection information all ones until PRACT generates it (log 5). -/
def zeroBlk (n : Ns) : Blk :=
  let md := zeroBytes (mdLen n.lbaf)
  ⟨zeroBytes 4096, if n.piType = 0 then md else md.take n.piOff ++ List.replicate n.piLen 0xFF ++ md.drop (n.piOff + n.piLen)⟩
/-- Zero blocks. -/
def zeroBlks (c : Nat) (n : Ns) : List Blk := List.replicate c (zeroBlk n)

/-- A write to the conventional namespace (R131, R132, R134): checked for mode and thermal state, accepted, staged. -/
def convWrite (kind : WKind) (n : Ns) (blks : List Blk) (k : Ctx) (s : State) : State :=
  let c := k.cmd
  let lba := slbaOf c
  let cnt := nblocks c
  if n.nsze < lba + cnt then fin k 0 0x80 s
  else match modeStatus s with
    | some e => fin k e.1 e.2 s
    | none =>
      if kind = .append then fin k 0 0x01 s
      else if kind = .zeroes ∧ deacOf c then
        let us := wholeUnits lba cnt
        let s1 := us.foldl (fun s u => unmapUnit u s) s
        let rest := ((List.range cnt).map (· + lba)).filter (fun l => !us.contains (l / 4))
        if rest.isEmpty then ok k s1
        else
          let t := takeWrite k convOwner (2 * rest.headD 0) (2 * cnt) 0 0 none (fuaOf c) [] s1
          let st := rest.map (fun l => mkPiece convOwner none t.1 (2 * l) 0 (piInsert c n lba (l - lba) (zeroBlk n)) s)
          let s2 := updWr t.1 (fun w => { w with pos := 2 * lba, staged := st, left := st.map (·.1), ready := true }) t.2
          afterStage k n t.1 lba [] s2
      else
        let t := takeWrite k convOwner (2 * lba) (2 * cnt) 0 0 none (fuaOf c) (blks.mapIdx (fun i b => piInsert c n lba i b)) s
        afterStage k n t.1 lba blks t.2

end Sys2Proof.Machine
end

