-- ==== Sys2Proof/Machine/Zones.lean ====
section
/-! DEFINITION. The meanings of the zone, namespace, write, flush, sanitize and format commands (Chapter 4). -/

namespace Sys2Proof.Machine
open Sys2Proof

/-! ## Namespaces (R102, R103, R130, R226) -/

/-- The free device zone numbers, lowest first. -/
def freeZones (s : State) : List Nat := (List.range s.part.zones).filter (fun z => (zoneAt? z s).isNone)

/-- A new zone of a namespace; its generation goes on from where the device zone number's last one ended (Table 4.7). -/
def Zone.fresh (nsid idx gen : Nat) : Zone where
  nsid := nsid
  idx := idx
  st := .empty
  zfc := false
  wp := 0
  yard := 0
  lclass := 0xF
  comp := false
  sealF := false
  activeRes := false
  keySlot := 0
  scrubPend := false
  unread := false
  sealed := false
  actFn := 0xFFFF
  actStamp := 0
  resHandle := 0
  gen := gen
  lastWr := 0
  runs := []
  folded := 0
  ahead := []
  tags := []
  sealKey := 0
  lastFn := 0xFFFF

/-- The lowest namespace identifier not in use. -/
def freeNsid (s : State) : Option Nat := ((List.range 128).map (· + 1)).find? (fun n => (nsAt? n s).isNone)

/-- Form the Pens of the conventional region in Yard 0: all or none (R130). -/
def formRegion : Nat → State → Option (List Nat × State)
  | 0, s => some ([], s)
  | n + 1, s =>
    if yardFreeBlocks 0 s < setAside 0 s + headroom 0 s + padD s.fl.geom + 1 then none
    else match formPad .conv 0 s with
      | none => none
      | some (id, s1) => (formRegion n s1).map (fun r => (id :: r.1, r.2))

/-- Create a zoned namespace of `n` zones. -/
def createZoned (k : Ctx) (nsze lbaf pi : Nat) (s : State) : State :=
  let n := nsze / 2 ^ 20
  let zs := (freeZones s).take n
  if zs.length < n then fin k 1 0x15 s
  else match freeNsid s with
    | none => fin k 1 0x16 s
    | some id =>
      let s1 := { s with zn := { s.zn with
        nss := Tbl.put s.zn.nss id ⟨false, nsze, lbaf, pi, zs, []⟩,
        zones := (zs.zipIdx).foldl (fun t p => Tbl.put t p.1 (Zone.fresh id p.2 (Tbl.getD s.zn.gens p.1 0))) s.zn.zones } }
      okDw0 k id (genKeys id 0 s1)

/-- Create the conventional namespace. -/
def createConv (k : Ctx) (nsze lbaf pi : Nat) (s : State) : State :=
  match freeNsid s with
  | none => fin k 1 0x16 s
  | some id =>
    match formRegion (ceilDiv (5 * nsze * 4096) (4 * padPenBytes)) s with
    | none => fin k 1 0x15 s
    | some (pens, s1) =>
      let s2 := { s1 with zn := { s1.zn with nss := Tbl.put s1.zn.nss id ⟨true, nsze, lbaf, pi, [], []⟩ },
                          pl := { s1.pl with convPens := pens, convHot := 0, convCold := 0 } }
      okDw0 k id (genKeys id 0 s2)

/-- Namespace Management, create (R102, R103, R130). Where several conditions fail at once the spec does not rank them: the model tests CSI,
sizes and format before the missing geometry. An LBA format index above 3 ends with 0h/0x02, for which the spec names no status (DESIGN
CHOICE, log 81). -/
def nsCreateOn (buf : List Byte) (k : Ctx) (s : State) : State :=
  let csi := bits k.cmd.cdw11.toNat 31 24
  let nsze := numAt buf 0 8
  let lbaf := numAt buf 26 1 % 16
  let pi := numAt buf 29 1 % 16
  if csi ≠ 0 ∧ csi ≠ 2 then fin k 1 0x29 s
  else if csi = 0 ∧ (convNs? s).isSome then fin k 0 0x02 s
  else if numAt buf 8 8 ≠ nsze ∨ nsze = 0 ∨ 3 < lbaf then fin k 0 0x02 s
  else if (csi = 2 ∧ nsze % 2 ^ 20 ≠ 0) ∨ (csi = 0 ∧ nsze % 4 ≠ 0) then fin k 0 0x02 s
  else if !s.fl.geom.ok then fin k 1 0x15 s
  else if csi = 2 then createZoned k nsze lbaf pi s
  else if s.part.convMax < nsze then fin k 1 0x15 s
  else createConv k nsze lbaf pi s

/-- NAMESPACE_CREATE. -/
def execNamespaceCreate (c : Cmd) (buf : List Byte) (s : State) : Out :=
  doneIo (withCmd c s (fun k s => gateAdmin (c.fn == 0) false k s (nsCreateOn buf)))

/-- A namespace holds an Active zone (R103). -/
def nsActive (n : Nat) (s : State) : Bool := s.zn.zones.any (fun p => p.2.nsid == n && p.2.st.active)

/-- Discard a namespace: its zones as by Reset, its unit map, its key pair; its numbers return to the pool. -/
def deleteNs (n : Nat) (s : State) : State :=
  match nsAt? n s with
  | none => s
  | some x =>
    let s1 := x.zones.foldl (fun s z => discardZone z s) s
    let s2 := if x.conv then
        let s2 := s1.pl.convPens.foldl (fun s p => retirePen p s)
          (supersede 0 (2 * x.nsze) { s1 with zn := { s1.zn with cmap := [], convOld := [], store := Tbl.del s1.zn.store convOwner } })
        { s2 with pl := { s2.pl with convPens := [], convHot := 0, convCold := 0 } }
      else s1
    dropKeys n { s2 with zn := { s2.zn with
      nss := Tbl.del s2.zn.nss n,
      zones := s2.zn.zones.filter (fun p => !x.zones.contains p.1),
      gens := (s2.zn.zones.filter (fun p => x.zones.contains p.1)).foldl (fun t p => Tbl.put t p.1 p.2.gen) s2.zn.gens } }

/-- Namespace Management, delete (R103). -/
def nsDeleteOn (k : Ctx) (s : State) : State :=
  let n := k.cmd.nsid
  if n = 0xFFFFFFFF then
    if s.zn.nss.any (fun p => nsActive p.1 s) then fin k 0 0x0C s
    else ok k ((s.zn.nss.map (·.1)).foldl (fun s i => deleteNs i s) s)
  else if (nsAt? n s).isNone then fin k 0 0x0B s
  else if nsActive n s then fin k 0 0x0C s
  else ok k (deleteNs n s)

/-- NAMESPACE_DELETE. -/
def execNamespaceDelete (c : Cmd) (s : State) : Out :=
  done (withCmd c s (fun k s => gateAdmin (c.fn == 0) false k s nsDeleteOn))

/-- The functions a controller list names: CNTLID is the function number plus one, 0x0401 the port B PF (Table 8.17). -/
def ctlList (buf : List Byte) : List Nat := (List.range (numAt buf 0 2)).map (fun i => numAt buf (2 + 2 * i) 2 - 1)

/-- Namespace Attachment (R226): attach (SEL 0) or detach (SEL 1) the controllers of the list; those concerned are told by the
namespace attribute notice where enabled. Statuses are NVMe's (PRESUMED, log 67). -/
def nsAttachOn (buf : List Byte) (k : Ctx) (s : State) : State :=
  let n := k.cmd.nsid
  let fs := ctlList buf
  let sel := bits k.cmd.cdw10.toNat 3 0
  match nsAt? n s with
  | none => fin k 0 0x0B s
  | some x =>
    if fs.isEmpty || fs.any (fun f => !fnPresent f s) then fin k 1 0x1C s
    else if 1 < sel then fin k 0 0x02 s
    else if sel = 0 ∧ fs.any (fun f => x.attached.contains f) then fin k 1 0x18 s
    else if sel = 1 ∧ fs.any (fun f => !x.attached.contains f) then fin k 1 0x1A s
    else
      let att := if sel = 0 then x.attached ++ fs else x.attached.filter (fun f => !fs.contains f)
      let s1 := { s with zn := { s.zn with nss := Tbl.put s.zn.nss n { x with attached := att } } }
      let s2 := fs.foldl (fun s f => if (fnOf f s).en && bit (fnOf f s).feats.aec 8 then aenFn f 2 0 4 (updFn f (fun n => { n with chNs := if n.chNs.contains k.cmd.nsid then n.chNs else n.chNs ++ [k.cmd.nsid] }) s) else s) s1
      ok k s2

/-- NAMESPACE_ATTACHMENT. -/
def execNamespaceAttachment (c : Cmd) (buf : List Byte) (s : State) : Out :=
  done (withCmd c s (fun k s => gateAdmin (c.fn == 0) false k s (nsAttachOn buf)))

/-! ## Writes (R116, R118, R131, R134) -/

/-- What every write passes first: permission, a Write's length, namespace; then its own namespace's path (R28, R320). The length of a Zone
Append is check 2 of Table 4.5, and a Write Zeroes, which transfers nothing, has no such limit (Table 4.3, R250). -/
def writeOn (kind : WKind) (blks : List Blk) (k : Ctx) (s : State) : State :=
  if !k.snap.write then denyPerm k s
  else if kind = .write ∧ 512 < nblocks k.cmd then fin k 0 0x02 s
  else withNs k s (fun n => if n.conv then convWrite kind n blks k s else zoneWrite kind n blks k s)

/-- WRITE. -/
def execWrite (c : Cmd) (blks : List Blk) (s : State) : Out :=
  doneIo (withCmd c s (fun k s => gateIo k s (writeOn .write blks)))

/-- WRITE_ZEROES: the device supplies the zero blocks. -/
def execWriteZeroes (c : Cmd) (s : State) : Out :=
  doneIo (withCmd c s (fun k s => gateIo k s (fun k s =>
    writeOn .zeroes (match nsAt? c.nsid s with | some n => zeroBlks (nblocks c) n | none => []) k s)))

/-- ZONE_APPEND. -/
def execZoneAppend (c : Cmd) (blks : List Blk) (s : State) : Out :=
  doneIo (withCmd c s (fun k s => gateIo k s (writeOn .append blks)))

/-- The rest of a write's data is staged: its protection checks (R311), its seal units, then its placement if FUA. -/
def stageMore (x : Wr) (rest : List Blk) (s : State) : State :=
  let w := x.id
  let done_ := x.staged.length
  let lba := (match zoneAt? x.owner s with | some q => q.zslba | none => 0) + x.pos / 2
  let k? := s.q.ctxs.find? (fun k => k.wait == .write w)
  match k?, nsAt? x.nsid s with
  | some k, some n =>
    let new := (if k.cmd.opc = 0x08 then zeroBlks (x.len / 2 - done_) n else rest).take (min ((x.len - 2 * done_) / 2) (stageRoom s))
    match piWrite k.cmd n done_ new with
    | some e => fin k 2 e.1 (piRecord k.cmd.fn (lba + e.2.2) e.2.1 (failWrite w s))
    | none =>
      let ins := new.mapIdx (fun i b => piInsert k.cmd n lba (done_ + i) b)
      let s0 := if k.cvus.isEmpty then s else putCtx { k with data := k.data ++ new.flatMap (·.data) } s
      let s1 := stageRest w (fun base i b => mkPiece x.owner (zoneAt? x.owner s) w base i b s) ins s0
      match wrAt w s1 with
      | some y => if y.ready then (let t := sealAfter y.owner s1; if y.fuaFlag then placeWrite w t else t) else s1
      | none => s1
  | _, _ =>
    let s1 := stageRest w (fun base i b => mkPiece x.owner (zoneAt? x.owner s) w base i b s) (rest.take (stageRoom s)) s
    match wrAt w s1 with
    | some y => if y.ready && y.fuaFlag then placeWrite w s1 else s1
    | none => s1

/-- SLACK_DECISION (R83, R85): the rest of a write's data is staged, and what may be decided is decided. A write whose range a Reset
has discarded completes when its transfer ends (R121). -/
def execSlackDecision (w : Nat) (rest : List Blk) (s : State) : Out :=
  match wrAt w s with
  | none => .next s
  | some x =>
    if x.discarded then done (wakeFlushes (discardWrite w (finishDiscarded w s)))
    else if x.xferWait then .next s
    else doneIo (decideAll (if x.ready then s else stageMore x rest s))

/-- FLUSH (R89, R236): at once if every covered write is durable, else when they are; 7h/0x82 while THM = 0b10. -/
def execFlush (c : Cmd) (s : State) : Out :=
  doneIo (withCmd c s (fun k s => gateIo k s (fun k s =>
    if c.nsid ≠ 0xFFFFFFFF ∧ (nsFor? c.fn c.nsid s).isNone then fin k 0 0x0B s
    else if !flushBlocked k s then ok k s
    else if s.m.thm = 2 then fin k 7 0x82 s
    else putCtx { k with wait := .flush } s)))

/-- The ranges of a Dataset Management buffer: 16 B each, length and start (NVMe; PRESUMED, log 67). -/
def dsmRanges (c : Cmd) (buf : List Byte) : List (Nat × Nat) :=
  (List.range (bits c.cdw10.toNat 7 0 + 1)).map (fun i => (numAt buf (16 * i + 8) 8, numAt buf (16 * i + 4) 4))

/-- DATASET_MANAGEMENT (R134, R120): Deallocate unmaps whole conventional units. Without the Deallocate bit nothing changes. -/
def dsmOn (buf : List Byte) (k : Ctx) (s : State) : State :=
  let ad := bit k.cmd.cdw11.toNat 2
  if ad && !k.snap.write then denyPerm k s
  else withNs k s (fun n =>
    if !ad || !n.conv then ok k s
    else match modeStatus s with
      | some e => fin k e.1 e.2 s
      | none =>
        let rs := dsmRanges k.cmd buf
        if rs.any (fun r => decide (n.nsze < r.1 + r.2)) then fin k 0 0x80 s
        else ok k (rs.foldl (fun s r => (wholeUnits r.1 r.2).foldl (fun s u => unmapUnit u s) s) s))

/-- DATASET_MANAGEMENT. -/
def execDatasetManagement (c : Cmd) (buf : List Byte) (s : State) : Out :=
  doneIo (withCmd c s (fun k s => gateIo k s (dsmOn buf)))

/-! ## Zone Management Send (R105, R106, R121 to R125) -/

/-- A Send action on one zone: its namespace, the zone its SLBA begins, and the write permission. -/
def sendOn (k : Ctx) (s : State) (one : Nat → Zone → State) (all : Ns → State) : State :=
  if !k.snap.write then denyPerm k s
  else withNs k s (fun n =>
    if n.conv then fin k 0 0x01 s
    else if selAllOf k.cmd then all n
    else if n.nsze ≤ slbaOf k.cmd then fin k 0 0x80 s
    else if slbaOf k.cmd % 2 ^ 20 ≠ 0 then fin k 0 0x02 s
    else match zoneOfLba n (slbaOf k.cmd) with
      | none => fin k 0 0x80 s
      | some (z, _) => match zoneAt? z s with
        | none => fin k 0 0x80 s
        | some q => one z q)

/-- The zones of a namespace in a state. -/
def zonesIn (n : Ns) (p : ZS → Bool) (s : State) : List Nat :=
  n.zones.filter (fun z => match zoneAt? z s with | some q => p q.st | none => false)

/-- Open one zone (R106, R108). -/
def openOne (k : Ctx) (z : Nat) (q : Zone) (s : State) : Option (Nat × Nat) × State :=
  match modeStatus s with
  | some e => if e = (7, 0x82) then openGo else (some e, s)
  | none => openGo
where
  /-- The transition and the checks after it. -/
  openGo : Option (Nat × Nat) × State :=
    match q.st with
    | .expOpen => (none, s)
    | .impOpen => (none, updZone z (fun q => { q with st := .expOpen }) s)
    | .empty => activate k z Attr.dflt .expOpen s
    | .closed => activate k z Attr.dflt .expOpen s
    | _ => (some (1, 0xBF), s)

/-- Finish a command by an operation's status. -/
def finBy (k : Ctx) (r : Option (Nat × Nat) × State) : State :=
  match r.1 with
  | some e => fin k e.1 e.2 r.2
  | none => ok k r.2

/-- Implicitly Opened zones. -/
def impCount (s : State) : Nat := (s.zn.zones.filter (fun p => p.2.st == .impOpen)).length

/-- Open the zones of a Select All, one after another: all of them may close one zone implicitly between them (R113); a further one that would
need another ends with 1h/0xBE. `closed`: one has been closed. -/
def openEach (k : Ctx) : List Nat → Bool → State → Option (Nat × Nat) × State
  | [], _, s => (none, s)
  | z :: t, closed, s =>
    match zoneAt? z s with
    | none => openEach k t closed s
    | some q =>
      if closed && decide (openLim q.actFn s ≤ openCount q.actFn s) then (some (1, 0xBE), s)
      else
        let r := openOne k z q s
        match r.1 with
        | some e => (some e, s)
        | none => openEach k t (closed || decide (impCount r.2 < impCount s)) r.2

/-- ZONE_OPEN. With Select All every Closed zone is opened, or none when one of them may not be. -/
def zoneOpenOn (k : Ctx) (s : State) : State :=
  sendOn k s (fun z q => finBy k (openOne k z q s)) (fun n =>
    let r := openEach k (zonesIn n (· == .closed) s) false s
    match r.1 with
    | some e => fin k e.1 e.2 s
    | none => ok k r.2)

/-- ZONE_OPEN. -/
def execZoneOpen (c : Cmd) (s : State) : Out := doneIo (withCmd c s (fun k s => gateIo k s zoneOpenOn))

/-- ZONE_CLOSE (R106, R107): an Open zone becomes Closed; nothing is released. -/
def zoneCloseOn (k : Ctx) (s : State) : State :=
  sendOn k s (fun z q =>
    if q.st.isOpen then ok k (updZone z (fun q => { q with st := .closed }) s)
    else if q.st = .closed then ok k s
    else fin k 1 0xBF s)
    (fun n => ok k ((zonesIn n ZS.isOpen s).foldl (fun s z => updZone z (fun q => { q with st := .closed }) s) s))

/-- ZONE_CLOSE. -/
def execZoneClose (c : Cmd) (s : State) : Out := doneIo (withCmd c s (fun k s => gateIo k s zoneCloseOn))

/-- ZONE_FINISH (R125, R107, R121): Full; the data accepted stands. -/
def zoneFinishOn (k : Ctx) (s : State) : State :=
  sendOn k s (fun z q =>
    if q.st = .offline then fin k 1 0xBF s
    else if q.st = .full then ok k s
    else ok k (sealAfter z (makeFull z s)))
    (fun n => ok k ((zonesIn n ZS.active s).foldl (fun s z => sealAfter z (makeFull z s)) s))

/-- ZONE_FINISH. -/
def execZoneFinish (c : Cmd) (s : State) : Out := doneIo (withCmd c s (fun k s => gateIo k s zoneFinishOn))

/-- ZONE_RESET (R122, R121). With Select All, every Active or Full zone. -/
def zoneResetOn (k : Ctx) (s : State) : State :=
  sendOn k s (fun z q =>
    if q.st = .offline then fin k 1 0xBF s else ok k (resetZone z s))
    (fun n => ok k ((zonesIn n (fun t => t.active || t == .full) s).foldl (fun s z => resetZone z s) s))

/-- ZONE_RESET. -/
def execZoneReset (c : Cmd) (s : State) : Out := doneIo (withCmd c s (fun k s => gateIo k s zoneResetOn))

/-- Blocks of a Pen that are not erased. -/
def penBlocks (p : Nat) (s : State) : List Nat :=
  match penOf? p s with
  | none => []
  | some x => (x.mem.filter (fun m => m.2.1 != 8191 && (bkOf m.1 m.2.1 s).st != .erased && (bkOf m.1 m.2.1 s).st != .bad)).map (fun m => blkKey m.1 m.2.1)

/-- Begin the erasure of every block that holds dead copies of a zone (R123): Pens without other data at once; the live data of others, and
units that reservations still hold, are relocated first. Blocks that left their Pens and wait for their erases are waited for. -/
def beginScrub (z : Nat) (ctx : Option Nat) (s : State) : State :=
  let pens := (s.zn.stale.filter (fun q => q.1 == z)).map (·.2)
  let bl := (pens.flatMap (fun p => penBlocks p s) ++ (s.zn.staleBlks.filter (fun q => q.1 == z)).map (·.2)).dedup
  let sc : Scrub := ⟨z, ctx, bl, 0, s.tm.elapsed, false, match zoneAt? z s with | some q => q.yard | none => 0⟩
  let s1 := updZone z (fun q => { q with scrubPend := true }) { s with zn := { s.zn with scrubs := s.zn.scrubs ++ [sc] } }
  pens.foldl (fun s p => if (livePieces p s).isEmpty && penReserved p s == 0 && !penPending p s && !penMoving p s then retirePen p s else s) s1

/-- SCRUBBING_RESET (R123): a Reset, then the erasure; the command completes at SCRUB_COMPLETE. Select All is refused. -/
def scrubOn (k : Ctx) (s : State) : State :=
  if !k.snap.write || !k.snap.scrub then denyPerm k s
  else if selAllOf k.cmd then fin k 0 0x02 s
  else sendOn k s (fun z q =>
    if q.st = .offline then fin k 1 0xBF s
    else beginScrub z (some k.seq) (putCtx { k with wait := .scrub z, dispatched := true } (resetZone z s)))
    (fun _ => fin k 0 0x02 s)

/-- SCRUBBING_RESET. -/
def execScrubbingReset (c : Cmd) (s : State) : Out := doneIo (withCmd c s (fun k s => gateIo k s scrubOn))

/-- ZONE_OFFLINE_ACTION: 1h/0xBF, no zone is ever Read Only (Table 4.1). -/
def execZoneOfflineAction (c : Cmd) (s : State) : Out :=
  doneIo (withCmd c s (fun k s => gateIo k s (fun k s => sendOn k s (fun _ _ => fin k 1 0xBF s) (fun _ => fin k 1 0xBF s))))

/-- SET_ZONE_DESCRIPTOR_EXTENSION: 0h/0x02 (Table 4.1). -/
def execSetZoneDescriptorExtension (c : Cmd) (s : State) : Out :=
  doneIo (withCmd c s (fun k s => gateIo k s (fun k s => if !k.snap.write then denyPerm k s else withNs k s (fun n => if n.conv then fin k 0 0x01 s else fin k 0 0x02 s))))

/-- EXTENDED_REPORT_ZONES: 0h/0x02 (Table 4.1). -/
def execExtendedReportZones (c : Cmd) (s : State) : Out :=
  doneIo (withCmd c s (fun k s => gateIo k s (fun k s => withNs k s (fun n => if n.conv then fin k 0 0x01 s else fin k 0 0x02 s))))

/-! ## Report Zones (R128, R129) -/

/-- The 64-byte descriptor of a zone (Table 4.7); bytes 32 to 63 at Extension Level 3 only. -/
def zoneDesc (z : Nat) (q : Zone) (lvl : Nat) (s : State) : List Byte :=
  leBytes 1 2 ++ leBytes 1 (q.st.code * 16) ++ leBytes 1 (b2n q.zfc) ++ leBytes 5 0 ++ leBytes 8 (zcapLbas s.fl.geom) ++ leBytes 8 q.zslba
    ++ leBytes 8 q.wpLba
    ++ (if lvl < 3 then zeroBytes 32
        else leBytes 1 q.yard ++ leBytes 1 (q.lclass + 16 * b2n q.comp + 32 * b2n q.sealF + 64 * b2n q.activeRes) ++ leBytes 1 q.keySlot
          ++ leBytes 1 (b2n q.scrubPend + 2 * b2n q.unread + 4 * b2n q.sealed) ++ leBytes 4 (if q.comp then q.wp else 0) ++ leBytes 2 q.actFn
          ++ leBytes 2 (q.gen / 2 ^ 32) ++ leBytes 4 z ++ leBytes 8 q.actStamp ++ leBytes 4 q.resHandle ++ leBytes 4 (q.gen % 2 ^ 32))

/-- The state filter of Report Zones: 0 all, then Empty, Implicitly Opened, Explicitly Opened, Closed, Full, Read Only, Offline. -/
def filterZs (f : Nat) (t : ZS) : Bool :=
  match f with
  | 0 => true | 1 => t == .empty | 2 => t == .impOpen | 3 => t == .expOpen | 4 => t == .closed | 5 => t == .full | 7 => t == .offline | _ => false

/-- REPORT_ZONES (R128). -/
def reportOn (k : Ctx) (s : State) : State :=
  withNs k s (fun n =>
    let c := k.cmd
    if n.conv then fin k 0 0x01 s
    else if n.nsze ≤ slbaOf c then fin k 0 0x80 s
    else if 7 < zrasfOf c then fin k 0 0x02 s
    else if 2097152 < numdOf c * 4 then fin k 0 0x02 s
    else
      let zs := (n.zones.drop (slbaOf c / 2 ^ 20)).filterMap (fun z => (zoneAt? z s).bind (fun q => if filterZs (zrasfOf c) q.st then some (z, q) else none))
      let len := numdOf c * 4
      let room := (len - 64) / 64
      let shown := zs.take room
      let cnt := if partialOf c then shown.length else zs.length
      okData k (padTo len (leBytes 8 cnt ++ zeroBytes 56 ++ shown.flatMap (fun p => zoneDesc p.1 p.2 (fnOf c.fn s).feats.xlevel s))) s)

/-- REPORT_ZONES. -/
def execReportZones (c : Cmd) (s : State) : Out := doneIo (withCmd c s (fun k s => gateIo k s (fun k s => reportOn { k with dispatched := true } s)))

/-! ## Placement Open (R114, R115) -/

/-- The recorded attributes equal those of a Placement Open. -/
def sameAttr (c : Cmd) (q : Zone) : Bool :=
  (poYard c == 0xFF || poYard c == q.yard) && poClass c == q.lclass && poComp c == q.comp && poSeal c == q.sealF
    && (!poSeal c || poSlot c == q.keySlot)

/-- PLACEMENT_OPEN. -/
def placementOpenOn (k : Ctx) (s : State) : State :=
  let c := k.cmd
  if !k.snap.write || (poSeal c && !k.snap.sealP) || (poComp c && !k.snap.comp) then denyPerm k s
  else withNs k s (fun n =>
    if n.conv then fin k 0 0x01 s
    else if poRsvd c ≠ 0 then fin k 0 0x02 s
    else if n.nsze ≤ slbaOf c ∨ slbaOf c % 2 ^ 20 ≠ 0 then fin k 0 0x02 s
    else if (64 ≤ poYard c ∧ poYard c ≠ 0xFF) ∨ (8 ≤ poClass c ∧ poClass c ≠ 0xF) then fin k 0 0x02 s
    else if poYard c ≠ 0xFF ∧ !bit k.snap.yards (poYard c) then fin k 0 0x02 s
    else match zoneOfLba n (slbaOf c) with
      | none => fin k 0 0x02 s
      | some (z, _) => match zoneAt? z s with
        | none => fin k 0 0x02 s
        | some q =>
          match (match modeStatus s with | some e => if e = (7, 0x82) then none else some e | none => none) with
          | some e => fin k e.1 e.2 s
          | none =>
            let yd := fun s => ((zoneAt? z s).map (·.yard)).getD 0
            match q.st with
            | .full => fin k 1 0xBF s
            | .offline => fin k 1 0xBF s
            | .expOpen => if sameAttr c q then okDw0 k q.yard s else fin k 0 0x02 s
            | .empty =>
              let b := if poSeal c then bindSeal k z (poSlot c) s else (none, s)
              match b.1 with
              | some e => fin k e.1 e.2 b.2
              | none =>
                let r := activate k z ⟨poYard c, poClass c, poComp c, poSeal c, if poSeal c then poSlot c else 0⟩ .expOpen b.2
                match r.1 with
                | some e => fin k e.1 e.2 (unbind z r.2)
                | none => okDw0 k (yd r.2) r.2
            | _ =>
              if !sameAttr c q then fin k 0 0x02 s
              else
                let r := openOne k z q s
                match r.1 with
                | some e => fin k e.1 e.2 r.2
                | none => okDw0 k (yd r.2) r.2)

/-- PLACEMENT_OPEN. -/
def execPlacementOpen (c : Cmd) (s : State) : Out := doneIo (withCmd c s (fun k s => gateIo k s placementOpenOn))

/-! ## Events of zones (R119, R123, R124) -/

/-- Units of a zone's reservation: those written, and those still to be written on members not lost (R161). -/
def unitsLeft (q : Zone) (_s : State) : Nat := sumN (q.runs.map (·.2.2))

/-- ZONE_FINISHED_BY_CONTROLLER (R119): a zone whose reservation block failures left short becomes Full with ZFC, is reported in the
Changed Zone List and by notice, with 0x3001. -/
def execZoneFinishedByController (z : Nat) (s : State) : Out :=
  match zoneAt? z s with
  | none => .next s
  | some q =>
    if q.st.active && q.activeRes && decide (unitsLeft q s < zoneUnits s.fl.geom) then
      let s1 := raise 0x3001 1 [h2 z, h2 (q.wp / 2)] (updZone z (fun q => { q with zfc := true }) (sealAfter z (makeFull z s)))
      let fs := match nsAt? q.nsid s with | some n => n.attached | none => []
      let s2 := fs.foldl (fun s f => updFn f (fun n => { n with changed := if n.changed.contains (q.nsid, q.zslba) then n.changed else n.changed ++ [(q.nsid, q.zslba)] }) s) s1
      done (fs.foldl (fun s f => if (fnOf f s).en && bit (fnOf f s).feats.aec 27 then aenFn f 2 0xEF 0xBF s else s) s2)
    else .next s

/-- SCRUB_COMPLETE (R123): the last block is erased; 0x3020, SCRUB_PEND clears, the command completes. -/
def execScrubComplete (z : Nat) (s : State) : Out :=
  match s.zn.scrubs.find? (fun c => c.zone == z) with
  | none => .next s
  | some sc =>
    if sc.blocks.isEmpty then
      let s1 := { s with zn := { s.zn with scrubs := s.zn.scrubs.erase sc } }
      let s2 := if s1.zn.scrubs.any (fun c => c.zone == z) then s1 else updZone z (fun q => { q with scrubPend := false }) s1
      let s2 := if sc.broke && !(s2.zn.scrubs.any (fun c => c.broke && c.yard == sc.yard)) then endBreak 0x3022 (some sc.yard) s2 else s2
      let s3 := raise 0x3020 0 [h2 z, h2 sc.erased, h2 ((s.tm.elapsed - sc.startUs) / 1000)] s2
      done (match sc.ctx.bind (fun q => ctxAt q s3) with
        | some k => if k.wait == .scrub z then ok k s3 else s3
        | none => s3)
    else .next s

/-- SCRUB_SCHEDULE_BREAK_EXPIRY (R123): 60 s after fetch an unfinished scrub runs regardless of the schedule: 0x3022. The break is
reported to the cadence link. -/
def execScrubScheduleBreakExpiry (z : Nat) (s : State) : Out :=
  match s.zn.scrubs.find? (fun c => c.zone == z) with
  | none => .next s
  | some sc =>
    if !sc.broke then
      let s1 := { s with zn := { s.zn with scrubs := updWhere (fun c => c == sc) (fun c => { c with broke := true }) s.zn.scrubs } }
      done (reportBreak 0x3022 (some sc.yard) (raise 0x3022 1 [h2 z] s1))
    else .next s

/-! ## Sanitize and Format NVM (R126, R127) -/

/-- Begin a sanitize: the device enters SANITIZE, the journal records it, the command completes, queued and running Currycomb passes
end (R126, R218). -/
def beginSanitize (kind : Nat) (k : Ctx) (s : State) : State :=
  let s1 := { s with zn := { s.zn with sanit := kind, sstat := 2, scdw10 := k.cmd.cdw10.toNat }, jn := { s.jn with sanitize := kind } }
  ok k (endPasses (setMode .sanitize s1))

/-- Sanitize may start: no other is running. It is accepted while THM = 0b10, when its erases wait (R392). -/
def sanitizeOn (kind : Nat) (k : Ctx) (s : State) : State :=
  if s.m.cur == .sanitize then fin k 0 0x1D s
  else beginSanitize kind k (if kind = 2 then cryptoErase s else s)

/-- SANITIZE_BLOCK_ERASE. -/
def execSanitizeBlockErase (c : Cmd) (s : State) : Out :=
  done (withCmd c s (fun k s => gateAdmin (isPf c.fn) true k s (sanitizeOn 1)))

/-- SANITIZE_CRYPTO_ERASE: every key protecting user data is destroyed (R126, R297). -/
def execSanitizeCryptoErase (c : Cmd) (s : State) : Out :=
  done (withCmd c s (fun k s => gateAdmin (isPf c.fn) true k s (sanitizeOn 2)))

/-- SANITIZE_EXIT_FAILURE_MODE: failure mode ends; without one the command succeeds and changes nothing. -/
def execSanitizeExitFailureMode (c : Cmd) (s : State) : Out :=
  done (withCmd c s (fun k s => gateAdmin (isPf c.fn) true k s (fun k s =>
    if s.m.cur == .sanitize then fin k 0 0x1D s
    else ok k { s with zn := { s.zn with sanFail := false } })))

/-- SANITIZE_OVERWRITE: 0h/0x02. -/
def execSanitizeOverwrite (c : Cmd) (s : State) : Out :=
  done (withCmd c s (fun k s => gateAdmin (isPf c.fn) true k s (fun k s =>
    if s.m.cur == .sanitize then fin k 0 0x1D s else fin k 0 0x02 s)))

/-- Empty every zone and unmap every conventional unit (R126). -/
def wipeData (s : State) : State :=
  let s1 := (s.zn.zones.map (·.1)).foldl (fun s z => discardZone z s) s
  let s2 := (s1.zn.wrs.map (·.id)).foldl (fun s i => discardWrite i (finishDiscarded i s)) s1
  { s2 with zn := { s2.zn with cmap := [], convOld := [], store := [] }, slk := { s2.slk with poolUse := 0, fns := Tbl.mapV s2.slk.fns (fun _ a => { a with useQ := 0, useP := 0 }) } }

/-- Every block that held user data is erased in place: Pens are dissolved, their blocks Erased with EGEN and wear up. -/
def eraseAll (s : State) : State :=
  let wipe : Bk → Bk := fun b =>
    if b.st == .bad || b.role.inTack then b
    else { b with st := .erased, hasLive := false, quar := false, prechk := false, nextWl := 0, egen := (b.egen + 1) % 65536,
                  wear := satAdd 16 b.wear 1, role := match b.role with | .pen _ => .free | r => r }
  let erased := fun (ch : Nat) => (s.fl.blks.filter (fun p => dieCh (p.1 / 8192) == ch && !(p.2.st == .bad || p.2.role.inTack))).length
  let fl := { s.fl with blks := Tbl.mapV s.fl.blks (fun _ b => wipe b), ops := [], rpar := [], marred := [],
                        chs := Tbl.mapV s.fl.chs (fun ch c => { c with ersCnt := satAdd 64 c.ersCnt (erased ch) }) }
  let pl := { s.pl with pens := [], openHost := [], landing := [], relocPen := [], flushRes := [], moves := [], intents := [], waiting := [] }
  let s1 := { s with fl := fl, pl := pl, zn := { s.zn with stale := [], staleBlks := [], scrubs := [] } }
  let n := s.pl.convPens.length
  let s2 := (s1.fl.luns.map (·.1)).foldl (fun s d => refillLists d s) { s1 with pl := { s1.pl with convPens := [], convHot := 0, convCold := 0 } }
  let s3 := match formRegion n s2 with | some (ps, t) => { t with pl := { t.pl with convPens := ps } } | none => s2
  (List.range s.part.sheds).foldl (fun s sh => match formPadShed .flushRes sh s with
    | some (id, t) => { t with pl := { t.pl with flushRes := Tbl.put t.pl.flushRes sh id } } | none => s) s3

/-- Background erasure after a Crypto Erase: Pens are retired and their erases queued; the region keeps its size. -/
def retireAll (s : State) : State :=
  let s1 := ((s.pl.pens.filter (fun p => p.2.kind != .conv && p.2.kind != .flushRes && p.2.st != .erased)).map (·.1)).foldl (fun s p => retirePen p s) s
  (s1.pl.convPens).foldl (fun s p => recyclePen p s) s1

/-- Format one namespace: its zones Empty or its units unmapped, its format set, its keys anew (R127). -/
def formatNs (lbaf pi n : Nat) (s : State) : State :=
  match nsAt? n s with
  | none => s
  | some x =>
    let s1 := x.zones.foldl (fun s z => discardZone z s) s
    let s2 := if x.conv then
        let t := supersede 0 (2 * x.nsze) { s1 with zn := { s1.zn with cmap := [], convOld := [], store := Tbl.del s1.zn.store convOwner } }
        (t.pl.convPens).foldl (fun s p => recyclePen p s) t
      else s1
    genKeys n 1 { s2 with zn := { s2.zn with nss := Tbl.upd s2.zn.nss n (fun y => { y with lbaf := lbaf, pi := pi }) } }

/-- FORMAT_NVM (R127): SES 0 only; 0xFFFF_FFFF formats every namespace attached to the issuer, all or none. -/
def formatOn (k : Ctx) (s : State) : State :=
  let c := k.cmd
  let lbaf := bits c.cdw10.toNat 3 0 + 16 * bits c.cdw10.toNat 13 12
  let pi := bits c.cdw10.toNat 7 5 + 8 * bits c.cdw10.toNat 8 8
  let ns := if c.nsid = 0xFFFFFFFF then (s.zn.nss.filter (fun p => p.2.attached.contains c.fn)).map (·.1) else [c.nsid]
  if bits c.cdw10.toNat 11 9 ≠ 0 then fin k 0 0x02 s
  else if 3 < lbaf then fin k 1 0x0A s
  else if ns.any (fun n => (nsAt? n s).isNone) then fin k 0 0x0B s
  else match modeStatus s with
    | some e => if e = (7, 0x82) then ok k (ns.foldl (fun s n => formatNs lbaf pi n s) s) else fin k e.1 e.2 s
    | none => ok k (ns.foldl (fun s n => formatNs lbaf pi n s) s)

/-- FORMAT_NVM. -/
def execFormatNvm (c : Cmd) (s : State) : Out :=
  done (withCmd c s (fun k s => gateAdmin (isPf c.fn) false k s formatOn))

end Sys2Proof.Machine
end

