-- ==== Sys2Proof/Machine/Reads.lean ====
section
/-! DEFINITION. READ, and how log pages are answered (R29, R120, R232, R164). -/

namespace Sys2Proof.Machine
open Sys2Proof

/-- READ (R29, R120, R233, R299). NLB above 512 ends with 0h/0x02 (MDTS). An Offline zone gives 1h/0xBB. -/
def readOn (k : Ctx) (s : State) : State :=
  withNs k s (fun n =>
    let lba := slbaOf k.cmd
    let cnt := nblocks k.cmd
    if 512 < cnt then fin k 0 0x02 s
    else if n.nsze < lba + cnt then fin k 0 0x80 s
    else
      let zs := zonesOf n lba cnt
      if offlineIn zs s then fin k 1 0xBB s
      else match sealedOut zs s with
        | some z => refuseSeal k z s
        | none => putCtx { k with wait := .read 0, dispatched := true } s)

/-- READ. -/
def execRead (c : Cmd) (s : State) : Out := doneIo (withCmd c s (fun k s => gateIo k s readOn))

/-! ## Log pages -/

/-- Answer a log page: the bytes at the offset asked for; an offset past the end or off a dword, and a length above MDTS, is 0h/0x02; bytes asked for past the end are not the
log's and are free (PRESUMED, log 5). -/
def logReply (data : List Byte) (k : Ctx) (s : State) : State :=
  let o := logOff k.cmd
  if data.length < o ∨ o % 4 ≠ 0 ∨ 2097152 < logLen k.cmd then fin k 0 0x02 s
  else
    let d := (data.drop o).take (logLen k.cmd)
    okData k (d ++ freeBytes (logLen k.cmd - d.length) s.free) (if d.length < logLen k.cmd then tick s else s)

/-! ## Yard Status (R164) -/

/-- Saturated to 16 bits. -/
def sat16 (n : Nat) : Nat := min n 65535

/-- Reserved by Active zones plus written by Full zones of a Yard, bytes (Table 5.4). -/
def yardReserved (y : Nat) (s : State) : Nat :=
  sumN ((s.zn.zones.filter (fun p => p.2.yard == y)).map (fun p =>
    if p.2.st.active && p.2.activeRes then zcapBytes s.fl.geom
    else if p.2.st == .full then p.2.wp * 2048 else 0))

/-- A Pen is degraded: a member of it is lost (R161). -/
def Pen.isDegraded (p : Pen) : Bool := p.degraded || p.mem.any (fun m => m.2.2)

/-- Mean wear count of a Yard. -/
def yardWearMean (y : Nat) (s : State) : Nat :=
  let t := (yardDies y s).map (fun d => dieWearSum d s)
  let n := sumN (t.map (·.2))
  if n = 0 then 0 else sumN (t.map (·.1)) / n

/-- A Yard Status entry (Table 5.4). -/
def yardEntry (y : Nat) (s : State) : List Byte :=
  if (yardRows y s).isEmpty then zeroBytes 64
  else
    let ds := yardDies y s
    let c := yardOf y s
    let qlc := s.pl.pens.filter (fun p => p.2.yard == y && !p.2.kind.oneBit)
    let open_ := (qlc.filter (fun p => decide (p.2.next < penUnits p.2 s.fl.geom))).length
    let deg := (s.pl.pens.filter (fun p => p.2.yard == y && p.2.isDegraded)).length
    let flags := 1 + 2 * b2n c.padLow + 4 * b2n c.wlActive + 8 * b2n (qlcPairs y s).isEmpty
      + 16 * b2n ((yardRows y s).any (fun r => (Tbl.get? s.pl.pending r).isSome) || s.pl.pending.any (fun p => p.2 == y))
    leBytes 2 ds.length ++ [0] ++ leBytes 1 c.parity ++ leBytes 8 (yardCapacity y s / 1048576) ++ leBytes 8 (yardReserved y s / 1048576)
      ++ leBytes 4 (yardShare y s) ++ leBytes 4 (freeLanding y s) ++ leBytes 4 open_ ++ leBytes 4 (qlc.length - open_) ++ leBytes 4 deg
      ++ leBytes 2 (sat16 (minL 0 (ds.map (fun d => dieWearMin d s)))) ++ leBytes 2 (sat16 (maxL (ds.map (fun d => dieWearMax d s))))
      ++ leBytes 2 (sat16 (yardWearMean y s)) ++ leBytes 2 (minL 0 (ds.map (fun d => dieSpares d s))) ++ leBytes 4 c.badBlocks ++ leBytes 4 c.breaks
      ++ leBytes 2 flags ++ leBytes 2 (yardRows y s).length ++ zeroBytes 4

/-- The Yard Status page (R164): every entry to the physical functions, a stall those of its mask. -/
def yardLogOn (k : Ctx) (s : State) : State :=
  logReply ((List.range 64).flatMap (fun y => if isPf k.cmd.fn || bit k.snap.yards y then yardEntry y s else zeroBytes 64)) k s

/-- YARD_STATUS_LOG. -/
def execYardStatusLog (c : Cmd) (s : State) : Out := done (withCmd c s (fun k s => gateAdmin true true k s yardLogOn))

end Sys2Proof.Machine
end

