-- ==== Sys2Proof/Machine/Placement.lean ====
section
/-! DEFINITION. Placement's own work (Chapter 5): the Yard layout, folds, compaction, relocation and wear levelling in the journal's
order of R155, landing space. -/

namespace Sys2Proof.Machine
open Sys2Proof

/-! ## Yard layout (R137, R138) -/

/-- Units that live data and reservations of a Yard's zones take. -/
def yardNeed (y : Nat) (s : State) : Nat :=
  if unitBytes s.fl.geom = 0 then 0 else yardReserved y s / unitBytes s.fl.geom

/-- Units a Yard's usable blocks can hold. -/
def yardCanHold (y : Nat) (s : State) : Nat :=
  if unitBytes s.fl.geom = 0 then 0 else yardCapacity y s / unitBytes s.fl.geom

/-- The Yard Layout buffer (Table 5.1) as Get Features returns it. -/
def yardLayoutBuf (s : State) : List Byte :=
  (List.range 256).map (fun r => BitVec.ofNat 8 (if (rows s).contains r then yardOfRow r s else 0xFF))
    ++ (List.range 64).flatMap (fun y => leBytes 1 (yardOf y s).parity ++ [0] ++ leBytes 2 (yardOf y s).wlSpread)
    ++ leBytes 32 (sumN (s.pl.pending.map (fun p => 2 ^ p.1)))

/-- The factory layout's buffer (R137). -/
def yardLayoutDflt (s : State) : List Byte :=
  (List.range 256).map (fun r => if (rows s).contains r then 0 else 0xFF) ++ (List.range 64).flatMap (fun _ => [2, 0] ++ leBytes 2 400) ++ zeroBytes 32

/-- The rows a Set moves: row and new Yard. -/
def layoutMoves (buf : List Byte) (s : State) : List (Nat × Nat) :=
  ((rows s).map (fun r => (r, numAt buf r 1))).filter (fun m => m.2 != (Tbl.get? s.pl.pending m.1).getD (yardOfRow m.1 s))

/-- Accept a layout: configuration, then each move at once or as PENDING; 0x3012 (R138). A Set that names a pending row's present Yard
cancels its move: the spec does not say (DESIGN CHOICE, log 85). -/
def acceptLayout (buf : List Byte) (ms : List (Nat × Nat)) (s : State) : State :=
  let s1 := (List.range 64).foldl (fun s y =>
    let par := numAt buf (0x100 + 4 * y) 1
    let wl := numAt buf (0x102 + 4 * y) 2
    let c := yardOf y s
    if (par = 0 ∨ par = c.parity) ∧ (wl = 0 ∨ wl = c.wlSpread) then s
    else updYard y (fun c => { c with parity := if par = 0 then c.parity else par, wlSpread := if wl = 0 then c.wlSpread else wl }) s) s
  let held := ms.filter (fun m => rowHeld m.1 s1 && m.2 != yardOfRow m.1 s1)
  let s2 := ms.foldl (fun s m =>
    if m.2 = yardOfRow m.1 s then { s with pl := { s.pl with pending := Tbl.del s.pl.pending m.1 } }
    else if held.contains m then { s with pl := { s.pl with pending := Tbl.put s.pl.pending m.1 m.2 } }
    else moveRow m.1 m.2 s) s1
  checkSpares (raise 0x3012 0 [h2 (ms.length - held.length), h2 held.length] s2)

/-- Set Features 0xC5 (R137, R138). Of the two checks on Yard 0, the conventional region's (1h/0x15) comes first: the spec gives no order
(DESIGN CHOICE, log 85). Rows already on their way out of a Yard do not count for it. -/
def setLayoutOn (buf : List Byte) (k : Ctx) (s : State) : State :=
  let bad := (rows s).any (fun r => decide (64 ≤ numAt buf r 1) && numAt buf r 1 != 0xFF) ||
    (List.range 64).any (fun y => decide (2 < numAt buf (0x100 + 4 * y) 1) ||
      (numAt buf (0x102 + 4 * y) 2 != 0 && (decide (numAt buf (0x102 + 4 * y) 2 < 100) || decide (4000 < numAt buf (0x102 + 4 * y) 2))))
  if k.cmd.fn ≠ 0 then fin k 0 0x02 s
  else if svOf k.cmd then fin k 0 0x0D s
  else if bad then fin k 0 0x02 s
  else
    let ms := layoutMoves buf s
    let asked := (rows s).map (fun r => (r, numAt buf r 1))
    let trial := { s with pl := { s.pl with
      rowYard := asked.foldl (fun t m => if m.2 = 0xFF then Tbl.del t m.1 else Tbl.put t m.1 m.2) s.pl.rowYard, pending := [] } }
    let losers := ((asked.filter (fun m => m.2 != yardOfRow m.1 s)).map (fun m => yardOfRow m.1 s)).dedup.filter (· != 0xFF)
    let conv := s.pl.convPens.length * (padD s.fl.geom + 1)
    let left0 := sumN ((yardDies 0 trial).map (fun d => s.fl.geom.blocksPerLun - dieBad d s - spareTarget s.fl.geom))
      - shareAt (padMaxPens trial) 0 trial * (padD s.fl.geom + 1) - headroom 0 trial
    let need0 := conv + (if yardWidth 0 trial = 0 then 0 else ceilDiv (yardNeed 0 s) (max 1 (widePenUnits 0 trial)) * yardWidth 0 trial)
    if losers.any (fun y => y != 0 && decide (yardCanHold y trial < yardNeed y s)) then fin k 7 0x85 s
    else if losers.contains 0 ∧ left0 < need0 then fin k 1 0x15 s
    else if losers.contains 0 ∧ yardCanHold 0 trial < yardNeed 0 s then fin k 7 0x85 s
    else ok k (acceptLayout buf ms s)

/-- SET_FEATURES_YARD_LAYOUT. -/
def execSetFeaturesYardLayout (c : Cmd) (buf : List Byte) (s : State) : Out :=
  done (withCmd c s (fun k s => gateAdmin true false k s (setLayoutOn buf)))

/-! ## What background work needs -/

/-- QLC background moves are allowed: THM = 0b00, not READ_ONLY, a mode that works (R150, R163, R173). -/
def bgQlc (s : State) : Bool := s.m.cur.isBase && s.m.thm == 0 && !s.m.sparesOut && !s.fl.parked
/-- One-bit background moves are allowed: THM is not 0b10. -/
def bgSlc (s : State) : Bool := s.m.cur.isBase && s.m.thm != 2 && !s.m.sparesOut && !s.fl.parked
/-- A break of a cause stands for a Yard or the device. -/
def brokeFor (cause y : Nat) (s : State) : Bool :=
  s.cad.brks.any (fun b => b.cause == cause && (b.yard == some y || b.yard == none))
/-- A turn in which background work of a cause's kind may run (R152, Table 5.2). -/
def turnFor (cause y : Nat) (s : State) : Bool := bgAllowed s && (busyTurn s || brokeFor cause y s)

/-! ## Sources of copies (R205) -/

/-- A source has reached code 7: its copy will carry UNREAD (R205). -/
def loseSource (o q : Nat) (s : State) : State :=
  match pieceAt o q s with
  | some (q0, x) => { s with pl := { s.pl with lostSrc := s.pl.lostSrc ++ [(o, q0, x.pen, x.slot)] } }
  | none => s
/-- A piece as its copy carries it. -/
def carry (o q : Nat) (x : Piece) (s : State) : Piece := if s.pl.lostSrc.contains (o, q, x.pen, x.slot) then { x with unread := true } else x
/-- The sources of an owner's copies that are no longer wanted. -/
def forgetLost (gone : Nat → Nat → Bool) (s : State) : State :=
  if s.pl.lostSrc.isEmpty then s else { s with pl := { s.pl with lostSrc := s.pl.lostSrc.filter (fun e => !gone e.1 e.2.1) } }
/-- The program queued from an operation number on for a piece of work reads its sources first, as class-5 reads (R155, R172). -/
def readSources (mine : Work → Bool) (start : Nat) (ps : List (Nat × Nat)) (s : State) : State :=
  match s.fl.ops.find? (fun o => o.kind == .program && decide (start ≤ o.id) && mine o.work) with
  | none => s
  | some o => ps.foldl (fun s e => match pieceAt e.1 e.2 s with
      | some (_, x) =>
        let r := startRead (srcReader o.id) e.1 e.2 x s
        if r.1 then r.2 else loseSource e.1 e.2 r.2
      | none => s) s

/-! ## Fold (R148) -/

/-- Every written position of unit k is there to fold: stored, or staged. -/
def unitThere (z k : Nat) (q : Zone) (s : State) : Bool :=
  let U := unitPos s.fl.geom
  ((List.range U).map (· + k * U)).all (fun p => decide (q.wp ≤ p) ||
    (match contentAt z p false s with | some (some _) => true | _ => false))

/-- FOLD: the zone's next unit goes from the Paddock and staging into its Pen, once they hold the whole unit or the zone is Full. -/
def execFold (zone : Nat) (s : State) : Out :=
  match zoneAt? zone s with
  | none => .next s
  | some q =>
    let k := nextUnit zone q s
    let U := unitPos s.fl.geom
    let whole := decide ((k + 1) * U ≤ q.wp) || (q.st == .full && decide (k * U < q.wp))
    if bgQlc s && turnFor 0x3044 q.yard s && decide (0 < U) && whole && inPaddock zone s && unitTurn zone k q s && unitThere zone k q s then
      let t := queueUnit zone k true s
      let ps := (piecesOf zone s).filter (fun e => decide (e.1 / U = k) && (match penOf? e.2.pen s with | some p => p.kind.oneBit | none => false))
      doneIo (readSources (fun w => match w with | .unit a b _ true => a == zone && b == k | _ => false) s.fl.nextOp (ps.map (fun e => (zone, e.1))) t)
    else .next s

/-! ## Moves (R154, R155) -/

/-- Key of a Yard's relocation or wear Pen. -/
def dstKey (k : PenKind) (y lcl : Nat) : Nat := (if k = .wear then 4096 else 0) + y * 16 + lcl

/-- An open destination Pen serves a move: it is not the move's source, and stands on no row that is to leave (R138). -/
def dstServes (src : Nat) (p : Nat × Pen) (s : State) : Bool :=
  p.1 != src && s.pl.pending.all (fun r => !p.2.onRow r.1) && decide (p.2.next < penUnits p.2 s.fl.geom)

/-- Take n units in a Yard's relocation (or wear) Pens of a class, for a move of a Pen. -/
def takeDst (src : Nat) (k : PenKind) (y lcl : Nat) : Nat → Nat → State → Option (List (Nat × Nat) × State)
  | _, 0, s => some ([], s)
  | 0, _ + 1, _ => none
  | fuel + 1, n + 1, s =>
    match (Tbl.get? s.pl.relocPen (dstKey k y lcl)).bind (fun id => (penOf? id s).map (fun p => (id, p))) with
    | some (id, p) =>
      if dstServes src (id, p) s then (takeDst src k y lcl fuel n (updPen id (fun p => { p with next := p.next + 1 }) s)).map (fun r => ((id, p.next) :: r.1, r.2))
      else takeDst src k y lcl fuel (n + 1) { s with pl := { s.pl with relocPen := Tbl.del s.pl.relocPen (dstKey k y lcl) } }
    | none =>
      match formQlc k y lcl s with
      | none => none
      | some (id, s1) => takeDst src k y lcl fuel (n + 1) { s1 with pl := { s1.pl with relocPen := Tbl.put s1.pl.relocPen (dstKey k y lcl) id } }

/-- The units of a QLC Pen to move: zone and unit of each reservation on it, those programmed first. -/
def unitsOn (src : Nat) (s : State) : List (Nat × Nat × Nat) :=
  let us := s.zn.zones.flatMap (fun z => ((runUnits z.2.runs).zipIdx.filter (fun u => u.1.1 == src)).map (fun u => (z.1, u.2, z.2.gen)))
  us.filter (fun u => isDone u s) ++ us.filter (fun u => !isDone u s)
where
  /-- The unit has been programmed. -/
  isDone (u : Nat × Nat × Nat) (s : State) : Bool :=
    match zoneAt? u.1 s with | some q => decide (u.2.1 < q.folded) || q.ahead.contains u.2.1 | none => false

/-- The move of a Pen begins: it takes its number, and its source takes no more reservations. -/
def addMove (src y : Nat) (k : PenKind) (its : List MvU) (s : State) : State :=
  { s with pl := { s.pl with
    moves := s.pl.moves ++ [⟨src, y, k, its, s.pl.moveSeq⟩], moveSeq := s.pl.moveSeq + 1,
    openHost := s.pl.openHost.filter (fun e => e.2 != src), relocPen := s.pl.relocPen.filter (fun e => e.2 != src) } }

/-- Start the copies of a QLC Pen's units (R155 step 1): a unit still unwritten moves without a program, and the destination Pen that takes
one takes no other move's units. -/
def startMove (src : Nat) (p : Pen) (k : PenKind) (s : State) : Option State :=
  let us := unitsOn src s
  match takeDst src k p.yard p.lclass (2 * us.length + 2) us.length s with
  | none => none
  | some (ds, s1) =>
    let seq := s1.pl.moveSeq
    let its := (us.zip ds).map (fun e => (⟨e.1.1, e.1.2.1, e.1.2.2, e.2.1, e.2.2⟩ : MvU))
    let live := its.filter (fun i => unitsOn.isDone (i.owner, i.k, i.gen) s)
    let s2 := addMove src p.yard k its s1
    let s3 := if live.length < its.length then { s2 with pl := { s2.pl with relocPen := Tbl.del s2.pl.relocPen (dstKey k p.yard p.lclass) } } else s2
    some (live.foldl (fun s i =>
      match penOf? i.pen s with
      | none => s
      | some d =>
        let loc := unitLoc d i.slot
        let m := nth d.mem loc.1 (0, 8191, false)
        let n0 := s.fl.nextOp
        let t := queueProg m.1 m.2.1 6 loc.2 false (.move seq) (catchUp m.1 m.2.1 loc.2 6 false s)
        let ps := (piecesOf i.owner s).filter (fun e => e.2.pen == src && e.1 / max 1 (unitPos s.fl.geom) == i.k)
        stripeParity i.pen d i.slot 6 (readSources (· == .move seq) n0 (ps.map (fun e => (i.owner, e.1))) t)) s3)

/-- Chunks of a copy into one-bit Pens: each fills a wordline of the Pen that `dst` answers with as many items as `room` says, and its
program reads their sources first. -/
def copyChunks {α : Type} (seq : Nat) (dst : State → Option (Nat × State)) (room : Nat → Nat) (item : Nat → Nat → α → MvU)
    (srcs : α → List (Nat × Nat)) : Nat → List α → State → Option (List MvU × State)
  | _, [], s => some ([], s)
  | 0, _ :: _, _ => none
  | fuel + 1, us, s =>
    match dst s with
    | none => none
    | some (id, s1) =>
      let n := room (wlRoom id s1)
      let base := match penOf? id s1 with | some p => p.next | none => 0
      let t := readSources (· == .move seq) s1.fl.nextOp ((us.take n).flatMap srcs) (landWork id 6 (fun _ => .move seq) s1)
      (copyChunks seq dst room item srcs fuel (us.drop n) t).map (fun r => ((us.take n).mapIdx (fun j u => item id (base + j) u) ++ r.1, r.2))

/-- Start the copies of a one-bit Pen's live pieces into the Yard's landing Pen (R149); the landing Pen itself gives way to a new one. -/
def startPadMove (src : Nat) (p : Pen) (s : State) : Option State :=
  let ps := livePieces src s
  let s0 := if Tbl.get? s.pl.landing p.yard = some src
    then updPen src (fun x => { x with st := .full }) { s with pl := { s.pl with landing := Tbl.del s.pl.landing p.yard } } else s
  (copyChunks s0.pl.moveSeq (landingPen p.yard) (fun n => max 1 n)
    (fun id slot e => ⟨e.1, e.2, (match zoneAt? e.1 s with | some q => q.gen | none => 0), id, slot⟩) (fun e => [e]) (ps.length + 1) ps s0).map
    (fun r => addMove src p.yard .landing r.1 r.2)

/-! ### The conventional region (R132, R133) -/

/-- Valid units of a Pen of the region. -/
def validUnits (p : Nat) (s : State) : List Nat := (s.zn.cmap.filter (fun e => e.2.pen == p)).map (·.1)

/-- A Pen takes part in nothing that runs. -/
def penIdle (p : Nat) (s : State) : Bool := !penPending p s && !penMoving p s

/-- The full Pen of the region to collect: one marked for refresh first (R206), else the one with fewest valid units. -/
def gcVictim (s : State) : Option Nat :=
  let full := s.pl.convPens.filter (fun p => match penOf? p s with | some x => x.st == .full && penIdle p s | none => false)
  match full.find? (fun p => match penOf? p s with | some x => x.refresh | none => false) with
  | some p => some p
  | none => full.foldl (fun o p => match o with
      | none => some p
      | some q => if (validUnits p s).length < (validUnits q s).length then some p else some q) none

/-- HEAT of a unit once garbage collection has moved it. -/
def heatMoved (u : Nat) (s : State) : Nat := match Tbl.get? s.zn.cmap u with | some e => e.heat - 1 | none => 0
/-- Start the copies of a region Pen's valid units into its hot and cold Pens, by their lowered HEAT: four slots a unit, with the 16 KiB slot
each is copied from (R133, R155). A Pen still being filled that must leave its row gives way. -/
def startConvMove (src : Nat) (s : State) : Option State :=
  let us := validUnits src s
  let s0 := updPen src (fun x => { x with st := .full }) { s with pl := { s.pl with
    convHot := if s.pl.convHot = src then 0 else s.pl.convHot, convCold := if s.pl.convCold = src then 0 else s.pl.convCold } }
  let seq := s0.pl.moveSeq
  let one := fun (hot : Bool) (l : List Nat) (s : State) =>
    copyChunks seq (fun t => (convPen hot t).bind (fun r => if r.1 = src then none else some r)) (fun n => max 1 (n / 4))
      (fun id slot u => (⟨convOwner, u, (match Tbl.get? s0.zn.cmap u with | some e => e.slot | none => 0), id, slot⟩ : MvU))
      (fun u => (unitPieces u s0).map (fun e => (convOwner, e.1))) (l.length + 1) l s
  match one true (us.filter (fun u => decide (2 ≤ heatMoved u s))) s0 with
  | none => none
  | some (a, s1) =>
    (one false (us.filter (fun u => decide (heatMoved u s < 2))) s1).map (fun r => addMove src 0 .conv (a ++ r.1) r.2)

/-! ### Wear (R158) -/

/-- Wear spread of a Yard (R158). -/
def wearSpread (y : Nat) (s : State) : Nat :=
  let l := (yardDies y s).flatMap (fun d => dieSpreadWears d s)
  maxL l - minL 0 l

/-- Wear levelling ends in a Yard at 3/4 of its WL_SPREAD: 0x3061. -/
def wearEnds (y : Nat) (s : State) : State :=
  if (yardOf y s).wlActive && decide (4 * wearSpread y s ≤ 3 * (yardOf y s).wlSpread) then
    raise 0x3061 0 [h1 y, h2 (wearSpread y s)] (updYard y (fun c => { c with wlActive := false }) s)
  else s

/-! ### Map-commit -/

/-- The map-commit of one item of a move: the newest generation stands (R156, R157). A unit of the region goes to its new slot with HEAT one
lower; its map-commit is its persisted mapping (R68, R132, R155). -/
def commitItem (src : Nat) (kind : PenKind) (i : MvU) (s : State) : State :=
  match kind with
  | .landing =>
    (match Tbl.get? (piecesOf i.owner s) i.k with
    | some p =>
      let gen := match zoneAt? i.owner s with | some q => q.gen | none => 0
      if p.pen = src ∧ gen = i.gen then putPiece i.owner i.k { carry i.owner i.k p s with pen := i.pen, slot := i.slot, lseq := lseqIn i.pen s } s else s
    | none => s)
  | .conv =>
    (match Tbl.get? s.zn.cmap i.k with
    | some e =>
      if e.pen = src ∧ e.slot = i.gen then
        let s1 := mapPieces convOwner (fun q x => if q / 8 = i.k then { carry convOwner q x s with pen := i.pen, slot := i.slot + q % 8 / 2 } else x) s
        putMap i.k ⟨e.heat - 1, i.pen, i.slot / 4, e.lost⟩ { s1 with zn := { s1.zn with convOld := Tbl.del s1.zn.convOld i.k } }
      else s
    | none => s)
  | _ =>
    match zoneAt? i.owner s with
    | none => s
    | some q =>
      if q.gen ≠ i.gen ∨ (match (runUnits q.runs)[i.k]? with | some u => u.1 | none => 0) ≠ src then s
      else
        let U := unitPos s.fl.geom
        let c := max 1 (cwPerUnit s.fl.geom)
        mapPieces i.owner (fun pos x =>
            if x.pen = src ∧ pos / max 1 U = i.k then { carry i.owner pos x s with pen := i.pen, slot := i.slot * c + x.slot % c, lseq := 0 } else x)
          (updZone i.owner (fun q => { q with runs := toRuns (setNth (runUnits q.runs) i.k (i.pen, i.slot)) }) s)

/-- A Pen of the region from which the last valid unit has gone is erased in place, or, on a row that is to move, gives its number to a
fresh Pen (R133, R138). Deltas that named it are persisted first. -/
def emptyConv (src : Nat) (s : State) : State :=
  if !(validUnits src s).isEmpty || !(livePieces src s).isEmpty then s
  else
    let s0 := { s with zn := { s.zn with convOld := s.zn.convOld.filter (fun e => match e.2.1 with | some m => m.pen != src | none => true) } }
    if s0.pl.pending.any (fun r => match penOf? src s0 with | some p => p.onRow r.1 | none => false) then retirePen src (freshConv src s0)
    else recyclePen src s0

/-- All copies of a move have passed: map-commit, then the source is erased, its erase-intents first (R155). A source that has come to hold
anything else since stays. -/
def commitMove (seq : Nat) (s : State) : State :=
  match s.pl.moves.find? (fun m => m.seq == seq) with
  | none => s
  | some m =>
    if s.fl.ops.any (fun o => o.work == .move seq) then s
    else
      let s1 := m.items.foldl (fun s i => commitItem m.src m.kind i s) { s with pl := { s.pl with moves := s.pl.moves.filter (fun x => x.seq != seq) } }
      let s2 := addStale ((m.items.filter (fun i => i.owner != convOwner)).map (fun i => (i.owner, m.src)))
        (forgetLost (fun o q => m.items.any (fun i => i.owner == o && (match m.kind with
          | .landing => i.k == q | .conv => q / 8 == i.k | _ => q / max 1 (unitPos s.fl.geom) == i.k))) s1)
      let s3 := updYard m.yard (fun c => { c with relocs := c.relocs - b2n (m.kind == .reloc), relocPrio := false }) s2
      let s4 := if m.kind = .conv then emptyConv m.src s3
        else if (livePieces m.src s3).isEmpty && penReserved m.src s3 == 0 then retirePen m.src s3 else s3
      wearEnds m.yard (settleRows s4)

/-- A move is given up: its source stands, and its copies are dead (Table 5.3). -/
def dropMove (seq : Nat) (s : State) : State :=
  match s.pl.moves.find? (fun m => m.seq == seq) with
  | none => s
  | some m =>
    let ids := (s.fl.ops.filter (fun o => o.work == .move seq)).map (·.id)
    let mine := fun (o : AOp) => (o.work == .move seq && o.st == .queued) || (match o.work with
      | .host i _ _ => ids.any (fun n => i == srcReader n) | .recon i _ _ _ _ _ => ids.any (fun n => i == srcReader n) | _ => false)
    updYard m.yard (fun c => { c with relocs := c.relocs - b2n (m.kind == .reloc) })
      { s with
        pl := { s.pl with moves := s.pl.moves.filter (fun x => x.seq != seq) },
        fl := { s.fl with ops := s.fl.ops.filter (fun o => !mine o) } }

/-- A move whose copies have all ended at once (nothing to program) commits in the same step. -/
def afterStart (s : State) : State := (s.pl.moves.map (·.seq)).foldl (fun s q => commitMove q s) s

/-! ## The rows -/

/-- PADDOCK_COMPACTION (R149): fewer free landing Pens than half the share; a Pen marked for refresh is compacted whatever their number
(R206). -/
def execPaddockCompaction (yard : Nat) (s : State) : Out :=
  if bgSlc s && turnFor 0x3044 yard s then
    let s1 := retireDead yard s
    let cand := (pensIn yard .landing s1).filter (fun p => p.2.st == .full && some p.1 != Tbl.get? s1.pl.landing yard && penIdle p.1 s1)
    let marked := cand.filter (fun p => p.2.refresh)
    if !marked.isEmpty || decide (2 * freeLanding yard s1 < yardShare yard s1) then
      match (if marked.isEmpty then cand else marked).foldl (fun (o : Option (Nat × Pen)) p => match o with
          | none => some p | some q => if p.2.born < q.2.born then some p else some q) none with
      | some (id, p) => (match startPadMove id p s1 with
        | some t => doneIo (afterStart t)
        | none => doneIo s1)
      | none => doneIo s1
    else doneIo s1
  else .next s

/-- CONVENTIONAL_GARBAGE_COLLECTION (R133): in busy turns with fewer than 3 free Pens, in any turn with fewer than 2: 0x3030 and the
break, which ends when 2 are free again. READ_ONLY and THM = 0b10 stop it (R163, R173). -/
def execConventionalGarbageCollection (s : State) : Out :=
  let f := convFree s
  let due := decide (f < 3) || s.pl.convPens.any (fun p => match penOf? p s with | some x => x.refresh && x.st == .full | none => false)
  if s.pl.convPens.isEmpty || !due || !bgSlc s then .next s
  else
    let s1 := if decide (f < 2) && !busyTurn s && !s.pl.convBreak then
      reportBreak 0x3030 (some 0) (raise 0x3030 1 [h2 f] { s with pl := { s.pl with convBreak := true } }) else s
    if !turnFor 0x3030 0 s1 then .next s
    else match (gcVictim s1).bind (fun p => startConvMove p s1) with
      | some t => doneIo (afterStart t)
      | none => done s1

/-- What relocation takes first in a Yard: a degraded Pen (R161), then one marked for refresh (R206), then what policy names (R154). -/
def relocRank (p : Pen) : Nat := if p.degraded || p.mem.any (fun m => m.2.2) then 0 else if p.refresh then 1 else 2
/-- No other QLC Pen of the Yard with data to move comes before this one. -/
def relocFirst (id : Nat) (p : Pen) (s : State) : Bool :=
  s.pl.pens.all (fun x => x.1 == id || x.2.yard != p.yard || x.2.kind.oneBit || decide (relocRank p ≤ relocRank x.2) || !penIdle x.1 s
    || ((livePieces x.1 s).isEmpty && penReserved x.1 s == 0))
/-- Relocation may run: in a busy turn, or for a scrub that has broken the schedule, of the Pens that hold its zone's dead copies (R123,
Table 5.2). -/
def relocTurn (id : Nat) (p : Pen) (s : State) : Bool :=
  bgAllowed s && (busyTurn s || (brokeFor 0x3022 p.yard s && s.zn.scrubs.any (fun c => c.broke && s.zn.stale.contains (c.zone, id))))

/-- RELOCATION (R154, R155): firmware names a Pen. One with no live units is erased without copying; at most 4 run in a Yard. A Pen of the
conventional region, which relocation evacuates from a row that is to move, is emptied as by garbage collection (R138). -/
def execRelocation (pen : Nat) (s : State) : Out :=
  match penOf? pen s with
  | none => .next s
  | some p =>
    if !penIdle pen s || p.kind == .flushRes || !relocTurn pen p s then .next s
    else if p.kind == .conv then
      (if bgSlc s && (p.st == .full || p.st == .filling) then match startConvMove pen s with
        | some t => doneIo (afterStart t) | none => .next s else .next s)
    else if (livePieces pen s).isEmpty && penReserved pen s == 0 then
      (if s.m.cur.isBase && p.st != .erased then doneIo (settleRows (retirePen pen s)) else .next s)
    else if p.kind == .landing then
      (if bgSlc s then match startPadMove pen p s with | some t => doneIo (afterStart t) | none => .next s else .next s)
    else if !bgQlc s || decide (4 ≤ (yardOf p.yard s).relocs) || !relocFirst pen p s then .next s
    else match startMove pen p .reloc s with
      | some t => doneIo (afterStart (updYard p.yard (fun c => { c with relocs := c.relocs + 1 }) t))
      | none => .next s

/-- The Pen wear levelling moves: the lowest mean wear count among those whose zones are all Full, the oldest on a tie. -/
def wearSource (y : Nat) (s : State) : Option Nat :=
  let mean := fun (p : Pen) => let w := (p.mem.filter (fun m => m.2.1 != 8191)).map (fun m => (bkOf m.1 m.2.1 s).wear)
    if w.isEmpty then 0 else sumN w * 1000 / w.length
  let stamp := fun (i : Nat) => minL 0 ((unitsOn i s).map (fun u => match zoneAt? u.1 s with | some q => q.actStamp | none => 0))
  let cand := s.pl.pens.filter (fun p => p.2.yard == y && !p.2.kind.oneBit && penIdle p.1 s &&
    !(unitsOn p.1 s).isEmpty && (unitsOn p.1 s).all (fun u => match zoneAt? u.1 s with | some q => q.st == .full | none => false))
  (cand.foldl (fun (o : Option (Nat × Pen)) p => match o with
    | none => some p
    | some q => if mean p.2 < mean q.2 ∨ (mean p.2 = mean q.2 ∧ stamp p.1 < stamp q.1) then some p else some q) none).map (·.1)

/-- WEAR_LEVELLING (R158): started past WL_SPREAD with 0x3060, ended at 3/4 of it with 0x3061; one move at a time, relocation first. -/
def execWearLevelling (yard : Nat) (s : State) : Out :=
  let sp := wearSpread yard s
  let c := yardOf yard s
  if bgQlc s && bgAllowed s && busyTurn s && (c.wlActive || decide (c.wlSpread < sp)) then
    let s1 := wearEnds yard (if c.wlActive then s else raise 0x3060 0 [h1 yard, h2 sp] (updYard yard (fun c => { c with wlActive := true }) s))
    if !(yardOf yard s1).wlActive || s1.pl.moves.any (fun m => m.yard == yard && (m.kind == .wear || m.kind == .reloc)) || c.relocPrio then done s1
    else match (wearSource yard s1).bind (fun id => (penOf? id s1).map (fun p => (id, p))) with
      | some (id, p) => (match startMove id p .wear s1 with | some t => doneIo (afterStart t) | none => done s1)
      | none => done s1
  else .next s

/-- LANDING_SPACE_RETURNS (R150): waiting pieces are placed, and the transfers of waiting writes may start. -/
def execLandingSpaceReturns (yard : Nat) (s : State) : Out :=
  if (yardOf yard s).noLanding && !noLandingSpace yard s then
    let s1 := updYard yard (fun c => { c with noLanding := false }) s
    doneIo (placeWaiting yard { s1 with zn := { s1.zn with wrs := updWhere (fun w => w.yard == yard) (fun w => { w with xferWait := false }) s1.zn.wrs } })
  else .next s

end Sys2Proof.Machine
end

