-- ==== Sys2Proof/Machine/FlashCh.lean ====
section
/-! DEFINITION. The flash channels (Chapter 6): the sequencers, the block state table's checks, programs, erases and their failures,
suspension, the decode ladder's outcome for a read, eyes, time-outs, the diagnostic access. -/

namespace Sys2Proof.Machine
open Sys2Proof

/-! ## Failures and replacement (R160, R161) -/

/-- A Pen lost beyond its parity: 0x3051, its zones Offline, its conventional units lost (R161). -/
def losePen (id : Nat) (s : State) : State :=
  match penOf? id s with
  | none => s
  | some p =>
    let zs := ((livePieces id s).map (·.1)).dedup.filter (fun o => o != convOwner && (match zoneAt? o s with | some q => q.st != .offline | none => false))
    let s1 := raise 0x3051 3 [h2 id, h2 zs.length] s
    let s2 := zs.foldl (fun s z => makeOffline z (if p.kind.oneBit then 1 else 0) s) s1
    { s2 with zn := { s2.zn with cmap := Tbl.mapV s2.zn.cmap (fun _ e => if e.pen = id then { e with lost := true } else e) } }

/-- A worn-out or failed die is missing from the Pens it is a member of: reservations lose their unwritten units there (R161). -/
def loseDie (d : Nat) (s : State) : State :=
  let ps := s.pl.pens.filter (fun p => p.2.mem.any (fun m => m.1 == d && !m.2.2))
  let s1 := ps.foldl (fun s p =>
    let m' := p.2.mem.map (fun m => if m.1 = d then (m.1, m.2.1, true) else m)
    let s1 := loseUnits p.1 (updPen p.1 (fun p => { p with mem := m', degraded := true }) s)
    if p.2.parity < (m'.filter (fun m => m.2.2)).length then losePen p.1 s1 else s1) s
  checkSpares s1

/-- A die with no spare left that loses another block is worn out: 0x3063. -/
def wearOut (d : Nat) (s : State) : State :=
  loseDie d (raise 0x3063 2 [h1 (dieCh d), h1 (dieLun d)] (updLun d (fun l => { l with wornOut := true }) s))

/-- A free block of a die to stand in: one outside its lists first. -/
def spareOf (d : Nat) (s : State) : Option Nat :=
  let l := lunOf d s
  let inList := fun (b : Nat) => l.low.any (fun e => e.1 == b) || l.high.any (fun e => e.1 == b)
  let f := (freeByWear d s).map (·.1)
  match f.find? (fun b => !inList b) with
  | some b => some b
  | none => f.head?

/-- A block becomes Bad: its live entry is released, and it counts in the Yard of its row (R182, Table 5.4). -/
def goBad (d b : Nat) (s : State) : State :=
  let y := yardOfRow (64 * dieShed d + dieLun d) s
  let t := updBk d b (fun x => { x with st := .bad, hasLive := false }) s
  if y = 0xFF then t else updYard y (fun c => { c with badBlocks := satAdd 32 c.badBlocks 1 }) t

/-- Queued programs of a block go to its replacement. -/
def retarget (d old new : Nat) (s : State) : State :=
  { s with fl := { s.fl with ops := s.fl.ops.map (fun o =>
      if o.ch = dieCh d ∧ o.lun = dieLun d ∧ o.blk = old ∧ o.kind = .program ∧ o.st = .queued
      then { o with blk := new, egen := (bkOf d new s).egen } else o) } }

/-- The live codewords on a wordline of a Pen's member. -/
def piecesOn (pid : Nat) (p : Pen) (m wl : Nat) (s : State) : List (Nat × Nat) :=
  (livePieces pid s).filter (fun e => match pieceAt e.1 e.2 s with | some (_, x) => slotLoc p x.slot s.fl.geom == (m, wl) | none => false)
/-- The copies of a replaced member's wordlines read what the failed block holds first (R160 step 3, R155). -/
def copyOld (pid m d nb : Nat) (s : State) : State :=
  match penOf? pid s with
  | none => s
  | some p => (s.fl.ops.filter (fun o => o.work == .background && o.blk == nb && dieKey o.ch o.lun == d)).foldl (fun s o =>
      readSources (· == .background) o.id (piecesOn pid p m o.wl s) s) s

/-- Replace a Pen member block that failed or was refused (R160): a spare of the same die, 0x3062; with none left the die is worn out.
Programs that wait go to the new member; what the old block holds is copied in busy turns, and read there until then. -/
def replaceMember (d b : Nat) (s : State) : State :=
  let k := bkOf d b s
  let leave := fun (s : State) => updBk d b (fun x => { x with role := if x.role.inTack then x.role else .free }) s
  match s.pl.pens.find? (fun p => p.2.mem.any (fun m => m.1 == d && m.2.1 == b)) with
  | none => s
  | some (p, pn) =>
    match (if dieSpares d s = 0 then none else spareOf d s) with
    | none => wearOut d (leave s)
    | some nb =>
      let s1 := updBk d nb (fun x => { x with role := .pen p, prechkFailed := false }) (leave s)
      let s2 := updLun d (fun x => { x with low := x.low.filter (fun e => e.1 != nb), high := x.high.filter (fun e => e.1 != nb) }) s1
      let s3 := updPen p (fun q => { q with
        mem := q.mem.map (fun m => if m.1 = d ∧ m.2.1 = b then (d, nb, m.2.2) else m),
        old := if k.nextWl = 0 then q.old else (d, b, k.nextWl) :: q.old }) s2
      let s4 := if k.nextWl = 0 then releaseOld (d, b, 0) s3 else s3
      let s5 := retarget d b nb (readyBlock p (raise 0x3062 1 [h2 p, h1 (dieArg d), h2 (dieSpares d s4)] s4) (d, nb, false))
      let m := (pn.mem.findIdx? (fun m => m.1 == d && m.2.1 == b)).getD 0
      checkSpares (copyOld p m d nb (catchUp d nb k.nextWl 6 pn.kind.oneBit s5))

/-- A new member has taken all that its predecessors held: a quarantined one is erased in the normal order (R181). -/
def settleOld (d b : Nat) (s : State) : State :=
  match s.pl.pens.find? (fun p => !p.2.old.isEmpty && p.2.mem.any (fun m => m.1 == d && m.2.1 == b)) with
  | none => s
  | some (id, p) =>
    let n := (bkOf d b s).nextWl
    let done_ := p.old.filter (fun o => o.1 == d && decide (o.2.2 ≤ n))
    done_.foldl (fun s o => releaseOld o s) (updPen id (fun p => { p with old := p.old.filter (fun o => !(o.1 == d && decide (o.2.2 ≤ n))) }) s)

/-- The data of a program that has no block to go to is placed again: landed data and units still staged in the Paddock's stream;
a copy's move is given up, its source stands. -/
def placeAgain (o : AOp) (s0 : State) : State :=
  let s := { s0 with fl := { s0.fl with ops := s0.fl.ops.filter (fun x => match x.work with
    | .host i _ _ => i != srcReader o.id | .recon i _ _ _ _ _ => i != srcReader o.id | _ => true) } }
  match o.work with
  | .land qs _ _ =>
    let ps := qs.filter (fun q => q != (0, 0))
    let y := match ps.head? with | some q => (match wrAt q.1 s with | some w => w.yard | none => 0) | none => 0
    let cv := ps.any (fun q => match wrAt q.1 s with | some w => w.owner == convOwner | none => false)
    if cv then landConv ps s else landAll y (ps.length + 1) ps s
  | .unit z k _ false =>
    let U := unitPos s.fl.geom
    let ps := s.zn.wrs.flatMap (fun w => if w.owner = z then (w.left.filter (fun p => U != 0 && p / U == k)).map (fun p => (w.id, p)) else [])
    landAll (match zoneAt? z s with | some q => q.yard | none => 0) (ps.length + 1) ps s
  | .move q => dropMove q s
  | _ => s

/-! ## What a read answers (R204 to R206) -/

/-- The refresh threshold of a class. -/
def refThr (c : Nat) (s : State) : Nat := if c = 1 then s.ecc.ref1 else if c = 2 then s.ecc.ref2 else if c = 3 then s.ecc.ref3 else s.ecc.ref4
/-- The class a block that is no Pen's member has (R203): 4 in the Tack Room, 1 for calibration. -/
def Role.cls (r : Role) : Nat := if r.inTack then 4 else 1

/-- The codewords of an owner use the extended layout: its namespace is formatted 4096+64 (R201). -/
def extCw (o : Nat) (s : State) : Bool :=
  s.zn.nss.any (fun n => (if o == convOwner then n.2.conv else n.2.zones.contains o) && mdLen n.2.lbaf == 64)
/-- Owner and position of the live data a codeword of a Pen holds. -/
def ownerAt (t : Target) (s : State) : Option (Nat × Nat) :=
  (piecesOn t.pid t.pen t.m t.wl s).find? (fun e => match pieceAt e.1 e.2 s with
    | some (_, x) => x.slot % cwPerMember t.pen s.fl.geom == t.cw | none => false)
/-- The class a codeword is encoded at: its Pen's, and class 3 at most where the layout is extended: parity codewords, and those of a
namespace formatted 4096+64 (R201). A reader that does not know the format decodes the layout the codeword has, whose syndrome is the
lighter one. -/
def cwClass (t : Target) (s : State) : Nat :=
  let ext := (parityAt t.pen t.wl).contains t.m || (match ownerAt t s with | some e => extCw e.1 s | none => false)
  if ext then min t.pen.cls 3 else t.pen.cls

/-- Mark a Pen for refresh: 0x5021, once per Pen (R206). -/
def markRefresh (p ladder : Nat) (s : State) : State :=
  match penOf? p s with
  | some x => if x.refresh then s else raise 0x5021 0 [h2 p, h1 ladder] (updPen p (fun x => { x with refresh := true }) s)
  | none => s

/-- Count a codeword's ladder code. -/
def countLadder (l : Nat) (s : State) : State :=
  { s with ecc := { s.ecc with ladder := Tbl.put s.ecc.ladder l (satAdd 64 (Tbl.getD s.ecc.ladder l 0) 1) } }

/-- A reader's codeword has arrived by a path, with its ladder code. -/
def gotPiece (id o q path ladder : Nat) (s : State) : State :=
  updRd id (fun rd => { rd with
    rpath := max rd.rpath path, ladder := max rd.ladder ladder,
    parts := rd.parts.map (fun x => if x.owner = o ∧ (x.units.contains q ∨ x.units.contains (q + 1)) then { x with got := x.got ++ [q] } else x) }) s

/-- A host's or a Gather element's codeword is not recovered. -/
def lostPiece (id o q path : Nat) (s : State) : State :=
  let two : Bool := match pieceAt o q s with | some (_, p) => p.units == 2 | none => true
  let s1 := match pieceAt o q s with
    | some (_, p) => (match targetOf id o q s with
      | some t => unrecovered p.pen (dieArg (t.place s).1) o q s
      | none => unrecovered p.pen 0 o q s)
    | none => s
  updRd id (fun rd => { rd with
    rpath := max rd.rpath path, ladder := max rd.ladder 7,
    parts := rd.parts.map (fun x => if x.owner = o ∧ (x.units.contains q || two && x.units.contains (q + 1)) then x.lose else x) }) s1

/-- A reader's codeword reaches code 7 (R205): a host's read is lost, a copy's source is noted for its copy. -/
def readLost (id o q path : Nat) (s : State) : State :=
  if id = combReader then s
  else if id < 2 ^ 41 then lostPiece id o q path s
  else
    let die := match targetOf id o q s with | some t => dieArg (t.place s).1 | none => 0
    match pieceAt o q s with
    | some (_, x) => loseSource o q (unrecovered x.pen die o q s)
    | none => s

/-- The retention bin of a block: by the yard time since its last program (R204). -/
def retBin (d b : Nat) (s : State) : Nat :=
  let h := (s.tm.elapsed - (bkOf d b s).pgmAt) / 3600000000
  if h < 1 then 0 else if h < 24 then 1 else if h < 168 then 2 else if h < 720 then 3 else if h < 2160 then 4
  else if h < 8760 then 5 else if h < 26280 then 6 else 7
/-- The learned-offset entry of a die for a block's bins. -/
def learnKey (d b : Nat) (s : State) : Nat := d * 32 + retBin d b s * 4 + (Config.wearBin (bkOf d b s).wear).val
/-- Step 1 decoded: at the entry's own offset, which stands, or at one of the neighbouring retention bins', which it then takes (R204). Which
of the rereads decoded, and the offset, the spec leaves to the package: free values. -/
def learnOffset (d b : Nat) (s : State) : State :=
  if Config.freeBit s.free then tick s
  else tick (tick { s with ecc := { s.ecc with learned := Tbl.put s.ecc.learned (learnKey d b s) (Config.freeNat (s.free + 1) % 256) } })

/-- A pass counts a codeword it has read: its corrected bits by class, its ladder code, the blocks it marks (Table 7.9). -/
def combEnds (t : Target) (ladder corr : Nat) (marked : Bool) (s : State) : State :=
  let c := cwClass t s
  let e := t.place s
  let n := if marked then (t.pen.mem.filter (fun m => m.2.1 != 8191)).length else 0
  let s1 := combCount (fun x => { x with
    c1 := x.c1 + (if c = 1 then corr else 0), c2 := x.c2 + (if c = 2 then corr else 0), c3 := x.c3 + (if c = 3 then corr else 0),
    c4 := x.c4 + (if c = 4 then corr else 0), ladderHi := x.ladderHi + b2n (ladder == 1 || ladder == 2), rebuilt := x.rebuilt + b2n (ladder == 3),
    uncorr := x.uncorr + b2n (ladder == 7), refreshed := x.refreshed + n }) s
  if ladder = 0 then updPass (fun p => { p with samples := p.samples ++ [((Config.wearBin (bkOf e.1 e.2.1 s).wear).val, corr)] }) s1 else s1

/-- The running pass marks for refresh; a survey does not (R217). -/
def passMarks (s : State) : Bool := match s.ecc.running with | some p => p.refresh | none => false

/-- A codeword read ends at a ladder code (Table 7.4), with the bits it corrected: counted, recorded, its Pen marked for refresh where it
needed step 1 or beyond, or more corrected bits than its class's threshold (R205, R206). -/
def readEnds (id o q path ladder corr : Nat) (s : State) : State :=
  match targetOf id o q s with
  | none => gotPiece id o q path ladder (countLadder ladder s)
  | some t =>
    let e := t.place s
    let s1 := countLadder ladder s
    let s2 := if ladder = 3 then raise 0x5011 1 [h2 t.pid, h1 (dieArg e.1)] s1 else s1
    let due := ((1 ≤ ladder ∧ ladder ≤ 3) ∨ ladder = 7 ∨ refThr (cwClass t s) s < corr) && (id != combReader || passMarks s)
    let s3 := if due then markRefresh t.pid ladder s2 else s2
    let s4 := if ladder = 1 then learnOffset e.1 e.2.1 s3 else s3
    let s5 := if id = combReader then combEnds t ladder corr (due && !t.pen.refresh) s4 else s4
    if ladder = 7 then readLost id o q path s5 else gotPiece id o q path ladder s5

/-- Steps 0 to 2 of a codeword's read have failed, or its page answers EMPTY: the rebuild of step 3, where the stripe allows it (R183, R204,
R208). -/
def stepThree (id o q path : Nat) (s : State) : State :=
  match targetOf id o q s with
  | some t => if rebuildable t [] s then queueRecon id o q path t s else readEnds id o q path 7 0 s
  | none => readEnds id o q path 7 0 s

/-- A member read of a rebuild has failed: another member takes its place, where one is left (R208). -/
def memberFails (rid m : Nat) (s : State) : State :=
  match s.fl.ops.find? (fun o => o.id == rid && o.ch == 64) with
  | none => s
  | some r =>
    match r.work with
    | .recon id o q path used bad =>
      let bad' := bad ++ [m]
      let set := fun (u : List Nat) (s : State) => updOp rid (fun r => { r with work := .recon id o q path u bad' }) s
      (match targetOf id o q s with
      | none => set used s
      | some t => match (List.range t.pen.mem.length).find? (fun x => !used.contains x && !t.pen.away t.m bad' s x) with
        | some x => if unavailable t.pen t.m bad' s ≤ t.pen.parity then set (used ++ [x]) (queueMember rid t x s) else set used s
        | none => set used s)
    | _ => s

/-! ## Running parity (R209) -/

/-- Bytes of running parity an open stripe takes. -/
def rparBytes (pid : Nat) (s : State) : Nat :=
  match penOf? pid s with
  | some p => if p.kind.oneBit then s.fl.geom.pageData * s.fl.geom.planes else unitBytes s.fl.geom * p.parity
  | none => 0
/-- The oldest running parity of a Shed die is dropped while its store of 1 MiB is over full; the newest stays. -/
def rparTrim (sh : Nat) : Nat → State → State
  | 0, s => s
  | n + 1, s =>
    let mine := s.fl.rpar.filter (fun r => match penOf? r.1 s with | some p => p.shed == sh | none => false)
    match mine with
    | r :: _ :: _ => if 1048576 < sumN (mine.map (fun r => rparBytes r.1 s)) then rparTrim sh n { s with fl := { s.fl with rpar := s.fl.rpar.erase r } } else s
    | _ => s
/-- A stripe's running parity is in the store. -/
def rparAdd (pid k : Nat) (s : State) : State :=
  if s.fl.rpar.contains (pid, k) then s
  else match penOf? pid s with
    | none => s
    | some p => rparTrim p.shed (s.fl.rpar.length + 1) { s with fl := { s.fl with rpar := s.fl.rpar ++ [(pid, k)] } }
/-- The Pen and stripe a data or parity program works on: a stripe is one wordline of each member. -/
def AOp.stripe (o : AOp) (s : State) : Option (Nat × Pen × Nat) :=
  match o.kind, o.work with
  | .program, .background => none
  | .program, .journal => none
  | .program, _ => (s.pl.pens.find? (fun p => p.2.mem.any (fun m => m.1 == dieKey o.ch o.lun && m.2.1 == o.blk))).map (fun p => (p.1, p.2, o.wl))
  | _, _ => none
/-- Data members of a stripe that hold its wordline. -/
def stripeProgs (p : Pen) (k : Nat) (s : State) : List Nat :=
  (List.range p.mem.length).filter (fun m => !(parityAt p k).contains m && decide (k < progWls p m s) && !(nth p.mem m (0, 8191, true)).2.2)
/-- A program waits for its stripe's running parity to be recomputed: units of it are programmed, and the store does not hold it. -/
def needsPar (o : AOp) (s : State) : Bool :=
  match o.stripe s with
  | some (pid, p, k) => !s.fl.rpar.contains (pid, k) && !(stripeProgs p k s).isEmpty
  | none => false
/-- Read the programmed units of the stripes whose running parity a channel's queued programs wait for (R209). The spec gives these reads
no class: class 5, outside the busy schedule (DESIGN CHOICE, log 86). -/
def parWatch (ch : Nat) (s : State) : State :=
  (s.fl.ops.filter (fun o => o.ch == ch && o.st == .queued && o.kind == .program && needsPar o s)).foldl (fun s o =>
    match o.stripe s with
    | some (pid, p, k) =>
      if s.fl.ops.any (fun x => x.work == .par pid k) then s
      else
        let ms := (stripeProgs p k s).filter (fun m => dieReadable (nth p.mem m (0, 8191, true)).1 s)
        if ms.isEmpty then rparAdd pid k s
        else ms.foldl (fun s m => queueRead (nth p.mem m (0, 8191, true)).1 (memBlk p m k s) 5 k 0 p.kind.oneBit (.par pid k) s) s
    | none => s) s
/-- One of those reads has ended: with the last, the running parity is there again. -/
def parDone (pid k : Nat) (s : State) : State := if s.fl.ops.any (fun x => x.work == .par pid k) then s else rparAdd pid k s

/-! ## Failed LUNs and channels (R195) -/

/-- A read operation that cannot be carried out is given back to its reader, as a failed read of that member. -/
def readFailed (o : AOp) (path : Nat) (s : State) : State :=
  match o.work with
  | .host id ow q => stepThree id ow q path s
  | .member r m => memberFails r m s
  | .par pid k => parDone pid k s
  | _ => s

/-- A LUN has failed: its bit, 0x4031, and placement treats it as worn out (R195). Its operations go elsewhere. -/
def failLun (d : Nat) (s : State) : State :=
  if (lunOf d s).failed then s
  else
    let ops := dieOps d s
    let s1 := { s with fl := { s.fl with ops := s.fl.ops.filter (fun o => !(o.ch == dieCh d && o.lun == dieLun d)) } }
    let s2 := raise 0x4031 2 [h1 (dieCh d), h1 (dieLun d)]
      (updChn (dieCh d) (fun c => { c with luns := c.luns - 1 }) (updLun d (fun l => { l with failed := true }) s1))
    let s3 := wearOut d s2
    ops.foldl (fun s o => if o.kind = .read then readFailed o 2 s else placeAgain o s) s3

/-- A channel has failed: STATE 0x3, 0x4032, all its LUNs failed. -/
def failChannel (ch cause : Nat) (s : State) : State :=
  if (chnOf ch s).state = 3 then s
  else
    let s1 := raise 0x4032 3 [h1 ch, h1 cause] (updChn ch (fun c => { c with state := 3, rate := 0 }) s)
    ((s.fl.luns.map (·.1)).filter (fun d => dieCh d == ch)).foldl (fun s d => failLun d s) s1

/-- A LUN failed with which its channel has none left. -/
def failLunCh (d : Nat) (s : State) : State :=
  let s1 := failLun d s
  if (s1.fl.luns.filter (fun p => dieCh p.1 == dieCh d)).all (fun p => p.2.failed || p.2.excluded) then failChannel (dieCh d) 0 s1 else s1

/-! ## Starting an operation (R172, R173, R180, R184) -/

/-- Operations a channel may run at once under the throttle: N = max(1, L × min(F, T) / 64). -/
def rateN (ch : Nat) (s : State) : Nat := max 1 ((chnOf ch s).luns * min s.pw.f s.pw.t / 64)
/-- Operations that run on a channel, class 1 aside. -/
def chRunning (ch : Nat) (s : State) : Nat := (s.fl.ops.filter (fun o => o.ch == ch && (o.st == .running || o.st == .suspending) && o.cls != 1)).length

/-- An erase of a Pen's block that a host's program waits for (R141); others are background work. -/
def eraseForHost (o : AOp) (s : State) : Bool :=
  o.kind == .erase && (match (bkOf (dieKey o.ch o.lun) o.blk s).role with | .pen _ => true | _ => false)
    && s.fl.ops.any (fun x => x.kind == .program && x.cls == 3 && x.ch == o.ch && x.lun == o.lun && x.blk == o.blk)
/-- The operation is background work, confined to busy turns (R152, R216). -/
def isBackground (o : AOp) (s : State) : Bool :=
  match o.work with
  | .prechk => false
  | .diag => false
  | .par _ _ => false
  | _ => decide (5 ≤ o.cls) && !eraseForHost o s

/-- The Pen whose member a block is. -/
def penHere (d b : Nat) (s : State) : Option (Nat × Pen) := s.pl.pens.find? (fun p => p.2.mem.any (fun m => m.1 == d && m.2.1 == b))
/-- The program that a copy's source read is for. -/
def copyFor (o : AOp) (s : State) : AOp :=
  match o.work with
  | .host id _ _ => (s.fl.ops.find? (fun x => id == srcReader x.id)).getD o
  | _ => o
/-- A scrub that has broken the schedule waits for a block (R123). -/
def scrubWants (key : Nat) (s : State) : Bool := s.zn.scrubs.any (fun c => c.broke && c.blocks.contains key)
/-- The move an operation copies for. -/
def moveFor (o : AOp) (s : State) : Option Move := match o.work with | .move q => s.pl.moves.find? (fun m => m.seq == q) | _ => none
/-- Work of garbage collection in the conventional region (R133). -/
def gcWork (o : AOp) (d : Nat) (s : State) : Bool :=
  (match moveFor o s with | some m => m.kind == PenKind.conv | none => false) ||
    ((o.kind == .erase || o.cls == 6) && (match penHere d o.blk s with | some p => p.2.kind == PenKind.conv | none => false))
/-- Work of folds and of Paddock compaction, the source's erase among it (R148, R149). -/
def padWork (o : AOp) (d : Nat) (s : State) : Bool :=
  (match o.work with | .unit _ _ _ true => true | .parity _ _ _ => o.cls == 6 | _ => false) ||
    (match moveFor o s with | some m => m.kind == PenKind.landing | none => false) || (o.kind == .erase && (bkOf d o.blk s).onebit)
/-- Work of a scrub that has broken the schedule: its erases and relocations (R123). -/
def scrubWork (o : AOp) (d : Nat) (s : State) : Bool :=
  (o.kind == .erase && scrubWants (blkKey d o.blk) s) ||
    (match moveFor o s with | some m => s.zn.scrubs.any (fun c => c.broke && s.zn.stale.contains (c.zone, m.src)) | none => false)
/-- The breaks of Table 5.2 that let an operation, or the copy it reads for, run in a quiet turn. -/
def opBreaks (o0 : AOp) (s : State) : Bool :=
  let o := copyFor o0 s
  let d := dieKey o.ch o.lun
  let y := yardOfRow (64 * dieShed d + dieLun d) s
  (if gcWork o d s then brokeFor 0x3030 0 s else padWork o d s && brokeFor 0x3044 y s) ||
    (o.kind == .erase && (bkOf d o.blk s).onebit && brokeFor 0x2050 y s) || (scrubWork o d s && brokeFor 0x3022 y s)

/-- The operation is an erase, or a program a mode and thermal state admit (R173); in READ_ONLY no background program moves live data
(R163). -/
def modeAdmits (o : AOp) (s : State) : Bool :=
  !s.fl.parked &&
  (match s.m.cur with
    | .halted => false
    | .emergencyFlush => o.cls == 1
    | .reset => false
    | .imageLoad => false
    | .test => false
    | .retain => false
    | _ => true) &&
  (match o.kind with
    | .read => true
    | .erase => s.m.thm != 2
    | .program => o.cls == 1 || ((s.m.thm == 0 || (s.m.thm == 1 && o.onebit)) && !(s.m.sparesOut && decide (5 ≤ o.cls))))
/-- Dies of the row pair a die belongs to that run background work (R153). -/
def bgOnPair (d : Nat) (s : State) : Nat :=
  let r := 64 * dieShed d + dieLun d
  let prs := (yardPairsAll (yardOfRow r s) s).filter (fun p => p.1 == r || p.2 == some r)
  let ds := prs.flatMap (fun p => pairDies p s)
  (ds.filter (fun x => (dieOps x s).any (fun o => o.st != .queued && isBackground o s))).length
/-- Background work may start: in busy turns, within them; in a quiet turn only what a break lets run, on at most PARITY dies of a row pair
(R152, R153, R356). -/
def bgStarts (typ : Nat) (o : AOp) (s : State) : Bool :=
  let d := dieKey o.ch o.lun
  bgAllowed s && ((busyTurn s && (decide (typ ≤ busyLeft s) || opBreaks o s)) ||
    (!busyTurn s && opBreaks o s && decide (bgOnPair d s < (yardOf (yardOfRow (64 * dieShed d + dieLun d) s) s).parity)))

/-- A program waits for its sources to be read, for those of lower wordlines of its block, for its stripe's running parity, and a first one
for the block's erase, pre-program check and live entry; an erase for an intent record. -/
def targetReady (o : AOp) (s : State) : Bool :=
  let d := dieKey o.ch o.lun
  let b := bkOf d o.blk s
  match o.kind with
  | .program => o.blk != 8191 && !(dieOps d s).any (fun x => x.kind == .program && x.blk == o.blk && decide (x.wl < o.wl))
      && !(s.fl.ops.any (fun x => match x.work with | .host i _ _ => i == srcReader o.id | .recon i _ _ _ _ _ => i == srcReader o.id | _ => false))
      && b.st != .pending && (b.st != .erased || b.role.inTack || (b.prechk && (b.hasLive || !liveFull (dieShed d) s))) && !needsPar o s
  | .erase => s.pl.intents.contains (blkKey d o.blk) || decide (s.pl.intents.length < 1024)
  | .read => true

/-! ### Continuous reads (R191) -/

/-- Page of its block that a read names. -/
def AOp.pageNo (o : AOp) (s : State) : Nat := if o.onebit then o.wl else o.wl * s.fl.geom.cell + o.page
/-- A read that may be part of a chain. -/
def AOp.chains (o : AOp) : Bool := o.kind == .read && (o.cls == 2 || o.cls == 5) && o.work != .prechk
/-- A queued read of a die for the page after one, in the same mode. -/
def nextPage (d blk page : Nat) (onebit : Bool) (skip : Nat) (s : State) : Bool :=
  (dieOps d s).any (fun x => x.id != skip && x.st == .queued && x.chains && x.blk == blk && x.onebit == onebit && x.pageNo s == page + 1)
/-- The chain of a LUN stands: it has not ended, and a queued read wants its next page. -/
def chainOn (d : Nat) (s : State) : Bool :=
  let l := lunOf d s
  decide (0 < l.chain) && !l.chainEnd && (dieOps d s).any (fun x => x.st == .queued && x.chains && x.blk == l.chainAt.1 && x.pageNo s == l.chainAt.2 + 1)
/-- While a chain stands only its next page is read, and no program or erase starts. -/
def chainAdmits (o : AOp) (s : State) : Bool :=
  let d := dieKey o.ch o.lun
  let l := lunOf d s
  !chainOn d s || (o.chains && o.blk == l.chainAt.1 && o.pageNo s == l.chainAt.2 + 1)
/-- Counting and keeping the chain as a read starts: at most 64 pages, none inside a suspension (R188). -/
def chainStep (o : AOp) (s : State) : State :=
  let d := dieKey o.ch o.lun
  let l := lunOf d s
  if (dieOps d s).any (fun x => x.st == .suspended) || !o.chains || (Tbl.get? s.fl.luns d).isNone then s
  else
    let page := o.pageNo s
    let cont := decide (0 < l.chain) && !l.chainEnd && l.chainAt.1 == o.blk && page == l.chainAt.2 + 1
    let n := if cont then l.chain + 1 else 1
    let more := nextPage d o.blk page o.onebit o.id s && decide (n < 64)
    let s1 := if cont || more then updChn o.ch (fun c => { c with contCnt := satAdd 64 c.contCnt 1 }) s else s
    updLun d (fun x => { x with chain := if more then n else 0, chainEnd := false, chainAt := (o.blk, page) }) s1

/-- A queued operation may start now; `typ` is the package's typical time of it. -/
def startable (typ : Nat) (o : AOp) (s : State) : Bool :=
  let d := dieKey o.ch o.lun
  let l := lunOf d s
  let run := (dieOps d s).filter (fun x => x.st != .queued)
  o.st == .queued && (run.isEmpty || (o.cls == 2 && run.all (fun x => x.st == .suspended)))
    && !l.failed && !l.excluded && (chnOf o.ch s).state == 2 && !(chnOf o.ch s).retraining
    && modeAdmits o s && targetReady o s && (o.cls == 1 || decide (chRunning o.ch s < rateN o.ch s))
    && chainAdmits o s && (!isBackground o s || bgStarts typ o s)

/-- The next operation of a channel: class order, arrival order within a class. -/
def nextOp? (ch typ : Nat) (s : State) : Option AOp :=
  (s.fl.ops.filter (fun o => o.ch == ch && startable typ o s)).foldl
    (fun (a : Option AOp) o => match a with | none => some o | some x => if o.cls < x.cls then some o else some x) none

/-- Table 6.9: the reason a program is refused. -/
def programRefused (o : AOp) (s : State) : Option Nat :=
  let b := bkOf (dieKey o.ch o.lun) o.blk s
  if b.role.inTack ∧ o.work ≠ .journal then some 4
  else if !(b.st = .erased ∧ o.wl = 0) ∧ b.st ≠ .openB then some 1
  else if b.st = .openB ∧ b.quar then some 5
  else if b.st = .openB ∧ o.wl ≠ b.nextWl then some 2
  else if o.egen ≠ (if b.st = .openB then b.liveEgen else b.egen) then some 3
  else none

/-- An erase is issued only for an Erase-pending block, or a quarantined one (R184). -/
def eraseRefused (o : AOp) (s : State) : Bool :=
  let b := bkOf (dieKey o.ch o.lun) o.blk s
  !(b.st == .pending || ((b.st == .openB || b.st == .full) && b.quar))

/-- A read of an unwritten wordline (R183). -/
def readEmpty (d b wl : Nat) (s : State) : Bool :=
  let x := bkOf d b s
  x.st == .erased || (x.st == .openB && decide (x.nextWl ≤ wl))

/-- A refused access to the Tack Room: 0x4040, with the requester by its row of Table 6.11, and FCH_FAULTS.TACK (R193). -/
def tackRefused (who ch blk : Nat) (s : State) : State :=
  raise 0x4040 2 [h1 who, h1 ch, h1 blk] (updChn ch (fun c => { c with fTack := satAdd 16 c.fTack 1 }) s)
/-- A reader whose codeword a map puts into the Tack Room: a host's command ends with 7h/0x88 (R193). -/
def tackRead (id o q : Nat) (s : State) : State :=
  if id < 2 ^ 41 then updRd id (fun rd => { rd with parts := rd.parts.map (fun x => if x.owner = o ∧ x.units.contains q then { x with st := 0x788 } else x) }) s
  else readEnds id o q 0 7 0 s

/-- A program is refused (R181): not issued, its block quarantined with a live entry, 0x4001, and placement replaces the member. -/
def refuseProgram (o : AOp) (r : Nat) (s : State) : State :=
  let d := dieKey o.ch o.lun
  let s1 := raise 0x4001 2 [h1 o.ch, h1 o.lun, h1 o.blk, h1 o.wl, h1 r] (updChn o.ch (fun c => { c with fRef := satAdd 16 c.fRef 1 }) s)
  let s2 := updBk d o.blk (fun x => { x with quar := true, hasLive := true }) (if r = 4 then tackRefused 1 o.ch o.blk s1 else s1)
  let had := (penHere d o.blk s2).isSome
  let s3 := replaceMember d o.blk s2
  if (lunOf d s3).wornOut || !had then placeAgain o (dropOp o.id s3) else s3

/-- The path code of a read (Table 8.15): waited, inside a suspension, or an idle die. -/
def pathOf (o : AOp) (s : State) : Nat :=
  if o.waited then 5 else if (dieOps (dieKey o.ch o.lun) s).any (fun x => x.st == .suspended) then 3 else 2

/-- Start an operation that has been picked: it works with the settings of FCH_SUSP and FCH_MEDIA as they stand now (R196). -/
def startOp (o : AOp) (s : State) : State :=
  let d := dieKey o.ch o.lun
  let b := bkOf d o.blk s
  let c := chnOf o.ch s
  let go := fun (s : State) => updOp o.id (fun o => { o with
    st := .running, since := s.tm.elapsed, lim := (c.runMin, if o.kind = .program then c.pgmMax else c.ersMax, c.hold, c.prechkZeros) }) s
  let reads := fun (n : Nat) (s : State) => updChn o.ch (fun c => { c with rdCnt := satAdd 64 c.rdCnt n }) (go (chainStep o s))
  match o.kind with
  | .program =>
    match programRefused o s with
    | some r => refuseProgram o r s
    | none =>
      let s1 := if b.hasLive then s else updBk d o.blk (fun x => { x with hasLive := true, st := .openB, nextWl := 0, liveEgen := x.egen, onebit := o.onebit }) s
      updChn o.ch (fun c => { c with pgmCnt := satAdd 64 c.pgmCnt 1 }) (go s1)
  | .erase =>
    if eraseRefused o s then
      dropOp o.id (raise 0x4001 2 [h1 o.ch, h1 o.lun, h1 o.blk, h1 o.wl, h1 6] (updChn o.ch (fun c => { c with fRef := satAdd 16 c.fRef 1 }) s))
    else
      let s0 := if eraseForHost o s && !busyTurn s then raise 0x3043 0 [h1 (dieArg d), h1 o.blk] s else s
      let s1 := if s0.pl.intents.contains (blkKey d o.blk) then s0 else { s0 with pl := { s0.pl with intents := s0.pl.intents ++ [blkKey d o.blk] } }
      let s2 := updBk d o.blk (fun x => { x with egen := (x.egen + 1) % 65536 }) s1
      updChn o.ch (fun c => { c with ersCnt := satAdd 64 c.ersCnt 1 }) (go s2)
  | .read =>
    if o.work = .prechk then reads 2 s
    else if b.role.inTack ∧ o.work ≠ .journal then
      let s1 := tackRefused 3 o.ch o.blk (dropOp o.id s)
      (match o.work with | .host id ow q => tackRead id ow q s1 | _ => readFailed o 0 s1)
    else if readEmpty d o.blk o.wl s && o.work != .diag then
      -- a pass reads each unit as it stands when it reaches it: one gone since is skipped (R218)
      if o.isComb then dropOp o.id s
      else readFailed o (pathOf o s) (dropOp o.id (raise 0x4005 1 [h1 o.ch, h1 o.lun, h1 o.blk, h1 o.wl] s))
    else reads 1 s

/-- Record the Shed dies whose full live-block table keeps a block from being opened: 0x4050, once per occurrence (R177). -/
def liveWatch (ch : Nat) (s : State) : State :=
  let sh := ch / 16
  if !liveFull sh s then (if s.fl.fullRec.contains sh then { s with fl := { s.fl with fullRec := s.fl.fullRec.filter (· != sh) } } else s)
  else if s.fl.fullRec.contains sh then s
  else raise 0x4050 1 [h1 (sh + 1)] { s with fl := { s.fl with fullRec := s.fl.fullRec ++ [sh] } }

/-- In state 3 background work that starts is the internal wake of Table 14.3; the device state stays 3 (R382, R384). -/
def innerWake (o : AOp) (s : State) : State :=
  if s.pw.ps == 3 && !s.pw.exiting && isBackground o s then { s with pw := { s.pw with wakeCause := 3, duringEntry := false } } else s

/-- ARRAY_OPERATION_START (R172, R173, R180): the channel's sequencer starts the next queued operation that may start. -/
def execArrayOperationStart (ch typ : Nat) (s : State) : Out :=
  let s1 := parWatch ch (liveWatch ch s)
  match nextOp? ch typ s1 with
  | some o => doneIo (startOp o (innerWake o s1))
  | none => done s1

/-! ## Ends of operations -/

/-- Durable: a unit of a zone has its final pass (R147, R148): staged pieces land there, folded ones move, and the Pens they leave hold dead
copies of the zone (R123). -/
def commitUnit (z u pen : Nat) (s : State) : State :=
  match zoneAt? z s with
  | none => s
  | some q =>
    match unitAt q.runs u with
    | none => s
    | some (p, n) =>
      if p ≠ pen then s
      else
        let U := unitPos s.fl.geom
        let c := cwPerUnit s.fl.geom
        let lo := u * U
        let inU := fun (pos : Nat) => decide (lo ≤ pos ∧ pos < lo + U)
        let left_ := ((piecesOf z s).filter (fun e => inU e.1 && e.2.pen != pen)).map (fun e => (z, e.2.pen))
        let s1 := mapPieces z (fun pos x => if inU pos then { carry z pos x s with pen := pen, slot := n * c + (pos - lo) / 2, lseq := 0 } else x) s
        let ps := s1.zn.wrs.flatMap (fun w => if w.owner = z ∧ w.gen = q.gen then (w.left.filter (fun x => inU x && w.staged.any (fun e => e.1 == x))).map (fun x => (w.id, x)) else [])
        let s2 := ps.foldl (fun s e => pieceDurable e.1 e.2 pen (n * c + (e.2 - lo) / 2) s) (forgetLost (fun o pos => o == z && inU pos) s1)
        retireDead q.yard (updZone z (Zone.unitDone u) (addStale (left_.filter (fun e => (penOf? e.2 s).isSome)) s2))

/-- A parity unit has been programmed; with the last the stripe is closed, and its running parity is no longer kept (R209). -/
def closeStripe (pen k m : Nat) (s : State) : State :=
  let t := updPen pen (fun p => { p with closed := (p.closed.filter (· != (k, m))) ++ [(k, m)] }) s
  match penOf? pen t with
  | some p => if stripeClosed p k then { t with fl := { t.fl with rpar := t.fl.rpar.filter (· != (pen, k)) } } else t
  | none => t

/-- Slots of the codewords a landing program carries: one after another, or four to a unit of the conventional region (R131, R132). -/
def landSlots (ps : List (Nat × Nat)) (slot : Nat) (s : State) : List ((Nat × Nat) × Nat) :=
  let conv := ps.any (fun q => match wrAt q.1 s with | some w => w.owner == convOwner | none => false)
  if conv then
    let us := ((ps.filter (fun q => q != (0, 0))).map (fun q => q.2 / 8)).dedup
    ps.map (fun q => (q, slot + 4 * us.idxOf (q.2 / 8) + q.2 % 8 / 2))
  else ps.zipIdx.map (fun e => (e.1, slot + e.2))

/-- The data a program carried is durable. -/
def programmed (o : AOp) (s : State) : State :=
  match o.work with
  | .land ps pen slot => lseqNext pen ((landSlots ps slot s).foldl (fun s e => pieceDurable e.1.1 e.1.2 pen e.2 s) s)
  | .unit z u pen _ => commitUnit z u pen s
  | .parity pen k m => closeStripe pen k m s
  | .move q =>
    let t := match penHere (dieKey o.ch o.lun) o.blk s with | some p => if p.2.kind.oneBit then lseqNext p.1 s else s | none => s
    commitMove q t
  | .background =>
    -- a member's copy: what its source lost carries UNREAD (R205)
    (match penHere (dieKey o.ch o.lun) o.blk s with
    | some (id, p) =>
      let m := (p.mem.findIdx? (fun m => m.1 == dieKey o.ch o.lun && m.2.1 == o.blk)).getD 0
      let es := (piecesOn id p m o.wl s).filter (fun e => s.pl.lostSrc.any (fun l => l.1 == e.1 && l.2.1 == e.2))
      es.foldl (fun s e => mapPieces e.1 (fun pos x => if pos = e.2 then carry e.1 pos x s else x) s) s
        |> forgetLost (fun a b => es.contains (a, b))
    | none => s)
  | _ => s

/-- The bits a media flip mask inverts: START + i · STRIDE modulo 37,184, a position that repeats being inverted again (R215). -/
def flipBits (start stride : Nat) : Nat → List Nat
  | 0 => []
  | n + 1 =>
    let l := flipBits start stride n
    let b := (start + n * stride) % 37184
    if l.contains b then l.filter (· != b) else l ++ [b]
/-- The media flip mask applies to the first codeword of the next program on its channel, user data included: its bits are inverted, ARM
clears, APPLIED, 0x5040 (R215). -/
def mediaFlip (o : AOp) (s : State) : State :=
  if s.ecc.arm && s.ecc.target && s.ecc.fChannel == o.ch then
    let l := flipBits (s.ecc.fAddr % 65536) (s.ecc.fAddr / 65536 % 65536) s.ecc.fCount
    raise 0x5040 0 [h1 1, h1 o.ch] { s with
      ecc := { s.ecc with arm := false, applied := true },
      fl := { s.fl with marred := if l.isEmpty then s.fl.marred else (blkKey (dieKey o.ch o.lun) o.blk, o.wl, 0, l) :: s.fl.marred } }
  else s
/-- Bits of a codeword that a flip mask has inverted. -/
def marredBits (d b wl cw : Nat) (s : State) : Nat :=
  match s.fl.marred.find? (fun e => e.1 == blkKey d b && e.2.1 == wl && e.2.2.1 == cw) with
  | some e => e.2.2.2.length
  | none => 0

/-- A program fails: the block is Bad, 0x4002, its member replaced, its data programmed to the new member (R182, R160). -/
def programFails (o : AOp) (s : State) : State :=
  let d := dieKey o.ch o.lun
  let s1 := raise 0x4002 1 [h1 o.ch, h1 o.lun, h1 o.blk, h1 o.wl]
    (updChn o.ch (fun c => { c with fPgm := satAdd 16 c.fPgm 1 }) (goBad d o.blk s))
  let had := (penHere d o.blk s).isSome
  let s2 := updOp o.id (fun o => { o with st := .queued, susp := 0 }) s1
  let s3 := replaceMember d o.blk s2
  if !had then dropOp o.id s3
  else if (lunOf d s3).wornOut then placeAgain o (dropOp o.id s3)
  else { s3 with fl := { s3.fl with ops := s3.fl.ops.filter (fun x => x.id != o.id) ++ s3.fl.ops.filter (fun x => x.id == o.id) } }

/-- PROGRAM_END (R180, R182): the running program of a LUN ends. -/
def execProgramEnd (ch lun : Nat) (pass : Bool) (s : State) : Out :=
  let d := dieKey ch lun
  match (dieOps d s).find? (fun o => o.kind == .program && o.st == .running) with
  | none => .next s
  | some o =>
    if pass then
      let s0 := match o.stripe s, o.work with
        | some (pid, _, k), .land _ _ _ => rparAdd pid k s
        | some (pid, _, k), .unit _ _ _ _ => rparAdd pid k s
        | some (pid, _, k), .move _ => rparAdd pid k s
        | _, _ => s
      let s1 := dropOp o.id (mediaFlip o s0)
      let s2 := updBk d o.blk (fun b =>
        let b := { b with nextWl := b.nextWl + 1, pgmAt := s.tm.elapsed }
        if wordlines s.fl.geom ≤ b.nextWl then { b with st := .full, hasLive := false } else b) s1
      doneIo (parkHalted (settleOld d o.blk (programmed o s2)))
    else doneIo (parkHalted (programFails o s))

/-- An erase's intent closes with its erase-done record; scrubs that waited for the block count it (R155, R123), and what a flip mask marred
there is gone. -/
def eraseDone (d b : Nat) (s : State) : State :=
  let key := blkKey d b
  { s with
    pl := { s.pl with intents := s.pl.intents.filter (· != key) },
    fl := { s.fl with marred := s.fl.marred.filter (fun e => e.1 != key) },
    zn := { s.zn with
      staleBlks := s.zn.staleBlks.filter (fun e => e.2 != key),
      scrubs := s.zn.scrubs.map (fun c => if c.blocks.contains key then { c with blocks := c.blocks.filter (· != key), erased := c.erased + 1 } else c) } }

/-- A free block that is no spare enters a list of the die if its wear count beats the list's last entry (R179). -/
def enterLists (d b : Nat) (s : State) : State :=
  let k := bkOf d b s
  if !k.free || dieFree d s = 0 then s
  else updLun d (fun l =>
    let beats := fun (l : List (Nat × Nat)) (lt : Nat → Nat → Bool) => match l.getLast? with | some e => lt k.wear e.2 | none => true
    let low0 := l.low.filter (fun e => e.1 != b)
    let high0 := l.high.filter (fun e => e.1 != b)
    { l with
      low := if beats low0 (fun a c => decide (a < c)) then (((b, k.wear) :: low0).insertionSort (fun a c => a.2 ≤ c.2)).take 10 else low0,
      high := if beats high0 (fun a c => decide (c < a)) then (((b, k.wear) :: high0).insertionSort (fun a c => c.2 ≤ a.2)).take 2 else high0 }) s

/-- A Pen of the conventional region whose last block is erased is free again. -/
def convErased (p : Nat) (s : State) : State :=
  match penOf? p s with
  | some x => if x.st = .dying ∧ x.mem.all (fun m => m.2.1 == 8191 || m.2.2 || (bkOf m.1 m.2.1 s).st == .erased || (bkOf m.1 m.2.1 s).st == .bad)
              then updPen p (fun x => { x with st := .erased, closed := [], old := [] }) s else s
  | none => s

/-- A block fails its erase: Bad, 0x4003, replaced if it was bound to a Pen (R184). -/
def eraseBad (ch lun blk : Nat) (s : State) : State :=
  let d := dieKey ch lun
  let s1 := raise 0x4003 1 [h1 ch, h1 lun, h1 blk] (updChn ch (fun c => { c with fErs := satAdd 16 c.fErs 1 })
    (eraseDone d blk (updBk d blk (fun b => { b with nextWl := 0 }) (goBad d blk s))))
  replaceMember d blk s1
/-- An erase operation fails. -/
def eraseFails (o : AOp) (s : State) : State := eraseBad o.ch o.lun o.blk (dropOp o.id s)

/-- ERASE_END (R184, R179): the running erase of a LUN ends. A Pen's member is then checked (R185). -/
def execEraseEnd (ch lun : Nat) (pass : Bool) (s : State) : Out :=
  let d := dieKey ch lun
  match (dieOps d s).find? (fun o => o.kind == .erase && o.st == .running) with
  | none => .next s
  | some o =>
    if pass then
      let s1 := eraseDone d o.blk (dropOp o.id s)
      let s2 := updBk d o.blk (fun b => { b with st := .erased, hasLive := false, quar := false, prechk := false, nextWl := 0, wear := satAdd 16 b.wear 1 }) s1
      let eg := (bkOf d o.blk s2).egen
      let s3 := { s2 with fl := { s2.fl with ops := s2.fl.ops.map (fun x =>
        if x.ch = ch ∧ x.lun = lun ∧ x.blk = o.blk ∧ x.kind = .program ∧ x.st = .queued then { x with egen := eg } else x) } }
      let s4 := match (bkOf d o.blk s3).role with
        | .pen p => convErased p (if s3.fl.ops.any (fun x => x.work == .prechk && x.blk == o.blk && dieKey x.ch x.lun == d) then s3
            else queueOp ch lun 5 .read o.blk 0 true .prechk s3)
        | _ => enterLists d o.blk s3
      doneIo (parkHalted s4)
    else doneIo (parkHalted (eraseFails o s))

/-- READ_END (R204, R205): a page read of a LUN has run the ladder's steps on its die: codes 0 to 2 decode the codeword. Otherwise it goes on
to step 3, whose member reads end in RECONSTRUCTION_END, or with code 7 every step has failed. A codeword that a flip mask marred corrects
the inverted bits at least, and decodes only where its class can (R215). -/
def execReadEnd (ch lun ladder corr : Nat) (s : State) : Out :=
  let d := dieKey ch lun
  match (dieOps d s).find? (fun o => o.kind == .read && o.st == .running && o.work != .prechk && o.work != .diag) with
  | none => .next s
  | some o =>
    let path := pathOf o s
    let s1 := dropOp o.id s
    let s2 := match o.work with
      | .host id ow q =>
        let n := match targetOf id ow q s with | some t => marredBits d o.blk t.wl t.cw s | none => 0
        let cl := match targetOf id ow q s with | some t => cwClass t s | none => 4
        let l := if ladder ≤ 2 ∧ Config.ldpcLimit cl < n then 3 else ladder
        if l ≤ 2 then readEnds id ow q path l (max corr n) s1
        else if l = 3 then stepThree id ow q path s1
        else readEnds id ow q path 7 0 s1
      | .member r m => if ladder ≤ 2 then countLadder ladder s1 else memberFails r m s1
      | .par pid k => parDone pid k (countLadder (if ladder ≤ 3 then ladder else 7) s1)
      | _ => countLadder (if ladder ≤ 3 then ladder else 7) s1
    doneIo (parkHalted s2)

/-- PRE_PROGRAM_CHECK_END (R185): PRECHK set, or the block erased again with 0x4020, or Bad with 0x4021. -/
def execPreProgramCheckEnd (ch lun zeros : Nat) (s : State) : Out :=
  let d := dieKey ch lun
  match (dieOps d s).find? (fun o => o.work == .prechk && o.st == .running) with
  | none => .next s
  | some o =>
    let s1 := dropOp o.id s
    if zeros ≤ o.lim.2.2.2 then done (parkHalted (updBk d o.blk (fun b => { b with prechk := true, prechkFailed := false }) s1))
    else if (bkOf d o.blk s).prechkFailed then
      doneIo (parkHalted (replaceMember d o.blk (raise 0x4021 1 [h1 ch, h1 lun, h1 o.blk] (goBad d o.blk s1))))
    else
      let s2 := raise 0x4020 1 [h1 ch, h1 lun, h1 o.blk, h2 zeros] (updChn ch (fun c => { c with fPre := satAdd 16 c.fPre 1 })
        (updBk d o.blk (fun b => { b with st := .pending, prechkFailed := true }) s1))
      let p := match (bkOf d o.blk s).role with | .pen p => p | _ => 0
      done (parkHalted (queueErase d o.blk (.eraseFor p) s2))

/-! ## Suspension (R187 to R190) -/

/-- The operation may be suspended now (R187 step 1, R189), by the settings it started with (R196). -/
def maySuspend (o : AOp) (s : State) : Bool :=
  let d := dieKey o.ch o.lun
  (chnOf o.ch s).suspCap && o.st == .running && o.kind != .read && o.cls != 1 && o.cls != 4 && !(o.kind == .erase && (bkOf d o.blk s).prechkFailed)
    && decide (o.susp < o.lim.2.1) && decide (o.since + o.lim.1 ≤ s.tm.elapsed)

/-- A Yard finds no token: once in a turn ECC_TOKEN_EXH rises; every time 0x5030 (R211). -/
def noToken (y : Nat) (s : State) : State :=
  let s1 := if (yardOf y s).exhTurn then s else updYard y (fun x => { x with exhTurn := true }) { s with ecc := { s.ecc with tokenExh := satAdd 64 s.ecc.tokenExh 1 } }
  raise 0x5030 1 [h1 y] s1

/-- A class-2 read whose die is not suspended goes to reconstruction, if the stripe and a token allow, or waits (R187 steps 2 and 3, R210).
Reads of hosts and Gather elements alone are handed over. -/
def rebuildOrWait (r : AOp) (s : State) : State :=
  let wait := fun (s : State) => if r.waited then s else
    updChn r.ch (fun c => { c with waitCnt := satAdd 64 c.waitCnt 1 }) (updOp r.id (fun o => { o with waited := true }) s)
  match r.work with
  | .host id ow q =>
    match targetOf id ow q s with
    | some t =>
      if !r.reconDone && rebuildable t [] s then
        if 0 < (yardOf t.pen.yard s).tokens then
          let s1 := updYard t.pen.yard (fun y => { y with tokens := y.tokens - 1 }) (dropOp r.id s)
          updChn r.ch (fun c => { c with reconCnt := satAdd 64 c.reconCnt 1 }) (queueRecon id ow q 4 t s1)
        else wait (noToken t.pen.yard s)
      else wait s
    | none => wait s
  | _ => wait s

/-- Decide a class-2 read that meets a busy die, or a channel that retrains, which counts as a busy die that cannot be suspended (R170,
R187). -/
def arbitrate (r : AOp) (s : State) : State :=
  let d := dieKey r.ch r.lun
  match (dieOps d s).find? (fun o => o.kind != .read && o.st == .running) with
  | none => if (chnOf r.ch s).retraining then rebuildOrWait r s else s
  | some b =>
    if maySuspend b s && !(chnOf r.ch s).retraining then
      updChn r.ch (fun c => { c with suspCnt := satAdd 64 c.suspCnt 1 }) (updOp b.id (fun o => { o with st := .suspending, susp := o.susp + 1 }) s)
    else rebuildOrWait r s

/-- SUSPEND_ARBITER_DECISION (R187). -/
def execSuspendArbiterDecision (op : Nat) (s : State) : Out :=
  match s.fl.ops.find? (fun o => o.id == op && o.kind == .read && o.cls == 2 && o.st == .queued) with
  | some r => done (arbitrate r s)
  | none => .next s

/-- SUSPEND_RUN_MIN_REACHED (R187): the running operation has run its minimum; waiting reads of the LUN are decided again. -/
def execSuspendRunMinReached (ch lun : Nat) (s : State) : Out :=
  let d := dieKey ch lun
  let run := (dieOps d s).filter (fun o => o.kind != .read && o.st == .running)
  if !run.isEmpty then
    let s := run.foldl (fun s o => updOp o.id (fun o => { o with since := min o.since (s.tm.elapsed - o.lim.1) }) s) s
    done (((dieOps d s).filter (fun o => o.kind == .read && o.cls == 2 && o.st == .queued && o.waited)).foldl (fun s r => arbitrate r s) s)
  else .next s

/-- DIE_SUSPENDED (R188): the die reports the suspension. -/
def execDieSuspended (ch lun : Nat) (s : State) : Out :=
  let d := dieKey ch lun
  match (dieOps d s).find? (fun o => o.st == .suspending) with
  | some o => done (resumeIdle (updLun d (fun l => { l with suspAt := s.tm.elapsed }) (updOp o.id (fun o => { o with st := .suspended }) s)))
  | none => .next s

/-- SUSPEND_HOLD_EXPIRY (R188): resume. -/
def execSuspendHoldExpiry (ch lun : Nat) (s : State) : Out :=
  let d := dieKey ch lun
  match (dieOps d s).find? (fun o => o.st == .suspended) with
  | some o =>
    done (updOp o.id (fun o => { o with st := .running, since := s.tm.elapsed }) s)
  | none => .next s

/-- CONTINUOUS_READ_WAIT_EXPIRY (R191): another read has waited 20 µs: the chain ends at the next page boundary. -/
def execContinuousReadWaitExpiry (ch lun : Nat) (s : State) : Out :=
  let d := dieKey ch lun
  if decide (0 < (lunOf d s).chain) && (dieOps d s).any (fun o => o.kind == .read && o.st == .queued) then
    done (updLun d (fun l => { l with chainEnd := true }) s)
  else .next s

/-! ## Eyes (R170) -/

/-- EYE_PASS (R170): every EYE_PERIOD turns; two narrow passes in a row call a full retrain, an eye below 64 at once. -/
def execEyePass (ch eye : Nat) (s : State) : Out :=
  let c := chnOf ch s
  if c.state = 2 ∧ c.eyeAt + c.eyePeriod ≤ s.tm.turns then
    let n := if eye < 77 then c.narrow + 1 else 0
    let due := c.retrainDue || decide (2 ≤ n) || decide (eye < 64)
    done (updChn ch (fun c => { c with eyeRd := min eye 255, eyeAt := s.tm.turns, narrow := n, retrainDue := due, retraining := due && (busyTurn s || decide (eye < 64)) }) s)
  else .next s

/-- RETRAIN_END (R170, R168): the channel stays at 4,800 MT/s with eyes of 90/256 UI or more, else trains at the rate given, at most
3,600 MT/s; none: it has failed. -/
def execRetrainEnd (ch eyeRd eyeWr rate : Nat) (s : State) : Out :=
  let c := chnOf ch s
  if c.state = 2 ∧ (c.retraining ∨ (c.retrainDue ∧ busyTurn s)) then
    let s1 := updChn ch (fun c => { c with retraining := false, retrainDue := false, narrow := 0, retrainCnt := satAdd 8 c.retrainCnt 1, eyeRd := min eyeRd 255, eyeWr := min eyeWr 255 }) s
    if c.rate = 4800 then
      if 90 ≤ min eyeRd eyeWr then done s1
      else
        let s2 := raise 0x4012 2 [h1 ch, h2 (min eyeRd eyeWr)] (updChn ch (fun c => { c with xdrop := true, rate := min rate 3600 }) s1)
        if rate = 0 then doneIo (failChannel ch 1 s2) else done s2
    else if rate = 0 then doneIo (failChannel ch 1 s1)
    else done (updChn ch (fun c => { c with rate := min rate c.rate }) s1)
  else .next s

/-! ## Time-outs (R195) -/

/-- LUN_TIMEOUT (R195): Reset LUN ends the operation that runs on the LUN; three in an epoch fail the LUN. A read's second time-out is a failed
read of that member. -/
def execLunTimeout (ch lun : Nat) (s : State) : Out :=
  let d := dieKey ch lun
  let run := (dieOps d s).find? (fun o => o.st == .running || o.st == .suspending)
  match (if run.isSome then run else (dieOps d s).find? (fun o => o.st != .queued)) with
  | none => .next s
  | some o =>
    let s1 := updLun d (fun l => { l with timeouts := if l.toEpoch = s.tm.epoch then l.timeouts + 1 else 1, toEpoch := s.tm.epoch })
      (updChn ch (fun c => { c with fTo := satAdd 16 c.fTo 1 }) s)
    let s2 := match o.kind with
      | .program => programFails o s1
      | .erase => eraseFails o s1
      | .read =>
        if !o.retried then updOp o.id (fun o => { o with st := .queued, retried := true }) s1
        else if o.work = .prechk then
          replaceMember d o.blk (raise 0x4021 1 [h1 ch, h1 lun, h1 o.blk] (goBad d o.blk (dropOp o.id s1)))
        else readFailed o (pathOf o s1) (dropOp o.id s1)
    doneIo (parkHalted (if 3 ≤ (lunOf d s2).timeouts then failLunCh d s2 else s2))

/-! ## The Tack Room's firmware area (R192, R194) -/

/-- The highest block of the Tack Room on a die. -/
def tackTop (d : Nat) (s : State) : Nat := maxL ((s.fl.blks.filter (fun p => p.1 / 8192 == d && p.2.role.inTack)).map (fun p => p.1 % 8192))
/-- One firmware block above the threshold is copied to a fresh Tack Room block of the LUN, which takes its place in the firmware area; the
source is erased: 0x4041 (R194). -/
def refreshBlock (ch old new : Nat) (s : State) : State :=
  let d := dieKey ch 0
  let w := wordlines s.fl.geom
  if (bkOf d old s).role == .fw && (bkOf d new s).role.inTack && (bkOf d new s).st == .erased then
    let other := (bkOf d new s).role
    let s1 := updBk d new (fun b => { b with role := .fw, st := .full, onebit := true, nextWl := w, pgmAt := s.tm.elapsed }) s
    let s2 := updBk d old (fun b => { b with role := other, st := .erased, nextWl := 0, egen := (b.egen + 1) % 65536, wear := satAdd 16 b.wear 1 }) s1
    raise 0x4041 0 [h1 ch, h1 old, h1 new] (updLun d (fun l => { l with tackEnd := tackTop d s2 })
      (updChn ch (fun c => { c with pgmCnt := satAdd 64 c.pgmCnt w, ersCnt := satAdd 64 c.ersCnt 1 }) s2))
  else s

/-- TACK_FIRMWARE_REFRESH (R194): every 720 hours of yard time, and once after a start that follows a flush outside the SLC window. Every
firmware page of the Shed die is read through the fetch path's decoder; `moved` names the blocks found above the threshold: channel, old
block, new block of LUN 0. A page that cannot be decoded is restored from another Shed die's copy by the same path: the model holds no
firmware bytes, so that changes nothing else. -/
def execTackFirmwareRefresh (shed : Nat) (moved : List (Nat × Nat × Nat)) (s : State) : Out :=
  let due := decide (Tbl.getD s.fl.refreshAt shed 0 + 2592000000000 ≤ s.tm.elapsed) || (s.fl.flushHot && !s.fl.fwFresh.contains shed)
  if shed < s.part.sheds ∧ due then
    let pages := fun (ch : Nat) => wordlines s.fl.geom * ((s.fl.blks.filter (fun p => p.1 / 8192 == dieKey ch 0 && p.2.role == .fw)).length)
    let s1 := [16 * shed, 16 * shed + 8].foldl (fun s ch =>
      if (Tbl.get? s.fl.chs ch).isSome then updChn ch (fun c => { c with rdCnt := satAdd 64 c.rdCnt (pages ch) }) s else s) s
    let s2 := (moved.filter (fun m => m.1 / 16 == shed)).foldl (fun s m => refreshBlock m.1 m.2.1 m.2.2 s) s1
    done { s2 with fl := { s2.fl with refreshAt := Tbl.put s2.fl.refreshAt shed s.tm.elapsed, fwFresh := s2.fl.fwFresh ++ [shed] } }
  else .next s

/-! ## Diagnostics (R197) -/

/-- What a diagnostic access names (R197): outside the accepted geometry or on a LUN not in service; in the Tack Room; unwritten; a page that
can be read. -/
def diagBad (ch : Nat) (s : State) : Bool :=
  let c := chnOf ch s
  let g := s.fl.geom
  let cells := if (bkOf (dieKey ch c.dLun) c.dBlk s).onebit then 1 else g.cell
  !dieReadable (dieKey ch c.dLun) s || decide (g.blocksPerLun ≤ c.dBlk) || decide (wordlines g ≤ c.dWl) || decide (cells ≤ c.dPage) || decide (g.planes ≤ c.dPlane)
def diagTack (ch : Nat) (s : State) : Bool := !diagBad ch s && (bkOf (dieKey ch (chnOf ch s).dLun) (chnOf ch s).dBlk s).role.inTack
def diagEmpty (ch : Nat) (s : State) : Bool :=
  let c := chnOf ch s
  !diagBad ch s && !diagTack ch s && readEmpty (dieKey ch c.dLun) c.dBlk c.dWl s
def diagReads (ch : Nat) (s : State) : Bool := (chnOf ch s).dMode != 0 && !diagBad ch s && !diagTack ch s && !diagEmpty ch s

/-- A write of FCH_DIAG_CTL (R197). GO is accepted in the four base modes while BUSY = 0; a page to be read joins the LUN's queue as a class-5
read. -/
def writeDiagCtl (ch v : Nat) (s : State) : State :=
  let md := bits v 2 1
  let s1 := updChn ch (fun c => { c with dMode := md }) s
  if bit v 0 && s.m.cur.isBase && !(chnOf ch s).dBusy && md != 3 then
    let s2 := updChn ch (fun c => { c with dBusy := true }) s1
    let c := chnOf ch s2
    if diagReads ch s2 then queueRead (dieKey ch c.dLun) c.dBlk 5 c.dWl c.dPage (bkOf (dieKey ch c.dLun) c.dBlk s2).onebit .diag s2 else s2
  else s1

/-- FCH_DIAG_DONE (R197, R193): the access ends, its page read if it has one; the fields describe the target now. A Tack Room block is not
read. -/
def execFchDiagDone (ch zeros corr ladder : Nat) (s0 : State) : Out :=
  let mine := fun (o : AOp) => o.work == .diag && o.ch == ch
  if (chnOf ch s0).dBusy && !s0.fl.ops.any (fun o => mine o && o.st == .queued) then
    let read := s0.fl.ops.any mine
    let s := { s0 with fl := { s0.fl with ops := s0.fl.ops.filter (fun o => !mine o) } }
    let c := chnOf ch s
    let d := dieKey ch c.dLun
    let b := bkOf d c.dBlk s
    let bad := diagBad ch s
    let tack := diagTack ch s
    let empty := diagEmpty ch s
    let lad := if ladder ≤ 3 then ladder else 7
    let s1 := updChn ch (fun c => { c with
      dBusy := false, dDone := true, dTack := tack, dBad := bad, dEmpty := empty, dBst := if bad then 0 else b.st.code,
      dOpen := !bad && b.hasLive, dQuar := !bad && b.quar, dNext := if !bad && b.hasLive then b.nextWl else 0,
      rZero := if read && c.dMode == 1 then zeros % 2 ^ 32 else 0, rCorr := if read && c.dMode == 2 then min corr 65535 else 0,
      rLad := if read && c.dMode == 2 then lad else 0,
      lWear := if bad then 0 else b.wear, lEgen := if bad then 0 else b.egen }) s
    let s2 := if tack then tackRefused 3 ch c.dBlk s1 else s1
    let s3 := if read && c.dMode == 2 then countLadder lad s2 else s2
    done (parkHalted (if empty && c.dMode != 0 then raise 0x4005 1 [h1 ch, h1 c.dLun, h1 c.dBlk, h1 c.dWl] s3 else s3))
  else .next s0

/-! ## Lists and rebuilds -/

/-- The Pen a queued operation works for. -/
def AOp.penOf (o : AOp) : Option Nat :=
  match o.work with
  | .land _ p _ => some p | .unit _ _ p _ => some p | .parity p _ _ => some p | _ => none

/-- Bind one deferred member to the die's free block of lowest wear, or of highest for a wear-levelling Pen (R141, R179). -/
def bindMember (d p : Nat) (s : State) : State :=
  let wear : Bool := match penOf? p s with | some x => x.kind == PenKind.wear | none => false
  match (if wear then (lunOf d s).high else (lunOf d s).low).head? with
  | none => s
  | some (b, _) =>
    let r := takeBlock d wear p s
    let s1 := updPen p (fun q => { q with mem := q.mem.map (fun m => if m.1 = d ∧ m.2.1 = 8191 then (d, b, m.2.2) else m) }) r.2
    let mv := fun (q : Nat) => s.pl.moves.any (fun m => m.seq == q && m.items.any (fun i => i.pen == p))
    let mine := fun (o : AOp) => o.penOf == some p || (match o.work with | .move q => mv q | .background => true | _ => false)
    let s2 := { s1 with fl := { s1.fl with ops := s1.fl.ops.map (fun o =>
      if o.ch = dieCh d ∧ o.lun = dieLun d ∧ o.blk = 8191 ∧ mine o then { o with blk := b, egen := (bkOf d b s1).egen } else o) } }
    readyBlock p s2 (d, b, false)

/-- LOW_WEAR_LIST_REFILL_END (R179): the lists of a die refilled from the ledger, once the low-wear list has fallen to five entries or the
high-wear list below its two, and deferred members bound. -/
def execLowWearListRefillEnd (ch lun : Nat) (s : State) : Out :=
  let d := dieKey ch lun
  if (Tbl.get? s.fl.luns d).isSome && (decide ((lunOf d s).low.length ≤ 5) || decide ((lunOf d s).high.length < 2)) then
    let s1 := refillLists d s
    let ps := (s1.pl.pens.filter (fun p => p.2.mem.any (fun m => m.1 == d && m.2.1 == 8191))).map (·.1)
    done (ps.foldl (fun s p => bindMember d p s) s1)
  else .next s

/-- RECONSTRUCTION_END (R208, R210): a rebuild's member reads have ended. With enough of them the codeword is rebuilt: code 4 for a read the
arbiter handed over, else code 3. A rebuild that fails returns a handed-over read to its die's queue without a second reconstruction; step 3
fails with code 7. -/
def execReconstructionEnd (op ladder : Nat) (s : State) : Out :=
  match s.fl.ops.find? (fun o => o.id == op && o.ch == 64) with
  | none => .next s
  | some o =>
    match o.work with
    | .recon id ow q path used bad =>
      if s.fl.ops.any (fun x => match x.work with | .member r _ => r == op | _ => false) then .next s
      else
        let s1 := dropOp op s
        (match targetOf id ow q s1 with
        | none => doneIo s1
        | some t =>
          let okay := ladder != 7 && decide (t.pen.mem.length - t.pen.parity ≤ (used.filter (fun m => !bad.contains m)).length)
          if path ≠ 4 then doneIo (readEnds id ow q path (if okay then 3 else 7) 0 s1)
          else if okay then doneIo (readEnds id ow q 4 4 0 s1)
          else
            let s2 := { s1 with ecc := { s1.ecc with reconFail := satAdd 64 s1.ecc.reconFail 1 } }
            let e := t.place s2
            if e.2.2 then doneIo (readEnds id ow q 4 7 0 s2)
            else
              let s3 := queueRead e.1 e.2.1 2 t.wl (pageIn t.pen.kind.oneBit t.cw s2.fl.geom) t.pen.kind.oneBit (.host id ow q) s2
              doneIo { s3 with fl := { s3.fl with ops := updWhere (fun x => x.id == s2.fl.nextOp) (fun x => { x with reconDone := true }) s3.fl.ops } })
    | _ => .next s

end Sys2Proof.Machine
end

