-- ==== Sys2Proof/Machine/Integrity.lean ====
section
/-! DEFINITION. Integrity (Chapter 7): SRAM words, fault injection, the Currycomb, the entropy source. -/

namespace Sys2Proof.Machine
open Sys2Proof

/-! ## SRAM words (R213, R214) -/

/-- A module die that is fitted: 0 Core, 1 … 4 Shed. -/
def dieFitted (d : Nat) (s : State) : Bool := decide (d ≤ s.part.sheds)

/-- MiB of a region on a die (Table 1.3): region 5 is the compression store on the Core die, the LDPC store on a Shed die. -/
def regionMiB (die region : Nat) : Nat :=
  if die = 0 then nth [96, 12, 0, 0, 16, 4] region 0 else nth [0, 3, 6, 4, 0, 3] region 0
/-- A word that exists: its die is fitted and holds the region (R25). -/
def sramWord (die region word : Nat) (s : State) : Bool := dieFitted die s && decide (word < regionMiB die region * 131072)

/-- What an SRAM access can find at a word: of the map's shards the model keeps the valid bits and the words stored with errors, and a word
whose line is not valid is not checked, one inverted bit is correctable and two are not (R213, R215); other regions have no published
layout. -/
def sramFinds (die region word : Nat) (ue : Bool) (s : State) : Bool :=
  sramWord die region word s && (region != 3 || (s.ecc.lines.contains (lineKey die word) &&
    (match flipWeight die word s with | 1 => !ue | 2 => ue | _ => true)))

/-- The flip mask of a word of a region without a published layout is stored with the access that finds it (R215, DESIGN CHOICE, log 87). -/
def sramFlip (die region word : Nat) (s : State) : State := if region = 3 then s else sramStore die region word s

/-- SRAM_CORRECTABLE_ERROR (R214): corrected, rewritten, counted; 0x5001. -/
def execSramCorrectableError (die region word syndrome : Nat) (s : State) : Out :=
  if sramFinds die region word false s then done (sramCorrected die region word syndrome (sramFlip die region word s)) else .next s

/-- Staging lost a write's data: not completed, it ends with 2h/0x80; completed early, its range becomes unreadable, or its conventional
units lost, and warning bit 2 is set. -/
def stagingLost (id : Nat) (s : State) : State :=
  match wrAt id s with
  | none => s
  | some w =>
    if w.posted then
      let s1 := setWarn 2 true s
      if w.owner = convOwner then
        let us := (w.left.map (· / 8)).dedup
        let s2 := us.foldl (fun s u =>
          let t := putMap u { (Tbl.get? s.zn.cmap u).getD ⟨0, 0, 0, true⟩ with lost := true } s
          { t with zn := { t.zn with store := Tbl.upd t.zn.store convOwner (fun t => t.filter (fun p => p.1 / 8 != u)) } }) s1
        wakeFlushes (discardWrite id s2)
      else failWrite id s1
    else
      match s.q.ctxs.find? (fun k => k.wait == .write id) with
      | some k => fin k 2 0x80 (failWrite id s)
      | none => failWrite id s

/-- A reader's blocks still missing end with 2h/0x81. -/
def readFails (id : Nat) (s : State) : State :=
  updRd id (fun r => { r with parts := r.parts.map (fun p => if p.st = 0 then { p with blk := none, st := stUnrec } else p) }) s

/-- A read whose data an SRAM word lost is repeated once from the media (Table 7.7, region 1). -/
def readRepeats (id : Nat) (s : State) : State :=
  updRd id (fun r => { r with parts := r.parts.map (fun p => if p.st = 0 ∧ !p.got.isEmpty then { p with blk := none, got := [] } else p) }) s
/-- A half-hitch operation fails for good: its coded blocks end with a decode error (Table 7.7, region 5). -/
def hhFails (id : Nat) (s : State) : State :=
  updRd id (fun r => { r with parts := r.parts.map (fun p => if p.kind = 1 then { p with kind := 4, blk := none, st := 0x784 } else p) }) s

/-- SRAM_UNCORRECTABLE_ERROR (R214, Table 7.7). `hit` names what the word held: a write in staging (region 0), a reader (1), an array
operation (5), or on the Core die, whose working store is the half-hitch engine's, a reader. `again`: the repeat has failed too. -/
def execSramUncorrectableError (die region word syndrome hit : Nat) (again : Bool) (s : State) : Out :=
  if sramFinds die region word true s then
    let s1 := sramBroken die region word syndrome (sramFlip die region word s)
    doneIo (match region with
      | 0 => stagingLost hit s1
      | 1 => if again then readFails hit s1 else readRepeats hit s1
      | 4 => halt s1
      | 5 =>
        if die = 0 then (if again then hhFails hit s1 else s1)
        else if !again then updOp hit (fun o => if o.st = .running ∧ o.ch ≠ 64 then { o with st := .queued } else o) s1
        else match s1.fl.ops.find? (fun o => o.id == hit) with
          | some o => (match o.work with
            | .host id ow q => readEnds id ow q (pathOf o s1) 7 0 (dropOp hit s1)
            | .recon id ow q path _ _ => readEnds id ow q path 7 0 (dropOp hit s1)
            | .member r m => memberFails r m (dropOp hit s1)
            | _ => s1)
          | none => s1
      | _ => sramRebuild die region word s1)
  else .next s

/-- TABLE_LINE_REBUILD_END (R214): 0x5003, or HALTED. -/
def execTableLineRebuildEnd (die region word : Nat) (ok : Bool) (s : State) : Out :=
  if s.ecc.rebuild.contains (die, region, word) then
    let line := fun (k : Nat) => region = 3 ∧ k / 8 = wordKey die word / 8
    let s1 := { s with ecc := { s.ecc with
      rebuild := s.ecc.rebuild.erase (die, region, word), flips := s.ecc.flips.filter (fun e => !decide (line e.1)) } }
    doneIo (if ok then raise 0x5003 2 [h1 die, h1 region, h2 word] s1 else halt s1)
  else .next s

/-! ## Fault injection (R215) -/

/-- A write of ECC_FLIP_CTL from the Owner PF: ignored while armed, unless it writes ARM = 0. -/
def writeFlipCtl (v : Nat) (s : State) : State :=
  if s.ecc.arm && bit v 0 then s
  else { s with ecc := { s.ecc with arm := bit v 0, target := bit v 1, fDie := bits v 4 2, fRegion := bits v 7 5, fChannel := bits v 13 8, fCount := bits v 24 14 } }

/-! ## The Currycomb (R216, R217) -/

/-- A pass that has read nothing yet. -/
def newPass (ctx : Option Nat) (scope : Nat) (refresh : Bool) (target nsid slba nlb : Nat) (part : Bool) : Pass :=
  { ctx := ctx, scope := scope, refresh := refresh, target := target, nsid := nsid, slba := slba, nlb := nlb, part := part,
    cur := (0, 0, 0, 0), begun := none, sum := Summary.zero, samples := [] }

/-- Queue a pass: requested ones ahead of automatic ones, which yield. -/
def queuePass (p : Pass) (s : State) : State :=
  match s.ecc.running with
  | none => { s with ecc := { s.ecc with running := some p, progress := 0 } }
  | some r =>
    if p.ctx.isSome && r.ctx.isNone then
      let s := dropComb s
      { s with ecc := { s.ecc with running := some p, progress := 0, queued := s.ecc.queued.filter (fun q => q.ctx.isSome) ++ [r] ++ s.ecc.queued.filter (fun q => q.ctx.isNone) } }
    else if p.ctx.isSome then
      { s with ecc := { s.ecc with queued := s.ecc.queued.filter (fun q => q.ctx.isSome) ++ [p] ++ s.ecc.queued.filter (fun q => q.ctx.isNone) } }
    else { s with ecc := { s.ecc with queued := s.ecc.queued ++ [p] } }

/-- Requested passes outstanding. -/
def askedPasses (s : State) : Nat :=
  (s.ecc.queued.filter (fun p => p.ctx.isSome)).length + b2n (match s.ecc.running with | some p => p.ctx.isSome | none => false)

/-- The checks of Currycomb Pass (Table 7.8). -/
def currycombOn (k : Ctx) (s : State) : State :=
  let w := k.cmd.cdw10.toNat
  let scope := bits w 1 0
  let yard := bits w 13 8
  let die := bits w 18 16
  let region := bits w 21 19
  let slba := k.cmd.cdw12.toNat + k.cmd.cdw13.toNat * 2 ^ 32
  let nlb := k.cmd.cdw14.toNat + k.cmd.cdw15.toNat * 2 ^ 32
  let add := fun (p : Pass) => queuePass p (putCtx { k with wait := .ccb } s)
  if scope = 3 then fin k 0 0x02 s
  else if 4 ≤ askedPasses s then fin k 0 0x02 s
  else if scope = 1 then
    if (yardRows yard s).isEmpty then fin k 0 0x02 s else add (newPass (some k.seq) 1 (bit w 2) yard 0 0 0 false)
  else if scope = 2 then
    if !dieFitted die s || region == 6 then fin k 0 0x02 s else add (newPass (some k.seq) 2 false (die * 8 + region) 0 0 0 false)
  else
    match nsAt? k.cmd.nsid s with
    | none => fin k 0 0x0B s
    | some n =>
      if n.nsze ≤ slba then fin k 0 0x80 s
      else
        let len := if nlb = 0 then n.nsze - slba else min nlb (n.nsze - slba)
        add (newPass (some k.seq) 0 (bit w 2) 0 k.cmd.nsid slba len (nlb != 0 && decide (n.nsze < slba + nlb)))

/-- CURRYCOMB_PASS. -/
def execCurrycombPass (c : Cmd) (s : State) : Out :=
  doneIo (withCmd c s (fun k s => gateAdmin (isPf c.fn) false k s currycombOn))

/-- CURRYCOMB_AUTO_PASS_START (R216): with AUTO = 1 and nothing running, the passes that are due, in order of precedence: the Paddock's after a
hot flush, every Yard's once MEDIA_DAYS of yard time have passed, every SRAM region's once SRAM_MIN minutes have. They mark for refresh. -/
def execCurrycombAutoPassStart (s : State) : Out :=
  if s.ecc.auto && s.ecc.running.isNone && s.m.cur.isBase then
    if s.ecc.paddockDue then
      doneIo (queuePass (newPass none 3 true 0 0 0 0 false) { s with ecc := { s.ecc with paddockDue := false } })
    else if s.ecc.mediaAt + s.ecc.mediaDays * 86400000000 ≤ s.tm.elapsed then
      let ys := (List.range 64).filter (fun y => !(yardRows y s).isEmpty)
      doneIo (ys.foldl (fun s y => queuePass (newPass none 1 true y 0 0 0 false) s) { s with ecc := { s.ecc with mediaAt := s.tm.elapsed } })
    else if s.ecc.sramAt + s.ecc.sramMin * 60000000 ≤ s.tm.elapsed then
      doneIo ((List.range (s.part.sheds + 1)).foldl (fun s d => queuePass (newPass none 2 false (d * 8 + 7) 0 0 0 false) s)
        { s with ecc := { s.ecc with sramAt := s.tm.elapsed } })
    else .next s
  else .next s

/-- P follows the fill at the end of a pass, when the fill has moved by more than 0.05: 0x3040 (R151). -/
def resizePaddock (s : State) : State :=
  if !s.fl.geom.ok then s
  else
    let f := fillOf s
    if !fillMoved f s.pl.fillSet then s
    else
      let p := paddockSize f s
      let s1 := if p = s.pl.p then s else raise 0x3040 1 [h2 s.pl.p, h2 p] s
      { s1 with pl := { s1.pl with p := p, fillSet := f } }

/-- The figures of a complete pass over a Yard replace those of the one before (R203). -/
def takeSurvey (p : Pass) (s : State) : State :=
  if p.scope ≠ 1 then s
  else
    let t := (List.range 4).foldl (fun t b => let l := (p.samples.filter (fun e => e.1 == b)).map (·.2)
      if l.isEmpty then Tbl.del t (p.target * 4 + b) else Tbl.put t (p.target * 4 + b) l) s.ecc.survey
    { s with ecc := { s.ecc with survey := t } }

/-- 64-bit words an SRAM pass reads: those of the valid lines. The map's shards are the regions whose lines the model keeps; the others' are
the row's (R216). -/
def sramWords (p : Pass) (n : Nat) (s : State) : Nat :=
  if p.target % 8 = 3 then 8 * (s.ecc.lines.filter (fun l => l / 131072 == p.target / 8)).length else n

/-- A media pass has read all it is to read. -/
def passDone (p : Pass) (s : State) : Bool := p.scope == 2 || (!s.fl.ops.any (fun o => o.isComb) && (combNext p s).isNone)

/-- CURRYCOMB_PASS_END (R217, R206, R151): a pass that has read everything ends, with what it has counted; an SRAM pass's counts and time are
the row's. The next one queued runs. -/
def execCurrycombPassEnd (res : PassRes) (s : State) : Out :=
  match s.ecc.running with
  | none => .next s
  | some p =>
    if !passDone p s then .next s
    else
      let x := p.summary 1
      let x := if p.scope = 2 then { x with words := sramWords p res.words s, c1 := res.c1, uncorr := res.uncorr, durMs := res.durMs } else x
      let t := takeSurvey p s
      let next := t.ecc.queued.head?
      let prog := match next with | some q => q.sum.words | none => 0
      let s2 := closePass p x { t with ecc := { t.ecc with running := next, queued := t.ecc.queued.drop 1, progress := prog } }
      doneIo (resizePaddock s2)

/-- ENTROPY_HEALTH_FAIL (R297): HALTED, 0x8031. -/
def execEntropyHealthFail (s : State) : Out := done (halt (raise 0x8031 3 [] s))

end Sys2Proof.Machine
end

