-- ==== Sys2Proof/Machine/Flush.lean ====
section
/-! DEFINITION. The start of EMERGENCY_FLUSH (R95 to R97, R173, R218, R361). -/

namespace Sys2Proof.Machine
open Sys2Proof

/-- Step 4 of Table 3.3 (R173): reads abandoned, queued work below class 1 dropped, a suspended program resumed, an erase in progress
reset with its intent record left open. -/
def stopArray (s : State) : State :=
  let keep := s.fl.ops.filter (fun o => o.cls == 1 || (o.kind == .program && o.st != .queued))
  { s with fl := { s.fl with ops := updWhere (fun o => o.st != .queued) (fun o => { o with st := .running }) keep } }

/-- Writes not decided when admission stops are discarded, without a completion, and their zones fall back (R96). -/
def dropUndecided (s : State) : State :=
  (s.zn.wrs.filter (fun w => w.dec == .undecided || !w.ready)).foldl (fun s w => discardWrite w.id (cutWrite w s)) s

/-- The record of a thermal trip: the die and its reading (R393). -/
def tripRecord (die : Nat) (temp : Int) (s : State) : State := raise 0xB050 3 [h1 die, hT temp] s

/-- A drain that a flush cuts short (R443, R45, R393): a test port entry is discarded, a device-level reset is held, a trip is recorded. -/
def endDrain (s : State) : State :=
  let t := { s with m := { s.m with drain := .none, testPend := false } }
  match s.m.drain with
  | .devReset => { t with pins := { t.pins with heldReset := 2 } }
  | .thermalTrip d r => tripRecord d r t
  | _ => t

/-- Enter EMERGENCY_FLUSH, in the modes Table 1.6 allows (R95): source 0 PWRFAIL_N, 1 a broadcast. From RETAIN the LUNs are parked already
and nothing is left to do (R385). -/
def beginFlush (src : Nat) (s : State) : State :=
  if !s.m.cur.flushable then s
  else
    let use := useKiB s
    let s1 := (allFns s).foldl (fun s f => fenceGather f s) (endDrain (proofInterrupt true s))
    let s2 := raise 0x2040 2 [h2 use, h1 src] { s1 with
      pins := { s1.pins with huChgEn := false, huLoad := false },
      slk := { s1.slk with admissionOff := true, phase := .idle, window := false },
      fl := { s1.fl with parked := s1.m.cur == .retain },
      pw := { s1.pw with entering := 0, exiting := false, wakeCause := if 3 ≤ s1.pw.ps ∨ s1.pw.entering ≠ 0 then 4 else s1.pw.wakeCause,
                         duringEntry := if 3 ≤ s1.pw.ps ∨ s1.pw.entering ≠ 0 then decide (s1.pw.entering ≠ 0) else s1.pw.duringEntry } }
    let s3 := setMode .emergencyFlush s2
    dropPasses (fun _ => true) (stopArray (dropUndecided s3))

/-- A root drives CAD_PF on every enabled downstream port, a root of a domain of one on none (R361, Table 13.1): 0xA040, role 0. -/
def sendPf (s : State) : State :=
  raise 0xA040 2 [h1 0] { s with cad := { s.cad with pfPulses := s.cad.pfPulses + (if s.img.cadHub then busyPorts s.img.downMask else 0) } }
where
  /-- Enabled downstream ports. -/
  busyPorts (m : Nat) : Nat := ((List.range 32).filter (fun i => bit m i)).length

end Sys2Proof.Machine
end

