-- ==== Sys2Proof/Machine/Cadence.lean ====
section
/-! DEFINITION. The cadence link (Chapter 13): turns and headers, lock, polls, the root's side, schedules, tokens, training. -/

namespace Sys2Proof.Machine
open Sys2Proof

/-! ## Turns (R339, R342) -/

/-- TURN_START: a millisecond has been counted; after turn 999 the epoch increments. -/
def execTurnStart (s : State) : Out := done (newTurn s)

/-- EPOCH_BOUNDARY: the turn after 999. -/
def execEpochBoundary (s : State) : Out := if s.tm.turn = 999 then done (newTurn s) else .next s

/-! ## Lock (R349, R350) -/

/-- Lock is lost: the stage mask is cleared, the token level stays (R350, R357, R360). -/
def dropLock (s : State) : State :=
  { s with
    cad := { s.cad with lock := false, lockReady := false, lockPend := false, good := none, badRow := 0, ver := 0, stage := [] },
    tm := { s.tm with tsrc := false, est := true } }
/-- Lose lock with its cause: 0xA002 (0 headers, 1 clock). -/
def loseLock (cause : Nat) (s : State) : State :=
  let s1 := dropLock s
  raise 0xA002 1 [h1 cause] { s1 with cad := { s1.cad with losses := satAdd 16 s1.cad.losses 1 } }

/-- The turn after a count. -/
def nextCount (c : Nat × Nat) : Nat × Nat := if c.2 = 999 then ((c.1 + 1) % 2 ^ 40, 0) else (c.1, c.2 + 1)

/-- A good header sets the count where it differs (R342, R351): RESYNCS, 0xA003 with the turns of difference; a pending
schedule whose epoch it reaches takes force. -/
def alignCount (e t : Nat) (s : State) : State :=
  if e = s.tm.epoch ∧ t = s.tm.turn then s
  else
    let a := e * 1000 + t
    let b := s.tm.epoch * 1000 + s.tm.turn
    let s1 := { s with tm := { s.tm with epoch := e, turn := t, resync := true }, cad := { s.cad with resyncs := satAdd 16 s.cad.resyncs 1 } }
    takeSched (raise 0xA003 1 [h2 ((a - b) + (b - a))] s1)

/-- The participant is within the domain's depth (R348). -/
def inDepth (s : State) : Bool := decide (s.cad.depth ≤ s.cad.maxDepth)

/-- A good header and the roll-call map behind it (R340 to R343, R349, R351, R360, R363). -/
def goodHeader (h : List Byte) (rollcall : Nat) (s : State) : State :=
  let ver := numAt h 2 1 % 16
  let e := numAt h 4 5
  let t := numAt h 9 2 % 1024
  let s0 := alignCount e t s
  let s1 := { s0 with cad := { s0.cad with
    nextVer := numAt h 2 1 / 16, depth := numAt h 3 1 % 4, maxDepth := numAt h 3 1 / 4 % 4, badRow := 0 } }
  let s2 :=
    if s1.cad.lock then setVer ver s1
    else if s1.cad.lockPend then s1
    else if (match s1.cad.good with | some c => nextCount c == (e, t) | none => false) && inDepth s1 then
      { s1 with cad := { s1.cad with lockReady := true, ver := ver, good := some (e, t) } }
    else { s1 with cad := { s1.cad with good := some (e, t), lockReady := false } }
  let s3 := if verSupp s2 < ver ∧ s2.cad.overEpoch ≠ some e then
      raise 0xA011 1 [h1 ver] { s2 with cad := { s2.cad with overEpoch := some e } } else s2
  let v2 := decide (2 ≤ min ver (verSupp s3))
  let s4 := { s3 with cad := { s3.cad with
    tokNext := if v2 then numAt h 13 1 else if s3.cad.lock then 0xFF else s3.cad.tokNext,
    map := if v2 then rollcall else s3.cad.map } }
  if s4.cad.lock && inDepth s4 then headerCmd (numAt h 11 1) (numAt h 14 4) (numAt h 12 1) s4 else s4

/-- A header that fails its CRC or SYNC while in lock: three in a row lose it. -/
def badHeader (s : State) : State :=
  if s.cad.lock then
    let s1 := { s with cad := { s.cad with hdrErr := satAdd 32 s.cad.hdrErr 1, badRow := s.cad.badRow + 1 } }
    if 3 ≤ s1.cad.badRow then loseLock 0 s1 else s1
  else { s with cad := { s.cad with good := none, lockReady := false } }

/-- Header commands reach a participant in lock (R341). -/
def heardCmd (cmd arg seq : Nat) (s : State) : Out :=
  if listens s && s.cad.lock && inDepth s then done (headerCmd cmd arg (seq % 256) s) else .next s
/-- ALL_QUIET: the next N turns are quiet. -/
def execAllQuiet (n seq : Nat) (s : State) : Out := heardCmd 1 n seq s
/-- RELEASE ends an ALL_QUIET early. -/
def execRelease (seq : Nat) (s : State) : Out := heardCmd 2 0 seq s
/-- RESYNC announces that EPOCH will jump. -/
def execResync (epoch seq : Nat) (s : State) : Out := heardCmd 3 (epoch % 2 ^ 32) seq s
/-- ALL_QUIET_EXPIRY: the last of the N turns ends. -/
def execAllQuietExpiry (s : State) : Out := if s.cad.quiet = 1 then done (newTurn s) else .next s

/-- LOCK_ACQUIRED (R349): the conditions hold; LOCK and TSRC rise at the start of the next turn. -/
def execLockAcquired (s : State) : Out :=
  if listens s && s.cad.lockReady && !s.cad.lock then done { s with cad := { s.cad with lockPend := true } } else .next s

/-- LOCK_LOST (R350): no CAD_CK for 1 µs, or the third bad header in a row. In RETAIN a lost clock ends the cycle count (R354). -/
def execLockLost (clock : Bool) (s : State) : Out :=
  if listens s && s.cad.lock then
    if clock then
      done (loseLock 1 (if s.m.cur == .retain then { s with pw := { s.pw with oscLost := true } } else s))
    else if 2 ≤ s.cad.badRow then done (badHeader s)
    else .next s
  else .next s

/-- CAD_CTL.RELOCK drops lock and searches again. -/
def relockNow (s : State) : State := if listens s && s.cad.lock then dropLock s else s

/-- CAD_CTL.TOKEN_RELEASE (R360): a level held after lock loss is lifted. -/
def tokenReleaseNow (s : State) : State :=
  if s.cad.lock then s else setToken 0xFF { s with cad := { s.cad with tokNext := 0xFF } }

/-! ## Schedules (R355 to R357) -/

/-- The epoch a commit argument names: 0 is the next boundary; else the epoch whose low 32 bits it gives, or the next boundary once that
has passed. -/
def commitEpoch (arg : Nat) (s : State) : Nat :=
  let d := (arg + 2 ^ 32 - s.tm.epoch % 2 ^ 32) % 2 ^ 32
  if arg = 0 ∨ d = 0 ∨ 2 ^ 31 ≤ d then s.tm.epoch + 1 else s.tm.epoch + d

/-- Commit a schedule: pending until its epoch; 0xA020 (source 0 local, 1 poll). -/
def commitSched (l : List Byte) (arg src : Nat) (s : State) : State :=
  let e := commitEpoch arg s
  raise 0xA020 0 [h2 (busyTurns l), h1 src, h4 e] { s with cad := { s.cad with pendSched := some (l, e) } }

/-! ## Polls (R344, R345) -/

/-- A value's low bits, least significant first. -/
def bitsLE (n v : Nat) : List Bool := (List.range n).map (fun i => bit v i)
/-- Bits 0 to 48 of a poll slot on CAD_DN, which its CRC-8 covers (R344). -/
def pollSlot (addr code arg : Nat) : List Bool := [true] ++ bitsLE 10 addr ++ bitsLE 6 code ++ bitsLE 32 arg
/-- An answer as its 40 bits on CAD_UP, the first in bit 0: REPLY, then its CRC-8, most significant bit first (R344). -/
def upWord (w : Nat) : Nat :=
  let r := crc8 (bitsLE 32 w)
  w % 2 ^ 32 + 2 ^ 32 * sumN ((List.range 8).map (fun i => 2 ^ i * b2n (bit r (7 - i))))
/-- Send a REPLY word upward. -/
def answer (w : Nat) (s : State) : State :=
  { s with cad := { s.cad with answers := s.cad.answers ++ [upWord w], pollCnt := satAdd 64 s.cad.pollCnt 1 } }
/-- ACK, RSTAT and VER_SUPP of a REPLY. -/
def replyHead (rstat : Nat) (s : State) : Nat := 1 + fld 1 3 rstat + fld 4 4 (verSupp s)
/-- The next turn's roll-call bit (R343). -/
def busyNext (s : State) : Bool :=
  !absentNow s && (breaking s || (schedBitAt (s.tm.turn + 1) s && quietSoon s == 0))
/-- The STATUS word (Table 13.6). -/
def statusWord (s : State) : Nat :=
  replyHead 0 s + fld 8 1 (b2n (busyNext s)) + fld 9 1 (b2n s.cad.brkFlag) + fld 10 1 (b2n (allQuiet s)) + fld 11 1 (b2n (s.cad.token != 0xFF || decide (min s.pw.f s.pw.t < 64)))
    + fld 12 4 s.m.cur.code + fld 16 2 s.m.thm + fld 18 1 (b2n s.m.wt) + fld 19 1 (b2n s.m.sparesOut) + fld 20 8 s.cad.brkTurns
/-- A poll reaches this device and it answers: its address and its CRC-8 match (R344, R348, R365). -/
def polled (addr code arg crc : Nat) (s : State) : Bool :=
  listens s && s.cad.lock && inDepth s && !absentNow s && addr == s.img.addr && crc == crc8 (pollSlot addr code arg)

/-- POLL_STATUS: the slot's address and the CRC-8 it carries. -/
def execPollStatus (slot : PollAt) (s : State) : Out :=
  if polled slot.addr 0 0 slot.crc s then
    let s1 := answer (statusWord s) s
    done { s1 with cad := { s1.cad with brkFlag := false, brkTurns := 0 } }
  else .next s
/-- POLL_IDENT. -/
def execPollIdent (slot : PollAt) (s : State) : Out :=
  if polled slot.addr 1 0 slot.crc s then
    done (answer (replyHead 0 s + fld 8 2 (if s.img.cadHub then 1 else 0) + fld 10 2 s.cad.depth + fld 16 16 s.part.part) s)
  else .next s
/-- POLL_SCHED_DATA: chunk i of the staging buffer. -/
def execPollSchedData (slot : PollAt) (idx : Nat) (data : Dword) (s : State) : Out :=
  if polled slot.addr (0x20 + idx) data.toNat slot.crc s && decide (idx < 32) then
    done (answer (replyHead 0 s) { s with cad := { s.cad with stage := Tbl.put s.cad.stage idx data.toNat } })
  else .next s
/-- POLL_SCHED_COMMIT: with all 32 chunks received the buffer becomes pending; otherwise 0b010 and nothing changes. -/
def execPollSchedCommit (slot : PollAt) (arg : Nat) (s : State) : Out :=
  if polled slot.addr 2 arg slot.crc s then
    if s.cad.stage.length = 32 then
      let l := s.cad.stage.flatMap (fun p => leBytes 4 p.2)
      let s1 := commitSched l (arg % 2 ^ 32) 1 s
      done (answer (replyHead 0 s + fld 8 10 (busyTurns l)) { s1 with cad := { s1.cad with stage := [] } })
    else done (answer (replyHead 2 s) s)
  else .next s
/-- POLL_UNKNOWN: RSTAT 0b001. -/
def execPollUnknown (slot : PollAt) (ask : PollAsk) (s : State) : Out :=
  if polled slot.addr ask.code ask.arg slot.crc s && !([0, 1, 2].contains ask.code) && !decide (0x20 ≤ ask.code ∧ ask.code ≤ 0x3F) then done (answer (replyHead 1 s) s) else .next s

/-- What the downstream ports captured, ORed; ports that no step of training passes, and those of a leaf or of a root of a domain of one,
capture zeros (R347, R348, Table 13.1). -/
def portWord {n : Nat} (caps : List (Nat × BitVec n)) (s : State) : Nat :=
  caps.foldl (fun a c => if s.img.cadHub && bit s.img.downMask c.1 && bit s.cad.downLink c.1 then a ||| c.2.toNat else a) 0

/-- The header is good: SYNC and CRC (R340, R350). -/
def headerOk (h : List Byte) : Bool := numAt h 0 2 == 0xB4E1 && crcOf 0 (sliceB h 0 30) == numAt h 30 2
/-- The header a hub forwards: DEPTH one more, CRC anew (R340). One that is not good it passes on as it came (DEDUCED, log 89). -/
def fwdHeader (h : List Byte) : List Byte :=
  if !headerOk h then h
  else
    let b := sliceB h 0 3 ++ leBytes 1 (numAt h 3 1 / 4 * 4 + (numAt h 3 1 + 1) % 4) ++ sliceB h 4 26
    b ++ leBytes 2 (crcOf 0 b)
/-- A hub above depth 3 forwards the turn (R338, R348). -/
def forwardTurn (h : List Byte) (rollcall : Nat) (s : State) : State :=
  { s with cad := { s.cad with dn := if s.img.cadHub && numAt h 3 1 % 4 != 3 then fwdHeader h ++ leBytes 128 rollcall else [] } }
/-- The roll call of the turn goes upward: this participant's bit, merged with what its ports captured (R343, R347, R348). -/
def rollCall (ups : List (Nat × BitVec 1024)) (s : State) : State :=
  let own := if s.cad.lock && inDepth s && busyNext s then 2 ^ (s.img.addr % 1024) else 0
  { s with cad := { s.cad with up := portWord ups s ||| own } }

/-- TURN_HEADER: the 32 header bytes, the DN roll-call map, and what each downstream port captured of the roll call on CAD_UP, with which a
root merges its own bit (R343, R347). -/
def execTurnHeader (t : TurnIn) (s : State) : Out :=
  if isRoot s then done { s with cad := { s.cad with map := portWord t.ups s ||| (if busyNext s then 2 ^ (s.img.addr % 1024) else 0) } }
  else if listens s then
    let s1 := forwardTurn t.hdr t.rollcall.toNat s
    done (rollCall t.ups (if headerOk t.hdr then goodHeader t.hdr t.rollcall.toNat s1 else badHeader s1))
  else .next s

/-! ## The root (R345, R358, R366, R367) -/

/-- What a root holds of an address. -/
def partOf (a : Nat) (s : State) : Part13 := Tbl.getD s.cad.parts a ⟨0, 0xFFFF, 0, false, false⟩
/-- Change it. -/
def updPart (a : Nat) (g : Part13 → Part13) (s : State) : State := { s with cad := { s.cad with parts := Tbl.put s.cad.parts a (g (partOf a s)) } }

/-- A delivery ends with a failure: 0h/0x06, DW0 the cause, 0xA021. -/
def failDeliv (d : Deliv) (cause : Nat) (s : State) : State :=
  let s1 := raise 0xA021 1 [h1 d.target, h1 cause] { s with cad := { s.cad with dels := s.cad.dels.filter (fun x => x.seq != d.seq) } }
  match ctxAt d.seq s1 with
  | some k => if k.wait == .sched then postFull k 0 0x06 cause 0 [] s1 else s1
  | none => s1

/-- Begin deliveries, in fetch order, 16 at once; a target not present then fails. -/
def beginDelivs : Nat → State → State
  | 0, s => s
  | fuel + 1, s =>
    match (s.cad.dels.take 16).find? (fun (d : Deliv) => !d.begun) with
    | none => s
    | some d =>
      if (partOf d.target s).present then
        beginDelivs fuel { s with cad := { s.cad with dels := updWhere (fun (x : Deliv) => x.seq == d.seq) (fun x => { x with begun := true, since := 0 }) s.cad.dels } }
      else beginDelivs fuel (failDeliv d 2 s)

/-- A delivery's target has answered. -/
def delivAnswer (d : Deliv) (code : Nat) (reply : Nat) (s : State) : State :=
  let upd := fun (g : Deliv → Deliv) => { s with cad := { s.cad with dels := updWhere (fun (x : Deliv) => x.seq == d.seq) g s.cad.dels } }
  let rstat := bits reply 3 1
  if code = 2 then
    if rstat = 0 then
      let s1 := { s with cad := { s.cad with dels := s.cad.dels.filter (fun x => x.seq != d.seq) } }
      match ctxAt d.seq s1 with
      | some k => if k.wait == .sched then okDw0 k (bits reply 17 8) s1 else s1
      | none => s1
    else if rstat = 2 then
      if 3 ≤ d.refusals + 1 then failDeliv d 3 s
      else upd (fun x => { x with refusals := x.refusals + 1, left := List.range 32, since := 0 })
    else upd (fun x => { x with since := 0 })
  else if 0x20 ≤ code ∧ code ≤ 0x3F then upd (fun x => { x with left := x.left.filter (· != code - 0x20), since := 0 })
  else upd (fun x => { x with since := 0 })

/-- A root's own bits of an answer: it answers a poll of its own address, depth 0 and role 2 (R347, Table 13.6). -/
def ownWord (addr code : Nat) (s : State) : Nat :=
  if addr ≠ s.img.addr then 0
  else upWord (if code = 0 then statusWord s else if code = 1 then replyHead 0 s + fld 8 2 2 + fld 16 16 s.part.part else replyHead 1 s)

/-- ROOT_POLL_ANSWER (R345, R347, R358): `words` is what each of `ports` captured of the slot's 40 answer bits. A hub drives their OR upward, its
own bit being 0 in an answer that is not its own; at the root an answer with a good CRC-8 and ACK marks its address present. -/
def execRootPollAnswer (addr code : Nat) (ports : List Nat) (words : List (BitVec 40)) (s : State) : Out :=
  let caps := ports.zip words
  if 1024 ≤ addr then .next s
  else if !isRoot s then
    (if s.img.cadHub && listens s && s.cad.lock && inDepth s && decide (s.cad.depth < 3) && addr != s.img.addr then
      done { s with cad := { s.cad with answers := s.cad.answers ++ [portWord caps s] } } else .next s)
  else
    let w := portWord caps s ||| ownWord addr code s
    let r := w % 2 ^ 32
    if upWord r ≠ w then done (updPart addr (fun p => { p with crcFail := true }) s)
    else if !bit r 0 then .next s
    else
      let s := if code = 0 ∧ addr = s.img.addr then { s with cad := { s.cad with brkFlag := false, brkTurns := 0 } } else s
      let s1 := updPart addr (fun p => { p with since := 0, present := true, ver := bits r 7 4, word := if code = 0 then r else p.word }) s
      let s2 := match s1.cad.dels.find? (fun (d : Deliv) => d.begun && d.target == addr) with
        | some d => delivAnswer d code r s1
        | none => s1
      done (beginDelivs 2048 s2)

/-- PARTICIPANT_ABSENT (R345): 600 turns without a good answer: 0xA051. -/
def execParticipantAbsent (addr : Nat) (s : State) : Out :=
  if isRoot s && (partOf addr s).present && decide (600 ≤ (partOf addr s).since) then
    done (raise 0xA051 0 [h1 addr] (updPart addr (fun p => { p with present := false }) s))
  else .next s

/-- SCHEDULE_DELIVERY_TIMEOUT (R358): targets that have not answered for 1,000 turns. -/
def execScheduleDeliveryTimeout (s : State) : Out :=
  let l := s.cad.dels.filter (fun (d : Deliv) => d.begun && decide (1000 ≤ d.since))
  if l.isEmpty then .next s else done (beginDelivs 2048 (l.foldl (fun s d => failDeliv d 2 s) s))

/-- Cadence Schedule Load (R358). -/
def schedLoadOn (buf : List Byte) (k : Ctx) (s : State) : State :=
  let w := k.cmd.cdw10.toNat
  let tgt := bits w 9 0
  if bits w 31 11 ≠ 0 then fin k 0 0x02 s
  else if bit w 10 || (isRoot s && tgt == s.img.addr) then ok k (commitSched (padTo 128 buf) k.cmd.cdw11.toNat 0 s)
  else if !isRoot s then postFull k 0 0x02 1 0 [] s
  else
    let d : Deliv := ⟨k.seq, tgt, padTo 128 buf, k.cmd.cdw11.toNat, false, List.range 32, 0, 0⟩
    let s1 := putCtx { k with wait := .sched } s
    beginDelivs 2048 { s1 with cad := { s1.cad with dels := s1.cad.dels ++ [d] } }

/-- CADENCE_SCHEDULE_LOAD. -/
def execCadenceScheduleLoad (c : Cmd) (buf : List Byte) (s : State) : Out :=
  done (withCmd c s (fun k s => gateAdmin (c.fn == 0) false k s (schedLoadOn buf)))

/-- CAD_CTL.PF_SEND of a root (R361): broadcast, then the root's own flush. -/
def pfSendNow (s : State) : State := if isRoot s && s.m.cur != .test then beginFlush 1 (sendPf s) else s

/-- A write of CAD_ROOT_CMD and CAD_ROOT_ARG with their bytes' values; SEND while a command is being repeated is ignored (R367). -/
def writeRootCmd (cmd arg : Nat) (send : Bool) (s : State) : State :=
  let s1 := { s with cad := { s.cad with rootCmd := cmd, rootArg := arg } }
  if send && s1.cad.sendLeft == 0 then
    { s1 with cad := { s1.cad with sendLeft := 4, sendCmd := cmd, sendArg := arg, sendSeq := (s1.cad.sendSeq + 1) % 256 } }
  else s1

/-- A write of CAD_ROOT_EPOCH: RESYNC in the next four headers, the value at the next boundary (R367). -/
def writeRootEpoch (v : Nat) (s : State) : State :=
  { s with cad := { s.cad with epochReq := some (v % 2 ^ 40), sendLeft := 4, sendCmd := 3, sendArg := v % 2 ^ 32, sendSeq := (s.cad.sendSeq + 1) % 256 } }

/-! ## Port training (R348) -/

/-- The widest run of passing steps, the first on a tie: its start and length. -/
def widestRun (l : List Bool) : Nat × Nat :=
  let r := (l.zipIdx).foldl (fun (a : (Nat × Nat) × (Nat × Nat)) x =>
    let cur := if x.1 then (if a.2.2 = 0 then (x.2, 1) else (a.2.1, a.2.2 + 1)) else (0, 0)
    (if a.1.2 < cur.2 then cur else a.1, cur)) ((0, 0), (0, 0))
  r.1

/-- PORT_TRAINING_SWEEP_END: which of the 16 steps captured the pattern. -/
def execPortTrainingSweepEnd (port : Nat) (steps : List Bool) (s : State) : Out :=
  if s.img.cadEnable && s.img.cadHub && decide (port < 32) && bit s.img.downMask port then
    let r := widestRun (steps.take 16)
    if r.2 = 0 then
      let n := Tbl.getD s.cad.sweepFail port 0 + 1
      let s1 := { s with cad := { s.cad with sweepFail := Tbl.put s.cad.sweepFail port (min n 2) } }
      if n = 2 then
        done (raise 0xA050 1 [h1 port] { s1 with cad := { s1.cad with downLink := if bit s.cad.downLink port then s.cad.downLink - 2 ^ port else s.cad.downLink } })
      else done s1
    else
      done { s with cad := { s.cad with
        sweepFail := Tbl.del s.cad.sweepFail port, phases := Tbl.put s.cad.phases port (r.1 + (r.2 - 1) / 2),
        downLink := if bit s.cad.downLink port then s.cad.downLink else s.cad.downLink + 2 ^ port } }
  else .next s

/-! ## Cadence Domain Status (R369) -/

/-- One entry of log page 0xD3. -/
def cadEntry (a : Nat) (s : State) : List Byte :=
  match Tbl.get? s.cad.parts a with
  | none => leBytes 4 0 ++ leBytes 2 0xFFFF ++ [0, 0]
  | some p => leBytes 4 p.word ++ leBytes 2 (min p.since 0xFFFF) ++ leBytes 1 (p.ver % 16)
      ++ leBytes 1 (b2n p.present + 2 * b2n (decide (p.since < 600) && decide (0 < p.ver)) + 4 * b2n p.crcFail)

/-- The Cadence Domain Status page: a root's, to the physical functions. -/
def cadLogOn (k : Ctx) (s : State) : State :=
  if isRoot s && isPf k.cmd.fn then
    let s1 := logReply ((List.range 1024).flatMap (fun a => cadEntry a s)) k s
    { s1 with cad := { s1.cad with parts := Tbl.mapV s1.cad.parts (fun _ p => { p with crcFail := false }) } }
  else fin k 0 0x02 s

/-- CADENCE_DOMAIN_STATUS_LOG. -/
def execCadenceDomainStatusLog (c : Cmd) (s : State) : Out := done (withCmd c s (fun k s => gateAdmin true true k s cadLogOn))

end Sys2Proof.Machine
end

