-- ==== Sys2Proof/Machine/StbOps.lean ====
section
/-! DEFINITION. The Studbook's ring, its early and always-on buffers and its persisted copy (R397 to R405), as the journal's operations
use them. -/

namespace Sys2Proof.Machine
open Sys2Proof

/-- The 32 bytes of a record (Table 15.1). -/
def recBytes (r : Rec) : List Byte :=
  leBytes 8 r.stamp ++ leBytes 2 r.code ++ leBytes 2 r.rpt ++ leBytes 4 r.seq ++ r.args.flatMap (fun a => leBytes 2 a) ++
    leBytes 1 (fld 0 2 r.sev + fld 2 1 (b2n r.early) + fld 3 1 (b2n r.aon)) ++ [0xA5]

/-- How far a SEQ lies behind STB_SEQ_NEXT, modulo 2^32. -/
def seqAge (b : Stb) (q : Nat) : Nat := let d := (b.seqNext + 2 ^ 32 - q % 2 ^ 32) % 2 ^ 32; if d = 0 then 2 ^ 32 else d

/-- SEQ values left below the last durable reservation (R403); none once STB_SEQ_NEXT has reached it. -/
def seqLeft (b : Stb) : Nat := let d := (b.per.reserve + 2 ^ 32 - b.seqNext) % 2 ^ 32; if 2 ^ 31 < d then 0 else d

/-- The record with the lowest SEQ among those that meet a test: its slot and itself. -/
def oldestRec (b : Stb) (p : Rec → Bool) : Option (Nat × Rec) :=
  b.ring.foldl (fun o x => if p x.2 then (match o with | none => some x | some y => if seqAge b y.2.seq < seqAge b x.2.seq then some x else some y) else o) none

/-- STB_SEQ_OLD (R402). -/
def seqOld (b : Stb) : Nat := match oldestRec b (fun _ => true) with | some x => x.2.seq | none => b.seqNext

/-- The newest record: SEQ = STB_SEQ_NEXT − 1. -/
def newestRec (b : Stb) : Option (Nat × Rec) := b.ring.find? (fun x => seqAge b x.2.seq == 1)

/-- The n-th free slot of the ring. -/
def nthFree : Tbl Rec → Nat → Nat → Nat
  | [], cur, n => cur + n
  | (k, _) :: t, cur, n => if n < k - cur then cur + n else nthFree t (k + 1) (n - (k - cur))

/-- Slots of the ring. -/
def ringSize : Nat := 32768

/-- Mark a slot's group dirty (R403). -/
def markDirty (slot : Nat) (b : Stb) : Stb := if b.dirty.contains (slot / 128) then b else { b with dirty := b.dirty ++ [slot / 128] }

/-- Write a record into a slot with the next SEQ. -/
def writeSlot (slot : Nat) (r : Rec) (us : Option Nat) (b : Stb) : Stb :=
  markDirty slot { b with ring := Tbl.put b.ring slot { r with seq := b.seqNext }, seqNext := wrapAdd 32 b.seqNext 1, lastUs := us }

/-- Place a new record (R402): in a free slot if there is one (which, the spec leaves open: a free value), else over the oldest record
of no higher severity, else it is dropped. -/
def placeNew (r : Rec) (us : Option Nat) (s : State) : State :=
  let b := s.stb
  if b.ring.length < ringSize then
    tick { s with stb := writeSlot (nthFree b.ring 0 (Config.freeNat s.free % (ringSize - b.ring.length))) r us b }
  else match oldestRec b (fun x => decide (x.sev ≤ r.sev)) with
    | some x => { s with stb := writeSlot x.1 r us b }
    | none => { s with stb := { b with dropFull := satAdd 32 b.dropFull 1 } }

/-- A record of an event, not yet placed. -/
def recOf (e : Ev) : Rec := ⟨e.stamp, e.code, 0, 0, e.args, e.sev, false, e.aon⟩

/-- The event is identical to the newest record: same CODE, SEV and arguments, within 1 turn of the last occurrence (R401). -/
def identicalTo (e : Ev) (b : Stb) (r : Rec) : Bool :=
  r.code == e.code && r.sev == e.sev && r.args == e.args && r.rpt != 0xFFFF &&
    (match b.lastUs with | some u => decide (e.us ≤ u + 1000) | none => false)

/-- Place an event in the ring (R401, R402). -/
def placeEv (e : Ev) (s : State) : State :=
  let b := s.stb
  match newestRec b with
  | some x =>
    if identicalTo e b x.2 then
      { s with stb := markDirty x.1 { b with ring := Tbl.put b.ring x.1 { x.2 with rpt := x.2.rpt + 1 }, lastUs := some e.us } }
    else placeNew (recOf e) (some e.us) s
  | none => placeNew (recOf e) (some e.us) s

/-- Put a record in the early buffer, 64 at most (R51). -/
def placeEarly (e : Ev) (s : State) : State :=
  if s.stb.early.length < 64 then { s with stb := { s.stb with early := s.stb.early ++ [{ recOf e with early := true }] } }
  else { s with stb := { s.stb with dropQueue := satAdd 32 s.stb.dropQueue 1 } }

/-- Append early records to the ring, oldest first, as far as the reservation reaches (R51, R403). -/
def appendEarly : Nat → State → State
  | 0, s => s
  | n + 1, s =>
    match s.stb.early with
    | [] => s
    | r :: rs => if seqLeft s.stb = 0 then s else appendEarly n (placeNew r none { s with stb := { s.stb with early := rs } })

/-- Persistence is allowed: a ring is loaded, and programming too, or a flush runs (R403, R405). -/
def mayPersist (s : State) : Bool :=
  s.stb.loaded && s.m.thm != 2 && !(s.m.cur == .halted || s.m.cur == .test || s.m.cur == .retain || s.m.cur == .reset || s.m.cur == .imageLoad)

/-- Program the dirty groups into both journal copies, with the sequence reservation (R403), then append what waited for one. -/
def persistNow (s : State) : State :=
  let b := s.stb
  let res := if seqLeft b < 32768 then (b.seqNext + 65536) % 2 ^ 32 else b.per.reserve
  let t := stampNow s
  appendEarly b.early.length { s with stb := { b with persistStamp := t, dirty := [], per := ⟨b.ring, res, b.dropFull, b.dropQueue, t, []⟩ } }

/-- Place the front event of the queue (R400): in the early buffer before the ring is loaded, else in the ring, once the reservation
reaches it. -/
def placeFront (s : State) : State :=
  match s.stb.queue with
  | [] => s
  | e :: es =>
    if !s.stb.loaded then placeEarly e { s with stb := { s.stb with queue := es } }
    else
      let s1 := if seqLeft s.stb = 0 && mayPersist s then persistNow s else s
      if seqLeft s1.stb = 0 || !s1.stb.early.isEmpty then s1
      else placeEv e { s1 with stb := { s1.stb with queue := es } }

/-- Place the whole queue: each event is placed within 1 µs (R400). -/
def drainQueue : Nat → State → State
  | 0, s => s
  | n + 1, s => drainQueue n (placeFront s)

/-- Persist with everything raised so far placed first: the closing records and the checkpoint (R403). -/
def persistAll (s : State) : State :=
  let s1 := settle s
  let s2 := drainQueue s1.stb.queue.length s1
  if s2.stb.loaded then
    let s3 := persistNow s2
    let s4 := drainQueue s3.stb.queue.length s3
    if s4.stb.dirty.isEmpty then s4 else persistNow s4
  else s2

/-- What a flush saves of the Studbook (R51, R69, R403): the ring; before it is loaded the early buffer, once the journal heads are
located. When, within job (c), they are located the spec leaves open: a free value. -/
def flushStudbook (s : State) : State :=
  let s1 := persistAll s
  let inJob := s1.st.inProof && !s1.st.jobC
  if s1.stb.loaded || !(s1.st.headsFound || (inJob && Config.freeBit s1.free)) then tick s1
  else tick { s1 with stb := { s1.stb with per := { s1.stb.per with earlySave := s1.stb.per.earlySave ++ s1.stb.early } } }

/-- Load the ring in PROOF_LOAD job (c) (R404): SEQ resumes from the reservation, the early-save page and then the early buffer are
appended. -/
def loadRing (s : State) : State :=
  let p := s.stb.per
  let add := fun (kept now : Nat) => if s.stb.dropsIn then now else satAdd 32 kept now
  let b : Stb := { s.stb with ring := p.ring, seqNext := p.reserve, dropFull := add p.dropFull s.stb.dropFull, dropQueue := add p.dropQueue s.stb.dropQueue, dropsIn := true,
                              persistStamp := p.stamp, early := p.earlySave ++ s.stb.early, loaded := true, lastUs := none, dirty := [] }
  let s1 := { s with stb := b }
  if s1.m.thm = 2 || b.early.isEmpty then s1 else persistNow s1

/-- At wake the always-on buffer's events are placed in order (R405): they enter the queue, and those dropped are counted. -/
def aonWake (s : State) : State :=
  let b := s.stb
  let room := 256 - b.queue.length
  { s with stb := { b with queue := b.queue ++ b.aon.take room, aon := [], aonDrop := 0,
                           dropQueue := satAdd 32 b.dropQueue (b.aonDrop + (b.aon.length - room)) } }

end Sys2Proof.Machine
end

