-- ==== Sys2Proof/Machine/Start.lean ====
section
/-! DEFINITION. The Tack journal's checkpoint and closing records (R65, R178, R353, R355, R403, R452), and the passage into RESET with
what each kind of reset keeps (Table 2.1, R14, R35, R353, R366). -/

namespace Sys2Proof.Machine
open Sys2Proof

/-- What every checkpoint and closing record makes durable beside the Studbook: the yard-time stamp (R353) and service life (R452). -/
def persistStampLife (s : State) : State :=
  { s with jn := { s.jn with stamp := (s.tm.epoch, s.tm.turn, s.tm.us), life := s.ts.life } }

/-- A journal checkpoint (R178): dirty Studbook groups, the committed schedule, learned offsets, the service-life page. The block
ledger equals the last checkpoint plus the erase-done records after it, so it needs no copy. -/
def checkpoint (s : State) : State :=
  let t := persistStampLife (persistAll (dropOld s))
  { t with jn := { t.jn with sched := t.cad.sched, schedLoaded := t.cad.loaded, schedPend := t.cad.pendSched, learned := t.ecc.learned,
                             checkpoints := t.jn.checkpoints + 1 } }

/-- The clean-close record, with the Studbook persisted (R65, R403). -/
def cleanClose (s : State) : State :=
  let t := persistStampLife (persistAll (dropOld s))
  { t with jn := { t.jn with closing := .clean, opened := false }, fl := { t.fl with flushHot := false } }

/-- The cadence logic after a reset (R338, R366): with VDD_AON present a root's generator and tables go on and its deliveries are
abandoned; otherwise every register is at Reset. The power-fail pulses driven and the answers sent are history. -/
def cadRestart (aon : Bool) (s : State) : Cad :=
  if aon && isRoot s then { s.cad with pfOnPwrfail := true, stage := [], dels := [], loaded := false, sched := schedFactory, pendSched := none }
  else { Cad.dflt with answers := s.cad.answers, pfPulses := s.cad.pfPulses }

/-- Yard time after a reset (R353, R37): the always-on counter carries on; after power-on it resumes from the newest persisted stamp. -/
def tmRestart (aon : Bool) (s : State) : Tm :=
  if aon then { s.tm with tsrc := false, est := true }
  else { Tm.dflt with epoch := s.jn.stamp.1, turn := s.jn.stamp.2.1, us := s.jn.stamp.2.2 }

/-- A LUN's entry after a reset: what the persisted tables hold stays; this start's own findings go, a failure with them. -/
def lunRestart (l : Lun) : Lun :=
  { l with excluded := false, failed := false, wornOut := l.wornOut && !l.failed, timeouts := 0, toEpoch := 0, suspAt := 0, chain := 0, chainEnd := false }

/-- The Slack manager after a reset; its ST fields are kept across the end of a flush (R14). SLK_LASTFLUSH is loaded from the
journal in job (c). -/
def slkRestart (keep : Bool) (s : State) : Slk :=
  let z := Slk.dflt
  if keep then { z with result := s.slk.result, proofCnt := s.slk.proofCnt, totalMiB := s.slk.totalMiB, capUf := s.slk.capUf, esr := s.slk.esr,
                        v0 := s.slk.v0, v1 := s.slk.v1, v2 := s.slk.v2, euseMj := s.slk.euseMj, efixUj := s.slk.efixUj, ebyte := s.slk.ebyte,
                        pfl := s.slk.pfl, proofStamp := s.slk.proofStamp, earlyCnt := s.slk.earlyCnt, heldCnt := s.slk.heldCnt }
  else z

/-- Integrity after a reset: learned offsets as last persisted; ST fields across the end of a flush. -/
def eccRestart (keep : Bool) (s : State) : Ecc :=
  let z := { Ecc.dflt with learned := s.jn.learned, mediaAt := s.tm.elapsed, sramAt := s.tm.elapsed }
  if keep then { z with sramCe := s.ecc.sramCe, sramUe := s.ecc.sramUe, lastDie := s.ecc.lastDie, lastRegion := s.ecc.lastRegion,
                        lastUe := s.ecc.lastUe, lastValid := s.ecc.lastValid, lastSyn := s.ecc.lastSyn, lastWord := s.ecc.lastWord,
                        tokenExh := s.ecc.tokenExh, reconFail := s.ecc.reconFail, ladder := s.ecc.ladder, passCnt := s.ecc.passCnt, last := s.ecc.last }
  else z

/-- Power management after a reset; RET_LOST stays for the start it causes to record (R385). -/
def pwRestart (keep : Bool) (s : State) : Pwr :=
  let z := { Pwr.dflt with retLost := s.pw.retLost, roundAt := s.tm.elapsed, resAt := s.tm.elapsed }
  if keep then { z with refCnt := s.pw.refCnt, refBlock := s.pw.refBlock, ent3 := s.pw.ent3, ent4 := s.pw.ent4, res := s.pw.res, resEst := s.pw.resEst,
                        thmQlc := s.pw.thmQlc, thmAll := s.pw.thmAll }
  else z

/-- The start-up registers after a reset; the SPI NOR's contents are media. -/
def stRestart (keep : Bool) (s : State) : StartS :=
  let z := if keep then s.st else StartS.dflt
  { z with jobA := false, jobB := false, jobC := false, needRecovery := false, headsFound := false, inProof := false, up := false, spiA := s.st.spiA, spiB := s.st.spiB }

/-- The firmware slots after a reset: a Commit whose image was being written may have left its slot partly written, which then fails its
check (R242); whether it did is a free value. -/
def fwCut (s : State) : List FwSlot :=
  match s.q.fw.commit with
  | (_, slot, _) :: _ => if Config.freeBit s.free then setNth s.q.fw.slots (slot - 1) ⟨false, 0⟩ else s.q.fw.slots
  | [] => s.q.fw.slots

/-- Enter RESET (Table 2.1): what SRAM held is lost and TXS_MODE is at its reset values, neither recorded nor counted (R35). Media and
the Tack journal stay. `aon`: VDD_AON is present; `keep`: the ST fields are kept (R14). -/
def restartWith (aon keep : Bool) (s : State) : State where
  part := s.part
  m := { ModeS.dflt with warn2 := s.m.warn2, since := (tmRestart aon s).elapsed }
  pins := { s.pins with huChgEn := false, huLoad := false, wpLow := true, detect := false, heldReset := 0, pfHigh := false }
  st := stRestart keep s
  img := if aon then s.img else Img.dflt s.part
  stb := { Stb.dflt with per := s.stb.per, seqNext := if keep then s.stb.seqNext else 0, dropFull := if keep then s.stb.dropFull else 0,
                         dropQueue := if keep then s.stb.dropQueue else 0, dropsIn := keep && s.stb.dropsIn, persistStamp := if keep then s.stb.persistStamp else 0 }
  slk := slkRestart keep s
  q := { Qs.dflt with seq := s.q.seq, errCount := s.q.errCount, fw := { s.q.fw with slots := fwCut s, rev := 0, parts := [], commit := [], act := none }, out := s.q.out,
                      unsafeCount := s.q.unsafeCount, powerCycles := s.q.powerCycles }
  zn := { s.zn with wrs := [], sanit := s.jn.sanitize, scrubs := s.zn.scrubs.map (fun (x : Scrub) => { x with ctx := none }) }
  pl := { s.pl with moves := [], waiting := [], lostSrc := [],
                    yards := Tbl.mapV s.pl.yards (fun _ y => { y with relocs := 0, exhTurn := false, noLanding := false }) }
  fl := { Fl.dflt with luns := Tbl.mapV s.fl.luns (fun _ l => lunRestart l), blks := s.fl.blks, nextOp := s.fl.nextOp, flushHot := s.fl.flushHot && !s.jn.opened,
                       marred := s.fl.marred, refreshAt := s.fl.refreshAt, calib := s.fl.calib }
  ecc := eccRestart keep s
  tm := tmRestart aon s
  stl := Stl.dflt
  ci := { Ciph.dflt with nsKeys := s.ci.nsKeys, bind := s.ci.bind, sealFail := if keep then s.ci.sealFail else 0, denied := if keep then s.ci.denied else 0 }
  ga := { Gath.dflt with wr := s.ga.wr }
  cad := { cadRestart aon s with brkCnt := if keep then s.cad.brkCnt else 0 }
  pw := pwRestart keep s
  ts := { Tst.dflt with life := s.jn.life, ir := s.ts.ir }
  jn := { s.jn with admOff := true }
  rg := { s.rg with shadow := [], low := [] }
  free := if s.q.fw.commit.isEmpty then s.free else s.free + 1
  pending := s.pending

/-- Enter RESET: data that had not reached the media is lost first. -/
def restart (aon keep : Bool) (s : State) : State := restartWith aon keep (cutAll s)

/-- A start that keeps VDD_AON and the ST fields: the end of a flush (R34), a wake after VDD_RET was lost (R385). -/
def enterReset (s : State) : State := restart true true s

/-- The rewrite of an unreadable journal copy that waited for programming to be allowed (R66). -/
def rebuildCopy (s : State) : State :=
  if s.jn.rebuild.isSome && s.m.thm != 2 && !(s.m.cur == .proofLoad && s.st.unsafeSd) then { s with jn := { s.jn with rebuild := none, copy0 := true, copy1 := true } } else s

/-- SANITIZE_END (R126): a Block Erase checkpoints the journal (Table 4.6); zones Empty, maps unmapped, charges returned, SPARES_OUT re-evaluated, warning bit 2 cleared, and the base
mode; or, when a Block Erase could not show a block erased (`failed`), sanitize failure mode. While THM = 0b10 the erases of a Block
Erase wait, so it does not end (R392). -/
def execSanitizeEnd (failed : Option Nat) (s : State) : Out :=
  if s.m.cur = .sanitize ∧ s.zn.sanit ≠ 0 ∧ ¬(s.zn.sanit = 1 ∧ s.m.thm = 2) then
    let s1 := wipeData s
    let s2 := if s.zn.sanit = 2 then retireAll s1 else checkpoint (eraseAll s1)
    match (if s.zn.sanit = 2 then none else failed) with
    | some b =>
      let s3 := updBk (b / 8192) (b % 8192) (fun x => { x with st := .bad, role := .free }) s2
      let s4 := { s3 with zn := { s3.zn with sanit := 0, sanFail := true, sstat := 3 }, jn := { s3.jn with sanitize := 0 } }
      done (setMode (baseMode s4) (reevalSpares s4))
    | none =>
      let s3 := setWarn 2 false { s2 with zn := { s2.zn with sanit := 0, sanFail := false, sstat := 1 }, jn := { s2.jn with sanitize := 0 } }
      let s4 := reevalSpares s3
      done (setMode (baseMode s4) s4)
  else .next s

/-- JOURNAL_CHECKPOINT (R178, R403): in the modes in which the device serves or recovers, while programming is allowed. -/
def execJournalCheckpoint (s : State) : Out :=
  if mayPersist s && s.m.cur != .emergencyFlush then done (checkpoint s) else .next s

end Sys2Proof.Machine
end

