-- ==== Sys2Proof/Machine/Power.lean ====
section
/-! DEFINITION. Power states, the power limit, housekeeping, throttling, programming windows, retention, service life (Chapter 14,
R451, R452). -/

namespace Sys2Proof.Machine
open Sys2Proof

/-! ## The device state (R373, R374, R386) -/

/-- The device state the controllers' states choose: the lowest-numbered one held by an enabled controller, 0 with none. -/
def chosenPs (s : State) : Nat :=
  let l := (s.q.fns.filter (fun p => p.2.en)).map (fun p => p.2.feats.ps)
  minL 0 l

/-- Count residency up to now in the state that has it: the present one, or during an exit the one being entered (R386). State 4 is
counted at its wake. -/
def accrue (s : State) : State :=
  let k := if s.pw.exiting then min 2 (chosenPs s) else s.pw.ps
  let dt := s.tm.elapsed - s.pw.resAt
  if k = 4 then { s with pw := { s.pw with resAt := s.tm.elapsed } }
  else { s with pw := { s.pw with res := setNth s.pw.res k (satAdd 64 (nth s.pw.res k 0) dt), resAt := s.tm.elapsed } }

/-- Take a device state: 0xB001. -/
def setPs (n : Nat) (s : State) : State :=
  if n = s.pw.ps then s else raise 0xB001 0 [h1 s.pw.ps, h1 n] { accrue s with pw := { (accrue s).pw with ps := n } }

/-- After a controller's state has changed: an operational device state takes effect; entry into 3 and 4 follows R378. -/
def repower (s : State) : State :=
  if s.pw.ps ≤ 2 ∧ s.pw.entering = 0 ∧ chosenPs s ≤ 2 then setPs (chosenPs s) s else s

/-- A controller's own state, and its most recent operational one. -/
def setFnPs (f n : Nat) (s : State) : State :=
  updFn f (fun x => { x with feats := { x.feats with ps := n, opPs := if n ≤ 2 then n else x.feats.opPs } }) s

/-- The modes in which a wake acts: a higher mode that began in a non-operational state is not left by it (R32). -/
def Mode.wakes : Mode → Bool
  | .service | .writeThrough | .thermalHold | .readOnly | .retain | .fwActivate | .sanitize => true
  | _ => false

/-- A wake event of Table 14.3 (R382, R383): in state 3 or 4 an exit begins; during an entry it is recorded. After VDD_RET was lost the
wake begins a start (R385). -/
def wake (cause : Nat) (s : State) : State :=
  if !s.m.cur.wakes then s
  else if s.pw.entering ≠ 0 then { s with pw := { s.pw with wakeCause := cause, duringEntry := true, wakePend := true } }
  else if s.pw.ps < 3 ∨ s.pw.exiting then s
  else
    let s1 := { s with pw := { s.pw with wakeCause := cause, duringEntry := false } }
    if s1.pw.ps = 4 && s1.pw.retLost then enterReset s1
    else
      let s2 := if s1.pw.ps = 4 then aonWake s1 else s1
      { accrue s2 with pw := { (accrue s2).pw with exiting := true, beganUs := s2.tm.elapsed } }

/-- An access of R374 to an enabled function: its controller in state 3 or 4 returns to its last operational state, and the device wakes. -/
def touch (f : Nat) (s : State) : State :=
  if (fnOf f s).en then repower (wake 1 (if 3 ≤ (fnOf f s).feats.ps then setFnPs f (fnOf f s).feats.opPs s else s)) else s

/-! ## The power limit (R375 to R377) -/

/-- The limit of a device state, 0.1 W; state 3 works at the limit of state 2 (R384). -/
def psLimit (p : Nat) : Nat := if p = 0 then 750 else if p = 1 then 500 else 300
/-- P_lim, 0.1 W. -/
def pLim (s : State) : Nat :=
  let a := min (psLimit s.pw.ps) s.img.budget
  max 200 (if s.cad.token = 0xFF then a else min a (tokenCap s.cad.token s))
/-- A token cap sets P_lim (PWR_STAT.TOKEN_LIM). -/
def tokenLim (s : State) : Bool :=
  s.cad.token != 0xFF && decide (tokenCap s.cad.token s ≤ min (psLimit s.pw.ps) s.img.budget)

/-- The VDD_CORE target over AVSBus (R424): from PROOF_LOAD on, except in RETAIN, each 100 µs moves it by a free 0, 5 or 10 mV either way
within 0.62 … 0.78 V; a regulator that never answers is the run in which it never moves (DEDUCED, log 63). -/
def avsStep (s : State) : State :=
  if s.m.cur = .imageLoad then s
  else tick { s with pw := { s.pw with vcore := min 780 (max 620 (s.pw.vcore + 5 * (Config.freeNat s.free % 5) - 10)) } }

/-- POWER_LOOP_WINDOW (R376): the window's mean P_meas in 10 mW. -/
def execPowerLoopWindow (pMeas : Nat) (s : State) : Out :=
  if s.m.cur = .reset ∨ s.m.cur = .retain then .next s
  else
    let l := pLim s
    let p := s.pw
    let f :=
      if l < p.limSeen then max 8 (min p.f (if pMeas = 0 then p.f else 640 * l / pMeas))
      else if 10 * l < pMeas then max 8 (p.f - 4)
      else if pMeas < 9 * l then min 64 (p.f + 1)
      else p.f
    let low := f == 8 && decide (10 * l < pMeas)
    let s1 := { s with pw := { p with f := f, limSeen := l, pWin := min pMeas 65535, pPeak := max p.pPeak (min pMeas 65535), floor := low } }
    done (avsStep (if low && !p.floor then raise 0xB021 1 [h1 l, h1 pMeas] s1 else s1))

/-! ## Service life (R451) -/

/-- Terms of the exponential series in 2^-32. -/
def expTerms (x : Int) : Nat → Int → Int → Int
  | 0, _, acc => acc
  | n + 1, t, acc =>
    let t' := t * x / (2 ^ 32 * (17 - (n + 1)))
    expTerms x n t' (acc + t')

/-- exp of a fixed-point number, both in 2^-32; the precision of the weighting is the model's (DESIGN CHOICE, log 56). -/
def expFix (x : Int) : Nat :=
  let sq := fun (v : Int) => v * v / 2 ^ 32
  (sq (sq (sq (sq (expTerms (x / 16) 16 (2 ^ 32) (2 ^ 32)))))).toNat

/-- The acceleration factor at a junction temperature in 1/16 °C, in 2^-32. -/
def lifeAf (t : Int) : Nat :=
  let t100 := t * 100 / 16 + 27315
  expFix (812350 * 2 ^ 32 * (t100 - 36815) / (36815 * max 1 t100))

/-- LIFE_USED in 0.01 % of the rating. -/
def lifeUsed (l : Life) : Nat := min (l.lifeFine / 2 ^ 32 * 10000 / 262800) (2 ^ 32 - 1)

/-- Age the part by a time at a temperature. -/
def ageBy (dt : Nat) (tj : Option Int) (s : State) : State :=
  let l := s.ts.life
  let a := match tj with | some t => t | none => 0
  let hot := fun (d : Int) => if tj.isSome && decide (d * 16 < a) then dt else 0
  let l1 := { l with
    powerUs := l.powerUs + dt, lifeFine := l.lifeFine + (if tj.isSome then dt * lifeAf a / 3600000000 else 0),
    tjSum := l.tjSum + (if tj.isSome then a * dt else 0), tjTime := l.tjTime + (if tj.isSome then dt else 0),
    tjPeak := if tj.isSome then max l.tjPeak a else l.tjPeak, above100 := l.above100 + hot 100, above105 := l.above105 + hot 105, above110 := l.above110 + hot 110,
    updated := stampNow s }
  let s1 := { s with ts := { s.ts with life := l1 } }
  let cross := fun (n : Nat) (s : State) => if lifeUsed l < n ∧ n ≤ lifeUsed l1 then raise 0xC040 2 [h2 (lifeUsed l1)] s else s
  cross 10000 (cross 8000 s1)

/-- Highest junction temperature, 1/16 °C. -/
def tjMax16 (s : State) : Option Int := (s.pw.die.filterMap id).foldl (fun o t => match o with | none => some t | some x => some (max x t)) none

/-! ## Entry to states 3 and 4 (R378 to R382) -/

/-- A maintenance channel is in state 1 or 2. -/
def gdcBusy (s : State) : Bool := s.ga.gdc.any (fun c => c.2.state == 1 || c.2.state == 2)

/-- The conditions of R378 beside the chosen state. Asynchronous Event Requests wait by their nature and do not hold an entry (DEDUCED, log 14). -/
def entryReady (s : State) : Bool :=
  s.m.cur.isBase && s.q.ctxs.all (fun k => k.wait == .aer) && s.q.fns.all (fun p => p.2.sqs.all (fun q => q.2.head == q.2.tail))
    && useKiB s == 0 && s.fl.ops.isEmpty && !gdcBusy s && !s.pw.noNonop

/-- PWR_STAT.ENTRY_WAIT. -/
def entryWait (s : State) : Bool := decide (3 ≤ chosenPs s) && decide (s.pw.ps < chosenPs s) && s.pw.entering == 0 && !entryReady s

/-- NONOP_ENTRY_BEGIN (R378): the first sleep request is sent. -/
def execNonopEntryBegin (s : State) : Out :=
  let t := chosenPs s
  if 3 ≤ t ∧ s.pw.ps < t ∧ s.pw.entering = 0 ∧ !s.pw.exiting ∧ !s.pw.waitRound ∧ entryReady s then
    done { s with pw := { s.pw with entering := t, block := 1, beganUs := s.tm.elapsed, wakePend := false } }
  else .next s

/-- Whether the block being asked agrees: what the model holds decides for blocks 1 to 5, 7 and 10, the block itself for the rest
(Table 14.2). -/
def blockAgrees (b : Nat) (said : Bool) (s : State) : Bool :=
  match b with
  | 2 => !gdcBusy s
  | 3 => (match s.ecc.running with | some p => p.ctx.isNone | none => true)
  | 4 => !breaking s && s.zn.scrubs.isEmpty
  | 5 => useKiB s == 0 && !s.slk.window
  | 7 => said && s.fl.chs.all (fun c => !c.2.retraining)
  | 6 => said
  | 8 => said
  | 9 => said
  | _ => true

/-- Levels of GPIO0 … GPIO4 (Table 16.8): ACT_N, FAULT_N, READY, HOT_N, FLUSH_N. -/
def gpioLevels (s : State) : List Bool :=
  let tripped := match s.m.drain with | .thermalTrip _ _ => true | _ => false
  [!s.q.ctxs.any (fun k => k.wait != .fenced && k.wait != .posted), s.m.cur != .halted, s.m.cur.ready, s.m.thm == 0,
   !((s.m.cur == .emergencyFlush && !s.fl.parked) || tripped)]

/-- GPIO0 … GPIO4 as the balls show them (R421): high impedance until IMAGE_LOAD ends and where boundary scan has them, held in RETAIN. -/
def gpioBalls (s : State) : List (Option Bool) :=
  match s.m.cur with
  | .reset | .imageLoad | .test => List.replicate 5 none
  | .retain => s.pins.gpio.map some
  | _ => (gpioLevels s).map some

/-- Entry completes: the device state, its counters and times; in state 4 CUR becomes 0x8 and the GPIO outputs are held; a wake already
recorded begins the exit. -/
def entryDone (t : Nat) (s : State) : State :=
  let s1 := setPs t { s with pw := { s.pw with entering := 0, block := 0 } }
  let dt := s.tm.elapsed - s.pw.beganUs
  let p := s1.pw
  let s2 := { s1 with pw := { p with
    ent3 := if t = 3 then satAdd 32 p.ent3 1 else p.ent3, ent4 := if t = 4 then satAdd 32 p.ent4 1 else p.ent4,
    entryUs := min dt (2 ^ 32 - 1), entryYt := (s.tm.epoch * 1000 + s.tm.turn) * 1000 + s.tm.us, entryLocked := s.cad.lock, oscLost := false } }
  let s3 := if t = 4 then setMode .retain { s2 with pins := { s2.pins with gpio := gpioLevels s2 } } else s2
  if s3.pw.wakePend then { s3 with pw := { s3.pw with exiting := true, beganUs := s3.tm.elapsed } } else s3

/-- SLEEP_HANDSHAKE_REPLY (R379, R381): the block being asked answers. -/
def execSleepHandshakeReply (agree : Bool) (s : State) : Out :=
  let t := s.pw.entering
  let b := s.pw.block
  if t = 0 then .next s
  else if blockAgrees b agree s then
    let s1 := { s with pw := { s.pw with block := b + 1, stopFetch := true } }
    let s2 :=
      if b = 6 ∧ t = 4 then let c := checkpoint s1; { c with jn := { c.jn with closing := .retain, opened := false } }
      else if b = 7 ∧ t = 4 then { s1 with fl := { s1.fl with parked := true }, pins := { s1.pins with wpLow := true } }
      else s1
    done (if b = 10 then entryDone t s2 else s2)
  else
    let s1 := { s with
      pw := { s.pw with entering := 0, block := 0, stopFetch := false, wakePend := false, waitRound := true, refCnt := satAdd 16 s.pw.refCnt 1, refBlock := b },
      fl := { s.fl with parked := false }, pins := { s.pins with wpLow := false } }
    done (raise 0xB010 1 [h1 b, h1 t] s1)

/-- The count after RETAIN (R354): kept if CAD_CK kept it and the header agrees, else the header's, else alone. -/
def reconcile (hdr : Option (Nat × Nat)) (s : State) : State :=
  match hdr with
  | some h =>
    if s.pw.entryLocked && !s.pw.oscLost && h.1 == s.tm.epoch && h.2 == s.tm.turn then s
    else alignCount h.1 h.2 s
  | none => { dropLock s with cad := { (dropLock s).cad with stage := s.cad.stage } }

/-- NONOP_EXIT_END (R383, R386, R354, R380, R451): fetching resumes; from state 4 the LUNs are unparked, the resume record written, the count
reconciled, and CUR takes the base mode. -/
def execNonopExitEnd (hdr : Option (Nat × Nat)) (s : State) : Out :=
  if s.pw.exiting && s.m.cur.wakes then
    let from4 := s.pw.ps == 4
    let s0 := if from4 then reconcile hdr s else s
    let us := (s0.tm.epoch * 1000 + s0.tm.turn) * 1000 + s0.tm.us
    let adv := if s0.pw.entryYt ≤ us then us - s0.pw.entryYt else s.tm.elapsed - s.m.since
    let aged := ageBy (s0.tm.elapsed - s0.pw.roundAt) (tjMax16 s0) s0
    let s1 := accrue (if from4 then { aged with pw := { aged.pw with roundAt := s0.tm.elapsed } } else s0)
    let s2 := if from4 then { s1 with
        pw := { s1.pw with res := setNth s1.pw.res 4 (satAdd 64 (nth s1.pw.res 4 0) adv),
                           resEst := if s0.pw.entryLocked && !s0.pw.oscLost then s1.pw.resEst else satAdd 64 s1.pw.resEst adv },
        fl := { s1.fl with parked := false }, pins := { s1.pins with wpLow := false },
        jn := { s1.jn with opened := true, closing := .none } } else s1
    let n := min 2 (chosenPs s2)
    let s3 := raise 0xB001 0 [h1 s.pw.ps, h1 n] { s2 with pw := { s2.pw with ps := n, stopFetch := false, wakePend := false, exitUs := min (s.tm.elapsed - s.pw.beganUs) (2 ^ 32 - 1) } }
    let s4 := if from4 then setMode (baseMode s3) s3 else s3
    done { s4 with pw := { s4.pw with exiting := false } }
  else .next s

/-- VDD_RET_LOST (R385): latched in RETAIN; the next wake begins a start. -/
def execVddRetLost (s : State) : Out :=
  if s.m.cur = .retain then .next { s with pw := { s.pw with retLost := true } } else .next s

/-- OSCILLATOR_32K_STOPPED (R354): what counts RETAIN time without CAD_CK has stopped; the count is no longer kept throughout. -/
def execOscillator32kStopped (s : State) : Out :=
  if s.m.cur = .retain then .next { s with pw := { s.pw with oscLost := true } } else .next s

/-! ## The Service Life page (R452) -/

/-- Dies in service. -/
def liveDies (s : State) : List Nat := (s.fl.luns.map (·.1)).filter (fun d => dieUsable d s)
/-- Available Spare, percent. -/
def availSpare (s : State) : Nat :=
  let t := spareTarget s.fl.geom
  if t = 0 then 100 else minL 100 ((liveDies s).map (fun d => 100 * dieSpares d s / t))
/-- Percentage Used. -/
def pctUsed (s : State) : Nat :=
  let t := (liveDies s).map (fun d => dieWearSum d s)
  let n := sumN (t.map (·.2))
  if n = 0 ∨ s.ts.life.rated = 0 then 0 else min 255 (100 * (sumN (t.map (·.1)) / n) / s.ts.life.rated)

/-- The Service Life page (Table 17.6). -/
def lifePage (s : State) : List Byte :=
  let l := s.ts.life
  let m := fun (us : Nat) => leBytes 4 (min (us / 60000000) (2 ^ 32 - 1))
  leBytes 8 (min (l.powerUs / 1000000) (2 ^ 64 - 1)) ++ leBytes 4 (lifeUsed l) ++ leBytes 2 (toBits 16 (if l.tjTime = 0 then 0 else l.tjSum / l.tjTime)) ++ leBytes 2 (toBits 16 l.tjPeak)
    ++ m l.above100 ++ m l.above105 ++ m l.above110 ++ leBytes 4 l.cycles ++ leBytes 4 l.trips ++ leBytes 4 l.halts ++ leBytes 4 l.rated
    ++ leBytes 2 (pctUsed s) ++ leBytes 2 (availSpare s) ++ leBytes 8 l.updated ++ zeroBytes 8

/-- The Service Life page, to the physical functions (R452). -/
def lifeLogOn (k : Ctx) (s : State) : State := if isPf k.cmd.fn then logReply (lifePage s) k s else fin k 0 0x02 s

/-- SERVICE_LIFE_LOG. -/
def execServiceLifeLog (c : Cmd) (s : State) : Out := done (withCmd c s (fun k s => gateAdmin true true k s lifeLogOn))

/-! ## Housekeeping (R387 to R390, R394) -/

/-- Whole degrees of a 1/16 °C reading, rounded down. -/
def degOf (t : Int) : Int := t / 16
/-- The highest reading of a channel's targets that can be read. -/
def chHigh (c : Nat) (s : State) : Option Int :=
  (s.pw.flash.filter (fun p => p.1 / 16 == c && decide (p.2.2 < 3))).foldl (fun o p => match o, p.2.1 with
    | some a, some b => some (max a b) | none, b => b | a, none => a) none
/-- A target's reading: one not read on three successive visits takes its channel's highest (R387). -/
def tgtReading (p : Nat × Option Int × Nat) (s : State) : Option Int :=
  if 3 ≤ p.2.2 then (match chHigh (p.1 / 16) s with | some t => some t | none => p.2.1) else p.2.1
/-- Latest readings of the targets in service: channel, volume, degrees. -/
def flashReadings (s : State) : List (Nat × Nat × Int) :=
  s.pw.flash.filterMap (fun p => if (chnOf (p.1 / 16) s).state = 2 then (tgtReading p s).map (fun t => (p.1 / 16, p.1 % 16, t)) else none)
/-- The target of T_f,max: the lowest channel and volume that share it. -/
def tfMax (s : State) : Option (Nat × Nat × Int) :=
  (flashReadings s).foldl (fun o r => match o with | none => some r | some x => if x.2.2 < r.2.2 then some r else some x) none
/-- T_f,min. -/
def tfMin (s : State) : Option Int := (flashReadings s).foldl (fun o r => match o with | none => some r.2.2 | some x => some (min x r.2.2)) none

/-- Take the target readings; the third visit running without one is recorded, 0xB061. -/
def takeFlash (l : List (Nat × Nat × Option Int)) (s : State) : State :=
  l.foldl (fun s e =>
    let key := e.1 * 16 + e.2.1
    let old := Tbl.getD s.pw.flash key (none, 0)
    let new : Option Int × Nat := match e.2.2 with | some t => (some t, 0) | none => (old.1, min 3 (old.2 + 1))
    let s1 := { s with pw := { s.pw with flash := Tbl.put s.pw.flash key new } }
    if old.2 = 2 ∧ new.2 = 3 then raise 0xB061 1 [h1 e.1, h1 e.2.1] s1 else s1) s

/-- Nominal rail voltages, mV (Table 14.6). -/
def railNominal (k : Nat) (s : State) : Nat := nth [s.pw.vcore, 750, 550, 800, 1200, 800] k 0
/-- Take the rails: outside ±5 % in two rounds running, 0xB040. -/
def takeRails (l : List (Nat × Nat)) (s : State) : State :=
  ((l.take 6).zipIdx).foldl (fun s e =>
    let n := railNominal e.2 s
    let out := decide (20 * e.1.1 < 19 * n) || decide (21 * n < 20 * e.1.1)
    let was := (nth s.pw.rails e.2 (0, 0, false)).2.2
    let s1 := { s with pw := { s.pw with rails := setNth s.pw.rails e.2 (e.1.1, e.1.2, out) } }
    if out && was then raise 0xB040 2 [h1 e.2, h1 e.1.1] s1 else s1) s

/-- Take the thermistors: one that newly reads open or short is recorded, 0xB041. -/
def takeTherm (l : List Therm) (s : State) : State :=
  ((l.take 8).zipIdx).foldl (fun s e =>
    let old := nth s.pw.therm e.2 (0, false, false)
    let v : Int × Bool × Bool := match e.1 with | .val t => (t, false, false) | .openIn => (0, true, false) | .shortIn => (0, false, true)
    let s1 := { s with pw := { s.pw with therm := setNth s.pw.therm e.2 v } }
    if (v.2.1 && !old.2.1) || (v.2.2 && !old.2.2) then raise 0xB041 1 [h1 e.2] s1 else s1) s

/-- The thermal reduction (R389). -/
def throttleStep (s : State) : State :=
  let dj : Int := match tjMax16 s with | some t => degOf t - s.img.tjThrottle | none => 0
  let df : Int := match tfMax s with | some r => r.2.2 - s.img.tfThrottle | none => 0
  let d := max 0 (max dj df)
  let r := min 80 (4 * d.toNat)
  let src := if r = 0 then s.pw.src else decide (dj < df)
  let s1 := { s with pw := { s.pw with r := r, src := src, t := 64 * (100 - r) / 100 } }
  if (s.pw.r = 0) ≠ (r = 0) then raise 0xB020 1 [h2 r, h1 (b2n src)] s1 else s1

/-- A Flush that waits while THM becomes 0b10 ends with 7h/0x82 (R236). -/
def endHotFlushes (s : State) : State :=
  s.q.ctxs.foldl (fun s k => if k.wait == .flush then fin k 7 0x82 s else s) s

/-- THM from the flash temperatures (R390). -/
def thmStep (s : State) : State :=
  match tfMax s, tfMin s with
  | some hi, some lo =>
    let i := s.img
    let h := hi.2.2
    let hotS := decide (i.slcHi < h ∨ lo < i.slcLo)
    let hotQ := decide (i.qlcHi < h ∨ lo < i.qlcLo)
    let okS := decide (h ≤ i.slcHi - 2 ∧ i.slcLo + 2 ≤ lo)
    let okQ := decide (h ≤ i.qlcHi - 2 ∧ i.qlcLo + 2 ≤ lo)
    let n := if hotS || (s.m.thm == 2 && !okS) then 2 else if hotQ || (s.m.thm != 0 && !okQ) then 1 else 0
    let s1 := if n = s.m.thm then s else raise 0xB030 (if n = 2 then 2 else 1) [h1 s.m.thm, h1 n, hT h, hT lo] { s with m := { s.m with thm := n } }
    -- QLC programs that wait to start wait no longer once the Paddock alone may take them (R93)
    let s1 := if n = 1 ∧ s.m.thm ≠ 1 then divertDirect s1 else s1
    let s2 := reBase (if n = 2 then endHotFlushes s1 else s1)
    if n = 0 then setWarn 1 false s2 else s2
  | _, _ => s

/-- A sensor of R394 in kelvin: 0 composite, 1 … 5 diodes, 6 thermistor 0, 7 and 8 T_f,max and T_f,min; 0 when absent. -/
def sensorK (n : Nat) (s : State) : Nat :=
  let k := fun (t : Int) => (t + 273).toNat
  if n = 0 ∨ n = 7 then (match tfMax s with | some r => k r.2.2 | none => 0)
  else if n = 8 then (match tfMin s with | some t => k t | none => 0)
  else if n ≤ 5 then (match nth s.pw.die (n - 1) none with | some t => k (degOf t) | none => 0)
  else match nth s.pw.therm 0 (0, false, false) with | (t, false, false) => k (degOf t) | _ => 0
/-- A function's threshold: key 2·sensor over, 2·sensor + 1 under. -/
def tmpThr (f key : Nat) (s : State) : Nat :=
  match Tbl.get? (fnOf f s).feats.tmpth key with
  | some v => v
  | none => if key = 0 then (s.img.qlcHi + 273).toNat else if key % 2 = 0 then 0xFFFF else 0
/-- Conditions of a function's thresholds that stand, as a bit map over the keys. -/
def tmpConds (f : Nat) (s : State) : Nat :=
  sumN ((List.range 9).map (fun n =>
    let v := sensorK n s
    if v = 0 then 0 else (if tmpThr f (2 * n) s ≤ v then 2 ^ (2 * n) else 0) + (if v ≤ tmpThr f (2 * n + 1) s then 2 ^ (2 * n + 1) else 0)))
/-- Report thresholds newly crossed: an asynchronous event of the temperature kind where bit 1 is enabled. -/
def tmpReport (s : State) : State :=
  (allFns s).foldl (fun s f =>
    if !(fnOf f s).en then s
    else
      let c := tmpConds f s
      let new := (List.range 18).any (fun b => bit c b && !bit (fnOf f s).tmpState b)
      let s1 := if c = (fnOf f s).tmpState then s else updFn f (fun x => { x with tmpState := c }) s
      if new && bit (fnOf f s).feats.aec 1 then aenFn f 1 1 2 s1 else s1) s

/-- A sagging bank lowers Slack between proof-loads, never raises it (R80). -/
def sagStep (hold : Nat) (s : State) : State :=
  let k := s.slk
  let s1 := { s with slk := { k with holdMv := hold, back := if k.phase == .recharge then hold else k.back } }
  if s.m.wt || !decide (100 * hold < 98 * k.v0) || k.phase != .idle then s1
  else
    let e2 := energy2 k.capUf hold s.img.vcut
    let t := min k.totalMiB (slackMiB e2 s.img.derate k.efixUj k.ebyte)
    let s2 := { s1 with slk := { s1.slk with totalMiB := t, euseMj := min (e2 / 2000000000) 65535 } }
    if t < k.totalMiB then noteOver (scaleQuotas s2) else s2

/-- Board temperature, and the temperature trigger of R77. -/
def boardStep (s : State) : State :=
  let t := match nth s.pw.therm 0 (0, false, false) with
    | (v, false, false) => some (degOf v)
    | _ => (nth s.pw.die 0 none).map degOf
  match t with
  | none => s
  | some t =>
    let s1 := { s with pw := { s.pw with boardTemp := t } }
    if s.slk.proofCnt ≠ 0 ∧ (15 ≤ t - s.slk.proofTemp ∨ 15 ≤ s.slk.proofTemp - t) then proofTrigger true s1 else s1

/-- HOUSEKEEPING_ROUND (R387): the round's readings, then throttling, THM, life, warnings; a journal copy's rewrite that waited for THM (R66). -/
def execHousekeepingRound (r : HkRound) (s : State) : Out :=
  if [Mode.reset, .imageLoad, .test, .retain].contains s.m.cur || s.pw.ps == 4 then .next s
  else
    let dt := s.tm.elapsed - s.pw.roundAt
    let k0 := sensorK 0 s
    let wc := if (s.img.qlcHi + 273).toNat < k0 then dt else 0
    let cc := if (s.img.slcHi + 273).toNat < k0 then dt else 0
    let die := (List.range 5).map (fun i => if i ≤ s.part.sheds then nth r.die i none else none)
    let s1 := { accrue s with pw := { (accrue s).pw with
      round := wrapAdd 32 s.pw.round 1, die := die, waitRound := false, roundAt := s.tm.elapsed, wcUs := s.pw.wcUs + wc, ccUs := s.pw.ccUs + cc } }
    let s2 := sagStep r.hold (takeFlash r.flash (takeRails r.rails (takeTherm r.therm s1)))
    let s3 := thmStep (throttleStep (boardStep s2))
    let s4 := { s3 with pw := { s3.pw with thmQlc := if s3.m.thm = 1 then satAdd 32 s3.pw.thmQlc 1 else s3.pw.thmQlc,
                                           thmAll := if s3.m.thm = 2 then satAdd 32 s3.pw.thmAll 1 else s3.pw.thmAll } }
    let s5 := ageBy dt (tjMax16 s4) s4
    let s6 := if s5.fl.geom.ok then setWarn 0 (decide (availSpare s5 < 10)) s5 else s5
    doneIo (tmpReport (if s6.m.cur.isBase || s6.m.cur == .sanitize || s6.m.cur == .fwActivate || s6.m.cur == .proofLoad then rebuildCopy s6 else s6))

end Sys2Proof.Machine
end

