-- ==== Sys2Proof/Machine/Cipher.lean ====
section
/-! DEFINITION. Key pages, Seal Zone and check-value units as software drives them (R292 to R295, R305, R307 to R309). -/

namespace Sys2Proof.Machine
open Sys2Proof

/-! ## Key slots (R293, R294) -/

/-- Commit the 32 collected bytes of a slot: an all-zero key clears it (0x8002 if it held one), any other is loaded (0x8001). -/
def commitKey (f slot : Nat) (key : List Byte) (s : State) : State :=
  let i := f * 8 + slot
  if key = zeroBytes 32 then
    let s1 := { s with ci := { s.ci with keys := Tbl.del s.ci.keys i } }
    if (keyAt? f slot s).isSome then raise 0x8002 0 [h1 f, h1 slot] s1 else s1
  else raise 0x8001 0 [h1 f, h1 slot, h2 (kcvOf key)] { s with ci := { s.ci with keys := Tbl.put s.ci.keys i key } }

/-- A write to a function's key page at an offset: bytes collect by slot, and one that covers +0x1F commits (R293). A slot at or
above the count ignores it (R292); so does a narrower or unaligned write (R17). -/
def keyWrite (f off : Nat) (bytes : List Byte) (s : State) : State :=
  let slot := off / 32
  let o := off % 32
  let i := f * 8 + slot
  if !fnPresent f s || decide (keySlots f s ≤ slot) || !(bytes.length == 4 || bytes.length == 8) || off % bytes.length != 0 then s
  else
    let buf := (bytes.zipIdx).foldl (fun t b => Tbl.put t (o + b.2) b.1) (Tbl.getD s.ci.kbuf i [])
    if o + bytes.length = 32 then
      commitKey f slot ((List.range 32).map (fun j => Tbl.getD buf j 0)) { s with ci := { s.ci with kbuf := Tbl.del s.ci.kbuf i } }
    else { s with ci := { s.ci with kbuf := Tbl.put s.ci.kbuf i buf } }

/-- Sealed zones bound to a slot of a function, Empty ones aside: KEY_SLOT_s.BOUND (Table 11.2). -/
def slotBound (f slot : Nat) (s : State) : Nat := (s.ci.bind.filter (fun b => b.2.fn == f && b.2.slot == slot)).length

/-! ## Seal Zone (R305) -/

/-- UNITS of a zone: its accepted bytes in units of 64 KiB. -/
def sealUnitsOf (q : Zone) : Nat := ceilDiv q.wp 32

/-- The seal record of Table 11.6, its ZONE_TAG still zero. -/
def sealRecord (z : Nat) (q : Zone) (s : State) : List Byte :=
  let b := Tbl.getD s.ci.bind z ⟨0, 0, 0, none⟩
  leBytes 4 z ++ leBytes 4 (q.gen % 2 ^ 32) ++ leBytes 4 (sealUnitsOf q) ++ leBytes 4 (fld 0 24 b.kcv + fld 24 3 b.slot) ++
    leBytes 8 q.wpLba ++ leBytes 8 (b.stamp.getD 0) ++ zeroBytes 16 ++ leBytes 2 (q.gen / 2 ^ 32) ++ zeroBytes 14

/-- Seal Zone's checks and its point: the zone is finished and SEALED; the command waits until it is durable. -/
def sealOn (k : Ctx) (s : State) : State :=
  let c := k.cmd
  if !k.snap.write || !k.snap.sealP then denyPerm k s
  else withNs k s (fun n =>
    if n.conv then fin k 0 0x01 s
    else if c.cdw12.toNat + c.cdw13.toNat + c.cdw14.toNat + c.cdw15.toNat ≠ 0 then fin k 0 0x02 s
    else if n.nsze ≤ slbaOf c ∨ slbaOf c % 2 ^ 20 ≠ 0 then fin k 0 0x02 s
    else match zoneOfLba n (slbaOf c) with
      | none => fin k 0 0x02 s
      | some (z, _) => match zoneAt? z s with
        | none => fin k 0 0x02 s
        | some q =>
          if !q.sealF then fin k 0 0x02 s
          else if q.st = .empty ∨ q.st = .offline then fin k 1 0xBF s
          else if sealDenied z q s then refuseSeal k z s
          else if s.m.thm = 2 ∧ !q.sealed then fin k 7 0x82 s
          else
            let s1 := if q.st.active then sealAfter z (makeFull z s) else s
            let s2 := updZone z (fun q => { q with sealed := true })
              { s1 with ci := { s1.ci with bind := Tbl.upd s1.ci.bind z (fun b =>
                  { b with stamp := some (b.stamp.getD (stampNow s)) }) } }
            match zoneAt? z s2 with
            | none => s2
            | some q2 => putCtx { k with wait := .sealZ z, dispatched := true, data := sealRecord z q2 s2,
                                         dw0 := sealUnitsOf q2 + 2 ^ 32 * b2n (!q.sealed), sealF := if q.st.active then 6 else 1 } s2)

/-- SEAL_ZONE. -/
def execSealZone (c : Cmd) (s : State) : Out := doneIo (withCmd c s (fun k s => gateIo k s sealOn))

/-! ## Check-value units (R307 to R309) -/

/-- The unit a function's BAR2 reaches: the Owner PF the device-wide ones, a stall its own assigned ones (Table 11.8). -/
def cvuOf? (fn unit : Nat) (s : State) : Option Nat :=
  if fn = 0 then (if unit < 16 then some unit else none)
  else if isStall fn && fnPresent fn s && decide (unit < min 2 (resOf fn s).cvus) then some (16 + 2 * fn + unit) else none

/-- PEND: captured commands not yet completed. -/
def cvuPend (u : Nat) (s : State) : Nat :=
  (s.q.ctxs.filter (fun k => k.wait != .posted && k.wait != .fenced && k.cvus.any (fun e => e / 8 == u))).length

/-- A write of CVU_CTL. POLY applies only with INIT, or while SRC = 0 and PEND = 0; INIT clears VAL, CNT, SKIP and DONE, and lets
ONE capture anew. -/
def cvuCtl (u v : Nat) (s : State) : State :=
  let ini := bit v 5
  let polyOk := ini || (cvuSrc u s == 0 && cvuPend u s == 0)
  updCvu u (fun c =>
    let c := { c with src := bits v 2 0, poly := if polyOk then bits v 4 3 else c.poly, one := bit v 6, sqid := bits v 31 16 }
    if ini then { c with val := 0, cnt := 0, skip := 0, done := false, took := false } else c) s

/-- Bytes written to CVU_FEED are folded in while SRC = 0x5; other writes are ignored. -/
def cvuFeed (u : Nat) (bytes : List Byte) (s : State) : State :=
  if cvuSrc u s = 5 ∧ (bytes.length = 4 ∨ bytes.length = 8) then
    updCvu u (fun c => { c with val := crcOn c.poly c.val bytes, cnt := satAdd 64 c.cnt bytes.length }) s
  else s

/-- A write of CVU_VAL: bits above the model's width are ignored. -/
def cvuVal (u v : Nat) (s : State) : State := updCvu u (fun c => { c with val := v % 2 ^ crcWidth c.poly }) s

end Sys2Proof.Machine
end

