-- ==== Sys2Proof/Machine/Gather.lean ====
section
/-! DEFINITION. The Gather DMA engine: Gather Read and the maintenance channels (R252 to R272). -/

namespace Sys2Proof.Machine
open Sys2Proof

/-! ## Host memory reads -/

/-- A read of host memory: the first answer listed at the address, which is used up; none is a host memory error. -/
def hostRead (a n : Nat) : HostMem → Option (List Byte × HostMem)
  | [] => none
  | x :: t => if x.1 = a then (if x.2.length < n then none else some (x.2.take n, t)) else (hostRead a n t).map (fun r => (r.1, x :: r.2))

/-- An index table entry (Table 9.2). -/
def parseEnt (l : List Byte) : GEnt :=
  let w := numAt l 12 4
  ⟨numAt l 0 8, numAt l 8 4, bits w 20 0, bit w 29, bit w 30⟩
/-- The entries of a table. -/
def parseEnts (n : Nat) (l : List Byte) : List GEnt := (List.range n).map (fun i => parseEnt (sliceB l (16 * i) 16))
/-- The total of LEN. -/
def entTotal (es : List GEnt) : Nat := sumN (es.map (·.len))

/-! ## Entry checks (Table 9.3) -/

/-- First and last logical block of an uncompressed element. -/
def entBlocks (e : GEnt) : Nat × Nat := ((e.slba * 4096 + e.off) / 4096, (e.slba * 4096 + e.off + e.len - 1) / 4096)

/-- The zones an element touches. -/
def entZones (n : Ns) (e : GEnt) : List Nat :=
  if e.zero ∨ e.len = 0 then []
  else if e.hh then (if n.conv then [] else (n.zones[e.slba / 2 ^ 21]?).toList)
  else let b := entBlocks e; zonesOf n b.1 (b.2 + 1 - b.1)

/-- The block of the Tack Room that a position resolves into: its channel and number (R193). -/
def tackAt (o pos : Nat) (s : State) : Option (Nat × Nat) :=
  match pieceAt o pos s with
  | some (_, p) => match penOf? p.pen s with
    | some pn =>
      let m := nth pn.mem (slotLoc pn p.slot s.fl.geom).1 (0, 8191, true)
      if (bkOf m.1 m.2.1 s).role.inTack then some (dieCh m.1, m.2.1) else none
    | none => none
  | none => none

/-- The stored blocks an element reads. -/
def entPlaces (n : Ns) (e : GEnt) : List (Nat × Nat) :=
  if e.hh then (entZones n e).map (fun z => (z, e.slba % 2 ^ 21))
  else let b := entBlocks e; (List.range (b.2 + 1 - b.1)).map (fun i => blockAt n (b.1 + i))

/-- The first block of the Tack Room an element resolves into. -/
def entTack (n : Ns) (e : GEnt) (s : State) : Option (Nat × Nat) := (entPlaces n e).findSome? (fun p => tackAt p.1 p.2 s)

/-- The first failing check of an entry: its cause of Table 9.5, 5 for the Tack Room. -/
def entFault (n : Ns) (e : GEnt) (s : State) : Option Nat :=
  if e.len = 0 then none
  else if 1048576 < e.len then some 1
  else if e.zero then none
  else if (if e.hh then decide (n.nsze ≤ e.slba / 2) else decide (n.nsze * 4096 < e.slba * 4096 + e.off + e.len)) then some 2
  else if e.hh && (n.conv || decide (4096 < e.off + e.len)) then some 7
  else if (entZones n e).any (fun z => match zoneAt? z s with | some q => q.comp != e.hh | none => false) then some 7
  else if (entTack n e s).isSome then some 5 else none

/-- The lowest failing entry and its cause. -/
def entsFault (n : Ns) (es : List GEnt) (s : State) : Option (Nat × Nat) :=
  (es.zipIdx).findSome? (fun e => (entFault n e.1 s).map (fun c => (e.2, c)))

/-- The access an entry of cause 5 asked for is refused with its record and count (R193, Table 6.11's last row). -/
def noteTack (n : Ns) (es : List GEnt) (e : Nat × Nat) (s : State) : State :=
  if e.2 ≠ 5 then s
  else match es[e.1]?.bind (fun x => entTack n x s) with
    | some b => tackRefused 3 b.1 b.2 s
    | none => s

/-! ## The elements' blocks (R259) -/

/-- A block of an element, as a part to be read; what lies in an Offline zone fails at once (R260). -/
def entParts (n : Ns) (e : GEnt) (s : State) : List RPart :=
  if e.zero ∨ e.len = 0 then []
  else
    let one := fun (o pos kind : Nat) => (⟨o, pos, kind, none, if offlineIn [o] s then 0x1BB else 0, []⟩ : RPart)
    if e.hh then (entZones n e).map (fun z => one z (e.slba % 2 ^ 21) 5)
    else let b := entBlocks e; (List.range (b.2 + 1 - b.1)).map (fun i => let p := blockAt n (b.1 + i); one p.1 p.2 0)

/-- The parts of a transfer and, by entry, the indices of its parts: a block that consecutive elements touch is read once. -/
def gatherPlan (n : Ns) (es : List GEnt) (s : State) : List RPart × List (List Nat) :=
  es.foldl (fun (a : List RPart × List (List Nat)) e =>
    let r := (entParts n e s).foldl (fun (b : List RPart × List Nat) p =>
      match b.1.getLast? with
      | some x => if x.owner = p.owner ∧ x.pos = p.pos then (b.1, b.2 ++ [b.1.length - 1]) else (b.1 ++ [p], b.2 ++ [b.1.length])
      | none => ([p], [0])) (a.1, [])
    (r.1, a.2 ++ [r.2])) ([], [])

/-- The reader of a transfer: the parts of its elements, then those of sealed units they touch in part. -/
def gatherRd (n : Ns) (fua : Bool) (es : List GEnt) (s : State) : Rd :=
  let ps := (gatherPlan n es s).1
  ⟨0, ps.length, fua, ps ++ sealParts ps s, 0, 0⟩

/-- What became of a part: its 4,096 bytes, its status, its decode error, whether its stored guard fails (R260, R281, R311). -/
def partOutcome (n : Ns) (bad : List ((Nat × Nat) × Nat)) (free : Nat) (p : RPart) : List Byte × Nat × Option Nat × Bool :=
  let h := hhBlock p free
  let mis := bad.any (fun c => c.1.1 == p.owner && (c.1.2 == p.pos / 32 || (p.kind == 2 && c.1.2 == (p.pos + 1) / 32)))
  let guard := p.kind == 0 && !p.got.isEmpty && (match p.blk with | some b => piGuardBad n b | none => false)
  let st := if p.st ≠ 0 ∧ p.st ≠ 0x784 then p.st else if guard then stUnrec else if mis then 0x781 else h.2.1
  (h.1, st, h.2.2, guard)

/-- The LBA a part's record names. -/
def partLba (n : Ns) (p : RPart) (s : State) : Nat :=
  if n.conv then p.pos / 2 else (match zoneAt? p.owner s with | some q => q.zslba | none => 0) + p.pos / 2

/-- The elements of a transfer as delivered: bytes and status of each, with the records their blocks give; and the seal checks. -/
def gatherOutcome (f nsid : Nat) (n : Ns) (es : List GEnt) (rd : Rd) (s : State) :
    List (List Byte × Nat) × List ((Nat × Nat) × Nat) × State :=
  let plan := gatherPlan n es s
  let ps := rd.parts.take plan.1.length
  let cs := sealCodes ps s
  let os := ps.map (partOutcome n (cs.filter (·.2 == 4)) s.free)
  let s1 := (ps.zip os).foldl (fun s e =>
    let s1 := if e.2.2.2.2 then guardLost e.1 (piRecord f (partLba n e.1 s) 0 s) else s
    match e.2.2.2.1 with
    | some c => raise 0x5060 1 [h1 nsid, h4 (2 * partLba n e.1 s + e.1.pos % 2), h1 c] s1
    | none => s1) s
  let s2 := tick (sealFailures f cs s1)
  let one := fun (x : GEnt × List Nat) =>
    let e := x.1
    if e.zero ∨ e.len = 0 then (zeroBytes e.len, 0)
    else
      let bs := x.2.map (fun i => nth os i ([], 0, none, false))
      let st := ((bs.map (fun b => b.2.1)).find? (· != 0)).getD 0
      let o := if e.hh then e.off else (e.slba * 4096 + e.off) % 4096
      (if st ≠ 0 ∧ st ≠ 0x781 then freeBytes e.len s.free else sliceB (bs.flatMap (·.1)) o e.len, st)
  ((es.zip plan.2).map one, cs, s2)

/-! ## Channels and beat lanes (R253, R254) -/

/-- The effective level of an engine channel. -/
def effLevel (ch : Nat) (s : State) : Nat :=
  if ch < 48 then match Tbl.get? s.ga.chs ch with | some c => min 3 (c.level + b2n c.aged) | none => 0
  else let g := gdcAt (ch - 48) s; min 3 (g.prio + b2n g.aged)

/-- A maintenance channel shows state 2 while it has been pre-empted, 1 when it is granted again. -/
def laneState (ch st : Nat) (s : State) : State :=
  if ch < 48 then s else updGdc (ch - 48) (fun g => if g.state = 1 ∨ g.state = 2 then { g with state := st } else g) s

/-- A channel asks for a lane: a free one, else that of the lowest-level burst below it, else it waits (R254). -/
def requestLane (ch : Nat) (s : State) : State :=
  let e := effLevel ch s
  let put := fun (l : List (Nat × Nat)) (w : List Nat) => { s with ga := { s.ga with lanes := l ++ [(ch, e)], laneWait := w.filter (· != ch) } }
  if s.ga.lanes.length < 4 then put s.ga.lanes s.ga.laneWait
  else
    match (s.ga.lanes.filter (fun l => decide (l.2 < e))).foldl
        (fun (o : Option (Nat × Nat)) l => match o with | none => some l | some m => if l.2 < m.2 then some l else some m) none with
    | some v => laneState v.1 2 (put (s.ga.lanes.filter (· != v)) (s.ga.laneWait ++ [v.1]))
    | none => if s.ga.laneWait.contains ch then s else { s with ga := { s.ga with laneWait := s.ga.laneWait ++ [ch] } }

/-- A channel's burst has ended or it stops asking: its ageing ends, and the waiting channel of the highest level takes the lane. -/
def releaseLane (ch : Nat) (s : State) : State :=
  let s1 := { s with ga := { s.ga with lanes := s.ga.lanes.filter (fun l => l.1 != ch), laneWait := s.ga.laneWait.filter (· != ch),
                                       chs := Tbl.upd s.ga.chs ch (fun c => { c with aged := false }) } }
  let s2 := if ch < 48 then s1 else updGdc (ch - 48) (fun g => { g with aged := false }) s1
  if 4 ≤ s2.ga.lanes.length then s2
  else match s2.ga.laneWait.foldl (fun (o : Option Nat) w =>
      match o with | none => some w | some m => if effLevel m s2 < effLevel w s2 then some w else some m) none with
    | some w => laneState w 1 { s2 with ga := { s2.ga with lanes := s2.ga.lanes ++ [(w, effLevel w s2)], laneWait := s2.ga.laneWait.filter (· != w) } }
    | none => s2

/-- BEAT_LANE_AGEING (R254): a requesting channel has been granted no beat for 100 µs. -/
def execBeatLaneAgeing (ch : Nat) (s : State) : Out :=
  if s.ga.laneWait.contains ch then
    let s1 := { s with ga := { s.ga with chs := Tbl.upd s.ga.chs ch (fun c => { c with aged := true }) } }
    done (requestLane ch (if ch < 48 then s1 else updGdc (ch - 48) (fun g => { g with aged := true }) s1))
  else .next s

/-! ## Gather Read (R255 to R262) -/

/-- ITAB, NENT plus one, DLEN of a Gather Read (Table 9.1). -/
def itabOf (c : Cmd) : Nat := slbaOf c
/-- The level a Gather Read runs at (R253). -/
def gatherLevel (c : Cmd) : Nat := let p := bits c.cdw12.toNat 17 16; if isStall c.fn then min 2 p else p

/-- Gather Read's own fields, then the wait for a channel. `sgl`: the bytes its SGL describes. -/
def gatherOn (sgl : Option Nat) (k : Ctx) (s : State) : State :=
  if !k.snap.gather then denyPerm k s
  else withNs k s (fun _ =>
    if itabOf k.cmd % 16 ≠ 0 ∨ bits k.cmd.cdw12.toNat 29 18 ≠ 0 ∨ bit k.cmd.cdw12.toNat 31 then fin k 0 0x02 s
    else if sgl.any (fun n => decide (n < k.cmd.cdw13.toNat)) then fin k 0 0x0F s
    else putCtx { k with wait := .gatherWait } s)

/-- GATHER_READ. -/
def execGatherRead (c : GatherCmd) (s : State) : Out := doneIo (withCmd c.cmd s (fun k s => gateIo k s (gatherOn c.sgl)))

/-- Channels a function's Gather Reads hold. -/
def chansHeld (f : Nat) (s : State) : Nat :=
  (s.ga.chs.filter (fun c => match ctxAt c.2.seq s with | some k => k.cmd.fn == f | none => false)).length

/-- The function of a waiting command may take a channel: its GCH_MAX, and 12 while another function's Gather Read waits (R257). -/
def chanCap (k : Ctx) (s : State) : Bool :=
  let others := s.q.ctxs.any (fun x => x.wait == .gatherWait && x.cmd.fn != k.cmd.fn)
  decide (chansHeld k.cmd.fn s < k.snap.gchMax) && (!others || decide (chansHeld k.cmd.fn s < 12))

/-- The lowest free Gather Read channel. -/
def freeChan (s : State) : Option Nat := (List.range 48).find? (fun c => (Tbl.get? s.ga.chs c).isNone)

/-- Free a Gather Read's channel. -/
def dropChan (ch : Nat) (s : State) : State :=
  let s1 := releaseLane ch s
  { s1 with ga := { s1.ga with chs := Tbl.del s1.ga.chs ch } }

/-- A check of Table 9.3 fails: 0x7001, the status, DW0 with the entry and the cause. The Tack Room's status names no cause of its own. -/
def tableFault (k : Ctx) (e cause : Nat) (s : State) : State :=
  let c := if cause = 5 then 0 else cause
  postFull k 7 (if cause = 5 then 0x88 else 0x83) (e % 65536 + 65536 * c) 0 [] (raise 0x7001 1 [h1 k.cmd.fn, h1 k.cmd.cid, h1 e, h1 c] s)

/-- Steps 2 to 4 of R257 on a granted channel. -/
def gatherStart (k : Ctx) (ch : Nat) (mem : HostMem) (s : State) : State :=
  let cnt := nblocks k.cmd
  match hostRead (itabOf k.cmd) (16 * cnt) mem, nsAt? k.cmd.nsid s with
  | some (tab, _), some n =>
    let es := parseEnts cnt tab
    match entsFault n es s with
    | some e => tableFault k e.1 e.2 (noteTack n es e s)
    | none =>
      if k.cmd.cdw13.toNat < entTotal es then tableFault k (cnt - 1) 3 s
      else if entTotal es = 0 then ok k s
      else match sealedOut (es.flatMap (entZones n)) s with
        | some z => refuseSeal k z s
        | none =>
          let s1 := { s with ga := { s.ga with chs := Tbl.put s.ga.chs ch ⟨k.seq, es, gatherLevel k.cmd, false⟩ } }
          requestLane ch (putCtx { k with wait := .gather ch, dispatched := true, rd := gatherRd n (fuaOf k.cmd) es s1 } s1)
  | none, _ => fin k 0 0x04 s
  | _, none => fin k 0 0x0B s

/-- GATHER_CHANNEL_GRANT (R257): in fetch order, passing over commands whose function is at its cap. -/
def execGatherChannelGrant (mem : HostMem) (s : State) : Out :=
  if s.m.cur == .emergencyFlush || s.m.cur == .halted then .next s
  else match s.q.ctxs.find? (fun k => k.wait == .gatherWait && chanCap k s), freeChan s with
    | some k, some ch => doneIo (gatherStart k ch mem { s with ga := { s.ga with waited := Tbl.del s.ga.waited k.seq } })
    | _, _ => .next s

/-- GATHER_CHANNEL_WAIT_EXPIRY (R257): 0x7030. -/
def execGatherChannelWaitExpiry (fn sqid cid : Nat) (s : State) : Out :=
  match ctxNamed fn sqid cid s with
  | some k => if k.wait == .gatherWait then
      done (raise 0x7030 0 [h1 fn] { s with ga := { s.ga with waited := Tbl.put s.ga.waited k.seq s.tm.turns } }) else .next s
  | none => .next s

/-- The entry whose bytes a destination offset carries. -/
def entryAt : List GEnt → Nat → Nat → Nat
  | [], _, i => i - 1
  | e :: t, o, i => if o < e.len then i else entryAt t (o - e.len) (i + 1)

/-- A Gather Read whose elements have all been read ends (R261). -/
def gatherEnd (k : Ctx) (ch : Nat) (es : List GEnt) (n : Ns) (badBeat : Option Nat) (s : State) : State :=
  let o := gatherOutcome k.cmd.fn k.cmd.nsid n es k.rd s
  let bad := (o.1.zipIdx).filter (fun e => e.1.2 != 0)
  let data := o.1.flatMap (·.1)
  let parts := k.rd.parts.take (gatherPlan n es s).1.length
  let k1 := { k with hh := hhDetail parts, sealF := sealDetail o.2.1, data := data }
  let s1 := bad.foldl (fun s e => raise 0x7002 1 [h1 k.cmd.fn, h1 k.cmd.cid, h1 e.2, h1 e.1.2] s) o.2.2
  let write := fun (n : Nat) (s : State) => { s with ga := { s.ga with wr := s.ga.wr ++ [(k.cmd.dptr, data.take n)] } }
  let s2 := dropChan ch s1
  match badBeat with
  | some b =>
    let cut := min data.length ((k.cmd.dptr / 64 + b) * 64 - k.cmd.dptr)
    let e := entryAt es cut 0
    postFull { k1 with data := data.take cut } 0 0x04 (e + 65536 * min 0xFFFF (bad.filter (fun x => decide (x.2 < e))).length) 0 [] (write cut s2)
  | none => match bad with
    | [] => postFull k1 0 0 0 0 [] (write data.length s2)
    | e :: _ => postFull k1 (e.1.2 / 256) (e.1.2 % 256) (e.2 + 65536 * min 0xFFFF bad.length) 0 [] (write data.length s2)

/-- GATHER_READ_COMPLETE: the last beat of a channel has been written, or a host memory error has met one (`badBeat`, counted from the
transfer's first beat). -/
def execGatherReadComplete (ch : Nat) (badBeat : Option Nat) (s : State) : Out :=
  match Tbl.get? s.ga.chs ch with
  | none => .next s
  | some c => match ctxAt c.seq s with
    | none => .next s
    | some k =>
      if !k.rd.complete || s.m.cur == .halted || s.m.cur == .emergencyFlush then .next s
      else match nsAt? k.cmd.nsid s with
        | some n => doneIo (gatherEnd k ch c.ents n badBeat s)
        | none => doneIo (fin k 0 0x0B (dropChan ch s))

/-! ## Maintenance channels (R263 to R271) -/

/-- Signal a channel's vector: one above the Owner PF's count is never signalled. -/
def gdcSignal (n : Nat) (s : State) : State :=
  let v := (gdcAt n s).vec
  if v < vectorsOf 0 s then signal 0 v s else s

/-- A maintenance channel faults: FAULT, FCODE, ENTRY, state 5, VEC, 0x7010 (R265). -/
def gdcFault (n code entry : Nat) (s : State) : State :=
  let s1 := updGdc n (fun g => { g with state := 5, fault := true, fcode := code, entry := entry, rd := Rd.none, ents := [], sent := 0, held := [], buf := 0 }) (releaseLane (48 + n) s)
  raise 0x7010 1 [h1 n, h1 code, h1 entry] (gdcSignal n s1)

/-- Start the transfer in a channel's registers: the checks of R265, then running. -/
def gdcBegin (n : Nat) (mem : HostMem) (s : State) : State × HostMem :=
  let g := gdcAt n s
  let run := fun (es : List GEnt) (rd : Rd) (s : State) =>
    requestLane (48 + n) (updGdc n (fun g => { g with state := 1, entry := 0, buf := 0, ents := es, rd := rd, sent := 0, held := [] }) s)
  if 2 ≤ g.mode then (gdcFault n 6 0 s, mem)
  else if g.dlen < g.cnt then (gdcFault n 4 0 s, mem)
  else if g.mode = 0 ∨ g.cnt = 0 then (run [] Rd.none s, mem)
  else match nsFor? 0 (g.src % 2 ^ 32) s with
    | none => (gdcFault n 8 0 s, mem)
    | some ns => match hostRead g.idx (16 * (g.nent + 1)) mem with
      | none => (gdcFault n 6 0 s, mem)
      | some (tab, mem) =>
        let es := parseEnts (g.nent + 1) tab
        match entsFault ns es s with
        | some e => (gdcFault n e.2 e.1 (noteTack ns es e s), mem)
        | none =>
          if entTotal es ≠ g.cnt then (gdcFault n 3 g.nent s, mem)
          else match sealedOut (es.flatMap (entZones ns)) s with
            | some z =>
              let s1 := raise 0x8011 1 [h1 0, h2 z] { s with ci := { s.ci with denied := satAdd 64 s.ci.denied 1 } }
              (tick (gdcFault n (Config.freeNat s.free % 13 + 1) 0 s1), mem)
            | none => (run es (gatherRd ns false es s) s, mem)

/-- Load the descriptor at GDC_DESC (Table 9.7) and start it. -/
def gdcLoad (n : Nat) (mem : HostMem) (s : State) : State × HostMem :=
  match hostRead (gdcAt n s).desc 56 mem with
  | none => (gdcFault n 6 0 s, mem)
  | some (d, mem) =>
    let w := numAt d 32 4
    gdcBegin n mem (updGdc n (fun g => { g with src := numAt d 0 8, dst := numAt d 8 8, cnt := numAt d 16 4, dlen := numAt d 20 4, idx := numAt d 24 8 / 16 * 16,
                                                mode := bits w 5 4, prio := bits w 7 6, int := bit w 8, nent := bits w 31 16 }) s)

/-- Read the link word of the transfer that has ended, and act on it (R267): the next descriptor, a second reading under RESUME_PEND, or the
tail. A transfer of no bytes passes straight on to its own link word. -/
def gdcLink : Nat → Nat → HostMem → State → State
  | 0, _, _, s => s
  | fuel + 1, n, mem, s =>
    let g := gdcAt n s
    let r := if g.desc = 0 then some (g, mem)
      else (hostRead (g.desc + 56) 8 mem).map (fun r => ({ g with linkEnd := bit (leNat r.1) 0, linkNext := leNat r.1 / 64 }, r.2))
    match r with
    | none => gdcFault n 6 0 s
    | some (g, mem) =>
      let s := updGdc n (fun _ => g) s
      if !g.linkEnd then
        if g.linkNext = 0 then gdcFault n 6 0 s
        else
          let t := gdcLoad n mem (updGdc n (fun g => { g with desc := g.linkNext * 64 }) s)
          let h := gdcAt n t.1
          if h.state = 1 ∧ h.cnt = 0 then
            let s1 := if h.int then gdcSignal n (updGdc n (fun g => { g with done := true }) t.1) else t.1
            gdcLink fuel n t.2 s1
          else t.1
      else if g.resumePend then gdcLink fuel n mem (updGdc n (fun g => { g with resumePend := false }) s)
      else updGdc n (fun g => { g with state := 4, done := true }) (releaseLane (48 + n) s)

/-- A transfer's bytes have been written: the pointers advance, INT signals, the link word is read. -/
def gdcNext (n : Nat) (mem : HostMem) (s : State) : State :=
  let g := gdcAt n s
  let s1 := if g.int then gdcSignal n (updGdc n (fun g => { g with done := true }) s) else s
  gdcLink (mem.length + 3) n mem s1

/-- Commands act in the modes in which channels run: not in EMERGENCY_FLUSH or HALTED (R271). -/
def gdcRuns (s : State) : Bool := s.m.cur != .emergencyFlush && s.m.cur != .halted

/-- The command bits a write of GDC_CTL sets. -/
def gdcBits (v : Nat) : Nat := b2n (bit v 0) + b2n (bit v 1) + b2n (bit v 2) + b2n (bit v 3)

/-- The bytes of a maintenance transfer written at its destination, taken by the check-value units with SRC = 0x4 that name the channel
(R308). -/
def gdcWrite (n : Nat) (bytes : List Byte) (s : State) : State :=
  let g := gdcAt n s
  let us := (List.range 16).filter (fun u => cvuSrc u s == 4 && (cvuAt u s).fn % 16 == n)
  let s1 := us.foldl (fun s u => updCvu u (fun c => { c with val := crcOn c.poly c.val bytes, cnt := satAdd 64 c.cnt bytes.length }) s)
    { s with ga := { s.ga with wr := if bytes.isEmpty then s.ga.wr else s.ga.wr ++ [(g.dst, bytes)] } }
  updGdc n (fun g => { g with dst := (g.dst + bytes.length) % 2 ^ 64, cnt := g.cnt - bytes.length }) s1

/-- Bytes a transfer at a destination has put in whole beats when it has packed `t` of them: the rest waits in the beat buffer (R252, R259). -/
def beatBytes (dst t : Nat) : Nat := if dst % 64 + t < 64 then 0 else t - (dst + t) % 64

/-- What a COPY has read when it is `moved` bytes on: its held bytes and those its source gives; none where the source does not answer. -/
def copyRead (g : Gdc) (moved : Nat) (mem : HostMem) : Option (List Byte × HostMem) :=
  let n := min moved (g.cnt - g.held.length)
  if n = 0 then some (g.held, mem) else (hostRead g.src n mem).map (fun r => (g.held ++ r.1, r.2))

/-- Bytes of a GATHER's pack that are complete: those of the elements before the first with a block not read yet. -/
def packReady (g : Gdc) (ns : Ns) (s : State) : Nat :=
  let plan := gatherPlan ns g.ents s
  let got := fun (i : Nat) => match g.rd.parts[i]? with | some p => p.blk.isSome || p.st != 0 | none => true
  sumN (((g.ents.zip plan.2).takeWhile (fun e => e.2.all got)).map (fun e => e.1.len))

/-- STOP (R270): the transfer is `moved` bytes further on than at its start or its last parking. Whole beats are written; the rest stays
in the beat buffer. -/
def gdcPark (n moved : Nat) (mem : HostMem) (s : State) : State :=
  let g := gdcAt n s
  let s1 :=
    if g.mode = 0 then
      (match copyRead g moved mem with
       | some (d, _) =>
         let b := beatBytes g.dst d.length
         updGdc n (fun h => { h with src := (g.src + (d.length - g.held.length)) % 2 ^ 64, held := d.drop b, buf := (d.drop b).length })
           (gdcWrite n (d.take b) s)
       | none => s)
    else match nsAt? (g.src % 2 ^ 32) s with
      | some ns =>
        let t := min (g.buf + moved) (packReady g ns s - g.sent)
        let b := beatBytes g.dst t
        let d := ((gatherOutcome 0 (g.src % 2 ^ 32) ns g.ents g.rd s).1.flatMap (·.1)).drop g.sent
        updGdc n (fun h => { h with sent := g.sent + b, buf := t - b }) (gdcWrite n (d.take b) s)
      | none => s
  let h := gdcAt n s1
  raise 0x7011 0 [h1 n, h2 h.cnt, h2 h.buf] (updGdc n (fun g => { g with state := 3 }) (releaseLane (48 + n) s1))

/-- A write of GDC_CTL (R264, R269, Table 9.9). A transfer of no bytes ends at once. `moved`: how far the transfer is (R270). -/
def gdcCtl (n v moved : Nat) (mem : HostMem) (s : State) : State :=
  let g := gdcAt n s
  if 1 < gdcBits v ∨ !gdcRuns s then s
  else if bit v 0 then
    if g.state = 0 ∨ g.state = 4 ∨ g.state = 5 then
      let t := gdcBegin n mem (updGdc n (fun g => { g with desc := 0, fcode := 0 }) s)
      let h := gdcAt n t.1
      if h.state = 1 ∧ h.cnt = 0 then gdcNext n t.2 t.1 else t.1
    else s
  else if bit v 1 then
    if g.state = 1 ∨ g.state = 2 then gdcPark n moved mem s else s
  else if bit v 2 then
    if g.state = 1 ∨ g.state = 2 then updGdc n (fun g => { g with resumePend := true }) s
    else if g.state = 3 then requestLane (48 + n) (updGdc n (fun g => { g with state := 1 }) s)
    else if g.state = 4 then gdcLink (mem.length + 3) n mem s
    else s
  else if bit v 3 then
    if g.state = 3 ∨ g.state = 4 ∨ g.state = 5 then
      updGdc n (fun g => { g with state := 0, fcode := if g.state = 5 then 0 else g.fcode, buf := 0, ents := [], rd := Rd.none, sent := 0, held := [] }) s
    else s
  else if g.state = 0 ∨ g.state = 4 ∨ g.state = 5 then
    updGdc n (fun g => { g with mode := bits v 5 4, prio := bits v 7 6, int := bit v 8, nent := bits v 31 16 }) s
  else s

/-- FCODE of an element's status (Table 9.5). -/
def fcodeOf (st : Nat) : Nat := if st = stUnrec then 9 else if st = 0x1BB then 0xA else if st = 0x784 then 0xB else 0xC

/-- GDC_TRANSFER_END: a COPY has moved `moved` bytes, all it had or those before a host memory error on its source, of which
the beats before the failing one are written; a GATHER has read and
packed its elements. Then its link word. -/
def execGdcTransferEnd (ch moved : Nat) (mem : HostMem) (s : State) : Out :=
  let g := gdcAt ch s
  if 16 ≤ ch ∨ !(g.state = 1 ∨ g.state = 2) ∨ !gdcRuns s then .next s
  else if g.mode = 0 then
    match copyRead g moved mem with
    | some (d, rest) =>
      let out := if d.length < g.cnt then d.take (beatBytes g.dst d.length) else d
      let s1 := updGdc ch (fun h => { h with src := (g.src + (d.length - g.held.length)) % 2 ^ 64, held := [], buf := 0 }) (gdcWrite ch out s)
      if d.length < g.cnt then doneIo (gdcFault ch 0xD 0 s1) else doneIo (gdcNext ch rest s1)
    | none => doneIo (gdcFault ch 0xD 0 s)
  else if !g.rd.complete then .next s
  else match nsAt? (g.src % 2 ^ 32) s with
    | none => doneIo (gdcFault ch 8 0 s)
    | some n =>
      let o := gatherOutcome 0 (g.src % 2 ^ 32) n g.ents g.rd s
      let s1 := gdcWrite ch ((o.1.flatMap (·.1)).drop g.sent) (updGdc ch (fun g => { g with rd := Rd.none, ents := [], sent := 0, buf := 0 }) o.2.2)
      match (o.1.zipIdx).find? (fun e => e.1.2 != 0) with
      | some e => doneIo (gdcFault ch (fcodeOf e.1.2) e.2 s1)
      | none => doneIo (gdcNext ch mem s1)

end Sys2Proof.Machine
end

