-- ==== Sys2Proof/Machine/Resets.lean ====
section
/-! DEFINITION. Resets of functions: a controller reset or function-level reset of a physical function (R90, R240, R15), a stall's reset and
the stalls' removal (R314, R321, R322). -/

namespace Sys2Proof.Machine
open Sys2Proof

/-! ## A function's work (R240, Table 12.5) -/

/-- A fetched command without a completion, not already fenced by a reset. -/
def Ctx.live (k : Ctx) : Bool := k.wait != .fenced && k.wait != .posted

/-- A command is not dispatched (Table 8.8). Admin commands are dispatched at fetch, a Currycomb Pass when its first word is read. -/
def undispatched (k : Ctx) (s : State) : Bool :=
  k.live && (k.wait == .flush || k.wait == .aer ||
    (k.wait == .ccb && !(match s.ecc.running with | some p => p.ctx == some k.seq && decide (0 < p.sum.words) | none => false)) ||
    (!k.dispatched && (k.cmd.sqid != 0 || k.cmd.opc == 0x0C)))

/-- Bytes of host data a reset keeps from their destination (R321): read and not delivered, coded and not accepted, partly staged. -/
def lostBytes (f : Nat) (s : State) : Nat :=
  sumN (((ctxsOf f s).filter Ctx.live).map (fun k => match k.wait with
    | .halfHitch => k.data.length
    | .read _ => k.rd.held
    | .hhRead => k.rd.held
    | .gather _ => k.rd.held
    | _ => 0)) +
  sumN ((s.zn.wrs.filter (fun w => w.fn == f && !w.ready)).map (fun w => 2048 * sumN (w.staged.map (fun p => p.2.units))))

/-- Writes of a function at its reset: those partly staged fail (R118, R132) or, in a zone reset meanwhile, are discarded; those wholly staged are programmed, with no completion (R90). -/
def resetWrites (f : Nat) (s : State) : State :=
  let s1 := (s.zn.wrs.filter (fun w => w.fn == f && !w.ready)).foldl (fun s w =>
    if w.discarded then discardWrite w.id s else failWrite w.id s) s
  (s1.zn.wrs.filter (fun w => w.fn == f && w.dec == .undecided)).foldl (fun s w =>
    placeWrite w.id (updWr w.id (fun w => { w with dec := .held 0 }) s)) s1

/-- Discard and fence a function's commands: undispatched ones go, dispatched ones keep a context while their internal work runs, none is
completed; its queues are deleted, its Features return to their defaults (R240 steps 1 to 5). -/
def fenceFn (f : Nat) (s : State) : State :=
  let mine := ((ctxsOf f s).map (·.seq))
  let s1 := resetWrites f (fenceGather f s)
  let s2 := dropPasses (fun p => match p.ctx with | some q => mine.contains q | none => false) s1
  let keep := fun (k : Ctx) => k.cmd.fn != f || (k.live && k.dispatched) || k.wait == .fenced
  let s3 := { s2 with q := { s2.q with ctxs := (s2.q.ctxs.filter keep).map (fun k => if k.cmd.fn = f then { k with wait := .fenced, cvus := [] } else k),
                                       pendAen := s2.q.pendAen.filter (fun p => p.1 != f) } }
  freeFenced (updFn f (fun n => { n with
    en := false, cfgOk := false, shn := 0, shst := 0, sqs := [], cqs := [], feats := Feats.dflt, lastSq := 0, burst := 0,
    wrr := [0, 0, 0, 0, 0, 0, 0], held := [], masked := [], tmpState := 0, pba := [] }) s3)

/-! ## Fields that return to Reset with the Owner PF's controller (R15) -/

/-- A channel's writable diagnostic fields (Table 6.12). -/
def resetChn (c : Chn) : Chn :=
  { c with runMin := 300, pgmMax := 4, ersMax := 8, hold := 100, prechkZeros := 16, eyePeriod := 1000, dLun := 0, dBlk := 0, dWl := 0, dPage := 0,
           dPlane := 0, dMode := 0, dDone := false }

/-- Every TXS field that host software can write and that is not ST returns to Reset; so do the maintenance channels (R264, R271) and
the device-wide check-value units (R309). The stall protection entries stay (R318). A root's schedule deliveries are abandoned (R366). -/
def ownerRegs (s : State) : State :=
  let s1 := (List.range 16).foldl (fun s n => releaseLane (48 + n) s) s
  { s1 with
    slk := { s1.slk with noEarly := false, brk := false },
    fl := { s1.fl with chs := Tbl.mapV s1.fl.chs (fun _ c => resetChn c) },
    ecc := { s1.ecc with ref1 := 100, ref2 := 140, ref3 := 180, ref4 := 220, arm := false, target := false, fDie := 0, fRegion := 0, fChannel := 0,
                         fCount := 0, applied := false, fAddr := 0, fMask := 0, fChk := 0, tokens := [], auto := true, mediaDays := 7, sramMin := 60 },
    ga := { s1.ga with gdc := [] },
    ci := { s1.ci with cvus := s1.ci.cvus.filter (fun u => decide (16 ≤ u.1)) },
    cad := { s1.cad with pfOnPwrfail := true, rootDepthNext := 2, rootTok := 0xFF, rootCmd := 0, rootArg := 0, dels := [] },
    pw := { s1.pw with noNonop := false },
    stb := { s1.stb with winA := { s1.stb.winA with base := 0, src := false } } }

/-! ## Stalls -/

/-- QUIET: the stall holds no command without a completion (Table 12.4). -/
def quiet (f : Nat) (s : State) : Bool := (ctxsOf f s).all (fun k => k.wait == .fenced)

/-- A Freeze ends with success: DW0 counts the commands it ended, 0x9030 (R323). -/
def freezeEnd (f : Nat) (k : Ctx) (s : State) : State :=
  okDw0 k (min 0xFFFF k.dw0) (raise 0x9030 0 [h1 f, h2 k.dw0] s)

/-- Freezes that wait for a stall end once it is quiet. -/
def freezeQuiet (f : Nat) (s : State) : State :=
  if quiet f s then (s.q.ctxs.filter (fun k => k.wait == .freeze f)).foldl (fun s k => freezeEnd f k s) s else s

/-- A stall's reset (R321): its work is fenced, its private units, key slots and Slack page return to Reset, its open zones become
Closed; 0x9020. A Freeze in progress ends, the stall being quiet (R331). -/
def stallReset (f kind : Nat) (s : State) : State :=
  let n := ((ctxsOf f s).filter Ctx.live).length
  let s1 := raise 0x9020 1 [h1 f, h1 kind, h2 n, h2 (lostBytes f s)] (fenceFn f s)
  let s2 := clearSlots (· == f) { s1 with
    zn := { s1.zn with zones := Tbl.mapV s1.zn.zones (fun _ z => if z.st.isOpen && z.actFn == f then { z with st := .closed } else z) },
    ci := { s1.ci with cvus := s1.ci.cvus.filter (fun u => decide (u.1 < 16) || (u.1 - 16) / 2 != f) } }
  let s3 := updSlk f (fun a => { a with holding := false, earlyCnt := 0, heldCnt := 0, pageFrom := s2.zn.nextWr }) s2
  freezeQuiet f (repower s3)

/-- A stall's resources and protection entry return to their defaults, its flexible resources to the pools (R314). -/
def stallGone (f : Nat) (s : State) : State :=
  updSlk f (fun a => { a with quotaKiB := 0, effKiB := 0, scaled := false })
    (updFn f (fun n => { n with vq := 0, vi := 0, online := false })
      { s with stl := { s.stl with res := Tbl.del s.stl.res f, ents := Tbl.del s.stl.ents f } })

/-- VF Enable is cleared: every stall is reset and removed, every protection entry returns to Reset; 0x9002 (R314, R318). -/
def removeStalls (cause kind : Nat) (s : State) : State :=
  if !s.stl.vfEnable then s
  else
    let fs := (List.range s.stl.numVfs).map (· + 1)
    let s1 := fs.foldl (fun s f => stallGone f (stallReset f kind s)) s
    raise 0x9002 1 [h2 s.stl.numVfs, h1 cause] { s1 with stl := { s1.stl with vfEnable := false, ents := [], res := [] } }

/-! ## Physical functions -/

/-- A controller reset of a function: CC.EN from 1 to 0 (R240): 0x6030. -/
def ctrlReset (f : Nat) (s : State) : State :=
  let n := ((ctxsOf f s).filter Ctx.live).length
  let s1 := raise 0x6030 1 [h1 f, h2 n] (fenceFn f s)
  repower (if f = 0 then ownerRegs s1 else s1)

/-- Clear the controller registers that a function-level reset clears and a controller reset keeps. -/
def clearCc (f : Nat) (s : State) : State :=
  updFn f (fun n => { n with ams := 0, css := 0, mps := 0, iosqes := 0, iocqes := 0, asqs := 0, acqs := 0, asq := 0, acq := 0, msixTab := [] }) s

/-- A function-level reset of a physical function; the Owner PF's clears VF Enable and removes the stalls (R240). -/
def pfReset (f cause : Nat) (s : State) : State :=
  clearCc f (ctrlReset f (if f = 0 then removeStalls cause 3 s else s))

end Sys2Proof.Machine
end

