-- ==== Sys2Proof/Machine/Stalls.lean ====
section
/-! DEFINITION. Stalls: SR-IOV, Virtualization Management, resources, freeze, save and restore (Chapter 12). -/

namespace Sys2Proof.Machine
open Sys2Proof

/-! ## SR-IOV (R313, R314) -/

/-- VF_ENABLE_SET: stalls 1 … NumVFs appear, Offline, with the default resources: 0x9001. -/
def execVfEnableSet (s : State) : Out :=
  if s.stl.vfEnable then .next s
  else done (raise 0x9001 0 [h2 s.stl.numVfs] { s with stl := { s.stl with vfEnable := true, res := [] } })

/-- VF_ENABLE_CLEAR: every stall is reset and removed. -/
def execVfEnableClear (s : State) : Out := doneIo (removeStalls 0 2 s)

/-- NUMVFS_WRITE: effective while VF Enable = 0, at most TotalVFs. -/
def execNumvfsWrite (n : Nat) (s : State) : Out :=
  if s.stl.vfEnable then .next s else .next { s with stl := { s.stl with numVfs := min n s.img.totalVfs } }

/-- VF_FUNCTION_LEVEL_RESET (R321, R241): held during FW_ACTIVATE. -/
def execVfFunctionLevelReset (fn : Nat) (s : State) : Out :=
  if !(isStall fn && fnPresent fn s) then .next s
  else if s.m.cur == .fwActivate then .next (updFn fn (fun n => { n with held := n.held ++ [.flr] }) s)
  else doneIo (clearCc fn (stallReset fn 0 s))

/-! ## Virtualization Management (R221, R314; fields and statuses as NVMe has them, PRESUMED, log 5) -/

/-- The secondary controller a Virtualization Management command names: CNTLID, CDW10 [31:16], is the function number plus one. -/
def vmFn (c : Cmd) : Nat := bits c.cdw10.toNat 31 16 - 1

/-- Flexible resources left for a stall: those of the pool the physical functions and the other stalls do not hold. -/
def flexLeft (f : Nat) (vi : Bool) (s : State) : Nat :=
  let pool := if vi then 16384 - vectorsOf 0 s - (if fnPresent 1024 s then vectorsOf 1024 s else 0)
    else 8192 - pairsOf 0 s - (if fnPresent 1024 s then pairsOf 1024 s else 0)
  pool - sumN ((s.q.fns.filter (fun p => isStall p.1 && p.1 != f)).map (fun p => if vi then p.2.vi else p.2.vq))

/-- A stall that the command names, or Invalid Controller Identifier. -/
def vmOn (k : Ctx) (s : State) (f : Nat → State) : State :=
  if bits k.cmd.cdw10.toNat 31 16 = 0 ∨ !(isStall (vmFn k.cmd) && fnPresent (vmFn k.cmd) s) then fin k 1 0x1F s else f (vmFn k.cmd)

/-- Secondary Assign: VQ or VI flexible resources, while Offline; DW0 gives the number. -/
def vmAssignOn (k : Ctx) (s : State) : State :=
  vmOn k s (fun f =>
    let rt := bits k.cmd.cdw10.toNat 10 8
    let nr := bits k.cmd.cdw11.toNat 15 0
    if 2 ≤ rt then fin k 1 0x22 s
    else if (fnOf f s).online then fin k 1 0x20 s
    else if 513 < nr ∨ (rt = 0 ∧ nr = 1) ∨ flexLeft f (rt == 1) s < nr then fin k 1 0x21 s
    else okDw0 k nr (updFn f (fun n => if rt = 1 then { n with vi := nr } else { n with vq := nr }) s))

/-- VIRT_MGMT_RESOURCE_ASSIGN. -/
def execVirtMgmtResourceAssign (c : Cmd) (s : State) : Out := done (withCmd c s (fun k s => gateAdmin (c.fn == 0) false k s vmAssignOn))

/-- VIRT_MGMT_SECONDARY_ONLINE: at least 2 pairs and 1 vector. -/
def execVirtMgmtSecondaryOnline (c : Cmd) (s : State) : Out :=
  done (withCmd c s (fun k s => gateAdmin (c.fn == 0) false k s (fun k s => vmOn k s (fun f =>
    if (fnOf f s).vq < 2 ∨ (fnOf f s).vi < 1 then fin k 1 0x20 s else ok k (updFn f (fun n => { n with online := true }) s)))))

/-- VIRT_MGMT_SECONDARY_OFFLINE: with CC.EN = 1 the stall is reset first (R321). -/
def execVirtMgmtSecondaryOffline (c : Cmd) (s : State) : Out :=
  doneIo (withCmd c s (fun k s => gateAdmin (c.fn == 0) false k s (fun k s => vmOn k s (fun f =>
    ok k (updFn f (fun n => { n with online := false }) (if (fnOf f s).en then stallReset f 1 s else s))))))

/-! ## One at a time (R331) -/

/-- A Freeze of a stall is in progress, another command than this. -/
def stallBusy (f : Nat) (k : Ctx) (s : State) : Bool := s.q.ctxs.any (fun x => x.wait == .freeze f && x.seq != k.seq)

/-- STL_STAT.STATE (R314). -/
def stallState (f : Nat) (s : State) : Nat := if !fnPresent f s then 0 else if isPf f || (fnOf f s).online then 2 else 1

/-! ## Stall Resource Set (R316, R317) -/

/-- The selected fields of Table 12.3 lie in their ranges. -/
def srRanges (sel : Nat) (b : List Byte) : Bool :=
  (!bit sel 0 || (numAt b 0 4 % 4 == 0 && decide (numAt b 0 4 ≤ 65536))) &&
  (!bit sel 1 || decide (1 ≤ numAt b 4 2 ∧ numAt b 4 2 ≤ 16384 ∧ 1 ≤ numAt b 6 2 ∧ numAt b 6 2 ≤ 8192 ∧ numAt b 6 2 ≤ numAt b 4 2)) &&
  (!bit sel 3 || decide (numAt b 16 1 ≤ 8)) && (!bit sel 4 || decide (numAt b 17 1 ≤ 2))

/-- Slots at or above a count are cleared: 0x8002 for each that held a key. -/
def lowerKeys (f n : Nat) (s : State) : State :=
  (List.range 8).foldl (fun s i =>
    if i < n then s
    else
      let s1 := if (keyAt? f i s).isSome then raise 0x8002 0 [h1 f, h1 i] s else s
      { s1 with ci := { s1.ci with keys := Tbl.del s1.ci.keys (f * 8 + i), kbuf := Tbl.del s1.ci.kbuf (f * 8 + i) } }) s

/-- The selected groups change together. -/
def srApply (f sel : Nat) (b : List Byte) (s : State) : State :=
  let r := resOf f s
  let s1 := if bit sel 0 then updSlk f (fun a => { a with quotaKiB := numAt b 0 4, effKiB := numAt b 0 4, scaled := false }) s else s
  let s2 := if bit sel 3 then lowerKeys f (numAt b 16 1) s1 else s1
  let s3 := if bit sel 4 then { s2 with ci := { s2.ci with cvus := s2.ci.cvus.filter (fun u =>
      decide (u.1 < 16) || (u.1 - 16) / 2 != f || decide ((u.1 - 16) % 2 < numAt b 17 1)) } } else s2
  let r1 := if bit sel 1 then { r with actLim := numAt b 4 2, openLim := numAt b 6 2 } else r
  let r2 := { r1 with keySlots := if bit sel 3 then numAt b 16 1 else r.keySlots, cvus := if bit sel 4 then numAt b 17 1 else r.cvus }
  if isPf f then s3
  else { s3 with stl := { s3.stl with
    res := Tbl.put s3.stl.res f r2,
    ents := if bit sel 2 then Tbl.put s3.stl.ents f { Tbl.getD s3.stl.ents f StlEnt.dflt with yards := numAt b 8 8 } else s3.stl.ents } }

/-- Stall Resource Set's checks and effect. -/
def srOn (b : List Byte) (k : Ctx) (s : State) : State :=
  let f := stlFn k.cmd
  let sel := bits k.cmd.cdw11.toNat 4 0
  let others := sumQ s - (slkOf f s).quotaKiB
  if bits k.cmd.cdw10.toNat 31 11 ≠ 0 ∨ bits k.cmd.cdw11.toNat 31 5 ≠ 0 then fin k 0 0x02 s
  else if !fnPresent f s || 1024 < f || (isPf f && sel != 1) then fin k 0 0x02 s
  else if !srRanges sel b then fin k 0 0x02 s
  else if (bit sel 3 || bit sel 4) && stallState f s != 1 then fin k 0 0x0C s
  else if bit sel 0 && decide (sKiB s < others + numAt b 0 4) then fin k 0 0x02 s
  else
    let s1 := raise 0x9011 0 [h1 f, h1 sel] (srApply f sel b s)
    okDw0 k ((slkOf f s1).effKiB % 2 ^ 17) s1

/-! ## Freeze and Thaw (R323, R324) -/

/-- Stall Freeze: fetching stops, undispatched commands end with 7h/0x87, the rest is waited for. -/
def freezeOn (k : Ctx) (s : State) : State :=
  let f := stlFn k.cmd
  if !(isStall f && fnPresent f s) then fin k 0 0x02 s
  else
    let s1 := { s with stl := { s.stl with res := Tbl.put s.stl.res f { resOf f s with frz := true } } }
    let gone := (ctxsOf f s1).filter (fun x => undispatched x s1)
    let s2 := gone.foldl (fun s x => fin x 7 0x87 (dropPasses (fun p => p.ctx == some x.seq) s)) s1
    let k1 := { k with wait := .freeze f, dw0 := gone.length }
    if quiet f s2 then freezeEnd f k1 s2 else putCtx k1 s2

/-- Stall Freeze with THAW: fetching resumes from the recorded tails. -/
def thawOn (k : Ctx) (s : State) : State :=
  let f := stlFn k.cmd
  if !(isStall f && fnPresent f s) then fin k 0 0x02 s
  else if !frozen f s then ok k s
  else ok k (raise 0x9031 0 [h1 f] { s with stl := { s.stl with res := Tbl.put s.stl.res f { resOf f s with frz := false } } })

/-! ## Save (R325 to R327) -/

/-- CC of a function, as NVMe places its fields (log 5). -/
def ccOf (n : Fn) : Nat :=
  b2n n.en + fld 4 3 n.css + fld 7 4 n.mps + fld 11 3 n.ams + fld 14 2 n.shn + fld 16 4 n.iosqes + fld 20 4 n.iocqes

/-- Arbitration, DW0. -/
def arbOf (x : Feats) : Nat := fld 0 3 x.ab + fld 8 8 x.lpw + fld 16 8 x.mpw + fld 24 8 x.hpw

/-- Highest existing queue identifier plus one, the admin queue included. -/
def blobNq (n : Fn) : Nat := (n.sqs.map (·.1) ++ n.cqs.map (·.1)).foldl (fun m q => max m (q + 1)) 1

/-- A queue record (Table 12.8). -/
def queueRec (n : Fn) (q : Nat) : List Byte :=
  let sq := Tbl.get? n.sqs q
  let cq := Tbl.get? n.cqs q
  let so := fun (g : Sq → Nat) => (sq.map g).getD 0
  let co := fun (g : Cq → Nat) => (cq.map g).getD 0
  leBytes 2 (co (·.iv)) ++
    leBytes 2 (b2n sq.isSome + 2 * b2n cq.isSome + 4 * co (fun c => b2n c.phase) + 8 * co (fun c => b2n c.ien) + fld 4 2 (so (·.prio))) ++
    leBytes 2 (so (fun x => x.size - 1)) ++ leBytes 2 (co (fun x => x.size - 1)) ++ leBytes 2 (so (·.cq)) ++ zeroBytes 6 ++
    leBytes 8 (so (·.base)) ++ leBytes 8 (co (·.base)) ++ leBytes 2 (so (·.head)) ++ leBytes 2 (so (·.tail)) ++ leBytes 2 (co (·.tail)) ++
    leBytes 2 (co (·.head)) ++ zeroBytes 8

/-- CVU_CTL as read. -/
def cvuCtlOf (c : Cvu) : Nat := fld 0 3 c.src + fld 3 2 c.poly + fld 6 1 (b2n c.one) + fld 16 16 c.sqid
/-- CVU_CID as read. -/
def cvuCidOf (c : Cvu) : Nat := fld 0 16 c.cid + fld 16 1 (b2n c.cidEn)

/-- STL_PERM as read (Table 12.4). -/
def permOf (e : StlEnt) : Nat :=
  b2n e.write + 2 * b2n e.gather + 4 * b2n e.sealP + 8 * b2n e.comp + 16 * b2n e.scrub + fld 8 6 e.gchMax

/-- The function section (Table 12.7). -/
def fnSection (f : Nat) (s : State) : List Byte :=
  let n := fnOf f s
  let x := n.feats
  let r := resOf f s
  let a := slkOf f s
  let aen := (s.q.pendAen.filter (fun p => p.1 == f)).foldl (fun v p => v ||| 2 ^ (p.2.1 % 16)) 0
  leBytes 4 (ccOf n) ++ leBytes 4 (arbOf x) ++ leBytes 4 (b2n (x.wce && !s.m.wt)) ++ leBytes 4 (fld 0 8 x.thr + fld 8 8 x.time) ++ leBytes 4 x.aec ++
    leBytes 4 (b2n x.acre) ++ leBytes 1 x.xlevel ++ [0] ++ leBytes 2 n.vq ++ leBytes 2 n.vi ++ zeroBytes 2 ++ leBytes 4 a.quotaKiB ++
    leBytes 2 r.actLim ++ leBytes 2 r.openLim ++ leBytes 8 (entOf f s).yards ++ leBytes 4 (permOf (entOf f s)) ++ leBytes 1 r.keySlots ++
    leBytes 1 r.cvus ++ leBytes 2 aen ++
    (List.range 8).flatMap (fun i => leBytes 4 (kcvAt f i s + fld 24 1 (b2n (keyAt? f i s).isSome))) ++ leBytes 8 a.earlyCnt ++ leBytes 8 a.heldCnt ++
    (List.range 2).flatMap (fun m => if r.cvus ≤ m then zeroBytes 32 else
      let c := cvuAt (16 + 2 * f + m) s
      leBytes 4 (cvuCtlOf c) ++ leBytes 4 c.nsid ++ leBytes 8 c.val ++ leBytes 8 c.cnt ++ leBytes 4 c.skip ++ leBytes 4 (cvuCidOf c)) ++
    leBytes 72 (x.cd.foldl (fun v i => v ||| 2 ^ i) 0) ++ zeroBytes 16

/-- K_m: R300's derivation with the label "DZXMIG01" and no zone (R327). -/
def migKey (k : List Byte) : List Byte :=
  let m := fun (i : Nat) => leBytes 1 i ++ [0x44, 0x5A, 0x58, 0x4D, 0x49, 0x47, 0x30, 0x31, 0x00] ++ zeroBytes 18 ++ [0x02, 0x00]
  cmac k (m 1) ++ cmac k (m 2)

/-- The bytes a blob's tag covers (Table 12.6 and after). -/
def blobBody (f : Nat) (key : List Byte) (saveSeq : Nat) (s : State) : List Byte :=
  let n := fnOf f s
  let nq := blobNq n
  leBytes 4 0x53585A44 ++ leBytes 2 1 ++ leBytes 2 64 ++ leBytes 4 (336 + 48 * nq) ++ leBytes 2 f ++ leBytes 2 nq ++ leBytes 8 Config.devId ++
    leBytes 8 (stampNow s) ++ leBytes 8 saveSeq ++ leBytes 4 (kcvOf key) ++ zeroBytes 20 ++ fnSection f s ++ (List.range nq).flatMap (queueRec n)

/-- Stall Save. -/
def saveOn (k : Ctx) (s : State) : State :=
  let f := stlFn k.cmd
  let len := 336 + 48 * blobNq (fnOf f s)
  if !(isStall f && fnPresent f s) then fin k 0 0x02 s
  else if !(frozen f s && quiet f s) then fin k 0 0x0C s
  else match keyAt? k.cmd.fn (bits k.cmd.cdw11.toNat 2 0) s with
    | none => fin k 2 0x86 s
    | some key =>
      if k.cmd.cdw12.toNat < len then postFull k 0 0x02 len 0 [] s
      else
        let n := satAdd 64 s.stl.saveSeq 1
        let body := blobBody f key n s
        postFull k 0 0 len 0 (body ++ cmac (migKey key) body) (raise 0x9040 0 [h1 f, h2 len, h2 n] { s with stl := { s.stl with saveSeq := n } })

/-! ## Restore (R328 to R330) -/

/-- Queue record q of a blob. -/
def recAt (b : List Byte) (q : Nat) : List Byte := sliceB b (320 + 48 * q) 48
/-- A blob's record has an SQ, a CQ. -/
def recSq (r : List Byte) : Bool := bit (numAt r 2 2) 0
/-- A blob's record has a CQ. -/
def recCq (r : List Byte) : Bool := bit (numAt r 2 2) 1

/-- CC's fields are values of Table 8.2 (R224): the first refused, by its code of Table 15.8. -/
def ccFault (n : Fn) : Option Nat :=
  if 1 < n.ams then some 1 else if n.css ≠ 0 ∧ n.css ≠ 6 then some 2 else if 4 < n.mps then some 3
  else if n.iosqes ≠ 6 then some 4 else if n.iocqes ≠ 4 then some 5 else none

/-- CC's fields taken into a function's record. -/
def putCc (v : Nat) (n : Fn) : Fn :=
  { n with css := bits v 6 4, mps := bits v 10 7, ams := bits v 13 11, iosqes := bits v 19 16, iocqes := bits v 23 20 }

/-- The first failing check of Table 12.9. -/
def blobFault (f : Nat) (key : List Byte) (len : Nat) (b : List Byte) (s : State) : Option Nat :=
  let nq := numAt b 14 2
  let rs := (List.range nq).map (fun q => (q, recAt b q))
  let body := b.take (len - 16)
  if numAt b 0 4 ≠ 0x53585A44 ∨ numAt b 6 2 ≠ 64 then some 1
  else if numAt b 4 2 ≠ 1 then some 2
  else if numAt b 8 4 ≠ 336 + 48 * nq ∨ numAt b 8 4 ≠ len ∨ nq = 0 ∨ 513 < nq then some 3
  else if numAt b 40 4 % 2 ^ 24 ≠ kcvOf key then some 4
  else if cmac (migKey key) body ≠ sliceB b (len - 16) 16 then some 5
  else if rs.any (fun r => (recSq r.2 || recCq r.2) && decide (pairsOf f s ≤ r.1)) then some 6
  else if rs.any (fun r => recCq r.2 && decide (vectorsOf f s ≤ numAt r.2 0 2)) then some 7
  else if (ccFault (putCc (numAt b 64 4) Fn.dflt)).isSome ∨ numAt b 88 1 < 1 ∨ 3 < numAt b 88 1 ∨ (s.m.wt ∧ bit (numAt b 72 4) 0) then some 8
  else if (List.range 2).any (fun m => decide ((resOf f s).cvus ≤ m) && (numAt b (168 + 32 * m) 4 % 8 != 0 || numAt b (176 + 32 * m) 8 != 0)) then some 9
  else if numAt b 16 8 = Config.devId ∧ numAt b 12 2 ≠ f ∧ !frozen (numAt b 12 2) s then some 10
  else none

/-- A blob's private unit. -/
def blobCvu (f : Nat) (b : List Byte) : Cvu :=
  let w := numAt b 0 4
  ⟨bits w 2 0, bits w 4 3, bit w 6, bits w 31 16, f, numAt b 4 4, numAt b 8 8, false, numAt b 16 8, numAt b 24 4, numAt b 28 4 % 65536, bit (numAt b 28 4) 16, false⟩

/-- Load a stall from a blob (R329). Of a held event the blob names only its type: the rest of it is a free value. -/
def blobLoad (f : Nat) (b : List Byte) (s : State) : State :=
  let rs := (List.range (numAt b 14 2)).map (fun q => (q, recAt b q))
  let flags := fun (r : List Byte) => numAt r 2 2
  let sqs := (rs.filter (fun r => recSq r.2)).map (fun r =>
    (r.1, (⟨numAt r.2 4 2 + 1, numAt r.2 16 8, numAt r.2 32 2, numAt r.2 34 2, numAt r.2 8 2, bits (flags r.2) 5 4⟩ : Sq)))
  let cqs := (rs.filter (fun r => recCq r.2)).map (fun r =>
    (r.1, (⟨numAt r.2 6 2 + 1, numAt r.2 24 8, numAt r.2 38 2, numAt r.2 36 2, bit (flags r.2) 2, numAt r.2 0 2, bit (flags r.2) 3, [], 0⟩ : Cq)))
  let arb := numAt b 68 4
  let x : Feats := { Feats.dflt with
    ab := bits arb 2 0, lpw := bits arb 15 8, mpw := bits arb 23 16, hpw := bits arb 31 24, wce := bit (numAt b 72 4) 0, thr := numAt b 76 1,
    time := numAt b 77 1, aec := numAt b 80 4, acre := bit (numAt b 84 4) 0, xlevel := numAt b 88 1,
    cd := (List.range 576).filter (fun v => bit (numAt b (232 + v / 8) 1) (v % 8)) }
  let r0 := recAt b 0
  let s1 := updFn f (fun n0 =>
    let n := putCc (numAt b 64 4) n0
    { n with en := true, cfgOk := true, shn := 0, shst := 0, sqs := sqs, cqs := cqs, feats := x, asqs := numAt r0 4 2, acqs := numAt r0 6 2,
             asq := numAt r0 16 8, acq := numAt r0 24 8 }) s
  let s2 := (List.range (min 2 (resOf f s).cvus)).foldl (fun s m =>
    updCvu (16 + 2 * f + m) (fun _ => blobCvu f (sliceB b (168 + 32 * m) 32)) s) s1
  let s3 := updSlk f (fun a => { a with earlyCnt := numAt b 152 8, heldCnt := numAt b 160 8 }) s2
  let ts := (List.range 16).filter (fun t => bit (numAt b 118 2) t)
  let held := ts.map (fun t => (f, t, Config.freeNat (s.free + t) % 256, Config.freeNat (s.free + 16 + t) % 256))
  { s3 with q := { s3.q with pendAen := s3.q.pendAen.filter (fun p => p.1 != f) ++ held }, free := s3.free + 32 }

/-- Ownership moves with a blob of this device from another stall (R330). -/
def blobMove (src f : Nat) (s : State) : State :=
  { s with zn := { s.zn with zones := Tbl.mapV s.zn.zones (fun _ z => if z.st.active && z.actFn == src then { z with actFn := f } else z) },
           ci := { s.ci with bind := Tbl.mapV s.ci.bind (fun _ b => if b.fn = src then { b with fn := f } else b) } }

/-- Stall Restore. -/
def restoreOn (b : List Byte) (k : Ctx) (s : State) : State :=
  let f := stlFn k.cmd
  if !(isStall f && fnPresent f s) then fin k 0 0x02 s
  else if stallState f s ≠ 2 ∨ !frozen f s ∨ (fnOf f s).en ∨ (fnOf f s).sqs.any (fun q => q.1 != 0) ∨ (fnOf f s).cqs.any (fun q => q.1 != 0) then
    fin k 0 0x0C s
  else match keyAt? k.cmd.fn (bits k.cmd.cdw11.toNat 2 0) s with
    | none => fin k 2 0x86 s
    | some key =>
      match blobFault f key k.cmd.cdw12.toNat b s with
      | some e => postFull k 0 0x02 e 0 [] (raise 0x9042 1 [h1 f, h1 e] s)
      | none =>
        let src := numAt b 12 2
        let s1 := blobLoad f b s
        let s2 := if numAt b 16 8 = Config.devId ∧ src ≠ f then blobMove src f s1 else s1
        ok k (repower (raise 0x9041 1 [h1 f, h1 src, h4 (numAt b 16 8)] s2))

/-! ## The commands -/

/-- A stall command by its opcode. -/
def stallRun (b : List Byte) (k : Ctx) (s : State) : State :=
  if k.cmd.opc = 0xC2 then srOn b k s
  else if k.cmd.opc = 0xC4 then (if bit k.cmd.cdw10.toNat 31 then thawOn k s else freezeOn k s)
  else if k.cmd.opc = 0xC5 then saveOn k s
  else restoreOn b k s

/-- Commands that waited for a Freeze of a stall run in fetch order, each after the one before it has completed (R331). -/
def stallDrain (f : Nat) : Nat → State → State
  | 0, s => s
  | n + 1, s =>
    if s.q.ctxs.any (fun x => x.wait == .freeze f) then s
    else match s.q.ctxs.find? (fun x => x.wait == .stallQ f) with
      | some k => stallDrain f n (stallRun k.data { k with data := [] } s)
      | none => s

/-- Run a stall command now, or after the Freeze of the same stall that is in progress. -/
def stallSerial (b : List Byte) (k : Ctx) (s : State) (run : State) : State :=
  let f := stlFn k.cmd
  if stallBusy f k s then putCtx { k with wait := .stallQ f, data := b } s else run

/-- STALL_RESOURCE_SET. -/
def execStallResourceSet (c : Cmd) (buf : List Byte) (s : State) : Out :=
  done (withCmd c s (fun k s => gateAdmin (c.fn == 0) false k s (fun k s => stallSerial buf k s (srOn buf k s))))

/-- STALL_FREEZE. -/
def execStallFreeze (c : Cmd) (s : State) : Out :=
  doneIo (withCmd c s (fun k s => gateAdmin (isPf c.fn) false k s (fun k s => stallSerial [] k s (freezeOn k s))))

/-- STALL_THAW. -/
def execStallThaw (c : Cmd) (s : State) : Out :=
  done (withCmd c s (fun k s => gateAdmin (isPf c.fn) false k s (fun k s => stallSerial [] k s (thawOn k s))))

/-- STALL_FREEZE_QUIET: the stall holds no command without a completion; its Freezes end, and what waited for them runs. -/
def execStallFreezeQuiet (fn : Nat) (s : State) : Out :=
  doneIo (let t := freezeQuiet fn s; stallDrain fn t.q.ctxs.length t)

/-- STALL_FREEZE_TIMEOUT (R324): the oldest Freeze of the stall with a TIMEOUT ends with 7h/0x87, 0x9032; the stall stays frozen. -/
def execStallFreezeTimeout (fn : Nat) (s : State) : Out :=
  match s.q.ctxs.find? (fun k => k.wait == .freeze fn && bits k.cmd.cdw11.toNat 15 0 != 0) with
  | some k =>
    if quiet fn s then doneIo (freezeQuiet fn s)
    else
      let left := ((ctxsOf fn s).filter (fun x => x.wait != .fenced)).length
      doneIo (let t := fin k 7 0x87 (raise 0x9032 1 [h1 fn, h2 left] s); stallDrain fn t.q.ctxs.length t)
  | none => .next s

/-- STALL_SAVE. -/
def execStallSave (c : Cmd) (s : State) : Out :=
  done (withCmd c s (fun k s => gateAdmin (isPf c.fn) false k s (fun k s => stallSerial [] k s (saveOn k s))))

/-- STALL_RESTORE. -/
def execStallRestore (c : Cmd) (buf : List Byte) (s : State) : Out :=
  done (withCmd c s (fun k s => gateAdmin (isPf c.fn) false k s (fun k s => stallSerial buf k s (restoreOn buf k s))))

end Sys2Proof.Machine
end

