-- ==== Sys2Proof/Machine/Queues.lean ====
section
/-! DEFINITION. Queues: doorbells, arbitration, controller enable, reset and shutdown, queue commands, coalescing, host memory errors
(R221 to R235, R240, R241, R245, R250, R91). -/

namespace Sys2Proof.Machine
open Sys2Proof

/-! ## Doorbells (R223) -/

/-- An invalid doorbell write: 0x6020, and the Error event where a request is outstanding. -/
def badDoorbell (f qid val info : Nat) (s : State) : State :=
  let s1 := raise 0x6020 1 [h1 f, h1 qid, h2 val] s
  if s1.q.ctxs.any (fun k => k.cmd.fn == f && k.wait == .aer) then aenFn f 0 info 1 s1 else s1

/-- SQ_TAIL_DOORBELL: the tail is recorded; a wake event (R374). -/
def execSqTailDoorbell (fn qid val : Nat) (s : State) : Out :=
  if !fnPresent fn s then .next s
  else
    let t := touch fn s
    match Tbl.get? (fnOf fn t).sqs qid with
    | none => done (badDoorbell fn qid val 0 t)
    | some q =>
      if q.size ≤ val then done (badDoorbell fn qid val 1 t)
      else done (updFn fn (fun n => { n with sqs := Tbl.put n.sqs qid { q with tail := val } }) t)

/-- Held completions post as far as there is room; their contexts return (R245). -/
def postHeld (f qid : Nat) (s : State) : State :=
  match Tbl.get? (fnOf f s).cqs qid with
  | none => s
  | some c =>
    c.held.foldl (fun s e =>
      let r := cqPush f e s
      if r.2 then
        (match r.1.q.ctxs.find? (fun k => ctxKey k f e.sqid e.cid && k.wait == .posted) with
         | some k => dropCtx k.seq r.1
         | none => r.1)
      else r.1) (updFn f (fun n => { n with cqs := Tbl.put n.cqs qid { c with held := [] } }) s)

/-- CQ_HEAD_DOORBELL: entries are freed; it never wakes the device. -/
def execCqHeadDoorbell (fn qid val : Nat) (s : State) : Out :=
  if !fnPresent fn s then .next s
  else match Tbl.get? (fnOf fn s).cqs qid with
    | none => done (badDoorbell fn qid val 0 s)
    | some c =>
      if c.size ≤ val then done (badDoorbell fn qid val 1 s)
      else doneIo (postHeld fn qid (updFn fn (fun n => { n with cqs := Tbl.put n.cqs qid { c with head := val } }) s))

/-! ## Arbitration (R230) -/

/-- The function's non-empty SQs, by identifier. -/
def fullSqs (f : Nat) (s : State) : List Nat :=
  ((fnOf f s).sqs.filter (fun q => q.2.head != q.2.tail && sqLive f q.1 s)).map (·.1)

/-- The function could be granted but for a context. -/
def waiting (f : Nat) (s : State) : Bool := mayFetch f s && !(fullSqs f s).isEmpty

/-- The next number of a rising list after one, round robin. -/
def rrNext (last : Nat) (l : List Nat) : Option Nat :=
  match l.find? (fun q => decide (last < q)) with
  | some q => some q
  | none => l.head?

/-- The most grants of a burst: 2^AB, 111b acting as 64. -/
def burstMax (x : Feats) : Nat := 2 ^ min 6 x.ab

/-- Round robin over the admin and I/O SQs alike: the SQ and the burst it is in. -/
def rrPick (n : Fn) (l : List Nat) : Option (Nat × Fn) :=
  if l.contains n.lastSq && (decide (n.burst < burstMax n.feats) || l == [n.lastSq]) then
    some (n.lastSq, { n with burst := min 64 (n.burst + 1) })
  else (rrNext n.lastSq l).map (fun q => (q, { n with lastSq := q, burst := 1 }))

/-- An SQ's class under weighted round robin: 0 urgent, 1 high, 2 medium, 3 low (QPRIO). -/
def sqClass (n : Fn) (q : Nat) : Nat := (Tbl.getD n.sqs q ⟨0, 0, 0, 0, 0, 3⟩).prio

/-- Grant an SQ of a class, a new burst. -/
def grantClass (n : Fn) (cls q : Nat) : Fn :=
  { n with lastSq := q, burst := 1, wrr := setNth n.wrr (if cls = 0 then 6 else cls - 1) q }

/-- Weighted round robin with urgent class: the admin SQ, then the urgent class, then high, medium and low by their credits; each pick is
a burst. Credits are refilled when no waiting class has one; the higher class with credit goes first (DESIGN CHOICE, log 13). -/
def wrrPick (n : Fn) (l : List Nat) : Option (Nat × Fn) :=
  let io := l.filter (· != 0)
  let cls := fun (c : Nat) => io.filter (fun q => sqClass n q == c)
  let goOn := n.lastSq != 0 && io.contains n.lastSq && decide (n.burst < burstMax n.feats)
  if l.contains 0 then some (0, { n with lastSq := 0, burst := 1 })
  else if !(cls 0).isEmpty then
    if goOn && sqClass n n.lastSq == 0 then some (n.lastSq, { n with burst := n.burst + 1 })
    else (rrNext (nth n.wrr 6 0) (cls 0)).map (fun q => (q, grantClass n 0 q))
  else if goOn then some (n.lastSq, { n with burst := n.burst + 1 })
  else
    let live := [1, 2, 3].filter (fun c => !(cls c).isEmpty)
    let full := { n with wrr := [nth n.wrr 0 0, nth n.wrr 1 0, nth n.wrr 2 0, n.feats.hpw + 1, n.feats.mpw + 1, n.feats.lpw + 1, nth n.wrr 6 0] }
    let m := if live.any (fun c => decide (0 < nth n.wrr (c + 2) 0)) then n else full
    match live.find? (fun c => decide (0 < nth m.wrr (c + 2) 0)) with
    | none => none
    | some c =>
      (rrNext (nth m.wrr (c - 1) 0) (cls c)).map (fun q =>
        let g := grantClass m c q
        (q, { g with wrr := setNth g.wrr (c + 2) (nth g.wrr (c + 2) 0 - 1) }))

/-- The function and SQ a fetch slot grants, with the function's arbitration state after it. -/
def slotPick (s : State) : Option (Nat × Nat × Fn) :=
  match rrNext s.q.lastFn ((allFns s).filter (fun f => waiting f s && ctxFree f s)) with
  | none => none
  | some f =>
    let n := fnOf f s
    (if n.ams = 1 then wrrPick n (fullSqs f s) else rrPick n (fullSqs f s)).map (fun r => (f, r.1, r.2))

/-- FETCH_SLOT: one command is fetched. The operand is the entry host memory holds at the head of the granted SQ; which function and SQ
it belongs to is the arbiter's. -/
def execFetchSlot (c : Cmd) (s : State) : Out :=
  let s0 := if (allFns s).any (fun f => waiting f s && !ctxFree f s) then noteExh s else s
  match slotPick s0 with
  | none => done s0
  | some (f, q, n) =>
    let s1 := updFn f (fun _ => n) s0
    done (fetchNow { c with fn := f, sqid := q } { s1 with q := { s1.q with lastFn := f } }).2

/-! ## Enable, reset, shutdown (R224, R240, R241, R91) -/

/-- The field that refuses an enable, by its code of Table 15.8. -/
def enableFault (n : Fn) : Option Nat :=
  match ccFault n with
  | some e => some e
  | none => if n.asqs = 0 then some 6 else if n.acqs = 0 then some 7 else none

/-- CC.EN from 0 to 1: checked; a refused value leaves RDY at 0. An enabled controller begins in state 0; enabling is an access that
wakes the device. Admission that a last shutdown stopped resumes. -/
def enableNow (f : Nat) (s : State) : State :=
  let n := fnOf f s
  let bad := enableFault n
  let s1 := match bad with | some e => raise 0x6001 1 [h1 f, h1 e] s | none => s
  let s2 := updFn f (fun n => { n with
    en := true, cfgOk := bad.isNone, shst := 0,
    sqs := [(0, ⟨n.asqs + 1, n.asq, 0, 0, 0, 0⟩)], cqs := [(0, ⟨n.acqs + 1, n.acq, 0, 0, true, 0, true, [], 0⟩)] }) s1
  let s3 := repower (wake 1 s2)
  if s3.m.cur.ready && s3.m.drain == .none then
    { s3 with jn := { s3.jn with admOff := false }, slk := { s3.slk with admissionOff := false } }
  else s3

/-- Every other function is not enabled or has completed a shutdown. -/
def othersShut (f : Nat) (s : State) : Bool := s.q.fns.all (fun p => p.1 == f || !p.2.en || p.2.shst == 2)

/-- A shutdown begins: fetching stops for the controller; for the last one admission stops device-wide (R91). -/
def shutNow (f : Nat) (s : State) : State :=
  if (fnOf f s).shst ≠ 0 then s
  else
    let s1 := updFn f (fun n => { n with shst := 1 }) s
    if othersShut f s1 then { s1 with jn := { s1.jn with admOff := true }, slk := { s1.slk with admissionOff := true } } else s1

/-- Hold a register write for the end of FW_ACTIVATE (R241). -/
def holdWr (f : Nat) (h : HeldWr) (s : State) : State := updFn f (fun n => { n with held := n.held ++ [h] }) s

/-- A write of CC. While EN = 1 the fields AMS and CSS are ignored (R224). -/
def ccWrite (f v : Nat) (s : State) : State :=
  let n := fnOf f s
  let en := bit v 0
  let shn := bits v 15 14
  let act := s.m.cur == .fwActivate
  let s1 := updFn f (fun n => let m := putCc v n; if n.en && en then { m with ams := n.ams, css := n.css, shn := shn } else { m with shn := shn }) s
  let s2 :=
    if n.en = en then s1
    else if act then holdWr f (.ccEn en) s1
    else if en then enableNow f s1
    else (let t := ctrlReset f s1; updFn f (fun n => { n with shn := shn }) t)
  if shn ≠ 0 ∧ n.shn ≠ shn then (if act then holdWr f (.shn shn) s2 else shutNow f s2) else s2

/-- A held write takes effect as if written at the end of the activation. -/
def heldNow (f : Nat) (h : HeldWr) (s : State) : State :=
  match h with
  | .ccEn v => if (fnOf f s).en = v then s else if v then enableNow f s else ctrlReset f s
  | .flr => if isPf f then pfReset f 1 s else clearCc f (stallReset f 0 s)
  | .shn _ => shutNow f s

/-- CONTROLLER_ENABLE: CC is written with EN = 1. -/
def execControllerEnable (fn : Nat) (cc : Dword) (s : State) : Out :=
  if fnPresent fn s && bit cc.toNat 0 then doneIo (ccWrite fn cc.toNat (touch fn s)) else .next s

/-- CONTROLLER_RESET: CC.EN is written 0, its other fields unchanged. -/
def execControllerReset (fn : Nat) (s : State) : Out :=
  if !(fnPresent fn s && (fnOf fn s).en) then .next s
  else
    let t := touch fn s
    if t.m.cur == .fwActivate then done (holdWr fn (.ccEn false) t) else doneIo (ctrlReset fn t)

/-- FUNCTION_LEVEL_RESET_PF. Configuration requests wake nothing (Table 14.3). -/
def execFunctionLevelResetPf (fn : Nat) (s : State) : Out :=
  if !(isPf fn && fnPresent fn s) then .next s
  else if s.m.cur == .fwActivate then .next (holdWr fn .flr s)
  else doneIo (pfReset fn 1 s)

/-- SHUTDOWN: CC.SHN is written. -/
def execShutdown (fn shn : Nat) (s : State) : Out :=
  if !(fnPresent fn s) || shn % 4 == 0 then .next s
  else
    let t := updFn fn (fun n => { n with shn := shn % 4 }) (touch fn s)
    if t.m.cur == .fwActivate then done (holdWr fn (.shn (shn % 4)) t) else done (shutNow fn t)

/-- Every write the controller has fetched has completed and is durable. -/
def writesDone (f : Nat) (s : State) : Bool :=
  s.zn.wrs.all (fun w => w.fn != f) && (ctxsOf f s).all (fun k => !(k.live && isWriteOpc k.cmd.opc && k.cmd.sqid != 0))

/-- SHUTDOWN_COMPLETE: SHST reads 2h; for the last controller after the drain and the clean-close record. -/
def execShutdownComplete (fn : Nat) (s : State) : Out :=
  if (fnOf fn s).shst ≠ 1 ∨ !writesDone fn s then .next s
  else
    let s1 := updFn fn (fun n => { n with shst := 2 }) s
    if !othersShut fn s then done s1
    else if 0 < useBytes s ∨ s.m.thm = 2 then .next s
    else done (cleanClose { s1 with jn := { s1.jn with admOff := true }, slk := { s1.slk with admissionOff := true } })

/-! ## Queue commands (R222, R223, R235, R250; fields and further statuses as NVMe has them, PRESUMED, log 5) -/

/-- What both Creates check of the identifier and the size: 1h/0x01, 1h/0x02, PC = 1 (CQR), the page offset. -/
def createFault (k : Ctx) (used : Bool) (s : State) : Option (Nat × Nat) :=
  let c := k.cmd
  if qidOf c = 0 ∨ pairsOf c.fn s ≤ qidOf c ∨ used then some (1, 0x01)
  else if qsizeOf c = 0 then some (1, 0x02)
  else if !bit c.cdw11.toNat 0 then some (0, 0x02)
  else if c.dptr % 2 ^ (12 + (fnOf c.fn s).mps) ≠ 0 then some (0, 0x13)
  else none

/-- CREATE_IO_SQ. -/
def createSqOn (k : Ctx) (s : State) : State :=
  let c := k.cmd
  let n := fnOf c.fn s
  let cq := bits c.cdw11.toNat 31 16
  match createFault k (Tbl.get? n.sqs (qidOf c)).isSome s with
  | some e => fin k e.1 e.2 s
  | none =>
    if cq = 0 then fin k 1 0x01 s
    else if (Tbl.get? n.cqs cq).isNone then fin k 1 0x00 s
    else ok k (updFn c.fn (fun n => { n with sqs := Tbl.put n.sqs (qidOf c) ⟨qsizeOf c + 1, c.dptr, 0, 0, cq, bits c.cdw11.toNat 2 1⟩ }) s)

/-- CREATE_IO_SQ. -/
def execCreateIoSq (c : Cmd) (s : State) : Out := done (withCmd c s (fun k s => gateAdmin true true k s createSqOn))

/-- CREATE_IO_CQ: a vector at or above the function's is 1h/0x08. -/
def createCqOn (k : Ctx) (s : State) : State :=
  let c := k.cmd
  let iv := bits c.cdw11.toNat 31 16
  match createFault k (Tbl.get? (fnOf c.fn s).cqs (qidOf c)).isSome s with
  | some e => fin k e.1 e.2 s
  | none =>
    if vectorsOf c.fn s ≤ iv then fin k 1 0x08 s
    else ok k (updFn c.fn (fun n => { n with cqs := Tbl.put n.cqs (qidOf c) ⟨qsizeOf c + 1, c.dptr, 0, 0, true, iv, bit c.cdw11.toNat 1, [], 0⟩ }) s)

/-- CREATE_IO_CQ. -/
def execCreateIoCq (c : Cmd) (s : State) : Out := done (withCmd c s (fun k s => gateAdmin true true k s createCqOn))

/-- DELETE_IO_SQ (R235): undispatched commands end with 0h/0x08, entries not fetched go; the Delete waits for the rest. -/
def deleteSqOn (k : Ctx) (s : State) : State :=
  let f := k.cmd.fn
  let q := qidOf k.cmd
  if q = 0 ∨ !sqLive f q s then fin k 1 0x01 s
  else
    let mine := (ctxsOf f s).filter (fun x => x.cmd.sqid == q && undispatched x s)
    let s1 := mine.foldl (fun s x => fin x 0 0x08 s) s
    putCtx { k with wait := .sqDelete q } (updFn f (fun n => { n with sqs := Tbl.upd n.sqs q (fun x => { x with tail := x.head }) }) s1)

/-- DELETE_IO_SQ. -/
def execDeleteIoSq (c : Cmd) (s : State) : Out := doneIo (withCmd c s (fun k s => gateAdmin true true k s deleteSqOn))

/-- DELETE_IO_CQ: with an SQ still attached 1h/0x0C. -/
def deleteCqOn (k : Ctx) (s : State) : State :=
  let f := k.cmd.fn
  let q := qidOf k.cmd
  if q = 0 ∨ (Tbl.get? (fnOf f s).cqs q).isNone then fin k 1 0x01 s
  else if (fnOf f s).sqs.any (fun x => x.1 != 0 && x.2.cq == q) then fin k 1 0x0C s
  else ok k (updFn f (fun n => { n with cqs := Tbl.del n.cqs q }) s)

/-- DELETE_IO_CQ. -/
def execDeleteIoCq (c : Cmd) (s : State) : Out := done (withCmd c s (fun k s => gateAdmin true true k s deleteCqOn))

/-! ## Coalescing (R228) -/

/-- INTERRUPT_COALESCING_TIME_EXPIRY: entries posted on the vector's queues and not signalled are signalled. -/
def execInterruptCoalescingTimeExpiry (fn vec : Nat) (s : State) : Out :=
  let mine := fun (q : Nat × Cq) => q.1 != 0 && q.2.iv == vec && decide (0 < q.2.coal)
  if (fnOf fn s).cqs.any mine then
    let ien := (fnOf fn s).cqs.any (fun q => mine q && q.2.ien)
    let s1 := updFn fn (fun n => { n with cqs := Tbl.mapV n.cqs (fun i c => if mine (i, c) then { c with coal := 0 } else c) }) s
    done (if ien then signal fn vec s1 else s1)
  else .next s

end Sys2Proof.Machine
end

