-- ==== Sys2Proof/Machine/Admin.lean ====
section
/-! DEFINITION. Identify, standard log pages, Features, asynchronous event requests, Abort, firmware, invalid opcodes (R9, R43, R88, R112,
R221, R222, R228, R236 to R243, R247 to R249, R372, R373, R394). Places of standard fields are NVMe's (PRESUMED, log 5). -/

namespace Sys2Proof.Machine
open Sys2Proof

/-- A buffer of `n` bytes with fields at rising offsets and zeros between. -/
def lay (n : Nat) : Nat → List (Nat × List Byte) → List Byte
  | pos, [] => zeroBytes (n - pos)
  | pos, (o, b) :: t => zeroBytes (o - pos) ++ b ++ lay n (max pos o + b.length) t

/-- Constant bytes of the device that neither the spec nor NVMe fixes: vendor identifier, serial and model numbers, unique
identifiers. -/
def idBytes (o n : Nat) : List Byte := (List.range n).map (fun i => Config.freeByte (2 ^ 40 + o + i))

/-! ## Identify -/

/-- A power state descriptor (Table 14.1): MP in 0.01 W, NOPS, ENLAT, EXLAT, rank, IDLP and ACTP in 0.01 W. -/
def psDesc (mp : Nat) (nops : Bool) (en ex rank idlp actp : Nat) : List Byte :=
  leBytes 2 mp ++ [0] ++ leBytes 1 (2 * b2n nops) ++ leBytes 4 en ++ leBytes 4 ex ++ (List.range 4).flatMap (fun _ => leBytes 1 rank) ++ leBytes 2 idlp ++
    leBytes 1 (if idlp = 0 then 0 else 0x80) ++ [0] ++ leBytes 2 actp ++ leBytes 1 (if actp = 0 then 0 else 0x80) ++ zeroBytes 9

/-- The five descriptors. -/
def psDescs : List Byte :=
  psDesc 7500 false 10 10 0 1200 4800 ++ psDesc 5000 false 10 10 1 1200 4800 ++ psDesc 3000 false 10 10 2 1200 3000 ++
    psDesc 800 true 100 200 3 0 0 ++ psDesc 220 true 10000 6000 3 0 0

/-- Capacity in bytes: the usable QLC capacity, and what no namespace holds. -/
def capTotal (s : State) : Nat := sumN ((List.range 64).map (fun y => yardCapacity y s))
/-- Capacity that namespaces hold. -/
def capUsed (s : State) : Nat := sumN (s.zn.nss.map (fun n => if n.2.conv then n.2.nsze * 4096 else n.2.zones.length * zcapBytes s.fl.geom))

/-- Identify Controller (CNS 01h; Table 8.17). -/
def idCtrl (f : Nat) (s : State) : List Byte :=
  let dual := b2n (fnPresent 1024 s)
  lay 4096 0 [(0, idBytes 0 2), (2, leBytes 2 s.img.ssvid), (4, idBytes 4 60), (64, leBytes 8 s.q.fw.rev), (72, idBytes 72 4),
    (76, leBytes 1 (dual + 2 * b2n (dual == 1 || s.stl.vfEnable) + 4 * b2n (isStall f))), (77, [9]), (78, leBytes 2 (f + 1)),
    (80, leBytes 4 0x00020100), (92, leBytes 4 0x08000300), (111, [1]), (128, leBytes 2 1), (130, leBytes 2 10), (132, leBytes 2 0),
    (256, leBytes 2 (if f = 0 then 0x8E else if f = 1024 then 2 else 0)), (258, [3, 7, 0x14, 0, 63, 4, 0, 1]),
    (266, leBytes 2 (s.img.qlcHi + 273).toNat), (268, leBytes 2 (s.img.slcHi + 273).toNat), (270, leBytes 2 5),
    (280, leBytes 16 (capTotal s)), (296, leBytes 16 (capTotal s - capUsed s)), (319, [8]), (328, leBytes 4 (if isPf f then 0x20000003 else 0x20000000)),
    (512, [0x66, 0x44]), (516, leBytes 4 128), (520, leBytes 2 0x000C), (525, leBytes 1 (if s.m.wt then 6 else 7)), (536, leBytes 4 1),
    (768, idBytes 768 256), (2048, psDescs), (3072, leBytes 8 Config.devId)]

/-- LBA format descriptors (R102): metadata bytes and 4 KiB. -/
def lbaFormats : List Byte := (List.range 4).flatMap (fun i => leBytes 2 (mdLen i) ++ [12, 0])

/-- Identify Namespace (CNS 00h, 11h). With none the capabilities common to all namespaces. -/
def idNs (n : Option Ns) (s : State) : List Byte :=
  let z := fun (g : Ns → Nat) => (n.map g).getD 0
  let bytes := z (fun x => if x.conv then x.nsze * 4096 else x.zones.length * zcapBytes s.fl.geom)
  lay 4096 0 [(0, leBytes 8 (z (·.nsze))), (8, leBytes 8 (bytes / 4096)), (16, leBytes 8 (bytes / 4096)), (25, [3]), (26, leBytes 1 (z (·.lbaf))),
    (27, [3, 0x1F]), (29, leBytes 1 (z (·.pi))), (30, [1]), (33, [1]), (48, leBytes 16 bytes), (128, lbaFormats)]

/-- Identify Namespace of the Zoned Namespace Command Set (Table 4.1, R112). -/
def idZns (f : Nat) (s : State) : List Byte :=
  lay 4096 0 [(0, leBytes 2 0), (2, leBytes 2 1), (4, leBytes 4 (activeLim f s - 1)), (8, leBytes 4 (openLim f s - 1)),
    (2816, (List.range 4).flatMap (fun _ => leBytes 8 0x100000 ++ zeroBytes 8))]

/-- Identify Namespace of the NVM Command Set: guard formats of the LBA formats (Table 11.9). -/
def idNvm : List Byte :=
  lay 4096 0 [(12, leBytes 4 0 ++ leBytes 4 0 ++ leBytes 4 (fld 7 2 (if Config.guard64 then 2 else 1)) ++ leBytes 4 (fld 7 2 2))]

/-- Namespace Identification Descriptors: a unique identifier and the command set. -/
def idDescs (nsid : Nat) (x : Ns) : List Byte :=
  lay 4096 0 [(0, [2, 16, 0, 0] ++ idBytes (65536 + 16 * nsid) 16), (20, [4, 1, 0, 0] ++ leBytes 1 (if x.conv then 0 else 2))]

/-- A list of numbers as 4-byte entries. -/
def list4 (l : List Nat) : List Byte := padTo 4096 ((l.take 1024).flatMap (leBytes 4))
/-- A controller list. -/
def ctrlList (l : List Nat) : List Byte := padTo 4096 (leBytes 2 (l.take 2047).length ++ (l.take 2047).flatMap (fun f => leBytes 2 (f + 1)))

/-- Primary Controller Capabilities (CNS 14h; R221). -/
def idPrimary (f : Nat) (s : State) : List Byte :=
  let st := s.q.fns.filter (fun p => isStall p.1)
  let res := fun (pool priv used : Nat) => leBytes 4 pool ++ leBytes 4 used ++ leBytes 2 0 ++ leBytes 2 priv ++ leBytes 2 513 ++ leBytes 2 1
  if f = 1024 then lay 4096 0 [(0, leBytes 2 0x0401), (2, leBytes 2 1), (42, leBytes 2 (pairsOf f s)), (90, leBytes 2 (vectorsOf f s))]
  else lay 4096 0 [(0, leBytes 2 1), (4, [3]),
    (32, res (8192 - pairsOf 0 s - (if fnPresent 1024 s then 64 else 0)) (pairsOf 0 s) (sumN (st.map (fun p => p.2.vq)))),
    (80, res (16384 - vectorsOf 0 s - (if fnPresent 1024 s then 64 else 0)) (vectorsOf 0 s) (sumN (st.map (fun p => p.2.vi))))]

/-- Secondary Controller List (CNS 15h; R221): the stalls from a controller identifier on. -/
def idSecondary (f cntid : Nat) (s : State) : List Byte :=
  let fs := if f = 0 then (((allFns s).filter isStall).filter (fun g => decide (cntid ≤ g + 1))).take 127 else []
  padTo 4096 (leBytes 1 fs.length ++ zeroBytes 31 ++ fs.flatMap (fun g =>
    leBytes 2 (g + 1) ++ leBytes 2 1 ++ leBytes 1 (b2n (fnOf g s).online) ++ zeroBytes 3 ++ leBytes 2 g ++ leBytes 2 (fnOf g s).vq ++
      leBytes 2 (fnOf g s).vi ++ zeroBytes 18))

/-- What Identify answers: data, or a status. -/
def identifyData (c : Cmd) (s : State) : List Byte ⊕ Nat :=
  let f := c.fn
  let n := c.nsid
  let csi := bits c.cdw11.toNat 31 24
  let at' := fun (g : Ns → List Byte ⊕ Nat) =>
    if n = 0 ∨ 128 < n then .inr 0x0B
    else match nsAt? n s with
      | some x => if x.attached.contains f then g x else .inl (zeroBytes 4096)
      | none => .inl (zeroBytes 4096)
  match cnsOf c with
  | 0x00 => if n = 0xFFFFFFFF then .inl (idNs none s) else at' (fun x => .inl (idNs (some x) s))
  | 0x01 => .inl (idCtrl f s)
  | 0x02 => .inl (list4 ((s.zn.nss.filter (fun x => decide (n < x.1) && x.2.attached.contains f)).map (·.1)))
  | 0x03 => at' (fun x => .inl (idDescs n x))
  | 0x05 => if csi ≠ 0 ∧ csi ≠ 2 then .inr 0x02
      else at' (fun x => if csi = 0 then .inl idNvm else if x.conv then .inr 0x02 else .inl (idZns f s))
  | 0x06 => if csi = 0 then .inl (zeroBytes 4096) else if csi = 2 then .inl (padTo 4096 [9]) else .inr 0x02
  | 0x07 => if csi ≠ 0 ∧ csi ≠ 2 then .inr 0x02
      else .inl (list4 ((s.zn.nss.filter (fun x => decide (n < x.1) && x.2.attached.contains f && x.2.conv == (csi == 0))).map (·.1)))
  | 0x10 => .inl (list4 ((s.zn.nss.filter (fun x => decide (n < x.1))).map (·.1)))
  | 0x11 => if n = 0 ∨ 128 < n then .inr 0x0B else (match nsAt? n s with | some x => .inl (idNs (some x) s) | none => .inl (zeroBytes 4096))
  | 0x12 => if n = 0 ∨ 128 < n then .inr 0x0B
      else .inl (ctrlList ((allFns s).filter (fun g => decide (bits c.cdw10.toNat 31 16 ≤ g + 1) && (match nsAt? n s with | some x => x.attached.contains g | none => false))))
  | 0x13 => .inl (ctrlList ((allFns s).filter (fun g => decide (bits c.cdw10.toNat 31 16 ≤ g + 1))))
  | 0x14 => if isPf f then .inl (idPrimary f s) else .inr 0x02
  | 0x15 => if isPf f then .inl (idSecondary f (bits c.cdw10.toNat 31 16) s) else .inr 0x02
  | 0x1C => .inl (padTo 4096 (leBytes 8 5))
  | _ => .inr 0x02

/-- IDENTIFY. -/
def execIdentify (c : Cmd) (s : State) : Out :=
  done (withCmd c s (fun k s => gateAdmin true true k s (fun k s =>
    match identifyData c s with | .inl d => okData k d s | .inr e => fin k 0 e s)))

/-! ## Log pages -/

/-- Error Information, newest first. Parameter error location and LBA are free. -/
def errPage (f : Nat) (s : State) : List Byte :=
  padTo 4096 ((s.q.errLog.filter (fun e => e.fn == f)).flatMap (fun e =>
    leBytes 8 e.count ++ leBytes 2 e.sqid ++ leBytes 2 e.cid ++ leBytes 2 (2 * e.status) ++ freeBytes 10 s.free ++ leBytes 4 e.nsid ++ zeroBytes 36))

/-- SMART / Health (R35, R394, R452). The counters of NVMe the spec gives no rule for (data units, commands, busy time) are free. -/
def smartPage (f : Nat) (s : State) : List Byte :=
  let w := b2n s.m.warn0 + 2 * b2n s.m.warn1 + 4 * b2n s.m.warn2 + 8 * b2n s.m.warn3 + 16 * b2n s.m.warn4
  let l := s.ts.life
  lay 512 0 [(0, leBytes 1 w), (1, leBytes 2 (sensorK 0 s)), (3, leBytes 1 (availSpare s)), (4, [10]), (5, leBytes 1 (pctUsed s)),
    (32, freeBytes 80 s.free), (112, leBytes 16 l.cycles), (128, leBytes 16 (l.powerUs / 1000000 / 3600)), (144, leBytes 16 s.q.unsafeCount),
    (160, leBytes 16 s.zn.mediaErr), (176, leBytes 16 (Tbl.getD s.q.errCount f 0)), (192, leBytes 4 (min (s.pw.wcUs / 60000000) (2 ^ 32 - 1))),
    (196, leBytes 4 (min (s.pw.ccUs / 60000000) (2 ^ 32 - 1))), (200, (List.range 8).flatMap (fun i => leBytes 2 (sensorK (i + 1) s)))]

/-- Firmware Slot Information: the running slot, the slot activated at the next start if another, the revisions. -/
def fwPage (s : State) : List Byte :=
  let w := s.q.fw
  lay 512 0 [(0, leBytes 1 (w.running + (if w.next = w.running then 0 else 16 * w.next))), (8, w.slots.flatMap (fun x => leBytes 8 (if x.held then x.rev else 0)))]

/-- Supported Log Pages: which identifiers answer for a function. -/
def logIds (f : Nat) (s : State) : List Nat :=
  [0x00, 0x01, 0x02, 0x03, 0x04, 0x81, 0xBF, 0xD5] ++ (if isPf f then [0xD7] ++ (if isRoot s then [0xD3] else []) else [])
/-- Supported Log Pages. -/
def supportPage (f : Nat) (s : State) : List Byte := (List.range 256).flatMap (fun i => leBytes 4 (b2n ((logIds f s).contains i)))

/-- Sanitize Status (R126). Progress while one runs, and Global Data Erased, are free; no time estimates are reported. -/
def sanitizePage (s : State) : List Byte :=
  let prog := if s.m.cur == .sanitize then Config.freeNat s.free % 65536 else 0xFFFF
  leBytes 2 prog ++ leBytes 2 (s.zn.sstat + 256 * b2n (Config.freeBit s.free)) ++ leBytes 4 s.zn.scdw10 ++ List.replicate 24 0xFF ++ zeroBytes 480

/-- Changed Zone List (R119) of a namespace. -/
def changedPage (f n : Nat) (s : State) : List Byte :=
  let l := ((fnOf f s).changed.filter (fun p => p.1 == n)).map (·.2)
  padTo 4096 (leBytes 2 (if 511 < l.length then 0xFFFF else l.length) ++ zeroBytes 6 ++ (l.take 511).flatMap (leBytes 8))

/-- A page read with RAE clear: its events are unmasked, a change list is emptied. -/
def readAck (k : Ctx) (s : State) : State :=
  let f := k.cmd.fn
  if raeOf k.cmd then s
  else
    let s1 := if lidOf k.cmd = 0x04 then updFn f (fun n => { n with chNs := [] }) s
      else if lidOf k.cmd = 0xBF then updFn f (fun n => { n with changed := n.changed.filter (fun p => p.1 != k.cmd.nsid) }) s
      else s
    unmask f (lidOf k.cmd) s1

/-- Get Log Page (R9): a page not supported is 1h/0x09. -/
def logOn (k : Ctx) (s : State) : State :=
  let f := k.cmd.fn
  let reply := fun (d : List Byte) => tick (readAck k (logReply d k s))
  match lidOf k.cmd with
  | 0x00 => reply (supportPage f s)
  | 0x01 => reply (errPage f s)
  | 0x02 => reply (smartPage f s)
  | 0x03 => reply (fwPage s)
  | 0x04 => reply (list4 (if 1024 < (fnOf f s).chNs.length then [0xFFFFFFFF] else (fnOf f s).chNs))
  | 0x81 => reply (sanitizePage s)
  | 0xBF => reply (changedPage f k.cmd.nsid s)
  | 0xD3 => cadLogOn k s
  | 0xD5 => yardLogOn k s
  | 0xD7 => lifeLogOn k s
  | _ => fin k 1 0x09 s

/-- GET_LOG_PAGE. -/
def execGetLogPage (c : Cmd) (s : State) : Out := done (withCmd c s (fun k s => gateAdmin true true k s logOn))

/-! ## Features -/

/-- Number of Queues, DW0: pairs less 2, 0-based, in both halves (R222). -/
def numQueues (f : Nat) (s : State) : Nat := let n := pairsOf f s - 2; n + 65536 * n
/-- The function has an I/O queue. -/
def hasIoQ (f : Nat) (s : State) : Bool := (fnOf f s).sqs.any (fun q => q.1 != 0) || (fnOf f s).cqs.any (fun q => q.1 != 0)

/-- A threshold's key by CDW11: none for a sensor or a type that does not exist (R394). -/
def thKey (v : Nat) : Option Nat := if 8 < bits v 19 16 ∨ 1 < bits v 21 20 then none else some (2 * bits v 19 16 + bits v 21 20)

/-- What Get Features answers: DW0 and data, or none. `d`: the defaults. -/
def featOf (c : Cmd) (d : Bool) (s : State) : Option (Nat × List Byte) :=
  let f := c.fn
  let v := c.cdw11.toNat
  let x := if d then Feats.dflt else (fnOf f s).feats
  let dw := fun (n : Nat) => some (n, [])
  match fidOf c with
  | 0x01 => dw (arbOf x)
  | 0x02 => dw (x.ps + 32 * x.wh)
  | 0x04 => (thKey v).bind (fun k => dw (if d then tmpThr 2048 k s else tmpThr f k s))
  | 0x06 => dw (b2n (x.wce && !s.m.wt))
  | 0x07 => dw (numQueues f s)
  | 0x08 => dw (x.thr + 256 * x.time)
  | 0x09 => if vectorsOf f s ≤ v % 65536 then none else dw (v % 65536 + 65536 * b2n (x.cd.contains (v % 65536)))
  | 0x0A => dw (b2n x.dn)
  | 0x0B => dw x.aec
  | 0x0C => some (b2n x.apste, x.apst.flatMap (leBytes 8))
  | 0x11 => dw (b2n x.noppme)
  | 0x16 => some (0, padTo 512 (leBytes 1 (b2n x.acre)))
  | 0xC0 => dw x.xlevel
  | 0xC5 => if isPf f then some (0, if d then yardLayoutDflt s else yardLayoutBuf s) else none
  | _ => none

/-- GET_FEATURES (R228): current, default (saved reads the default), or capabilities: changeable, not savable. -/
def getFeatOn (k : Ctx) (s : State) : State :=
  let sel := selOf k.cmd
  if 3 < sel then fin k 0 0x02 s
  else match featOf k.cmd (sel == 1 || sel == 2) s with
    | none => fin k 0 0x02 s
    | some r => if sel = 3 then okDw0 k 4 s else postFull k 0 0 r.1 0 r.2 s

/-- GET_FEATURES. -/
def execGetFeatures (c : Cmd) (s : State) : Out := done (withCmd c s (fun k s => gateAdmin true true k s getFeatOn))

/-- A Set Features: SV = 1 is 0h/0x0D; then the Feature's own check and change. -/
def setFeat (c : Cmd) (s : State) (f : Ctx → State → State) : Out :=
  doneIo (withCmd c s (fun k s => gateAdmin true true k s (fun k s => if svOf k.cmd then fin k 0 0x0D s else f k s)))

/-- Change the function's Features and complete. -/
def putFeat (k : Ctx) (g : Feats → Feats) (s : State) : State := ok k (updFn k.cmd.fn (fun n => { n with feats := g n.feats }) s)

/-- SET_FEATURES_ARBITRATION. -/
def execSetFeaturesArbitration (c : Cmd) (s : State) : Out :=
  let v := c.cdw11.toNat
  setFeat c s (fun k s => putFeat k (fun x => { x with ab := bits v 2 0, lpw := bits v 15 8, mpw := bits v 23 16, hpw := bits v 31 24 }) s)

/-- SET_FEATURES_VOLATILE_WRITE_CACHE (R88): WCE = 1 while WT = 1 is 0h/0x02. -/
def execSetFeaturesVolatileWriteCache (c : Cmd) (s : State) : Out :=
  setFeat c s (fun k s => if s.m.wt ∧ bit c.cdw11.toNat 0 then fin k 0 0x02 s else putFeat k (fun x => { x with wce := bit c.cdw11.toNat 0 }) s)

/-- SET_FEATURES_NUMBER_OF_QUEUES (R222). -/
def execSetFeaturesNumberOfQueues (c : Cmd) (s : State) : Out :=
  setFeat c s (fun k s => if hasIoQ c.fn s then fin k 0 0x0C s else okDw0 k (numQueues c.fn s) s)

/-- SET_FEATURES_INTERRUPT_COALESCING. -/
def execSetFeaturesInterruptCoalescing (c : Cmd) (s : State) : Out :=
  setFeat c s (fun k s => putFeat k (fun x => { x with thr := bits c.cdw11.toNat 7 0, time := bits c.cdw11.toNat 15 8 }) s)

/-- SET_FEATURES_INTERRUPT_VECTOR_CONFIG: a vector the function has not is 0h/0x02. -/
def execSetFeaturesInterruptVectorConfig (c : Cmd) (s : State) : Out :=
  let iv := bits c.cdw11.toNat 15 0
  setFeat c s (fun k s =>
    if vectorsOf c.fn s ≤ iv then fin k 0 0x02 s
    else putFeat k (fun x => { x with cd := x.cd.filter (· != iv) ++ (if bit c.cdw11.toNat 16 then [iv] else []) }) s)

/-- SET_FEATURES_WRITE_ATOMICITY: no effect on any write. -/
def execSetFeaturesWriteAtomicity (c : Cmd) (s : State) : Out :=
  setFeat c s (fun k s => putFeat k (fun x => { x with dn := bit c.cdw11.toNat 0 }) s)

/-- SET_FEATURES_ASYNC_EVENT_CONFIG: critical warnings, bits 8, 9 and 27. -/
def execSetFeaturesAsyncEventConfig (c : Cmd) (s : State) : Out :=
  let v := c.cdw11.toNat
  setFeat c s (fun k s => putFeat k (fun x => { x with aec := bits v 9 0 + fld 27 1 (bits v 27 27) }) s)

/-- SET_FEATURES_HOST_BEHAVIOR_SUPPORT (R248). -/
def execSetFeaturesHostBehaviorSupport (c : Cmd) (buf : List Byte) (s : State) : Out :=
  setFeat c s (fun k s => putFeat k (fun x => { x with acre := bit (numAt buf 0 1) 0 }) s)

/-- SET_FEATURES_EXTENSION_LEVEL (R243). -/
def execSetFeaturesExtensionLevel (c : Cmd) (s : State) : Out :=
  let l := bits c.cdw11.toNat 7 0
  setFeat c s (fun k s =>
    if l = 0 ∨ 3 < l then fin k 0 0x02 s
    else if (fnOf c.fn s).sqs.any (fun q => q.1 != 0) then fin k 0 0x0C s
    else putFeat k (fun x => { x with xlevel := l }) (raise 0x6002 0 [h1 c.fn, h1 l] s))

/-- SET_FEATURES_POWER_MANAGEMENT (R372, R373). -/
def execSetFeaturesPowerManagement (c : Cmd) (s : State) : Out :=
  let v := c.cdw11.toNat
  setFeat c s (fun k s =>
    if 4 < bits v 4 0 then fin k 0 0x02 s
    else putFeat k (fun x => { x with wh := bits v 7 5 }) (repower (setFnPs c.fn (bits v 4 0) s)))

/-- SET_FEATURES_APST (R372): an entry naming a state that does not exist is 0h/0x02. -/
def execSetFeaturesApst (c : Cmd) (buf : List Byte) (s : State) : Out :=
  let es := (List.range 32).map (fun i => let e := numAt buf (8 * i) 8; fld 3 5 (bits e 7 3) + fld 8 24 (bits e 31 8))
  setFeat c s (fun k s =>
    if es.any (fun e => decide (4 < bits e 7 3)) then fin k 0 0x02 s
    else putFeat k (fun x => { x with apste := bit c.cdw11.toNat 0, apst := es }) s)

/-- SET_FEATURES_NOPSC: NOPPME. -/
def execSetFeaturesNopsc (c : Cmd) (s : State) : Out :=
  setFeat c s (fun k s => putFeat k (fun x => { x with noppme := bit c.cdw11.toNat 0 }) s)

/-- SET_FEATURES_TEMPERATURE_THRESHOLD (R394): TMPSEL 1111b sets every sensor. -/
def execSetFeaturesTemperatureThreshold (c : Cmd) (s : State) : Out :=
  let v := c.cdw11.toNat
  let keys := if bits v 19 16 = 15 ∧ bits v 21 20 ≤ 1 then (List.range 9).map (fun n => 2 * n + bits v 21 20) else (thKey v).toList
  setFeat c s (fun k s =>
    if keys.isEmpty then fin k 0 0x02 s
    else putFeat k (fun x => { x with tmpth := keys.foldl (fun t q => Tbl.put t q (v % 65536)) x.tmpth }) s)

/-- APST_IDLE_EXPIRY (R372): an idle controller takes the state its present state's entry names. Outstanding Asynchronous Event Requests
do not end idleness (log 14). -/
def execApstIdleExpiry (fn : Nat) (s : State) : Out :=
  let n := fnOf fn s
  let e := nth n.feats.apst n.feats.ps 0
  let idle := (ctxsOf fn s).all (fun k => k.wait == .aer) && n.sqs.all (fun q => q.2.head == q.2.tail)
  if n.en && n.feats.apste && bits e 31 8 != 0 && idle && bits e 7 3 != n.feats.ps then done (repower (setFnPs fn (bits e 7 3) s)) else .next s

/-! ## Asynchronous Event Request, Abort -/

/-- ASYNCHRONOUS_EVENT_REQUEST: at most 8 outstanding; held events are delivered. -/
def execAsynchronousEventRequest (c : Cmd) (s : State) : Out :=
  done (withCmd c s (fun k s => gateAdmin true true k s (fun k s =>
    if 8 ≤ ((ctxsOf c.fn s).filter (fun x => x.wait == .aer)).length then fin k 1 0x05 s
    else deliverAen c.fn 1 (putCtx { k with wait := .aer } s))))

/-- Aborts of the function that have no completion posted, another than this. -/
def abortsOut (k : Ctx) (s : State) : Nat :=
  ((ctxsOf k.cmd.fn s).filter (fun x => x.seq != k.seq && x.cmd.sqid == 0 && x.cmd.opc == 0x08 && x.wait != .fenced)).length

/-- Abort's decision (R238, R239). -/
def abortOn (k : Ctx) (s : State) : State :=
  let sq := bits k.cmd.cdw10.toNat 15 0
  let cid := bits k.cmd.cdw10.toNat 31 16
  if 4 ≤ abortsOut k s then fin k 1 0x03 s
  else if k.cmd.fn ≠ 0 then okDw0 k 1 s
  else match (s.q.ctxs.filter (fun x => x.seq != k.seq && ctxKey x 0 sq cid)).find? (fun x => undispatched x s) with
    | some x =>
      let s1 := fin x 0 0x07 (dropPasses (fun p => p.ctx == some x.seq) s)
      okDw0 k 0 (raise 0x6010 0 [h1 0, h1 sq, h1 cid] s1)
    | none => okDw0 k 1 s

/-- ABORT. -/
def execAbort (c : Cmd) (s : State) : Out := doneIo (withCmd c s (fun k s => gateAdmin true true k s abortOn))

/-! ## Firmware (R242, R43) -/

/-- FIRMWARE_IMAGE_DOWNLOAD: parts of 32 KiB granularity within 16 MiB, none overlapping. -/
def execFirmwareImageDownload (c : Cmd) (s : State) : Out :=
  let len := (c.cdw10.toNat + 1) * 4
  let off := c.cdw11.toNat * 4
  done (withCmd c s (fun k s => gateAdmin (c.fn == 0) false k s (fun k s =>
    if len % 32768 ≠ 0 ∨ off % 32768 ≠ 0 ∨ 16777216 < off + len then fin k 0 0x02 s
    else if s.q.fw.parts.any (fun p => decide (off < p.1 + p.2 ∧ p.1 < off + len)) then fin k 1 0x14 s
    else ok k { s with q := { s.q with fw := { s.q.fw with parts := s.q.fw.parts ++ [(off, len)] } } })))

/-- The parts downloaded make an image without a gap. -/
def imageWhole (l : List (Nat × Nat)) : Bool := !l.isEmpty && sumN (l.map (·.2)) == l.foldl (fun m p => max m (p.1 + p.2)) 0

/-- Firmware Commit's checks, and what needs no image check. A Commit that activates without reset counts as an activation in progress
from its acceptance (DEDUCED, log 16); what was downloaded counts for one Commit only (log 42). -/
def commitOn (k : Ctx) (s : State) : State :=
  let w := s.q.fw
  let ca := bits k.cmd.cdw10.toNat 5 3
  let fs := bits k.cmd.cdw10.toNat 2 0
  let slot := if fs = 0 then 3 - w.running else fs
  if 4 ≤ ca then fin k 0 0x02 s
  else if 2 < fs then fin k 1 0x06 s
  else if w.act.isSome || w.commit.any (fun e => e.2.2 == 3) then fin k 1 0x13 s
  else if ca = 2 then
    let s1 := { s with q := { s.q with fw := { w with parts := [] } } }
    if (nth w.slots (slot - 1) ⟨false, 0⟩).held then fin k 1 0x0B { s1 with q := { s1.q with fw := { s1.q.fw with next := slot } } } else fin k 1 0x07 s1
  else if !imageWhole w.parts then fin k 1 0x07 { s with q := { s.q with fw := { w with parts := [] } } }
  else putCtx { k with wait := .fwCommit } { s with q := { s.q with fw := { w with parts := [], commit := w.commit ++ [(k.seq, slot, ca)] } } }

/-- A Firmware Commit command. -/
def commitCmd (c : Cmd) (s : State) : Out := done (withCmd c s (fun k s => gateAdmin (c.fn == 0) false k s commitOn))

/-- FW_COMMIT_REPLACE: CA 000b. -/
def execFwCommitReplace (c : Cmd) (s : State) : Out := commitCmd c s
/-- FW_COMMIT_REPLACE_ACTIVATE_NEXT: CA 001b. -/
def execFwCommitReplaceActivateNext (c : Cmd) (s : State) : Out := commitCmd c s
/-- FW_COMMIT_ACTIVATE_NEXT: CA 010b. -/
def execFwCommitActivateNext (c : Cmd) (s : State) : Out := commitCmd c s
/-- FW_COMMIT_ACTIVATE_NOW: CA 011b. -/
def execFwCommitActivateNow (c : Cmd) (s : State) : Out := commitCmd c s

/-- End a firmware command whose context may be gone with a reset (R240). -/
def endFw (q sct sc : Nat) (s : State) : State := match ctxAt q s with | some k => fin k sct sc s | none => s

/-- FW_COMMIT_CHECK_DONE: the oldest Commit's image is written and its signature checked; `rev`: the image's revision. -/
def execFwCommitCheckDone (ok : Bool) (rev : Nat) (s : State) : Out :=
  let w := s.q.fw
  match w.commit with
  | [] => .next s
  | (q, slot, ca) :: rest =>
    if !(s.m.cur.isBase || s.m.cur == .sanitize) then .next s
    else
      let s1 := { s with q := { s.q with fw := { w with commit := rest } } }
      if !ok then doneIo (endFw q 1 0x07 s1)
      else
        let s2 := { s1 with q := { s1.q with fw := { s1.q.fw with slots := setNth w.slots (slot - 1) ⟨true, rev⟩, next := if ca = 1 then slot else w.next } } }
        if ca = 0 then doneIo (endFw q 0 0 s2)
        else if ca = 1 then doneIo (endFw q 1 0x0B s2)
        else if s.m.cur == .sanitize then doneIo (endFw q 0 0x1D s2)
        else
          let s3 := aenAll 9 2 1 3 s2
          let s4 := { s3 with q := { s3.q with fw := { s3.q.fw with act := some (q, slot, s.tm.elapsed) },
                                               ctxs := s3.q.ctxs.map (fun k => if k.seq = q ∧ k.wait = .fwCommit then { k with wait := .fwActivate } else k) } }
          doneIo (raise 0x6040 1 [h1 slot, h4 rev] (setMode .fwActivate s4))

/-- FW_ACTIVATION_END (R242, R43, R241, R365): CUR leaves 0xA, the Commit completes, held register writes take effect, a TEST port entry
that waited begins its drain (R32). -/
def execFwActivationEnd (ok : Bool) (s : State) : Out :=
  match s.q.fw.act with
  | none => .next s
  | some (q, slot, at0) =>
    if s.m.cur != .fwActivate then .next s
    else
      let w := s.q.fw
      let rev := (nth w.slots (slot - 1) ⟨false, 0⟩).rev
      let s1 := { s with q := { s.q with fw := if ok then { w with act := none, running := slot, next := slot, rev := rev } else { w with act := none } },
                         cad := { s.cad with absent := true } }
      let s2 := setMode (baseMode s1) (if ok then s1 else raise 0x1060 2 [h4 rev] s1)
      let s3 := endFw q (if ok then 0 else 1) (if ok then 0 else 7) (raise 0x6041 1 [h2 ((s.tm.elapsed - at0) / 1000)] s2)
      let s4 := (allFns s3).foldl (fun s f =>
        (fnOf f s).held.foldl (fun s h => heldNow f h s) (updFn f (fun n => { n with held := [] }) s)) s3
      doneIo (if s4.m.testPend then
        proofInterrupt false { s4 with m := { s4.m with drain := .testPort, testPend := false }, slk := { s4.slk with admissionOff := true } } else s4)

/-! ## Others -/

/-- HOST_MEMORY_ERROR: the host transfer of a command fails: 0h/0x04. An accepted write keeps its range as unreadable (R118,
R132), but one of a zone reset meanwhile is discarded; a Half-hitch Append is not accepted; a Gather Read stops at its first
beat (R261). -/
def execHostMemoryError (fn sqid cid : Nat) (s : State) : Out :=
  match ctxNamed fn sqid cid s with
  | none => .next s
  | some k => match k.wait with
    | .write id => (match wrAt id s with
      | some w =>
        if w.ready then .next s
        else doneIo (fin k 0 0x04 (if w.discarded then discardWrite id s else failWrite id s))
      | none => .next s)
    | .halfHitch => doneIo (fin k 0 0x04 s)
    | .read _ => doneIo (fin k 0 0x04 s)
    | .hhRead => doneIo (fin k 0 0x04 s)
    | .gather ch => doneIo (fin k 0 0x04 (dropChan ch s))
    | _ => .next s

/-- INVALID_COMMAND_OPCODE: 0h/0x01; a Set Features of a Feature that is not supported is 0h/0x02 (R9, R226). -/
def execInvalidCommandOpcode (c : Cmd) (s : State) : Out :=
  done (withCmd c s (fun k s =>
    if c.sqid = 0 ∧ c.opc = 0x09 then gateAdmin true true k s (fun k s => fin k 0 0x02 s) else gateForm false k s (fun _ s => s)))

end Sys2Proof.Machine
end

