-- ==== Sys2Proof/Machine/Image.lean ====
section
/-! DEFINITION. The configuration image: header, check word, sections, fields and the choice of a slot (R53 to R61, Tables 2.5 to 2.8). -/

namespace Sys2Proof.Machine
open Sys2Proof

/-- A section of an image: TYPE, OPTIONAL, its value. -/
structure Sect where
  typ : Nat
  optional : Bool
  val : List Byte
deriving DecidableEq, Repr

/-- The sections between offset 0x10 and LEN − 4, in order; none when one runs past the end or has a VLEN that is no multiple of 4. -/
def sections : Nat → List Byte → Option (List Sect)
  | 0, l => if l.isEmpty then some [] else none
  | n + 1, l =>
    if l.isEmpty then some []
    else
      let vlen := numAt l 2 2
      if l.length < 4 ∨ vlen % 4 ≠ 0 ∨ l.length < 4 + vlen then none
      else (sections n (l.drop (4 + vlen))).map (fun t => ⟨numAt l 0 1, bit (numAt l 1 1) 0, (l.drop 4).take vlen⟩ :: t)

/-- VLEN of a section TYPE in a format; none when the format does not define the TYPE (Table 2.6). -/
def vlenOf (fmt t : Nat) : Option Nat :=
  if t = 1 ∨ t = 2 ∨ t = 3 ∨ t = 5 then some 8
  else if t = 4 then some (if fmt = 3 then 24 else 16)
  else if t = 6 ∧ 2 ≤ fmt then some 8
  else if t = 7 ∧ 2 ≤ fmt then some 4
  else if t = 8 ∧ fmt = 3 then some 8
  else none

/-- The sections of types the format defines, or none when R56 makes the slot invalid: an unknown TYPE that is not optional, a wrong
VLEN, a TYPE twice. -/
def knownSects (fmt : Nat) (l : List Sect) : Option (List Sect) :=
  let known := l.filter (fun x => (vlenOf fmt x.typ).isSome)
  if l.any (fun x => (vlenOf fmt x.typ).isNone && !x.optional) then none
  else if known.any (fun x => vlenOf fmt x.typ != some x.val.length) then none
  else if (known.map (·.typ)).dedup.length ≠ known.length then none
  else some known

/-- A value lies in a range. -/
def within (lo hi v : Nat) : Bool := decide (lo ≤ v ∧ v ≤ hi)
/-- A signed value lies in a range. -/
def withinI (lo hi v : Int) : Bool := decide (lo ≤ v ∧ v ≤ hi)

/-- Take a section's fields (Table 2.7); none when one is outside its range (R57). -/
def takeSect (p : Part) (fmt : Nat) (x : Sect) (i : Img) : Option Img :=
  let n := fun o k => numAt x.val o k
  let sb := fun o => signed8 (n o 1)
  if x.typ = 1 then
    if n 4 1 ≤ 3 ∧ n 5 1 ≤ 2 then some { i with ssvid := n 0 2, ssid := n 2 2, maxRate := n 4 1, widthCap := n 5 1, pm := n 6 1 % 4 } else none
  else if x.typ = 2 then
    if within 0 1023 (n 0 2) && within 1 8192 (n 2 2) then some { i with totalVfs := n 0 2, pfQueues := n 2 2, portbPf := bit (n 4 1) 0 } else none
  else if x.typ = 3 then
    if within 500 950 (n 0 2) && within 100 5000 (n 2 2) && within 5000 40000 (n 4 2) then
      some { i with derate := n 0 2, chgTimeout := n 2 2, vcut := n 4 2 } else none
  else if x.typ = 4 then
    let pd := n 0 4
    let okPd := pd = 0 ∨ (within 4096 65536 pd ∧ pd % 4096 = 0)
    let okSp := n 4 2 = 0 ∨ 552 * pd ≤ n 4 2 * 4096
    if okPd ∧ okSp ∧ n 12 1 ≤ 64 ∧ n 13 1 ≤ 16 ∧ (n 14 1 = 0 ∨ n 14 1 = 3 ∨ n 14 1 = 4) ∧ n 15 1 ≤ 1 then
      some { i with pageData := pd, spare := n 4 2, pagesPerBlock := n 6 2, blocksPerLun := n 8 4, lunsPerCh := n 12 1, planes := n 13 1,
                    cell := n 14 1, xmode := n 15 1, xmodeMask := if fmt = 3 then n 16 8 else 2 ^ 64 - 1 } else none
  else if x.typ = 5 then
    if withinI 70 105 (sb 0) && withinI 40 85 (sb 1) && withinI 0 (sb 3) (sb 2) && withinI (sb 2) 85 (sb 3) && withinI (-10) (sb 5) (sb 4) &&
        withinI (sb 4) 95 (sb 5) then
      some { i with tjThrottle := sb 0, tfThrottle := sb 1, qlcLo := sb 2, qlcHi := sb 3, slcLo := sb 4, slcHi := sb 5 } else none
  else if x.typ = 6 then
    let f := n 0 1
    if within 1 2 (n 1 1) && within 0 1023 (n 2 2) && (bit f 2 || n 4 4 == 0) then
      some { i with cadEnable := bit f 0, cadRoot := bit f 1, cadHub := bit f 2, protoMax := n 1 1, addr := n 2 2, downMask := n 4 4 } else none
  else if x.typ = 7 then
    if within 100 10000 (n 0 2) then some { i with budget := n 0 2 } else none
  else
    let d := Img.dflt p
    if within (n 4 4) d.padMax (n 0 4) && within d.padMin (n 0 4) (n 4 4) then some { i with padMax := n 0 4, padMin := n 4 4 } else none

/-- What reading a slot finds: its status (Table 2.8), SEQ, FMT, the fields, and which TYPEs took defaults. -/
structure SlotRead where
  st : Nat
  seq : Nat
  fmt : Nat
  img : Img
  dflt : Nat
deriving DecidableEq, Repr

/-- Read a slot's image (R58): the checks in the order of Table 2.8. -/
def readSlot (p : Part) (sfdpOk : Bool) (slot : List Byte) : SlotRead :=
  let n := fun o k => numAt slot o k
  let len := n 8 4
  let seq := n 12 4
  let fmt := n 4 1
  let bad := fun (st : Nat) => (⟨st, if st ≤ 2 then 0 else seq, 0, Img.dflt p, 0⟩ : SlotRead)
  if !sfdpOk then bad 1
  else if n 0 4 ≠ 0x43585A44 ∨ n 6 2 ≠ 16 then bad 2
  else if fmt < 1 ∨ 3 < fmt then bad 3
  else if len % 4 ≠ 0 ∨ len < 20 ∨ 65536 < len then bad 4
  else if seq = 0 ∨ seq = 0xFFFFFFFF then bad 5
  else if crcOf 1 (sliceB slot 0 (len - 4)) ≠ n (len - 4) 4 then bad 6
  else match (sections (len / 4) ((sliceB slot 0 (len - 4)).drop 16)).bind (knownSects fmt) with
    | none => bad 7
    | some l =>
      match l.foldl (fun o x => o.bind (takeSect p fmt x)) (some (Img.dflt p)) with
      | none => bad 7
      | some i => ⟨0, seq, fmt, i, sumN ((List.range 8).map (fun t => if l.any (fun x => x.typ == t + 1) then 0 else 2 ^ t))⟩

end Sys2Proof.Machine
end

