-- ==== Sys2Proof/Machine/Studbook.lean ====
section
/-! DEFINITION. The Studbook's rows: placing, persisting, Studbook Read and the window (R400 to R408). -/

namespace Sys2Proof.Machine
open Sys2Proof

/-- STUDBOOK_RECORD_PLACE: the front event of the queue is placed. -/
def execStudbookRecordPlace (s : State) : Out := done (placeFront s)

/-- STUDBOOK_PERSIST: the dirty groups are programmed into both journal copies, where persistence does not wait (R403, R405). -/
def execStudbookPersist (s : State) : Out := if mayPersist s then done (persistNow s) else .next s

/-! ## Studbook Read (R408) -/

/-- Records in ascending SEQ order. -/
def bySeq (b : Stb) (l : List Rec) : List Rec := l.insertionSort (fun x y => seqAge b y.seq ≤ seqAge b x.seq)

/-- The records a Studbook Read selects. -/
def studbookPick (c : Cmd) (s : State) : List Rec :=
  let w := c.cdw11.toNat
  let b := s.stb
  let span := (b.seqNext + 2 ^ 32 - c.cdw10.toNat) % 2 ^ 32
  (bySeq b ((b.ring.map (·.2)).filter (fun r =>
    decide (seqAge b r.seq ≤ span) && decide (bits w 16 15 ≤ r.sev) && (!bit w 21 || r.code / 4096 == bits w 20 17)))).take (bits w 14 0 + 1)

/-- The data of a Studbook Read: its header, the records, zeros. -/
def studbookData (c : Cmd) (s : State) : List Byte :=
  let l := studbookPick c s
  let b := s.stb
  leBytes 4 b.seqNext ++ leBytes 4 l.length ++ leBytes 4 (seqOld b) ++ leBytes 4 b.dropFull ++ leBytes 8 (stampNow s) ++ leBytes 2 b.ring.length ++
    zeroBytes 6 ++ l.flatMap recBytes ++ zeroBytes (32 * (bits c.cdw11.toNat 14 0 + 1 - l.length))

/-- STUDBOOK_READ. -/
def execStudbookRead (c : Cmd) (s : State) : Out :=
  done (withCmd c s (fun k s => gateAdmin (isPf c.fn) true k s (fun k s =>
    if bits c.cdw11.toNat 31 22 ≠ 0 then fin k 0 0x02 s
    else postFull k 0 0 (studbookPick c s).length 0 (studbookData c s) s)))

/-! ## The window (R406, R407) -/

/-- The window of a view: 0 the Owner PF's, otherwise the port B PF's. -/
def winOf (view : Nat) (s : State) : StbWin := if view = 0 then s.stb.winA else s.stb.winB
/-- Change a view's window. -/
def updWin (view : Nat) (g : StbWin → StbWin) (s : State) : State :=
  { s with stb := if view = 0 then { s.stb with winA := g s.stb.winA } else { s.stb with winB := g s.stb.winB } }

/-- The live bytes of a window slot. -/
def slotBytes (view i : Nat) (s : State) : List Byte :=
  let w := winOf view s
  let r := if w.src then (if i < 64 then s.stb.early[i]? else none) else Tbl.get? s.stb.ring ((w.base + i) % ringSize)
  match r with | some r => recBytes r | none => zeroBytes 32

/-- Latch a slot for a view, at the read of its first dword. -/
def latchSlot (view i : Nat) (s : State) : State := updWin view (fun w => { w with latch := some (i, slotBytes view i s) }) s

/-- Bytes of a window slot as a read of it returns them, past the first dword: the latch if this slot is the latched one. -/
def slotRead (view i : Nat) (s : State) : List Byte :=
  match (winOf view s).latch with
  | some (j, l) => if j = i then l else slotBytes view i s
  | none => slotBytes view i s

end Sys2Proof.Machine
end

