-- ==== Sys2Proof/Machine/Registers.lean ====
section
/-! DEFINITION. The register spaces as software reads and writes them: access codes and widths (R14 to R19), the read shadows of R18, BAR0
(Table 8.1), the TXS (Table 1.10), the stall page (Table 1.11), and the rows that are writes or reads of one register. -/

namespace Sys2Proof.Machine
open Sys2Proof

/-- A register: its offset in its space, its bytes, its value as a read returns it. -/
structure Reg where
  off : Nat
  bytes : Nat
  val : State → Nat

/-- A 32-bit register. -/
def r4 (o : Nat) (v : State → Nat) : Reg := ⟨o, 4, v⟩
/-- A 64-bit register. -/
def r8 (o : Nat) (v : State → Nat) : Reg := ⟨o, 8, v⟩
/-- A signed value in a field of 16 bits. -/
def sgn16 (t : Int) : Nat := toBits 16 t
/-- A signed value in a field of 8 bits. -/
def sgn8 (t : Int) : Nat := toBits 8 t

/-! ## What the TXS reads (Tables 1.7 to 15.5) -/

/-- TXS_ID. -/
def regId (s : State) : Nat := s.part.part + 0x3142 * 65536
/-- Identity and versions (Tables 1.12 to 1.15). -/
def identRegs : List Reg := [
  r4 0x0 regId,
  r4 0x4 (fun s => s.part.channels + fld 7 3 s.part.sheds + fld 10 1 (b2n s.part.gradeX) + fld 11 1 (b2n s.pins.strapDual)),
  r4 0x8 (fun _ => 3 + fld 8 8 2 + fld 16 8 3),
  r8 0x10 (fun s => s.q.fw.rev)]

/-- TXS_MODE (Table 1.7). -/
def regMode (s : State) : Nat :=
  s.m.cur.code + fld 4 1 (b2n s.tm.tsrc) + fld 5 1 (b2n s.m.wt) + fld 6 2 s.m.thm + fld 8 1 (b2n s.m.sparesOut) + fld 12 4 s.m.prev.code
    + fld 16 16 s.m.chgCnt
/-- TXS_START (Table 2.10). -/
def regStart (s : State) : Nat :=
  let t := s.st
  b2n t.cfgDefaulted + fld 1 1 t.slot + fld 2 3 t.slotASt + fld 5 3 t.slotBSt + fld 8 2 t.imgFmt + fld 10 8 t.secDflt + fld 18 1 (b2n t.unsafeSd)
    + fld 19 1 (b2n t.flushShort) + fld 20 1 (b2n t.jfault) + fld 21 1 (b2n t.geomMismatch) + fld 22 1 (b2n t.jcopy)
/-- Mode and start-up. -/
def modeRegs : List Reg := [
  r4 0x1000 regMode, r8 0x1008 (fun s => s.m.stamp), r4 0x1010 regStart,
  r4 0x1014 (fun s => b2n s.pins.strapDual + fld 1 1 (b2n s.pins.strapTest) + fld 2 1 (b2n s.pins.strapNoimg)),
  r4 0x1018 (fun s => s.st.seqA), r4 0x101C (fun s => s.st.seqB),
  r8 0x1020 (fun s => fld 0 16 s.st.imgUs + fld 16 16 s.st.proofMs + fld 32 24 s.st.recovMs)]

/-- Slack (Tables 3.4 to 3.9). -/
def slkRegs : List Reg := [
  r4 0x2000 (fun s => fld 1 1 (b2n s.slk.noEarly)), r4 0x2004 slkStat, r8 0x2008 slkAmt, r8 0x2010 slkBank, r8 0x2018 slkCal,
  r8 0x2020 (fun s => s.slk.proofStamp), r8 0x2028 (fun s => s.slk.earlyCnt), r8 0x2030 (fun s => s.slk.heldCnt), r8 0x2038 slkLast]

/-- CAD_STAT (Table 13.10). -/
def regCadStat (s : State) : Nat :=
  let c := s.cad
  let i := s.img
  b2n i.cadEnable + fld 1 1 (b2n i.cadRoot) + fld 2 1 (b2n i.cadHub) + fld 3 1 (b2n c.lock) + fld 4 2 (if isRoot s then 0 else c.depth)
    + fld 6 2 c.maxDepth + fld 8 4 (if c.lock then c.ver else 0) + fld 12 4 c.nextVer + fld 16 4 i.protoMax + fld 20 1 (b2n (absentNow s))
    + fld 21 1 (b2n (allQuiet s)) + fld 22 1 (b2n (busyTurn s)) + fld 23 1 (b2n (breaking s)) + fld 24 8 c.token
/-- A value that reads 0 on a device that is no root (R368). -/
def rootVal (v : State → Nat) (s : State) : Nat := if isRoot s then v s else 0
/-- Present addresses. -/
def cadPresent (s : State) : List Nat := (s.cad.parts.filter (fun p => p.2.present)).map (·.1)
/-- Cadence (Table 13.10). -/
def cadRegs : List Reg := [
  r4 0x3000 (fun s => fld 1 1 (b2n s.cad.pfOnPwrfail)), r4 0x3004 regCadStat, r8 0x3008 stampNow, r4 0x3010 (fun s => s.img.addr),
  r4 0x3014 (fun s => s.img.downMask), r4 0x3018 (fun s => s.cad.downLink), r4 0x3020 (fun s => s.cad.hdrErr),
  r4 0x3024 (fun s => fld 0 16 s.cad.losses + fld 16 16 s.cad.resyncs), r8 0x3028 (fun s => s.cad.brkCnt),
  r4 0x3030 (fun s => b2n s.cad.loaded + fld 1 10 (busyTurns s.cad.sched) + fld 11 1 (b2n s.cad.pendSched.isSome)),
  r4 0x3034 (fun s => sumN (s.cad.stage.map (fun c => 2 ^ c.1))), r8 0x3038 (fun s => match s.cad.pendSched with | some p => p.2 % 2 ^ 40 | none => 0)]
  ++ (List.range 4).map (fun j => r4 (0x3040 + 4 * j) (fun s => sumN ((List.range 8).map (fun i => fld (4 * i) 4 (Tbl.getD s.cad.phases (8 * j + i) 0)))))
  ++ [r4 0x3050 (fun s => fld 0 16 s.cad.cmdDone + fld 16 16 s.cad.cmdUnknown), r8 0x3058 (fun s => s.cad.pollCnt),
  ⟨0x3080, 128, fun s => leNat s.cad.sched⟩, ⟨0x3100, 128, fun s => s.cad.map⟩,
  r4 0x3200 (rootVal (fun s => s.cad.rootDepthNext + fld 8 8 s.cad.rootTok)), r8 0x3208 (rootVal (fun s => s.tm.epoch)),
  r4 0x3210 (rootVal (fun s => s.cad.rootCmd)), r4 0x3214 (rootVal (fun s => s.cad.rootArg)),
  r4 0x3218 (rootVal (fun s => fld 0 11 (cadPresent s).length + fld 11 1 (b2n (s.cad.sendLeft != 0)) + fld 12 4 (verMin s)
    + fld 16 5 (s.cad.dels.filter (·.begun)).length)),
  ⟨0x3300, 128, rootVal (fun s => sumN ((cadPresent s).map (fun a => 2 ^ a)))⟩]

/-- PWR_STAT (Table 14.8). -/
def regPwrStat (s : State) : Nat :=
  let p := s.pw
  fld 0 3 p.ps + fld 3 1 (b2n (p.entering != 0)) + fld 4 1 (b2n p.exiting) + fld 5 1 (b2n (entryWait s)) + fld 6 1 (b2n (decide (min p.f p.t < 64)))
    + fld 7 1 (b2n p.floor) + fld 8 1 (b2n (tokenLim s)) + fld 16 7 p.f + fld 23 7 p.t
/-- Power (Table 14.8). PWR_RES counts up to the moment of the read (R386). -/
def pwrRegs : List Reg := [
  r4 0x4000 regPwrStat, r4 0x4004 (fun s => fld 0 16 (pLim s) + fld 16 16 s.img.budget), r4 0x4008 (fun s => fld 0 16 s.pw.pWin + fld 16 16 s.pw.pPeak),
  r4 0x400C (fun s => b2n s.pw.noNonop), r4 0x4010 (fun s => fld 0 4 s.pw.wakeCause + fld 4 1 (b2n s.pw.duringEntry) + fld 5 1 (b2n s.pw.retLost)),
  r4 0x4014 (fun s => fld 0 16 s.pw.refCnt + fld 16 4 s.pw.refBlock), r8 0x4018 (fun s => fld 0 32 s.pw.ent3 + fld 32 32 s.pw.ent4),
  r8 0x4020 (fun s => fld 0 32 s.pw.entryUs + fld 32 32 s.pw.exitUs)]
  ++ (List.range 5).map (fun k => r8 (0x4040 + 8 * k) (fun s => nth (accrue s).pw.res k 0)) ++ [r8 0x4068 (fun s => s.pw.resEst)]

/-- Highest latest reading on a channel; 0x80 if it has none. -/
def chFlash (c : Nat) (s : State) : Nat :=
  match (s.pw.flash.filter (fun p => p.1 / 16 == c)).filterMap (fun p => p.2.1) with
  | [] => 0x80
  | t :: ts => sgn8 (ts.foldl max t)
/-- Housekeeping and thermal (Table 14.9). -/
def hkpRegs : List Reg :=
  [r4 0x5000 (fun s => s.pw.round)]
  ++ (List.range 5).map (fun k => r4 (0x5010 + 4 * k) (fun s => match nth s.pw.die k none with | some t => sgn16 t + 65536 | none => 0))
  ++ (List.range 8).map (fun k => r4 (0x5030 + 4 * k) (fun s =>
      match nth s.pw.therm k (0, false, false) with | (t, o, h) => (if o || h then 0 else sgn16 t) + fld 16 1 (b2n o) + fld 17 1 (b2n h)))
  ++ [r4 0x5050 (fun s => match tfMax s, tfMin s with
      | some h, some l => sgn8 h.2.2 + fld 8 8 (sgn8 l) + fld 16 6 h.1 + fld 22 4 h.2.1
      | _, _ => 0),
    r4 0x5054 (fun s => fld 0 16 s.slk.holdMv)]
  ++ (List.range 6).map (fun k => r4 (0x5060 + 4 * k) (fun s => let r := nth s.pw.rails k (0, 0, false); fld 0 16 r.1 + fld 16 16 r.2.1))
  ++ [r4 0x5078 (fun s => min 65535 (sumN (s.pw.rails.map (fun r => r.2.1)))), r4 0x507C (fun s => fld 0 7 s.pw.r + fld 7 1 (b2n s.pw.src)),
    r8 0x5080 (fun s => let i := s.img
      sgn8 i.tjThrottle + fld 8 8 (sgn8 i.tfThrottle) + fld 16 8 (sgn8 i.qlcLo) + fld 24 8 (sgn8 i.qlcHi) + fld 32 8 (sgn8 i.slcLo) + fld 40 8 (sgn8 i.slcHi)),
    r8 0x5088 (fun s => fld 0 32 s.pw.thmQlc + fld 32 32 s.pw.thmAll),
    ⟨0x5100, 64, fun s => leNat ((List.range 64).map (fun c => BitVec.ofNat 8 (chFlash c s)))⟩]

/-- A check-value unit's registers at a base (Table 11.8). -/
def cvuRegs (base u : Nat) : List Reg := [
  r4 base (fun s => cvuCtlOf (cvuAt u s)), r4 (base + 4) (fun s => (cvuAt u s).fn), r4 (base + 8) (fun s => (cvuAt u s).nsid),
  r8 (base + 0x10) (fun s => (cvuAt u s).val), r4 (base + 0x18) (fun s => fld 0 16 (cvuPend u s) + fld 16 1 (b2n (cvuAt u s).done)),
  r8 (base + 0x20) (fun s => (cvuAt u s).cnt), r4 (base + 0x28) (fun s => (cvuAt u s).skip), r4 (base + 0x2C) (fun s => cvuCidOf (cvuAt u s)),
  r8 (base + 0x30) (fun _ => 0)]

/-- Live records of a severity. -/
def liveSev (n : Nat) (s : State) : Nat := (s.stb.ring.filter (fun r => r.2.sev == n)).length
/-- Studbook (Table 15.5): the registers, then the window's slots. -/
def stbRegs (view : Nat) : List Reg :=
  [r4 0x7000 (fun s => let b := s.stb
      fld 0 16 b.ring.length + fld 16 1 (b2n (decide (ringSize ≤ b.ring.length))) + fld 17 1 (b2n b.loaded) + fld 18 1 (b2n (!b.dirty.isEmpty))
        + fld 19 1 (b2n (!b.early.isEmpty))),
    r4 0x7004 (fun s => s.stb.seqNext), r4 0x7008 (fun s => seqOld s.stb), r8 0x7010 (fun s => fld 0 32 s.stb.dropFull + fld 32 32 s.stb.dropQueue),
    r8 0x7018 (fun s => s.stb.persistStamp),
    r8 0x7020 (fun s => sumN ((List.range 4).map (fun n => fld (16 * n) 16 (liveSev n s)))),
    r4 0x7028 (fun s => let w := winOf view s; fld 0 15 w.base + fld 15 1 (b2n w.src))]
  ++ (List.range 64).map (fun i => ⟨0x7800 + 0x20 * i, 32, fun s => leNat (slotRead view i s)⟩)

/-- A maintenance channel's registers (Table 9.6). -/
def gdcRegs (n : Nat) : List Reg :=
  let b := 0x8000 + 0x40 * n
  [r8 b (fun s => (gdcAt n s).src), r8 (b + 8) (fun s => (gdcAt n s).dst), r4 (b + 0x10) (fun s => (gdcAt n s).cnt), r4 (b + 0x14) (fun s => (gdcAt n s).dlen),
    r8 (b + 0x18) (fun s => (gdcAt n s).idx),
    r4 (b + 0x20) (fun s => let g := gdcAt n s; fld 4 2 g.mode + fld 6 2 g.prio + fld 8 1 (b2n g.int) + fld 16 16 g.nent),
    r4 (b + 0x24) (fun s => let g := gdcAt n s; fld 0 11 g.vec + fld 16 16 g.entry),
    r8 (b + 0x28) (fun s => let g := gdcAt n s; b2n g.linkEnd + g.linkNext * 64),
    r4 (b + 0x30) (fun s => let g := gdcAt n s
      fld 0 3 g.state + fld 3 1 (b2n g.done) + fld 4 1 (b2n g.fault) + fld 5 1 (b2n g.resumePend) + fld 6 2 (effLevel (48 + n) s) + fld 8 4 g.fcode
        + fld 12 6 g.buf),
    r8 (b + 0x38) (fun s => (gdcAt n s).desc)]

/-- Integrity (Table 7.10). -/
def eccRegs : List Reg :=
  [r8 0x9000 (fun s => s.ecc.sramCe), r4 0x9008 (fun s => s.ecc.sramUe),
    r8 0x9010 (fun s => let e := s.ecc
      fld 0 3 e.lastDie + fld 3 3 e.lastRegion + fld 6 1 (b2n e.lastUe) + fld 7 1 (b2n e.lastValid) + fld 8 8 e.lastSyn + fld 16 32 e.lastWord),
    r4 0x9018 (fun s => fld 0 8 s.ecc.ref1 + fld 8 8 s.ecc.ref2 + fld 16 8 s.ecc.ref3 + fld 24 8 s.ecc.ref4),
    r4 0x9020 (fun s => let e := s.ecc
      b2n e.arm + fld 1 1 (b2n e.target) + fld 2 3 e.fDie + fld 5 3 e.fRegion + fld 8 6 e.fChannel + fld 14 11 e.fCount),
    r4 0x9024 (fun s => b2n s.ecc.applied), r8 0x9028 (fun s => s.ecc.fAddr), r8 0x9030 (fun s => s.ecc.fMask), r4 0x9038 (fun s => s.ecc.fChk),
    r8 0x9040 (fun s => s.ecc.tokenExh), r8 0x9048 (fun s => s.ecc.reconFail)]
  ++ (List.range 8).map (fun k => r8 (0x9080 + 8 * k) (fun s => Tbl.getD s.ecc.ladder k 0))
  ++ (List.range 32).map (fun j => r4 (0x9100 + 4 * j) (fun s => fld 0 16 (Tbl.getD s.ecc.tokens (2 * j) 256) + fld 16 16 (Tbl.getD s.ecc.tokens (2 * j + 1) 256)))
  ++ [r4 0x9200 (fun s => b2n s.ecc.auto + fld 8 8 s.ecc.mediaDays + fld 16 16 s.ecc.sramMin),
    r4 0x9204 (fun s => (match s.ecc.running with | some p => 1 + fld 1 2 (passScope p) | none => 0)
      + fld 3 3 (s.ecc.queued.filter (fun p => p.ctx.isSome)).length + fld 16 16 s.ecc.passCnt),
    r8 0x9208 (fun s => s.ecc.progress), ⟨0x9210, 64, fun s => leNat (sumBytes s.ecc.last)⟩]

/-- A stall protection entry (Table 12.4). -/
def stlRegs (f : Nat) : List Reg :=
  let b := 0xA000 + 0x10 * f
  [r8 b (fun s => (entOf f s).yards), r4 (b + 8) (fun s => permOf (entOf f s)),
    r4 (b + 0xC) (fun s => fld 0 2 (stallState f s) + fld 2 1 (b2n (frozen f s)) + fld 3 1 (b2n (quiet f s)) + fld 4 1 (b2n (fnOf f s).en)
      + fld 16 15 (activeCount f s))]

/-- A key page at a base (Table 11.2). -/
def keyRegs (f base : Nat) : List Reg :=
  (List.range 8).map (fun i => ⟨base + 0x20 * i, 32, fun s =>
    if keySlots f s ≤ i then 0
    else kcvAt f i s + fld 24 1 (b2n (keyAt? f i s).isSome) + min (slotBound f i s) (2 ^ 32 - 1) * 2 ^ 32⟩)
/-- The cipher counters (Table 11.3). -/
def keyCnts : List Reg := [r8 0xE100 (fun s => s.ci.sealFail), r8 0xE108 (fun s => s.ci.denied), r4 0xE110 (fun s => if s.st.jobC then s.ci.bind.length else 0),
  r4 0xE114 (fun s => if s.st.jobC then s.ci.nsKeys.length else 0)]

/-- The LUNs of a channel that meet a test, as a bit map. -/
def lunMap (c : Nat) (p : Nat → Lun → Bool) (s : State) : Nat :=
  sumN ((s.fl.luns.filter (fun x => x.1 / 64 == c && p x.1 x.2)).map (fun x => 2 ^ (x.1 % 64)))
/-- A channel's diagnostic block (Table 6.12). -/
def fchRegs (c : Nat) : List Reg :=
  let b := 0x10000 + 0x100 * c
  let n := fun (o : Nat) (g : Chn → Nat) => r8 (b + o) (fun s => g (chnOf c s))
  [r4 b (fun s => let x := chnOf c s
      fld 0 3 x.state + fld 3 1 (b2n x.xqual) + fld 4 1 (b2n x.xdrop) + fld 5 1 (b2n x.suspCap) + fld 6 7 x.luns
        + fld 16 16 (if x.state = 0 ∨ x.state = 3 then 0 else x.rate)),
    r4 (b + 4) (fun s => let x := chnOf c s; fld 0 11 x.runMin + fld 11 3 x.pgmMax + fld 14 4 x.ersMax + fld 18 10 x.hold),
    r4 (b + 8) (fun s => let x := chnOf c s; fld 0 8 x.prechkZeros + fld 8 16 x.eyePeriod),
    r4 (b + 0xC) (fun s => let x := chnOf c s; fld 0 8 x.eyeRd + fld 8 8 x.eyeWr + fld 16 8 x.retrainCnt),
    r8 (b + 0x10) (fun s => lunMap c (fun d _ => dieUsable d s) s), r8 (b + 0x18) (fun s => lunMap c (fun _ l => l.excluded) s),
    r8 (b + 0x20) (fun s => lunMap c (fun _ l => l.failed) s),
    n 0x28 (·.rdCnt), n 0x30 (·.pgmCnt), n 0x38 (·.ersCnt), n 0x40 (·.suspCnt), n 0x48 (·.waitCnt), n 0x50 (·.reconCnt), n 0x58 (·.contCnt),
    n 0x60 (fun x => fld 0 16 x.fPgm + fld 16 16 x.fErs + fld 32 16 x.fRef + fld 48 16 x.fPre),
    r4 (b + 0x68) (fun s => let x := chnOf c s; fld 0 16 x.fTo + fld 16 16 x.fTack),
    n 0x80 (fun x => fld 0 6 x.dLun + fld 6 13 x.dBlk + fld 19 12 x.dWl + fld 31 3 x.dPage + fld 34 4 x.dPlane),
    r4 (b + 0x88) (fun s => fld 1 2 (chnOf c s).dMode),
    r4 (b + 0x8C) (fun s => let x := chnOf c s
      b2n x.dBusy + fld 1 1 (b2n x.dDone) + fld 2 1 (b2n x.dTack) + fld 3 1 (b2n x.dBad) + fld 4 1 (b2n x.dEmpty) + fld 5 2 x.dBst + fld 7 1 (b2n x.dOpen)
        + fld 8 1 (b2n x.dQuar) + fld 9 12 x.dNext),
    n 0x90 (fun x => fld 0 32 x.rZero + fld 32 16 x.rCorr + fld 48 3 x.rLad),
    r4 (b + 0x98) (fun s => let x := chnOf c s; fld 0 16 x.lWear + fld 16 16 x.lEgen)]

/-- The TXS block that holds an offset, in the view of a physical function (Table 1.10, R40). -/
def txsBlock (fn off : Nat) : List Reg :=
  let view := if fn = 0 then 0 else 1
  if off < 0x1000 then identRegs
  else if off < 0x2000 then modeRegs
  else if off < 0x3000 then slkRegs
  else if off < 0x4000 then cadRegs
  else if off < 0x5000 then pwrRegs
  else if off < 0x6000 then hkpRegs
  else if off < 0x6400 then cvuRegs (off / 0x40 * 0x40) ((off - 0x6000) / 0x40)
  else if off < 0x7000 then []
  else if off < 0x8000 then stbRegs view
  else if off < 0x8400 then gdcRegs ((off - 0x8000) / 0x40)
  else if off < 0x9000 then []
  else if off < 0xA000 then eccRegs
  else if off < 0xE000 then stlRegs ((off - 0xA000) / 0x10)
  else if off < 0xE100 then keyRegs fn 0xE000
  else if off < 0xF000 then keyCnts
  else if off < 0x10000 then []
  else if off < 0x14000 then fchRegs ((off - 0x10000) / 0x100)
  else []

/-- The offset lies in the diagnostic block of a channel the part does not have (R4). -/
def fchAbsent (off : Nat) (s : State) : Bool := decide (0x10000 + 0x100 * s.part.channels ≤ off ∧ off < 0x14000)

/-- A stall's page (Table 1.11): identity, Slack status, keys, private check-value units. -/
def pageRegs (f : Nat) (s : State) : List Reg :=
  [r4 0 regId, r4 4 (fun _ => f), r4 8 (fun s => 3 + fld 8 8 (fnOf f s).feats.xlevel), r8 0x10 (fun s => s.q.fw.rev),
    r4 0x100 (slkVfStat f), r4 0x104 (fun s => fld 0 17 (slkOf f s).effKiB),
    r4 0x108 (fun s => fld 0 17 (ceilDiv (sumN ((s.zn.wrs.filter (fun w => w.fn == f && decide ((slkOf f s).pageFrom ≤ w.id))).map (fun w => w.chargeQ + w.chargeP))) 1024)),
    r8 0x110 (fun s => (slkOf f s).earlyCnt), r8 0x118 (fun s => (slkOf f s).heldCnt)]
  ++ keyRegs f 0x200
  ++ (List.range (min 2 (resOf f s).cvus)).flatMap (fun m => cvuRegs (0x400 + 0x40 * m) (16 + 2 * f + m))

/-! ## BAR0 (Tables 8.1 and 8.2; the standard places are PRESUMED, log 5) -/

/-- CAP. -/
def regCap : Nat :=
  0xFFFF + fld 16 1 1 + fld 17 2 1 + fld 24 8 0x60 + fld 37 8 0x41 + fld 52 4 4 + fld 59 1 1
/-- CSTS (R31, R91, R242). -/
def regCsts (f : Nat) (s : State) : Nat :=
  b2n (rdy f s) + fld 1 1 (b2n (cfs s)) + fld 2 2 (fnOf f s).shst + fld 5 1 (b2n (s.m.cur == .fwActivate))
/-- Where a function's MSI-X table and pending bits lie. -/
def msixBase (f : Nat) : Nat × Nat := if isPf f then (0x20000, 0x28000) else (0x4000, 0x7000)
/-- A dword of BAR0. -/
def bar0Dword (f off : Nat) (s : State) : Nat :=
  let n := fnOf f s
  let t := msixBase f
  let v := vectorsOf f s
  if off < 0x1000 then
    (match off with
     | 0x0 => regCap % 2 ^ 32 | 0x4 => regCap / 2 ^ 32 | 0x8 => 0x20100 | 0x14 => ccOf n | 0x1C => regCsts f s
     | 0x24 => fld 0 12 n.asqs + fld 16 12 n.acqs
     | 0x28 => n.asq % 2 ^ 32 | 0x2C => n.asq / 2 ^ 32 | 0x30 => n.acq % 2 ^ 32 | 0x34 => n.acq / 2 ^ 32 | 0x68 => 0x60 | _ => 0)
  else if t.1 ≤ off ∧ off < t.1 + 16 * v then
    (let i := (off - t.1) / 4; Tbl.getD n.msixTab i (if i % 4 = 3 then 1 else 0))
  else if t.2 ≤ off ∧ off < t.2 + ceilDiv v 64 * 8 then
    sumN ((n.pba.filter (fun x => x / 32 == (off - t.2) / 4)).map (fun x => 2 ^ (x % 32)))
  else 0

/-! ## Reads (R14, R17, R18) -/

/-- The register at an offset of a function's BAR2; none where it is reserved (R16) or its channel absent (R4). -/
def regAt? (fn off : Nat) (s : State) : Option Reg :=
  (if isPf fn then (if fchAbsent off s then [] else txsBlock fn off) else pageRegs fn s).find? (fun r => decide (r.off ≤ off ∧ off < r.off + r.bytes))

/-- A byte of BAR2 as a read returns it. -/
def regByte (fn off : Nat) (s : State) : Nat :=
  match regAt? fn off s with
  | some r => r.val s / 256 ^ (off - r.off) % 256
  | none => 0
/-- The addressed bytes of BAR2. -/
def regBytes (fn off n : Nat) (s : State) : Nat := sumN ((List.range n).map (fun i => regByte fn (off + i) s * 256 ^ i))

/-- Key of a register in the shadows and the low dwords, for a function. -/
def regKey (fn off : Nat) : Nat := fn * 2 ^ 20 + off
/-- Append a read's result. -/
def readOut (v : Nat) (s : State) : State := { s with rg := { s.rg with reads := s.rg.reads ++ [v] } }
/-- A read of PWR_MEAS that touches P_PEAK clears it (RC). -/
def peakRead (lo hi : Nat) (s : State) : State := if lo < 0x400C ∧ 0x400A < hi then { s with pw := { s.pw with pPeak := 0 } } else s

/-- A 32-bit read of BAR2: the shadow of a 64-bit register (R18), a window slot's latch (R407), an unaligned read's bytes (R17). -/
def read32 (fn off : Nat) (s : State) : State :=
  if off % 4 ≠ 0 then
    let t := readOut (regBytes fn off 4 s) s
    if isPf fn then peakRead off (off + 4) t else t
  else match regAt? fn off s with
    | none => readOut 0 s
    | some r =>
      let v := r.val s
      let k := regKey fn r.off
      if r.bytes = 8 then
        if off = r.off then readOut (v % 2 ^ 32) { s with rg := { s.rg with shadow := Tbl.put s.rg.shadow k (v / 2 ^ 32) } }
        else readOut (Tbl.getD s.rg.shadow k (v / 2 ^ 32)) { s with rg := { s.rg with shadow := Tbl.del s.rg.shadow k } }
      else if isPf fn && decide (0x7800 ≤ off ∧ off < 0x8000) && off % 0x20 == 0 then
        let view := if fn = 0 then 0 else 1
        let t := latchSlot view ((off - 0x7800) / 0x20) s
        readOut (regBytes fn off 4 t) t
      else
        let t := readOut (regBytes fn off 4 s) s
        if isPf fn then peakRead off (off + 4) t else t

/-- A read of BAR2 that returns the addressed bytes as they stand in one clock: an aligned 64-bit read (R18), which at a window slot's first
dword latches the slot (R407), a narrower read, an unaligned one (R17). It keeps no shadow and drops none. -/
def readPlain (fn off n : Nat) (s : State) : State :=
  let t := if n = 8 && off % 0x20 == 0 && isPf fn && decide (0x7800 ≤ off ∧ off < 0x8000) then
      latchSlot (if fn = 0 then 0 else 1) ((off - 0x7800) / 0x20) s
    else s
  let u := readOut (regBytes fn off n t) t
  if isPf fn then peakRead off (off + n) u else u

/-- A read of BAR2 of `width` bytes. -/
def readBar2 (fn off width : Nat) (s : State) : State := if width = 4 then read32 fn off s else readPlain fn off width s

/-- The addressed bytes of BAR0. -/
def bar0Bytes (f off n : Nat) (s : State) : Nat :=
  sumN ((List.range n).map (fun i => bar0Dword f ((off + i) / 4 * 4) s / 256 ^ ((off + i) % 4) % 256 * 256 ^ i))

/-- A read of a function's BAR0 or BAR2, 1, 2, 4 or 8 bytes wide: an access of R374. -/
def regRead (fn space off width : Nat) (s : State) : Out :=
  if !fnPresent fn s || !([1, 2, 4, 8].contains width) then .next s
  else if space = 0 then let t := touch fn s; done (readOut (bar0Bytes fn off width t) t)
  else if space = 2 then done (readBar2 fn off width (touch fn s))
  else .next s

/-- REG_READ_LOW_DWORD (R17, R18). -/
def execRegReadLowDword (fn space : Nat) (a : RegAt) (s : State) : Out := regRead fn space a.off a.width s
/-- REG_READ_HIGH_DWORD (R17, R18). -/
def execRegReadHighDword (fn space : Nat) (a : RegAt) (s : State) : Out := regRead fn space a.off a.width s

/-- PWR_MEAS_READ (R395): P_WIN and P_PEAK are read together, and the read clears P_PEAK. -/
def execPwrMeasRead (fn : Nat) (s : State) : Out :=
  if isPf fn && fnPresent fn s then done (read32 fn 0x4008 (touch fn s)) else .next s

/-- STB_SLOT_FIRST_DWORD_READ (R407): `view` 0 is the Owner PF's, 1 the port B PF's. -/
def execStbSlotFirstDwordRead (view slot : Nat) (s : State) : Out :=
  let f := if view = 0 then 0 else 1024
  if slot < 64 && fnPresent f s then done (read32 f (0x7800 + 0x20 * slot) (touch f s)) else .next s

/-! ## Writes (R14, R16, R17) -/

/-- CAD_CTL (Table 13.10): PF_ON_PWRFAIL, then the commands its other bits give. -/
def writeCadCtl (v : Nat) (s : State) : State :=
  let s1 := { s with cad := { s.cad with pfOnPwrfail := bit v 1 } }
  let s2 := if bit v 2 then tokenReleaseNow s1 else s1
  let s3 := if bit v 3 then relockNow s2 else s2
  if bit v 0 then pfSendNow s3 else s3

/-- CAD_ROOT_CFG: a MAXDEPTH of 0 is ignored. -/
def writeRootCfg (v : Nat) (s : State) : State :=
  { s with cad := { s.cad with rootDepthNext := if bits v 1 0 = 0 then s.cad.rootDepthNext else bits v 1 0, rootTok := bits v 15 8 } }

/-- Device-wide integrity registers: a field outside its range lets the write fall whole (R219); while ARM = 1 the flip registers are
closed (R215). -/
def writeEcc (off v : Nat) (s : State) : State :=
  let e := s.ecc
  let inR := fun (lo hi x : Nat) => decide (lo ≤ x ∧ x ≤ hi)
  if off = 0x9018 then
    (if [bits v 7 0, bits v 15 8, bits v 23 16, bits v 31 24].all (inR 16 255) then
      { s with ecc := { e with ref1 := bits v 7 0, ref2 := bits v 15 8, ref3 := bits v 23 16, ref4 := bits v 31 24 } } else s)
  else if off = 0x9020 then writeFlipCtl v s
  else if off = 0x9028 then (if e.arm then s else { s with ecc := { e with fAddr := v } })
  else if off = 0x9030 then (if e.arm then s else { s with ecc := { e with fMask := v } })
  else if off = 0x9038 then (if e.arm then s else { s with ecc := { e with fChk := v % 256 } })
  else if 0x9100 ≤ off ∧ off < 0x9180 then
    let y := (off - 0x9100) / 2
    -- the present turn keeps its tokens (R211)
    if bits v 15 0 ≤ 4096 ∧ bits v 31 16 ≤ 4096 then { updYard y id (updYard (y + 1) id s) with ecc := { e with tokens := Tbl.put (Tbl.put e.tokens y (bits v 15 0)) (y + 1) (bits v 31 16) } } else s
  else if off = 0x9200 then
    (if inR 1 60 (bits v 15 8) && inR 1 1440 (bits v 31 16) then
      { s with ecc := { e with auto := bit v 0, mediaDays := bits v 15 8, sramMin := bits v 31 16 } } else s)
  else s

/-- A protection entry (R318, R319): entry 0 ignores writes. -/
def writeStl (f o v : Nat) (s : State) : State :=
  if f = 0 then s
  else
    let e := Tbl.getD s.stl.ents f StlEnt.dflt
    let put := fun (e : StlEnt) => { s with stl := { s.stl with ents := Tbl.put s.stl.ents f e } }
    if o = 0 then put { e with yards := v }
    else if o = 8 then
      let g := bits v 13 8
      put { e with write := bit v 0, gather := bit v 1, sealP := bit v 2, comp := bit v 3, scrub := bit v 4, gchMax := if g = 0 ∨ 48 < g then e.gchMax else g }
    else s

/-- A check-value unit's PW fields; `priv`: a stall's private unit, whose CVU_FN is read only. -/
def writeCvu (u o v : Nat) (priv : Bool) (s : State) : State :=
  if o = 0 then cvuCtl u v s
  else if o = 4 then (if priv then s else updCvu u (fun c => { c with fn := bits v 10 0 }) s)
  else if o = 8 then updCvu u (fun c => { c with nsid := v }) s
  else if o = 0x10 then cvuVal u v s
  else if o = 0x2C then updCvu u (fun c => { c with cid := bits v 15 0, cidEn := bit v 16 }) s
  else s

/-- A maintenance channel's registers (R264): closed in states 1 to 3, and the link word while a descriptor is in progress. -/
def writeGdc (n o v : Nat) (s : State) : State :=
  let g := gdcAt n s
  let busy := g.state == 1 || g.state == 2 || g.state == 3
  let put := fun (h : Gdc → Gdc) => if busy then s else updGdc n h s
  if o = 0 then put (fun g => { g with src := v })
  else if o = 8 then put (fun g => { g with dst := v })
  else if o = 0x10 then put (fun g => { g with cnt := v })
  else if o = 0x14 then put (fun g => { g with dlen := v })
  else if o = 0x18 then put (fun g => { g with idx := v / 16 * 16 })
  else if o = 0x20 then gdcCtl n v 0 [] s
  else if o = 0x24 then put (fun g => { g with vec := bits v 10 0 })
  else if o = 0x28 then (if busy ∧ g.desc ≠ 0 then s else updGdc n (fun g => { g with linkEnd := bit v 0, linkNext := v / 64 }) s)
  else s

/-- A channel's diagnostic block (R196): FCH_SUSP and FCH_MEDIA fall whole when a field is outside its range. -/
def writeFch (c o v : Nat) (s : State) : State :=
  let inR := fun (lo hi x : Nat) => decide (lo ≤ x ∧ x ≤ hi)
  if s.part.channels ≤ c then s
  else if o = 4 then
    (if inR 50 2000 (bits v 10 0) && inR 0 4 (bits v 13 11) && inR 0 8 (bits v 17 14) && inR 10 1000 (bits v 27 18) then
      updChn c (fun x => { x with runMin := bits v 10 0, pgmMax := bits v 13 11, ersMax := bits v 17 14, hold := bits v 27 18 }) s else s)
  else if o = 8 then
    (if inR 1 255 (bits v 7 0) && inR 100 60000 (bits v 23 8) then updChn c (fun x => { x with prechkZeros := bits v 7 0, eyePeriod := bits v 23 8 }) s else s)
  else if o = 0x80 then
    updChn c (fun x => { x with dLun := bits v 5 0, dBlk := bits v 18 6, dWl := bits v 30 19, dPage := bits v 33 31, dPlane := bits v 37 34 }) s
  else if o = 0x88 then writeDiagCtl c v s
  else s

/-- The PW fields of a register, written by the Owner PF; CVU_FEED and the key page take bytes and stand apart. -/
def writePw (off v : Nat) (s : State) : State :=
  if off = 0x2000 then
    (let s1 := { s with slk := { s.slk with noEarly := bit v 1 } }; if bit v 0 then proofTrigger false s1 else s1)
  else if off = 0x3000 then writeCadCtl v s
  else if off = 0x3200 then (if isRoot s then writeRootCfg v s else s)
  else if off = 0x3208 then (if isRoot s then writeRootEpoch v s else s)
  else if off = 0x3210 then (if isRoot s then writeRootCmd (v % 256) s.cad.rootArg (bit v 8) s else s)
  else if off = 0x3214 then (if isRoot s then { s with cad := { s.cad with rootArg := v } } else s)
  else if off = 0x400C then { s with pw := { s.pw with noNonop := bit v 0 } }
  else if 0x6000 ≤ off ∧ off < 0x6400 then writeCvu ((off - 0x6000) / 0x40) (off % 0x40) v false s
  else if 0x8000 ≤ off ∧ off < 0x8400 then writeGdc ((off - 0x8000) / 0x40) (off % 0x40) v s
  else if 0x9000 ≤ off ∧ off < 0xA000 then writeEcc off v s
  else if 0xA000 ≤ off ∧ off < 0xE000 then writeStl ((off - 0xA000) / 0x10) (off % 0x10) v s
  else if 0x10000 ≤ off ∧ off < 0x14000 then writeFch ((off - 0x10000) / 0x100) (off % 0x100) v s
  else s

/-- The RW1C bits of the TXS, cleared from either view. -/
def writeW1c (off v : Nat) (s : State) : State :=
  if off = 0x2004 then (if bit v 7 then { s with slk := { s.slk with brk := false } } else s)
  else if off = 0x9024 then (if bit v 0 then { s with ecc := { s.ecc with applied := false } } else s)
  else if 0x6000 ≤ off ∧ off < 0x6400 ∧ off % 0x40 = 0x18 then
    updCvu ((off - 0x6000) / 0x40) (fun c => { c with done := c.done && !bit v 16 }) s
  else if 0x8000 ≤ off ∧ off < 0x8400 ∧ off % 0x40 = 0x30 then
    updGdc ((off - 0x8000) / 0x40) (fun g => { g with done := g.done && !bit v 3, fault := g.fault && !bit v 4 }) s
  else if 0x10000 ≤ off ∧ off < 0x10000 + 0x100 * s.part.channels ∧ off % 0x100 = 0x8C then
    updChn ((off - 0x10000) / 0x100) (fun c => { c with dDone := c.dDone && !bit v 1 }) s
  else s

/-- A write of a whole TXS register by a physical function. In HALTED only STB_WIN takes it (R449). -/
def putTxs (fn off v : Nat) (s : State) : State :=
  if off = 0x7028 then updWin (if fn = 0 then 0 else 1) (fun w => { w with base := bits v 14 6 * 64, src := bit v 15 }) s
  else if s.m.cur = .halted then s
  else
    let s1 := writeW1c off v s
    if fn = 0 then writePw off v s1 else s1

/-- A write of a whole register of a stall's page. -/
def putPage (f off v : Nat) (s : State) : State :=
  if 0x400 ≤ off ∧ off < 0x480 then
    match cvuOf? f ((off - 0x400) / 0x40) s with
    | some u =>
      if off % 0x40 = 0x18 then updCvu u (fun c => { c with done := c.done && !bit v 16 }) s else writeCvu u (off % 0x40) v true s
    | none => s
  else s

/-- A write of a whole register of BAR2. -/
def putReg (fn off v : Nat) (s : State) : State := if isPf fn then putTxs fn off v s else putPage fn off v s

/-- One dword of a write: a 32-bit register takes it; the low dword of a 64-bit register waits for the high one, and a high one with
no low one before it keeps the low dword (R18). -/
def putDword (fn off v : Nat) (s : State) : State :=
  match regAt? fn off s with
  | none => s
  | some r =>
    let k := regKey fn r.off
    if r.bytes = 8 then
      if off = r.off then { s with rg := { s.rg with low := Tbl.put s.rg.low k v } }
      else putReg fn r.off (Tbl.getD s.rg.low k (r.val s % 2 ^ 32) + v * 2 ^ 32) { s with rg := { s.rg with low := Tbl.del s.rg.low k } }
    else putReg fn off v s

/-- The unit whose CVU_FEED lies at an offset of a function's BAR2, for a function that may write it. -/
def feedUnit? (fn off : Nat) (s : State) : Option Nat :=
  if fn = 0 then (if 0x6000 ≤ off ∧ off < 0x6400 ∧ off % 0x40 / 8 = 6 then some ((off - 0x6000) / 0x40) else none)
  else if isStall fn ∧ 0x400 ≤ off ∧ off < 0x480 ∧ off % 0x40 / 8 = 6 then cvuOf? fn ((off - 0x400) / 0x40) s else none

/-- The offset within a function's key page, if one is written. -/
def keyOff? (fn off : Nat) : Option Nat :=
  let b := if isPf fn then 0xE000 else 0x200
  if b ≤ off ∧ off < b + 0x100 then some (off - b) else none

/-- A write of BAR2 of 4 or 8 bytes, aligned; any other is dropped (R17). Of two 32-bit registers written at once the upper one is
taken first: both see the state before the write. -/
def bar2Write (fn off width v : Nat) (s : State) : State :=
  if !(width == 4 || width == 8) || off % width != 0 then s
  else
    let bytes := leBytes width v
    match keyOff? fn off with
    | some o => if isPf fn && s.m.cur == .halted then s else keyWrite fn o bytes s
    | none =>
      match feedUnit? fn off s with
      | some u => if isPf fn && s.m.cur == .halted then s else cvuFeed u bytes s
      | none =>
        if width = 4 then putDword fn off (v % 2 ^ 32) s
        else match regAt? fn off s with
          | some r => if r.bytes = 8 then putReg fn off v { s with rg := { s.rg with low := Tbl.del s.rg.low (regKey fn off) } }
                      else putDword fn off (v % 2 ^ 32) (putDword fn (off + 4) (v / 2 ^ 32) s)
          | none => putDword fn (off + 4) (v / 2 ^ 32) s

/-- A dword of the MSI-X table: unmasking a vector that is pending signals it (PCI Express; PRESUMED, log 5). -/
def msixWrite (f i v : Nat) (s : State) : State :=
  let s1 := updFn f (fun n => { n with msixTab := Tbl.put n.msixTab i v }) s
  if i % 4 = 3 ∧ !bit v 0 ∧ (fnOf f s).pba.contains (i / 4) then
    signal f (i / 4) (updFn f (fun n => { n with pba := n.pba.filter (· != i / 4) }) s1)
  else s1

/-- A dword of BAR0 past the doorbells' rows. -/
def bar0Write (f off v : Nat) (s : State) : State :=
  let t := msixBase f
  if t.1 ≤ off ∧ off < t.1 + 16 * vectorsOf f s then msixWrite f ((off - t.1) / 4) v s
  else match off with
    | 0x14 => ccWrite f v s
    | 0x24 => updFn f (fun n => { n with asqs := bits v 11 0, acqs := bits v 27 16 }) s
    | 0x28 => updFn f (fun n => { n with asq := n.asq / 2 ^ 32 * 2 ^ 32 + v }) s
    | 0x2C => updFn f (fun n => { n with asq := n.asq % 2 ^ 32 + v * 2 ^ 32 }) s
    | 0x30 => updFn f (fun n => { n with acq := n.acq / 2 ^ 32 * 2 ^ 32 + v }) s
    | 0x34 => updFn f (fun n => { n with acq := n.acq % 2 ^ 32 + v * 2 ^ 32 }) s
    | _ => s

/-- Doorbells of a function's BAR0: queue and whether it is a CQ head. -/
def doorbell? (f off : Nat) : Option (Nat × Bool) :=
  if 0x1000 ≤ off ∧ off < 0x1000 + 8 * (if isPf f then 8192 else 513) then some ((off - 0x1000) / 8, bit off 2) else none

/-- REGISTER_WRITE: `space` 0 is BAR0, 2 is BAR2; `width` in bytes. -/
def execRegisterWrite (fn space off width : Nat) (v : BitVec 64) (s : State) : Out :=
  let w := v.toNat
  if !fnPresent fn s then .next s
  else if space = 0 then
    (if !(width == 4 || width == 8) || off % width != 0 then done (touch fn s)
     else match doorbell? fn off with
      | some (q, isCq) =>
        if width = 8 then done (touch fn s)
        else if isCq then execCqHeadDoorbell fn q (w % 65536) s else execSqTailDoorbell fn q (w % 65536) s
      | none =>
        let s1 := bar0Write fn off (w % 2 ^ 32) (touch fn s)
        doneIo (if width = 8 then bar0Write fn (off + 4) (w / 2 ^ 32) s1 else s1))
  else if space = 2 then doneIo (bar2Write fn off width w (touch fn s))
  else .next s

/-! ## The rows that are one register's write -/

/-- A PW write from a physical function: an access of R374; effective from the Owner PF, and not in HALTED (R14, R449). -/
def txsRow (fn : Nat) (f : State → State) (s : State) : Out :=
  if isPf fn && fnPresent fn s then
    let t := touch fn s
    done (if fn = 0 && t.m.cur != .halted then f t else t)
  else .next s

/-- PROOF_NOW (R77): SLK_CTL.PROOF_NOW. -/
def execProofNow (fn : Nat) (s : State) : Out := txsRow fn (proofTrigger false) s

/-- FCH_DIAG_GO (R197): a write of FCH_DIAG_CTL. -/
def execFchDiagGo (fn ch : Nat) (v : Dword) (s : State) : Out :=
  txsRow fn (fun t => if ch < t.part.channels then writeDiagCtl ch v.toNat t else t) s

/-- ECC_FLIP_ARM (R215): a write of ECC_FLIP_CTL with ARM = 1. -/
def execEccFlipArm (fn : Nat) (v : Dword) (s : State) : Out :=
  if bit v.toNat 0 then txsRow fn (writeFlipCtl v.toNat) s else .next s
/-- ECC_FLIP_DISARM (R215): a write with ARM = 0. -/
def execEccFlipDisarm (fn : Nat) (v : Dword) (s : State) : Out :=
  if bit v.toNat 0 then .next s else txsRow fn (writeFlipCtl v.toNat) s

/-- CAD_PF_SEND (R361). -/
def execCadPfSend (fn : Nat) (s : State) : Out := txsRow fn pfSendNow s
/-- TOKEN_RELEASE (R360). -/
def execTokenRelease (fn : Nat) (s : State) : Out := txsRow fn tokenReleaseNow s
/-- RELOCK (R368). -/
def execRelock (fn : Nat) (s : State) : Out := txsRow fn relockNow s
/-- CAD_ROOT_CMD_SEND (R367): the 64 bits at CAD_ROOT_CMD: CMD, SEND, and the argument in the upper half. -/
def execCadRootCmdSend (fn : Nat) (v : BitVec 64) (s : State) : Out :=
  txsRow fn (fun t => if isRoot t then writeRootCmd (v.toNat % 256) (v.toNat / 2 ^ 32) (bit v.toNat 8) t else t) s
/-- CAD_ROOT_EPOCH_WRITE (R367). -/
def execCadRootEpochWrite (fn : Nat) (v : BitVec 64) (s : State) : Out :=
  txsRow fn (fun t => if isRoot t then writeRootEpoch v.toNat t else t) s

/-- A write of GDC_CTL with a command bit. -/
def gdcRow (fn ch bitNo : Nat) (v : Dword) (moved : Nat) (mem : HostMem) (s : State) : Out :=
  if decide (ch < 16) && bit v.toNat bitNo && isPf fn && fnPresent fn s then
    let t := touch fn s
    doneIo (if fn = 0 && t.m.cur != .halted then gdcCtl ch v.toNat moved mem t else t)
  else .next s
/-- GDC_START (R269). -/
def execGdcStart (fn ch : Nat) (v : Dword) (mem : HostMem) (s : State) : Out := gdcRow fn ch 0 v 0 mem s
/-- GDC_STOP (R270): `moved`, how many bytes the transfer has read or packed since its start or its last parking; `mem`, a COPY's source. -/
def execGdcStop (fn ch : Nat) (w : StopWrite) (s : State) : Out := gdcRow fn ch 1 w.v w.moved w.mem s
/-- GDC_RESUME (R269). -/
def execGdcResume (fn ch : Nat) (v : Dword) (mem : HostMem) (s : State) : Out := gdcRow fn ch 2 v 0 mem s
/-- GDC_CLEAR (R269). -/
def execGdcClear (fn ch : Nat) (v : Dword) (s : State) : Out := gdcRow fn ch 3 v 0 [] s

/-- KEY_SLOT_WRITE (R293): `off` counts from the function's key page. -/
def execKeySlotWrite (fn off : Nat) (bytes : List Byte) (s : State) : Out :=
  if fnPresent fn s then
    let t := touch fn s
    done (if isPf fn && t.m.cur == .halted then t else keyWrite fn off bytes t)
  else .next s

/-- A write to a check-value unit: the Owner PF's device-wide units, a stall's private ones. -/
def cvuRow (fn unit : Nat) (f : Nat → State → State) (s : State) : Out :=
  if isStall fn then
    (if fnPresent fn s then
      (let t := touch fn s
       done (match cvuOf? fn unit t with | some u => f u t | none => t))
     else .next s)
  else txsRow fn (fun t => match cvuOf? fn unit t with | some u => f u t | none => t) s
/-- CVU_INIT (R309): a write of CVU_CTL. -/
def execCvuInit (fn unit : Nat) (v : Dword) (s : State) : Out := cvuRow fn unit (fun u => cvuCtl u v.toNat) s
/-- CVU_FEED_WRITE (R308). -/
def execCvuFeedWrite (fn unit : Nat) (bytes : List Byte) (s : State) : Out := cvuRow fn unit (fun u => cvuFeed u bytes) s
/-- CVU_VAL_WRITE (R309). -/
def execCvuValWrite (fn unit : Nat) (v : BitVec 64) (s : State) : Out := cvuRow fn unit (fun u => cvuVal u v.toNat) s

end Sys2Proof.Machine
end

