-- ==== Sys2Proof/Machine/TestPort.lean ====
section
/-! DEFINITION. The test access port and TEST mode (R442 to R448), the management port (R420). -/

namespace Sys2Proof.Machine
open Sys2Proof

/-! ## The port (R445, R446) -/

/-- Cells of the boundary register: 345 and 39 for each fitted channel (Table 17.2). -/
def boundaryCells (s : State) : Nat := 345 + 39 * s.part.channels

/-- The 32-bit IDCODE (Table 17.1). -/
def idcodeOf (s : State) : Nat := 0x1 * 2 ^ 28 + s.part.part * 2 ^ 12 + 0x253 * 2 + 1

/-- Select an instruction: the code, what drives the balls, what its data register captured. -/
def selIr (code drive tdo : Nat) (s : State) : State := { s with ts := { s.ts with ir := code, drive := drive, tdo := tdo } }

/-- The bypass register is selected and every ball is as the mode drives it. -/
def selBypass (s : State) : State := selIr 0xFF 0 0 s

/-- A boundary register shifted in: as many bits as the register has cells. -/
def fitCells (l : List Bool) (s : State) : List Bool := (l ++ List.replicate (boundaryCells s - l.length) false).take (boundaryCells s)

/-- An instruction of TEST only: elsewhere it selects bypass. -/
def testOnly (f : State → State) (s : State) : Out := done (if s.m.cur = .test then f s else selBypass s)

/-- TAP_RESET: IDCODE is selected. -/
def execTapReset (s : State) : Out := done (selIr 0x02 0 0 s)

/-- SAMPLE_PRELOAD: the balls are captured and the register is loaded; the balls stay as the mode drives them. -/
def execSamplePreload (inp shift : List Bool) (s : State) : Out :=
  let t := selIr 0x01 0 0 s
  done { t with ts := { t.ts with captured := fitCells inp s, boundary := fitCells shift s } }

/-- IDCODE. -/
def execIdcode (s : State) : Out := done (selIr 0x02 0 (idcodeOf s) s)

/-- EXTEST: the balls are driven from what is shifted in. -/
def execExtest (shift : List Bool) (s : State) : Out :=
  testOnly (fun s => let t := selIr 0x03 1 0 s; { t with ts := { t.ts with boundary := fitCells shift s } }) s

/-- CLAMP: the boundary outputs are held, and bypass is between TDI and TDO. -/
def execClamp (s : State) : Out := testOnly (selIr 0x04 1 0) s

/-- HIGHZ. -/
def execHighz (s : State) : Out := testOnly (selIr 0x05 2 0) s

/-- EXTEST_PULSE: as EXTEST, the AC cells of the PCIe lanes sending a pulse. -/
def execExtestPulse (s : State) : Out := testOnly (selIr 0x06 3 0) s

/-- EXTEST_TRAIN: as EXTEST, the AC cells of the PCIe lanes sending a train. -/
def execExtestTrain (s : State) : Out := testOnly (selIr 0x07 4 0) s

/-- The codes of Table 17.1. -/
def listedIr : List Nat := [0x01, 0x02, 0x03, 0x04, 0x05, 0x06, 0x07, 0x20, 0x21, 0x22, 0x30, 0x31, 0x38, 0x39, 0x40]
/-- The codes of Table 17.1 marked TEST only. -/
def testIr : List Nat := [0x03, 0x04, 0x05, 0x06, 0x07, 0x30, 0x31, 0x38, 0x39, 0x40]

/-- BYPASS: an unlisted instruction, or outside TEST one of TEST only. Another listed one has its own row. -/
def execBypass (ir : Nat) (s : State) : Out :=
  if listedIr.contains (ir % 256) && !(testIr.contains (ir % 256) && s.m.cur != .test) then .next s else done (selBypass s)

/-- TSTAT (Table 17.1). -/
def tstatOf (s : State) : Nat :=
  s.m.cur.code + fld 4 4 s.m.prev.code + fld 8 1 (b2n (s.m.drain == .testPort)) + fld 9 1 (b2n s.ts.entryRef) + fld 10 1 (b2n s.ts.mbBusy)
    + fld 11 1 (b2n s.ts.mbFail) + fld 12 1 (b2n s.ts.fpBusy) + fld 13 1 (b2n s.ts.fpFail) + fld 14 1 (b2n s.pins.strapTest)
/-- TSTAT. -/
def execTstat (s : State) : Out := done (selIr 0x21 0 (tstatOf s) s)

/-- TXS_READ: the scan takes an offset in and gives the data of the one before out. The read is what an Owner PF read of the dword through
BAR2 would be at that moment, its side effects included. It is no access of R374. -/
def execTxsRead (off : Nat) (s : State) : Out :=
  let t := read32 0 (off % 2 ^ 20) s
  let v := (t.rg.reads.getLast?).getD 0
  done (selIr 0x22 0 (s.ts.txsOut * 2 ^ 32) { t with rg := { t.rg with reads := s.rg.reads }, ts := { t.ts with txsOut := v } })

/-! ## Entry to TEST (R442, R443) -/

/-- Enter TEST: 0xC001 with its cause, 0 the strap and 1 the port. The host side is held in reset, the flash is left alone, the hold-up
switches stay open (R444); the settings a port entry leaves are this model's reading (DEDUCED, log 62). -/
def enterTest (cause : Nat) (s : State) : State :=
  let s0 := cutAll (proofInterrupt true s)
  let s1 := if isRoot s0 then dropLock s0 else s0
  let s2 := raise 0xC001 1 [h1 cause] { s1 with
    m := { s1.m with drain := .none, testPend := false },
    pins := { s1.pins with huChgEn := false, huLoad := false },
    q := { s1.q with ctxs := [], fns := [], pendAen := [] },
    zn := { s1.zn with scrubs := s1.zn.scrubs.map (fun (x : Scrub) => { x with ctx := none }) },
    pl := { s1.pl with moves := [], waiting := [] },
    fl := { s1.fl with ops := [] },
    ga := { Gath.dflt with wr := s1.ga.wr },
    pw := { s1.pw with entering := 0, exiting := false, ps := 0, stopFetch := false } }
  setMode .test (dropPasses (fun _ => true) s2)

/-- A drain for the test port begins: admission stops (R442). -/
def beginTestDrain (s : State) : State :=
  let s1 := proofInterrupt false s
  { s1 with m := { s1.m with drain := .testPort }, slk := { s1.slk with admissionOff := true } }

/-- TEST_ENTER: refused in EMERGENCY_FLUSH, in HALTED and while THM = 0b10; at once in the start modes; after a drain in modes 0x4 … 0x8 and
SANITIZE; in FW_ACTIVATE the drain waits for the end of the activation. -/
def execTestEnter (key : Nat) (s : State) : Out :=
  let t := selIr 0x20 0 0 s
  if key % 65536 ≠ 0x7E57 ∨ s.m.cur = .test then done t
  else if s.m.cur = .emergencyFlush ∨ s.m.cur = .halted ∨ s.m.thm = 2 then
    done (raise 0xC002 1 [h1 s.m.cur.code, h1 s.m.thm] { t with ts := { t.ts with entryRef := true } })
  else if s.m.cur.isStart then done (enterTest 1 t)
  else if s.m.cur = .fwActivate then done { t with m := { t.m with testPend := true } }
  else match s.m.drain with
    | .thermalTrip _ _ => done t
    | _ => done (beginTestDrain t)

/-- TEST_DRAIN_END: with every Slack-acknowledged write durable, the clean-close record is written and TEST is entered. -/
def execTestDrainEnd (s : State) : Out :=
  if s.m.drain = .testPort ∧ useBytes s = 0 ∧ s.m.thm ≠ 2 then done (enterTest 1 (cleanClose s)) else .next s

/-! ## Memory BIST (R447) -/

/-- A run ends: its records and results. The spare rows left are the fuses' own. -/
def mbEnds (run rep fails first : Nat) (s : State) : State :=
  let spare := Config.freeNat s.free % 65536
  let s1 := tick { s with ts := { s.ts with mbBusy := false, mbFail := decide (fails ≠ 0), mbRun := min run 65535, mbRep := min rep 65535, mbDone := true,
                                            mbFirst := if fails = 0 then 0 else first % 16384, mbSpare := spare } }
  let s2 := raise 0xC010 0 [h2 run, h2 rep] s1
  if fails = 0 then s2 else raise 0xC011 3 [h1 (first % 16384 / 2048), h1 (first % 2048)] s2

/-- MBIST: START going from 0 to 1 begins a run; ALG 3 is ignored, and a die that is absent ends the run at once with FAIL (its macro is
not stated: a free value). -/
def execMbist (v : Nat) (s : State) : Out :=
  testOnly (fun s =>
    let start := bit v 6
    let t := selIr 0x30 0 s.ts.mbReg { s with ts := { s.ts with mbReg := v % 2 ^ 32, mbStart := start } }
    let die := bits v 2 0
    if !start || s.ts.mbStart || s.ts.mbBusy || bits v 8 7 == 3 then t
    else if die ≠ 7 ∧ s.part.sheds < die then mbEnds 0 0 1 (die * 2048 + Config.freeNat t.free % 2048) (tick t)
    else { t with ts := { t.ts with mbBusy := true, mbDone := false, mbFail := false, mbStop := false } }) s

/-- MBIST_RES (Table 17.3). -/
def mbistRes (s : State) : Nat :=
  let t := s.ts
  fld 0 16 t.mbRun + fld 16 16 t.mbRep + fld 32 1 (b2n t.mbDone) + fld 33 1 (b2n t.mbFail) + fld 34 14 t.mbFirst + fld 48 16 t.mbSpare
/-- MBIST_RES. -/
def execMbistRes (s : State) : Out := testOnly (fun s => selIr 0x31 0 (mbistRes s) s) s

/-- What a run writes over: regions 2 and 4 of the dies chosen lose what they held; the key store is cleared, and a valid bit left clear
reads as zeros (R213, R447). The ring and the check-value units lie in region 4 with the queue contexts; the early buffer stays. -/
def mbClears (v : Nat) (s : State) : State :=
  let r := bits v 5 3
  let s := if r = 3 ∨ r = 7 then { s with ecc := { s.ecc with lines := [], flips := [] } } else s
  if r = 4 ∨ r = 7 then
    { clearSlots (fun _ => true) s with q := { s.q with ctxs := [], fns := [] }, stl := Stl.dflt,
                                        stb := { s.stb with ring := [], loaded := false, dirty := [], early := s.stb.early.take 64 } }
  else s

/-- MBIST_END. A run that was told to stop reads FAIL. -/
def execMbistEnd (res : BistRes) (s : State) : Out :=
  if s.ts.mbBusy then
    let t := mbEnds res.run res.repaired res.fails res.first (mbClears s.ts.mbReg s)
    done { t with ts := { t.ts with mbFail := t.ts.mbFail || s.ts.mbStop } }
  else .next s

/-! ## Flash pattern test (R448) -/

/-- A test ends: FP_RES is filled, 0xC021. -/
def fpEnds (blocks failed worst tack : Nat) (fail : Bool) (s : State) : State :=
  raise 0xC021 1 [h2 blocks, h2 failed] { s with ts := { s.ts with
    fpBusy := false, fpBlocks := min blocks (2 ^ 32 - 1), fpFailed := min failed (2 ^ 32 - 1), fpMax := min worst 65535, fpTack := min tack 65535,
    fpDone := true, fpFail := fail } }

/-- FPTEST: START going from 0 to 1 begins a test; MODE 0b10 and 0b11 are ignored; an absent channel ends it with FAIL. A destructive test
first appends a sanitize record without its sanitize-done record and records 0xC020, whose channel or LUN is a free value where all are
chosen. -/
def execFptest (v : Nat) (s : State) : Out :=
  testOnly (fun s =>
    let start := bit v 16
    let t := selIr 0x38 0 s.ts.fpReg { s with ts := { s.ts with fpReg := v % 2 ^ 64, fpStart := start } }
    let md := bits v 15 14
    if !start || s.ts.fpStart || s.ts.fpBusy || decide (2 ≤ md) then t
    else if !bit v 6 && decide (s.part.channels ≤ bits v 5 0) then fpEnds 0 0 0 0 true t
    else
      let t1 := { t with ts := { t.ts with fpBusy := true, fpDone := false, fpFail := false, fpStop := false } }
      if md = 0 then t1
      else
        let ch := if bit v 6 then Config.freeNat t1.free % 65536 else bits v 5 0
        let lun := if bit v 13 then Config.freeNat (t1.free + 1) % 65536 else bits v 12 7
        raise 0xC020 2 [h1 ch, h1 lun] { t1 with jn := { t1.jn with sanitize := 3 }, free := t1.free + 2 }) s

/-- FP_RES (Table 17.4). -/
def fpResOf (s : State) : Nat :=
  let t := s.ts
  fld 0 32 t.fpBlocks + fld 32 32 t.fpFailed + fld 64 16 t.fpMax + fld 80 16 t.fpTack + fld 96 1 (b2n t.fpDone) + fld 97 1 (b2n t.fpFail)
/-- FP_RES. -/
def execFpRes (s : State) : Out := testOnly (fun s => selIr 0x39 0 (fpResOf s) s) s

/-- A test selects the LUN (Table 17.4). -/
def fpChosen (ch lun : Nat) (s : State) : Bool :=
  let v := s.ts.fpReg
  (bit v 6 || ch == bits v 5 0) && (bit v 13 || lun == bits v 12 7)

/-- Tack Room blocks of the channels and LUNs a test selects: channel and block. -/
def fpTacks (s : State) : List (Nat × Nat) :=
  ((s.fl.blks.filter (fun p => let d := p.1 / 8192
    p.2.role.inTack && fpChosen (dieCh d) (dieLun d) s)).map (fun p => (dieCh (p.1 / 8192), p.1 % 8192)))

/-- Of the blocks named as failed, those a destructive test tested: of a LUN it selects, neither of the Tack Room nor Bad before; each once. -/
def fpBad (bad : List (Nat × Nat × Nat)) (s : State) : List (Nat × Nat × Nat) :=
  if bits s.ts.fpReg 15 14 = 1 then
    (bad.filter (fun b => let k := bkOf (dieKey b.1 b.2.1) b.2.2 s
      fpChosen b.1 b.2.1 s && decide (b.1 < s.part.channels) && !k.role.inTack && k.st != .bad)).dedup
  else []

/-- FAILED of a test that ends (R448): the blocks of a destructive test that failed, otherwise what the scan counted. -/
def fpFails (failed : Nat) (bad : List (Nat × Nat × Nat)) (s : State) : Nat :=
  if bits s.ts.fpReg 15 14 = 1 then (fpBad bad s).length else failed

/-- FPTEST_END: the Tack Room blocks skipped are refused accesses, each with its record and count (R193); after a destructive test the failed blocks, given as channel, LUN and block, are Bad in the ledger; a test that power
failure stopped has FAIL and leaves the LUNs parked with WP low (R444). -/
def execFptestEnd (res : FpRes) (bad : List (Nat × Nat × Nat)) (s : State) : Out :=
  if s.ts.fpBusy then
    let stop := res.power || s.ts.fpStop
    let s1 := (fpBad bad s).foldl (fun s b => updBk (dieKey b.1 b.2.1) b.2.2 (fun k => { k with st := .bad }) s) s
    let failed := fpFails res.failed bad s
    let skipped := (fpTacks s1).take res.skipped
    let s1 := skipped.foldl (fun s b => tackRefused 3 b.1 b.2 s) s1
    let s2 := if stop then { s1 with fl := { s1.fl with parked := true }, pins := { s1.pins with wpLow := true } } else s1
    done (fpEnds res.blocks failed res.worst skipped.length (decide (failed ≠ 0) || res.untrained || stop) s2)
  else .next s

/-! ## SPI_PROG (R445, R52) -/

/-- SPI_PROG: a slot is erased (0xC030), and a data word is appended to it. -/
def execSpiProg (v : Nat) (s : State) : Out :=
  testOnly (fun s =>
    let b := bit v 1
    let put := fun (l : List Byte) (s : State) => { s with st := if b then { s.st with spiB := l } else { s.st with spiA := l } }
    let t := selIr 0x40 0 0 s
    let t1 := if bit v 0 then raise 0xC030 1 [h1 (b2n b)] (put [] t) else t
    if bit v 2 then put ((if b then t1.st.spiB else t1.st.spiA) ++ leBytes 4 (bits v 63 32)) t1 else t1) s

/-! ## The management port (R420) -/

/-- The composite temperature as NVMe-MI codes it: 80h where there is none. -/
def miTemp (s : State) : Nat :=
  match tfMax s with
  | some r => if 127 ≤ r.2.2 then 0x7F else if r.2.2 ≤ -60 then 0xC4 else sgn8 r.2.2
  | none => 0x80

/-- The NVM Subsystem Health Status of NVMe-MI 2.0, eight bytes (the layout PRESUMED, log 74): the drive works and needs no reset unless
it is HALTED, a port whose PERST# is high has its link active, the critical warnings inverted, the composite temperature, the life used;
the composite controller status is free. -/
def healthStatus (s : State) : List Byte :=
  let good := s.m.cur != .halted
  let w := b2n s.m.warn0 + 2 * b2n s.m.warn1 + 4 * b2n s.m.warn2 + 8 * b2n s.m.warn3 + 16 * b2n s.m.warn4
  leBytes 1 (fld 5 1 (b2n good) + fld 4 1 (b2n good) + fld 3 1 (b2n s.pins.perstA) + fld 2 1 (b2n (s.pins.strapDual && s.pins.perstB)))
    ++ leBytes 1 (255 - w) ++ leBytes 1 (miTemp s) ++ leBytes 1 (pctUsed s) ++ [Config.freeByte s.free, Config.freeByte (s.free + 1), 0, 0]

/-- NVME_MI_COMMAND: a command is answered with the subsystem health status, in HALTED too; it wakes the device, and one that names a function
is an access to its controller (R374, Table 14.3). What else NVMe-MI returns is its own (log 74). -/
def execNvmeMiCommand (fn : Option Nat) (s : State) : Out :=
  let s1 := { s with ts := { s.ts with mi := s.ts.mi + 1, health := healthStatus s }, free := s.free + 2 }
  let s2 := match fn with
    | some f => if fnPresent f s1 && (fnOf f s1).en && decide (3 ≤ (fnOf f s1).feats.ps) then setFnPs f (fnOf f s1).feats.opPs s1 else s1
    | none => s1
  done (repower (wake 2 s2))

/-- I3C_DYNAMIC_ADDRESS_ASSIGNMENT: the port is an I3C Basic target until the next start. -/
def execI3cDynamicAddressAssignment (addr : Nat) (s : State) : Out := .next { s with ts := { s.ts with i3c := addr % 128 } }

end Sys2Proof.Machine
end

