-- ==== Sys2Proof/Machine/BringUp.lean ====
section
/-! DEFINITION. Bring-up (Chapter 2): resets, straps, the configuration image, flash discovery, the table load, RECOVERY; fatal faults
(R24, R27, R430); the end of a flush (R34, R95); thermal trips (R393). -/

namespace Sys2Proof.Machine
open Sys2Proof

/-! ## Reset kinds (Table 2.1, R36, R45) -/

/-- Step 5: a block with an erase-intent and no erase-done is erased again (R67). -/
def reErase (key : Nat) (s : State) : State :=
  let d := key / 8192
  let b := key % 8192
  let s1 := updBk d b (fun x => if x.st = .bad then x else
    { x with st := .erased, hasLive := false, quar := false, prechk := false, nextWl := 0, egen := (x.egen + 1) % 65536, wear := satAdd 16 x.wear 1 })
    (updChn (dieCh d) (fun c => { c with ersCnt := satAdd 64 c.ersCnt 1 }) s)
  match (bkOf d b s1).role with
  | .pen p => convErased p (eraseDone d b s1)
  | _ => eraseDone d b s1
/-- Step 5 in full: `bad` names the blocks that fail, which are handled as any failed erase (R184). -/
def reEraseAll (bad : List (Nat × Nat × Nat)) (s : State) : State :=
  s.pl.intents.foldl (fun s k => match bad.find? (fun b => blkKey (dieKey b.1 b.2.1) b.2.2 == k) with
    | some b => eraseBad b.1 b.2.1 b.2.2 (updChn b.1 (fun c => { c with ersCnt := satAdd 64 c.ersCnt 1 }) s)
    | none => reErase k s) s

/-- A RECOVERY that is cut short: if step 5 was under way the blocks already erased again have their erase-done records (R69); how many they
were is a free value. -/
def cutRecovery (s : State) : State :=
  if s.m.cur = .recovery ∨ (s.m.cur = .emergencyFlush ∧ s.m.prev = .recovery ∧ !s.fl.parked) then
    (s.pl.intents.take (Config.freeNat s.free % (s.pl.intents.length + 1))).foldl (fun s k => reErase k s) (tick s)
  else s

/-- POWER_ON (R44, R425): all state except media is lost and a start begins in RESET. SYS_RST_N and PERST# are low, PWRFAIL_N high. -/
def execPowerOn (s : State) : Out :=
  let t := restart false false s
  let life := { t.ts.life with cycles := satAdd 32 t.ts.life.cycles 1 }
  .next { t with
    pins := { t.pins with sysRstN := false, perstA := false, perstB := false, pwrfailN := true, huOk := false },
    q := { t.q with powerCycles := t.q.powerCycles + 1 },
    ts := { t.ts with life := life }, jn := { t.jn with life := life } }

/-- A journal page under way when power fails may reach one copy only (R66): which copy is then behind, if any, is a free value. -/
def tornPage (s : State) : State :=
  if s.jn.opened && !s.fl.parked then
    let k := Config.freeNat s.free % 3
    tick { s with jn := { s.jn with behind := if k = 2 then none else some k } }
  else s

/-- POWER_LOSS (R31, R426): the device loses all state except media, whatever it was doing. -/
def execPowerLoss (s : State) : Out := .next (restart false false (tornPage (cutRecovery s)))

/-- A start on SYS_RST_N or a device-level PERST# (Table 2.1): VDD_AON stays, ST fields return to Reset. -/
def startNow (s : State) : State := restart true false (cutRecovery s)

/-- SYS_RST_N_LOW (R44, R45, R429): accepted from 10 µs, ignored up to 1 µs, between them undefined: a free value. A flush holds it to its
end. -/
def execSysRstNLow (ns : Nat) (s : State) : Out :=
  let take_ := decide (10000 ≤ ns) || (decide (1000 < ns) && Config.freeBit s.free)
  let s1 := tick s
  if !take_ then .next s1
  else
    let s2 := { s1 with pins := { s1.pins with sysRstN := false } }
    .next (if s.m.cur = .emergencyFlush ∧ !s.fl.parked then { s2 with pins := { s2.pins with heldReset := 1 } } else startNow s2)

/-- SYS_RST_N_RISE (R46): the reset ends. -/
def execSysRstNRise (s : State) : Out := .next { s with pins := { s.pins with sysRstN := true } }

/-- A device-level PERST# acts (R36, R45): it starts nothing in HALTED or TEST, is held in a flush, starts the device at once in the start
modes and in RETAIN, and elsewhere begins the drain. -/
def devicePerst (s : State) : State :=
  let c := s.m.cur
  if c = .halted ∨ c = .test then s
  else if c = .emergencyFlush ∧ !s.fl.parked then
    { s with pins := { s.pins with heldReset := if s.pins.heldReset = 0 then 2 else s.pins.heldReset } }
  else if c.isStart ∨ c = .retain ∨ c = .emergencyFlush then startNow s
  else if s.m.drain = .none then
    let t := proofInterrupt false s
    { t with m := { t.m with drain := .devReset }, slk := { t.slk with admissionOff := true } }
  else s

/-- DEVICE_LEVEL_PERST (R36). -/
def execDeviceLevelPerst (s : State) : Out :=
  done (devicePerst { s with pins := { s.pins with perstA := false, perstB := if s.pins.strapDual then false else s.pins.perstB } })

/-- DEVICE_RESET_DRAIN_END (R36): every Slack-acknowledged write is durable; the clean-close record, then RESET. -/
def execDeviceResetDrainEnd (s : State) : Out :=
  if s.m.drain = .devReset ∧ useBytes s = 0 ∧ s.m.thm ≠ 2 then .next (startNow (cleanClose s)) else .next s

/-- A reset of one port's functions in dual-port mode (R333): port A removes every stall and resets the Owner PF, key slots included;
port B resets the port B PF. -/
def portReset (port : Nat) (s : State) : State :=
  if s.m.cur = .reset ∨ s.m.cur = .test ∨ s.m.cur = .emergencyFlush then s
  else
    let f := if port = 0 then 0 else 1024
    clearSlots (· == f) (if fnPresent f s then pfReset f 2 s else s)

/-- PORT_PERST (R333, R36): with both ports low, or in x16 mode, it is the device-level reset. -/
def execPortPerst (port : Nat) (s : State) : Out :=
  let t := { s with pins := if port = 0 then { s.pins with perstA := false } else { s.pins with perstB := false } }
  if !s.pins.strapDual then done (if port = 0 then devicePerst t else t)
  else if !t.pins.perstA && !t.pins.perstB then done (devicePerst t)
  else doneIo (portReset port t)

/-- DL_DOWN (R333): in dual-port mode it acts as that port's PERST#. -/
def execDlDown (port : Nat) (s : State) : Out := if s.pins.strapDual then doneIo (portReset port s) else .next s

/-- Link training may enter Detect on a port (R49, R36, R38). -/
def mayDetect (s : State) : Bool :=
  !([Mode.reset, .imageLoad, .test].contains s.m.cur) && s.m.drain != .devReset &&
    (s.pins.perstA || (s.pins.perstB && fnPresent 1024 s))

/-- PERST_DEASSERT (R49): Detect follows, or waits for a device-level drain still running. -/
def execPerstDeassert (port : Nat) (s : State) : Out :=
  let t := { s with pins := if port = 0 then { s.pins with perstA := true } else { s.pins with perstB := true } }
  .next { t with pins := { t.pins with detect := t.pins.detect || mayDetect t } }

/-! ## Straps and image (R46 to R62) -/

/-- A strap's level as sampled; one that changes inside its window is a free value (R46). -/
def strapLevel (x : Strap) (i : Nat) : Bool := match x with | .low => false | .high => true | .changing => Config.freeBit i

/-- STRAP_SAMPLE (R46): in RESET with SYS_RST_N high; to IMAGE_LOAD, or to TEST. -/
def execStrapSample (dual test noimg : Strap) (s : State) : Out :=
  if s.m.cur = .reset ∧ s.pins.sysRstN then
    let k := s.free
    let t := { s with pins := { s.pins with strapDual := strapLevel dual k, strapTest := strapLevel test (k + 1), strapNoimg := strapLevel noimg (k + 2) },
                      free := k + 3 }
    done (if t.pins.strapTest then enterTest 0 t else setMode .imageLoad t)
  else .next s

/-- Records of a slot that was read and is invalid: 0x1010 (R59). -/
def slotRecord (noimg : Bool) (slot : Nat) (r : SlotRead) (s : State) : State :=
  if !noimg && r.st != 0 then raise 0x1010 1 [h1 slot, h1 r.st] s else s

/-- The firmware image that runs: the one activated last, or the other slot's if its check fails, with 0x1060 (R242, R43). -/
def startFw (fwOk : Bool) (s : State) : State :=
  let w := s.q.fw
  let other := 3 - w.next
  let rev := fun n => (nth w.slots (n - 1) ⟨false, 0⟩).rev
  let good := fwOk && (nth w.slots (w.next - 1) ⟨false, 0⟩).held
  let run := if good || !(nth w.slots (other - 1) ⟨false, 0⟩).held then w.next else other
  let s1 := { s with q := { s.q with fw := { w with running := run, rev := rev run } } }
  if good then s1 else raise 0x1060 2 [h4 (rev w.next)] s1

/-- IMAGE_LOAD_END (R59 to R62, R49, R70, R77, R349): the slot with the higher SEQ, or the factory defaults, are taken; PROOF_LOAD begins.
A PWRFAIL_N that fell before and is still low starts no flush: the model acts on the fall (DESIGN CHOICE, log 91). -/
def execImageLoadEnd (sfdpOk : Bool) (slotA slotB : List Byte) (fwOk : Bool) (s : State) : Out :=
  if s.m.cur ≠ .imageLoad then .next s
  else
    let no := s.pins.strapNoimg
    let a := readSlot s.part (sfdpOk && !no) slotA
    let b := readSlot s.part (sfdpOk && !no) slotB
    let none_ := decide (a.st ≠ 0 ∧ b.st ≠ 0)
    let useB := b.st == 0 && (a.st != 0 || decide (a.seq < b.seq))
    let c := if none_ then (⟨0, 0, 0, Img.dflt s.part, 0xFF⟩ : SlotRead) else if useB then b else a
    let s1 := slotRecord no 1 b (slotRecord no 0 a s)
    let s2 := if a.st = 0 ∧ b.st = 0 ∧ a.seq = b.seq then raise 0x1012 1 [h2 a.seq] s1 else s1
    let s3 := if none_ then raise 0x1011 2 [h1 a.st, h1 b.st] s2 else s2
    let s4 := if !s.part.gradeX && c.img.xmode == 1 then raise 0x1014 1 [] s3 else s3
    let st := { s4.st with cfgDefaulted := none_, slot := b2n useB, slotASt := a.st, slotBSt := b.st, imgFmt := c.fmt, secDflt := c.dflt,
                           unsafeSd := false, flushShort := false, jfault := false, geomMismatch := false, jcopy := false, seqA := a.seq, seqB := b.seq,
                           imgUs := min 65535 (s.tm.elapsed - s.m.since), inProof := true }
    let s5 := startFw fwOk { s4 with st := st, img := c.img }
    let s6 := { s5 with
      pins := { s5.pins with wpLow := false, huChgEn := true },
      slk := { s5.slk with phase := .charging },
      pl := { s5.pl with p := padMaxPens s5 },
      cad := if isRoot s5 then { s5.cad with lock := true, ver := max 1 s5.cad.ver }
             else { Cad.dflt with answers := s5.cad.answers, pfPulses := s5.cad.pfPulses, brkCnt := s5.cad.brkCnt },
      tm := if isRoot s5 then { s5.tm with tsrc := true, est := false } else s5.tm }
    -- the channels fitted are discovered and trained in job (b) (Table 6.12)
    let s6 := (List.range s6.part.channels).foldl (fun s c => updChn c (fun x => { x with state := 1 }) s) s6
    let s7 := setMode .proofLoad s6
    done { s7 with pins := { s7.pins with detect := mayDetect s7 } }

/-! ## Flash discovery (R63, R64, R166 to R171) -/

/-- Byte offsets of the geometry fields in the Flash geometry checks section (Table 15.8). -/
def geomOffsets : List Nat := [0, 4, 6, 8, 12, 13, 14]
/-- The targets of a channel's chain that volume addresses reach: the first 16 are appointed 0 … 15, the rest stay deselected (R167). -/
def appointed (part : Part) (l : List LunReport) : List LunReport := l.filter (fun r => decide (r.ch < part.channels ∧ r.target < 16 ∧ r.unit < 4))
/-- The chip enable that a volume answers on. -/
def chipEnable (v : Nat) : Nat := v / 4
/-- A LUN's index: the LUNs of the channel's lower volumes, and its number within its own (R167). -/
def lunIndex (l : List LunReport) (r : LunReport) : Nat :=
  (l.filter (fun x => x.ch == r.ch && decide (x.target < r.target))).length + r.unit
/-- A LUN's geometry fields in that order; `l`: LUNs of its channel. -/
def reportFields (l : Nat) (r : LunReport) : List Nat := [r.pageData, r.spare, r.pagesPerBlock, r.blocksPerLun, l, r.planes, r.cell]
/-- The image's check values in that order. -/
def imgChecks (i : Img) : List Nat := [i.pageData, i.spare, i.pagesPerBlock, i.blocksPerLun, i.lunsPerCh, i.planes, i.cell]

/-- The value most LUNs give, a tie going to the lowest-numbered channel's; of values tied there too, the one met first in the reports
(the spec names no winner; log 27). Votes are (channel, value). -/
def majority (votes : List (Nat × Nat)) : Nat :=
  let n := fun v => (votes.filter (fun q => q.2 == v)).length
  let c := fun v => minL 0 ((votes.filter (fun q => q.2 == v)).map (·.1))
  let best := fun (o : Option Nat) v => match o with
    | none => some v
    | some w => if n w < n v ∨ (n w = n v ∧ c v < c w) then some v else some w
  ((votes.map (·.2)).dedup.foldl best none).getD 0

/-- The first field beyond the limits of Table 6.3. -/
def limitBroken (g : List Nat) : Option Nat :=
  let f := fun i => nth g i 0
  let wl := f 2 / max 1 (f 6)
  let bad := [!(within 4096 65536 (f 0) && f 0 % 4096 == 0), decide (f 1 * 4096 < 552 * f 0), !within 1 4095 wl, !within 1 8191 (f 3),
              decide (475136 < f 4 * f 3) || f 4 == 0, !within 1 16 (f 5), !(f 6 == 3 || f 6 == 4)]
  ((geomOffsets.zip bad).find? (·.2)).map (·.1)

/-- Why a LUN is excluded: the field's offset, 0xFFFF for its page's CRC, a free value for a missing feature (R63, R166, R167). `i` is the
LUN's index, `l` its channel's LUNs. -/
def exclusion (ref : List Nat) (r : LunReport) (i l k : Nat) : Option Nat :=
  if !r.crcOk then some 0xFFFF
  else if !r.featOk then some (Config.freeNat k % 65536)
  else
    let own := (reportFields l r).set 4 (if nth ref 4 0 ≤ i then nth ref 4 0 + 1 else nth ref 4 0)
    ((geomOffsets.zip (own.zip ref)).find? (fun x => x.2.1 != x.2.2)).map (·.1)

/-- Take the LUNs of discovery: dies excluded or in service. A die known before and not found is excluded. -/
def takeLuns (rs : List (Nat × Bool)) (s : State) : State :=
  let known := Tbl.mapV s.fl.luns (fun _ l => { l with excluded := true })
  { s with fl := { s.fl with luns := rs.foldl (fun t r => Tbl.put t r.1 { (Tbl.getD t r.1 Lun.dflt) with excluded := r.2 }) known } }

/-- Qualification of the extended mode (Table 6.2): the first failing step. -/
def qualStep (t : ChTrain) (rs : List LunReport) : Option Nat :=
  if rs.any (fun r => r.retimer != 0x31545258) then some 1
  else if !t.trainOk then some 2
  else if t.eyeRd < 90 ∨ t.eyeWr < 90 then some 3
  else if t.loopErrs ≠ 0 then some 4
  else none

/-- Bring a channel up (R64, R168, R169): qualification where it is allowed, else the rate at which training succeeded. -/
def trainChannel (t : ChTrain) (rs : List LunReport) (s : State) : State :=
  let page := match rs with | [] => 0 | r :: t => (t.map (·.rate)).foldl min r.rate
  let ext := s.part.gradeX && s.img.xmode == 1 && bit s.img.xmodeMask t.ch
  let slow := min 3600 (min t.rate page)
  let s1 := updChn t.ch (fun c => { c with
    state := 2, suspCap := rs.all (·.susp), pageRate := page, rate := slow, eyeAt := s.tm.turns, eyeWr := min t.eyeWrSlow 255 }) s
  if !ext then s1
  else match qualStep t rs with
    | none => raise 0x4010 0 [h1 t.ch, h2 t.eyeRd, h2 t.eyeWr]
        (updChn t.ch (fun c => { c with xqual := true, rate := 4800, eyeRd := min t.eyeRd 255, eyeWr := min t.eyeWr 255 }) s1)
    | some k => raise 0x4011 1 [h1 t.ch, h2 k] s1

/-- Set a block apart: Tack Room or calibration. -/
def setApart (d b : Nat) (r : Role) (st : BSt) (s : State) : State := updBk d b (fun x => { x with role := r, st := st, onebit := true }) s

/-- Tack Room blocks of a Shed die's Tack LUNs: the first 128 good blocks of LUN 0 on channels 16s and 16s + 8, in index order 32 of the
firmware area and 96 of the journal area (R192). -/
def layTack (d : Nat) (s : State) : State :=
  let bs := ((List.range s.fl.geom.blocksPerLun).filter (fun b => (bkOf d b s).st != .bad)).take 128
  updLun d (fun l => { l with tack := true, tackEnd := (bs.getLast?).getD 0 })
    (bs.zipIdx.foldl (fun s b => setApart d b.1 (if b.2 < 32 then .fw else .tack) .full s) s)

/-- The calibration block of a channel, on its lowest usable die (R146). A start lays one on every channel that has none on a usable die. -/
def layCalib (ch : Nat) (s : State) : State :=
  let mine := fun (k : Nat) => dieCh (k / 8192) == ch
  if s.fl.calib.any (fun k => mine k && dieUsable (k / 8192) s) then s
  else match ((List.range 64).map (dieKey ch)).find? (fun d => dieUsable d s) with
    | none => s
    | some d => match (List.range s.fl.geom.blocksPerLun).find? (fun b => (bkOf d b s).free) with
      | none => s
      | some b => let t := setApart d b .calib .erased s; { t with fl := { t.fl with calib := t.fl.calib.filter (fun k => !mine k) ++ [blkKey d b] } }

/-- The factory layout (R137, R192): every row in Yard 0, the Tack Room set apart. Once in a device's life, at the first start that accepts a
geometry. -/
def factoryLayout (s : State) : State :=
  if s.jn.laid || !s.fl.geom.ok then s
  else
    let s1 := { s with pl := { s.pl with rowYard := (rows s).map (fun r => (r, 0)) }, jn := { s.jn with laid := true } }
    let tacks := ((List.range s.part.sheds).flatMap (fun h => [dieKey (16 * h) 0, dieKey (16 * h + 8) 0])).filter (fun d => (Tbl.get? s.fl.luns d).isSome)
    tacks.foldl (fun s d => layTack d s) s1

/-- Once geometry and tables are both there: the Paddock's size after a safe shutdown with 0x1040 (R70, R146), the flush reserve, and the
start's re-evaluation of spares (R162, R163). -/
def sizePaddock (s : State) : State :=
  let f := fillOf s
  let p := paddockSize f s
  raise 0x1040 0 [h2 p] { s with pl := { s.pl with p := p, fillSet := f } }
/-- What the start does once jobs (b) and (c) have both ended. -/
def tablesMeetFlash (s : State) : State :=
  if s.st.jobB && s.st.jobC then reevalSpares (keepReserve (if s.st.unsafeSd then s else sizePaddock s)) else s

/-- FLASH_DISCOVERY_END (R63): job (b) ends. `temps`: the first readings of the targets. -/
def execFlashDiscoveryEnd (luns : List LunReport) (chs : List ChTrain) (temps : List (Nat × Nat × Int)) (s : State) : Out :=
  if s.m.cur ≠ .proofLoad ∨ s.st.jobB then .next s
  else
    let rs := appointed s.part luns
    let onCh := fun c => rs.filter (fun r => r.ch == c)
    let cnt := fun (r : LunReport) => (onCh r.ch).length
    let good := rs.filter (·.crcOk)
    let ref := (List.range 7).map (fun i =>
      let chk := nth (imgChecks s.img) i 0
      if chk ≠ 0 then chk else majority (good.map (fun r => (r.ch, nth (reportFields (cnt r) r) i 0))))
    let broken := if good.isEmpty then none else limitBroken ref
    let geomOk := broken.isNone && !good.isEmpty
    let f := fun i => nth ref i 0
    let g : Geom := ⟨geomOk, f 0, f 1, f 2, f 3, if good.isEmpty then 0 else f 4, f 5, f 6⟩
    let ex : List (Nat × Option Nat) := (rs.zipIdx).map (fun r =>
      let l := lunIndex rs r.1
      (dieKey r.1.ch l, exclusion ref r.1 l (cnt r.1) (s.free + r.2)))
    let out := ex.filter (fun r => r.2.isSome)
    -- R63's checks first, a record for each LUN they exclude; then R171's, which excludes every LUN with a record of its own
    let s0 := out.foldl (fun s (r : Nat × Option Nat) => raise 0x1020 2 [h1 (dieCh r.1), h1 (dieLun r.1), h1 (r.2.getD 0)] s) s
    let s1 := match broken with
      | some o => raise 0x4051 3 [h1 o] s0
      | none => s0
    let s2 := { s1 with free := s.free + rs.length, fl := { s1.fl with geom := g }, st := { s1.st with geomMismatch := !out.isEmpty },
                        ts := { s1.ts with life := { s1.ts.life with rated := minL s1.ts.life.rated (good.map (fun (r : LunReport) => r.cycles)) } } }
    let s3 := takeLuns (ex.map (fun r => (r.1, broken.isSome || r.2.isSome))) s2
    let s4 := (chs.filter (fun t => !(onCh t.ch).isEmpty)).foldl (fun s t => trainChannel t (onCh t.ch) s) s3
    -- a channel without a LUN, or without training, is absent
    let s5 := (List.range s.part.channels).foldl (fun s c =>
      updChn c (fun x => { x with luns := (s.fl.luns.filter (fun p => dieCh p.1 == c && !p.2.excluded)).length, state := if x.state = 1 then 0 else x.state }) s) s4
    let s6 := factoryLayout s5
    let s7 := ((s6.fl.luns.filter (·.2.excluded)).map (·.1)).foldl (fun s d => loseDie d s) s6
    let s8 := (chs.filter (fun t => !(onCh t.ch).isEmpty && (chnOf t.ch s7).rate == 0)).foldl (fun s t => failChannel t.ch 1 s) s7
    let s8 := if s8.fl.geom.ok then (List.range s.part.channels).foldl (fun s c => layCalib c s) s8 else s8
    let s9 := ((s8.fl.luns.map (·.1)).filter (fun d => dieUsable d s8)).foldl (fun s d => refillLists d s) s8
    let s10 := thmStep (takeFlash (temps.map (fun t => (t.1, t.2.1, some t.2.2))) s9)
    done (tablesMeetFlash (rebuildCopy { s10 with st := { s10.st with jobB := true } }))

/-! ## The flush rehearsal (R75, R146) -/

/-- Median wear count of a die's good blocks. -/
def medianWear (d : Nat) (s : State) : Nat :=
  let w := dieWears d s
  let zeros := s.fl.geom.blocksPerLun - (dieEntries d s).length
  let l := (List.replicate zeros 0 ++ w).insertionSort (fun a b => a ≤ b)
  nth l (l.length / 2) 0

/-- A calibration block in the rehearsal: it takes its part of the 8 MiB, wordline by wordline, is erased, and is replaced when its wear
reaches the median of its die (R75, R146). -/
def useCalib (key : Nat) (s : State) : State :=
  let d := key / 8192
  let b := key % 8192
  let n := ceilDiv 8388608 (max 1 (s.fl.calib.length * s.fl.geom.pageData * s.fl.geom.planes))
  let s1 := updChn (dieCh d) (fun c => { c with pgmCnt := satAdd 64 c.pgmCnt n, ersCnt := satAdd 64 c.ersCnt 1 })
    (updBk d b (fun x => { x with st := .erased, egen := (x.egen + 1) % 65536, wear := satAdd 16 x.wear 1, pgmAt := s.tm.elapsed }) s)
  if (bkOf d b s1).wear < medianWear d s1 then s1
  else match (freeByWear d s1).head? with
    | none => s1
    | some n =>
      let s2 := setApart d n.1 .calib .erased (updBk d b (fun x => { x with role := .free, onebit := false }) s1)
      refillLists d { s2 with fl := { s2.fl with calib := s2.fl.calib.map (fun k => if k = key then blkKey d n.1 else k) } }

/-- FLUSH_REHEARSAL_END (R75): P_FL in mW and the byte rate achieved give E_fixed and e_byte. -/
def execFlushRehearsalEnd (milliW rate : Nat) (s : State) : Out :=
  if s.m.cur = .proofLoad ∧ s.st.jobB ∧ !s.slk.rehearsed then
    let t := tick { s with slk := { s.slk with rehearsed := true, efixUj := efixUj milliW, ebyte := ebyteOf milliW rate s.free,
                                               pfl := min (milliW / 100) 4095 } }
    done (t.fl.calib.foldl (fun s k => useCalib k s) t)
  else .next s

/-! ## The table load (R51, R65, R66, R404) -/

/-- TABLE_LOAD_END (R65, R66, R404, R385): job (c) ends. -/
def execTableLoadEnd (copy0 copy1 : Bool) (s : State) : Out :=
  if s.m.cur ≠ .proofLoad ∨ s.st.jobC then .next s
  else
    -- of two readable copies the one that reaches further is used and the other brought level (R66)
    let s0 := { s with jn := { s.jn with copy0 := copy0, copy1 := copy1, behind := none } }
    if !copy0 && !copy1 then done (halt (raise 0x1035 3 [] s0))
    else
      let s1 := loadRing { s0 with st := { s0.st with headsFound := true } }
      let s2 := if s.pw.retLost then raise 0xB012 2 [] { s1 with pw := { s1.pw with retLost := false } } else s1
      let s3 := { s2 with slk := { s2.slk with last := s2.jn.lastFlush }, cad := { s2.cad with sched := s2.jn.sched, loaded := s2.jn.schedLoaded, pendSched := s2.jn.schedPend },
                          ecc := { s2.ecc with lines := ((s2.zn.cmap.map (fun e => lineKey (mapPlace e.1).1 (mapPlace e.1).2))).dedup } }
      let safe := s.jn.closing == .clean || s.jn.closing == .retain
      let s4 := if safe then s3
        else { s3 with st := { s3.st with unsafeSd := true, needRecovery := true }, q := { s3.q with unsafeCount := s3.q.unsafeCount + 1 } }
      let s5 := if s.jn.sanitize ≠ 0 then { s4 with st := { s4.st with needRecovery := true } } else s4
      let bad := if copy0 then 1 else 0
      let s6 := if copy0 && copy1 then s5
        else
          let t := raise 0x1034 2 [h1 (bad + 1)] { s5 with st := { s5.st with jcopy := true }, jn := { s5.jn with rebuild := some bad } }
          if safe then rebuildCopy t else t
      done (tablesMeetFlash { s6 with st := { s6.st with jobC := true } })

/-! ## The end of a start -/

/-- The first slot of a stripe of a one-bit Pen. -/
def stripeSlot (wl : Nat) (p : Pen) (g : Geom) : Nat :=
  let d := p.mem.length - 1
  let l := padLastWls g
  max 1 (cwPerWl g) * (if wl ≤ l then wl * d else l * d + (wl - l) * (d - 1))
/-- A one-bit Pen that was filling goes on at the stripe above every wordline its members hold (DESIGN CHOICE, log 18). -/
def resumePen (p : Pen) (s : State) : Pen :=
  let wl := maxL (p.mem.map (fun m => let b := bkOf m.1 m.2.1 s; if m.2.1 = 8191 ∨ b.st = .erased then 0 else if b.st = .openB then b.nextWl else wordlines s.fl.geom))
  let nx := stripeSlot wl p s.fl.geom
  if padSlots s.fl.geom ≤ nx then { p with next := nx, st := .full } else { p with next := nx }

/-- Stripes of a QLC Pen whose data units are all programmed and whose parity a cut kept from being written have it programmed (R209). -/
def resumeParity (id : Nat) (p : Pen) (s : State) : State :=
  if p.kind.oneBit ∨ p.st = .dying then s
  else ((List.range (wordlines s.fl.geom)).flatMap (fun k => (parityAt p k).map (fun m => (k, m)))).foldl (fun s e =>
    let k := e.1
    let data := (List.range p.mem.length).filter (fun m => !(parityAt p k).contains m)
    let m := nth p.mem e.2 (0, 8191, true)
    if !p.closed.contains e && data.all (fun i => decide (k < progWls p i s) || (nth p.mem i (0, 8191, true)).2.2) && data.any (fun i => decide (k < progWls p i s))
        && !m.2.2 && decide (progWls p e.2 s ≤ k)
    then queueProg m.1 m.2.1 3 k false (.parity id k e.2) (catchUp m.1 m.2.1 k 3 false s) else s) s

/-- The media go on where a reset cut them: one-bit Pens that were filling go on, new members are made ready, parity still owed is programmed,
erases with an open intent run again, every die's lists are filled from the ledger (R141, R155, R179, R209). -/
def resumeMedia (s : State) : State :=
  let shut := fun (p : Pen) => if p.kind.oneBit && p.st == .filling then resumePen p s else p
  let s1 : State := { s with pl := { s.pl with pens := Tbl.mapV s.pl.pens (fun _ p => shut p) } }
  let s2 : State := s1.pl.pens.foldl (fun s (p : Nat × Pen) =>
    if p.2.st = .dying then p.2.mem.foldl (fun s (m : Nat × Nat × Bool) =>
      if m.2.1 = 8191 || (bkOf m.1 m.2.1 s).st == .erased || (bkOf m.1 m.2.1 s).st == .bad then s else queueErase m.1 m.2.1 (.eraseFor p.1) s) s
    else if p.2.st = .full then s
    else (p.2.mem.filter (fun m => m.2.1 != 8191 && ((bkOf m.1 m.2.1 s).st == .pending || ((bkOf m.1 m.2.1 s).st == .erased && !(bkOf m.1 m.2.1 s).prechk)))).foldl
      (readyBlock p.1) s) s1
  let s3 : State := s2.pl.intents.foldl (fun s k =>
    if s.fl.ops.any (fun o => o.kind == .erase && blkKey (dieKey o.ch o.lun) o.blk == k) then s else queueErase (k / 8192) (k % 8192) .background s)
    (s2.pl.pens.foldl (fun s p => resumeParity p.1 p.2 s) s2)
  ((s3.fl.luns.map (·.1)).filter (fun d => dieUsable d s3)).foldl (fun s d => refillLists d s) s3

/-- The start record, and the base mode or SANITIZE (R65, R67): admission opens. Scrubs that power loss interrupted resume with 0x3021
(R124). -/
def startEnds (s : State) : State :=
  let t := resumeMedia s
  let s1 := { t with
    jn := { t.jn with opened := true, closing := .none, used := true, admOff := false },
    slk := { t.slk with admissionOff := false },
    st := { t.st with up := true },
    ecc := { t.ecc with paddockDue := s.fl.flushHot, mediaAt := s.tm.elapsed, sramAt := s.tm.elapsed } }
  if s.jn.sanitize ≠ 0 then setMode .sanitize { s1 with zn := { s1.zn with sanit := s.jn.sanitize, sstat := 2 } }
  else setMode (baseMode s1) (s1.zn.scrubs.foldl (fun s c => raise 0x3021 1 [h2 c.zone] s) s1)

/-- PROOF_LOAD_END (R48, R65): the three jobs have ended; RECOVERY if it is needed, else the base mode. -/
def execProofLoadEnd (s : State) : Out :=
  if s.m.cur = .proofLoad ∧ s.st.jobA ∧ s.st.jobB ∧ s.st.jobC then
    let t := { s with st := { s.st with proofMs := min 65535 ((s.tm.elapsed - s.m.since) / 1000), recovMs := 0 } }
    done (if s.st.needRecovery then setMode .recovery t else startEnds t)
  else .next s

/-! ## RECOVERY (R67 to R70) -/

/-- Records of one lost range: a zone's, or the conventional namespace's in pieces of up to 4 GiB (R68). -/
def lostRecords (l : Lost) (s : State) : State :=
  let put := fun (f n : Nat) (s : State) => raise 0x1033 3 [h2 l.owner, h2 f, h2 n] s
  if l.owner < 2 ^ 31 then put l.first l.count s
  else (List.range (ceilDiv l.count (2 ^ 20))).foldl (fun s i => put (l.first + i * 2 ^ 20) (min (2 ^ 20) (l.count - i * 2 ^ 20)) s) s

/-- The units of a lost range of the conventional namespace return their last persisted mapping (R68). -/
def returnUnits (l : Lost) (s : State) : State :=
  ((s.zn.convOld.map (·.1)).filter (fun u => decide (l.first < 4 * (u + 1) ∧ 4 * u < l.first + l.count))).foldl (fun s u => restoreOld u s) s
/-- What a flush that did not complete lost (R68): FLUSH_SHORT, warning bit 2, the ranges found lost. -/
def flushShortWork (lost : List Lost) (s : State) : State :=
  let s1 := lost.foldl (fun s l => lostRecords l (if l.owner < 2 ^ 31 then cutZone l.owner (2 * l.first) s else returnUnits l s)) s
  setWarn 2 true { s1 with st := { s1.st with flushShort := true }, slk := { s1.slk with last := { s1.slk.last with state := 2 } },
                           jn := { s1.jn with lastFlush := { s1.jn.lastFlush with state := 2 } } }

/-- Step 3 after such a flush: a wordline at the persisted NEXT_WL of an open block that fails the test of R185 holds dead data, and NEXT_WL
advances past it and every next one that fails; `dead` gives channel, LUN, block and how many fail (R186). Reservations lose the units that
can no longer be programmed there. No codeword is found in them: a program that power cut short holds none (DEDUCED, log 88). -/
def confirmNext (dead : List (Nat × Nat × Nat × Nat)) (s : State) : State :=
  let open_ := dead.filter (fun e => (bkOf (dieKey e.1 e.2.1) e.2.2.1 s).st == .openB && (bkOf (dieKey e.1 e.2.1) e.2.2.1 s).hasLive)
  let s1 := open_.foldl (fun s e => updBk (dieKey e.1 e.2.1) e.2.2.1 (fun b =>
    let n := min (wordlines s.fl.geom) (b.nextWl + e.2.2.2)
    if n = wordlines s.fl.geom then { b with nextWl := n, st := .full, hasLive := false } else { b with nextWl := n }) s) s
  (s1.pl.pens.map (·.1)).foldl (fun s p => loseUnits p s) s1

/-- Open zones become Closed, and a zone that was Full and fell back makes its reservation again (R68). -/
def closeZones (s : State) : State :=
  let s1 := { s with zn := { s.zn with zones := Tbl.mapV s.zn.zones (fun _ z => if z.st.isOpen then { z with st := .closed } else z) } }
  ((s1.zn.zones.filter (fun p => p.2.st == .closed && !p.2.activeRes)).map (·.1)).foldl (fun s z =>
    match zoneAt? z s with
    | some q =>
      let r := reserveFor q.actFn z q.yard q.lclass s
      if r.1 then r.2 else updZone z (fun q => { q with activeRes := false, resHandle := 0 }) r.2
    | none => s) s1

/-- The moves that the copy record of a journal fault names: the Pen's live units with their destinations (R155). -/
def faultItems (f : JFault) (p : Pen) (s : State) : PenKind × List MvU :=
  if p.kind = .conv then (.conv, ((validUnits f.pen s).zip f.copy).map (fun e =>
      ⟨convOwner, e.1, (match Tbl.get? s.zn.cmap e.1 with | some c => c.slot | none => 0), e.2.1, 4 * e.2.2⟩))
  else if p.kind.oneBit then (.landing, ((livePieces f.pen s).zip f.copy).map (fun e =>
      ⟨e.1.1, e.1.2, (match zoneAt? e.1.1 s with | some q => q.gen | none => 0), e.2.1, e.2.2⟩))
  else (.reloc, ((unitsOn f.pen s).zip f.copy).map (fun e => ⟨e.1.1, e.1.2.1, e.1.2.2, e.2.1, e.2.2⟩))
/-- A journal fault (R67, Table 5.3): JFAULT, 0x1032; the copy is adopted, its missing map-commit written with 0x3052 and the source erased, or
the Pen's zones go Offline and its conventional units are lost. -/
def faultWork (f : JFault) (s : State) : State :=
  let s1 := raise 0x1032 3 [h2 f.pen] { s with st := { s.st with jfault := true } }
  match (if f.adopted then penOf? f.pen s1 else none) with
  | some p =>
    let its := faultItems f p s1
    let t := its.2.foldl (fun s i => commitItem f.pen its.1 i s) (raise 0x3052 2 [h2 f.pen] s1)
    if p.kind = .conv then emptyConv f.pen t
    else if (livePieces f.pen t).isEmpty && penReserved f.pen t == 0 then retirePen f.pen t else t
  | none =>
    let zs := ((livePieces f.pen s1).map (·.1)).dedup.filter (· != convOwner)
    let s2 := zs.foldl (fun s z => makeOffline z 2 s) s1
    { s2 with zn := { s2.zn with cmap := Tbl.mapV s2.zn.cmap (fun _ e => if e.pen = f.pen then { e with lost := true } else e) } }

/-- The next wordline of a one-bit Pen is programmed at once, as RECOVERY works: its member's block, and with a stripe's last data wordline its
parity. -/
def programNow (id : Nat) (s : State) : State :=
  match penOf? id s with
  | none => s
  | some p =>
    let g := s.fl.geom
    let loc := slotLoc p p.next g
    let nx := p.next + max 1 (cwPerWl g)
    let put := fun (m : Nat) (s : State) =>
      let e := nth p.mem m (0, 8191, true)
      if e.2.1 = 8191 then s else updChn (dieCh e.1) (fun c => { c with pgmCnt := satAdd 64 c.pgmCnt 1 }) (updBk e.1 e.2.1 (fun b =>
        let b := if b.hasLive then b else { b with hasLive := true, st := .openB, nextWl := 0, liveEgen := b.egen, onebit := true, prechk := true }
        let b := { b with nextWl := max b.nextWl (loc.2 + 1), pgmAt := s.tm.elapsed }
        if wordlines g ≤ b.nextWl then { b with st := .full, hasLive := false } else b) s)
    let s1 := put loc.1 (updPen id (fun q => { q with next := nx, st := if padSlots g ≤ nx then .full else .filling }) s)
    if padSlots g ≤ nx ∨ (slotLoc p nx g).2 ≠ loc.2 then closeStripe id loc.2 (p.mem.length - 1) (put (p.mem.length - 1) s1) else s1

/-- Units of the conventional namespace that a flush wrote are merged into the region's hot and cold Pens, as many to a wordline as fit
(R132, R67 step 6). -/
def mergeUnits (hot : Bool) : Nat → List Nat → State → State
  | 0, _, s => s
  | _, [], s => s
  | fuel + 1, us, s =>
    match convPen hot s with
    | none => s
    | some (id, s1) =>
      let n := max 1 (wlRoom id s1 / 4)
      let base := match penOf? id s1 with | some p => p.next | none => 0
      let one := fun (s : State) (e : Nat × Nat) =>
        let slot := base + 4 * e.2
        let t := mapPieces convOwner (fun q x => if q / 8 = e.1 then { x with pen := id, slot := slot + q % 8 / 2, lseq := lseqIn id s } else x) s
        (match Tbl.get? t.zn.cmap e.1 with
        | some c => putMap e.1 ⟨c.heat, id, slot / 4, c.lost⟩ t
        | none => t)
      mergeUnits hot fuel (us.drop n) (lseqNext id (programNow id (((us.take n).zipIdx).foldl one s1)))

/-- Step 6: what a flush wrote becomes Paddock data, conventional units in the region; fresh reserve Pens follow (R67, R132, R146). -/
def indexFlush (s : State) : State :=
  let res := s.pl.flushRes.map (·.2)
  let us := ((s.zn.cmap.filter (fun e => res.contains e.2.pen)).map (fun e => (e.1, decide (2 ≤ e.2.heat))))
  let hot := (us.filter (·.2)).map (·.1)
  let cold := (us.filter (fun u => !u.2)).map (·.1)
  let s1 := mergeUnits false (cold.length + 1) cold (mergeUnits true (hot.length + 1) hot s)
  s1.pl.flushRes.foldl (fun s r =>
    match penOf? r.2 s with
    | some p =>
      if p.next = 0 then s
      else
        let t := updPen r.2 (fun p => { p with kind := .landing, st := .full }) s
        { t with pl := { t.pl with flushRes := Tbl.del t.pl.flushRes r.1 } }
    | none => s) s1

/-- RECOVERY_END (R67): its eight steps, then 0x1031, then SANITIZE or the base mode. -/
def execRecoveryEnd (lost : List Lost) (found : RecovFound) (s : State) : Out :=
  if s.m.cur ≠ .recovery then .next s
  else
    let s1 := if s.jn.closing = .none then confirmNext found.deadWls (flushShortWork lost s) else s
    let s2 := found.faults.foldl (fun s f => faultWork f s) s1
    let s3 := reEraseAll found.badErases s2
    let s4 := indexFlush (if s.st.unsafeSd then closeZones s3 else s3)
    let s5 := keepReserve (if s.st.unsafeSd then sizePaddock s4 else s4)
    let s6 := rebuildCopy s5
    let ms := (s.tm.elapsed - s.m.since) / 1000
    let s7 := { s6 with st := { s6.st with recovMs := min ms (2 ^ 24 - 1) }, jn := { s6.jn with flushed := 0 } }
    doneIo (startEnds (raise 0x1031 1 [h2 ms] (if s7.m.thm = 2 then s7 else checkpoint s7)))

/-! ## Fatal faults of the start and of the module (R24, R27, R48, R430) -/

/-- START_MODE_OVERRUN (R48). -/
def execStartModeOverrun (s : State) : Out :=
  if s.m.cur.isStart then done (halt (raise 0x10E0 3 [h1 s.m.cur.code] s)) else .next s

/-- OSTLER_WATCHDOG_EXPIRY (R27): the core is restarted; four or more in restart at once halt the device. How long a restart lasts the spec
does not state: whether an earlier one still runs is a free value. -/
def execOstlerWatchdogExpiry (core : Nat) (s : State) : Out :=
  if s.m.cur = .reset ∨ s.m.cur = .retain ∨ 16 ≤ core then .next s
  else
    let still := ((s.m.cores.zipIdx).filter (fun x => x.1 != core && Config.freeBit (s.free + x.2))).map (·.1)
    let now := still ++ [core]
    let s1 := raise 0x1050 1 [h1 core] { s with m := { s.m with cores := now }, free := s.free + s.m.cores.length }
    done (if 4 ≤ now.length then halt (raise 0x1051 3 [h2 (sumN (now.map (fun c => 2 ^ c)))] s1) else s1)

/-- SPINE_LINK_FAULT (R24): HALTED, the record names the Shed die, which is no longer reached. -/
def execSpineLinkFault (shed : Nat) (s : State) : Out :=
  if s.m.cur = .reset ∨ s.m.cur = .test ∨ s.part.sheds ≤ shed then .next s else 
    done (halt (raise 0x5050 3 [h1 (shed + 1)] { s with fl := { s.fl with down := if s.fl.down.contains shed then s.fl.down else s.fl.down ++ [shed] } }))

/-- REFCLK_38M4_LOST (R430): in RESET the device stays there; in service a fatal fault. -/
def execRefclk38m4Lost (s : State) : Out := if s.m.cur = .reset ∨ s.m.cur = .test then .next s else done (halt s)

/-! ## Power failure (R34, R95 to R97, R361, R362, R444) -/

/-- A pattern test in progress is told to stop (R444). -/
def stopPattern (s : State) : State := { s with ts := { s.ts with fpStop := s.ts.fpStop || s.ts.fpBusy } }

/-- PWRFAIL_N_FALL (R95, R361): a root broadcasts, then the flush. Ignored in RESET and IMAGE_LOAD and in a flush; in TEST only a pattern
test stops. -/
def execPwrfailNFall (s : State) : Out :=
  let t := { s with pins := { s.pins with pwrfailN := false, pfHigh := false } }
  if s.m.cur = .test then done (stopPattern t)
  else if s.m.cur.flushable then done (beginFlush 0 (if isRoot t && t.cad.pfOnPwrfail then sendPf t else t))
  else .next t

/-- PWRFAIL_N_RISE (R34): the 10 ms count begins. -/
def execPwrfailNRise (s : State) : Out := .next { s with pins := { s.pins with pwrfailN := true, pfHigh := true } }

/-- CAD_PF_ACCEPTED (R361, R362): a pulse of at least 208 ns at a leaf or hub; a hub regenerates it in every mode but TEST. -/
def execCadPfAccepted (ns : Nat) (s : State) : Out :=
  if ns < 208 || !s.img.cadEnable || s.img.cadRoot then .next s
  else if s.m.cur = .test then done (stopPattern s)
  else
    let n := ((List.range 32).filter (fun i => bit s.img.downMask i)).length
    let t := if s.img.cadHub then { s with cad := { s.cad with pfPulses := s.cad.pfPulses + n } } else s
    if s.m.cur.flushable then done (beginFlush 1 (raise 0xA040 2 [h1 (if s.img.cadHub then 2 else 1)] t)) else done t

/-- Room in the flush reserve, on the Shed dies whose Spine link stands (R34): the Pen with least written, and its next `n` codeword slots from a multiple of `n` on. -/
def takeReserve (n : Nat) (s : State) : Option (Nat × Nat × State) :=
  let ps := (s.pl.flushRes.filter (fun r => !s.fl.down.contains r.1)).filterMap (fun r => (penOf? r.2 s).map (fun p => (r.2, ceilDiv p.next n * n)))
  let best := ps.foldl (fun (o : Option (Nat × Nat)) p => match o with | none => some p | some q => if p.2 < q.2 then some p else some q) none
  best.map (fun p => (p.1, p.2, updPen p.1 (fun x => { x with next := p.2 + n }) s))

/-- Flush one piece of a write. A conventional unit's pieces lie together: `at_` is the unit being written, its Pen and its first slot. -/
def flushPiece (a : Option (Nat × Nat × Nat) × State) (e : Nat × Nat) : Option (Nat × Nat × Nat) × State :=
  match wrAt e.1 a.2 with
  | none => a
  | some w =>
    if w.owner ≠ convOwner then
      match takeReserve 1 a.2 with
      | some (p, n, t) => (none, pieceDurable e.1 e.2 p n t)
      | none => a
    else match a.1 with
      | some (u, p, n) =>
        if u = e.2 / 8 then (a.1, pieceDurable e.1 e.2 p (n + e.2 % 8 / 2) a.2) else newUnit e a.2
      | none => newUnit e a.2
where
  /-- The first piece of a conventional unit. -/
  newUnit (e : Nat × Nat) (s : State) : Option (Nat × Nat × Nat) × State :=
    match takeReserve 4 s with
    | some (p, n, t) => (some (e.2 / 8, p, n), pieceDurable e.1 e.2 p (n + e.2 % 8 / 2) t)
    | none => (none, s)

/-- The members of a reserve Pen that was written are programmed blocks. -/
def closeReserve (s : State) : State :=
  s.pl.flushRes.foldl (fun s r =>
    match penOf? r.2 s with
    | some p =>
      if p.next = 0 then s
      else p.mem.foldl (fun s m => if m.2.1 = 8191 then s else updBk m.1 m.2.1 (fun b => { b with st := .full, hasLive := false, onebit := true, prechk := true, nextWl := wordlines s.fl.geom }) s)
        (updPen r.2 (fun p => { p with st := .full }) s)
    | none => s) s

/-- Step 5 of Table 3.3: every write decided early, and the marks of failed ones, reach the flush reserve; every other write loses what had not
reached the media (R95, R96). Early data without a place is recorded as lost (R34). -/
def flushData (s : State) : State :=
  let ws := s.zn.wrs.filter (fun w => w.dec == .early || w.dec == .failed)
  let s1 := ws.foldl (fun s w => (w.left.foldl (fun a q => flushPiece a (w.id, q)) (none, s)).2) s
  let lost := s1.zn.wrs.filter (fun w => w.dec == .early && !w.discarded && !w.left.isEmpty)
  let s2 := lost.foldl (fun s w => raise 0x1033 3
    [h2 (if w.owner = convOwner then 2 ^ 31 + w.nsid else w.owner), h2 (minL 0 w.left / 2), h2 (ceilDiv (w.pos + w.len) 2 - minL 0 w.left / 2)] s) s1
  let s3 := closeReserve (cutAll s2)
  { s3 with fl := { s3.fl with ops := [] },
            slk := { s3.slk with poolUse := 0, fns := Tbl.mapV s3.slk.fns (fun _ a => { a with useQ := 0, useP := 0 }) } }

/-- Steps 6 and 7: the fixed set, the closing record unless the start had not ended or the service period is closed already (exactly one
closing record a period, R65), the LUNs parked (R69). -/
def flushFixed (bytes : Nat) (s : State) : State :=
  let s1 := persistStampLife (flushStudbook (cutRecovery s))
  let s1 := if s1.st.up && s1.jn.opened then dropOld s1 else s1
  { s1 with
    jn := if s1.st.up && s1.jn.opened then { s1.jn with closing := .flush, opened := false, flushed := bytes } else s1.jn,
    fl := { s1.fl with parked := true }, pins := { s1.pins with wpLow := true } }

/-- A flush that ran outside the SLC window: 0x2042 (R97). The start after it knows whether it did. -/
def hotFlush (temp : Int) (hot : Bool) (s : State) : State :=
  let t := { s with fl := { s.fl with flushHot := hot } }
  if hot then raise 0x2042 2 [hT temp] t else t

/-- A held reset takes effect when the flush ends (R45): in HALTED only SYS_RST_N. -/
def heldResets (s : State) : State :=
  if s.pins.heldReset = 1 ∨ (s.pins.heldReset = 2 ∧ s.m.cur ≠ .halted) then startNow s else s

/-- The values SLK_LASTFLUSH shows after the next start (Table 3.3 step 6); a flush in a start's own modes records none (R69). -/
def lastFlush (us bytes : Nat) (s : State) : State :=
  if s.st.up then { s with jn := { s.jn with lastFlush := ⟨min us (2 ^ 24 - 1), min (ceilDiv bytes 1024) (2 ^ 24 - 1), 1⟩ } } else s

/-- EMERGENCY_FLUSH_COMPLETE (R95, R34, R97, R45). `temp`: the flash temperature; `us`: how long the flush took. -/
def execEmergencyFlushComplete (temp : Int) (us : Nat) (s : State) : Out :=
  if s.m.cur ≠ .emergencyFlush ∨ s.fl.parked then .next s
  else
    let bytes := useBytes s
    let s1 := hotFlush temp (!withinI s.img.slcLo s.img.slcHi temp) (flushData s)
    let s2 := raise 0x2041 1 [h2 (ceilDiv bytes 1024), h2 us] s1
    let s4 := flushFixed bytes (lastFlush us bytes s2)
    done (heldResets (if s.m.prev = .halted then setMode .halted s4 else s4))

/-- FLUSH_RESTART_DELAY_EXPIRY (R34): a completed flush, PWRFAIL_N high for 10 ms: RESET, ST fields kept. -/
def execFlushRestartDelayExpiry (s : State) : Out :=
  if s.m.cur = .emergencyFlush ∧ s.fl.parked ∧ s.pins.pwrfailN then .next (restart true true s) else .next s

/-! ## Thermal trips (R393) -/

/-- THERMAL_TRIP: die 0 is the Core die, n + 1 Shed die n; `temp` is its reading in degrees. Service life counts the trip. -/
def execThermalTrip (die : Nat) (temp : Int) (s : State) : Out :=
  let t := { s with ts := { s.ts with life := { s.ts.life with trips := satAdd 32 s.ts.life.trips 1 } } }
  if s.m.cur = .test then
    done (tripRecord die temp (stopPattern { t with ts := { t.ts with mbStop := t.ts.mbStop || t.ts.mbBusy } }))
  else if s.m.cur = .emergencyFlush then done (tripRecord die temp t)
  else if s.m.cur = .reset ∨ s.m.cur = .imageLoad then done (halt (tripRecord die temp t))
  else match s.m.drain with
    | .thermalTrip _ _ => done t
    | _ =>
      let chg := s.pins.huChgEn
      let u := proofInterrupt false t
      let v := { u with m := { u.m with drain := .thermalTrip die temp, testPend := false }, pins := { u.pins with huChgEn := chg, huLoad := false },
                        slk := { u.slk with admissionOff := true } }
      done (dropPasses (fun _ => true) (stopArray (dropUndecided v)))

/-- THERMAL_TRIP_DRAIN_END: Slack-acknowledged bytes and the fixed set are written as steps 4 to 7 of Table 3.3 write them, in `us`
microseconds and whatever THM reads; HALTED, 0xB050. -/
def execThermalTripDrainEnd (us : Nat) (s : State) : Out :=
  match s.m.drain with
  | .thermalTrip die temp =>
    let bytes := useBytes s
    let hot := match tfMax s with | some r => r.2.2 | none => 0
    let s1 := flushFixed bytes (lastFlush us bytes (hotFlush hot (s.m.thm == 2) (flushData s)))
    let s2 := halt { s1 with m := { s1.m with drain := .none } }
    done (tripRecord die temp s2)
  | _ => .next s

end Sys2Proof.Machine
end

