-- ==== Sys2Proof/Machine/HalfHitch.lean ====
section
/-! DEFINITION. Half-hitch Append and Half-hitch Read (R274 to R281, R289). -/

namespace Sys2Proof.Machine
open Sys2Proof

/-- SMAP, CDW14–15. -/
def smapOf (c : Cmd) : Nat := c.cdw14.toNat + c.cdw15.toNat * 2 ^ 32

/-- A reserved field of a Half-hitch Append is not zero, or SMAP is not aligned (Table 10.1). -/
def hhAppendBad (c : Cmd) : Bool :=
  bits c.cdw12.toNat 29 16 != 0 || bit c.cdw12.toNat 31 || c.cdw13.toNat != 0 || smapOf c % 8 != 0

/-- A reserved field of a Half-hitch Read is not zero (Table 10.2). -/
def hhReadBad (c : Cmd) : Bool := bits c.cdw12.toNat 29 16 != 0 || bit c.cdw12.toNat 31

/-- Checks 3 and 4 for `u` units: what does not fit, then the zone's state (R116, R277). -/
def hhRoom (q : Zone) (u : Nat) (s : State) : Option (Nat × Nat) :=
  if (stateStatus q).isNone && decide (2 * zcapLbas s.fl.geom < q.wp + u) then some (1, 0xB8) else stateStatus q

/-- The checks at acceptance: those of `hhRoom`, and that a zone reset meanwhile was not opened without COMP (log 46). -/
def hhFit (q : Zone) (u : Nat) (s : State) : Option (Nat × Nat) :=
  match hhRoom q u s with
  | some e => some e
  | none => if q.st.active && !q.comp then some (1, 0xBC) else none

/-- Half-hitch Append's checks 1 to 7, and the wait for its coding (R276, R277). -/
def hhAppendOn (blks : List Blk) (k : Ctx) (s : State) : State :=
  let c := k.cmd
  if !k.snap.write then denyPerm k s
  else withNs k s (fun n =>
    if n.conv then fin k 0 0x01 s
    else if hhAppendBad c then fin k 0 0x02 s
    else if n.nsze ≤ slbaOf c then fin k 0 0x80 s
    else match zoneOfLba n (slbaOf c) with
      | none => fin k 0 0x80 s
      | some (z, off) => match zoneAt? z s with
        | none => fin k 0 0x80 s
        | some q =>
          let m := writeModeStatus (if q.st.active then q.yard else (pickYard k.snap.yards s).getD 64) s
          match m.1 with
          | some e => fin k e.1 e.2 m.2
          | none =>
            let s := m.2
            if off ≠ 0 ∨ 512 < nblocks c then fin k 0 0x02 s
            else match hhRoom q (nblocks c) s with
              | some e => fin k e.1 e.2 s
              | none =>
                if !q.comp then fin k 1 0xBC s
                else if sealDenied z q s then refuseSeal k z s
                else
                  let r := if q.st.isOpen then (none, s) else activate k z Attr.dflt .impOpen s
                  match r.1 with
                  | some e => fin k e.1 e.2 r.2
                  | none => putCtx { k with wait := .halfHitch, data := padTo (4096 * nblocks c) ((blks.take (nblocks c)).flatMap (·.data)) } r.2)

/-- HALF_HITCH_APPEND. -/
def execHalfHitchAppend (c : Cmd) (blks : List Blk) (s : State) : Out :=
  doneIo (withCmd c s (fun k s => gateIo k s (hhAppendOn blks)))

/-- The 4,096-byte blocks of a byte string. -/
def cut4k (n : Nat) (l : List Byte) : List (List Byte) := (List.range n).map (fun i => sliceB l (4096 * i) 4096)

/-- The pieces of coded blocks from a unit on: a half-hitch takes one unit, a spilled block two (R275, R287). The
stored units are encrypted at their place (R277 step 4, R296). -/
def hhPieces (z : Nat) (q : Zone) (w : Nat) (s : State) : List (List Byte × Option (List Byte)) → Nat → List (Nat × Piece)
  | [], _ => []
  | (raw, code) :: t, pos =>
    let u := if code.isSome then 1 else 2
    let d := encPiece z (some q) pos u (code.getD raw) s
    (pos, ⟨u, d, [], false, code.isSome, b2n q.sealF, 0, 0, w, 0⟩) :: hhPieces z q w s t (pos + u)

/-- The spill map: bit k set when block k spilled (R278). -/
def spillMap (l : List Bool) : List Byte :=
  leBytes (ceilDiv l.length 64 * 8) (l.foldr (fun b a => b2n b + 2 * a) 0)

/-- Acceptance with the coded blocks (R277 steps 3 and 4, R278, R289). -/
def hhAccept (mapOk : Bool) (k : Ctx) (n : Ns) (s : State) : State :=
  let c := k.cmd
  let raw := cut4k (nblocks c) k.data
  let coded := raw.map (fun b => (b, hhEncode b))
  let spills := coded.map (fun x => x.2.isNone)
  let u := sumN (spills.map (fun b => 1 + b2n b))
  match zoneOfLba n (slbaOf c) with
  | none => fin k 0 0x80 s
  | some (z, _) => match zoneAt? z s with
    | none => fin k 0 0x80 s
    | some q =>
      let m := writeModeStatus (if q.st.active then q.yard else (pickYard k.snap.yards s).getD 64) s
      match m.1 with
      | some e => fin k e.1 e.2 m.2
      | none =>
        let s := m.2
        match hhFit q u s with
        | some e =>
          fin k e.1 e.2 (if e = (1, 0xB8) then raise 0x3032 1 [h2 z, h2 u, h2 (2 * zcapLbas s.fl.geom - q.wp)] s else s)
        | none =>
          let r := if q.st.isOpen then (none, s) else activate k z ⟨0xFF, 0xF, true, false, 0⟩ .impOpen s
          match r.1 with
          | some e => fin k e.1 e.2 r.2
          | none =>
            let s := r.2
            match zoneAt? z s with
            | none => s
            | some q =>
              let wid := s.zn.nextWr
              let st := hhPieces z q wid s coded q.wp
              let haddr := 2 * q.zslba + q.wp
              let w : Wr := ⟨wid, c.fn, c.sqid, c.cid, k.seq, c.nsid, z, q.wp, u, q.yard, q.gen, fuaOf c, st, false, true,
                if fuaOf c then .fua else .undecided, 0, 0, st.map (·.1), false, false⟩
              let s1 := acceptZone z u { s with zn := { s.zn with nextWr := wid + 1, wrs := s.zn.wrs ++ [w] } }
              let k1 := { k with wait := .write wid, dispatched := true, data := if k.cvus.isEmpty then [] else k.data,
                                 sealF := if q.sealF then 6 else 0, hh := b2n (spills.any id) + 2 * b2n (spills.any (!·)),
                                 dw0 := haddr % 2 ^ 32 + 2 ^ 32 * (haddr / 2 ^ 32 % 128 + 128 * b2n (spills.headD false)) }
              let s2 := if smapOf c = 0 then putCtx k1 s1
                else if mapOk then putCtx k1 { s1 with ga := { s1.ga with wr := s1.ga.wr ++ [(smapOf c, spillMap spills)] } }
                else putCtx { k1 with dw0 := 2 ^ 48 } s1
              let s3 := sealAfter z s2
              if w.fuaFlag then placeWrite wid s3 else decideAll s3

/-- HALF_HITCH_ACCEPTANCE: the last block of a Half-hitch Append is coded. Nothing is accepted once admission has stopped (R96). -/
def execHalfHitchAcceptance (fn sqid cid : Nat) (mapOk : Bool) (s : State) : Out :=
  match ctxNamed fn sqid cid s with
  | some k =>
    if k.wait != .halfHitch || s.m.cur == .emergencyFlush || s.m.cur == .halted then .next s
    else match nsAt? k.cmd.nsid s with
      | some n => doneIo (hhAccept mapOk k n s)
      | none => doneIo (fin k 0 0x0B s)
  | none => .next s

/-- Half-hitch Read's checks before any read is issued (R279, R299). -/
def hhReadOn (k : Ctx) (s : State) : State :=
  let c := k.cmd
  withNs k s (fun n =>
    if n.conv then fin k 0 0x01 s
    else if hhReadBad c ∨ 512 < nblocks c then fin k 0 0x02 s
    else if n.nsze ≤ slbaOf c / 2 then fin k 0 0x80 s
    else match n.zones[slbaOf c / 2 ^ 21]? with
      | none => fin k 0 0x80 s
      | some z => match zoneAt? z s with
        | none => fin k 0 0x80 s
        | some q =>
          if !q.comp then fin k 0 0x02 s
          else if q.st = .offline then fin k 1 0xBB s
          else if sealDenied z q s then refuseSeal k z s
          else putCtx { k with wait := .hhRead } s)

/-- HALF_HITCH_READ: the walk runs as its blocks come (`finishHhRead`). -/
def execHalfHitchRead (c : Cmd) (s : State) : Out := doneIo (withCmd c s (fun k s => gateIo k s hhReadOn))

end Sys2Proof.Machine
end

