-- ==== Sys2Proof/Machine/Dispatch.lean ====
section
/-! DEFINITION. The meaning of each command: one arm per constructor of Instr. -/

namespace Sys2Proof.Machine
open Sys2Proof

/-- The effect of a command on everything but the queue. -/
def exec (i : Instr) (s : State) : Host.Outcome State Fault Refusal :=
  match i with
  | .powerOn => Sys2Proof.Machine.execPowerOn s
  | .sysRstNLow ns => Sys2Proof.Machine.execSysRstNLow ns s
  | .deviceLevelPerst => Sys2Proof.Machine.execDeviceLevelPerst s
  | .deviceResetDrainEnd => Sys2Proof.Machine.execDeviceResetDrainEnd s
  | .portPerst port => Sys2Proof.Machine.execPortPerst port s
  | .dlDown port => Sys2Proof.Machine.execDlDown port s
  | .strapSample dual test noimg => Sys2Proof.Machine.execStrapSample dual test noimg s
  | .imageLoadEnd sfdpOk slotA slotB fwOk => Sys2Proof.Machine.execImageLoadEnd sfdpOk slotA slotB fwOk s
  | .flashDiscoveryEnd luns chs temps => Sys2Proof.Machine.execFlashDiscoveryEnd luns chs temps s
  | .flushRehearsalEnd milliW rate => Sys2Proof.Machine.execFlushRehearsalEnd milliW rate s
  | .tableLoadEnd copy0 copy1 => Sys2Proof.Machine.execTableLoadEnd copy0 copy1 s
  | .proofLoadEnd => Sys2Proof.Machine.execProofLoadEnd s
  | .recoveryEnd lost found => Sys2Proof.Machine.execRecoveryEnd lost found s
  | .startModeOverrun => Sys2Proof.Machine.execStartModeOverrun s
  | .ostlerWatchdogExpiry core => Sys2Proof.Machine.execOstlerWatchdogExpiry core s
  | .spineLinkFault shed => Sys2Proof.Machine.execSpineLinkFault shed s
  | .refclk38m4Lost => Sys2Proof.Machine.execRefclk38m4Lost s
  | .vddRetLost => Sys2Proof.Machine.execVddRetLost s
  | .pwrfailNFall => Sys2Proof.Machine.execPwrfailNFall s
  | .cadPfAccepted ns => Sys2Proof.Machine.execCadPfAccepted ns s
  | .emergencyFlushComplete temp us => Sys2Proof.Machine.execEmergencyFlushComplete temp us s
  | .flushRestartDelayExpiry => Sys2Proof.Machine.execFlushRestartDelayExpiry s
  | .thermalTrip die temp => Sys2Proof.Machine.execThermalTrip die temp s
  | .thermalTripDrainEnd us => Sys2Proof.Machine.execThermalTripDrainEnd us s
  | .huOkRise => Sys2Proof.Machine.execHuOkRise s
  | .huOkFall => Sys2Proof.Machine.execHuOkFall s
  | .chgTimeoutExpiry => Sys2Proof.Machine.execChgTimeoutExpiry s
  | .proofNow fn => Sys2Proof.Machine.execProofNow fn s
  | .proofAgeExpiry => Sys2Proof.Machine.execProofAgeExpiry s
  | .proofWindowOpen => Sys2Proof.Machine.execProofWindowOpen s
  | .proofPulseStart v0 => Sys2Proof.Machine.execProofPulseStart v0 s
  | .proofWindowTimeout => Sys2Proof.Machine.execProofWindowTimeout s
  | .proofPulseEnd v1 v2 => Sys2Proof.Machine.execProofPulseEnd v1 v2 s
  | .proofLoadEvaluation => Sys2Proof.Machine.execProofLoadEvaluation s
  | .slackDecision w rest => Sys2Proof.Machine.execSlackDecision w rest s
  | .slackReport c => Sys2Proof.Machine.execSlackReport c s
  | .namespaceCreate c buf => Sys2Proof.Machine.execNamespaceCreate c buf s
  | .namespaceDelete c => Sys2Proof.Machine.execNamespaceDelete c s
  | .namespaceAttachment c buf => Sys2Proof.Machine.execNamespaceAttachment c buf s
  | .write c blks => Sys2Proof.Machine.execWrite c blks s
  | .writeZeroes c => Sys2Proof.Machine.execWriteZeroes c s
  | .zoneAppend c blks => Sys2Proof.Machine.execZoneAppend c blks s
  | .read c => Sys2Proof.Machine.execRead c s
  | .datasetManagement c buf => Sys2Proof.Machine.execDatasetManagement c buf s
  | .flush c => Sys2Proof.Machine.execFlush c s
  | .zoneOpen c => Sys2Proof.Machine.execZoneOpen c s
  | .zoneClose c => Sys2Proof.Machine.execZoneClose c s
  | .zoneFinish c => Sys2Proof.Machine.execZoneFinish c s
  | .zoneReset c => Sys2Proof.Machine.execZoneReset c s
  | .scrubbingReset c => Sys2Proof.Machine.execScrubbingReset c s
  | .zoneOfflineAction c => Sys2Proof.Machine.execZoneOfflineAction c s
  | .setZoneDescriptorExtension c => Sys2Proof.Machine.execSetZoneDescriptorExtension c s
  | .reportZones c => Sys2Proof.Machine.execReportZones c s
  | .extendedReportZones c => Sys2Proof.Machine.execExtendedReportZones c s
  | .placementOpen c => Sys2Proof.Machine.execPlacementOpen c s
  | .zoneFinishedByController zone => Sys2Proof.Machine.execZoneFinishedByController zone s
  | .scrubComplete zone => Sys2Proof.Machine.execScrubComplete zone s
  | .scrubScheduleBreakExpiry zone => Sys2Proof.Machine.execScrubScheduleBreakExpiry zone s
  | .sanitizeBlockErase c => Sys2Proof.Machine.execSanitizeBlockErase c s
  | .sanitizeCryptoErase c => Sys2Proof.Machine.execSanitizeCryptoErase c s
  | .sanitizeExitFailureMode c => Sys2Proof.Machine.execSanitizeExitFailureMode c s
  | .sanitizeOverwrite c => Sys2Proof.Machine.execSanitizeOverwrite c s
  | .sanitizeEnd failed => Sys2Proof.Machine.execSanitizeEnd failed s
  | .formatNvm c => Sys2Proof.Machine.execFormatNvm c s
  | .conventionalGarbageCollection => Sys2Proof.Machine.execConventionalGarbageCollection s
  | .setFeaturesYardLayout c buf => Sys2Proof.Machine.execSetFeaturesYardLayout c buf s
  | .fold zone => Sys2Proof.Machine.execFold zone s
  | .paddockCompaction yard => Sys2Proof.Machine.execPaddockCompaction yard s
  | .relocation pen => Sys2Proof.Machine.execRelocation pen s
  | .wearLevelling yard => Sys2Proof.Machine.execWearLevelling yard s
  | .landingSpaceReturns yard => Sys2Proof.Machine.execLandingSpaceReturns yard s
  | .yardStatusLog c => Sys2Proof.Machine.execYardStatusLog c s
  | .arrayOperationStart ch typ => Sys2Proof.Machine.execArrayOperationStart ch typ s
  | .programEnd ch lun pass => Sys2Proof.Machine.execProgramEnd ch lun pass s
  | .eraseEnd ch lun pass => Sys2Proof.Machine.execEraseEnd ch lun pass s
  | .readEnd ch lun ladder corr => Sys2Proof.Machine.execReadEnd ch lun ladder corr s
  | .preProgramCheckEnd ch lun zeros => Sys2Proof.Machine.execPreProgramCheckEnd ch lun zeros s
  | .suspendArbiterDecision op => Sys2Proof.Machine.execSuspendArbiterDecision op s
  | .suspendRunMinReached ch lun => Sys2Proof.Machine.execSuspendRunMinReached ch lun s
  | .dieSuspended ch lun => Sys2Proof.Machine.execDieSuspended ch lun s
  | .suspendHoldExpiry ch lun => Sys2Proof.Machine.execSuspendHoldExpiry ch lun s
  | .continuousReadWaitExpiry ch lun => Sys2Proof.Machine.execContinuousReadWaitExpiry ch lun s
  | .eyePass ch eye => Sys2Proof.Machine.execEyePass ch eye s
  | .retrainEnd ch eyeRd eyeWr rate => Sys2Proof.Machine.execRetrainEnd ch eyeRd eyeWr rate s
  | .lunTimeout ch lun => Sys2Proof.Machine.execLunTimeout ch lun s
  | .tackFirmwareRefresh shed moved => Sys2Proof.Machine.execTackFirmwareRefresh shed moved s
  | .fchDiagGo fn ch v => Sys2Proof.Machine.execFchDiagGo fn ch v s
  | .fchDiagDone ch zeros corr ladder => Sys2Proof.Machine.execFchDiagDone ch zeros corr ladder s
  | .lowWearListRefillEnd ch lun => Sys2Proof.Machine.execLowWearListRefillEnd ch lun s
  | .reconstructionEnd op ladder => Sys2Proof.Machine.execReconstructionEnd op ladder s
  | .sramCorrectableError die region word syndrome => Sys2Proof.Machine.execSramCorrectableError die region word syndrome s
  | .sramUncorrectableError die region word syndrome hit again => Sys2Proof.Machine.execSramUncorrectableError die region word syndrome hit again s
  | .tableLineRebuildEnd die region word ok => Sys2Proof.Machine.execTableLineRebuildEnd die region word ok s
  | .eccFlipArm fn v => Sys2Proof.Machine.execEccFlipArm fn v s
  | .eccFlipDisarm fn v => Sys2Proof.Machine.execEccFlipDisarm fn v s
  | .currycombPass c => Sys2Proof.Machine.execCurrycombPass c s
  | .currycombAutoPassStart => Sys2Proof.Machine.execCurrycombAutoPassStart s
  | .currycombPassEnd res => Sys2Proof.Machine.execCurrycombPassEnd res s
  | .entropyHealthFail => Sys2Proof.Machine.execEntropyHealthFail s
  | .sqTailDoorbell fn qid val => Sys2Proof.Machine.execSqTailDoorbell fn qid val s
  | .cqHeadDoorbell fn qid val => Sys2Proof.Machine.execCqHeadDoorbell fn qid val s
  | .fetchSlot c => Sys2Proof.Machine.execFetchSlot c s
  | .controllerEnable fn cc => Sys2Proof.Machine.execControllerEnable fn cc s
  | .controllerReset fn => Sys2Proof.Machine.execControllerReset fn s
  | .functionLevelResetPf fn => Sys2Proof.Machine.execFunctionLevelResetPf fn s
  | .shutdown fn shn => Sys2Proof.Machine.execShutdown fn shn s
  | .shutdownComplete fn => Sys2Proof.Machine.execShutdownComplete fn s
  | .createIoSq c => Sys2Proof.Machine.execCreateIoSq c s
  | .createIoCq c => Sys2Proof.Machine.execCreateIoCq c s
  | .deleteIoSq c => Sys2Proof.Machine.execDeleteIoSq c s
  | .deleteIoCq c => Sys2Proof.Machine.execDeleteIoCq c s
  | .getLogPage c => Sys2Proof.Machine.execGetLogPage c s
  | .identify c => Sys2Proof.Machine.execIdentify c s
  | .getFeatures c => Sys2Proof.Machine.execGetFeatures c s
  | .setFeaturesArbitration c => Sys2Proof.Machine.execSetFeaturesArbitration c s
  | .setFeaturesVolatileWriteCache c => Sys2Proof.Machine.execSetFeaturesVolatileWriteCache c s
  | .setFeaturesNumberOfQueues c => Sys2Proof.Machine.execSetFeaturesNumberOfQueues c s
  | .setFeaturesInterruptCoalescing c => Sys2Proof.Machine.execSetFeaturesInterruptCoalescing c s
  | .setFeaturesInterruptVectorConfig c => Sys2Proof.Machine.execSetFeaturesInterruptVectorConfig c s
  | .setFeaturesWriteAtomicity c => Sys2Proof.Machine.execSetFeaturesWriteAtomicity c s
  | .setFeaturesAsyncEventConfig c => Sys2Proof.Machine.execSetFeaturesAsyncEventConfig c s
  | .setFeaturesHostBehaviorSupport c buf => Sys2Proof.Machine.execSetFeaturesHostBehaviorSupport c buf s
  | .setFeaturesExtensionLevel c => Sys2Proof.Machine.execSetFeaturesExtensionLevel c s
  | .setFeaturesPowerManagement c => Sys2Proof.Machine.execSetFeaturesPowerManagement c s
  | .setFeaturesApst c buf => Sys2Proof.Machine.execSetFeaturesApst c buf s
  | .setFeaturesNopsc c => Sys2Proof.Machine.execSetFeaturesNopsc c s
  | .setFeaturesTemperatureThreshold c => Sys2Proof.Machine.execSetFeaturesTemperatureThreshold c s
  | .apstIdleExpiry fn => Sys2Proof.Machine.execApstIdleExpiry fn s
  | .asynchronousEventRequest c => Sys2Proof.Machine.execAsynchronousEventRequest c s
  | .abort c => Sys2Proof.Machine.execAbort c s
  | .firmwareImageDownload c => Sys2Proof.Machine.execFirmwareImageDownload c s
  | .fwCommitReplace c => Sys2Proof.Machine.execFwCommitReplace c s
  | .fwCommitReplaceActivateNext c => Sys2Proof.Machine.execFwCommitReplaceActivateNext c s
  | .fwCommitActivateNext c => Sys2Proof.Machine.execFwCommitActivateNext c s
  | .fwCommitActivateNow c => Sys2Proof.Machine.execFwCommitActivateNow c s
  | .fwCommitCheckDone ok rev => Sys2Proof.Machine.execFwCommitCheckDone ok rev s
  | .fwActivationEnd ok => Sys2Proof.Machine.execFwActivationEnd ok s
  | .interruptCoalescingTimeExpiry fn vec => Sys2Proof.Machine.execInterruptCoalescingTimeExpiry fn vec s
  | .hostMemoryError fn sqid cid => Sys2Proof.Machine.execHostMemoryError fn sqid cid s
  | .gatherRead c => Sys2Proof.Machine.execGatherRead c s
  | .gatherChannelGrant mem => Sys2Proof.Machine.execGatherChannelGrant mem s
  | .gatherChannelWaitExpiry fn sqid cid => Sys2Proof.Machine.execGatherChannelWaitExpiry fn sqid cid s
  | .gatherReadComplete ch badBeat => Sys2Proof.Machine.execGatherReadComplete ch badBeat s
  | .beatLaneAgeing ch => Sys2Proof.Machine.execBeatLaneAgeing ch s
  | .gdcStart fn ch v mem => Sys2Proof.Machine.execGdcStart fn ch v mem s
  | .gdcStop fn ch w => Sys2Proof.Machine.execGdcStop fn ch w s
  | .gdcResume fn ch v mem => Sys2Proof.Machine.execGdcResume fn ch v mem s
  | .gdcClear fn ch v => Sys2Proof.Machine.execGdcClear fn ch v s
  | .gdcTransferEnd ch moved mem => Sys2Proof.Machine.execGdcTransferEnd ch moved mem s
  | .halfHitchAppend c blks => Sys2Proof.Machine.execHalfHitchAppend c blks s
  | .halfHitchAcceptance fn sqid cid mapOk => Sys2Proof.Machine.execHalfHitchAcceptance fn sqid cid mapOk s
  | .halfHitchRead c => Sys2Proof.Machine.execHalfHitchRead c s
  | .keySlotWrite fn off bytes => Sys2Proof.Machine.execKeySlotWrite fn off bytes s
  | .sealZone c => Sys2Proof.Machine.execSealZone c s
  | .cvuInit fn unit v => Sys2Proof.Machine.execCvuInit fn unit v s
  | .cvuFeedWrite fn unit bytes => Sys2Proof.Machine.execCvuFeedWrite fn unit bytes s
  | .cvuValWrite fn unit v => Sys2Proof.Machine.execCvuValWrite fn unit v s
  | .vfEnableSet => Sys2Proof.Machine.execVfEnableSet s
  | .vfEnableClear => Sys2Proof.Machine.execVfEnableClear s
  | .numvfsWrite n => Sys2Proof.Machine.execNumvfsWrite n s
  | .virtMgmtResourceAssign c => Sys2Proof.Machine.execVirtMgmtResourceAssign c s
  | .virtMgmtSecondaryOnline c => Sys2Proof.Machine.execVirtMgmtSecondaryOnline c s
  | .virtMgmtSecondaryOffline c => Sys2Proof.Machine.execVirtMgmtSecondaryOffline c s
  | .vfFunctionLevelReset fn => Sys2Proof.Machine.execVfFunctionLevelReset fn s
  | .stallResourceSet c buf => Sys2Proof.Machine.execStallResourceSet c buf s
  | .stallFreeze c => Sys2Proof.Machine.execStallFreeze c s
  | .stallThaw c => Sys2Proof.Machine.execStallThaw c s
  | .stallFreezeQuiet fn => Sys2Proof.Machine.execStallFreezeQuiet fn s
  | .stallFreezeTimeout fn => Sys2Proof.Machine.execStallFreezeTimeout fn s
  | .stallSave c => Sys2Proof.Machine.execStallSave c s
  | .stallRestore c buf => Sys2Proof.Machine.execStallRestore c buf s
  | .turnStart => Sys2Proof.Machine.execTurnStart s
  | .epochBoundary => Sys2Proof.Machine.execEpochBoundary s
  | .turnHeader t => Sys2Proof.Machine.execTurnHeader t s
  | .allQuiet n seq => Sys2Proof.Machine.execAllQuiet n seq s
  | .release seq => Sys2Proof.Machine.execRelease seq s
  | .resync epoch seq => Sys2Proof.Machine.execResync epoch seq s
  | .allQuietExpiry => Sys2Proof.Machine.execAllQuietExpiry s
  | .lockAcquired => Sys2Proof.Machine.execLockAcquired s
  | .lockLost clock => Sys2Proof.Machine.execLockLost clock s
  | .pollStatus slot => Sys2Proof.Machine.execPollStatus slot s
  | .pollIdent slot => Sys2Proof.Machine.execPollIdent slot s
  | .pollSchedCommit slot arg => Sys2Proof.Machine.execPollSchedCommit slot arg s
  | .pollSchedData slot idx data => Sys2Proof.Machine.execPollSchedData slot idx data s
  | .pollUnknown slot ask => Sys2Proof.Machine.execPollUnknown slot ask s
  | .rootPollAnswer addr code ports words => Sys2Proof.Machine.execRootPollAnswer addr code ports words s
  | .participantAbsent addr => Sys2Proof.Machine.execParticipantAbsent addr s
  | .portTrainingSweepEnd port steps => Sys2Proof.Machine.execPortTrainingSweepEnd port steps s
  | .cadenceScheduleLoad c buf => Sys2Proof.Machine.execCadenceScheduleLoad c buf s
  | .scheduleDeliveryTimeout => Sys2Proof.Machine.execScheduleDeliveryTimeout s
  | .cadPfSend fn => Sys2Proof.Machine.execCadPfSend fn s
  | .tokenRelease fn => Sys2Proof.Machine.execTokenRelease fn s
  | .relock fn => Sys2Proof.Machine.execRelock fn s
  | .cadRootCmdSend fn v => Sys2Proof.Machine.execCadRootCmdSend fn v s
  | .cadRootEpochWrite fn v => Sys2Proof.Machine.execCadRootEpochWrite fn v s
  | .cadenceDomainStatusLog c => Sys2Proof.Machine.execCadenceDomainStatusLog c s
  | .powerLoopWindow pMeas => Sys2Proof.Machine.execPowerLoopWindow pMeas s
  | .housekeepingRound r => Sys2Proof.Machine.execHousekeepingRound r s
  | .nonopEntryBegin => Sys2Proof.Machine.execNonopEntryBegin s
  | .sleepHandshakeReply agree => Sys2Proof.Machine.execSleepHandshakeReply agree s
  | .nonopExitEnd hdr => Sys2Proof.Machine.execNonopExitEnd hdr s
  | .pwrMeasRead fn => Sys2Proof.Machine.execPwrMeasRead fn s
  | .studbookRecordPlace => Sys2Proof.Machine.execStudbookRecordPlace s
  | .studbookPersist => Sys2Proof.Machine.execStudbookPersist s
  | .studbookRead c => Sys2Proof.Machine.execStudbookRead c s
  | .stbSlotFirstDwordRead view slot => Sys2Proof.Machine.execStbSlotFirstDwordRead view slot s
  | .tapReset => Sys2Proof.Machine.execTapReset s
  | .samplePreload inp shift => Sys2Proof.Machine.execSamplePreload inp shift s
  | .idcode => Sys2Proof.Machine.execIdcode s
  | .extest shift => Sys2Proof.Machine.execExtest shift s
  | .clamp => Sys2Proof.Machine.execClamp s
  | .highz => Sys2Proof.Machine.execHighz s
  | .extestPulse => Sys2Proof.Machine.execExtestPulse s
  | .extestTrain => Sys2Proof.Machine.execExtestTrain s
  | .bypass ir => Sys2Proof.Machine.execBypass ir s
  | .testEnter key => Sys2Proof.Machine.execTestEnter key s
  | .testDrainEnd => Sys2Proof.Machine.execTestDrainEnd s
  | .tstat => Sys2Proof.Machine.execTstat s
  | .txsRead off => Sys2Proof.Machine.execTxsRead off s
  | .mbist v => Sys2Proof.Machine.execMbist v s
  | .mbistRes => Sys2Proof.Machine.execMbistRes s
  | .mbistEnd res => Sys2Proof.Machine.execMbistEnd res s
  | .fptest v => Sys2Proof.Machine.execFptest v s
  | .fpRes => Sys2Proof.Machine.execFpRes s
  | .fptestEnd res bad => Sys2Proof.Machine.execFptestEnd res bad s
  | .spiProg v => Sys2Proof.Machine.execSpiProg v s
  | .serviceLifeLog c => Sys2Proof.Machine.execServiceLifeLog c s
  | .nvmeMiCommand fn => Sys2Proof.Machine.execNvmeMiCommand fn s
  | .i3cDynamicAddressAssignment addr => Sys2Proof.Machine.execI3cDynamicAddressAssignment addr s
  | .registerWrite fn space off width v => Sys2Proof.Machine.execRegisterWrite fn space off width v s
  | .regReadLowDword fn space a => Sys2Proof.Machine.execRegReadLowDword fn space a s
  | .regReadHighDword fn space a => Sys2Proof.Machine.execRegReadHighDword fn space a s
  | .powerLoss => Sys2Proof.Machine.execPowerLoss s
  | .pwrfailNRise => Sys2Proof.Machine.execPwrfailNRise s
  | .sysRstNRise => Sys2Proof.Machine.execSysRstNRise s
  | .perstDeassert port => Sys2Proof.Machine.execPerstDeassert port s
  | .journalCheckpoint => Sys2Proof.Machine.execJournalCheckpoint s
  | .oscillator32kStopped => Sys2Proof.Machine.execOscillator32kStopped s
  | .invalidCommandOpcode c => Sys2Proof.Machine.execInvalidCommandOpcode c s

end Sys2Proof.Machine
end

