-- ==== Sys2Proof/Machine/Pins.lean ====
section
/-! DEFINITION. The balls of the package: the net each carries (R412 to R418), and what the device drives on the control balls that its
state decides (R419, R421). -/

namespace Sys2Proof.Machine
open Sys2Proof

/-- What a ball carries: a plane, a signal of a flash channel, of a PCIe lane or port, of a cadence port (32 the upstream one), or of the
service corner, named as the tables name it. -/
inductive Net where
  | plane (name : String)
  | chan (c : Nat) (sig : String)
  | lane (l : Nat) (tx pos : Bool)
  | pcie (sig : String)
  | cad (port : Nat) (sig : String)
  | serv (sig : String)
deriving DecidableEq, Repr

/-- The ground plane. -/
def Net.gnd : Net := .plane "GND"

/-! ## Flash channels (R414) -/

/-- Table 16.3: the names at depths 1 to 16, columns 1 and 2 of the block. -/
def chTable : List (String × String) :=
  [("GND", "GND"), ("DQ0", "DQ1"), ("DQ2", "DQ3"), ("VDDQ_NAND", "GND"), ("DQS_T", "DQS_C"), ("DQ4", "DQ5"), ("DQ6", "DQ7"), ("GND", "VDDQ_NAND"),
   ("RE_T", "RE_C"), ("WE_N", "ALE"), ("CLE", "WP_N"), ("GND", "VDDQ_NAND"), ("CE0_N", "CE1_N"), ("CE2_N", "CE3_N"), ("RB_N", "VSEL"), ("VDDQ_NAND", "GND")]

/-- The net at depth d, column w of channel c's block. -/
def chNet (c d w : Nat) : Net :=
  let e := nth chTable (d - 1) ("GND", "GND")
  let n := if w = 1 then e.1 else e.2
  if n == "GND" || n == "VDDQ_NAND" then .plane n else .chan c n

/-- The ball, as row and column, of depth d and column w of channel c's block (Table 16.4). -/
def chPlace (c d w : Nat) : Nat × Nat :=
  let k := c % 16
  match c / 16 with
  | 0 => (d, 19 + 2 * k + (w - 1))
  | 1 => (19 + 2 * k + (w - 1), 69 - d)
  | 2 => (69 - d, 50 - 2 * k - (w - 1))
  | _ => (50 - 2 * k - (w - 1), d)

/-! ## The corners and the centre (R415 to R418) -/

/-- The host corner (R415). -/
def hostNet (r c : Nat) : Net :=
  let lane := fun (base : Nat) (tx : Bool) => if c ≤ 16 then Net.lane (base + (c - 1) / 2) tx (c % 2 == 1) else .gnd
  match r with
  | 2 => lane 0 true
  | 4 => lane 0 false
  | 8 => lane 8 true
  | 10 => lane 8 false
  | 13 => match c with
    | 1 => .pcie "REFCLK_A_P" | 2 => .pcie "REFCLK_A_N" | 4 => .pcie "REFCLK_B_P" | 5 => .pcie "REFCLK_B_N" | 7 => .pcie "PERST_A_N"
    | 8 => .pcie "PERST_B_N" | 9 => .pcie "CLKREQ_A_N" | 10 => .pcie "CLKREQ_B_N" | 11 => .pcie "PCIE_CAL" | _ => .gnd
  | _ => if 14 ≤ r ∧ r ≤ 17 then (if c ≤ 12 then .plane "VDD_PCIE_08" else .plane "VDD_PCIE_12") else .gnd

/-- A cadence corner whose first row is r0; `first` is the port of its block 0, 32 in corner A (R416). -/
def cadNet (r0 : Nat) (cornerA : Bool) (r c : Nat) : Net :=
  let b := 4 * ((r - r0) / 3) + (c - 51) / 4
  let row := (r - r0) % 3
  if 66 < c ∨ row = 2 ∨ (if cornerA then 16 < b else 15 < b) then .gnd
  else
    let port := if cornerA then (if b = 0 then 32 else b - 1) else 16 + b
    .cad port (nth (if row = 0 then ["CK_P", "CK_N", "DN_P", "DN_N"] else ["UP_P", "UP_N", "PF_P", "PF_N"]) ((c - 51) % 4) "")

/-- The n-th of the names, in the column after `from`. -/
def servAt (start c : Nat) (l : List String) : Net := if start ≤ c then (match l[c - start]? with | some n => .serv n | none => .gnd) else .gnd

/-- The service corner (Table 16.5). -/
def servNet (r c : Nat) : Net :=
  match r with
  | 54 => if c ≤ 12 then .plane "VDD_AON" else .gnd
  | 56 => .plane "VDD_RET"
  | 57 => if c ≤ 6 then .plane "VDD_RET" else if c ≤ 12 then .gnd else .plane "VDD_IO"
  | 58 => .plane "VDD_IO"
  | 60 => servAt 1 c ["GPIO0", "GPIO1", "GPIO2", "GPIO3", "GPIO4", "GPIO5", "GPIO6", "GPIO7", "GPIO8", "GPIO9", "GPIO10", "GPIO11", "GPIO12", "GPIO13",
      "GPIO14", "GPIO15"]
  | 62 => if c ≤ 10 then servAt 1 c ["TH0", "TH1", "TH2", "TH3", "TH4", "TH5", "TH6", "TH7", "TH_REF", "TH_GND"]
      else servAt 12 c ["TCK", "TMS", "TDI", "TDO", "TRST_N"]
  | 64 => if c ≤ 6 then servAt 1 c ["SPI_SCK", "SPI_CS_N", "SPI_IO0", "SPI_IO1", "SPI_IO2", "SPI_IO3"]
      else if c ≤ 10 then servAt 8 c ["MB_SCL", "MB_SDA", "MB_ALERT_N"] else servAt 12 c ["SYS_RST_N", "STRAP_DUAL", "STRAP_TEST", "STRAP_NOIMG"]
  | 66 => if c ≤ 5 then servAt 1 c ["HU_SENSE", "HU_LOAD", "HU_CHG_EN", "HU_OK", "PWRFAIL_N"] else servAt 8 c ["XIN38", "XOUT38", "XIN32K", "XOUT32K"]
  | _ => .gnd

/-- A centre ball (R418). -/
def centreNet (r c : Nat) : Net :=
  if (r + c) % 2 = 0 then .gnd else if 19 ≤ r ∧ r ≤ 50 ∧ 17 ≤ c ∧ c ≤ 24 then .plane "VDD_SRAM" else .plane "VDD_CORE"

/-- The net of the ball at row r, column c, each 1 to 68 (Table 16.2). -/
def ballNet (r c : Nat) : Net :=
  let midC := decide (19 ≤ c ∧ c ≤ 50)
  let midR := decide (19 ≤ r ∧ r ≤ 50)
  if r ≤ 16 && midC then chNet ((c - 19) / 2) r ((c - 19) % 2 + 1)
  else if midR && decide (53 ≤ c) then chNet (16 + (r - 19) / 2) (69 - c) ((r - 19) % 2 + 1)
  else if decide (53 ≤ r) && midC then chNet (32 + (50 - c) / 2) (69 - r) ((50 - c) % 2 + 1)
  else if midR && decide (c ≤ 16) then chNet (48 + (50 - r) / 2) c ((50 - r) % 2 + 1)
  else if r ≤ 18 ∧ c ≤ 18 then hostNet r c
  else if r ≤ 18 ∧ 51 ≤ c then cadNet 1 true r c
  else if 51 ≤ r ∧ 51 ≤ c then cadNet 51 false r c
  else if 51 ≤ r ∧ c ≤ 18 then servNet r c
  else centreNet r c

/-! ## What the device drives (R419, R421) -/

/-- The level the device drives on an output that its state decides: none where it drives none, or where the level is the interface's own.
Boundary scan with HIGHZ releases every ball. -/
def ballDrive (n : Net) (s : State) : Option Bool :=
  if s.ts.drive = 2 then none
  else match n with
    | .serv "HU_LOAD" => some s.pins.huLoad
    | .serv "HU_CHG_EN" => some s.pins.huChgEn
    | .serv "GPIO0" => (gpioBalls s)[0]?.getD none
    | .serv "GPIO1" => (gpioBalls s)[1]?.getD none
    | .serv "GPIO2" => (gpioBalls s)[2]?.getD none
    | .serv "GPIO3" => (gpioBalls s)[3]?.getD none
    | .serv "GPIO4" => (gpioBalls s)[4]?.getD none
    | .chan c sig =>
      if s.part.channels ≤ c then none
      else if sig = "WP_N" then some (!s.pins.wpLow)
      else if s.m.cur = .reset ∧ ["CE0_N", "CE1_N", "CE2_N", "CE3_N"].contains sig then some true
      else if s.m.cur = .halted ∧ s.fl.parked ∧ ["CE0_N", "CE1_N", "CE2_N", "CE3_N"].contains sig then some true
      else none
    | _ => none

end Sys2Proof.Machine
end

