-- ==== Sys2Proof/Safety.lean ====
section
/-! DEFINITION. What a safe run is, in the terms the statements use: how a meaning ends, which command of a submission queue runs, and
the bounds no step may break. -/

namespace Sys2Proof.Machine
open Sys2Proof

/-- The outcome is a next state. -/
def isNext (o : Host.Outcome State Fault Refusal) : Prop := ∃ t, o = .next t

/-! ## How a meaning ends -/

/-- The state a meaning answers once its effect `u` is there: the deletions it lets end have ended and its events are queued (R235, R400). -/
def after (u : State) : State := settle (endDeletes u)

/-- The same for a meaning that touches the flash: reads whose blocks can now be had go on, a media pass of the Currycomb reads on, suspended
operations resume where no read is left for them, and a Yard without landing space says so. -/
def afterIo (u : State) : State := after (landWatch (resumeIdle (combPump (pumpReads u))))

/-! ## Commands of submission queues -/

/-- The context a command runs on and the state it starts from: one FETCH_SLOT has fetched it, or it is fetched now (R229 to R231). -/
def taken (c : Cmd) (s : State) : Option (Ctx × State) :=
  match fetchedCtx c s with
  | some k => some (k, s)
  | none => if mayFetch c.fn s && sqLive c.fn c.sqid s && ctxFree c.fn s then some (fetchNow c s) else none

/-- A command of no form that R226 excludes. -/
def plainForm (k : Ctx) : Prop := k.cmd.fuse = 0 ∧ k.cmd.bitBucket = false

/-- No sanitize stands in the way (R126). -/
def notSanitizing (s : State) : Prop := s.m.cur ≠ .sanitize ∧ s.zn.sanFail = false

/-- An access does not start the device anew: VDD_RET was not lost in RETAIN (R374, R385). -/
def plainWake (s : State) : Prop := s.pw.ps ≤ 3 ∨ s.pw.retLost = false

/-- The completion a command ends with: its context, the status, DW0 and data, posted on the state `u`. -/
def endsWith (k : Ctx) (sct sc dw0 : Nat) (data : List Byte) (u v : State) : Prop :=
  ∃ k', k'.cmd = k.cmd ∧ k'.seq = k.seq ∧ k'.wait = k.wait ∧ v = postFull k' sct sc dw0 0 data u

/-- A Send action on one zone: write permission, an attached zoned namespace, no Select All, the first block of one of its zones. -/
def sendsTo (k : Ctx) (s : State) (n : Ns) (z : Nat) (q : Zone) : Prop :=
  k.snap.write = true ∧ nsFor? k.cmd.fn k.cmd.nsid s = some n ∧ n.conv = false ∧ selAllOf k.cmd = false ∧ slbaOf k.cmd < n.nsze ∧
    slbaOf k.cmd % 2 ^ 20 = 0 ∧ zoneOfLba n (slbaOf k.cmd) = some (z, 0) ∧ zoneAt? z s = some q

/-! ## The Studbook's bounds -/

/-- An event of this code is among those the step raised. -/
def raises (code : Nat) (u : State) : Prop := ∃ e ∈ u.stb.raised, e.code = code

/-- The Studbook's buffers hold no more than the spec gives them: 256 queued events, 16 always-on events, 64 early records, 32,768 slots
of the ring, each used once (R51, R397, R400, R405). -/
def stbBounds (s : State) : Prop :=
  s.stb.queue.length ≤ 256 ∧ s.stb.aon.length ≤ 16 ∧ (s.stb.loaded = false → s.stb.early.length ≤ 64) ∧
    s.stb.ring.rising = true ∧ s.stb.ring.length ≤ 32768 ∧ s.stb.per.ring.rising = true ∧ s.stb.per.ring.length ≤ 32768

/-- What every step keeps: the bounds, and no event left between two steps. -/
def StbInv (s : State) : Prop := stbBounds s ∧ s.stb.raised = []

/-! ## Frames -/

/-- The components of State, but for the part, which no command changes, and the queue of commands, which is the step's. -/
inductive Comp where
  | m | pins | st | img | tm | pw | slk | zn | pl | fl | ecc | q | stb | jn | stl | ci | ga | cad | ts | rg | free
deriving DecidableEq, Repr

/-- A component reads the same in two states. -/
def keeps (c : Comp) (s t : State) : Prop :=
  match c with
  | .m => t.m = s.m
  | .pins => t.pins = s.pins
  | .st => t.st = s.st
  | .img => t.img = s.img
  | .tm => t.tm = s.tm
  | .pw => t.pw = s.pw
  | .slk => t.slk = s.slk
  | .zn => t.zn = s.zn
  | .pl => t.pl = s.pl
  | .fl => t.fl = s.fl
  | .ecc => t.ecc = s.ecc
  | .q => t.q = s.q
  | .stb => t.stb = s.stb
  | .jn => t.jn = s.jn
  | .stl => t.stl = s.stl
  | .ci => t.ci = s.ci
  | .ga => t.ga = s.ga
  | .cad => t.cad = s.cad
  | .ts => t.ts = s.ts
  | .rg => t.rg = s.rg
  | .free => t.free = s.free

/-- The commands that access a register, and so may wake the device (R374). -/
def accesses (i : Instr) : Bool :=
  match i with
  | .proofNow .. | .fchDiagGo .. | .eccFlipArm .. | .eccFlipDisarm .. | .sqTailDoorbell .. | .controllerEnable .. | .controllerReset .. |
    .shutdown .. | .fwActivationEnd .. | .gdcStart .. | .gdcStop .. | .gdcResume .. | .gdcClear .. | .keySlotWrite .. | .cvuInit .. |
    .cvuFeedWrite .. | .cvuValWrite .. | .cadPfSend .. | .tokenRelease .. | .relock .. | .cadRootCmdSend .. | .cadRootEpochWrite .. |
    .pwrMeasRead .. | .stbSlotFirstDwordRead .. | .nvmeMiCommand .. | .registerWrite .. | .regReadLowDword .. | .regReadHighDword .. => true
  | _ => false

/-- The components a command may change, whatever state it finds; those of a register access are given for a device that the access does not
start anew. Posting a completion touches `q` and, through a check-value unit that follows its queue, `ci`; an event touches `stb`. -/
def mayChange (i : Instr) : List Comp :=
  match i with
  | .pwrfailNRise | .sysRstNRise | .perstDeassert .. =>
    [.pins]
  | .vddRetLost | .oscillator32kStopped =>
    [.pw]
  | .numvfsWrite .. =>
    [.stl]
  | .i3cDynamicAddressAssignment .. =>
    [.ts]
  | .interruptCoalescingTimeExpiry .. =>
    [.q, .stb, .ci]
  | .sramCorrectableError .. =>
    [.ecc, .q, .stb, .ci]
  | .dieSuspended .. | .suspendHoldExpiry .. | .continuousReadWaitExpiry .. | .eyePass .. | .tackFirmwareRefresh .. =>
    [.fl, .q, .stb, .ci]
  | .sqTailDoorbell .. | .apstIdleExpiry .. | .keySlotWrite .. | .cvuInit .. | .cvuFeedWrite .. | .cvuValWrite .. | .nonopEntryBegin =>
    [.pw, .q, .stb, .ci]
  | .allQuiet .. | .release .. | .resync .. | .lockAcquired | .pollStatus .. | .pollIdent .. | .pollSchedCommit .. | .pollSchedData .. |
    .pollUnknown .. | .rootPollAnswer .. | .participantAbsent .. | .portTrainingSweepEnd .. | .scheduleDeliveryTimeout =>
    [.q, .stb, .ci, .cad]
  | .studbookRecordPlace | .studbookPersist =>
    [.q, .stb, .ci, .free]
  | .gatherChannelWaitExpiry .. | .beatLaneAgeing .. =>
    [.q, .stb, .ci, .ga]
  | .tapReset | .samplePreload .. | .idcode | .extest .. | .clamp | .highz | .extestPulse | .extestTrain | .bypass .. | .tstat |
    .mbistRes | .fpRes =>
    [.q, .stb, .ci, .ts]
  | .sanitizeOverwrite .. | .fetchSlot .. | .createIoSq .. | .createIoCq .. | .deleteIoCq .. | .identify .. | .getFeatures .. |
    .asynchronousEventRequest .. | .firmwareImageDownload .. | .fwCommitReplace .. | .fwCommitReplaceActivateNext .. |
    .fwCommitActivateNext .. | .fwCommitActivateNow .. | .virtMgmtResourceAssign .. | .virtMgmtSecondaryOnline .. | .studbookRead .. |
    .invalidCommandOpcode .. =>
    [.q, .stb, .jn, .ci]
  | .vfEnableSet =>
    [.q, .stb, .stl, .ci]
  | .proofAgeExpiry | .proofWindowTimeout =>
    [.slk, .q, .stb, .ci]
  | .huOkFall =>
    [.m, .pins, .q, .stb, .ci]
  | .huOkRise | .proofWindowOpen | .proofPulseStart .. | .proofPulseEnd .. =>
    [.pins, .slk, .q, .stb, .ci]
  | .lowWearListRefillEnd .. =>
    [.pl, .fl, .q, .stb, .ci]
  | .eccFlipArm .. | .eccFlipDisarm .. =>
    [.pw, .ecc, .q, .stb, .ci]
  | .fchDiagGo .. =>
    [.pw, .fl, .q, .stb, .ci]
  | .cadRootCmdSend .. | .cadRootEpochWrite .. =>
    [.pw, .q, .stb, .ci, .cad]
  | .powerLoopWindow .. =>
    [.pw, .q, .stb, .ci, .free]
  | .pwrMeasRead .. | .stbSlotFirstDwordRead .. | .regReadLowDword .. | .regReadHighDword .. =>
    [.pw, .q, .stb, .ci, .rg]
  | .proofNow .. =>
    [.pw, .slk, .q, .stb, .ci]
  | .mbist .. =>
    [.q, .stb, .ci, .ts, .free]
  | .cadenceScheduleLoad .. =>
    [.q, .stb, .jn, .ci, .cad]
  | .yardStatusLog .. | .serviceLifeLog .. =>
    [.q, .stb, .jn, .ci, .free]
  | .stallThaw .. | .stallSave .. =>
    [.q, .stb, .jn, .stl, .ci]
  | .slackReport .. =>
    [.slk, .q, .stb, .jn, .ci]
  | .spiProg .. =>
    [.st, .q, .stb, .ci, .ts]
  | .zoneFinishedByController .. =>
    [.zn, .pl, .q, .stb, .ci]
  | .scrubComplete .. =>
    [.zn, .q, .stb, .ci, .cad]
  | .namespaceAttachment .. | .sanitizeExitFailureMode .. =>
    [.zn, .q, .stb, .jn, .ci]
  | .chgTimeoutExpiry =>
    [.m, .st, .slk, .q, .stb, .ci]
  | .fchDiagDone .. =>
    [.pins, .fl, .ecc, .q, .stb, .ci]
  | .fptestEnd .. =>
    [.pins, .fl, .q, .stb, .ci, .ts]
  | .suspendArbiterDecision .. | .suspendRunMinReached .. =>
    [.pl, .fl, .ecc, .q, .stb, .ci]
  | .tokenRelease .. =>
    [.pw, .q, .stb, .ci, .cad, .free]
  | .nvmeMiCommand .. =>
    [.pw, .q, .stb, .ci, .ts, .free]
  | .txsRead .. =>
    [.pw, .q, .stb, .ci, .ts, .rg]
  | .shutdown .. =>
    [.pw, .slk, .q, .stb, .jn, .ci]
  | .getLogPage .. | .cadenceDomainStatusLog .. =>
    [.q, .stb, .jn, .ci, .cad, .free]
  | .fptest .. =>
    [.q, .stb, .jn, .ci, .ts, .free]
  | .flushRehearsalEnd .. =>
    [.slk, .fl, .q, .stb, .ci, .free]
  | .stallResourceSet .. =>
    [.slk, .q, .stb, .jn, .stl, .ci]
  | .lockLost .. | .relock .. =>
    [.tm, .pw, .q, .stb, .ci, .cad]
  | .turnHeader .. =>
    [.tm, .q, .stb, .ci, .cad, .free]
  | .scrubScheduleBreakExpiry .. =>
    [.zn, .pl, .q, .stb, .ci, .cad]
  | .journalCheckpoint =>
    [.zn, .q, .stb, .jn, .ci, .free]
  | .mbistEnd .. =>
    [.ecc, .q, .stb, .stl, .ci, .ts, .free]
  | .proofLoadEvaluation .. =>
    [.m, .st, .slk, .q, .stb, .ci, .free]
  | .startModeOverrun | .spineLinkFault .. | .refclk38m4Lost | .entropyHealthFail =>
    [.m, .pins, .pw, .fl, .q, .stb, .ci, .ts]
  | .setFeaturesYardLayout .. =>
    [.m, .zn, .pl, .fl, .q, .stb, .jn, .ci]
  | .stallRestore .. =>
    [.pw, .slk, .zn, .q, .stb, .jn, .ci, .free]
  | .shutdownComplete .. =>
    [.slk, .zn, .fl, .q, .stb, .jn, .ci, .free]
  | .namespaceDelete .. =>
    [.slk, .zn, .pl, .fl, .q, .stb, .jn, .ci]
  | .turnStart | .epochBoundary | .allQuietExpiry =>
    [.tm, .slk, .pl, .q, .stb, .ci, .cad, .free]
  | .ostlerWatchdogExpiry .. =>
    [.m, .pins, .pw, .fl, .q, .stb, .ci, .ts, .free]
  | .sanitizeBlockErase .. | .sanitizeCryptoErase .. =>
    [.m, .zn, .fl, .ecc, .q, .stb, .jn, .ci, .free]
  | .formatNvm .. =>
    [.slk, .zn, .pl, .fl, .q, .stb, .jn, .ci, .free]
  | .sleepHandshakeReply .. =>
    [.m, .pins, .pw, .zn, .fl, .q, .stb, .jn, .ci, .free]
  | .sanitizeEnd .. =>
    [.m, .slk, .zn, .pl, .fl, .q, .stb, .jn, .ci, .free]
  | .nonopExitEnd .. =>
    [.m, .pins, .tm, .pw, .fl, .q, .stb, .jn, .ci, .cad, .ts]
  | .proofLoadEnd =>
    [.m, .st, .slk, .zn, .pl, .fl, .ecc, .q, .stb, .jn, .ci]
  | .thermalTrip .. =>
    [.m, .pins, .pw, .slk, .zn, .pl, .fl, .ecc, .q, .stb, .ci, .ts]
  | .imageLoadEnd .. =>
    [.m, .pins, .st, .img, .tm, .slk, .pl, .fl, .q, .stb, .ci, .cad]
  | .cadPfSend .. =>
    [.m, .pins, .pw, .slk, .zn, .pl, .fl, .ecc, .q, .stb, .ci, .ga, .cad]
  | .slackDecision .. | .namespaceCreate .. | .write .. | .writeZeroes .. | .zoneAppend .. | .read .. | .datasetManagement .. |
    .flush .. | .zoneOpen .. | .zoneClose .. | .zoneFinish .. | .zoneReset .. | .scrubbingReset .. | .zoneOfflineAction .. |
    .setZoneDescriptorExtension .. | .reportZones .. | .extendedReportZones .. | .placementOpen .. | .conventionalGarbageCollection |
    .fold .. | .paddockCompaction .. | .relocation .. | .wearLevelling .. | .landingSpaceReturns .. | .retrainEnd .. |
    .reconstructionEnd .. | .currycombPass .. | .currycombAutoPassStart | .currycombPassEnd .. | .cqHeadDoorbell .. | .deleteIoSq .. |
    .setFeaturesArbitration .. | .setFeaturesVolatileWriteCache .. | .setFeaturesNumberOfQueues .. | .setFeaturesInterruptCoalescing .. |
    .setFeaturesInterruptVectorConfig .. | .setFeaturesWriteAtomicity .. | .setFeaturesAsyncEventConfig .. |
    .setFeaturesHostBehaviorSupport .. | .setFeaturesExtensionLevel .. | .setFeaturesApst .. | .setFeaturesNopsc .. |
    .setFeaturesTemperatureThreshold .. | .abort .. | .fwCommitCheckDone .. | .hostMemoryError .. | .gatherRead .. |
    .gatherChannelGrant .. | .gatherReadComplete .. | .gdcTransferEnd .. | .halfHitchAppend .. | .halfHitchAcceptance .. |
    .halfHitchRead .. | .sealZone .. =>
    [.m, .slk, .zn, .pl, .fl, .ecc, .q, .stb, .jn, .ci, .ga, .cad, .free]
  | .pwrfailNFall | .cadPfAccepted .. =>
    [.m, .pins, .pw, .slk, .zn, .pl, .fl, .ecc, .q, .stb, .ci, .ga, .cad, .ts]
  | .thermalTripDrainEnd .. =>
    [.m, .pins, .pw, .slk, .zn, .pl, .fl, .ecc, .q, .stb, .jn, .ci, .ts, .free]
  | .programEnd .. | .eraseEnd .. | .readEnd .. | .preProgramCheckEnd .. | .lunTimeout .. =>
    [.m, .pins, .slk, .zn, .pl, .fl, .ecc, .q, .stb, .jn, .ci, .ga, .cad, .free]
  | .arrayOperationStart .. | .controllerEnable .. | .controllerReset .. | .setFeaturesPowerManagement .. | .gdcStart .. | .gdcStop .. |
    .gdcResume .. | .gdcClear .. | .virtMgmtSecondaryOffline .. | .vfFunctionLevelReset .. =>
    [.m, .pw, .slk, .zn, .pl, .fl, .ecc, .q, .stb, .jn, .ci, .ga, .cad, .free]
  | .stallFreeze .. =>
    [.m, .slk, .zn, .pl, .fl, .ecc, .q, .stb, .jn, .stl, .ci, .ga, .cad, .free]
  | .recoveryEnd .. =>
    [.m, .st, .slk, .zn, .pl, .fl, .ecc, .q, .stb, .jn, .ci, .ga, .cad, .free]
  | .tableLoadEnd .. =>
    [.m, .pins, .st, .pw, .slk, .pl, .fl, .ecc, .q, .stb, .jn, .ci, .cad, .ts, .free]
  | .strapSample .. =>
    [.m, .pins, .tm, .pw, .slk, .zn, .pl, .fl, .ecc, .q, .stb, .ci, .ga, .cad, .free]
  | .testEnter .. =>
    [.m, .pins, .tm, .pw, .slk, .zn, .pl, .fl, .ecc, .q, .stb, .ci, .ga, .cad, .ts]
  | .housekeepingRound .. =>
    [.m, .pw, .slk, .zn, .pl, .fl, .ecc, .q, .stb, .jn, .ci, .ga, .cad, .ts, .free]
  | .dlDown .. | .functionLevelResetPf .. | .vfEnableClear | .stallFreezeQuiet .. | .stallFreezeTimeout .. =>
    [.m, .pw, .slk, .zn, .pl, .fl, .ecc, .q, .stb, .jn, .stl, .ci, .ga, .cad, .free]
  | .flashDiscoveryEnd .. =>
    [.m, .st, .pw, .slk, .zn, .pl, .fl, .ecc, .q, .stb, .jn, .ci, .ga, .ts, .free]
  | .sramUncorrectableError .. | .tableLineRebuildEnd .. =>
    [.m, .pins, .pw, .slk, .zn, .pl, .fl, .ecc, .q, .stb, .jn, .ci, .ga, .cad, .ts, .free]
  | .fwActivationEnd .. =>
    [.m, .pins, .pw, .slk, .zn, .pl, .fl, .ecc, .q, .stb, .jn, .stl, .ci, .ga, .cad, .free]
  | .testDrainEnd =>
    [.m, .pins, .tm, .pw, .slk, .zn, .pl, .fl, .ecc, .q, .stb, .jn, .ci, .ga, .cad, .free]
  | .registerWrite .. =>
    [.m, .pins, .tm, .pw, .slk, .zn, .pl, .fl, .ecc, .q, .stb, .jn, .stl, .ci, .ga, .cad, .rg, .free]
  | .powerOn | .flushRestartDelayExpiry | .sysRstNLow .. | .deviceLevelPerst | .deviceResetDrainEnd | .portPerst .. | .emergencyFlushComplete .. | .powerLoss =>
    [.m, .pins, .st, .img, .tm, .pw, .slk, .zn, .pl, .fl, .ecc, .q, .stb, .jn, .stl, .ci, .ga, .cad, .ts, .rg, .free]

end Sys2Proof.Machine
end

