-- ==== Sys2Proof/Certificates/Slice0/Obligations.lean ====
section
/-! DEFINITION. The statements for the provers. Each says in its docstring which rules of the spec it formalises; a statement that rests on
a choice of the model names the log entry. -/

open Sys2Proof Sys2Proof.Machine

/-! ## The step and the queue of commands -/

/-- A command at the front of the queue runs on the rest of it: the step is that command's meaning. On an empty queue one microsecond of yard
time passes within its turn, and nothing else changes (the model's choice, log 10). -/
def Obligations.StepRunsFrontCommand : Prop :=
  ∀ (c : Instr) (rest : List Instr) (s : State),
    step { s with pending := c :: rest } = exec c { s with pending := rest } ∧
    (s.pending = [] → step s = .next { s with tm := { s.tm with us := min 999 (s.tm.us + 1), elapsed := s.tm.elapsed + 1 } })

/-- First in, first out: a step takes the front command off the queue and leaves the others as they stand, in their order (the queue is the
model's, log 65). -/
def Obligations.StepConsumesFrontCommand : Prop :=
  ∀ (s t : State), step s = .next t → t.pending = s.pending.tail

/-- No command ends in a fault or a refusal: every command of every state answers a next state. A command the spec turns away ends with the
status the spec gives, and a row whose cause is absent changes nothing (log 20). -/
def Obligations.EveryCommandRuns : Prop := ∀ (i : Instr) (s : State), ∃ t, exec i s = .next t

/-! ## Reset and what every step keeps -/

/-- What reset leaves: mode RESET, no enabled function, no command in a context or waiting, no queued event and no record, turn and epoch at
zero, no power token, no zone, namespace or key, VF Enable clear. Values the spec gives no reset entry for are the model's (log 15). -/
def Obligations.ResetLeaves : Prop :=
  State.reset.m.cur = .reset ∧ State.reset.q.fns = [] ∧ State.reset.q.ctxs = [] ∧ State.reset.pending = [] ∧ State.reset.stb.queue = [] ∧
    State.reset.stb.ring = [] ∧ State.reset.tm.epoch = 0 ∧ State.reset.tm.turn = 0 ∧ State.reset.cad.token = 0xFF ∧
    State.reset.zn.zones = [] ∧ State.reset.zn.nss = [] ∧ State.reset.ci.keys = [] ∧ State.reset.stl.vfEnable = false

/-- The bounds of the Studbook that every step keeps hold of State.reset. -/
def Obligations.ResetMeetsInv : Prop := StbInv State.reset

/-- Every step keeps the Studbook's bounds and leaves no event unqueued: at most 256 events in the queue, 16 in the always-on buffer and 64
early records before the load, a ring of 32,768 slots each used once and held in rising order, in SRAM and in the journal's copy. -/
def Obligations.StepKeepsInv : Prop := ∀ (s t : State), StbInv s → step s = .next t → StbInv t

/-- No command changes the part that is fitted, and the configuration image in force changes only when IMAGE_LOAD ends or the supplies come or
go (log 26). -/
def Obligations.PartAndImageStand : Prop :=
  ∀ (i : Instr) (s t : State), exec i s = .next t →
    t.part = s.part ∧ (t.img ≠ s.img → i = .powerOn ∨ i = .powerLoss ∨ ∃ a b c d, i = .imageLoadEnd a b c d)

/-- A command that can change neither the zones and writes nor the flash leaves every component of State but those `mayChange` names as it found
it (log 71). For a register access the device is one the access does not start anew. -/
def Obligations.FramesOutsideStorage : Prop :=
  ∀ (i : Instr) (s t : State), Comp.zn ∉ mayChange i → Comp.fl ∉ mayChange i → (accesses i = true → plainWake s) → exec i s = .next t →
    ∀ x, x ∉ mayChange i → keeps x s t

/-- A command that can change the zones and writes or the flash, and not the device's mode, leaves every component of State but those
`mayChange` names as it found it (log 71): no I/O command, report, read, program or discard touches the start's registers, the pins, the
image or yard time. -/
def Obligations.FramesOfStorage : Prop :=
  ∀ (i : Instr) (s t : State), (Comp.zn ∈ mayChange i ∨ Comp.fl ∈ mayChange i) → Comp.m ∉ mayChange i → (accesses i = true → plainWake s) →
    exec i s = .next t → ∀ x, x ∉ mayChange i → keeps x s t

/-- A command that can change the zones or the flash and the device's mode as well leaves every component of State but those `mayChange` names
as it found it (log 71). -/
def Obligations.FramesOfModeChanges : Prop :=
  ∀ (i : Instr) (s t : State), (Comp.zn ∈ mayChange i ∨ Comp.fl ∈ mayChange i) → Comp.m ∈ mayChange i → (accesses i = true → plainWake s) →
    exec i s = .next t → ∀ x, x ∉ mayChange i → keeps x s t

/-! ## Resets, starts and power failure (Chapters 1 to 3) -/

/-- Power-on and the loss of power leave the device in RESET: no function enabled, no command in a context, no write in flight, no key slot, no
Slack, an empty Studbook ring, the image back at its defaults, the SPI NOR's slots standing. Power-on counts a power cycle and finds the
reset pins low (log 2). SYS_RST_N low for 10 µs or longer starts the device, save that a flush still writing holds it to its end; a pulse of
at most 1 µs changes none of the mode, pins, queues, zones or flash. SYS_RST_N's rise is only seen; the board's release of PERST# changes
pins alone. Completes: POWER_ON, SYS_RST_N_LOW, POWER_LOSS, SYS_RST_N_RISE, PERST_DEASSERT. -/
def Obligations.PowerAndResetPins : Prop :=
  (∀ (s : State),
      (∃ t, exec .powerOn s = .next t ∧ t.m.cur = .reset ∧ t.q.fns = [] ∧ t.q.ctxs = [] ∧ t.zn.wrs = [] ∧ t.ci.keys = [] ∧ t.slk.totalMiB = 0 ∧
        t.stb.queue = [] ∧ t.stb.ring = [] ∧ t.img = Img.dflt s.part ∧ t.st.spiA = s.st.spiA ∧ t.st.spiB = s.st.spiB ∧
        t.q.powerCycles = s.q.powerCycles + 1 ∧ t.pins.sysRstN = false ∧ t.pins.perstA = false ∧ t.pins.perstB = false ∧
        t.pins.pwrfailN = true) ∧
      (∃ t, exec .powerLoss s = .next t ∧ t.m.cur = .reset ∧ t.q.fns = [] ∧ t.q.ctxs = [] ∧ t.zn.wrs = [] ∧ t.ci.keys = [] ∧
        t.slk.totalMiB = 0 ∧ t.stb.queue = [] ∧ t.stb.ring = [] ∧ t.img = Img.dflt s.part ∧ t.st.spiA = s.st.spiA ∧ t.st.spiB = s.st.spiB ∧
        t.q.powerCycles = s.q.powerCycles)) ∧
  (∀ (s : State) (ns port : Nat),
      (10000 ≤ ns → (s.m.cur ≠ .emergencyFlush ∨ s.fl.parked = true) →
        ∃ t, exec (.sysRstNLow ns) s = .next t ∧ t.m.cur = .reset ∧ t.pins.sysRstN = false ∧ t.q.fns = [] ∧ t.q.ctxs = [] ∧ t.zn.wrs = [] ∧
          t.img = s.img ∧ t.q.powerCycles = s.q.powerCycles) ∧
      (10000 ≤ ns → s.m.cur = .emergencyFlush → s.fl.parked = false →
        ∃ t, exec (.sysRstNLow ns) s = .next t ∧ t.m = s.m ∧ t.pins = { s.pins with sysRstN := false, heldReset := 1 } ∧ t.q = s.q ∧ t.zn = s.zn) ∧
      (ns ≤ 1000 → ∃ t, exec (.sysRstNLow ns) s = .next t ∧ t.m = s.m ∧ t.pins = s.pins ∧ t.q = s.q ∧ t.zn = s.zn ∧ t.fl = s.fl) ∧
      exec .sysRstNRise s = .next { s with pins := { s.pins with sysRstN := true } } ∧
      (∃ t, exec (.perstDeassert port) s = .next t ∧ t = { s with pins := t.pins } ∧ (if port = 0 then t.pins.perstA else t.pins.perstB) = true ∧
        (s.pins.detect = true → t.pins.detect = true) ∧ t.pins.strapDual = s.pins.strapDual))

/-- A device-level PERST# in a start mode or in RETAIN starts the device at once; in HALTED it changes pins alone; in a mode of service it
begins a drain with admission off, a proof-load's pulse cut off as failed with result 7, at whose end, with every acknowledged write durable,
the device starts. PERST# of one port in dual-port
mode, or its link going down, resets that port's functions and changes no mode: port A's takes the stalls with it, port B's leaves VF Enable
as it is. With both low it is the device-level reset (log 31). Completes: DEVICE_LEVEL_PERST, DEVICE_RESET_DRAIN_END, PORT_PERST, DL_DOWN.
-/
def Obligations.DeviceAndPortResets : Prop :=
  (∀ (s : State),
      ((s.m.cur.isStart = true ∨ s.m.cur = .retain) →
        ∃ u, exec .deviceLevelPerst s = .next (after u) ∧ u.m.cur = .reset ∧ u.q.fns = [] ∧ u.q.ctxs = [] ∧ u.pins.perstA = false) ∧
      (s.m.cur = .halted →
        ∃ u, exec .deviceLevelPerst s = .next (after u) ∧ u = { s with pins := u.pins } ∧ u.pins.perstA = false ∧ u.pins.heldReset = s.pins.heldReset) ∧
      ((s.m.cur.isBase = true ∨ s.m.cur = .sanitize ∨ s.m.cur = .fwActivate) → s.m.drain = .none →
        ∃ u, exec .deviceLevelPerst s = .next (after u) ∧ u.m.drain = .devReset ∧ u.slk.admissionOff = true ∧ u.zn = s.zn ∧
          (s.slk.phase ≠ .pulse → u.m.cur = s.m.cur ∧ u.q = s.q) ∧
          (s.slk.phase = .pulse → u.m.wt = true ∧ u.slk.result = 7 ∧ u.slk.totalMiB = 0 ∧ u.pins.huLoad = false)) ∧
      (s.m.drain = .devReset → useBytes s = 0 → s.m.thm ≠ 2 →
        ∃ t, exec .deviceResetDrainEnd s = .next t ∧ t.m.cur = .reset ∧ t.q.fns = [] ∧ t.q.ctxs = [] ∧ t.jn.closing = .clean)) ∧
  (∀ (s : State), s.pins.strapDual = true → s.m.cur.isBase = true →
      (s.pins.perstB = true →
        ∃ u, exec (.portPerst 0) s = .next (afterIo u) ∧ u.m.cur = s.m.cur ∧ u.stl.vfEnable = false ∧ (fnOf 0 u).en = false ∧ u.pins.perstA = false) ∧
      (s.pins.perstA = true → fnPresent 1024 s = true →
        ∃ u, exec (.portPerst 1) s = .next (afterIo u) ∧ u.m.cur = s.m.cur ∧ (fnOf 1024 u).en = false ∧ u.stl.vfEnable = s.stl.vfEnable) ∧
      (∃ u, exec (.dlDown 0) s = .next (afterIo u) ∧ u.m.cur = s.m.cur ∧ u.stl.vfEnable = false ∧ (fnOf 0 u).en = false) ∧
      (s.pins.perstB = false → s.m.drain = .none →
        ∃ u, exec (.portPerst 0) s = .next (after u) ∧ u.m.drain = .devReset ∧ u.slk.admissionOff = true))

/-- R47: outside RESET no command changes the straps sampled, and a STRAP_SAMPLE there changes nothing; the sampled values read from TXS_STRAP
(TXS 0x0_1014, bits 0 to 2), STRAP_DUAL also from TXS_CONFIG.DUAL_PORT (TXS 0x0_0004, bit 11). -/
def Obligations.StrapsStandUntilReset : Prop :=
  (∀ (i : Instr) (s t : State), exec i s = .next t → s.m.cur ≠ .reset →
    t.pins.strapDual = s.pins.strapDual ∧ t.pins.strapTest = s.pins.strapTest ∧ t.pins.strapNoimg = s.pins.strapNoimg) ∧
  (∀ (d t n : Strap) (s : State), s.m.cur ≠ .reset → exec (.strapSample d t n) s = .next s) ∧
  (∀ (fn : Nat) (s : State), isPf fn = true →
    (∃ r, regAt? fn 0x1014 s = some r ∧ r.off = 0x1014 ∧ bit (r.val s) 0 = s.pins.strapDual ∧ bit (r.val s) 1 = s.pins.strapTest ∧
      bit (r.val s) 2 = s.pins.strapNoimg) ∧
    (s.part.channels < 128 → s.part.sheds < 8 →
      ∃ r, regAt? fn 0x0004 s = some r ∧ r.off = 0x0004 ∧ bit (r.val s) 11 = s.pins.strapDual))

/-- The straps are sampled in RESET with SYS_RST_N high, each at its stable level: STRAP_TEST leads to TEST with record 0xC001, otherwise
IMAGE_LOAD follows. IMAGE_LOAD ends with the slot that reads well and has the higher SEQ, slot A where both have the same, or with the
factory defaults and record 0x1011 when neither reads well; the start registers show what each slot read as, PROOF_LOAD begins, WP is
released and the hold-up charger is on. Completes: STRAP_SAMPLE, IMAGE_LOAD_END. -/
def Obligations.StartBegins : Prop :=
  (∀ (dual noimg : Bool) (s : State), s.m.cur = .reset → s.pins.sysRstN = true →
      (∃ u, exec (.strapSample (if dual then .high else .low) .low (if noimg then .high else .low)) s = .next (after u) ∧ u.m.cur = .imageLoad ∧
        u.pins.strapDual = dual ∧ u.pins.strapTest = false ∧ u.pins.strapNoimg = noimg ∧ u.fl = s.fl ∧ u.zn = s.zn) ∧
      (∃ u, exec (.strapSample (if dual then .high else .low) .high (if noimg then .high else .low)) s = .next (after u) ∧ u.m.cur = .test ∧
        u.pins.strapDual = dual ∧ u.pins.strapTest = true ∧ u.pins.strapNoimg = noimg ∧ raises 0xC001 u)) ∧
  (∀ (sfdpOk fwOk : Bool) (slotA slotB : List Byte) (s : State), s.m.cur = .imageLoad →
      ∃ u, exec (.imageLoadEnd sfdpOk slotA slotB fwOk) s = .next (after u) ∧ u.m.cur = .proofLoad ∧
        (let a := readSlot s.part (sfdpOk && !s.pins.strapNoimg) slotA
         let b := readSlot s.part (sfdpOk && !s.pins.strapNoimg) slotB
         (a.st ≠ 0 → b.st ≠ 0 → u.img = Img.dflt s.part ∧ u.st.cfgDefaulted = true ∧ raises 0x1011 u) ∧
         (a.st = 0 → (b.st ≠ 0 ∨ b.seq ≤ a.seq) → u.img = a.img ∧ u.st.slot = 0 ∧ u.st.cfgDefaulted = false) ∧
         (b.st = 0 → (a.st ≠ 0 ∨ a.seq < b.seq) → u.img = b.img ∧ u.st.slot = 1 ∧ u.st.cfgDefaulted = false) ∧
         u.st.slotASt = a.st ∧ u.st.slotBSt = b.st) ∧
        u.pins.wpLow = false ∧ u.pins.huChgEn = true)

/-- PROOF_LOAD: FLASH_DISCOVERY_END ends job (b) and not job (c), each appointed LUN whose page fails its CRC excluded with 0x1020 and
GEOM_MISMATCH, and no geometry accepted where no page is good; TABLE_LOAD_END ends job (c) from whichever journal copies could be read, a
missing one noted with 0x1034, counts an unsafe shutdown and asks for RECOVERY where the closing record is neither a clean-close nor a
RETAIN record, loads SLK_LASTFLUSH, and with no copy readable halts the device with 0x1035; FLUSH_REHEARSAL_END takes E_fixed = P_FL × 16 ms,
e_byte (at a rate of 0 a free value, log 73) and P_FL once; PROOF_LOAD_END with all three jobs ended goes to RECOVERY where it is needed,
else to SANITIZE where a sanitize had been running, else to a base mode with the service period opened. Completes: FLASH_DISCOVERY_END,
FLUSH_REHEARSAL_END, TABLE_LOAD_END, PROOF_LOAD_END. -/
def Obligations.ProofLoadJobs : Prop :=
  ∀ (s : State), s.m.cur = .proofLoad →
    (∀ luns chs temps, s.st.jobB = false →
      ∃ u, exec (.flashDiscoveryEnd luns chs temps) s = .next (after u) ∧ u.st.jobB = true ∧ u.st.jobC = s.st.jobC ∧
        (∀ r ∈ luns, r.ch < s.part.channels → r.target < 16 → r.unit < 4 → r.crcOk = false → raises 0x1020 u ∧ u.st.geomMismatch = true) ∧
        ((∀ r ∈ luns, r.crcOk = false) → u.fl.geom.ok = false)) ∧
    (∀ mw rate, s.st.jobB = true → s.slk.rehearsed = false →
      ∃ u, exec (.flushRehearsalEnd mw rate) s = .next (after u) ∧ u.slk.rehearsed = true ∧ u.slk.ebyte = ebyteOf mw rate s.free ∧
        u.slk.efixUj = mw * 16 ∧ u.slk.pfl = min (mw / 100) 4095 ∧ u.m.cur = .proofLoad) ∧
    (∀ c0 c1, s.st.jobC = false → (c0 || c1) = true →
      ∃ u, exec (.tableLoadEnd c0 c1) s = .next (after u) ∧ u.st.jobC = true ∧ u.stb.loaded = true ∧ u.jn.behind = none ∧
        u.slk.last = s.jn.lastFlush ∧ (c0 = true → c1 = true → u.jn.copy0 = true ∧ u.jn.copy1 = true) ∧
        ((c0 && c1) = false → u.st.jcopy = true ∧ raises 0x1034 u) ∧
        ((s.jn.closing = .clean ∨ s.jn.closing = .retain) → u.q.unsafeCount = s.q.unsafeCount) ∧
        ((s.jn.closing = .none ∨ s.jn.closing = .flush) →
          u.q.unsafeCount = s.q.unsafeCount + 1 ∧ u.st.unsafeSd = true ∧ u.st.needRecovery = true)) ∧
    (s.st.jobC = false → ∃ u, exec (.tableLoadEnd false false) s = .next (after u) ∧ u.m.cur = .halted ∧ raises 0x1035 u) ∧
    (s.st.jobA = true → s.st.jobB = true → s.st.jobC = true → s.st.needRecovery = true →
      ∃ u, exec .proofLoadEnd s = .next (after u) ∧ u.m.cur = .recovery) ∧
    (s.st.jobA = true → s.st.jobB = true → s.st.jobC = true → s.st.needRecovery = false → s.jn.sanitize ≠ 0 →
      ∃ u, exec .proofLoadEnd s = .next (after u) ∧ u.m.cur = .sanitize ∧ u.jn.opened = true ∧ u.slk.admissionOff = false) ∧
    (s.st.jobA = true → s.st.jobB = true → s.st.jobC = true → s.st.needRecovery = false → s.jn.sanitize = 0 →
      ∃ u, exec .proofLoadEnd s = .next (after u) ∧ u.m.cur.isBase = true ∧ u.jn.opened = true ∧ u.jn.closing = .none ∧
        u.slk.admissionOff = false ∧ u.st.up = true)

/-- RECOVERY_END: RECOVERY ends with 0x1031, the device in SANITIZE or in a mode of service, its service period opened, its admission open and
the start ended. Completes: RECOVERY_END. -/
def Obligations.RecoveryEnds : Prop :=
  ∀ (lost : List Lost) (found : RecovFound) (s : State), s.m.cur = .recovery →
    ∃ u, exec (.recoveryEnd lost found) s = .next (afterIo u) ∧ raises 0x1031 u ∧ (u.m.cur = .sanitize ∨ u.m.cur.isBase = true) ∧ u.jn.opened = true ∧
      u.jn.admOff = false ∧ u.st.up = true

/-- A start mode that overruns halts the device with 0x10E0, a Spine link's fault with 0x5050, a failing entropy source with 0x8031, the loss of
the 38.4 MHz reference without further change to zones and queues (the modes it acts in are log 24's); one Ostler core's watchdog restarts
that core with 0x1050. A thermal trip in a mode of service counts in service life and begins a drain with admission off, in RESET and
IMAGE_LOAD it halts at once with 0xB050; the drain ends in HALTED with 0xB050, nothing acknowledged left to write and the LUNs parked.
Completes: START_MODE_OVERRUN, OSTLER_WATCHDOG_EXPIRY, SPINE_LINK_FAULT, REFCLK_38M4_LOST, THERMAL_TRIP, THERMAL_TRIP_DRAIN_END,
ENTROPY_HEALTH_FAIL. -/
def Obligations.FaultsAndTripsHalt : Prop :=
  (∀ (s : State) (core shed : Nat),
      (s.m.cur.isStart = true → ∃ u, exec .startModeOverrun s = .next (after u) ∧ u.m.cur = .halted ∧ raises 0x10E0 u ∧ u.zn = s.zn ∧ u.q = s.q) ∧
      (s.m.cur ≠ .reset → s.m.cur ≠ .test → s.m.cur ≠ .emergencyFlush → s.m.cur ≠ .halted → shed < s.part.sheds →
        ∃ u, exec (.spineLinkFault shed) s = .next (after u) ∧ u.m.cur = .halted ∧ raises 0x5050 u ∧ shed ∈ u.fl.down ∧ u.zn = s.zn ∧ u.q = s.q) ∧
      (s.m.cur ≠ .reset → s.m.cur ≠ .test → s.m.cur ≠ .emergencyFlush → s.m.cur ≠ .halted →
        ∃ u, exec .refclk38m4Lost s = .next (after u) ∧ u.m.cur = .halted ∧ u.zn = s.zn ∧ u.q = s.q) ∧
      (s.m.cur ≠ .emergencyFlush → s.m.cur ≠ .halted →
        ∃ u, exec .entropyHealthFail s = .next (after u) ∧ u.m.cur = .halted ∧ raises 0x8031 u ∧ u.zn = s.zn ∧ u.q = s.q) ∧
      (s.m.cur ≠ .reset → s.m.cur ≠ .retain → core < 16 → s.m.cores = [] →
        ∃ u, exec (.ostlerWatchdogExpiry core) s = .next (after u) ∧ u.m.cur = s.m.cur ∧ u.m.cores = [core] ∧ raises 0x1050 u)) ∧
  (∀ (die us : Nat) (temp : Int) (s : State),
      ((s.m.cur.isBase = true ∨ s.m.cur = .sanitize) → s.m.drain = .none →
        ∃ u, exec (.thermalTrip die temp) s = .next (after u) ∧ u.m.drain = .thermalTrip die temp ∧ u.slk.admissionOff = true ∧
          (s.slk.phase ≠ .pulse → u.m.cur = s.m.cur) ∧
          u.ts.life.trips = satAdd 32 s.ts.life.trips 1) ∧
      ((s.m.cur = .reset ∨ s.m.cur = .imageLoad) →
        ∃ u, exec (.thermalTrip die temp) s = .next (after u) ∧ u.m.cur = .halted ∧ raises 0xB050 u) ∧
      (s.m.drain = .thermalTrip die temp → s.m.cur ≠ .emergencyFlush → s.m.cur ≠ .halted →
        ∃ u, exec (.thermalTripDrainEnd us) s = .next (after u) ∧ u.m.cur = .halted ∧ raises 0xB050 u ∧ u.fl.parked = true ∧ useBytes u = 0 ∧
          u.zn.wrs = []))

/-- A falling PWRFAIL_N enters EMERGENCY_FLUSH from every mode that may flush but TEST: admission stops, record 0x2040, the hold-up charger off.
Its rise begins the count whose end, with the flush complete, returns the device to RESET with the last flush's result and proof-load count
standing. A CAD_PF pulse of 208 ns or longer accepted by a participant does the same with 0xA040. A flush completes with every Slack account
empty, no write or array operation left, the LUNs parked with WP low and, after a finished start, the figures of SLK_LASTFLUSH and the
service period's one closing record (a period closed already keeps its own); one begun in HALTED returns there. Completes: PWRFAIL_N_FALL,
CAD_PF_ACCEPTED, EMERGENCY_FLUSH_COMPLETE, FLUSH_RESTART_DELAY_EXPIRY, PWRFAIL_N_RISE. -/
def Obligations.PowerFailFlushes : Prop :=
  (∀ (s : State),
      (s.m.cur.flushable = true → s.m.cur ≠ .test →
        ∃ u, exec .pwrfailNFall s = .next (after u) ∧ u.m.cur = .emergencyFlush ∧ u.slk.admissionOff = true ∧ u.pins.huChgEn = false ∧
          u.pins.pwrfailN = false ∧ raises 0x2040 u) ∧
      exec .pwrfailNRise s = .next { s with pins := { s.pins with pwrfailN := true, pfHigh := true } } ∧
      (s.m.cur = .emergencyFlush → s.fl.parked = true → s.pins.pwrfailN = true →
        ∃ t, exec .flushRestartDelayExpiry s = .next t ∧ t.m.cur = .reset ∧ t.q.fns = [] ∧ t.q.ctxs = [] ∧ t.img = s.img ∧
          t.slk.result = s.slk.result ∧ t.slk.proofCnt = s.slk.proofCnt) ∧
      (∀ ns, 208 ≤ ns → s.img.cadEnable = true → s.img.cadRoot = false → s.m.cur.flushable = true → s.m.cur ≠ .test →
        ∃ u, exec (.cadPfAccepted ns) s = .next (after u) ∧ u.m.cur = .emergencyFlush ∧ u.slk.admissionOff = true ∧ raises 0xA040 u ∧ raises 0x2040 u)) ∧
  (∀ (temp : Int) (us : Nat) (s : State), s.m.cur = .emergencyFlush → s.fl.parked = false → s.pins.heldReset = 0 →
      ∃ u, exec (.emergencyFlushComplete temp us) s = .next (after u) ∧ u.fl.parked = true ∧ u.pins.wpLow = true ∧ useBytes u = 0 ∧
        u.zn.wrs = [] ∧ u.fl.ops = [] ∧ u.m.cur = (if s.m.prev = .halted then .halted else .emergencyFlush) ∧
        (s.st.up = true → s.jn.opened = true → u.jn.closing = .flush ∧ u.jn.opened = false) ∧
        (s.jn.opened = false → u.jn.closing = s.jn.closing) ∧ (s.st.up = true → u.jn.lastFlush.state = 1))

/-! ## Slack (Chapter 3) -/

/-- HU_OK's rise is seen, and in WRITE_THROUGH makes a proof-load due; its fall once this start's proof-load has been evaluated sets WT with
0x2030, save in RESET, IMAGE_LOAD, TEST and a flush, and within the pulse it is expected; CHG_TIMEOUT ends the charge with result 0x1, WT set, Slack 0 and 0x2002. The age trigger is due; a window opens where the
device allows one and holds every early completion; the pulse starts once nothing is outstanding, takes V0 and drives HU_LOAD; a window that
times out leaves its trigger due, no result, and no window possible in the turn it began in; the pulse's end takes V1 and V2. The evaluation, with HU_OK high, in a
window with the bank back within 1 % of V0, with V2 < V1 and V1 at most V0, gives 100·(V1 + V2)/(V1 − V2) µF and (V0 − V1)·100,000/V1 in 0.1 mΩ, truncated, and the result is the first condition of Table 3.2 that
fails; WT follows it, Slack reads 0 and every function's quota is scaled to it where one does, and 0x2001 or 0x2002 is written. PROOF_NOW makes a proof-load due from the Owner PF, and
changes nothing of Slack from the port B PF. Completes: HU_OK_RISE, HU_OK_FALL, CHG_TIMEOUT_EXPIRY, PROOF_NOW, PROOF_AGE_EXPIRY,
PROOF_WINDOW_OPEN, PROOF_PULSE_START, PROOF_WINDOW_TIMEOUT, PROOF_PULSE_END, PROOF_LOAD_EVALUATION. -/
def Obligations.ProofLoads : Prop :=
  (∀ (s : State) (v0 v1 : Nat) (v2 : PulseV),
      (s.pins.huOk = false →
        ∃ u, exec .huOkRise s = .next (after u) ∧ u.pins.huOk = true ∧ u.m = s.m ∧
          (s.m.cur = .writeThrough → s.slk.phase = .idle → u.slk.due = true)) ∧
      (s.pins.huOk = true → s.pins.pwrfailN = true → s.slk.phase = .idle → s.st.jobA = true → s.m.cur ≠ .reset → s.m.cur ≠ .imageLoad →
        s.m.cur ≠ .test → s.m.cur ≠ .emergencyFlush →
        ∃ u, exec .huOkFall s = .next (after u) ∧ u.pins.huOk = false ∧ u.m.wt = true ∧ raises 0x2030 u) ∧
      (s.pins.huOk = true → s.slk.phase = .pulse →
        ∃ u, exec .huOkFall s = .next (after u) ∧ u = { s with pins := { s.pins with huOk := false } }) ∧
      (s.pins.huOk = false → s.slk.phase = .charging →
        ∃ u, exec .chgTimeoutExpiry s = .next (after u) ∧ u.slk.result = 1 ∧ u.slk.proofCnt = wrapAdd 16 s.slk.proofCnt 1 ∧ u.m.wt = true ∧
          u.slk.totalMiB = 0 ∧ u.slk.phase = .idle ∧ raises 0x2002 u) ∧
      (s.slk.phase = .idle → ∃ u, exec .proofAgeExpiry s = .next (after u) ∧ u = { s with slk := { s.slk with dueSoft := true } }) ∧
      (windowAllowed s = true →
        ∃ u, exec .proofWindowOpen s = .next (after u) ∧ u.slk.window = true ∧ u.slk.phase = .window ∧ u.pins.huChgEn = true ∧ u.m = s.m ∧
          holdAll u = true) ∧
      (s.slk.phase = .window → useKiB s = 0 → s.m.thm ≠ 2 →
        ∃ u, exec (.proofPulseStart v0) s = .next (after u) ∧ u.slk.phase = .pulse ∧ u.slk.v0 = v0 ∧ u.pins.huLoad = true ∧ u.m = s.m) ∧
      (s.slk.phase = .window →
        ∃ u, exec .proofWindowTimeout s = .next (after u) ∧ u.slk.phase = .idle ∧ u.slk.window = false ∧ (u.slk.due || u.slk.dueSoft) = true ∧
          u.slk.result = s.slk.result ∧ u.slk.proofCnt = s.slk.proofCnt ∧ windowAllowed u = false) ∧
      (s.slk.phase = .pulse →
        ∃ u, exec (.proofPulseEnd v1 v2) s = .next (after u) ∧ u.slk.phase = .recharge ∧ u.slk.v1 = v1 ∧ u.slk.v2 = v2.v2 ∧ u.slk.back = v2.back ∧ u.pins.huLoad = false) ∧
      (plainWake s → s.m.cur ≠ .halted → s.slk.phase = .idle →
        ∃ u, exec (.proofNow 0) s = .next (after u) ∧ u.slk = { s.slk with due := true } ∧ u.zn = s.zn ∧ u.m = s.m) ∧
      (plainWake s → fnPresent 1024 s = true → ∃ u, exec (.proofNow 1024) s = .next (after u) ∧ u.slk = s.slk ∧ u.zn = s.zn ∧ u.m = s.m)) ∧
  (∀ (s : State), s.slk.phase = .recharge → s.pins.huOk = true → (s.slk.window = true → 99 * s.slk.v0 ≤ 100 * s.slk.back) →
      s.slk.v2 < s.slk.v1 → s.slk.v1 ≤ s.slk.v0 →
      let c := 100 * (s.slk.v1 + s.slk.v2) / (s.slk.v1 - s.slk.v2)
      let e := (s.slk.v0 - s.slk.v1) * 100000 / s.slk.v1
      let m := slackMiB (energy2 c s.slk.v0 s.img.vcut) s.img.derate s.slk.efixUj s.slk.ebyte
      let code := proofResult true s.slk.v0 s.slk.v1 s.slk.v2 s.img.vcut c e s.slk.efixUj m
      ∃ u, exec .proofLoadEvaluation s = .next (after u) ∧ u.slk.result = code ∧ u.slk.proofCnt = wrapAdd 16 s.slk.proofCnt 1 ∧
        u.slk.capUf = min c 65535 ∧ u.slk.esr = min e 65535 ∧ u.m.wt = decide (code ≠ 0) ∧ u.slk.totalMiB = (if code = 0 then m else 0) ∧
        u.slk.window = false ∧ raises (if code = 0 then 0x2001 else 0x2002) u ∧
        (code ≠ 0 → ∀ f, (slkOf f s).quotaKiB ≠ 0 → (slkOf f u).effKiB = 0 ∧ (slkOf f u).scaled = true))

/-- The decision on a write that is staged whole with no lower write of its zone undecided: held for a device-wide reason, for its function's
write cache, or for a held write below it in its zone; early when its whole charge fits the function's unused quota and then the pool; else
held for want of Slack. An early one is charged, quota first and the pool for the rest, and counted, and older acknowledged bytes in its
range of the conventional namespace drain no longer. SLACK_DECISION stages what a write's
command had not yet transferred and decides every write that may be decided; one whose range a Reset has discarded leaves instead.
Completes: SLACK_DECISION. -/
def Obligations.SlackDecides : Prop :=
  (∀ (w : Wr) (s : State), wrAt w.id s = some w → w.dec = .undecided → w.ready = true → lowerUndecided w s = false →
      let quota := (slkOf w.fn s).effKiB * 1024 - (slkOf w.fn s).useQ
      let pool := poolKiB s * 1024 - s.slk.poolUse
      decision w s = (if holdAll s then .held 3 else if !(fnOf w.fn s).feats.wce then .held 4 else if lowerHeld w s then .held 5
        else if w.charge ≤ quota + pool then .early else .held 6) ∧
      (decision w s = .early →
        ∃ u, decideOne w.id s = placeWrite w.id (overtake w w.pos (w.pos + w.len) (postWrite w.id 1 false u)) ∧
          (slkOf w.fn u).useQ = (slkOf w.fn s).useQ + min w.charge quota ∧
          (slkOf w.fn u).useP = (slkOf w.fn s).useP + (w.charge - min w.charge quota) ∧
          u.slk.poolUse = s.slk.poolUse + (w.charge - min w.charge quota) ∧ u.slk.earlyCnt = satAdd 64 s.slk.earlyCnt 1)) ∧
  (∀ (w : Wr) (rest : List Blk) (s : State), wrAt w.id s = some w →
      (w.discarded = false → w.xferWait = false →
        exec (.slackDecision w.id rest) s = .next (afterIo (decideAll (if w.ready then s else stageMore w rest s)))) ∧
      (w.discarded = true →
        ∃ u, exec (.slackDecision w.id rest) s = .next (after u) ∧ ∀ x ∈ u.zn.wrs, x.id ≠ w.id))

/-- Slack Report: a physical function gets the header and the entries asked for, up to function 1,024; a stall its own entry alone; a range past
function 1,024 is refused with 0h/0x02. Slack, the pool and the mode stand as they are (what a report clears is log 35's). Completes:
SLACK_REPORT. -/
def Obligations.SlackReportAnswers : Prop :=
  ∀ (c : Cmd) (s s1 : State) (k : Ctx), taken c s = some (k, s1) → plainForm k → notSanitizing s1 →
    (isStall c.fn = true →
      ∃ u, exec (.slackReport c) s = .next (after u) ∧
        endsWith k 0 0 0 (zeroBytes 32 ++ leBytes 4 (slkVfStat c.fn s1) ++ zeroBytes 28 ++ slkEntry c.fn s1) s1 u) ∧
    (isStall c.fn = false → bits c.cdw10.toNat 10 0 + bits c.cdw11.toNat 10 0 ≤ 1025 →
      ∃ u0 u, exec (.slackReport c) s = .next (after u) ∧ u0.slk.totalMiB = s1.slk.totalMiB ∧ u0.slk.poolUse = s1.slk.poolUse ∧ u0.m = s1.m ∧
        endsWith k 0 0 0 (slkHeader (bits c.cdw11.toNat 10 0) s1 ++
          ((List.range (bits c.cdw11.toNat 10 0)).map (· + bits c.cdw10.toNat 10 0)).flatMap (fun f => slkEntry f s1)) u0 u) ∧
    (isStall c.fn = false → 1025 < bits c.cdw10.toNat 10 0 + bits c.cdw11.toNat 10 0 →
      ∃ u, exec (.slackReport c) s = .next (after u) ∧ endsWith k 0 2 0 [] s1 u)

/-! ## Zones, writes and namespaces (Chapter 4) -/

/-- Zone Management Send on one zone: an Implicitly Opened zone opens, an Open one closes, a Closed one opens again within the limits, a zone
that is not Offline finishes Full with its write pointer as it was, and a Reset leaves it Empty with its write pointer at its start and its
generation one higher; the states that do not take an action end it with 1h/0xBF. Finish and Reset leave every other zone as it is. Offline
ends with 1h/0xBF, Set Zone Descriptor Extension and Extended Report Zones with 0h/0x02; Report Zones of all zones answers the number of
zones from its SLBA on, or with Partial as many as fit, in the length asked for, and changes no zone. Completes: ZONE_OPEN, ZONE_CLOSE,
ZONE_FINISH, ZONE_RESET, ZONE_OFFLINE_ACTION, SET_ZONE_DESCRIPTOR_EXTENSION, REPORT_ZONES, EXTENDED_REPORT_ZONES. -/
def Obligations.ZoneActions : Prop :=
  (∀ (c : Cmd) (s s1 : State) (k : Ctx) (n : Ns) (z : Nat) (q : Zone), taken c s = some (k, s1) → plainForm k → notSanitizing s1 →
      sendsTo k s1 n z q →
      (q.st = .impOpen → s1.m.sparesOut = false →
        ∃ u, exec (.zoneOpen c) s = .next (afterIo u) ∧ endsWith k 0 0 0 [] (updZone z (fun q => { q with st := .expOpen }) s1) u) ∧
      (q.st = .closed → q.activeRes = true → s1.m.sparesOut = false → openAll s1 < 8192 → openCount q.actFn s1 < openLim q.actFn s1 →
        ∃ u, exec (.zoneOpen c) s = .next (afterIo u) ∧ endsWith k 0 0 0 [] (updZone z (fun q => { q with st := .expOpen }) s1) u) ∧
      (q.st = .expOpen → s1.m.sparesOut = false → ∃ u, exec (.zoneOpen c) s = .next (afterIo u) ∧ endsWith k 0 0 0 [] s1 u) ∧
      ((q.st = .full ∨ q.st = .offline) → s1.m.sparesOut = false →
        ∃ u, exec (.zoneOpen c) s = .next (afterIo u) ∧ endsWith k 1 0xBF 0 [] s1 u) ∧
      (q.st.isOpen = true →
        ∃ u, exec (.zoneClose c) s = .next (afterIo u) ∧ endsWith k 0 0 0 [] (updZone z (fun q => { q with st := .closed }) s1) u) ∧
      (q.st = .closed → ∃ u, exec (.zoneClose c) s = .next (afterIo u) ∧ endsWith k 0 0 0 [] s1 u) ∧
      ((q.st = .empty ∨ q.st = .full ∨ q.st = .offline) →
        ∃ u, exec (.zoneClose c) s = .next (afterIo u) ∧ endsWith k 1 0xBF 0 [] s1 u) ∧
      (q.st ≠ .offline → ∃ u0 u, exec (.zoneFinish c) s = .next (afterIo u) ∧ endsWith k 0 0 0 [] u0 u ∧
        (zoneAt? z u0).map (·.st) = some .full ∧ (zoneAt? z u0).map (·.wp) = some q.wp ∧ (∀ y, y ≠ z → zoneAt? y u0 = zoneAt? y s1)) ∧
      (q.st = .offline → ∃ u, exec (.zoneFinish c) s = .next (afterIo u) ∧ endsWith k 1 0xBF 0 [] s1 u) ∧
      (q.st = .empty → ∃ u, exec (.zoneReset c) s = .next (afterIo u) ∧ endsWith k 0 0 0 [] s1 u) ∧
      (q.st ≠ .offline → q.st ≠ .empty → ∃ u0 u, exec (.zoneReset c) s = .next (afterIo u) ∧ endsWith k 0 0 0 [] u0 u ∧
        (zoneAt? z u0).map (fun x => (x.st, x.wp, x.gen)) = some (.empty, 0, (q.gen + 1) % 2 ^ 48) ∧
        (∀ y, y ≠ z → zoneAt? y u0 = zoneAt? y s1)) ∧
      (q.st = .offline → ∃ u, exec (.zoneReset c) s = .next (afterIo u) ∧ endsWith k 1 0xBF 0 [] s1 u)) ∧
  (∀ (c : Cmd) (s s1 : State) (k : Ctx) (n : Ns) (z : Nat) (q : Zone), taken c s = some (k, s1) → plainForm k → notSanitizing s1 →
      sendsTo k s1 n z q →
      (∃ u, exec (.zoneOfflineAction c) s = .next (afterIo u) ∧ endsWith k 1 0xBF 0 [] s1 u) ∧
      (∃ u, exec (.setZoneDescriptorExtension c) s = .next (afterIo u) ∧ endsWith k 0 0x02 0 [] s1 u) ∧
      (∃ u, exec (.extendedReportZones c) s = .next (afterIo u) ∧ endsWith k 0 0x02 0 [] s1 u) ∧
      (zrasfOf c = 0 → numdOf c * 4 ≤ 2097152 → 64 ≤ numdOf c * 4 → (∀ z ∈ n.zones, (zoneAt? z s1).isSome = true) →
        ∃ u d, exec (.reportZones c) s = .next (afterIo u) ∧ endsWith k 0 0 0 d s1 u ∧ d.length = numdOf c * 4 ∧
          numAt d 0 8 = (if partialOf c then min ((numdOf c * 4 - 64) / 64) (n.zones.length - slbaOf c / 2 ^ 20)
            else n.zones.length - slbaOf c / 2 ^ 20) % 2 ^ 64))

/-- Placement Open: a reserved field that is not zero ends it with 0h/0x02; an Explicitly Opened zone with its recorded attributes succeeds with
its Yard in DW0, with others ends with 0h/0x02; an Implicitly Opened one with its attributes becomes Explicitly Opened; a Full or Offline
zone ends it with 1h/0xBF. Completes: PLACEMENT_OPEN. -/
def Obligations.PlacementOpens : Prop :=
  ∀ (c : Cmd) (s s1 : State) (k : Ctx) (n : Ns) (z : Nat) (q : Zone), taken c s = some (k, s1) → plainForm k → notSanitizing s1 →
    sendsTo k s1 n z q → s1.m.sparesOut = false → (poSeal c = true → k.snap.sealP = true) → (poComp c = true → k.snap.comp = true) →
    (poRsvd c ≠ 0 → ∃ u, exec (.placementOpen c) s = .next (afterIo u) ∧ endsWith k 0 0x02 0 [] s1 u) ∧
    (poRsvd c = 0 → (poYard c < 64 ∧ bit k.snap.yards (poYard c) = true ∨ poYard c = 0xFF) → (poClass c < 8 ∨ poClass c = 0xF) →
      (q.st = .expOpen → sameAttr c q = true →
        ∃ u, exec (.placementOpen c) s = .next (afterIo u) ∧ endsWith k 0 0 q.yard [] s1 u) ∧
      (q.st = .expOpen → sameAttr c q = false →
        ∃ u, exec (.placementOpen c) s = .next (afterIo u) ∧ endsWith k 0 0x02 0 [] s1 u) ∧
      (q.st = .impOpen → sameAttr c q = true →
        ∃ u, exec (.placementOpen c) s = .next (afterIo u) ∧
          endsWith k 0 0 q.yard [] (updZone z (fun q => { q with st := .expOpen }) s1) u) ∧
      ((q.st = .full ∨ q.st = .offline) → ∃ u, exec (.placementOpen c) s = .next (afterIo u) ∧ endsWith k 1 0xBF 0 [] s1 u))

/-- Writes to a zone of a namespace without protection information, uncompressed and unsealed: a Write or Write Zeroes at the write pointer of
an open zone and a Zone Append at the zone's first block are accepted, and the write pointer advances by their blocks; a Write elsewhere
ends with 1h/0xBC, one to a Full zone with 1h/0xB9, to an Offline zone with 1h/0xBB, one past the zone's capacity with 1h/0xB8. Completes:
WRITE, WRITE_ZEROES, ZONE_APPEND. -/
def Obligations.ZoneWrites : Prop :=
  ∀ (c : Cmd) (blks : List Blk) (s s1 : State) (k : Ctx) (n : Ns) (z off : Nat) (q : Zone), taken c s = some (k, s1) → plainForm k →
    notSanitizing s1 → k.snap.write = true → nblocks c ≤ 512 → nsFor? c.fn c.nsid s1 = some n → n.conv = false → n.piType = 0 →
    slbaOf c + nblocks c ≤ n.nsze → slbaOf c < n.nsze → zoneOfLba n (slbaOf c) = some (z, off) → zoneAt? z s1 = some q →
    s1.m.sparesOut = false → s1.m.thm = 0 → q.comp = false → q.sealF = false →
    (q.st.isOpen = true → 2 * off = q.wp → off + nblocks c ≤ zcapLbas s1.fl.geom →
      (∃ u, exec (.write c blks) s = .next (afterIo u) ∧ (zoneAt? z u).map (·.wp) = some (q.wp + 2 * nblocks c)) ∧
      (∃ u, exec (.writeZeroes c) s = .next (afterIo u) ∧ (zoneAt? z u).map (·.wp) = some (q.wp + 2 * nblocks c))) ∧
    (q.st.isOpen = true → off = 0 → q.wp % 2 = 0 → q.wp / 2 + nblocks c ≤ zcapLbas s1.fl.geom →
      ∃ u, exec (.zoneAppend c blks) s = .next (afterIo u) ∧ (zoneAt? z u).map (·.wp) = some (q.wp + 2 * nblocks c)) ∧
    (off + nblocks c ≤ zcapLbas s1.fl.geom → q.st.isOpen = true → 2 * off ≠ q.wp →
      ∃ u, exec (.write c blks) s = .next (afterIo u) ∧ endsWith k 1 0xBC 0 [] s1 u) ∧
    (off + nblocks c ≤ zcapLbas s1.fl.geom → q.st = .full →
      ∃ u, exec (.write c blks) s = .next (afterIo u) ∧ endsWith k 1 0xB9 0 [] s1 u) ∧
    (off + nblocks c ≤ zcapLbas s1.fl.geom → q.st = .offline →
      ∃ u, exec (.write c blks) s = .next (afterIo u) ∧ endsWith k 1 0xBB 0 [] s1 u) ∧
    (zcapLbas s1.fl.geom < off + nblocks c →
      ∃ u, exec (.write c blks) s = .next (afterIo u) ∧ endsWith k 1 0xB8 0 [] s1 u)

/-- A command refused before it acts: without write permission a writing command ends with 2h/0x86 and record 0x9012 and nothing else; a fused
command or one with a bit bucket ends with 0h/0x02; while a sanitize runs I/O ends with 0h/0x1D. -/
def Obligations.RefusedBeforeActing : Prop :=
  ∀ (c : Cmd) (blks : List Blk) (sgl : Option Nat) (s s1 : State) (k : Ctx), taken c s = some (k, s1) →
    (plainForm k → notSanitizing s1 → k.snap.write = false →
      (∃ u, exec (.write c blks) s = .next (afterIo u) ∧ endsWith k 2 0x86 0 [] (raise 0x9012 1 [h1 c.fn, h1 c.opc] s1) u) ∧
      (∃ u, exec (.zoneAppend c blks) s = .next (afterIo u) ∧ endsWith k 2 0x86 0 [] (raise 0x9012 1 [h1 c.fn, h1 c.opc] s1) u) ∧
      (∃ u, exec (.zoneReset c) s = .next (afterIo u) ∧ endsWith k 2 0x86 0 [] (raise 0x9012 1 [h1 c.fn, h1 c.opc] s1) u) ∧
      (∃ u, exec (.sealZone c) s = .next (afterIo u) ∧ endsWith k 2 0x86 0 [] (raise 0x9012 1 [h1 c.fn, h1 c.opc] s1) u) ∧
      (∃ u, exec (.halfHitchAppend c blks) s = .next (afterIo u) ∧ endsWith k 2 0x86 0 [] (raise 0x9012 1 [h1 c.fn, h1 c.opc] s1) u)) ∧
    (c.fuse ≠ 0 ∨ c.bitBucket = true →
      (∃ u, exec (.write c blks) s = .next (afterIo u) ∧ endsWith k 0 0x02 0 [] s1 u) ∧
      (∃ u, exec (.read c) s = .next (afterIo u) ∧ endsWith k 0 0x02 0 [] s1 u) ∧
      (∃ u, exec (.flush c) s = .next (afterIo u) ∧ endsWith k 0 0x02 0 [] s1 u)) ∧
    (plainForm k → s1.m.cur = .sanitize →
      (∃ u, exec (.write c blks) s = .next (afterIo u) ∧ endsWith k 0 0x1D 0 [] s1 u) ∧
      (∃ u, exec (.read c) s = .next (afterIo u) ∧ endsWith k 0 0x1D 0 [] s1 u) ∧
      (∃ u, exec (.gatherRead ⟨c, sgl⟩) s = .next (afterIo u) ∧ endsWith k 0 0x1D 0 [] s1 u))

/-- Of an attached namespace: a Flush with every write before it durable succeeds at once, and waits otherwise unless THM = 0b10, when it ends
with 7h/0x82; a Read of readable zones goes on to its blocks, one of more than 512 blocks ends with 0h/0x02, one past the namespace's end
with 0h/0x80, one of an Offline zone with 1h/0xBB; Dataset Management without Deallocate succeeds and changes nothing, and with it unmaps
the whole units of its ranges, which then hold no data. Completes: READ, DATASET_MANAGEMENT, FLUSH. -/
def Obligations.FlushReadDeallocate : Prop :=
  ∀ (c : Cmd) (buf : List Byte) (s s1 : State) (k : Ctx) (n : Ns), taken c s = some (k, s1) → plainForm k → notSanitizing s1 →
    nsFor? c.fn c.nsid s1 = some n →
    (flushBlocked k s1 = false → ∃ u, exec (.flush c) s = .next (afterIo u) ∧ endsWith k 0 0 0 [] s1 u) ∧
    (flushBlocked k s1 = true → s1.m.thm = 2 → ∃ u, exec (.flush c) s = .next (afterIo u) ∧ endsWith k 7 0x82 0 [] s1 u) ∧
    (flushBlocked k s1 = true → s1.m.thm ≠ 2 → exec (.flush c) s = .next (afterIo (putCtx { k with wait := .flush } s1))) ∧
    (512 < nblocks c → ∃ u, exec (.read c) s = .next (afterIo u) ∧ endsWith k 0 0x02 0 [] s1 u) ∧
    (nblocks c ≤ 512 → n.nsze < slbaOf c + nblocks c → ∃ u, exec (.read c) s = .next (afterIo u) ∧ endsWith k 0 0x80 0 [] s1 u) ∧
    (nblocks c ≤ 512 → slbaOf c + nblocks c ≤ n.nsze → offlineIn (zonesOf n (slbaOf c) (nblocks c)) s1 = true →
      ∃ u, exec (.read c) s = .next (afterIo u) ∧ endsWith k 1 0xBB 0 [] s1 u) ∧
    (nblocks c ≤ 512 → slbaOf c + nblocks c ≤ n.nsze → offlineIn (zonesOf n (slbaOf c) (nblocks c)) s1 = false →
      sealedOut (zonesOf n (slbaOf c) (nblocks c)) s1 = none →
      exec (.read c) s = .next (afterIo (putCtx { k with wait := .read 0, dispatched := true } s1))) ∧
    (bit c.cdw11.toNat 2 = false → ∃ u, exec (.datasetManagement c buf) s = .next (afterIo u) ∧ endsWith k 0 0 0 [] s1 u) ∧
    (bit c.cdw11.toNat 2 = true → k.snap.write = true → n.conv = true → modeStatus s1 = none →
      (∀ r ∈ dsmRanges c buf, r.1 + r.2 ≤ n.nsze) →
      ∃ u0 u, exec (.datasetManagement c buf) s = .next (afterIo u) ∧ endsWith k 0 0 0 [] u0 u ∧
        ∀ r ∈ dsmRanges c buf, ∀ x ∈ wholeUnits r.1 r.2, Tbl.get? u0.zn.cmap x = none)

/-- Namespace Management and Attachment from the Owner PF: Create makes a zoned namespace of whole free zones under the lowest free identifier,
told in DW0, attached to no controller; Delete removes one without Active zones, refuses one with (0h/0x0C) and one that does not exist
(0h/0x0B); Attachment adds the controllers its list names. Another function's Create ends with 0h/0x01. Statuses NVMe leaves to the device
are log 5's and log 67's. Completes: NAMESPACE_CREATE, NAMESPACE_DELETE, NAMESPACE_ATTACHMENT. -/
def Obligations.NamespaceCommands : Prop :=
  ∀ (c : Cmd) (buf : List Byte) (s s1 : State) (k : Ctx), taken c s = some (k, s1) → plainForm k → notSanitizing s1 →
    (c.fn = 0 → bits c.cdw11.toNat 31 24 = 2 → numAt buf 8 8 = numAt buf 0 8 → numAt buf 0 8 ≠ 0 → numAt buf 0 8 % 2 ^ 20 = 0 →
      numAt buf 26 1 % 16 ≤ 3 → s1.fl.geom.ok = true → numAt buf 0 8 / 2 ^ 20 ≤ (freeZones s1).length → (freeNsid s1).isSome = true →
      ∃ id u0 u x, exec (.namespaceCreate c buf) s = .next (afterIo u) ∧ endsWith k 0 0 id [] u0 u ∧ freeNsid s1 = some id ∧
        nsAt? id u0 = some x ∧ x.conv = false ∧ x.nsze = numAt buf 0 8 ∧ x.zones = (freeZones s1).take (numAt buf 0 8 / 2 ^ 20) ∧
        x.attached = []) ∧
    (c.fn ≠ 0 → ∃ u, exec (.namespaceCreate c buf) s = .next (afterIo u) ∧ endsWith k 0 0x01 0 [] s1 u) ∧
    (c.fn = 0 → c.nsid ≠ 0xFFFFFFFF → (nsAt? c.nsid s1).isSome = true → nsActive c.nsid s1 = false →
      ∃ u0 u, exec (.namespaceDelete c) s = .next (after u) ∧ endsWith k 0 0 0 [] u0 u ∧ nsAt? c.nsid u0 = none) ∧
    (c.fn = 0 → c.nsid ≠ 0xFFFFFFFF → (nsAt? c.nsid s1).isSome = true → nsActive c.nsid s1 = true →
      ∃ u, exec (.namespaceDelete c) s = .next (after u) ∧ endsWith k 0 0x0C 0 [] s1 u) ∧
    (c.fn = 0 → c.nsid ≠ 0xFFFFFFFF → nsAt? c.nsid s1 = none →
      ∃ u, exec (.namespaceDelete c) s = .next (after u) ∧ endsWith k 0 0x0B 0 [] s1 u) ∧
    (∀ x, c.fn = 0 → nsAt? c.nsid s1 = some x → bits c.cdw10.toNat 3 0 = 0 → ctlList buf ≠ [] →
      (∀ f ∈ ctlList buf, fnPresent f s1 = true ∧ x.attached.contains f = false) →
      ∃ u0 u, exec (.namespaceAttachment c buf) s = .next (after u) ∧ endsWith k 0 0 0 [] u0 u ∧
        nsAt? c.nsid u0 = some { x with attached := x.attached ++ ctlList buf })

/-- Sanitize from a physical function: a Block or Crypto Erase puts the device in SANITIZE and its kind in the journal, a Crypto Erase destroys
every key slot and seal binding with 0x8030, Exit Failure Mode ends failure mode, Overwrite is refused with 0h/0x02, and any of them while a
sanitize runs with 0h/0x1D. A sanitize ends with nothing mapped or stored, warning bit 2 clear, in a mode of service, a Block Erase with
its journal checkpointed, and one that could not show a block erased leaves sanitize failure mode. Format leaves the namespace's zones Empty
in the format asked for. Completes: SANITIZE_BLOCK_ERASE, SANITIZE_CRYPTO_ERASE, SANITIZE_EXIT_FAILURE_MODE, SANITIZE_OVERWRITE,
SANITIZE_END, FORMAT_NVM. -/
def Obligations.SanitizeAndFormat : Prop :=
  (∀ (c : Cmd) (s s1 : State) (k : Ctx), taken c s = some (k, s1) → plainForm k → isPf c.fn = true →
      (s1.m.cur ≠ .sanitize →
        (∃ u0 u, exec (.sanitizeBlockErase c) s = .next (after u) ∧ endsWith k 0 0 0 [] u0 u ∧ u0.m.cur = .sanitize ∧ u0.zn.sanit = 1 ∧
          u0.jn.sanitize = 1 ∧ u0.ci.nsKeys = s1.ci.nsKeys) ∧
        (∃ u0 u, exec (.sanitizeCryptoErase c) s = .next (after u) ∧ endsWith k 0 0 0 [] u0 u ∧ u0.m.cur = .sanitize ∧ u0.zn.sanit = 2 ∧
          u0.jn.sanitize = 2 ∧ u0.ci.keys = [] ∧ u0.ci.bind = [] ∧ raises 0x8030 u0) ∧
        (∃ u, exec (.sanitizeExitFailureMode c) s = .next (after u) ∧
          endsWith k 0 0 0 [] { s1 with zn := { s1.zn with sanFail := false } } u) ∧
        (∃ u, exec (.sanitizeOverwrite c) s = .next (after u) ∧ endsWith k 0 0x02 0 [] s1 u)) ∧
      (s1.m.cur = .sanitize →
        (∃ u, exec (.sanitizeBlockErase c) s = .next (after u) ∧ endsWith k 0 0x1D 0 [] s1 u) ∧
        (∃ u, exec (.sanitizeCryptoErase c) s = .next (after u) ∧ endsWith k 0 0x1D 0 [] s1 u) ∧
        (∃ u, exec (.sanitizeOverwrite c) s = .next (after u) ∧ endsWith k 0 0x1D 0 [] s1 u)) ∧
      (∀ x, notSanitizing s1 → nsAt? c.nsid s1 = some x → x.conv = false → c.nsid ≠ 0xFFFFFFFF → bits c.cdw10.toNat 11 9 = 0 →
        bits c.cdw10.toNat 3 0 + 16 * bits c.cdw10.toNat 13 12 ≤ 3 → s1.m.sparesOut = false →
        ∃ u0 u y, exec (.formatNvm c) s = .next (after u) ∧ endsWith k 0 0 0 [] u0 u ∧ nsAt? c.nsid u0 = some y ∧
          y.lbaf = bits c.cdw10.toNat 3 0 + 16 * bits c.cdw10.toNat 13 12 ∧ y.pi = bits c.cdw10.toNat 7 5 + 8 * bits c.cdw10.toNat 8 8 ∧
          y.zones = x.zones ∧ ∀ z ∈ x.zones, ∀ q, zoneAt? z u0 = some q → q.st = .empty ∧ q.wp = 0)) ∧
  (∀ (s : State), s.m.cur = .sanitize → s.zn.sanit ≠ 0 → ¬(s.zn.sanit = 1 ∧ s.m.thm = 2) →
      (∃ u, exec (.sanitizeEnd none) s = .next (after u) ∧ u.m.cur.isBase = true ∧ u.zn.sanit = 0 ∧ u.zn.sanFail = false ∧ u.jn.sanitize = 0 ∧
        u.zn.cmap = [] ∧ u.zn.store = [] ∧ u.m.warn2 = false ∧ (s.zn.sanit = 1 → u.jn.checkpoints = s.jn.checkpoints + 1)) ∧
      (∀ b, s.zn.sanit = 1 → ∃ u, exec (.sanitizeEnd (some b)) s = .next (after u) ∧ u.m.cur.isBase = true ∧ u.zn.sanFail = true ∧
        u.zn.cmap = [] ∧ u.zn.store = []))

/-- The zone manager finishes a zone whose reservation block failures left short, with ZFC set and record 0x3001. A Scrubbing Reset empties its
zone and waits, breaks the schedule once with 0x3022, and completes with 0x3020 when its last block is erased. Completes: SCRUBBING_RESET,
ZONE_FINISHED_BY_CONTROLLER, SCRUB_COMPLETE, SCRUB_SCHEDULE_BREAK_EXPIRY. -/
def Obligations.ZoneEvents : Prop :=
  ∀ (z : Nat) (s : State),
    (∀ q, zoneAt? z s = some q → q.st.active = true → q.activeRes = true → unitsLeft q s < zoneUnits s.fl.geom →
      ∃ u, exec (.zoneFinishedByController z) s = .next (after u) ∧ (zoneAt? z u).map (fun x => (x.st, x.zfc)) = some (.full, true) ∧
        raises 0x3001 u) ∧
    (∀ sc, s.zn.scrubs.find? (fun c => c.zone == z) = some sc →
      (sc.blocks = [] → ∃ u, exec (.scrubComplete z) s = .next (after u) ∧ u.zn.scrubs = s.zn.scrubs.erase sc ∧ raises 0x3020 u) ∧
      (sc.broke = false → ∃ u, exec (.scrubScheduleBreakExpiry z) s = .next (after u) ∧ raises 0x3022 u ∧
        (u.zn.scrubs.find? (fun c => c.zone == z)).map (·.broke) = some true)) ∧
    (∀ (c : Cmd) (s1 : State) (k : Ctx) (n : Ns) (q : Zone), taken c s = some (k, s1) → plainForm k → notSanitizing s1 →
      sendsTo k s1 n z q → k.snap.scrub = true → q.st ≠ .offline →
      ∃ u, exec (.scrubbingReset c) s = .next (afterIo u) ∧ (zoneAt? z u).map (fun x => (x.st, x.scrubPend)) = some (.empty, true) ∧
        ∃ sc ∈ u.zn.scrubs, sc.zone = z ∧ sc.ctx = some k.seq)

/-- R112: Identify Namespace for the Zoned Namespace Command Set reports MAR and MOR (bytes 4 to 7 and 8 to 11) as the requesting function's
active and open limits minus 1. -/
def Obligations.IdentifyReportsZoneLimits : Prop :=
  ∀ (c : Cmd) (s s1 : State) (k : Ctx) (n : Ns), taken c s = some (k, s1) → plainForm k → cnsOf c = 0x05 → bits c.cdw11.toNat 31 24 = 2 →
    1 ≤ c.nsid → c.nsid ≤ 128 → nsAt? c.nsid s1 = some n → n.attached.contains c.fn = true → n.conv = false →
    ∃ u d, exec (.identify c) s = .next (after u) ∧ endsWith k 0 0 0 d s1 u ∧ d.length = 4096 ∧
      numAt d 4 4 = (activeLim c.fn s1 - 1) % 2 ^ 32 ∧ numAt d 8 4 = (openLim c.fn s1 - 1) % 2 ^ 32

/-! ## Placement (Chapter 5) -/

/-- CONVENTIONAL_GARBAGE_COLLECTION in a busy turn with fewer than 3 free Pens copies the valid units of the Pen it chooses, the hot ones first,
as one move of them all; the map-commit of a unit of that move gives it its new place and a HEAT one lower; it does nothing while READ_ONLY or
THM = 0b10 stand. FOLD queues a zone's next whole unit, whose sources in the Paddock are read; PADDOCK_COMPACTION with landing space enough and
no Pen marked for refresh only retires what is dead; RELOCATION of a Pen without live data retires it, and of one with data starts its move
where fewer than 4 run and none comes before it; WEAR_LEVELLING marks its Yard with 0x3060 once the spread is past its bound;
LANDING_SPACE_RETURNS lets waiting writes transfer. Each acts in a turn its rule allows and does nothing in any other. Completes:
CONVENTIONAL_GARBAGE_COLLECTION, FOLD, PADDOCK_COMPACTION, RELOCATION, WEAR_LEVELLING, LANDING_SPACE_RETURNS. -/
def Obligations.GarbageAndYardWork : Prop :=
  (∀ (s : State),
      (∀ p t, bgSlc s = true → bgAllowed s = true → s.pl.convPens ≠ [] → busyTurn s = true → convFree s < 3 → gcVictim s = some p →
        startConvMove p s = some t →
        exec .conventionalGarbageCollection s = .next (afterIo (afterStart t)) ∧
        ∃ m ∈ t.pl.moves, m.src = p ∧ m.kind = .conv ∧
          m.items.map (·.k) = (validUnits p s).filter (fun u => decide (2 ≤ heatMoved u s)) ++ (validUnits p s).filter (fun u => decide (heatMoved u s < 2))) ∧
      ((s.m.sparesOut = true ∨ s.m.thm = 2) → exec .conventionalGarbageCollection s = .next s) ∧
      (∀ src i e, Tbl.get? s.zn.cmap i.k = some e → e.pen = src → e.slot = i.gen →
        Tbl.get? (commitItem src .conv i s).zn.cmap i.k = some ⟨e.heat - 1, i.pen, i.slot / 4, e.lost⟩)) ∧
  (∀ (s : State) (zone yard pen : Nat),
      (∀ q, zoneAt? zone s = some q → bgQlc s = true → turnFor 0x3044 q.yard s = true → 0 < unitPos s.fl.geom →
        (nextUnit zone q s + 1) * unitPos s.fl.geom ≤ q.wp → inPaddock zone s = true → unitTurn zone (nextUnit zone q s) q s = true →
        unitThere zone (nextUnit zone q s) q s = true →
        exec (.fold zone) s = .next (afterIo (readSources
          (fun w => match w with | .unit a b _ true => a == zone && b == nextUnit zone q s | _ => false) s.fl.nextOp
          (((piecesOf zone s).filter (fun e => decide (e.1 / unitPos s.fl.geom = nextUnit zone q s) &&
            (match penOf? e.2.pen s with | some p => p.kind.oneBit | none => false))).map (fun e => (zone, e.1)))
          (queueUnit zone (nextUnit zone q s) true s)))) ∧
      (bgQlc s = false → exec (.fold zone) s = .next s ∧ exec (.wearLevelling yard) s = .next s) ∧
      (bgSlc s = true → turnFor 0x3044 yard s = true → yardShare yard (retireDead yard s) ≤ 2 * freeLanding yard (retireDead yard s) →
        (∀ p ∈ pensIn yard .landing (retireDead yard s), p.2.refresh = false) →
        exec (.paddockCompaction yard) s = .next (afterIo (retireDead yard s))) ∧
      (bgSlc s = false → exec (.paddockCompaction yard) s = .next s) ∧
      (∀ p, penOf? pen s = some p → penIdle pen s = true → p.kind = .host → bgAllowed s = true → busyTurn s = true →
        (livePieces pen s = [] → penReserved pen s = 0 → s.m.cur.isBase = true → p.st ≠ .erased →
          exec (.relocation pen) s = .next (afterIo (settleRows (retirePen pen s)))) ∧
        (∀ t, livePieces pen s ≠ [] → bgQlc s = true → (yardOf p.yard s).relocs < 4 → relocFirst pen p s = true → startMove pen p .reloc s = some t →
          exec (.relocation pen) s = .next (afterIo (afterStart (updYard p.yard (fun c => { c with relocs := c.relocs + 1 }) t))))) ∧
      (penOf? pen s = none → exec (.relocation pen) s = .next s) ∧
      (bgQlc s = true → bgAllowed s = true → busyTurn s = true → (yardOf yard s).wlActive = false → (yardOf yard s).wlSpread < wearSpread yard s →
        s.pl.moves = [] → (yardOf yard s).relocPrio = false → wearSource yard s = none →
        ∃ u, exec (.wearLevelling yard) s = .next (after u) ∧ raises 0x3060 u ∧ (yardOf yard u).wlActive = true ∧ u.zn = s.zn) ∧
      ((yardOf yard s).noLanding = true → noLandingSpace yard s = false →
        ∃ u0, exec (.landingSpaceReturns yard) s = .next (afterIo (placeWaiting yard u0)) ∧ (yardOf yard u0).noLanding = false ∧
          ∀ w ∈ u0.zn.wrs, w.yard = yard → w.xferWait = false))

/-- A Set of the Yard layout by a function other than the Owner PF ends with 0h/0x02 and one that asks to be saved with 0h/0x0D; one in range
that leaves every row where it is is taken with record 0x3012; the Yard Status page answers 64 bytes for each Yard, zeros for a Yard the function may not
use. Completes: SET_FEATURES_YARD_LAYOUT, YARD_STATUS_LOG. -/
def Obligations.YardLayoutAndStatus : Prop :=
  ∀ (c : Cmd) (buf : List Byte) (s s1 : State) (k : Ctx), taken c s = some (k, s1) → plainForm k →
    (notSanitizing s1 → c.fn ≠ 0 → ∃ u, exec (.setFeaturesYardLayout c buf) s = .next (after u) ∧ endsWith k 0 0x02 0 [] s1 u) ∧
    (notSanitizing s1 → c.fn = 0 → svOf c = true →
      ∃ u, exec (.setFeaturesYardLayout c buf) s = .next (after u) ∧ endsWith k 0 0x0D 0 [] s1 u) ∧
    (notSanitizing s1 → c.fn = 0 → svOf c = false → (∀ r ∈ rows s1, numAt buf r 1 < 64 ∨ numAt buf r 1 = 0xFF) →
      (∀ y < 64, numAt buf (0x100 + 4 * y) 1 ≤ 2 ∧ (numAt buf (0x102 + 4 * y) 2 = 0 ∨ 100 ≤ numAt buf (0x102 + 4 * y) 2 ∧ numAt buf (0x102 + 4 * y) 2 ≤ 4000)) →
      (∀ r ∈ rows s1, numAt buf r 1 = yardOfRow r s1) →
      ∃ u, exec (.setFeaturesYardLayout c buf) s = .next (after u) ∧ endsWith k 0 0 0 [] (acceptLayout buf (layoutMoves buf s1) s1) u ∧
        raises 0x3012 (acceptLayout buf (layoutMoves buf s1) s1)) ∧
    (logOff c % 4 = 0 → logOff c + logLen c ≤ 4096 →
      ∃ u, exec (.yardStatusLog c) s = .next (after u) ∧
        endsWith k 0 0 0 ((((List.range 64).flatMap (fun y => if isPf c.fn || bit k.snap.yards y then yardEntry y s1 else zeroBytes 64)).drop
          (logOff c)).take (logLen c)) s1 u)

/-! ## The flash channels (Chapter 6) -/

/-- ARRAY_OPERATION_START: a channel starts the operation its arbiter chooses, which keeps FCH_SUSP and FCH_MEDIA as they stand: a program outside
the block state table's rule is refused with 0x4001, one within it runs and its channel counts it, an erase runs and leaves an intent.
PROGRAM_END: one that ends well makes its data durable and advances the block's wordline; a failing one writes 0x4002. ERASE_END: a failing
erase writes 0x4003; an erased block counts its wear and its intent goes. PRE_PROGRAM_CHECK_END: a check that finds no more zeros than its
limit passes its block, one that finds more has the block erased again (0x4020), and a second time writes 0x4021. Completes:
ARRAY_OPERATION_START, PROGRAM_END, ERASE_END, PRE_PROGRAM_CHECK_END. -/
def Obligations.OperationsStartAndEnd : Prop :=
  (∀ (ch typ : Nat) (o : AOp) (s : State),
      let s1 := parWatch ch (liveWatch ch s)
      let c := chnOf o.ch s1
      nextOp? ch typ s1 = some o →
      (o.kind = .program → programRefused o s1 = none →
        ∃ u, exec (.arrayOperationStart ch typ) s = .next (afterIo u) ∧
          u.fl.ops = updWhere (fun x => x.id == o.id)
            (fun x => { x with st := .running, since := s.tm.elapsed, lim := (c.runMin, c.pgmMax, c.hold, c.prechkZeros) }) s1.fl.ops ∧
          (chnOf o.ch u).pgmCnt = satAdd 64 c.pgmCnt 1 ∧ (bkOf (dieKey o.ch o.lun) o.blk u).hasLive = true ∧ u.zn = s.zn ∧ u.slk = s.slk) ∧
      (∀ r, o.kind = .program → programRefused o s1 = some r →
        ∃ u, exec (.arrayOperationStart ch typ) s = .next (afterIo u) ∧ raises 0x4001 u) ∧
      (o.kind = .erase → eraseRefused o s1 = false →
        ∃ u, exec (.arrayOperationStart ch typ) s = .next (afterIo u) ∧
          u.fl.ops = updWhere (fun x => x.id == o.id)
            (fun x => { x with st := .running, since := s.tm.elapsed, lim := (c.runMin, c.ersMax, c.hold, c.prechkZeros) }) s1.fl.ops ∧
          blkKey (dieKey o.ch o.lun) o.blk ∈ u.pl.intents ∧ (chnOf o.ch u).ersCnt = satAdd 64 c.ersCnt 1 ∧ u.zn = s.zn)) ∧
  (∀ (ch lun : Nat) (o : AOp) (s : State),
      ((dieOps (dieKey ch lun) s).find? (fun o => o.kind == .program && o.st == .running) = some o →
        (∃ s0, s0.fl.blks = s.fl.blks ∧ s0.fl.ops = s.fl.ops ∧ s0.zn = s.zn ∧ s0.pl = s.pl ∧
          exec (.programEnd ch lun true) s = .next (afterIo (parkHalted (settleOld (dieKey ch lun) o.blk (programmed o
            (updBk (dieKey ch lun) o.blk (fun b =>
              if wordlines s.fl.geom ≤ b.nextWl + 1 then { b with st := .full, hasLive := false, nextWl := b.nextWl + 1, pgmAt := s.tm.elapsed }
              else { b with nextWl := b.nextWl + 1, pgmAt := s.tm.elapsed }) (dropOp o.id (mediaFlip o s0)))))))) ∧
        ∃ u, exec (.programEnd ch lun false) s = .next (afterIo u) ∧ raises 0x4002 u) ∧
      ((dieOps (dieKey ch lun) s).find? (fun o => o.kind == .erase && o.st == .running) = some o →
        (∃ u, exec (.eraseEnd ch lun true) s = .next (afterIo u) ∧
          ((bkOf (dieKey ch lun) o.blk s).role = .free → (bkOf (dieKey ch lun) o.blk u).st = .erased ∧
            (bkOf (dieKey ch lun) o.blk u).wear = satAdd 16 (bkOf (dieKey ch lun) o.blk s).wear 1) ∧
          blkKey (dieKey ch lun) o.blk ∉ u.pl.intents) ∧
        ∃ u, exec (.eraseEnd ch lun false) s = .next (afterIo u) ∧ raises 0x4003 u) ∧
      (∀ zeros, (dieOps (dieKey ch lun) s).find? (fun o => o.work == .prechk && o.st == .running) = some o →
        (zeros ≤ o.lim.2.2.2 → ∃ u, exec (.preProgramCheckEnd ch lun zeros) s = .next (after u) ∧
          (bkOf (dieKey ch lun) o.blk u).prechk = true ∧ u.zn = s.zn ∧ u.pl = s.pl) ∧
        (o.lim.2.2.2 < zeros → (bkOf (dieKey ch lun) o.blk s).prechkFailed = false →
          ∃ u, exec (.preProgramCheckEnd ch lun zeros) s = .next (after u) ∧ raises 0x4020 u ∧
            (bkOf (dieKey ch lun) o.blk u).st = .pending ∧ u.zn = s.zn) ∧
        (o.lim.2.2.2 < zeros → (bkOf (dieKey ch lun) o.blk s).prechkFailed = true →
          ∃ u, exec (.preProgramCheckEnd ch lun zeros) s = .next (afterIo u) ∧ raises 0x4021 u)))

/-- READ_END: a page read leaves its die and hands its outcome to its reader: decoded on its die (codes 0 to 2), on to the rebuild of step 3
(code 3), or lost (code 7); every outcome counts its ladder code, and one past its class's threshold marks its Pen for refresh.
RECONSTRUCTION_END: a rebuild with members enough gives its reader code 3, or code 4 where the arbiter handed the read over; one that fails ends
with code 7, and one that was handed over counts in ECC_RECON_FAIL and goes back to its die without a second rebuild. LUN_TIMEOUT: a time-out
counts on its channel and within its epoch, and a read that had not been tried twice is queued once more. Completes: READ_END, LUN_TIMEOUT,
RECONSTRUCTION_END. -/
def Obligations.ReadsEnd : Prop :=
  (∀ (ch lun : Nat) (o : AOp) (s : State),
    (∀ ladder corr id ow q,
      (dieOps (dieKey ch lun) s).find? (fun o => o.kind == .read && o.st == .running && o.work != .prechk && o.work != .diag) = some o →
      o.work = .host id ow q →
      (ladder ≤ 2 → s.fl.marred = [] →
        exec (.readEnd ch lun ladder corr) s = .next (afterIo (parkHalted (readEnds id ow q (pathOf o s) ladder corr (dropOp o.id s))))) ∧
      exec (.readEnd ch lun 3 corr) s = .next (afterIo (parkHalted (stepThree id ow q (pathOf o s) (dropOp o.id s)))) ∧
      (3 < ladder → exec (.readEnd ch lun ladder corr) s = .next (afterIo (parkHalted (readEnds id ow q (pathOf o s) 7 0 (dropOp o.id s)))))) ∧
    (∀ op lad id ow q path used bad t, s.fl.ops.find? (fun o => o.id == op && o.ch == 64) = some o → o.work = .recon id ow q path used bad →
      s.fl.ops.any (fun x => match x.work with | .member r _ => r == op | _ => false) = false → targetOf id ow q (dropOp op s) = some t →
      (lad ≠ 7 → t.pen.mem.length - t.pen.parity ≤ (used.filter (fun m => !bad.contains m)).length →
        exec (.reconstructionEnd op lad) s = .next (afterIo (readEnds id ow q path (if path = 4 then 4 else 3) 0 (dropOp op s)))) ∧
      (path ≠ 4 → exec (.reconstructionEnd op 7) s = .next (afterIo (readEnds id ow q path 7 0 (dropOp op s)))) ∧
      (path = 4 → ∃ u, exec (.reconstructionEnd op 7) s = .next (afterIo u) ∧ u.ecc.reconFail = satAdd 64 s.ecc.reconFail 1 ∧
        ((t.place (dropOp op s)).2.2 = false → ∃ x ∈ u.fl.ops, x.work = .host id ow q ∧ x.cls = 2 ∧ x.reconDone = true))) ∧
    ((dieOps (dieKey ch lun) s).find? (fun o => o.st == .running || o.st == .suspending) = some o → o.kind = .read → o.retried = false →
      Tbl.get? s.fl.luns (dieKey ch lun) = some (lunOf (dieKey ch lun) s) →
      (s.tm.epoch ≠ (lunOf (dieKey ch lun) s).toEpoch ∨ (lunOf (dieKey ch lun) s).timeouts < 2) →
      ∃ u, exec (.lunTimeout ch lun) s = .next (afterIo u) ∧ (chnOf ch u).fTo = satAdd 16 (chnOf ch s).fTo 1 ∧
        (lunOf (dieKey ch lun) u).timeouts = (if (lunOf (dieKey ch lun) s).toEpoch = s.tm.epoch then (lunOf (dieKey ch lun) s).timeouts + 1 else 1) ∧
        u.fl.ops = updWhere (fun x => x.id == o.id) (fun x => { x with st := .queued, retried := true }) s.fl.ops ∧ u.zn = s.zn)) ∧
  (∀ (id ow q path ladder corr : Nat) (t : Target) (s : State),
    Tbl.getD (readEnds id ow q path ladder corr s).ecc.ladder ladder 0 = satAdd 64 (Tbl.getD s.ecc.ladder ladder 0) 1 ∧
    (targetOf id ow q s = some t → penOf? t.pid s = some t.pen → id ≠ combReader → ladder ≠ 7 → refThr (cwClass t s) s < corr →
      (penOf? t.pid (readEnds id ow q path ladder corr s)).map (·.refresh) = some true))

/-- SUSPEND_ARBITER_DECISION: a waiting class-2 read suspends a running operation that may be suspended, counted on the channel; DIE_SUSPENDED:
the die reports it suspended, and it resumes at once where no read is left for it; SUSPEND_HOLD_EXPIRY: it runs again when its hold expires;
SUSPEND_RUN_MIN_REACHED: one that reaches its minimum run changes nothing else where no read waits; CONTINUOUS_READ_WAIT_EXPIRY: a chain of
continuous reads ends when another read has waited. Completes: SUSPEND_ARBITER_DECISION, SUSPEND_RUN_MIN_REACHED, DIE_SUSPENDED,
SUSPEND_HOLD_EXPIRY, CONTINUOUS_READ_WAIT_EXPIRY. -/
def Obligations.Suspension : Prop :=
  ∀ (ch lun : Nat) (o : AOp) (s : State),
    (∀ r b, s.fl.ops.find? (fun o => o.id == r.id && o.kind == .read && o.cls == 2 && o.st == .queued) = some r →
      (dieOps (dieKey r.ch r.lun) s).find? (fun o => o.kind != .read && o.st == .running) = some b → maySuspend b s = true →
      (chnOf r.ch s).retraining = false →
      ∃ u, exec (.suspendArbiterDecision r.id) s = .next (after u) ∧
        u.fl.ops = updWhere (fun x => x.id == b.id) (fun x => { x with st := .suspending, susp := x.susp + 1 }) s.fl.ops ∧
        (chnOf r.ch u).suspCnt = satAdd 64 (chnOf r.ch s).suspCnt 1 ∧ u.zn = s.zn ∧ u.pl = s.pl) ∧
    ((dieOps (dieKey ch lun) s).filter (fun o => o.kind != .read && o.st == .running) = [o] →
      (dieOps (dieKey ch lun) s).filter (fun o => o.kind == .read && o.cls == 2 && o.st == .queued && o.waited) = [] →
      ∃ u, exec (.suspendRunMinReached ch lun) s = .next (after u) ∧
        u.fl.ops = updWhere (fun x => x.id == o.id) (fun x => { x with since := min x.since (s.tm.elapsed - x.lim.1) }) s.fl.ops ∧
        u.zn = s.zn ∧ u.pl = s.pl) ∧
    ((dieOps (dieKey ch lun) s).find? (fun o => o.st == .suspending) = some o →
      ∃ u, exec (.dieSuspended ch lun) s = .next (after (resumeIdle u)) ∧
        u.fl.ops = updWhere (fun x => x.id == o.id) (fun x => { x with st := .suspended }) s.fl.ops ∧ u.zn = s.zn ∧ u.pl = s.pl) ∧
    ((dieOps (dieKey ch lun) s).find? (fun o => o.st == .suspended) = some o →
      ∃ u, exec (.suspendHoldExpiry ch lun) s = .next (after u) ∧
        u.fl.ops = updWhere (fun x => x.id == o.id) (fun x => { x with st := .running, since := s.tm.elapsed }) s.fl.ops ∧ u.zn = s.zn ∧
        u.pl = s.pl) ∧
    (∀ l, Tbl.get? s.fl.luns (dieKey ch lun) = some l → 0 < l.chain →
      (dieOps (dieKey ch lun) s).any (fun o => o.kind == .read && o.st == .queued) = true →
      ∃ u, exec (.continuousReadWaitExpiry ch lun) s = .next (after u) ∧ Tbl.get? u.fl.luns (dieKey ch lun) = some { l with chainEnd := true } ∧
        u.fl.ops = s.fl.ops ∧ u.zn = s.zn)

/-- EYE_PASS takes the eye and asks for a retrain below 64 and not from 77 on; RETRAIN_END at full rate with eyes of 90 or more keeps the rate,
one with less takes the lower rate with 0x4012; TACK_FIRMWARE_REFRESH, where it is due, moves the firmware block above the threshold to a
fresh Tack Room block with 0x4041, and none where none is; the diagnostic access is busy from FCH_DIAG_GO until FCH_DIAG_DONE;
LOW_WEAR_LIST_REFILL_END refills a die's short list. Completes: EYE_PASS, RETRAIN_END, TACK_FIRMWARE_REFRESH, FCH_DIAG_GO, FCH_DIAG_DONE,
LOW_WEAR_LIST_REFILL_END. -/
def Obligations.ChannelsAndLists : Prop :=
  ∀ (ch : Nat) (s : State),
    (∀ eye, (chnOf ch s).state = 2 → (chnOf ch s).eyeAt + (chnOf ch s).eyePeriod ≤ s.tm.turns →
      ∃ u, exec (.eyePass ch eye) s = .next (after u) ∧ (chnOf ch u).eyeRd = min eye 255 ∧ (chnOf ch u).eyeAt = s.tm.turns ∧
        (eye < 64 → (chnOf ch u).retrainDue = true ∧ (chnOf ch u).retraining = true) ∧
        (77 ≤ eye → (chnOf ch s).retrainDue = false → (chnOf ch u).retrainDue = false) ∧ u.zn = s.zn ∧ u.pl = s.pl) ∧
    (∀ rd wr rate, (chnOf ch s).state = 2 → (chnOf ch s).retraining = true → (chnOf ch s).rate = 4800 →
      (90 ≤ min rd wr → ∃ u, exec (.retrainEnd ch rd wr rate) s = .next (after u) ∧ (chnOf ch u).rate = 4800 ∧
        (chnOf ch u).retraining = false ∧ (chnOf ch u).retrainCnt = satAdd 8 (chnOf ch s).retrainCnt 1) ∧
      (min rd wr < 90 → rate ≠ 0 → ∃ u, exec (.retrainEnd ch rd wr rate) s = .next (after u) ∧ raises 0x4012 u ∧
        (chnOf ch u).rate = min rate 3600 ∧ (chnOf ch u).xdrop = true)) ∧
    (∀ shed old new, shed < s.part.sheds →
      (Tbl.getD s.fl.refreshAt shed 0 + 2592000000000 ≤ s.tm.elapsed ∨ (s.fl.flushHot = true ∧ s.fl.fwFresh.contains shed = false)) →
      (∃ u, exec (.tackFirmwareRefresh shed []) s = .next (after u) ∧ u.fl.refreshAt = Tbl.put s.fl.refreshAt shed s.tm.elapsed ∧
        u.fl.blks = s.fl.blks ∧ u.zn = s.zn) ∧
      (old ≠ new → (bkOf (dieKey (16 * shed) 0) old s).role = .fw → (bkOf (dieKey (16 * shed) 0) new s).role.inTack = true →
        (bkOf (dieKey (16 * shed) 0) new s).st = .erased →
        ∃ u, exec (.tackFirmwareRefresh shed [(16 * shed, old, new)]) s = .next (after u) ∧ raises 0x4041 u ∧
          (bkOf (dieKey (16 * shed) 0) new u).role = .fw ∧ (bkOf (dieKey (16 * shed) 0) new u).st = .full ∧
          (bkOf (dieKey (16 * shed) 0) old u).st = .erased)) ∧
    (∀ (v : Dword), ch < s.part.channels → s.m.cur.isBase = true → plainWake s → (chnOf ch s).dBusy = false → bit v.toNat 0 = true →
      bits v.toNat 2 1 ≠ 3 →
      ∃ u, exec (.fchDiagGo 0 ch v) s = .next (after u) ∧ (chnOf ch u).dBusy = true ∧ (chnOf ch u).dMode = bits v.toNat 2 1 ∧ u.zn = s.zn) ∧
    (∀ zeros corr ladder, (chnOf ch s).dBusy = true → (∀ o ∈ s.fl.ops, o.work = .diag → o.ch = ch → o.st ≠ .queued) →
      ∃ u, exec (.fchDiagDone ch zeros corr ladder) s = .next (after u) ∧ (chnOf ch u).dBusy = false ∧ (chnOf ch u).dDone = true ∧ u.zn = s.zn) ∧
    (∀ lun l, Tbl.get? s.fl.luns (dieKey ch lun) = some l → l.low.length ≤ 5 →
      (∀ p ∈ (refillLists (dieKey ch lun) s).pl.pens, ∀ m ∈ p.2.mem, ¬(m.1 = dieKey ch lun ∧ m.2.1 = 8191)) →
      exec (.lowWearListRefillEnd ch lun) s = .next (after (refillLists (dieKey ch lun) s)))

/-! ## Integrity (Chapter 7) -/

/-- A corrected SRAM word is counted and shown with 0x5001; one that cannot be corrected writes 0x5002: an Ostler's code halts the device, a
table line waits for its rebuild, with 0x5003 or a halt at its end, a reader's data is repeated once, then reads as lost; what an access may
find at a word is sramFinds' (log 87). ECC_FLIP_CTL arms a mask while none is armed and disarms it. A Currycomb pass a physical function asks
for runs at once where none runs, four may be outstanding, a Yard without rows is refused with 0h/0x02 and a stall with 0h/0x01; an automatic
round after a hot flush reads the Paddock; a pass that has read all it is to read ends with 0x5020 and its own counts, is counted, and the
next one queued runs. Completes: SRAM_CORRECTABLE_ERROR, SRAM_UNCORRECTABLE_ERROR, TABLE_LINE_REBUILD_END, ECC_FLIP_ARM, ECC_FLIP_DISARM,
CURRYCOMB_PASS, CURRYCOMB_AUTO_PASS_START, CURRYCOMB_PASS_END. -/
def Obligations.SramAndCurrycomb : Prop :=
  (∀ (die region word syn : Nat) (s : State),
      (sramFinds die region word false s = true →
        ∃ u, exec (.sramCorrectableError die region word syn) s = .next (after u) ∧ raises 0x5001 u ∧
          u.ecc.sramCe = satAdd 64 s.ecc.sramCe 1 ∧ u.ecc.lastDie = die ∧ u.ecc.lastRegion = region ∧ u.ecc.lastUe = false ∧ u.zn = s.zn ∧ u.m = s.m) ∧
      (sramFinds die region word true s = true → ∀ hit again,
        (region = 4 → s.m.cur ≠ .emergencyFlush → s.m.cur ≠ .halted →
          ∃ u, exec (.sramUncorrectableError die region word syn hit again) s = .next (afterIo u) ∧ raises 0x5002 u ∧ u.m.cur = .halted ∧
            u.ecc.sramUe = satAdd 32 s.ecc.sramUe 1 ∧ u.ecc.lastUe = true) ∧
        (region = 2 ∨ region = 3 →
          ∃ u, exec (.sramUncorrectableError die region word syn hit again) s = .next (afterIo u) ∧ raises 0x5002 u ∧
            (die, region, word) ∈ u.ecc.rebuild ∧ u.m = s.m ∧ u.zn = s.zn) ∧
        (∀ k, region = 1 → s.q.ctxs.find? (fun x => x.seq == hit) = some k →
          ∃ u, exec (.sramUncorrectableError die region word syn hit again) s = .next (afterIo u) ∧ raises 0x5002 u ∧ u.zn = s.zn ∧ u.m = s.m)) ∧
      ((die, region, word) ∈ s.ecc.rebuild →
        (∃ u, exec (.tableLineRebuildEnd die region word true) s = .next (afterIo u) ∧ raises 0x5003 u ∧
          u.ecc.rebuild = s.ecc.rebuild.erase (die, region, word) ∧ u.m = s.m) ∧
        (s.m.cur ≠ .emergencyFlush → ∃ u, exec (.tableLineRebuildEnd die region word false) s = .next (afterIo u) ∧ u.m.cur = .halted)) ∧
      (∀ v : Dword, plainWake s → s.m.cur ≠ .halted →
        (bit v.toNat 0 = true → s.ecc.arm = false → ∃ u, exec (.eccFlipArm 0 v) s = .next (after u) ∧ u.ecc.arm = true ∧
          u.ecc.target = bit v.toNat 1 ∧ u.ecc.fDie = bits v.toNat 4 2 ∧ u.ecc.fRegion = bits v.toNat 7 5 ∧ u.ecc.fChannel = bits v.toNat 13 8 ∧
          u.ecc.fCount = bits v.toNat 24 14 ∧ u.zn = s.zn) ∧
        (bit v.toNat 0 = true → s.ecc.arm = true → ∃ u, exec (.eccFlipArm 0 v) s = .next (after u) ∧ u.ecc = s.ecc) ∧
        (bit v.toNat 0 = false → ∃ u, exec (.eccFlipDisarm 0 v) s = .next (after u) ∧ u.ecc.arm = false ∧ u.zn = s.zn))) ∧
  (∀ (s : State),
      (∀ (c : Cmd) (s1 : State) (k : Ctx), taken c s = some (k, s1) → plainForm k → notSanitizing s1 →
        (isPf c.fn = false → ∃ u, exec (.currycombPass c) s = .next (afterIo u) ∧ endsWith k 0 0x01 0 [] s1 u) ∧
        (isPf c.fn = true → 4 ≤ askedPasses s1 → ∃ u, exec (.currycombPass c) s = .next (afterIo u) ∧ endsWith k 0 0x02 0 [] s1 u) ∧
        (isPf c.fn = true → askedPasses s1 < 4 → bits c.cdw10.toNat 1 0 = 1 → yardRows (bits c.cdw10.toNat 13 8) s1 = [] →
          ∃ u, exec (.currycombPass c) s = .next (afterIo u) ∧ endsWith k 0 0x02 0 [] s1 u) ∧
        (isPf c.fn = true → askedPasses s1 < 4 → bits c.cdw10.toNat 1 0 = 1 → yardRows (bits c.cdw10.toNat 13 8) s1 ≠ [] → s1.ecc.running = none →
          ∃ u k', exec (.currycombPass c) s = .next (afterIo u) ∧ k'.cmd = k.cmd ∧ k'.seq = k.seq ∧ k'.wait = .ccb ∧
            u.q.ctxs = s1.q.ctxs.map (fun x => if x.seq == k.seq then k' else x) ∧
            u.ecc.running = some (newPass (some k.seq) 1 (bit c.cdw10.toNat 2) (bits c.cdw10.toNat 13 8) 0 0 0 false) ∧ u.zn = s1.zn)) ∧
      (s.ecc.auto = true → s.ecc.running = none → s.m.cur.isBase = true → s.ecc.paddockDue = true →
        ∃ u, exec .currycombAutoPassStart s = .next (afterIo u) ∧ u.ecc.running = some (newPass none 3 true 0 0 0 0 false) ∧
          u.ecc.paddockDue = false ∧ u.zn = s.zn) ∧
      (s.ecc.auto = true → s.ecc.running = none → s.m.cur.isBase = true → s.ecc.paddockDue = false →
        s.ecc.mediaAt + s.ecc.mediaDays * 86400000000 ≤ s.tm.elapsed →
        ∃ u, exec .currycombAutoPassStart s = .next (afterIo u) ∧ u.ecc.mediaAt = s.tm.elapsed ∧ u.ecc.sramAt = s.ecc.sramAt ∧ u.zn = s.zn) ∧
      (s.ecc.auto = true → s.ecc.running = none → s.m.cur.isBase = true → s.ecc.paddockDue = false →
        s.tm.elapsed < s.ecc.mediaAt + s.ecc.mediaDays * 86400000000 → s.ecc.sramAt + s.ecc.sramMin * 60000000 ≤ s.tm.elapsed →
        ∃ u, exec .currycombAutoPassStart s = .next (afterIo u) ∧ u.ecc.sramAt = s.tm.elapsed ∧
          (u.ecc.running.map (fun p => (p.scope, p.target)) = some (2, 7)) ∧ u.zn = s.zn) ∧
      (∀ p res, s.ecc.running = some p → passDone p s = true →
        ∃ u, exec (.currycombPassEnd res) s = .next (afterIo u) ∧ raises 0x5020 u ∧
          u.ecc.running = s.ecc.queued.head? ∧ u.ecc.queued = s.ecc.queued.drop 1 ∧ u.ecc.passCnt = wrapAdd 16 s.ecc.passCnt 1 ∧
          (p.scope ≠ 2 → u.ecc.last = p.summary 1) ∧
          (p.scope = 2 → u.ecc.last.words = sramWords p res.words s ∧ u.ecc.last.uncorr = res.uncorr)))

/-! ## Queues, controllers and admin commands (Chapter 8) -/

/-- A valid tail or head doorbell is recorded; one that names no submission queue, or a value at or above the size, writes 0x6020 and changes no
submission queue. A fetch slot fetches the entry of the granted queue into a new context and moves the head, and does nothing where no queue
may be granted (the order among weighted classes is log 13's). Completes: SQ_TAIL_DOORBELL, CQ_HEAD_DOORBELL, FETCH_SLOT. -/
def Obligations.DoorbellsAndFetch : Prop :=
  ∀ (fn qid val : Nat) (s : State), fnPresent fn s = true →
    (∀ q, plainWake s → Tbl.get? (fnOf fn s).sqs qid = some q →
      (val < q.size → ∃ u, exec (.sqTailDoorbell fn qid val) s = .next (after u) ∧ Tbl.get? (fnOf fn u).sqs qid = some { q with tail := val } ∧
        u.zn = s.zn ∧ u.q.ctxs = s.q.ctxs) ∧
      (q.size ≤ val → ∃ u, exec (.sqTailDoorbell fn qid val) s = .next (after u) ∧ raises 0x6020 u ∧ Tbl.get? (fnOf fn u).sqs qid = some q)) ∧
    (plainWake s → Tbl.get? (fnOf fn s).sqs qid = none → ∃ u, exec (.sqTailDoorbell fn qid val) s = .next (after u) ∧ raises 0x6020 u) ∧
    (∀ q, Tbl.get? (fnOf fn s).cqs qid = some q →
      (val < q.size → q.held = [] → ∃ u, exec (.cqHeadDoorbell fn qid val) s = .next (afterIo u) ∧
        Tbl.get? (fnOf fn u).cqs qid = some { q with head := val } ∧ u.zn = s.zn ∧ u.q.ctxs = s.q.ctxs ∧ u.pw = s.pw) ∧
      (q.size ≤ val → ∃ u, exec (.cqHeadDoorbell fn qid val) s = .next (after u) ∧ raises 0x6020 u)) ∧
    (∀ (c : Cmd) f q n x, (allFns s).any (fun f => waiting f s && !ctxFree f s) = false → slotPick s = some (f, q, n) →
      Tbl.get? n.sqs q = some x → x.size ≠ 0 → x.head ≠ x.tail →
      ∃ u k, exec (.fetchSlot c) s = .next (after u) ∧ k ∈ u.q.ctxs ∧ k.cmd = { c with fn := f, sqid := q } ∧ k.seq = s.q.seq + 1 ∧
        k.wait = .fetched ∧ u.q.seq = s.q.seq + 1 ∧ u.q.lastFn = f ∧
        Tbl.get? (fnOf f u).sqs q = some { x with head := (x.head + 1) % x.size } ∧ u.zn = s.zn) ∧
    (∀ c, (allFns s).any (fun f => waiting f s && !ctxFree f s) = false → slotPick s = none → exec (.fetchSlot c) s = .next (after s))

/-- An enable that CC's values allow makes the admin queues; one they refuse leaves RDY at 0 with 0x6001. A controller reset discards the
function's queues and Features with 0x6030 and keeps ASQ; a function-level reset of a physical function clears ASQ and the MSI-X table too,
and the Owner PF's takes VF Enable. A shutdown stops its controller, and the last one device-wide admission (log 36); its completion reads
SHST = 2h once its writes are done. Completes: CONTROLLER_ENABLE, CONTROLLER_RESET, FUNCTION_LEVEL_RESET_PF, SHUTDOWN, SHUTDOWN_COMPLETE. -/
def Obligations.ControllersStartAndStop : Prop :=
  ∀ (fn : Nat) (s : State), fnPresent fn s = true → s.m.cur ≠ .fwActivate →
    (∀ cc : Dword, bit cc.toNat 0 = true → bits cc.toNat 15 14 = 0 → (fnOf fn s).en = false → plainWake s →
      (enableFault (putCc cc.toNat (fnOf fn s)) = none →
        ∃ u, exec (.controllerEnable fn cc) s = .next (afterIo u) ∧ (fnOf fn u).en = true ∧ (fnOf fn u).cfgOk = true ∧ (fnOf fn u).shst = 0 ∧
          (fnOf fn u).sqs = [(0, ⟨(fnOf fn s).asqs + 1, (fnOf fn s).asq, 0, 0, 0, 0⟩)] ∧
          (fnOf fn u).cqs = [(0, ⟨(fnOf fn s).acqs + 1, (fnOf fn s).acq, 0, 0, true, 0, true, [], 0⟩)] ∧ u.zn = s.zn) ∧
      (∀ e, enableFault (putCc cc.toNat (fnOf fn s)) = some e →
        ∃ u, exec (.controllerEnable fn cc) s = .next (afterIo u) ∧ raises 0x6001 u ∧ rdy fn u = false ∧ u.zn = s.zn)) ∧
    ((fnOf fn s).en = true → plainWake s →
      ∃ u, exec (.controllerReset fn) s = .next (afterIo u) ∧ (fnOf fn u).en = false ∧ (fnOf fn u).sqs = [] ∧ (fnOf fn u).cqs = [] ∧
        (fnOf fn u).feats = Feats.dflt ∧ (fnOf fn u).asq = (fnOf fn s).asq ∧ raises 0x6030 u) ∧
    (isPf fn = true →
      ∃ u, exec (.functionLevelResetPf fn) s = .next (afterIo u) ∧ (fnOf fn u).en = false ∧ (fnOf fn u).sqs = [] ∧ (fnOf fn u).cqs = [] ∧
        (fnOf fn u).asq = 0 ∧ (fnOf fn u).msixTab = [] ∧ raises 0x6030 u ∧ (fn = 0 → u.stl.vfEnable = false)) ∧
    (∀ shn, shn % 4 ≠ 0 → plainWake s → (fnOf fn s).shst = 0 →
      ∃ u, exec (.shutdown fn shn) s = .next (after u) ∧ (fnOf fn u).shst = 1 ∧ (fnOf fn u).shn = shn % 4 ∧ u.zn = s.zn ∧
        ((∀ p ∈ s.q.fns, p.1 = fn ∨ p.2.en = false ∨ p.2.shst = 2) → u.slk.admissionOff = true ∧ u.jn.admOff = true)) ∧
    ((fnOf fn s).shst = 1 → writesDone fn s = true →
      (othersShut fn s = false → ∃ u, exec (.shutdownComplete fn) s = .next (after u) ∧ (fnOf fn u).shst = 2 ∧ u.jn = s.jn) ∧
      (othersShut fn s = true → useBytes s = 0 → s.m.thm ≠ 2 →
        ∃ u, exec (.shutdownComplete fn) s = .next (after u) ∧ (fnOf fn u).shst = 2 ∧ u.jn.closing = .clean ∧ u.slk.admissionOff = true))

/-- A Create makes the queue it names, empty; one of queue 0 or of a queue the function has not ends with 1h/0x01; a Delete removes a completion
queue, refuses one with a submission queue attached (1h/0x0C), and for a submission queue waits for its commands (statuses are NVMe's, log
5). Entries waiting on a vector are signalled together when the coalescing time ends; a command whose host transfer fails ends with 0h/0x04
and delivers nothing, an accepted write keeping its range as unreadable with 0x3031. Completes: CREATE_IO_SQ, CREATE_IO_CQ, DELETE_IO_SQ,
DELETE_IO_CQ, INTERRUPT_COALESCING_TIME_EXPIRY, HOST_MEMORY_ERROR. -/
def Obligations.QueueCommands : Prop :=
  (∀ (c : Cmd) (s s1 : State) (k : Ctx), taken c s = some (k, s1) → plainForm k → c.dptr % 2 ^ (12 + (fnOf c.fn s1).mps) = 0 →
      (qidOf c ≠ 0 → qidOf c < pairsOf c.fn s1 → qsizeOf c ≠ 0 → bit c.cdw11.toNat 0 = true →
        (Tbl.get? (fnOf c.fn s1).sqs (qidOf c) = none → bits c.cdw11.toNat 31 16 ≠ 0 →
          (Tbl.get? (fnOf c.fn s1).cqs (bits c.cdw11.toNat 31 16)).isSome = true →
          ∃ u0 u, exec (.createIoSq c) s = .next (after u) ∧ endsWith k 0 0 0 [] u0 u ∧ u0.zn = s1.zn ∧
            Tbl.get? (fnOf c.fn u0).sqs (qidOf c) =
              some ⟨qsizeOf c + 1, c.dptr, 0, 0, bits c.cdw11.toNat 31 16, bits c.cdw11.toNat 2 1⟩) ∧
        (Tbl.get? (fnOf c.fn s1).cqs (qidOf c) = none → bits c.cdw11.toNat 31 16 < vectorsOf c.fn s1 →
          ∃ u0 u, exec (.createIoCq c) s = .next (after u) ∧ endsWith k 0 0 0 [] u0 u ∧ u0.zn = s1.zn ∧
            Tbl.get? (fnOf c.fn u0).cqs (qidOf c) =
              some ⟨qsizeOf c + 1, c.dptr, 0, 0, true, bits c.cdw11.toNat 31 16, bit c.cdw11.toNat 1, [], 0⟩)) ∧
      ((qidOf c = 0 ∨ pairsOf c.fn s1 ≤ qidOf c) →
        (∃ u, exec (.createIoSq c) s = .next (after u) ∧ endsWith k 1 0x01 0 [] s1 u) ∧
        (∃ u, exec (.createIoCq c) s = .next (after u) ∧ endsWith k 1 0x01 0 [] s1 u)) ∧
      (qidOf c ≠ 0 → (Tbl.get? (fnOf c.fn s1).cqs (qidOf c)).isSome = true →
        ((∀ x ∈ (fnOf c.fn s1).sqs, x.1 = 0 ∨ x.2.cq ≠ qidOf c) →
          ∃ u0 u, exec (.deleteIoCq c) s = .next (after u) ∧ endsWith k 0 0 0 [] u0 u ∧ Tbl.get? (fnOf c.fn u0).cqs (qidOf c) = none) ∧
        (∀ x ∈ (fnOf c.fn s1).sqs, x.1 ≠ 0 → x.2.cq = qidOf c →
          ∃ u, exec (.deleteIoCq c) s = .next (after u) ∧ endsWith k 1 0x0C 0 [] s1 u)) ∧
      (qidOf c ≠ 0 → sqLive c.fn (qidOf c) s1 = true → (ctxsOf c.fn s1).filter (fun x => x.cmd.sqid == qidOf c && undispatched x s1) = [] →
        ∃ u, exec (.deleteIoSq c) s = .next (afterIo u) ∧ u.zn = s1.zn ∧ ∃ k', k'.cmd = k.cmd ∧ k'.seq = k.seq ∧ k'.wait = .sqDelete (qidOf c) ∧
          u.q.ctxs = s1.q.ctxs.map (fun x => if x.seq == k.seq then k' else x)) ∧
      ((qidOf c = 0 ∨ sqLive c.fn (qidOf c) s1 = false) → ∃ u, exec (.deleteIoSq c) s = .next (afterIo u) ∧ endsWith k 1 0x01 0 [] s1 u)) ∧
  (∀ (fn : Nat) (s : State),
      (∀ vec, (fnOf fn s).cqs.any (fun q => q.1 != 0 && q.2.iv == vec && decide (0 < q.2.coal) && q.2.ien) = true →
        vecMasked (fnOf fn s) vec = false →
        ∃ u, exec (.interruptCoalescingTimeExpiry fn vec) s = .next (after u) ∧
          Tbl.getD (fnOf fn u).msix vec 0 = Tbl.getD (fnOf fn s).msix vec 0 + 1 ∧
          (∀ q ∈ (fnOf fn u).cqs, q.1 ≠ 0 → q.2.iv = vec → q.2.coal = 0) ∧ u.zn = s.zn) ∧
      (∀ sqid cid k, ctxNamed fn sqid cid s = some k →
        (k.wait = .halfHitch → ∃ u, exec (.hostMemoryError fn sqid cid) s = .next (afterIo u) ∧ endsWith k 0 0x04 0 [] s u) ∧
        (∀ i, k.wait = .read i → ∃ u, exec (.hostMemoryError fn sqid cid) s = .next (afterIo u) ∧ endsWith k 0 0x04 0 [] s u) ∧
        (k.wait = .hhRead → ∃ u, exec (.hostMemoryError fn sqid cid) s = .next (afterIo u) ∧ endsWith k 0 0x04 0 [] s u) ∧
        (∀ ch, k.wait = .gather ch → ∃ u, exec (.hostMemoryError fn sqid cid) s = .next (afterIo u) ∧ endsWith k 0 0x04 0 [] (dropChan ch s) u) ∧
        (∀ id w, k.wait = .write id → wrAt id s = some w → w.ready = false →
          (w.discarded = true → ∃ u, exec (.hostMemoryError fn sqid cid) s = .next (afterIo u) ∧ endsWith k 0 0x04 0 [] (discardWrite id s) u) ∧
          (w.discarded = false →
            ∃ u, exec (.hostMemoryError fn sqid cid) s = .next (afterIo u) ∧ endsWith k 0 0x04 0 [] (failWrite id s) u ∧ raises 0x3031 u))))

/-- Set Features: each Feature takes its fields, nothing else of the function's Features, the zones, Slack or the mode changes, and the command
succeeds; a request to save is refused with 0h/0x0D, WCE = 1 while WT stands and an Extension Level outside 1 … 3 with 0h/0x02, a number of
queues while I/O queues exist with 0h/0x0C (field places and statuses are NVMe's, log 5). Completes: SET_FEATURES_ARBITRATION,
VOLATILE_WRITE_CACHE, NUMBER_OF_QUEUES, INTERRUPT_COALESCING, INTERRUPT_VECTOR_CONFIG, WRITE_ATOMICITY, ASYNC_EVENT_CONFIG,
HOST_BEHAVIOR_SUPPORT, EXTENSION_LEVEL, POWER_MANAGEMENT, APST, NOPSC and TEMPERATURE_THRESHOLD. -/
def Obligations.SetFeatures : Prop :=
  ∀ (c : Cmd) (buf : List Byte) (s s1 : State) (k : Ctx), taken c s = some (k, s1) → plainForm k →
    (svOf c = true →
      ∀ i ∈ [Instr.setFeaturesArbitration c, .setFeaturesVolatileWriteCache c, .setFeaturesNumberOfQueues c, .setFeaturesInterruptCoalescing c,
          .setFeaturesInterruptVectorConfig c, .setFeaturesWriteAtomicity c, .setFeaturesAsyncEventConfig c, .setFeaturesHostBehaviorSupport c buf,
          .setFeaturesExtensionLevel c, .setFeaturesPowerManagement c, .setFeaturesApst c buf, .setFeaturesNopsc c,
          .setFeaturesTemperatureThreshold c],
        ∃ u, exec i s = .next (afterIo u) ∧ endsWith k 0 0x0D 0 [] s1 u) ∧
    (svOf c = false →
      let v := c.cdw11.toNat
      let x := (fnOf c.fn s1).feats
      let same := fun (w : State) => w.zn = s1.zn ∧ w.slk = s1.slk ∧ w.m = s1.m
      (∃ u0 u, exec (.setFeaturesArbitration c) s = .next (afterIo u) ∧ endsWith k 0 0 0 [] u0 u ∧ same u0 ∧
        (fnOf c.fn u0).feats = { x with ab := bits v 2 0, lpw := bits v 15 8, mpw := bits v 23 16, hpw := bits v 31 24 }) ∧
      (¬(s1.m.wt = true ∧ bit v 0 = true) → ∃ u0 u, exec (.setFeaturesVolatileWriteCache c) s = .next (afterIo u) ∧ endsWith k 0 0 0 [] u0 u ∧ same u0 ∧
        (fnOf c.fn u0).feats = { x with wce := bit v 0 }) ∧
      (s1.m.wt = true → bit v 0 = true →
        ∃ u, exec (.setFeaturesVolatileWriteCache c) s = .next (afterIo u) ∧ endsWith k 0 0x02 0 [] s1 u) ∧
      (hasIoQ c.fn s1 = false →
        ∃ u, exec (.setFeaturesNumberOfQueues c) s = .next (afterIo u) ∧ endsWith k 0 0 (numQueues c.fn s1) [] s1 u) ∧
      (hasIoQ c.fn s1 = true → ∃ u, exec (.setFeaturesNumberOfQueues c) s = .next (afterIo u) ∧ endsWith k 0 0x0C 0 [] s1 u) ∧
      (∃ u0 u, exec (.setFeaturesInterruptCoalescing c) s = .next (afterIo u) ∧ endsWith k 0 0 0 [] u0 u ∧ same u0 ∧
        (fnOf c.fn u0).feats = { x with thr := bits v 7 0, time := bits v 15 8 }) ∧
      (bits v 15 0 < vectorsOf c.fn s1 → ∃ u0 u, exec (.setFeaturesInterruptVectorConfig c) s = .next (afterIo u) ∧ endsWith k 0 0 0 [] u0 u ∧ same u0 ∧
        (fnOf c.fn u0).feats = { x with cd := x.cd.filter (· != bits v 15 0) ++ (if bit v 16 then [bits v 15 0] else []) }) ∧
      (vectorsOf c.fn s1 ≤ bits v 15 0 → ∃ u, exec (.setFeaturesInterruptVectorConfig c) s = .next (afterIo u) ∧ endsWith k 0 0x02 0 [] s1 u) ∧
      (∃ u0 u, exec (.setFeaturesWriteAtomicity c) s = .next (afterIo u) ∧ endsWith k 0 0 0 [] u0 u ∧ same u0 ∧
        (fnOf c.fn u0).feats = { x with dn := bit v 0 }) ∧
      (∃ u0 u, exec (.setFeaturesAsyncEventConfig c) s = .next (afterIo u) ∧ endsWith k 0 0 0 [] u0 u ∧ same u0 ∧
        (fnOf c.fn u0).feats = { x with aec := bits v 9 0 + fld 27 1 (bits v 27 27) }) ∧
      (∃ u0 u, exec (.setFeaturesHostBehaviorSupport c buf) s = .next (afterIo u) ∧ endsWith k 0 0 0 [] u0 u ∧ same u0 ∧
        (fnOf c.fn u0).feats = { x with acre := bit (numAt buf 0 1) 0 }) ∧
      (1 ≤ bits v 7 0 → bits v 7 0 ≤ 3 → (∀ q ∈ (fnOf c.fn s1).sqs, q.1 = 0) → ∃ u0 u, exec (.setFeaturesExtensionLevel c) s = .next (afterIo u) ∧ endsWith k 0 0 0 [] u0 u ∧ same u0 ∧
        (fnOf c.fn u0).feats = { x with xlevel := bits v 7 0 }) ∧
      ((bits v 7 0 = 0 ∨ 3 < bits v 7 0) → ∃ u, exec (.setFeaturesExtensionLevel c) s = .next (afterIo u) ∧ endsWith k 0 0x02 0 [] s1 u) ∧
      (bits v 4 0 ≤ 4 → ∃ u0 u, exec (.setFeaturesPowerManagement c) s = .next (afterIo u) ∧ endsWith k 0 0 0 [] u0 u ∧ same u0 ∧
        (fnOf c.fn u0).feats = { x with ps := bits v 4 0, opPs := if bits v 4 0 ≤ 2 then bits v 4 0 else x.opPs, wh := bits v 7 5 }) ∧
      (4 < bits v 4 0 → ∃ u, exec (.setFeaturesPowerManagement c) s = .next (afterIo u) ∧ endsWith k 0 0x02 0 [] s1 u) ∧
      ((∀ i < 32, bits (numAt buf (8 * i) 8) 7 3 ≤ 4) → ∃ u0 u, exec (.setFeaturesApst c buf) s = .next (afterIo u) ∧ endsWith k 0 0 0 [] u0 u ∧ same u0 ∧
        (fnOf c.fn u0).feats = { x with apste := bit v 0, apst := (List.range 32).map (fun i =>
          fld 3 5 (bits (numAt buf (8 * i) 8) 7 3) + fld 8 24 (bits (numAt buf (8 * i) 8) 31 8)) }) ∧
      (∃ u0 u, exec (.setFeaturesNopsc c) s = .next (afterIo u) ∧ endsWith k 0 0 0 [] u0 u ∧ same u0 ∧
        (fnOf c.fn u0).feats = { x with noppme := bit v 0 }) ∧
      (bits v 19 16 ≤ 8 → bits v 21 20 ≤ 1 → ∃ u0 u, exec (.setFeaturesTemperatureThreshold c) s = .next (afterIo u) ∧ endsWith k 0 0 0 [] u0 u ∧ same u0 ∧
        (fnOf c.fn u0).feats = { x with tmpth := Tbl.put x.tmpth (2 * bits v 19 16 + bits v 21 20) (v % 65536) }) ∧
      (bits v 19 16 = 15 → bits v 21 20 ≤ 1 → ∃ u0 u, exec (.setFeaturesTemperatureThreshold c) s = .next (afterIo u) ∧ endsWith k 0 0 0 [] u0 u ∧ same u0 ∧
        (fnOf c.fn u0).feats = { x with tmpth := ((List.range 9).map (fun n => 2 * n + bits v 21 20)).foldl (fun m q => Tbl.put m q (v % 65536)) x.tmpth }))

/-- Identify answers its data structure or its status; Get Log Page the bytes of the page asked for, 1h/0x09 where the page is not supported;
Service Life and Cadence Domain Status their pages to a physical function and 0h/0x02 to a stall; Get Features the current value, the
default, or the capabilities; an unknown opcode ends with 0h/0x01 and an unknown Feature with 0h/0x02 (layouts are NVMe's, log 5).
Completes: GET_LOG_PAGE, IDENTIFY, GET_FEATURES, CADENCE_DOMAIN_STATUS_LOG, SERVICE_LIFE_LOG, INVALID_COMMAND_OPCODE. -/
def Obligations.AdminAnswers : Prop :=
  ∀ (c : Cmd) (s s1 : State) (k : Ctx), taken c s = some (k, s1) → plainForm k →
    (∀ d, identifyData c s1 = .inl d → ∃ u, exec (.identify c) s = .next (after u) ∧ endsWith k 0 0 0 d s1 u) ∧
    (∀ e, identifyData c s1 = .inr e → ∃ u, exec (.identify c) s = .next (after u) ∧ endsWith k 0 e 0 [] s1 u) ∧
    (cnsOf c = 0x01 → identifyData c s1 = .inl (idCtrl c.fn s1)) ∧
    (∀ p ∈ [(0x00, supportPage c.fn s1), (0x01, errPage c.fn s1), (0x02, smartPage c.fn s1), (0x03, fwPage s1), (0x81, sanitizePage s1),
        (0xBF, changedPage c.fn c.nsid s1)], lidOf c = p.1 → logOff c % 4 = 0 → logLen c ≤ 2097152 → logOff c + logLen c ≤ p.2.length →
      ∃ v, exec (.getLogPage c) s = .next (after (tick (readAck k v))) ∧ endsWith k 0 0 0 ((p.2.drop (logOff c)).take (logLen c)) s1 v) ∧
    (lidOf c ∉ [0x00, 0x01, 0x02, 0x03, 0x04, 0x81, 0xBF, 0xD3, 0xD5, 0xD7] →
      ∃ u, exec (.getLogPage c) s = .next (after u) ∧ endsWith k 1 0x09 0 [] s1 u) ∧
    (isPf c.fn = true → logOff c % 4 = 0 → logOff c + logLen c ≤ 64 →
      ∃ u, exec (.serviceLifeLog c) s = .next (after u) ∧ endsWith k 0 0 0 (((lifePage s1).drop (logOff c)).take (logLen c)) s1 u) ∧
    (isPf c.fn = false →
      (∃ u, exec (.serviceLifeLog c) s = .next (after u) ∧ endsWith k 0 0x02 0 [] s1 u) ∧
      (∃ u, exec (.cadenceDomainStatusLog c) s = .next (after u) ∧ endsWith k 0 0x02 0 [] s1 u)) ∧
    (isPf c.fn = true → isRoot s1 = true → logOff c % 4 = 0 → logOff c + logLen c ≤ 1024 →
      ∃ u v, exec (.cadenceDomainStatusLog c) s = .next (after u) ∧ u.q = v.q ∧
        endsWith k 0 0 0 ((((List.range 1024).flatMap (fun a => cadEntry a s1)).drop (logOff c)).take (logLen c)) s1 v) ∧
    (∀ r, selOf c = 0 → featOf c false s1 = some r → ∃ u, exec (.getFeatures c) s = .next (after u) ∧ endsWith k 0 0 r.1 r.2 s1 u) ∧
    (∀ r, selOf c = 1 ∨ selOf c = 2 → featOf c true s1 = some r → ∃ u, exec (.getFeatures c) s = .next (after u) ∧ endsWith k 0 0 r.1 r.2 s1 u) ∧
    (selOf c = 3 → (featOf c false s1).isSome = true → ∃ u, exec (.getFeatures c) s = .next (after u) ∧ endsWith k 0 0 4 [] s1 u) ∧
    (c.sqid = 0 → c.opc = 0x09 → ∃ u, exec (.invalidCommandOpcode c) s = .next (after u) ∧ endsWith k 0 0x02 0 [] s1 u) ∧
    ((c.sqid ≠ 0 ∨ c.opc ≠ 0x09) → ∃ u, exec (.invalidCommandOpcode c) s = .next (after u) ∧ endsWith k 0 0x01 0 [] s1 u)

/-- At most eight Asynchronous Event Requests of a function wait, the next ends with 1h/0x05; an Abort by the Owner PF of a command not
dispatched ends that command with 0h/0x07, with 0x6010, and itself with DW0 = 0; any other Abort ends with DW0 = 1; the fifth outstanding
ends with 1h/0x03. Completes: ASYNCHRONOUS_EVENT_REQUEST, ABORT. -/
def Obligations.EventsAndAborts : Prop :=
  ∀ (c : Cmd) (s s1 : State) (k : Ctx), taken c s = some (k, s1) → plainForm k →
    (((ctxsOf c.fn s1).filter (fun x => x.wait == .aer)).length < 8 → (∀ p ∈ s1.q.pendAen, p.1 ≠ c.fn) →
      ∃ u k', exec (.asynchronousEventRequest c) s = .next (after u) ∧ k'.cmd = k.cmd ∧ k'.seq = k.seq ∧ k'.wait = .aer ∧
        u.q.ctxs = s1.q.ctxs.map (fun x => if x.seq == k.seq then k' else x) ∧ u.zn = s1.zn) ∧
    (8 ≤ ((ctxsOf c.fn s1).filter (fun x => x.wait == .aer)).length →
      ∃ u, exec (.asynchronousEventRequest c) s = .next (after u) ∧ endsWith k 1 0x05 0 [] s1 u) ∧
    (4 ≤ abortsOut k s1 → ∃ u, exec (.abort c) s = .next (afterIo u) ∧ endsWith k 1 0x03 0 [] s1 u) ∧
    (abortsOut k s1 < 4 → c.fn ≠ 0 → ∃ u, exec (.abort c) s = .next (afterIo u) ∧ endsWith k 0 0 1 [] s1 u) ∧
    (abortsOut k s1 < 4 → c.fn = 0 →
      let l := s1.q.ctxs.filter (fun x => x.seq != k.seq && ctxKey x 0 (bits c.cdw10.toNat 15 0) (bits c.cdw10.toNat 31 16))
      (∀ x, l.find? (fun x => undispatched x s1) = some x →
        ∃ u0 u1 u2 u, exec (.abort c) s = .next (afterIo u) ∧ u0.q = s1.q ∧ endsWith x 0 0x07 0 [] u0 u1 ∧ u2.q = u1.q ∧ raises 0x6010 u2 ∧
          endsWith k 0 0 0 [] u2 u) ∧
      (l.find? (fun x => undispatched x s1) = none → ∃ u, exec (.abort c) s = .next (afterIo u) ∧ endsWith k 0 0 1 [] s1 u))

/-- Firmware parts collect without overlap, an overlapping one ends with 1h/0x14; a Commit of a whole image waits for its check and consumes the
parts, one without a whole image ends with 1h/0x07, one that only activates a held slot names it for the next start with 1h/0x0B; the
check's failure changes no slot and ends with 1h/0x07, its success writes the slot; an activation enters FW_ACTIVATE with 0x6040 and its end
leaves it for a mode of service with 0x6041, and 0x1060 where the image did not run (log 42). Completes: FIRMWARE_IMAGE_DOWNLOAD,
FW_COMMIT_REPLACE, FW_COMMIT_REPLACE_ACTIVATE_NEXT, FW_COMMIT_ACTIVATE_NEXT, FW_COMMIT_ACTIVATE_NOW, FW_COMMIT_CHECK_DONE,
FW_ACTIVATION_END. -/
def Obligations.FirmwareUpdates : Prop :=
  ∀ (c : Cmd) (s : State),
    (∀ (s1 : State) (k : Ctx), taken c s = some (k, s1) → plainForm k → notSanitizing s1 → c.fn = 0 →
      (let len := (c.cdw10.toNat + 1) * 4
       let off := c.cdw11.toNat * 4
       len % 32768 = 0 → off % 32768 = 0 → off + len ≤ 16777216 →
         ((∀ p ∈ s1.q.fw.parts, p.1 + p.2 ≤ off ∨ off + len ≤ p.1) →
           ∃ u0 u, exec (.firmwareImageDownload c) s = .next (after u) ∧ endsWith k 0 0 0 [] u0 u ∧ u0.q.fw.parts = s1.q.fw.parts ++ [(off, len)]) ∧
         (∀ p ∈ s1.q.fw.parts, off < p.1 + p.2 → p.1 < off + len →
           ∃ u, exec (.firmwareImageDownload c) s = .next (after u) ∧ endsWith k 1 0x14 0 [] s1 u)) ∧
      (let ca := bits c.cdw10.toNat 5 3
       let fs := bits c.cdw10.toNat 2 0
       let slot := if fs = 0 then 3 - s1.q.fw.running else fs
       fs ≤ 2 → s1.q.fw.act = none → (∀ e ∈ s1.q.fw.commit, e.2.2 ≠ 3) →
         (ca = 0 → imageWhole s1.q.fw.parts = true → ∃ u k', exec (.fwCommitReplace c) s = .next (after u) ∧ k'.cmd = k.cmd ∧ k'.seq = k.seq ∧
           k'.wait = .fwCommit ∧ u.q.ctxs = s1.q.ctxs.map (fun x => if x.seq == k.seq then k' else x) ∧
           u.q.fw.commit = s1.q.fw.commit ++ [(k.seq, slot, 0)] ∧ u.q.fw.parts = [] ∧ u.q.fw.slots = s1.q.fw.slots) ∧
         (ca = 0 → imageWhole s1.q.fw.parts = false → ∃ u0 u, exec (.fwCommitReplace c) s = .next (after u) ∧ endsWith k 1 0x07 0 [] u0 u ∧
           u0.q.fw.parts = [] ∧ u0.q.fw.slots = s1.q.fw.slots) ∧
         (ca = 1 → imageWhole s1.q.fw.parts = true → ∃ u k', exec (.fwCommitReplaceActivateNext c) s = .next (after u) ∧ k'.cmd = k.cmd ∧ k'.seq = k.seq ∧
           k'.wait = .fwCommit ∧ u.q.ctxs = s1.q.ctxs.map (fun x => if x.seq == k.seq then k' else x) ∧
           u.q.fw.commit = s1.q.fw.commit ++ [(k.seq, slot, 1)] ∧ u.q.fw.parts = [] ∧ u.q.fw.slots = s1.q.fw.slots) ∧
         (ca = 1 → imageWhole s1.q.fw.parts = false → ∃ u0 u, exec (.fwCommitReplaceActivateNext c) s = .next (after u) ∧ endsWith k 1 0x07 0 [] u0 u ∧
           u0.q.fw.parts = [] ∧ u0.q.fw.slots = s1.q.fw.slots) ∧
         (ca = 3 → imageWhole s1.q.fw.parts = true → ∃ u k', exec (.fwCommitActivateNow c) s = .next (after u) ∧ k'.cmd = k.cmd ∧ k'.seq = k.seq ∧
           k'.wait = .fwCommit ∧ u.q.ctxs = s1.q.ctxs.map (fun x => if x.seq == k.seq then k' else x) ∧
           u.q.fw.commit = s1.q.fw.commit ++ [(k.seq, slot, 3)] ∧ u.q.fw.parts = [] ∧ u.q.fw.slots = s1.q.fw.slots) ∧
         (ca = 3 → imageWhole s1.q.fw.parts = false → ∃ u0 u, exec (.fwCommitActivateNow c) s = .next (after u) ∧ endsWith k 1 0x07 0 [] u0 u ∧
           u0.q.fw.parts = [] ∧ u0.q.fw.slots = s1.q.fw.slots) ∧
         (ca = 2 → (nth s1.q.fw.slots (slot - 1) ⟨false, 0⟩).held = true →
           ∃ u0 u, exec (.fwCommitActivateNext c) s = .next (after u) ∧ endsWith k 1 0x0B 0 [] u0 u ∧ u0.q.fw.next = slot ∧
             u0.q.fw.running = s1.q.fw.running))) ∧
    (∀ (k : Ctx) q slot ca rest rev, s.q.fw.commit = (q, slot, ca) :: rest → ctxAt q s = some k → s.m.cur.isBase = true ∨ s.m.cur = .sanitize →
      (∃ u0 u, exec (.fwCommitCheckDone false rev) s = .next (afterIo u) ∧ endsWith k 1 0x07 0 [] u0 u ∧ u0.q.fw.slots = s.q.fw.slots) ∧
      (ca = 0 → ∃ u0 u, exec (.fwCommitCheckDone true rev) s = .next (afterIo u) ∧ endsWith k 0 0 0 [] u0 u ∧
        u0.q.fw.slots = setNth s.q.fw.slots (slot - 1) ⟨true, rev⟩ ∧ u0.q.fw.next = s.q.fw.next) ∧
      (ca = 1 → ∃ u0 u, exec (.fwCommitCheckDone true rev) s = .next (afterIo u) ∧ endsWith k 1 0x0B 0 [] u0 u ∧
        u0.q.fw.slots = setNth s.q.fw.slots (slot - 1) ⟨true, rev⟩ ∧ u0.q.fw.next = slot) ∧
      (ca = 3 → s.m.cur ≠ .sanitize → ∃ u, exec (.fwCommitCheckDone true rev) s = .next (afterIo u) ∧ u.m.cur = .fwActivate ∧ raises 0x6040 u ∧
        u.q.fw.act = some (q, slot, s.tm.elapsed))) ∧
    (∀ q slot at0, s.q.fw.act = some (q, slot, at0) → s.m.cur = .fwActivate → s.m.testPend = false → (∀ f, (fnOf f s).held = []) →
      (∃ u, exec (.fwActivationEnd true) s = .next (afterIo u) ∧ u.m.cur.isBase = true ∧ u.q.fw.act = none ∧ u.q.fw.running = slot ∧
        raises 0x6041 u) ∧
      (∃ u, exec (.fwActivationEnd false) s = .next (afterIo u) ∧ u.m.cur.isBase = true ∧ u.q.fw.act = none ∧
        u.q.fw.running = s.q.fw.running ∧ raises 0x1060 u ∧ raises 0x6041 u))

/-! ## The Gather engine, half-hitches, keys and check values (Chapters 9 to 11) -/

/-- Gather Read: permission, alignment, reserved fields and an SGL shorter than its length come first; a granted command whose table holds a bad entry, or whose total exceeds
its length, ends with 7h/0x83, the entry and its cause in DW0, and 0x7001; one whose elements total nothing succeeds; the rest take a
channel; a wait for one is written as 0x7030 and a waiting beat lane ages by a level; a command with every element good ends with success
and its bytes at the destination (log 43). Completes: GATHER_READ, GATHER_CHANNEL_GRANT, GATHER_CHANNEL_WAIT_EXPIRY, BEAT_LANE_AGEING,
GATHER_READ_COMPLETE. -/
def Obligations.GatherReads : Prop :=
  ∀ (s : State),
    (∀ (c : Cmd) (sgl : Option Nat) (s1 : State) (k : Ctx), taken c s = some (k, s1) → plainForm k → notSanitizing s1 →
      (k.snap.gather = false →
        ∃ u0 u, exec (.gatherRead ⟨c, sgl⟩) s = .next (afterIo u) ∧ raises 0x9012 u0 ∧ u0.q = s1.q ∧ endsWith k 2 0x86 0 [] u0 u) ∧
      (k.snap.gather = true → (nsFor? c.fn c.nsid s1).isSome = true →
        ((itabOf c % 16 ≠ 0 ∨ bits c.cdw12.toNat 29 18 ≠ 0 ∨ bit c.cdw12.toNat 31 = true) →
          ∃ u, exec (.gatherRead ⟨c, sgl⟩) s = .next (afterIo u) ∧ endsWith k 0 0x02 0 [] s1 u) ∧
        (itabOf c % 16 = 0 → bits c.cdw12.toNat 29 18 = 0 → bit c.cdw12.toNat 31 = false →
          (∀ n, sgl = some n → n < c.cdw13.toNat → ∃ u, exec (.gatherRead ⟨c, sgl⟩) s = .next (afterIo u) ∧ endsWith k 0 0x0F 0 [] s1 u) ∧
          (sgl.any (fun n => decide (n < c.cdw13.toNat)) = false →
            ∃ u k', exec (.gatherRead ⟨c, sgl⟩) s = .next (afterIo u) ∧ k'.cmd = k.cmd ∧ k'.seq = k.seq ∧ k'.wait = .gatherWait ∧
              u.q.ctxs = s1.q.ctxs.map (fun x => if x.seq == k.seq then k' else x) ∧ u.zn = s1.zn ∧ u.ga = s1.ga)))) ∧
    (∀ (mem : HostMem) k ch n tab rest, s.m.cur ≠ .emergencyFlush → s.m.cur ≠ .halted →
      s.q.ctxs.find? (fun k => k.wait == .gatherWait && chanCap k s) = some k → freeChan s = some ch →
      hostRead (itabOf k.cmd) (16 * nblocks k.cmd) mem = some (tab, rest) → nsAt? k.cmd.nsid s = some n →
      let es := parseEnts (nblocks k.cmd) tab
      let s0 := { s with ga := { s.ga with waited := Tbl.del s.ga.waited k.seq } }
      (∀ e cause, entsFault n es s0 = some (e, cause) → cause ≠ 5 →
        ∃ u0 u, exec (.gatherChannelGrant mem) s = .next (afterIo u) ∧ raises 0x7001 u0 ∧ u0.q = s.q ∧
          endsWith k 7 0x83 (e % 65536 + 65536 * cause) [] u0 u) ∧
      (entsFault n es s0 = none → k.cmd.cdw13.toNat < entTotal es →
        ∃ u0 u, exec (.gatherChannelGrant mem) s = .next (afterIo u) ∧ raises 0x7001 u0 ∧
          endsWith k 7 0x83 ((nblocks k.cmd - 1) % 65536 + 65536 * 3) [] u0 u) ∧
      (entsFault n es s0 = none → entTotal es = 0 → ∃ u, exec (.gatherChannelGrant mem) s = .next (afterIo u) ∧ endsWith k 0 0 0 [] s0 u) ∧
      (entsFault n es s0 = none → entTotal es ≠ 0 → entTotal es ≤ k.cmd.cdw13.toNat → sealedOut (es.flatMap (entZones n)) s0 = none →
        ∃ u, exec (.gatherChannelGrant mem) s = .next (afterIo u) ∧
          Tbl.get? u.ga.chs ch = some ⟨k.seq, es, gatherLevel k.cmd, false⟩ ∧ u.zn = s.zn)) ∧
    (∀ fn sqid cid k, ctxNamed fn sqid cid s = some k → k.wait = .gatherWait →
      ∃ u, exec (.gatherChannelWaitExpiry fn sqid cid) s = .next (after u) ∧ raises 0x7030 u ∧ Tbl.get? u.ga.waited k.seq = some s.tm.turns ∧
        u.q = s.q ∧ u.zn = s.zn) ∧
    (∀ ch c, ch < 48 → ch ∈ s.ga.laneWait → Tbl.get? s.ga.chs ch = some c →
      ∃ u, exec (.beatLaneAgeing ch) s = .next (after u) ∧ Tbl.get? u.ga.chs ch = some { c with aged := true } ∧ u.q = s.q ∧ u.zn = s.zn) ∧
    (∀ ch c k n, Tbl.get? s.ga.chs ch = some c → ctxAt c.seq s = some k → k.rd.complete = true → s.m.cur ≠ .halted → s.m.cur ≠ .emergencyFlush →
      nsAt? k.cmd.nsid s = some n → (∀ e ∈ (gatherOutcome k.cmd.fn k.cmd.nsid n c.ents k.rd s).1, e.2 = 0) →
      ∃ u0 u, exec (.gatherReadComplete ch none) s = .next (afterIo u) ∧ Tbl.get? u0.ga.chs ch = none ∧
        u0.ga.wr = s.ga.wr ++ [(k.cmd.dptr, (gatherOutcome k.cmd.fn k.cmd.nsid n c.ents k.rd s).1.flatMap (·.1))] ∧
        ∃ k', k'.cmd = k.cmd ∧ k'.seq = k.seq ∧ k'.wait = k.wait ∧ u = postFull k' 0 0 0 0 [] u0)

/-- Start of an idle channel runs a COPY, or faults with the first check that fails and 0x7010; Stop pauses it with 0x7011, the whole beats of a
COPY written and the rest in its beat buffer; Resume goes on, or is held while it runs; Clear returns it to state 0; a Stop in another state
changes nothing; a COPY that ends without a next descriptor leaves state 4 with its bytes at the destination, and a host memory error on its
source ends in state 5 with FCODE 0xD and the beats before it written. Completes: GDC_START, GDC_STOP, GDC_RESUME, GDC_CLEAR,
GDC_TRANSFER_END. -/
def Obligations.MaintenanceChannels : Prop :=
  ∀ (ch : Nat) (v : Dword) (mem : HostMem) (s : State), ch < 16 → plainWake s → s.m.cur ≠ .emergencyFlush → s.m.cur ≠ .halted →
    let g := gdcAt ch s
    (bit v.toNat 0 = true → gdcBits v.toNat = 1 → g.state = 0 ∨ g.state = 4 ∨ g.state = 5 →
      (g.mode = 0 → g.cnt ≤ g.dlen → g.cnt ≠ 0 → (∀ l ∈ s.ga.lanes, l.1 ≠ 48 + ch) → ∃ u, exec (.gdcStart 0 ch v mem) s = .next (afterIo u) ∧ (gdcAt ch u).state = 1 ∧
        (gdcAt ch u).fcode = 0 ∧ (gdcAt ch u).desc = 0 ∧ u.zn = s.zn) ∧
      (2 ≤ g.mode → ∃ u, exec (.gdcStart 0 ch v mem) s = .next (afterIo u) ∧ (gdcAt ch u).state = 5 ∧ (gdcAt ch u).fcode = 6 ∧ raises 0x7010 u) ∧
      (g.mode < 2 → g.dlen < g.cnt →
        ∃ u, exec (.gdcStart 0 ch v mem) s = .next (afterIo u) ∧ (gdcAt ch u).state = 5 ∧ (gdcAt ch u).fcode = 4 ∧ raises 0x7010 u)) ∧
    (bit v.toNat 1 = true → gdcBits v.toNat = 1 →
      (g.state = 1 ∨ g.state = 2 → ∀ moved,
        (∃ u, exec (.gdcStop 0 ch ⟨v, moved, mem⟩) s = .next (afterIo u) ∧ (gdcAt ch u).state = 3 ∧ raises 0x7011 u ∧ u.zn = s.zn) ∧
        (∀ d rest, g.mode = 0 → copyRead g moved mem = some (d, rest) → d.length ≤ g.cnt →
          ∃ u, exec (.gdcStop 0 ch ⟨v, moved, mem⟩) s = .next (afterIo u) ∧ (gdcAt ch u).cnt = g.cnt - beatBytes g.dst d.length ∧
            (gdcAt ch u).buf = d.length - beatBytes g.dst d.length ∧ (gdcAt ch u).dst = (g.dst + beatBytes g.dst d.length) % 2 ^ 64)) ∧
      (g.state ≠ 1 → g.state ≠ 2 → ∀ moved, ∃ u, exec (.gdcStop 0 ch ⟨v, moved, mem⟩) s = .next (afterIo u) ∧ u.ga = s.ga)) ∧
    (bit v.toNat 2 = true → gdcBits v.toNat = 1 →
      (g.state = 3 → (∀ l ∈ s.ga.lanes, l.1 ≠ 48 + ch) → ∃ u, exec (.gdcResume 0 ch v mem) s = .next (afterIo u) ∧ (gdcAt ch u).state = 1 ∧ (gdcAt ch u).cnt = g.cnt) ∧
      (g.state = 1 ∨ g.state = 2 → ∃ u, exec (.gdcResume 0 ch v mem) s = .next (afterIo u) ∧ gdcAt ch u = { g with resumePend := true })) ∧
    (bit v.toNat 3 = true → gdcBits v.toNat = 1 → g.state = 3 ∨ g.state = 4 ∨ g.state = 5 →
      ∃ u, exec (.gdcClear 0 ch v) s = .next (afterIo u) ∧ (gdcAt ch u).state = 0 ∧ (gdcAt ch u).buf = 0 ∧ (gdcAt ch u).cnt = g.cnt) ∧
    (∀ moved d rest, g.state = 1 → g.mode = 0 → copyRead g moved mem = some (d, rest) →
      (d.length < g.cnt → ∃ u, exec (.gdcTransferEnd ch moved mem) s = .next (afterIo u) ∧ (gdcAt ch u).state = 5 ∧ (gdcAt ch u).fcode = 0xD ∧
        (gdcAt ch u).cnt = g.cnt - beatBytes g.dst d.length ∧ raises 0x7010 u) ∧
      (d.length = g.cnt → g.desc = 0 → g.linkEnd = true → g.resumePend = false → g.int = false →
        ∃ u, exec (.gdcTransferEnd ch moved mem) s = .next (afterIo u) ∧ (gdcAt ch u).state = 4 ∧ (gdcAt ch u).cnt = 0 ∧
          (gdcAt ch u).dst = (g.dst + d.length) % 2 ^ 64 ∧ u.ga.wr = (if d.isEmpty then s.ga.wr else s.ga.wr ++ [(g.dst, d)])))

/-- A Half-hitch Append to an open compressed zone waits for its coding, one to a zone that is not compressed ends with 1h/0xBC; its acceptance
acts at one point, and one whose half-hitches and spills do not fit ends with 1h/0xB8 and 0x3032; a Half-hitch Read of a zone that is not
compressed ends with 0h/0x02, of an Offline one with 1h/0xBB, and any other goes on to its blocks. Completes: HALF_HITCH_APPEND,
HALF_HITCH_ACCEPTANCE, HALF_HITCH_READ. -/
def Obligations.HalfHitches : Prop :=
  ∀ (s : State),
    (∀ (c : Cmd) (blks : List Blk) (s1 : State) (k : Ctx) (n : Ns) (z : Nat) (q : Zone), taken c s = some (k, s1) → plainForm k →
      notSanitizing s1 → nsFor? c.fn c.nsid s1 = some n → n.conv = false →
      (k.snap.write = true → hhAppendBad c = false → slbaOf c < n.nsze → zoneOfLba n (slbaOf c) = some (z, 0) → zoneAt? z s1 = some q →
        q.st.isOpen = true → s1.m.sparesOut = false → s1.m.thm = 0 → nblocks c ≤ 512 → q.wp + nblocks c ≤ 2 * zcapLbas s1.fl.geom →
        (q.comp = false → ∃ u, exec (.halfHitchAppend c blks) s = .next (afterIo u) ∧ endsWith k 1 0xBC 0 [] s1 u) ∧
        (q.comp = true → sealDenied z q s1 = false →
          ∃ u k', exec (.halfHitchAppend c blks) s = .next (afterIo u) ∧ k'.cmd = k.cmd ∧ k'.seq = k.seq ∧ k'.wait = .halfHitch ∧
            u.q.ctxs = s1.q.ctxs.map (fun x => if x.seq == k.seq then k' else x) ∧ u.zn = s1.zn)) ∧
      (hhReadBad c = false → nblocks c ≤ 512 → slbaOf c / 2 < n.nsze → n.zones[slbaOf c / 2 ^ 21]? = some z → zoneAt? z s1 = some q →
        (q.comp = false → ∃ u, exec (.halfHitchRead c) s = .next (afterIo u) ∧ endsWith k 0 0x02 0 [] s1 u) ∧
        (q.comp = true → q.st = .offline → ∃ u, exec (.halfHitchRead c) s = .next (afterIo u) ∧ endsWith k 1 0xBB 0 [] s1 u) ∧
        (q.comp = true → q.st ≠ .offline → sealDenied z q s1 = false →
          ∃ u k', exec (.halfHitchRead c) s = .next (afterIo u) ∧ k'.cmd = k.cmd ∧ k'.seq = k.seq ∧ k'.wait = .hhRead ∧
            u.q.ctxs = s1.q.ctxs.map (fun x => if x.seq == k.seq then k' else x) ∧ u.zn = s1.zn))) ∧
    (∀ fn sqid cid mapOk k n, ctxNamed fn sqid cid s = some k → k.wait = .halfHitch → s.m.cur ≠ .emergencyFlush → s.m.cur ≠ .halted →
      nsAt? k.cmd.nsid s = some n → exec (.halfHitchAcceptance fn sqid cid mapOk) s = .next (afterIo (hhAccept mapOk k n s))) ∧
    (∀ mapOk k n z q, zoneOfLba n (slbaOf k.cmd) = some (z, 0) → zoneAt? z s = some q → q.st.isOpen = true → s.m.cur ≠ .sanitize →
      s.m.sparesOut = false → s.m.thm = 0 →
      (let us := sumN ((cut4k (nblocks k.cmd) k.data).map (fun b => 1 + b2n (hhEncode b).isNone))
       (2 * zcapLbas s.fl.geom < q.wp + us → ∃ u0, hhAccept mapOk k n s = postFull k 1 0xB8 0 0 [] u0 ∧ raises 0x3032 u0)))

/-- The write that covers a key slot's last bytes loads the key collected there with 0x8001, or clears the slot when it is all zero, and any
earlier write changes no key; INIT clears a unit's value and counts, FEED folds its bytes in while SRC = 5 and changes nothing otherwise,
and VAL takes what the model's width holds. Seal Zone of a zone not opened sealed ends with 0h/0x02, of an Empty or Offline one with
1h/0xBF, and of a Full one marks it sealed and waits for its data. Completes: KEY_SLOT_WRITE, SEAL_ZONE, CVU_INIT, CVU_FEED_WRITE,
CVU_VAL_WRITE. -/
def Obligations.KeysAndCheckValues : Prop :=
  ∀ (s : State), plainWake s →
    (∀ (fn slot o : Nat) (bytes : List Byte), fnPresent fn s = true → s.m.cur ≠ .halted → slot < keySlots fn s → o + bytes.length ≤ 32 →
      bytes.length = 4 ∨ bytes.length = 8 → o % bytes.length = 0 →
      let key := (List.range 32).map (fun j => Tbl.getD ((bytes.zipIdx).foldl (fun t b => Tbl.put t (o + b.2) b.1)
        (Tbl.getD s.ci.kbuf (fn * 8 + slot) [])) j 0)
      (o + bytes.length < 32 → ∃ u, exec (.keySlotWrite fn (32 * slot + o) bytes) s = .next (after u) ∧ u.ci.keys = s.ci.keys ∧ u.zn = s.zn) ∧
      (o + bytes.length = 32 → key ≠ zeroBytes 32 → ∃ u, exec (.keySlotWrite fn (32 * slot + o) bytes) s = .next (after u) ∧
        keyAt? fn slot u = some key ∧ raises 0x8001 u ∧ u.zn = s.zn) ∧
      (o + bytes.length = 32 → key = zeroBytes 32 → ∃ u, exec (.keySlotWrite fn (32 * slot + o) bytes) s = .next (after u) ∧
        keyAt? fn slot u = none ∧ u.zn = s.zn ∧ ((keyAt? fn slot s).isSome = true → raises 0x8002 u))) ∧
    (∀ (fn unit x : Nat), cvuOf? fn unit s = some x → s.m.cur ≠ .halted →
      (∀ v : Dword, bit v.toNat 5 = true → ∃ u, exec (.cvuInit fn unit v) s = .next (after u) ∧ (cvuAt x u).src = bits v.toNat 2 0 ∧
        (cvuAt x u).poly = bits v.toNat 4 3 ∧ (cvuAt x u).one = bit v.toNat 6 ∧ (cvuAt x u).sqid = bits v.toNat 31 16 ∧ (cvuAt x u).val = 0 ∧
        (cvuAt x u).cnt = 0 ∧ (cvuAt x u).skip = 0 ∧ (cvuAt x u).done = false ∧ u.zn = s.zn) ∧
      (∀ bytes, cvuSrc x s = 5 → bytes.length = 4 ∨ bytes.length = 8 → ∃ u, exec (.cvuFeedWrite fn unit bytes) s = .next (after u) ∧
        (cvuAt x u).val = crcOn (cvuAt x s).poly (cvuAt x s).val bytes ∧ (cvuAt x u).cnt = satAdd 64 (cvuAt x s).cnt bytes.length ∧ u.zn = s.zn) ∧
      (∀ bytes, cvuSrc x s ≠ 5 → ∃ u, exec (.cvuFeedWrite fn unit bytes) s = .next (after u) ∧ cvuAt x u = cvuAt x s) ∧
      (∀ v : BitVec 64, ∃ u, exec (.cvuValWrite fn unit v) s = .next (after u) ∧
        cvuAt x u = { cvuAt x s with val := v.toNat % 2 ^ crcWidth (cvuAt x s).poly })) ∧
    (∀ (c : Cmd) (s1 : State) (k : Ctx) (n : Ns) (z : Nat) (q : Zone), taken c s = some (k, s1) → plainForm k → notSanitizing s1 →
      k.snap.write = true → k.snap.sealP = true → nsFor? c.fn c.nsid s1 = some n → n.conv = false →
      c.cdw12.toNat + c.cdw13.toNat + c.cdw14.toNat + c.cdw15.toNat = 0 → slbaOf c < n.nsze → slbaOf c % 2 ^ 20 = 0 →
      zoneOfLba n (slbaOf c) = some (z, 0) → zoneAt? z s1 = some q →
      (q.sealF = false → ∃ u, exec (.sealZone c) s = .next (afterIo u) ∧ endsWith k 0 0x02 0 [] s1 u) ∧
      (q.sealF = true → q.st = .empty ∨ q.st = .offline → ∃ u, exec (.sealZone c) s = .next (afterIo u) ∧ endsWith k 1 0xBF 0 [] s1 u) ∧
      (q.sealF = true → q.st = .full → sealDenied z q s1 = false → s1.m.thm ≠ 2 →
        ∃ u, exec (.sealZone c) s = .next (afterIo u) ∧ (zoneAt? z u).map (·.sealed) = some true ∧
          (zoneAt? z u).map (·.st) = some .full ∧ ∃ x ∈ u.q.ctxs.filter (fun x => x.seq == k.seq), x.wait = .sealZ z))

/-! ## Stalls (Chapter 12) -/

/-- VF Enable makes stalls with default resources and 0x9001, its clearing removes them with 0x9002; NumVFs changes while it is clear, up to
TotalVFs; flexible resources are assigned while a stall is Offline, and it goes Online with two queue pairs and a vector; Offline resets it;
a function-level reset fences it with 0x9020. Stall Resource Set changes the selected groups together with 0x9011 and the effective quota in
DW0; a command not sent by the Owner PF ends with 0h/0x01, a selection out of its range with 0h/0x02, key slots or units of an Online stall
with 0h/0x0C (Virtualization Management's statuses are NVMe's, log 5). Completes: VF_ENABLE_SET, VF_ENABLE_CLEAR, NUMVFS_WRITE,
VIRT_MGMT_RESOURCE_ASSIGN, VIRT_MGMT_SECONDARY_ONLINE, VIRT_MGMT_SECONDARY_OFFLINE, VF_FUNCTION_LEVEL_RESET, STALL_RESOURCE_SET. -/
def Obligations.StallsAppearAndResources : Prop :=
  (∀ (s : State),
      (s.stl.vfEnable = false →
        (∃ u, exec .vfEnableSet s = .next (after u) ∧ u.stl = { s.stl with vfEnable := true, res := [] } ∧ raises 0x9001 u ∧ u.q = s.q ∧ u.zn = s.zn) ∧
        ∀ n, exec (.numvfsWrite n) s = .next { s with stl := { s.stl with numVfs := min n s.img.totalVfs } }) ∧
      (s.stl.vfEnable = true →
        (∃ u, exec .vfEnableClear s = .next (afterIo u) ∧ u.stl.vfEnable = false ∧ u.stl.res = [] ∧ u.stl.ents = [] ∧ raises 0x9002 u) ∧
        ∀ n, exec (.numvfsWrite n) s = .next s) ∧
      (∀ fn, isStall fn = true → fnPresent fn s = true → s.m.cur ≠ .fwActivate →
        ∃ u, exec (.vfFunctionLevelReset fn) s = .next (afterIo u) ∧ (fnOf fn u).en = false ∧ (fnOf fn u).asq = 0 ∧ (fnOf fn u).sqs = [] ∧
          raises 0x9020 u ∧ u.stl = s.stl) ∧
      (∀ (c : Cmd) (s1 : State) (k : Ctx), taken c s = some (k, s1) → plainForm k → notSanitizing s1 →
        (c.fn ≠ 0 → ∀ i ∈ [Instr.virtMgmtResourceAssign c, .virtMgmtSecondaryOnline c],
          ∃ u, exec i s = .next (after u) ∧ endsWith k 0 0x01 0 [] s1 u) ∧
        (c.fn = 0 → bits c.cdw10.toNat 31 16 ≠ 0 → isStall (vmFn c) = true → fnPresent (vmFn c) s1 = true →
          (∀ rt nr, bits c.cdw10.toNat 10 8 = rt → bits c.cdw11.toNat 15 0 = nr → rt < 2 → (fnOf (vmFn c) s1).online = false → nr ≤ 513 →
            ¬(rt = 0 ∧ nr = 1) → nr ≤ flexLeft (vmFn c) (rt == 1) s1 →
            ∃ u0 u, exec (.virtMgmtResourceAssign c) s = .next (after u) ∧ endsWith k 0 0 nr [] u0 u ∧ u0.zn = s1.zn ∧
              (if rt = 1 then (fnOf (vmFn c) u0).vi else (fnOf (vmFn c) u0).vq) = nr) ∧
          (2 ≤ (fnOf (vmFn c) s1).vq → 1 ≤ (fnOf (vmFn c) s1).vi →
            ∃ u0 u, exec (.virtMgmtSecondaryOnline c) s = .next (after u) ∧ endsWith k 0 0 0 [] u0 u ∧ (fnOf (vmFn c) u0).online = true) ∧
          ((fnOf (vmFn c) s1).vq < 2 → ∃ u, exec (.virtMgmtSecondaryOnline c) s = .next (after u) ∧ endsWith k 1 0x20 0 [] s1 u) ∧
          (∃ u0 u, exec (.virtMgmtSecondaryOffline c) s = .next (afterIo u) ∧ endsWith k 0 0 0 [] u0 u ∧ (fnOf (vmFn c) u0).online = false ∧
            (fnOf (vmFn c) u0).en = false)))) ∧
  (∀ (c : Cmd) (buf : List Byte) (s s1 : State) (k : Ctx), taken c s = some (k, s1) → plainForm k → notSanitizing s1 →
      let f := stlFn c
      let sel := bits c.cdw11.toNat 4 0
      (c.fn ≠ 0 → ∃ u, exec (.stallResourceSet c buf) s = .next (after u) ∧ endsWith k 0 0x01 0 [] s1 u) ∧
      (c.fn = 0 → stallBusy f k s1 = false → bits c.cdw10.toNat 31 11 = 0 → bits c.cdw11.toNat 31 5 = 0 → fnPresent f s1 = true → isStall f = true →
        (srRanges sel buf = false → ∃ u, exec (.stallResourceSet c buf) s = .next (after u) ∧ endsWith k 0 0x02 0 [] s1 u) ∧
        (srRanges sel buf = true → (bit sel 3 || bit sel 4) = true → (fnOf f s1).online = true →
          ∃ u, exec (.stallResourceSet c buf) s = .next (after u) ∧ endsWith k 0 0x0C 0 [] s1 u) ∧
        (srRanges sel buf = true → ((bit sel 3 || bit sel 4) = true → (fnOf f s1).online = false) →
          (bit sel 0 = true → sumQ s1 - (slkOf f s1).quotaKiB + numAt buf 0 4 ≤ sKiB s1) →
          ∃ u0 u, exec (.stallResourceSet c buf) s = .next (after u) ∧ endsWith k 0 0 ((slkOf f u0).effKiB % 2 ^ 17) [] u0 u ∧ raises 0x9011 u0 ∧
            (bit sel 0 = true → (slkOf f u0).quotaKiB = numAt buf 0 4 ∧ (slkOf f u0).effKiB = numAt buf 0 4) ∧
            (bit sel 0 = false → u0.slk = s1.slk) ∧
            (resOf f u0).actLim = (if bit sel 1 then numAt buf 4 2 else (resOf f s1).actLim) ∧
            (resOf f u0).openLim = (if bit sel 1 then numAt buf 6 2 else (resOf f s1).openLim) ∧
            (resOf f u0).keySlots = (if bit sel 3 then numAt buf 16 1 else (resOf f s1).keySlots) ∧
            (resOf f u0).cvus = (if bit sel 4 then numAt buf 17 1 else (resOf f s1).cvus) ∧
            (bit sel 2 = true → (entOf f u0).yards = numAt buf 8 8) ∧ u0.zn = s1.zn)))

/-- A quiet stall is frozen at once with 0x9030; one with commands left waits for them, and the Freeze ends when it is quiet or, with a TIMEOUT,
with 7h/0x87 and 0x9032; Thaw ends a freeze with 0x9031 and succeeds on a stall that is not frozen. A frozen, quiet stall is saved as the
blob of Table 12.6 under the key of the slot named, its length in DW0 and 0x9040; one not frozen is refused with 0h/0x0C, a buffer too short
with 0h/0x02 and the length; a blob that fails a check changes nothing of the stalls and queues and answers the check's code with 0x9042;
one that passes makes the stall enabled, with 0x9041. Completes: STALL_FREEZE, STALL_THAW, STALL_FREEZE_QUIET, STALL_FREEZE_TIMEOUT,
STALL_SAVE, STALL_RESTORE. -/
def Obligations.StallFreezesAndMoves : Prop :=
  (∀ (s : State),
      (∀ (c : Cmd) (s1 : State) (k : Ctx), taken c s = some (k, s1) → plainForm k → notSanitizing s1 → isPf c.fn = true →
        stallBusy (stlFn c) k s1 = false → isStall (stlFn c) = true → fnPresent (stlFn c) s1 = true →
        (quiet (stlFn c) s1 = true →
          ∃ u0 u, exec (.stallFreeze c) s = .next (afterIo u) ∧ endsWith { k with wait := .freeze (stlFn c) } 0 0 0 [] u0 u ∧
            (resOf (stlFn c) u0).frz = true ∧ raises 0x9030 u0 ∧ u0.zn = s1.zn) ∧
        (quiet (stlFn c) s1 = false → (ctxsOf (stlFn c) s1).filter (fun x => undispatched x s1) = [] →
          ∃ u k', exec (.stallFreeze c) s = .next (afterIo u) ∧ (resOf (stlFn c) u).frz = true ∧ k'.cmd = k.cmd ∧ k'.seq = k.seq ∧
            k'.wait = .freeze (stlFn c) ∧ u.q.ctxs = s1.q.ctxs.map (fun x => if x.seq == k.seq then k' else x)) ∧
        (frozen (stlFn c) s1 = true →
          ∃ u0 u, exec (.stallThaw c) s = .next (after u) ∧ endsWith k 0 0 0 [] u0 u ∧ frozen (stlFn c) u0 = false ∧ raises 0x9031 u0) ∧
        (frozen (stlFn c) s1 = false → ∃ u, exec (.stallThaw c) s = .next (after u) ∧ endsWith k 0 0 0 [] s1 u)) ∧
      (∀ fn k, (∀ x ∈ s.q.ctxs, x.wait ≠ .stallQ fn) → s.q.ctxs.filter (fun x => x.wait == .freeze fn) = [k] →
        (quiet fn s = true → ∃ u0 u, exec (.stallFreezeQuiet fn) s = .next (afterIo u) ∧ raises 0x9030 u0 ∧ u0.stl = s.stl ∧
          endsWith k 0 0 (min 0xFFFF k.dw0) [] u0 u) ∧
        (quiet fn s = false → bits k.cmd.cdw11.toNat 15 0 ≠ 0 →
          ∃ u0 u, exec (.stallFreezeTimeout fn) s = .next (afterIo u) ∧ raises 0x9032 u0 ∧ u0.stl = s.stl ∧ endsWith k 7 0x87 0 [] u0 u))) ∧
  (∀ (c : Cmd) (buf : List Byte) (s s1 : State) (k : Ctx), taken c s = some (k, s1) → plainForm k → notSanitizing s1 → isPf c.fn = true →
      stallBusy (stlFn c) k s1 = false → isStall (stlFn c) = true → fnPresent (stlFn c) s1 = true →
      let f := stlFn c
      let len := 336 + 48 * blobNq (fnOf f s1)
      (frozen f s1 = false → ∃ u, exec (.stallSave c) s = .next (after u) ∧ endsWith k 0 0x0C 0 [] s1 u) ∧
      (∀ key, frozen f s1 = true → quiet f s1 = true → keyAt? c.fn (bits c.cdw11.toNat 2 0) s1 = some key →
        (len ≤ c.cdw12.toNat →
          ∃ u0 u, exec (.stallSave c) s = .next (after u) ∧ raises 0x9040 u0 ∧ u0.stl = { s1.stl with saveSeq := satAdd 64 s1.stl.saveSeq 1 } ∧
            endsWith k 0 0 len (blobBody f key (satAdd 64 s1.stl.saveSeq 1) s1 ++
              cmac (migKey key) (blobBody f key (satAdd 64 s1.stl.saveSeq 1) s1)) u0 u) ∧
        (c.cdw12.toNat < len → ∃ u, exec (.stallSave c) s = .next (after u) ∧ endsWith k 0 0x02 len [] s1 u)) ∧
      (∀ key, frozen f s1 = true → (fnOf f s1).online = true → (fnOf f s1).en = false → (∀ q ∈ (fnOf f s1).sqs, q.1 = 0) →
        (∀ q ∈ (fnOf f s1).cqs, q.1 = 0) → keyAt? c.fn (bits c.cdw11.toNat 2 0) s1 = some key →
        (blobFault f key c.cdw12.toNat buf s1 = none →
          ∃ u0 u, exec (.stallRestore c buf) s = .next (after u) ∧ endsWith k 0 0 0 [] u0 u ∧ raises 0x9041 u0 ∧ (fnOf f u0).en = true ∧
            (fnOf f u0).feats.xlevel = numAt buf 88 1 ∧ (slkOf f u0).earlyCnt = numAt buf 152 8) ∧
        (∀ e, blobFault f key c.cdw12.toNat buf s1 = some e →
          ∃ u0 u, exec (.stallRestore c buf) s = .next (after u) ∧ endsWith k 0 0x02 e [] u0 u ∧ raises 0x9042 u0 ∧ u0.stl = s1.stl ∧ u0.q = s1.q)) ∧
      ((fnOf f s1).online = false → ∃ u, exec (.stallRestore c buf) s = .next (after u) ∧ endsWith k 0 0x0C 0 [] s1 u))

/-! ## The cadence link (Chapter 13) -/

/-- A turn counts and its microseconds start anew, the turn after 999 begins an epoch; a good header sets the count and a hub above depth 3
forwards it with the map, its own bit going upward with what its ports captured; the third bad one in a row loses lock with 0xA002; each header command acts once for its sequence number with 0xA060; LOCK and TSRC rise at a turn's start with 0xA001;
a lost clock, and RELOCK, drop lock (RELOCK counts no loss: log 54); TOKEN_RELEASE out of lock lifts the token with 0xA070. Completes:
TURN_START, EPOCH_BOUNDARY, TURN_HEADER, ALL_QUIET, RELEASE, RESYNC, LOCK_ACQUIRED, LOCK_LOST, RELOCK, ALL_QUIET_EXPIRY, TOKEN_RELEASE. -/
def Obligations.BeatOfAParticipant : Prop :=
  ∀ (s : State),
    (∃ u, exec .turnStart s = .next (after u) ∧ u.tm.us = 0 ∧ u.tm.turns = s.tm.turns + 1 ∧ u.tm.elapsed = s.tm.elapsed + (1000 - s.tm.us) ∧
      u.tm.turn = (if s.tm.turn = 999 then 0 else s.tm.turn + 1) ∧ (s.tm.turn ≠ 999 → u.tm.epoch = s.tm.epoch) ∧ u.cad.absent = false ∧
      (s.cad.lockPend = true → u.cad.lock = true ∧ u.tm.tsrc = true ∧ raises 0xA001 u) ∧ u.zn = s.zn ∧ u.fl = s.fl) ∧
    (s.tm.turn = 999 → s.cad.epochReq = none →
      ∃ u, exec .epochBoundary s = .next (after u) ∧ u.tm.turn = 0 ∧ u.tm.epoch = (s.tm.epoch + 1) % 2 ^ 40 ∧ u.zn = s.zn) ∧
    (listens s = true →
      (∀ hdr rc ups, headerOk hdr = true →
        ∃ u, exec (.turnHeader ⟨hdr, rc, ups⟩) s = .next (after u) ∧ u.tm.epoch = numAt hdr 4 5 ∧ u.tm.turn = numAt hdr 9 2 % 1024 ∧ u.cad.badRow = 0 ∧
          u.cad.depth = numAt hdr 3 1 % 4 ∧ u.zn = s.zn ∧
          u.cad.dn = (if s.img.cadHub && numAt hdr 3 1 % 4 != 3 then fwdHeader hdr ++ leBytes 128 rc.toNat else []) ∧
          u.cad.up = portWord ups s ||| (if u.cad.lock && inDepth u && busyNext u then 2 ^ (s.img.addr % 1024) else 0)) ∧
      (∀ hdr rc ups, headerOk hdr = false → s.cad.lock = true →
        ∃ u, exec (.turnHeader ⟨hdr, rc, ups⟩) s = .next (after u) ∧ (s.cad.badRow < 2 → u.cad.lock = true ∧ u.cad.badRow = s.cad.badRow + 1) ∧
          (2 ≤ s.cad.badRow → u.cad.lock = false ∧ u.tm.tsrc = false ∧ raises 0xA002 u) ∧ u.cad.token = s.cad.token ∧ u.zn = s.zn) ∧
      (∀ n seq epoch, s.cad.lock = true → inDepth s = true → s.cad.lastSeq ≠ some (seq % 256) →
        (n % 65536 ≠ 0 → ∃ u, exec (.allQuiet n seq) s = .next (after u) ∧ raises 0xA060 u ∧ u.cad.quietNext = some (n % 65536) ∧
          u.cad.cmdDone = wrapAdd 16 s.cad.cmdDone 1 ∧ u.cad.lastSeq = some (seq % 256) ∧ u.zn = s.zn) ∧
        (∃ u, exec (.release seq) s = .next (after u) ∧ raises 0xA060 u ∧ u.cad.quietNext = some 0 ∧ u.zn = s.zn) ∧
        (∃ u, exec (.resync epoch seq) s = .next (after u) ∧ raises 0xA060 u ∧ u.cad.quietNext = s.cad.quietNext ∧ u.zn = s.zn)) ∧
      (∀ n seq, s.cad.lock = true → inDepth s = true → s.cad.lastSeq = some (seq % 256) → exec (.allQuiet n seq) s = .next (after s)) ∧
      (s.cad.lockReady = true → s.cad.lock = false →
        exec .lockAcquired s = .next (after { s with cad := { s.cad with lockPend := true } })) ∧
      (s.cad.lock = true → s.m.cur ≠ .retain →
        ∃ u, exec (.lockLost true) s = .next (after u) ∧ u.cad.lock = false ∧ u.tm.tsrc = false ∧ u.tm.est = true ∧ u.cad.stage = [] ∧
          u.cad.losses = satAdd 16 s.cad.losses 1 ∧ u.cad.token = s.cad.token ∧ raises 0xA002 u ∧ u.zn = s.zn) ∧
      (s.cad.lock = true → plainWake s → s.m.cur ≠ .halted →
        ∃ u, exec (.relock 0) s = .next (after u) ∧ u.cad.lock = false ∧ u.cad.losses = s.cad.losses ∧ u.zn = s.zn)) ∧
    (s.cad.quiet = 1 → s.cad.quietNext = none → ∃ u, exec .allQuietExpiry s = .next (after u) ∧ u.cad.quiet = 0 ∧ u.tm.us = 0 ∧ u.zn = s.zn) ∧
    (s.cad.lock = false → s.cad.token ≠ 0xFF → plainWake s → s.m.cur ≠ .halted →
      ∃ u, exec (.tokenRelease 0) s = .next (after u) ∧ u.cad.token = 0xFF ∧ raises 0xA070 u ∧ u.zn = s.zn)

/-- R351: a good header whose EPOCH or TURN differs from the participant's count, in lock or out of it, sets the count to the header's, counts
in CAD_LOCK_CNT.RESYNCS (a 16-bit counter that saturates), and writes record 0xA003 with the turns of difference, whichever way the count
moves. -/
def Obligations.CountFollowsTheHeader : Prop :=
  ∀ (hdr : List Byte) (rc : BitVec 1024) (ups : List (Nat × BitVec 1024)) (s : State), listens s = true → headerOk hdr = true →
    (numAt hdr 4 5, numAt hdr 9 2 % 1024) ≠ (s.tm.epoch, s.tm.turn) →
    let a := numAt hdr 4 5 * 1000 + numAt hdr 9 2 % 1024
    let b := s.tm.epoch * 1000 + s.tm.turn
    ∃ u, exec (.turnHeader ⟨hdr, rc, ups⟩) s = .next (after u) ∧ u.tm.epoch = numAt hdr 4 5 ∧ u.tm.turn = numAt hdr 9 2 % 1024 ∧
      u.cad.resyncs = satAdd 16 s.cad.resyncs 1 ∧
      ∃ e ∈ u.stb.raised, e.code = 0xA003 ∧ e.sev = 1 ∧ e.args = packArgs [h2 (max a b - min a b)]

/-- A poll of this device whose CRC-8 matches its slot is answered with the word of its code, a CRC-8 behind it: STATUS, which clears the break
flag and the broken turns, IDENT, SCHED_DATA, which stages its chunk; a commit of 32 chunks makes their schedule pending with 0xA020, one of
fewer answers RSTAT 0b010 and keeps them, an unknown code answers RSTAT 0b001; another address, or a slot that fails its CRC-8, is not
answered. A hub sends upward the OR of what its ports captured of another's answer. A training sweep sets the middle of its widest run, and
one with no passing step writes 0xA050 the second time. Completes: POLL_STATUS, POLL_IDENT, POLL_SCHED_DATA, POLL_SCHED_COMMIT,
POLL_UNKNOWN, PORT_TRAINING_SWEEP_END. -/
def Obligations.PollsAndTraining : Prop :=
  ∀ (s : State),
    (∀ crc, polled s.img.addr 0 0 crc s = true →
      ∃ u, exec (.pollStatus ⟨s.img.addr, crc⟩) s = .next (after u) ∧ u.cad.answers = s.cad.answers ++ [upWord (statusWord s)] ∧
        u.cad.brkFlag = false ∧ u.cad.brkTurns = 0 ∧ u.cad.pollCnt = satAdd 64 s.cad.pollCnt 1 ∧ u.zn = s.zn) ∧
    (∀ crc, polled s.img.addr 1 0 crc s = true →
      ∃ u, exec (.pollIdent ⟨s.img.addr, crc⟩) s = .next (after u) ∧ u.zn = s.zn ∧ u.cad.answers = s.cad.answers ++
        [upWord (replyHead 0 s + fld 8 2 (if s.img.cadHub then 1 else 0) + fld 10 2 s.cad.depth + fld 16 16 s.part.part)]) ∧
    (∀ idx (data : Dword) crc, idx < 32 → polled s.img.addr (0x20 + idx) data.toNat crc s = true →
      ∃ u, exec (.pollSchedData ⟨s.img.addr, crc⟩ idx data) s = .next (after u) ∧
        u.cad.answers = s.cad.answers ++ [upWord (replyHead 0 s)] ∧ Tbl.get? u.cad.stage idx = some data.toNat ∧ u.zn = s.zn) ∧
    (∀ arg crc, polled s.img.addr 2 arg crc s = true →
      (s.cad.stage.length = 32 → ∃ u, exec (.pollSchedCommit ⟨s.img.addr, crc⟩ arg) s = .next (after u) ∧ raises 0xA020 u ∧
        u.cad.stage = [] ∧ u.cad.sched = s.cad.sched ∧
        u.cad.pendSched = some (s.cad.stage.flatMap (fun p => leBytes 4 p.2), commitEpoch (arg % 2 ^ 32) s)) ∧
      (s.cad.stage.length ≠ 32 → ∃ u, exec (.pollSchedCommit ⟨s.img.addr, crc⟩ arg) s = .next (after u) ∧
        u.cad.answers = s.cad.answers ++ [upWord (replyHead 2 s)] ∧ u.cad.pendSched = s.cad.pendSched ∧ u.cad.stage = s.cad.stage)) ∧
    (∀ code arg crc, 3 ≤ code → code < 0x20 → polled s.img.addr code arg crc s = true →
      ∃ u, exec (.pollUnknown ⟨s.img.addr, crc⟩ ⟨code, arg⟩) s = .next (after u) ∧
        u.cad.answers = s.cad.answers ++ [upWord (replyHead 1 s)] ∧ u.zn = s.zn) ∧
    (∀ addr crc, addr ≠ s.img.addr ∨ crc ≠ crc8 (pollSlot addr 0 0) → exec (.pollStatus ⟨addr, crc⟩) s = .next s) ∧
    (∀ addr code ports words, addr < 1024 → isRoot s = false → s.img.cadHub = true → listens s = true → s.cad.lock = true → inDepth s = true →
      s.cad.depth < 3 → addr ≠ s.img.addr →
      ∃ u, exec (.rootPollAnswer addr code ports words) s = .next (after u) ∧ u.cad.answers = s.cad.answers ++ [portWord (ports.zip words) s] ∧ u.zn = s.zn) ∧
    (∀ port steps, s.img.cadEnable = true → s.img.cadHub = true → port < 32 → bit s.img.downMask port = true →
      ((widestRun (steps.take 16)).2 ≠ 0 → ∃ u, exec (.portTrainingSweepEnd port steps) s = .next (after u) ∧
        Tbl.get? u.cad.phases port = some ((widestRun (steps.take 16)).1 + ((widestRun (steps.take 16)).2 - 1) / 2) ∧ u.zn = s.zn) ∧
      ((widestRun (steps.take 16)).2 = 0 → Tbl.getD s.cad.sweepFail port 0 = 1 →
        ∃ u, exec (.portTrainingSweepEnd port steps) s = .next (after u) ∧ raises 0xA050 u ∧ u.zn = s.zn))

/-- At a root: an answer, merged from what its ports captured and its own bits, marks its address present where its CRC-8 is good and is kept as a
failed check where not; the roll call is merged with its own bit; 600 turns without one write 0xA051 and mark it
absent; a schedule for the root itself is pending at once with 0xA020, one whose target does not answer for 1,000 turns ends its command
with 0h/0x06; PF_SEND begins the root's own flush with 0xA040 and 0x2040; a command is sent for four turns under the next sequence number
unless one is being sent, and an epoch written is announced by RESYNC (log 54). Completes: ROOT_POLL_ANSWER, PARTICIPANT_ABSENT,
SCHEDULE_DELIVERY_TIMEOUT, CADENCE_SCHEDULE_LOAD, CAD_PF_SEND, CAD_ROOT_CMD_SEND, CAD_ROOT_EPOCH_WRITE. -/
def Obligations.TheRoot : Prop :=
  ∀ (s : State), isRoot s = true →
    (∀ addr code ports words, addr < 1024 →
      let w := portWord (ports.zip words) s ||| ownWord addr code s
      (upWord (w % 2 ^ 32) ≠ w → ∃ u, exec (.rootPollAnswer addr code ports words) s = .next (after u) ∧ (partOf addr u).crcFail = true ∧
        (partOf addr u).since = (partOf addr s).since ∧ u.zn = s.zn) ∧
      (upWord (w % 2 ^ 32) = w → bit w 0 = true → s.cad.dels = [] → ∃ u, exec (.rootPollAnswer addr code ports words) s = .next (after u) ∧
        (partOf addr u).present = true ∧ (partOf addr u).since = 0 ∧ (partOf addr u).ver = bits w 7 4 ∧ u.zn = s.zn)) ∧
    (∀ hdr rc ups, exec (.turnHeader ⟨hdr, rc, ups⟩) s = .next (after { s with cad := { s.cad with
      map := portWord ups s ||| (if busyNext s then 2 ^ (s.img.addr % 1024) else 0) } })) ∧
    (∀ addr, (partOf addr s).present = true → 600 ≤ (partOf addr s).since →
      ∃ u, exec (.participantAbsent addr) s = .next (after u) ∧ raises 0xA051 u ∧ (partOf addr u).present = false ∧ u.zn = s.zn) ∧
    (∀ d k, s.cad.dels = [d] → d.begun = true → 1000 ≤ d.since → ctxAt d.seq s = some k → k.wait = .sched →
      ∃ u0 u, exec .scheduleDeliveryTimeout s = .next (after u) ∧ u0.cad.dels = [] ∧ raises 0xA021 u0 ∧ endsWith k 0 0x06 2 [] u0 u) ∧
    (∀ (c : Cmd) (buf : List Byte) (s1 : State) (k : Ctx), taken c s = some (k, s1) → plainForm k → notSanitizing s1 →
      (c.fn ≠ 0 → ∃ u, exec (.cadenceScheduleLoad c buf) s = .next (after u) ∧ endsWith k 0 0x01 0 [] s1 u) ∧
      (c.fn = 0 → bits c.cdw10.toNat 31 11 ≠ 0 → ∃ u, exec (.cadenceScheduleLoad c buf) s = .next (after u) ∧ endsWith k 0 0x02 0 [] s1 u) ∧
      (c.fn = 0 → bits c.cdw10.toNat 31 11 = 0 → bit c.cdw10.toNat 10 = true →
        ∃ u0 u, exec (.cadenceScheduleLoad c buf) s = .next (after u) ∧ endsWith k 0 0 0 [] u0 u ∧ raises 0xA020 u0 ∧
          u0.cad.pendSched = some (padTo 128 buf, commitEpoch c.cdw11.toNat s1) ∧ u0.cad.sched = s1.cad.sched)) ∧
    (plainWake s → s.m.cur ≠ .halted →
      (s.m.cur.flushable = true → s.m.cur ≠ .test →
        ∃ u, exec (.cadPfSend 0) s = .next (after u) ∧ u.m.cur = .emergencyFlush ∧ raises 0xA040 u ∧ raises 0x2040 u ∧ u.slk.admissionOff = true) ∧
      (∀ v : BitVec 64, bit v.toNat 8 = true →
        (s.cad.sendLeft = 0 → ∃ u, exec (.cadRootCmdSend 0 v) s = .next (after u) ∧ u.cad.sendLeft = 4 ∧ u.cad.sendCmd = v.toNat % 256 ∧
          u.cad.sendArg = v.toNat / 2 ^ 32 ∧ u.cad.sendSeq = (s.cad.sendSeq + 1) % 256 ∧ u.zn = s.zn) ∧
        (s.cad.sendLeft ≠ 0 → ∃ u, exec (.cadRootCmdSend 0 v) s = .next (after u) ∧ u.cad.sendLeft = s.cad.sendLeft ∧
          u.cad.sendCmd = s.cad.sendCmd ∧ u.cad.sendSeq = s.cad.sendSeq)) ∧
      (∀ v : BitVec 64, ∃ u, exec (.cadRootEpochWrite 0 v) s = .next (after u) ∧ u.cad.epochReq = some (v.toNat % 2 ^ 40) ∧ u.cad.sendLeft = 4 ∧
        u.cad.sendCmd = 3 ∧ u.zn = s.zn))

/-! ## Power, sleep and registers (Chapters 1, 14, 16, 17) -/

/-- R376: at the end of a window F is cut to floor(64·P_lim/P_meas) where P_lim fell since the last window, lowered by 4 above P_lim, raised by
1 below 90 % of it and else kept, within 8 … 64; PWR_STAT.FLOOR reads 1 while F is at 8 and P_meas is above P_lim, and record 0xB021 is
written once for each such occurrence. Limits are in 0.1 W and the measured power in 0.01 W. -/
def Obligations.PowerLoop : Prop :=
  ∀ (p : Nat) (s : State), s.m.cur ≠ .reset → s.m.cur ≠ .retain → 8 ≤ s.pw.f → s.pw.f ≤ 64 → 0 < p →
    ∃ u, exec (.powerLoopWindow p) s = .next (after u) ∧
      u.pw.f = (if pLim s < s.pw.limSeen then max 8 (min s.pw.f (640 * pLim s / p))
        else if 10 * pLim s < p then max 8 (s.pw.f - 4)
        else if 10 * p < 9 * (10 * pLim s) then min 64 (s.pw.f + 1)
        else s.pw.f) ∧
      8 ≤ u.pw.f ∧ u.pw.f ≤ 64 ∧ u.pw.limSeen = pLim s ∧ (u.pw.floor = true ↔ u.pw.f = 8 ∧ 10 * pLim s < p) ∧
      (u.pw.floor = true → s.pw.floor = false → raises 0xB021 u) ∧
      (u.pw.floor = false ∨ s.pw.floor = true → u.stb = s.stb)

/-- A power window shows its mean and peak and moves F; a housekeeping round counts, takes the HOLD reading and ages the part; an access through
the management port is counted, answered with the health status and wakes a sleeping device. An idle controller's APST entry chooses its state; with all of R378 held the
first block is asked; each agrees in turn, one that does not ends the entry with 0xB010; the last leaves the device in its state with
0xB001, in state 4 in RETAIN; an exit ends in an operational state with 0xB001, from RETAIN in a mode of service with its service period
opened; a lost retention supply and a stopped oscillator are remembered in RETAIN, and after VDD_RET was lost a wake starts the device anew.
Completes: POWER_LOOP_WINDOW, HOUSEKEEPING_ROUND, NVME_MI_COMMAND, I3C_DYNAMIC_ADDRESS_ASSIGNMENT, APST_IDLE_EXPIRY, NONOP_ENTRY_BEGIN,
SLEEP_HANDSHAKE_REPLY, NONOP_EXIT_END, VDD_RET_LOST, OSCILLATOR_32K_STOPPED. -/
def Obligations.HousekeepingAndSleep : Prop :=
  (∀ (s : State),
      (s.m.cur ≠ .reset → s.m.cur ≠ .retain → s.pw.limSeen ≤ pLim s → ∀ p,
        ∃ u, exec (.powerLoopWindow p) s = .next (after u) ∧ u.pw.pWin = min p 65535 ∧ u.pw.pPeak = max s.pw.pPeak (min p 65535) ∧
          u.pw.limSeen = pLim s ∧ u.zn = s.zn ∧
          u.pw.f = (if 10 * pLim s < p then max 8 (s.pw.f - 4) else if p < 9 * pLim s then min 64 (s.pw.f + 1) else s.pw.f)) ∧
      (∀ r, s.m.cur.isBase = true ∨ s.m.cur = .sanitize ∨ s.m.cur = .halted → s.pw.ps ≠ 4 →
        ∃ u, exec (.housekeepingRound r) s = .next (afterIo u) ∧ u.pw.round = wrapAdd 32 s.pw.round 1 ∧ u.pw.roundAt = s.tm.elapsed ∧
          u.slk.holdMv = r.hold ∧ u.ts.life.powerUs = s.ts.life.powerUs + (s.tm.elapsed - s.pw.roundAt)) ∧
      (plainWake s → ∃ u, exec (.nvmeMiCommand none) s = .next (after u) ∧ u.ts.mi = s.ts.mi + 1 ∧ u.ts.health = healthStatus s ∧ u.zn = s.zn ∧ u.m = s.m ∧
        (s.m.cur.wakes = true → s.pw.ps = 3 → s.pw.exiting = false → s.pw.entering = 0 → u.pw.exiting = true ∧ u.pw.wakeCause = 2)) ∧
      (∀ addr, exec (.i3cDynamicAddressAssignment addr) s = .next { s with ts := { s.ts with i3c := addr % 128 } })) ∧
  (∀ (s : State),
      (∀ fn, (fnOf fn s).en = true → (fnOf fn s).feats.apste = true → (∀ k ∈ ctxsOf fn s, k.wait = .aer) →
        (∀ q ∈ (fnOf fn s).sqs, q.2.head = q.2.tail) →
        bits (nth (fnOf fn s).feats.apst (fnOf fn s).feats.ps 0) 31 8 ≠ 0 →
        bits (nth (fnOf fn s).feats.apst (fnOf fn s).feats.ps 0) 7 3 ≠ (fnOf fn s).feats.ps →
        ∃ u, exec (.apstIdleExpiry fn) s = .next (after u) ∧
          (fnOf fn u).feats.ps = bits (nth (fnOf fn s).feats.apst (fnOf fn s).feats.ps 0) 7 3 ∧ u.zn = s.zn ∧ u.m = s.m) ∧
      (3 ≤ chosenPs s → s.pw.ps < chosenPs s → s.pw.entering = 0 → s.pw.exiting = false → s.pw.waitRound = false → entryReady s = true →
        exec .nonopEntryBegin s = .next (after { s with pw := { s.pw with entering := chosenPs s, block := 1, beganUs := s.tm.elapsed, wakePend := false } })) ∧
      (s.pw.entering ≠ 0 → s.m.cur.isBase = true →
        (blockAgrees s.pw.block true s = true → s.pw.block < 10 → ∃ u, exec (.sleepHandshakeReply true) s = .next (after u) ∧
          u.pw.block = s.pw.block + 1 ∧ u.pw.stopFetch = true ∧ u.pw.entering = s.pw.entering) ∧
        (blockAgrees s.pw.block false s = false → ∃ u, exec (.sleepHandshakeReply false) s = .next (after u) ∧ raises 0xB010 u ∧ u.pw.entering = 0 ∧
          u.pw.stopFetch = false ∧ u.pw.refBlock = s.pw.block ∧ u.m = s.m ∧ u.zn = s.zn) ∧
        (s.pw.block = 10 → s.pw.ps ≠ s.pw.entering → s.pw.entering = 3 → ∃ u, exec (.sleepHandshakeReply true) s = .next (after u) ∧
          u.pw.ps = 3 ∧ u.pw.entering = 0 ∧ u.pw.ent3 = satAdd 32 s.pw.ent3 1 ∧ u.m = s.m ∧ raises 0xB001 u) ∧
        (s.pw.block = 10 → s.pw.ps ≠ s.pw.entering → s.pw.entering = 4 → ∃ u, exec (.sleepHandshakeReply true) s = .next (after u) ∧
          u.pw.ps = 4 ∧ u.pw.entering = 0 ∧ u.m.cur = .retain ∧ raises 0xB001 u)) ∧
      (∀ hdr, s.pw.exiting = true → s.m.cur.wakes = true →
        (s.pw.ps ≠ 4 → ∃ u, exec (.nonopExitEnd hdr) s = .next (after u) ∧ u.pw.exiting = false ∧ u.pw.ps = min 2 (chosenPs s) ∧
          u.pw.stopFetch = false ∧ raises 0xB001 u ∧ u.m = s.m ∧ u.zn = s.zn) ∧
        (s.pw.ps = 4 → ∃ u, exec (.nonopExitEnd hdr) s = .next (after u) ∧ u.pw.exiting = false ∧ u.pw.ps = min 2 (chosenPs s) ∧
          u.m.cur.isBase = true ∧ u.fl.parked = false ∧ u.pins.wpLow = false ∧ u.jn.opened = true ∧ raises 0xB001 u)) ∧
      (s.m.cur = .retain →
        exec .vddRetLost s = .next { s with pw := { s.pw with retLost := true } } ∧
        exec .oscillator32kStopped s = .next { s with pw := { s.pw with oscLost := true } }) ∧
      (s.m.cur ≠ .retain → exec .vddRetLost s = .next s ∧ exec .oscillator32kStopped s = .next s) ∧
      (s.m.cur = .retain → s.pw.ps = 4 → s.pw.retLost = true → s.pw.entering = 0 → s.pw.exiting = false →
        ∃ u, exec (.nvmeMiCommand none) s = .next (after u) ∧ u.m.cur = .reset ∧ u.q.ctxs = [] ∧ u.zn.wrs = []))

/-- A 64-bit register read by halves gives the high half of the value its low half was read from; an aligned 64-bit read and a narrow one return
the addressed bytes as they stand at once and neither keep nor drop a shadow; a read of PWR_MEAS clears P_PEAK; a write of AQA, ASQ or ACQ is
kept; a narrow write is dropped, and a write to an absent function does nothing. Completes: REG_READ_LOW_DWORD, REG_READ_HIGH_DWORD,
PWR_MEAS_READ, REGISTER_WRITE. -/
def Obligations.RegistersReadAndWrite : Prop :=
  ∀ (fn : Nat) (s : State), fnPresent fn s = true →
    (∀ off r, plainWake s → off % 8 = 0 → regAt? fn off (touch fn s) = some r → r.off = off → r.bytes = 8 →
      ∃ u, exec (.regReadLowDword fn 2 ⟨off, 4⟩) s = .next (after u) ∧ u.rg.reads = s.rg.reads ++ [r.val (touch fn s) % 2 ^ 32] ∧
        Tbl.get? u.rg.shadow (regKey fn off) = some (r.val (touch fn s) / 2 ^ 32) ∧ u.zn = s.zn ∧ u.slk = s.slk) ∧
    (∀ off r h, plainWake s → off % 8 = 0 → regAt? fn (off + 4) (touch fn s) = some r → r.off = off → r.bytes = 8 →
      Tbl.get? s.rg.shadow (regKey fn off) = some h →
      ∃ u, exec (.regReadHighDword fn 2 ⟨off + 4, 4⟩) s = .next (after u) ∧ u.rg.reads = s.rg.reads ++ [h] ∧
        Tbl.get? u.rg.shadow (regKey fn off) = none ∧ u.zn = s.zn) ∧
    (∀ off width, plainWake s → width = 1 ∨ width = 2 ∨ width = 8 → ¬(0x7800 ≤ off ∧ off < 0x8000) →
      ∃ u, exec (.regReadLowDword fn 2 ⟨off, width⟩) s = .next (after u) ∧ u.rg.reads = s.rg.reads ++ [regBytes fn off width (touch fn s)] ∧
        u.rg.shadow = s.rg.shadow ∧ u.rg.low = s.rg.low ∧ u.zn = s.zn) ∧
    (isPf fn = true → plainWake s → ∃ u, exec (.pwrMeasRead fn) s = .next (after u) ∧ u.pw.pPeak = 0 ∧ u.zn = s.zn ∧
      u.rg.reads.length = s.rg.reads.length + 1) ∧
    (∀ v : BitVec 64, plainWake s →
      (∃ u, exec (.registerWrite fn 0 0x24 4 v) s = .next (afterIo u) ∧ (fnOf fn u).asqs = bits (v.toNat % 2 ^ 32) 11 0 ∧
        (fnOf fn u).acqs = bits (v.toNat % 2 ^ 32) 27 16 ∧ u.zn = s.zn) ∧
      (∃ u, exec (.registerWrite fn 0 0x28 8 v) s = .next (afterIo u) ∧ (fnOf fn u).asq = v.toNat ∧ u.zn = s.zn) ∧
      (∃ u, exec (.registerWrite fn 0 0x30 8 v) s = .next (afterIo u) ∧ (fnOf fn u).acq = v.toNat ∧ u.zn = s.zn) ∧
      (∀ off width, width ≠ 4 → width ≠ 8 → exec (.registerWrite fn 0 off width v) s = .next (after (touch fn s)) ∧
        exec (.registerWrite fn 2 off width v) s = .next (afterIo (touch fn s)))) ∧
    (∀ g space off width (v : BitVec 64), fnPresent g s = false → exec (.registerWrite g space off width v) s = .next s)

/-! ## The Studbook and TEST (Chapters 15, 17) -/

/-- The events of one step are queued in ascending code order, those of one code in the order they arose, as far as the queue's 256 places
reach, and those dropped are counted; in RETAIN they go to the always-on buffer's 16 places. Nothing but the Studbook changes. -/
def Obligations.EventsAreQueuedInCodeOrder : Prop :=
  ∀ (s : State),
    (sortEvs s.stb.raised).Pairwise (fun a b => a.code ≤ b.code) ∧ (sortEvs s.stb.raised).Perm s.stb.raised ∧
    (∀ c, (sortEvs s.stb.raised).filter (fun e => e.code == c) = s.stb.raised.filter (fun e => e.code == c)) ∧
    ((∀ e ∈ s.stb.raised, e.aon = false) →
      (settle s).stb.queue = s.stb.queue ++ (sortEvs s.stb.raised).take (256 - s.stb.queue.length) ∧ (settle s).stb.aon = s.stb.aon ∧
        (s.stb.dropQueue < 2 ^ 32 →
          (settle s).stb.dropQueue = satAdd 32 s.stb.dropQueue (s.stb.raised.length - (256 - s.stb.queue.length)))) ∧
    ((∀ e ∈ s.stb.raised, e.aon = true) →
      (settle s).stb.aon = s.stb.aon ++ (sortEvs s.stb.raised).take (16 - s.stb.aon.length) ∧ (settle s).stb.queue = s.stb.queue) ∧
    (∀ x ∈ (settle s).stb.queue, x ∈ s.stb.queue ∨ x ∈ s.stb.raised ∧ x.aon = false) ∧ (settle s).stb.raised = [] ∧
    settle s = { s with stb := (settle s).stb }

/-- Before the ring is loaded the front event goes to the early buffer; then it takes the next SEQ in a free slot (which one is free: log 53),
or adds one to the repeat count of an identical newest record; persistence copies the ring and cleans it; a checkpoint counts and stamps,
and the conventional map as it stands is what a later loss returns to (log 33);
Studbook Read answers the records it selects to a physical function, 0h/0x02 for a reserved field, 0h/0x01 to a stall; the read of a window
slot's first dword latches the slot. Completes: STUDBOOK_RECORD_PLACE, STUDBOOK_PERSIST, STUDBOOK_READ, STB_SLOT_FIRST_DWORD_READ,
JOURNAL_CHECKPOINT. -/
def Obligations.StudbookPlacesAndReads : Prop :=
  ∀ (s : State),
    (∀ e es, s.stb.queue = e :: es →
      (s.stb.loaded = false → s.stb.early.length < 64 → ∃ u, exec .studbookRecordPlace s = .next (after u) ∧ u.stb.queue = es ∧
        u.stb.early = s.stb.early ++ [{ recOf e with early := true }] ∧ u.stb.ring = s.stb.ring ∧ u.zn = s.zn) ∧
      (s.stb.loaded = true → seqLeft s.stb ≠ 0 → s.stb.early = [] → newestRec s.stb = none → s.stb.ring.length < 32768 →
        s.stb.ring.rising = true →
        ∃ u slot, exec .studbookRecordPlace s = .next (after u) ∧ u.stb.queue = es ∧ u.stb.seqNext = wrapAdd 32 s.stb.seqNext 1 ∧
          Tbl.get? u.stb.ring slot = some { recOf e with seq := s.stb.seqNext } ∧ Tbl.get? s.stb.ring slot = none ∧ u.zn = s.zn) ∧
      (∀ i r, s.stb.loaded = true → seqLeft s.stb ≠ 0 → s.stb.early = [] → newestRec s.stb = some (i, r) → identicalTo e s.stb r = true →
        ∃ u, exec .studbookRecordPlace s = .next (after u) ∧ u.stb.queue = es ∧ u.stb.seqNext = s.stb.seqNext ∧
          Tbl.get? u.stb.ring i = some { r with rpt := r.rpt + 1 } ∧ u.zn = s.zn)) ∧
    (mayPersist s = true → s.stb.early = [] →
      ∃ u, exec .studbookPersist s = .next (after u) ∧ u.stb.per.ring = s.stb.ring ∧ u.stb.dirty = [] ∧ u.stb.ring = s.stb.ring ∧ u.zn = s.zn) ∧
    (mayPersist s = true → s.m.cur ≠ .emergencyFlush →
      ∃ u, exec .journalCheckpoint s = .next (after u) ∧ u.jn.checkpoints = s.jn.checkpoints + 1 ∧ u.jn.stamp = (s.tm.epoch, s.tm.turn, s.tm.us) ∧
        u.jn.learned = s.ecc.learned ∧ u.zn = { s.zn with convOld := [] } ∧ u.q = s.q) ∧
    (∀ (c : Cmd) (s1 : State) (k : Ctx), taken c s = some (k, s1) → plainForm k →
      (isPf c.fn = false → ∃ u, exec (.studbookRead c) s = .next (after u) ∧ endsWith k 0 0x01 0 [] s1 u) ∧
      (isPf c.fn = true → bits c.cdw11.toNat 31 22 ≠ 0 → ∃ u, exec (.studbookRead c) s = .next (after u) ∧ endsWith k 0 0x02 0 [] s1 u) ∧
      (isPf c.fn = true → bits c.cdw11.toNat 31 22 = 0 → ∃ u, exec (.studbookRead c) s = .next (after u) ∧
        endsWith k 0 0 (studbookPick c s1).length (studbookData c s1) s1 u)) ∧
    (∀ slot, slot < 64 → plainWake s →
      ∃ u, exec (.stbSlotFirstDwordRead 0 slot) s = .next (after u) ∧ (winOf 0 u).latch = some (slot, slotBytes 0 slot (touch 0 s)) ∧ u.zn = s.zn)

/-- Test-Logic-Reset selects IDCODE, which reads Table 17.1's word; SAMPLE/PRELOAD captures and loads the cells; in TEST the driving
instructions drive the balls, and elsewhere each of them, and every unlisted code, selects bypass; TSTAT reads the modes; TXS_READ gives out
what the scan before it took (log 61). Without the key TEST_ENTER does nothing, in HALTED and in a flush it is refused with 0xC002; a start
mode enters at once with 0xC001, a mode of service drains first, FW_ACTIVATE holds it; a memory test runs and ends with 0xC010, and 0xC011
where a word failed; a flash test ends with 0xC021; SPI_PROG erases a slot with 0xC030 and appends words; the balls of a channel's block
lie where Table 16.4 places them. Completes: TAP_RESET,
SAMPLE_PRELOAD, IDCODE, EXTEST, CLAMP, HIGHZ, EXTEST_PULSE, EXTEST_TRAIN, BYPASS, TEST_ENTER, TEST_DRAIN_END, TSTAT, TXS_READ, MBIST,
MBIST_RES, MBIST_END, FPTEST, FP_RES, FPTEST_END, SPI_PROG. -/
def Obligations.TestPort : Prop :=
  (∀ (c d w : Nat), c < 64 → 1 ≤ d → d ≤ 16 → 1 ≤ w → w ≤ 2 → ballNet (chPlace c d w).1 (chPlace c d w).2 = chNet c d w) ∧
  (∀ (inp shift : List Bool) (s : State),
      (∃ u, exec .tapReset s = .next (after u) ∧ u.ts.ir = 0x02 ∧ u.ts.drive = 0 ∧ u.zn = s.zn ∧ u.m = s.m) ∧
      (∃ u, exec .idcode s = .next (after u) ∧ u.ts.ir = 0x02 ∧ u.ts.tdo = 0x1 * 2 ^ 28 + s.part.part * 2 ^ 12 + 0x253 * 2 + 1 ∧ u.zn = s.zn) ∧
      (∃ u, exec (.samplePreload inp shift) s = .next (after u) ∧ u.ts.captured = fitCells inp s ∧ u.ts.boundary = fitCells shift s ∧
        u.ts.boundary.length = 345 + 39 * s.part.channels ∧ u.ts.drive = 0 ∧ u.zn = s.zn) ∧
      (∃ u, exec .tstat s = .next (after u) ∧ u.ts.ir = 0x21 ∧ u.ts.tdo = tstatOf s ∧ u.zn = s.zn) ∧
      (∀ off, ∃ u, exec (.txsRead off) s = .next (after u) ∧ u.ts.ir = 0x22 ∧ u.ts.tdo = s.ts.txsOut * 2 ^ 32 ∧ u.rg.reads = s.rg.reads ∧ u.zn = s.zn) ∧
      (s.m.cur = .test →
        (∃ u, exec (.extest shift) s = .next (after u) ∧ u.ts.ir = 0x03 ∧ u.ts.drive = 1 ∧ u.ts.boundary = fitCells shift s ∧ u.zn = s.zn) ∧
        (∃ u, exec .clamp s = .next (after u) ∧ u.ts.ir = 0x04 ∧ u.ts.drive = 1 ∧ u.ts.boundary = s.ts.boundary ∧ u.zn = s.zn) ∧
        (∃ u, exec .highz s = .next (after u) ∧ u.ts.ir = 0x05 ∧ u.ts.drive = 2 ∧ u.zn = s.zn) ∧
        (∃ u, exec .extestPulse s = .next (after u) ∧ u.ts.ir = 0x06 ∧ u.ts.drive = 3 ∧ u.zn = s.zn) ∧
        (∃ u, exec .extestTrain s = .next (after u) ∧ u.ts.ir = 0x07 ∧ u.ts.drive = 4 ∧ u.zn = s.zn) ∧
        (∃ u, exec .mbistRes s = .next (after u) ∧ u.ts.ir = 0x31 ∧ u.ts.tdo = mbistRes s ∧ u.zn = s.zn) ∧
        (∃ u, exec .fpRes s = .next (after u) ∧ u.ts.ir = 0x39 ∧ u.ts.tdo = fpResOf s ∧ u.zn = s.zn)) ∧
      (s.m.cur ≠ .test → ∀ i ∈ [Instr.extest shift, .clamp, .highz, .extestPulse, .extestTrain, .mbist 0x40, .mbistRes, .fptest 0x10000, .fpRes,
          .spiProg 1, .bypass 0x03],
        ∃ u, exec i s = .next (after u) ∧ u.ts.ir = 0xFF ∧ u.ts.drive = 0 ∧ u.zn = s.zn ∧ u.st = s.st) ∧
      (∀ ir, ir % 256 ∉ listedIr → ∃ u, exec (.bypass ir) s = .next (after u) ∧ u.ts.ir = 0xFF ∧ u.ts.drive = 0 ∧ u.zn = s.zn)) ∧
  (∀ (s : State),
      (∀ key, key % 65536 ≠ 0x7E57 → ∃ u, exec (.testEnter key) s = .next (after u) ∧ u.m = s.m ∧ u.slk = s.slk ∧ u.zn = s.zn) ∧
      ((s.m.cur = .halted ∨ s.m.cur = .emergencyFlush) →
        ∃ u, exec (.testEnter 0x7E57) s = .next (after u) ∧ u.m = s.m ∧ raises 0xC002 u ∧ u.ts.entryRef = true ∧ u.zn = s.zn) ∧
      (s.m.cur.isStart = true → s.m.thm ≠ 2 →
        ∃ u, exec (.testEnter 0x7E57) s = .next (after u) ∧ u.m.cur = .test ∧ raises 0xC001 u ∧ u.q.fns = [] ∧ u.q.ctxs = [] ∧ u.fl.ops = [] ∧
          u.pins.huChgEn = false ∧ u.pins.huLoad = false) ∧
      (s.m.cur.isBase = true → s.m.thm ≠ 2 → s.m.drain = .none → s.slk.phase ≠ .pulse →
        ∃ u, exec (.testEnter 0x7E57) s = .next (after u) ∧ u.m.cur = s.m.cur ∧ u.m.drain = .testPort ∧ u.slk.admissionOff = true ∧ u.zn = s.zn) ∧
      (s.m.cur = .fwActivate → s.m.thm ≠ 2 → ∃ u, exec (.testEnter 0x7E57) s = .next (after u) ∧ u.m = { s.m with testPend := true } ∧ u.zn = s.zn) ∧
      (s.m.drain = .testPort → useBytes s = 0 → s.m.thm ≠ 2 → s.m.cur ≠ .test →
        ∃ u, exec .testDrainEnd s = .next (after u) ∧ u.m.cur = .test ∧ u.m.drain = .none ∧ raises 0xC001 u ∧ u.jn.closing = .clean) ∧
      (s.m.cur = .test →
        (∀ v, bit v 6 = true → s.ts.mbStart = false → s.ts.mbBusy = false → bits v 8 7 ≠ 3 → bits v 2 0 ≤ s.part.sheds ∨ bits v 2 0 = 7 →
          ∃ u, exec (.mbist v) s = .next (after u) ∧ u.ts.mbBusy = true ∧ u.ts.mbDone = false ∧ u.ts.mbReg = v % 2 ^ 32 ∧ u.zn = s.zn) ∧
        (∀ v, bit v 16 = true → s.ts.fpStart = false → s.ts.fpBusy = false → bits v 15 14 = 0 → bit v 6 = true ∨ bits v 5 0 < s.part.channels →
          ∃ u, exec (.fptest v) s = .next (after u) ∧ u.ts.fpBusy = true ∧ u.ts.fpDone = false ∧ u.jn = s.jn ∧ u.zn = s.zn) ∧
        (∃ u, exec (.spiProg 1) s = .next (after u) ∧ raises 0xC030 u ∧ u.st.spiA = [] ∧ u.st.spiB = s.st.spiB) ∧
        (∀ w, w < 2 ^ 32 → ∃ u, exec (.spiProg (4 + w * 2 ^ 32)) s = .next (after u) ∧ u.st.spiA = s.st.spiA ++ leBytes 4 w ∧
          u.st.spiB = s.st.spiB)) ∧
      (∀ res, s.ts.mbBusy = true → ∃ u, exec (.mbistEnd res) s = .next (after u) ∧ u.ts.mbBusy = false ∧ u.ts.mbDone = true ∧ raises 0xC010 u ∧
        u.ts.mbFail = (decide (res.fails ≠ 0) || s.ts.mbStop) ∧ (res.fails ≠ 0 → raises 0xC011 u) ∧ u.ts.mbRun = min res.run 65535) ∧
      (∀ res bad, s.ts.fpBusy = true → ∃ u, exec (.fptestEnd res bad) s = .next (after u) ∧ u.ts.fpBusy = false ∧ u.ts.fpDone = true ∧
        raises 0xC021 u ∧ u.ts.fpFailed = min (fpFails res.failed bad s) (2 ^ 32 - 1)))
end

