-- ==== Sys2Proof/Machine/Codeword.lean ====
section
/-! DEFINITION. What the media hold of the user data: stored codewords, their metadata, the classes' parity, cross-die parity, pages
(R199 to R202, R207). -/

namespace Sys2Proof.Machine
open Sys2Proof

/-! ## Classes (R202) -/

/-- LDPC parity bytes per codeword of a class (Table 7.3). -/
def classParity (c : Nat) : Nat := if c = 1 then 320 else if c = 2 then 384 else if c = 3 then 448 else 504
/-- Bytes of a stored codeword (R199). -/
def storedBytes : Nat := 4648
/-- Information bytes of a layout: data, metadata, and the extension of the extended one (Table 7.1). -/
def infoBytes (ext : Bool) : Nat := if ext then 4192 else 4144
/-- Filler bytes per codeword (Table 7.3). -/
def classFiller (c : Nat) (ext : Bool) : Nat := storedBytes - infoBytes ext - classParity c

/-! ## Metadata (R200) -/

/-- OWNER and CONV: a device zone number, or a conventional unit (Table 7.2, offsets 16 to 19). -/
def ownerWord (o pos : Nat) : Nat := if o = convOwner then fld 0 31 (pos / 8) + fld 31 1 1 else fld 0 31 o
/-- POS, UNITS and the flags (Table 7.2, offsets 20 to 23). -/
def posWord (o pos units : Nat) (unread zfill ext sealed_ : Bool) : Nat :=
  (if o = convOwner then fld 0 2 (pos % 8 / 2) else fld 0 22 pos) + fld 22 2 units + fld 24 1 (b2n unread) + fld 25 1 (b2n zfill)
    + fld 26 1 (b2n ext) + fld 27 1 (b2n sealed_)
/-- SEAL: the tag of the seal unit whose last byte a codeword of a sealed zone holds, else zero (Table 7.2, offsets 32 to 47). -/
def sealField (q : Zone) (pos units : Nat) : List Byte :=
  let u := pos / 32
  if q.sealF ∧ pos + units = 32 * (u + 1) then padTo 16 (Tbl.getD q.tags u []) else zeroBytes 16
/-- The 48 metadata bytes of a codeword (Table 7.2). `md`: its host metadata. -/
def cwMeta (o pos units : Nat) (md : List Byte) (unread zfill : Bool) (lseq : Nat) (s : State) : List Byte :=
  let q := if o = convOwner then none else zoneAt? o s
  padTo 16 md ++ leBytes 4 (ownerWord o pos)
    ++ leBytes 4 (posWord o pos units unread zfill (extCw o s) (match q with | some q => q.sealF | none => false))
    ++ leBytes 4 (match q with | some q => q.gen % 2 ^ 32 | none => 0) ++ leBytes 4 lseq
    ++ (match q with | some q => sealField q pos units | none => zeroBytes 16)

/-! ## Information bytes (R199) -/

/-- The live pieces a codeword of a Pen holds: owner, position, piece. -/
def cwPieces (t : Target) (s : State) : List (Nat × Nat × Piece) :=
  (piecesOn t.pid t.pen t.m t.wl s).filterMap (fun e => match pieceAt e.1 e.2 s with
    | some (_, x) => if x.slot % cwPerMember t.pen s.fl.geom = t.cw then some (e.1, e.2, x) else none
    | none => none)
/-- The zone and unit whose data lies on a member's wordline of a QLC Pen, once programmed. -/
def unitHere (t : Target) (s : State) : Option (Nat × Nat) :=
  s.zn.zones.findSome? (fun z =>
    ((runUnits z.2.runs).zipIdx.find? (fun u => u.1.1 == t.pid && unitLoc t.pen u.1.2 == (t.m, t.wl)
      && (decide (u.2 < z.2.folded) || z.2.ahead.contains u.2))).map (fun u => (z.1, u.2)))
/-- A codeword's information bytes, and whether its layout is the extended one. One of a zone's unit past the accepted data is zero fill (R148);
what one without live data still holds is dead: free values. -/
def dataInfo (t : Target) (s : State) : List Byte × Bool :=
  match cwPieces t s with
  | (o, pos, x) :: r =>
    let ps := x :: r.map (fun e => e.2.2)
    let u := min 2 (sumN (ps.map (·.units)))
    let ext := extCw o s
    (padTo 4096 (ps.flatMap (fun p => padTo (2048 * p.units) p.data))
      ++ cwMeta o pos u (x.md.take 16) (ps.any (·.unread)) false x.lseq s ++ (if ext then padTo 48 (x.md.drop 16) else []), ext)
  | [] => match unitHere t s with
    | some (z, k) =>
      let ext := extCw z s
      (zeroBytes 4096 ++ cwMeta z (k * unitPos s.fl.geom + 2 * t.cw) 2 [] false true 0 s ++ (if ext then zeroBytes 48 else []), ext)
    | none => ((List.range 4144).map (fun i => Config.freeByte (((t.pid * 4096 + t.wl) * 64 + t.m) * 65536 * 8192 + t.cw * 8192 + i)), false)

/-! ## Cross-die parity (R207) -/

/-- Multiplication by g = 0x02 in GF(2⁸) with field polynomial 0x11D. -/
def gDbl (b : Byte) : Byte := if b.getLsbD 7 then (b <<< 1) ^^^ 0x1D else b <<< 1
/-- P: the byte-wise XOR of the stripe's data codewords. -/
def stripeP (n : Nat) (l : List (List Byte)) : List Byte := l.foldr xorB (zeroBytes n)
/-- Q: Σ gⁱ · Dᵢ, by Horner's rule. -/
def stripeQ (n : Nat) (l : List (List Byte)) : List Byte := l.foldr (fun d a => xorB d (a.map gDbl)) (zeroBytes n)
/-- The data codewords of a stripe at one offset, the extension of a standard layout counting as zero. -/
def stripeData (t : Target) (s : State) : List (List Byte) :=
  ((List.range t.pen.mem.length).filter (fun m => !(parityAt t.pen t.wl).contains m)).map (fun m => padTo 4192 (dataInfo { t with m := m } s).1)
/-- A parity codeword's information bytes: P at the stripe's first parity position, Q at its second. -/
def parityInfo (t : Target) (s : State) : List Byte :=
  if (parityAt t.pen t.wl).idxOf t.m = 0 then stripeP 4192 (stripeData t s) else stripeQ 4192 (stripeData t s)

/-! ## Stored codewords and pages (R199) -/

/-- Bytes with some of their bits inverted: bit j is bit j mod 8 of byte j / 8. -/
def invertBits (l : List Byte) (bits : List Nat) : List Byte :=
  l.mapIdx (fun i b => (bits.filter (fun j => j / 8 == i)).foldl (fun b j => b ^^^ (1#8 <<< (j % 8))) b)
/-- A stored codeword: the information bytes under the pseudo-random sequence, the class's parity over them, filler 0xFF (Table 7.1); the
code and the sequence are free functions (log 93). -/
def encodeCw (cls b wl k : Nat) (info : List Byte) : List Byte :=
  let x := xorB info (padTo info.length (Config.scramble b wl k))
  let p := padTo (classParity cls) (Config.ldpc cls x)
  (x ++ p ++ List.replicate (storedBytes - x.length - p.length) 0xFF).take storedBytes
/-- A codeword as its member's block holds it, with the bits a flip mask has inverted (R215). -/
def storedCw (t : Target) (k : Nat) (s : State) : List Byte :=
  let e := t.place s
  let info := if (parityAt t.pen t.wl).contains t.m then parityInfo t s else (dataInfo t s).1
  let w := encodeCw (cwClass t s) e.2.1 t.wl k info
  match s.fl.marred.find? (fun x => x.1 == blkKey e.1 e.2.1 && x.2.1 == t.wl && x.2.2.1 == t.cw) with
  | some x => invertBits w x.2.2.2
  | none => w
/-- A page of a member's wordline on one plane: codeword k at bytes 4,648 · k, the spare bytes past the last 0xFF. -/
def pageImage (pid : Nat) (p : Pen) (m wl page plane : Nat) (s : State) : List Byte :=
  let g := s.fl.geom
  let n := g.pageData / 4096
  let l := (List.range n).flatMap (fun k => storedCw ⟨pid, p, m, wl, page * cwPerWl g + plane * n + k⟩ k s)
  l ++ List.replicate (g.pageData + g.spare - l.length) 0xFF

end Sys2Proof.Machine
end

