-- ==== Sys2Proof/Laws/Codeword.lean ====
section
/-! SUPPORT. Stored codewords and cross-die parity: lengths, and the rebuild of a member from P. -/

namespace Sys2Proof.Machine
open Sys2Proof

/-- Every stored codeword takes 4,648 bytes (R199). -/
@[simp] theorem encodeCw_length (cls b wl k : Nat) (info : List Byte) : (encodeCw cls b wl k info).length = storedBytes := by
  simp only [encodeCw, List.length_take, List.length_append, List.length_replicate]
  omega

/-- An inverted bit changes no length (R215). -/
@[simp] theorem invertBits_length (l : List Byte) (bs : List Nat) : (invertBits l bs).length = l.length := by simp [invertBits]

/-- What a member's block holds of a codeword takes 4,648 bytes, inverted bits and all (R199, R215). -/
theorem storedCw_length (t : Target) (k : Nat) (s : State) : (storedCw t k s).length = storedBytes := by
  simp only [storedCw]
  split <;> simp

/-- The four layouts' filler sizes of Table 7.3, standard and extended. -/
theorem classFiller_table :
    [1, 2, 3, 4].map (fun c => (classFiller c false, classFiller c true)) = [(184, 136), (120, 72), (56, 8), (0, 0)] := by decide

theorem xorB_comm (a b : List Byte) : xorB a b = xorB b a := by
  unfold xorB
  rw [List.zipWith_comm]
  simp [BitVec.xor_comm]

theorem xorB_length (a b : List Byte) : (xorB a b).length = min a.length b.length := by simp [xorB]

/-- Parity codewords combine bytewise, in any order. -/
theorem xorB_left_comm (a b c : List Byte) : xorB a (xorB b c) = xorB b (xorB a c) := by
  apply List.ext_getElem
  · simp [xorB_length, Nat.min_left_comm]
  · intro i h1 h2
    simp only [xorB, List.getElem_zipWith]
    rw [← BitVec.xor_assoc, ← BitVec.xor_assoc]
    congr 1
    exact BitVec.xor_comm ..

/-- A codeword of a stripe stands anywhere in P's sum. -/
theorem stripeP_mid (n : Nat) (l r : List (List Byte)) (d : List Byte) : stripeP n (l ++ d :: r) = xorB d (stripeP n (l ++ r)) := by
  induction l with
  | nil => rfl
  | cons x xs ih =>
    show xorB x (stripeP n (xs ++ d :: r)) = xorB d (xorB x (stripeP n (xs ++ r)))
    rw [ih, xorB_left_comm]

/-- The rebuild of step 3 with one member away: P and the other data codewords give the missing one back (R207, R208). -/
theorem stripeP_rebuild (n : Nat) (l r : List (List Byte)) (d : List Byte) (hd : d.length = n)
    (ho : (stripeP n (l ++ r)).length = n) : xorB (stripeP n (l ++ d :: r)) (stripeP n (l ++ r)) = d := by
  rw [stripeP_mid]
  apply List.ext_getElem
  · simp [xorB_length, hd, ho]
  · intro i h1 h2
    simp [xorB]

end Sys2Proof.Machine
end

