-- ==== Sys2Proof/Laws/Kept.lean ====
section
/-! SUPPORT. Which fields the shared operations leave alone: the part, the command queue, the configuration image and the Studbook's buffers. One lemma a definition, by simp, so that no proof about a step unfolds the operations again. -/

namespace Sys2Proof.Machine
open Sys2Proof

set_option linter.unusedTactic false
set_option linter.unreachableTactic false
set_option linter.unusedSimpArgs false

/-! ## Ops -/

/-- The part, the commands that wait, the image, and what the Studbook holds. -/
def steady (s : State) : Part × List Instr × Img × List Ev × List Ev × List Rec × Bool × StbPersist × Tbl Rec :=
  (s.part, s.pending, s.img, s.stb.queue, s.stb.aon, s.stb.early, s.stb.loaded, s.stb.per, s.stb.ring)
@[simp] theorem steady_mk (part m pins st img stb slk q zn pl fl ecc tm stl ci ga cad pw ts jn rg free pending) :
  steady ⟨part, m, pins, st, img, stb, slk, q, zn, pl, fl, ecc, tm, stl, ci, ga, cad, pw, ts, jn, rg, free, pending⟩ = (part, pending, img, stb.queue, stb.aon, stb.early, stb.loaded, stb.per, stb.ring) := id rfl
@[simp] theorem steady_eq (s : State) : (s.part, s.pending, s.img, s.stb.queue, s.stb.aon, s.stb.early, s.stb.loaded, s.stb.per, s.stb.ring) = steady s := id rfl
/-- A fold of steps that leave these fields alone leaves them alone. -/
theorem steady_foldl {α : Type} (f : State → α → State) (h : ∀ s x, steady (f s x) = steady s) : ∀ (l : List α) (s : State), steady (l.foldl f s) = steady s
  | [], _ => rfl
  | x :: xs, s => (steady_foldl f h xs (f s x)).trans (h s x)
theorem steady_foldl2 {α β : Type} (f : β × State → α → β × State) (h : ∀ a x, steady (f a x).2 = steady a.2) :
    ∀ (l : List α) (a : β × State), steady (l.foldl f a).2 = steady a.2
  | [], _ => rfl
  | x :: xs, a => (steady_foldl2 f h xs (f a x)).trans (h a x)
theorem steady_foldl3 {α β γ : Type} (f : β × γ × State → α → β × γ × State) (h : ∀ a x, steady (f a x).2.2 = steady a.2.2) :
    ∀ (l : List α) (a : β × γ × State), steady (l.foldl f a).2.2 = steady a.2.2
  | [], _ => rfl
  | x :: xs, a => (steady_foldl3 f h xs (f a x)).trans (h a x)
@[simp] theorem raise_steady (code sev : Nat) (args : List (List Nat)) (s : State) : steady (raise code sev args s) = steady s := by simp [raise]

@[simp] theorem updFn_steady (f : Nat) (g : Fn → Fn) (s : State) : steady (updFn f g s) = steady s := by simp [updFn]

@[simp] theorem updCvu_steady (u : Nat) (g : Cvu → Cvu) (s : State) : steady (updCvu u g s) = steady s := by simp [updCvu]

@[simp] theorem cvuFold_steady (k : Ctx) (good : Bool) (s : State) : steady (cvuFold k good s) = steady s :=
  steady_foldl _ (fun s e => by dsimp only; rw [updCvu_steady]) _ _

@[simp] theorem popSq_steady (f qid : Nat) (s : State) : steady (popSq f qid s) = steady s := by simp [popSq]

@[simp] theorem noteExh_steady (s : State) : steady (noteExh s) = steady s := by unfold noteExh; split <;> simp

@[simp] theorem resumeRecord_steady (s : State) : steady (resumeRecord s) = steady s := by unfold resumeRecord; split <;> simp

@[simp] theorem fetchNow_steady (c : Cmd) (s : State) : steady (fetchNow c s).2 = steady s := by
  unfold fetchNow
  simp
  exact steady_foldl _ (fun s e => by simp) _ _

@[simp] theorem putCtx_steady (k : Ctx) (s : State) : steady (putCtx k s) = steady s := by simp [putCtx]

@[simp] theorem dropCtx_steady (q : Nat) (s : State) : steady (dropCtx q s) = steady s := by simp [dropCtx]

theorem withCmd_steady (c : Cmd) (s : State) (f : Ctx → State → State) (h : ∀ k s, steady (f k s) = steady s) :
    steady (withCmd c s f) = steady s := by
  unfold withCmd
  repeat' split
  all_goals simp [h]

@[simp] theorem signal_steady (f vec : Nat) (s : State) : steady (signal f vec s) = steady s := by simp [signal]

@[simp] theorem cqPush_steady (f : Nat) (e : Cqe) (s : State) : steady (cqPush f e s).1 = steady s := by
  unfold cqPush
  dsimp only
  repeat' split
  all_goals simp

@[simp] theorem logError_steady (k : Ctx) (sct sc : Nat) (s : State) : steady (logError k sct sc s) = steady s := by simp [logError]

@[simp] theorem postFull_steady (k : Ctx) (sct sc dw0 cs1 : Nat) (data : List Byte) (s : State) :
    steady (postFull k sct sc dw0 cs1 data s) = steady s := by
  unfold postFull
  dsimp only
  repeat' split
  all_goals simp

@[simp] theorem fin_steady (k : Ctx) (sct sc : Nat) (s : State) : steady (fin k sct sc s) = steady s := by simp [fin]

@[simp] theorem ok_steady (k : Ctx) (s : State) : steady (ok k s) = steady s := by simp [ok]

@[simp] theorem okData_steady (k : Ctx) (data : List Byte) (s : State) : steady (okData k data s) = steady s := by simp [okData]

@[simp] theorem okDw0_steady (k : Ctx) (dw0 : Nat) (s : State) : steady (okDw0 k dw0 s) = steady s := by simp [okDw0]

@[simp] theorem endDeletes_steady (s : State) : steady (endDeletes s) = steady s := by
  unfold endDeletes
  try dsimp only
  repeat' (first | split | ((refine (steady_foldl _ (fun s x => ?_) _ _).trans ?_) <;> try dsimp only) | ((refine (steady_foldl2 _ (fun s x => ?_) _ _).trans ?_) <;> try dsimp only) | simp)
  all_goals simp_all

@[simp] theorem deliverAen_steady (f : Nat) : ∀ (n : Nat) (s : State), steady (deliverAen f n s) = steady s
  | 0, _ => rfl
  | n + 1, s => by
    unfold deliverAen
    dsimp only
    split
    · rw [deliverAen_steady f n]; simp
    · rfl

@[simp] theorem aenFn_steady (f typ info log : Nat) (s : State) : steady (aenFn f typ info log s) = steady s := by unfold aenFn; split <;> simp

@[simp] theorem unmask_steady (f log : Nat) (s : State) : steady (unmask f log s) = steady s := by simp [unmask]

@[simp] theorem aenAll_steady (bitNo typ info log : Nat) (s : State) : steady (aenAll bitNo typ info log s) = steady s := by
  unfold aenAll
  try dsimp only
  repeat' (first | split | ((refine (steady_foldl _ (fun s x => ?_) _ _).trans ?_) <;> try dsimp only) | ((refine (steady_foldl2 _ (fun s x => ?_) _ _).trans ?_) <;> try dsimp only) | simp)
  all_goals simp_all

@[simp] theorem setWarn_steady (b : Nat) (v : Bool) (s : State) : steady (setWarn b v s) = steady s := by
  unfold setWarn
  try dsimp only
  repeat' (first | split | ((refine (steady_foldl _ (fun s x => ?_) _ _).trans ?_) <;> try dsimp only) | ((refine (steady_foldl2 _ (fun s x => ?_) _ _).trans ?_) <;> try dsimp only) | simp)
  all_goals simp_all

@[simp] theorem setMode_steady (md : Mode) (s : State) : steady (setMode md s) = steady s := by
  unfold setMode
  repeat' split
  all_goals simp

@[simp] theorem reBase_steady (s : State) : steady (reBase s) = steady s := by unfold reBase; split <;> simp

@[simp] theorem parkHalted_steady (s : State) : steady (parkHalted s) = steady s := by
  unfold parkHalted
  try dsimp only
  repeat' (first | split | ((refine (steady_foldl _ (fun s x => ?_) _ _).trans ?_) <;> try dsimp only) | ((refine (steady_foldl2 _ (fun s x => ?_) _ _).trans ?_) <;> try dsimp only) | simp)
  all_goals simp_all

@[simp] theorem halt_steady (s : State) : steady (halt s) = steady s := by unfold halt; split <;> simp

@[simp] theorem tick_steady (s : State) : steady (tick s) = steady s := by simp [tick]

/-! ## Flags -/

@[simp] theorem updSlk_steady (f : Nat) (g : SlkFn → SlkFn) (s : State) : steady (updSlk f g s) = steady s := by simp [updSlk]

@[simp] theorem noteOver_steady (s : State) : steady (noteOver s) = steady s := by
  unfold noteOver
  try dsimp only
  repeat' (first | split | ((refine (steady_foldl _ (fun s x => ?_) _ _).trans ?_) <;> try dsimp only) | ((refine (steady_foldl2 _ (fun s x => ?_) _ _).trans ?_) <;> try dsimp only) | simp)
  all_goals simp_all

@[simp] theorem scaleQuotas_steady (s : State) : steady (scaleQuotas s) = steady s := by
  unfold scaleQuotas
  try dsimp only
  repeat' (first | split | ((refine (steady_foldl _ (fun s x => ?_) _ _).trans ?_) <;> try dsimp only) | ((refine (steady_foldl2 _ (fun s x => ?_) _ _).trans ?_) <;> try dsimp only) | simp)
  all_goals simp_all

@[simp] theorem restoreQuotas_steady (s : State) : steady (restoreQuotas s) = steady s := by unfold restoreQuotas; split <;> simp

@[simp] theorem updZone_steady (z : Nat) (g : Zone → Zone) (s : State) : steady (updZone z g s) = steady s := by simp [updZone]

/-! ## Media -/

@[simp] theorem updLun_steady (d : Nat) (g : Lun → Lun) (s : State) : steady (updLun d g s) = steady s := by simp [updLun]

@[simp] theorem updBk_steady (d b : Nat) (g : Bk → Bk) (s : State) : steady (updBk d b g s) = steady s := by simp [updBk]

@[simp] theorem updChn_steady (c : Nat) (g : Chn → Chn) (s : State) : steady (updChn c g s) = steady s := by simp [updChn]

@[simp] theorem refillLists_steady (d : Nat) (s : State) : steady (refillLists d s) = steady s := by simp [refillLists]

@[simp] theorem updYard_steady (y : Nat) (g : YardS → YardS) (s : State) : steady (updYard y g s) = steady s := by simp [updYard]

@[simp] theorem updPen_steady (p : Nat) (g : Pen → Pen) (s : State) : steady (updPen p g s) = steady s := by simp [updPen]

@[simp] theorem takeBlock_steady (d : Nat) (wear : Bool) (pen : Nat) (s : State) : steady (takeBlock d wear pen s).2 = steady s := by
  unfold takeBlock
  try dsimp only
  repeat' (first | split | ((refine (steady_foldl _ (fun s x => ?_) _ _).trans ?_) <;> try dsimp only) | ((refine (steady_foldl2 _ (fun s x => ?_) _ _).trans ?_) <;> try dsimp only) | simp)
  all_goals simp_all

@[simp] theorem takeBlocks_steady (pen : Nat) (wear : Bool) : ∀ (l : List Nat) (s : State), steady (takeBlocks pen wear l s).2 = steady s
  | [], _ => rfl
  | d :: ds, s => by
    unfold takeBlocks
    simp [takeBlocks_steady pen wear ds]

@[simp] theorem queueOp_steady (ch lun cls : Nat) (k : OpKind) (b wl : Nat) (onebit : Bool) (w : Work) (s : State) : steady (queueOp ch lun cls k b wl onebit w s) = steady s := by simp [queueOp]

@[simp] theorem queueErase_steady (d b : Nat) (w : Work) (s : State) : steady (queueErase d b w s) = steady s := by unfold queueErase; split <;> simp

@[simp] theorem readyBlock_steady (pen : Nat) (s : State) (m : Nat × Nat × Bool) : steady (readyBlock pen s m) = steady s := by
  unfold readyBlock
  repeat' split
  all_goals simp

@[simp] theorem formOn_steady (k : PenKind) (y lcl par : Nat) (pr : Nat × Option Nat) (ds : List Nat) (s : State) : steady (formOn k y lcl par pr ds s).2 = steady s := by
  unfold formOn
  try dsimp only
  repeat' (first | split | ((refine (steady_foldl _ (fun s x => ?_) _ _).trans ?_) <;> try dsimp only) | ((refine (steady_foldl2 _ (fun s x => ?_) _ _).trans ?_) <;> try dsimp only) | simp)
  all_goals simp_all

theorem formQlc_steady {k : PenKind} {y lcl : Nat} {s : State} {r : Nat × State} (h : formQlc k y lcl s = some r) : steady r.2 = steady s := by
  unfold formQlc at h
  obtain ⟨p, _, rfl⟩ := Option.map_eq_some_iff.mp h
  simp

theorem formPad_steady {k : PenKind} {y : Nat} {s : State} {r : Nat × State} (h : formPad k y s = some r) : steady r.2 = steady s := by
  unfold formPad at h
  obtain ⟨p, _, rfl⟩ := Option.map_eq_some_iff.mp h
  simp

theorem formPadShed_steady {k : PenKind} {sh : Nat} {s : State} {r : Nat × State} (h : formPadShed k sh s = some r) : steady r.2 = steady s := by
  unfold formPadShed at h
  obtain ⟨p, _, rfl⟩ := Option.map_eq_some_iff.mp h
  simp

theorem takeUnits_steady (y lcl : Nat) : ∀ (fuel n : Nat) (s : State) (r : List (Nat × Nat × Nat) × State),
    takeUnits y lcl fuel n s = some r → steady r.2 = steady s
  | _, 0, s, r, h => by unfold takeUnits at h; cases h; rfl
  | 0, _ + 1, _, _, h => by unfold takeUnits at h; cases h
  | fuel + 1, n + 1, s, r, h => by
    unfold takeUnits at h
    dsimp only at h
    split at h
    · split at h
      · rw [takeUnits_steady y lcl fuel _ _ _ h]; rfl
      · obtain ⟨q, hq, rfl⟩ := Option.map_eq_some_iff.mp h
        rw [takeUnits_steady y lcl fuel _ _ _ hq]; simp
    · split at h
      · cases h
      · rename_i hf
        rw [takeUnits_steady y lcl fuel _ _ _ h, ← formQlc_steady hf]; rfl

theorem reserve_steady {y lcl n : Nat} {s : State} {r : List (Nat × Nat × Nat) × State} (h : reserve y lcl n s = some r) :
    steady r.2 = steady s := by
  unfold reserve at h
  split at h
  · cases h
  · exact takeUnits_steady _ _ _ _ _ _ h

@[simp] theorem queueRead_steady (d b cls wl page : Nat) (onebit : Bool) (w : Work) (s : State) : steady (queueRead d b cls wl page onebit w s) = steady s := by
  unfold queueRead
  try dsimp only
  repeat' (first | split | ((refine (steady_foldl _ (fun s x => ?_) _ _).trans ?_) <;> try dsimp only) | ((refine (steady_foldl2 _ (fun s x => ?_) _ _).trans ?_) <;> try dsimp only) | simp)
  all_goals simp_all

@[simp] theorem queueProg_steady (d b cls wl : Nat) (onebit : Bool) (w : Work) (s : State) : steady (queueProg d b cls wl onebit w s) = steady s := by simp [queueProg]

@[simp] theorem dropOp_steady (id : Nat) (s : State) : steady (dropOp id s) = steady s := by simp [dropOp]

@[simp] theorem updOp_steady (id : Nat) (g : AOp → AOp) (s : State) : steady (updOp id g s) = steady s := by simp [updOp]

@[simp] theorem resumeIdle_steady (s : State) : steady (resumeIdle s) = steady s := by
  unfold resumeIdle
  try dsimp only
  repeat' (first | split | ((refine (steady_foldl _ (fun s x => ?_) _ _).trans ?_) <;> try dsimp only) | ((refine (steady_foldl2 _ (fun s x => ?_) _ _).trans ?_) <;> try dsimp only) | simp)
  all_goals simp_all

@[simp] theorem releaseOld_steady (o : Nat × Nat × Nat) (s : State) : steady (releaseOld o s) = steady s := by
  unfold releaseOld
  try dsimp only
  repeat' (first | split | ((refine (steady_foldl _ (fun s x => ?_) _ _).trans ?_) <;> try dsimp only) | ((refine (steady_foldl2 _ (fun s x => ?_) _ _).trans ?_) <;> try dsimp only) | simp)
  all_goals simp_all

@[simp] theorem retirePen_steady (id : Nat) (s : State) : steady (retirePen id s) = steady s := by
  unfold retirePen
  try dsimp only
  repeat' (first | split | ((refine (steady_foldl _ (fun s x => ?_) _ _).trans ?_) <;> try dsimp only) | ((refine (steady_foldl2 _ (fun s x => ?_) _ _).trans ?_) <;> try dsimp only) | simp)
  all_goals simp_all

@[simp] theorem recyclePen_steady (id : Nat) (s : State) : steady (recyclePen id s) = steady s := by
  unfold recyclePen
  try dsimp only
  repeat' (first | split | ((refine (steady_foldl _ (fun s x => ?_) _ _).trans ?_) <;> try dsimp only) | ((refine (steady_foldl2 _ (fun s x => ?_) _ _).trans ?_) <;> try dsimp only) | simp)
  all_goals simp_all

@[simp] theorem checkSpares_steady (s : State) : steady (checkSpares s) = steady s := by
  unfold checkSpares
  repeat' split
  all_goals simp

@[simp] theorem reevalSpares_steady (s : State) : steady (reevalSpares s) = steady s := by
  unfold reevalSpares
  repeat' split
  all_goals simp

/-! ## Data -/

@[simp] theorem putPiece_steady (o pos : Nat) (p : Piece) (s : State) : steady (putPiece o pos p s) = steady s := by simp [putPiece]

@[simp] theorem dropPieces_steady (o : Nat) (s : State) : steady (dropPieces o s) = steady s := by simp [dropPieces]

@[simp] theorem mapPieces_steady (o : Nat) (g : Nat → Piece → Piece) (s : State) : steady (mapPieces o g s) = steady s := by simp [mapPieces]

@[simp] theorem sramCorrected_steady (die region word syn : Nat) (s : State) : steady (sramCorrected die region word syn s) = steady s := by
  unfold sramCorrected
  try dsimp only
  repeat' (first | split | ((refine (steady_foldl _ (fun s x => ?_) _ _).trans ?_) <;> try dsimp only) | ((refine (steady_foldl2 _ (fun s x => ?_) _ _).trans ?_) <;> try dsimp only) | simp)
  all_goals simp_all

@[simp] theorem sramBroken_steady (die region word syn : Nat) (s : State) : steady (sramBroken die region word syn s) = steady s := by
  unfold sramBroken
  try dsimp only
  repeat' (first | split | ((refine (steady_foldl _ (fun s x => ?_) _ _).trans ?_) <;> try dsimp only) | ((refine (steady_foldl2 _ (fun s x => ?_) _ _).trans ?_) <;> try dsimp only) | simp)
  all_goals simp_all

@[simp] theorem sramRebuild_steady (die region word : Nat) (s : State) : steady (sramRebuild die region word s) = steady s := by
  unfold sramRebuild
  try dsimp only
  repeat' (first | split | ((refine (steady_foldl _ (fun s x => ?_) _ _).trans ?_) <;> try dsimp only) | ((refine (steady_foldl2 _ (fun s x => ?_) _ _).trans ?_) <;> try dsimp only) | simp)
  all_goals simp_all

@[simp] theorem mapRead_steady (u : Nat) (s : State) : steady (mapRead u s) = steady s := by
  unfold mapRead
  try dsimp only
  repeat' (first | split | ((refine (steady_foldl _ (fun s x => ?_) _ _).trans ?_) <;> try dsimp only) | ((refine (steady_foldl2 _ (fun s x => ?_) _ _).trans ?_) <;> try dsimp only) | simp)
  all_goals simp_all

@[simp] theorem sramStore_steady (die region word : Nat) (s : State) : steady (sramStore die region word s) = steady s := by
  unfold sramStore
  try dsimp only
  repeat' (first | split | ((refine (steady_foldl _ (fun s x => ?_) _ _).trans ?_) <;> try dsimp only) | ((refine (steady_foldl2 _ (fun s x => ?_) _ _).trans ?_) <;> try dsimp only) | simp)
  all_goals simp_all

@[simp] theorem mapWrite_steady (u : Nat) (s : State) : steady (mapWrite u s) = steady s := by
  unfold mapWrite
  try dsimp only
  repeat' (first | split | ((refine (steady_foldl _ (fun s x => ?_) _ _).trans ?_) <;> try dsimp only) | ((refine (steady_foldl2 _ (fun s x => ?_) _ _).trans ?_) <;> try dsimp only) | simp)
  all_goals simp_all

@[simp] theorem putMap_steady (u : Nat) (e : CMap) (s : State) : steady (putMap u e s) = steady s := by
  unfold putMap
  try dsimp only
  repeat' (first | split | ((refine (steady_foldl _ (fun s x => ?_) _ _).trans ?_) <;> try dsimp only) | ((refine (steady_foldl2 _ (fun s x => ?_) _ _).trans ?_) <;> try dsimp only) | simp)
  all_goals simp_all

@[simp] theorem delMap_steady (u : Nat) (s : State) : steady (delMap u s) = steady s := by
  unfold delMap
  try dsimp only
  repeat' (first | split | ((refine (steady_foldl _ (fun s x => ?_) _ _).trans ?_) <;> try dsimp only) | ((refine (steady_foldl2 _ (fun s x => ?_) _ _).trans ?_) <;> try dsimp only) | simp)
  all_goals simp_all

@[simp] theorem updWr_steady (id : Nat) (g : Wr → Wr) (s : State) : steady (updWr id g s) = steady s := by simp [updWr]

@[simp] theorem dropWr_steady (id : Nat) (s : State) : steady (dropWr id s) = steady s := by simp [dropWr]

@[simp] theorem returnCharge_steady (id n : Nat) (s : State) : steady (returnCharge id n s) = steady s := by unfold returnCharge; split <;> simp

@[simp] theorem postWrite_steady (id : Nat) (wpath : Nat) (isHeld : Bool) (s : State) : steady (postWrite id wpath isHeld s) = steady s := by
  unfold postWrite
  repeat' split
  all_goals simp

@[simp] theorem wakeFlushes_steady (s : State) : steady (wakeFlushes s) = steady s := by
  unfold wakeFlushes
  try dsimp only
  repeat' (first | split | ((refine (steady_foldl _ (fun s x => ?_) _ _).trans ?_) <;> try dsimp only) | ((refine (steady_foldl2 _ (fun s x => ?_) _ _).trans ?_) <;> try dsimp only) | simp)
  all_goals simp_all

@[simp] theorem wrDurable_steady (id : Nat) (s : State) : steady (wrDurable id s) = steady s := by
  unfold wrDurable
  repeat' split
  all_goals simp

@[simp] theorem keepOld_steady (u : Nat) (s : State) : steady (keepOld u s) = steady s := by
  unfold keepOld
  try dsimp only
  repeat' (first | split | ((refine (steady_foldl _ (fun s x => ?_) _ _).trans ?_) <;> try dsimp only) | ((refine (steady_foldl2 _ (fun s x => ?_) _ _).trans ?_) <;> try dsimp only) | simp)
  all_goals simp_all

@[simp] theorem dropOld_steady (s : State) : steady (dropOld s) = steady s := by
  unfold dropOld
  try dsimp only
  repeat' (first | split | ((refine (steady_foldl _ (fun s x => ?_) _ _).trans ?_) <;> try dsimp only) | ((refine (steady_foldl2 _ (fun s x => ?_) _ _).trans ?_) <;> try dsimp only) | simp)
  all_goals simp_all

@[simp] theorem restoreOld_steady (u : Nat) (s : State) : steady (restoreOld u s) = steady s := by
  unfold restoreOld
  try dsimp only
  repeat' (first | split | ((refine (steady_foldl _ (fun s x => ?_) _ _).trans ?_) <;> try dsimp only) | ((refine (steady_foldl2 _ (fun s x => ?_) _ _).trans ?_) <;> try dsimp only) | simp)
  all_goals simp_all

@[simp] theorem convCommit_steady (o pos pen slot : Nat) (s : State) : steady (convCommit o pos pen slot s) = steady s := by
  unfold convCommit
  try dsimp only
  repeat' (first | split | ((refine (steady_foldl _ (fun s x => ?_) _ _).trans ?_) <;> try dsimp only) | ((refine (steady_foldl2 _ (fun s x => ?_) _ _).trans ?_) <;> try dsimp only) | simp)
  all_goals simp_all

@[simp] theorem supersedeBy_steady (older : Wr → Bool) (lo hi : Nat) (s : State) : steady (supersedeBy older lo hi s) = steady s := by
  unfold supersedeBy
  try dsimp only
  repeat' (first | split | ((refine (steady_foldl _ (fun s x => ?_) _ _).trans ?_) <;> try dsimp only) | ((refine (steady_foldl2 _ (fun s x => ?_) _ _).trans ?_) <;> try dsimp only) | simp)
  all_goals simp_all

@[simp] theorem overtake_steady (w : Wr) (lo hi : Nat) (s : State) : steady (overtake w lo hi s) = steady s := by
  unfold overtake
  try dsimp only
  repeat' (first | split | ((refine (steady_foldl _ (fun s x => ?_) _ _).trans ?_) <;> try dsimp only) | ((refine (steady_foldl2 _ (fun s x => ?_) _ _).trans ?_) <;> try dsimp only) | simp)
  all_goals simp_all

@[simp] theorem lseqNext_steady (p : Nat) (s : State) : steady (lseqNext p s) = steady s := by
  unfold lseqNext
  try dsimp only
  repeat' (first | split | ((refine (steady_foldl _ (fun s x => ?_) _ _).trans ?_) <;> try dsimp only) | ((refine (steady_foldl2 _ (fun s x => ?_) _ _).trans ?_) <;> try dsimp only) | simp)
  all_goals simp_all

@[simp] theorem pieceDurable_steady (id pos pen slot : Nat) (s : State) : steady (pieceDurable id pos pen slot s) = steady s := by
  unfold pieceDurable
  try dsimp only
  repeat' (first | split | ((refine (steady_foldl _ (fun s x => ?_) _ _).trans ?_) <;> try dsimp only) | ((refine (steady_foldl2 _ (fun s x => ?_) _ _).trans ?_) <;> try dsimp only) | simp)
  all_goals simp_all

theorem landingPen_fresh_steady {y : Nat} {s : State} {r : Nat × State} (h : landingPen.fresh y s = some r) : steady r.2 = steady s := by
  unfold landingPen.fresh at h
  split at h
  · cases h
  · obtain ⟨q, hq, rfl⟩ := Option.map_eq_some_iff.mp h
    have := formPad_steady hq
    simpa using this

theorem landingPen_steady {y : Nat} {s : State} {r : Nat × State} (h : landingPen y s = some r) : steady r.2 = steady s := by
  unfold landingPen at h
  split at h
  · split at h
    · cases h; rfl
    · rw [landingPen_fresh_steady h]; rfl
  · exact landingPen_fresh_steady h

@[simp] theorem catchUp_steady (d b wl cls : Nat) (onebit : Bool) (s : State) : steady (catchUp d b wl cls onebit s) = steady s := by
  unfold catchUp
  try dsimp only
  repeat' (first | split | ((refine (steady_foldl _ (fun s x => ?_) _ _).trans ?_) <;> try dsimp only) | ((refine (steady_foldl2 _ (fun s x => ?_) _ _).trans ?_) <;> try dsimp only) | simp)
  all_goals simp_all

@[simp] theorem landWork_steady (id cls : Nat) (mk : Nat → Work) (s : State) : steady (landWork id cls mk s) = steady s := by
  unfold landWork
  split
  · rfl
  · simp only [apply_ite steady, queueProg_steady, catchUp_steady, updPen_steady, ite_self]

@[simp] theorem landChunk_steady (id : Nat) (ps : List (Nat × Nat)) (cls : Nat) (s : State) : steady (landChunk id ps cls s) = steady s := by simp [landChunk]

@[simp] theorem landAll_steady (y : Nat) : ∀ (fuel : Nat) (ps : List (Nat × Nat)) (s : State), steady (landAll y fuel ps s) = steady s
  | _, [], s => by unfold landAll; rfl
  | 0, _ :: _, s => rfl
  | fuel + 1, p :: ps, s => by
    unfold landAll
    split
    · dsimp only; split <;> simp
    · rename_i h
      dsimp only
      rw [landAll_steady y fuel, landChunk_steady, landingPen_steady h]

@[simp] theorem stripeParity_steady (pid : Nat) (p : Pen) (n cls : Nat) (s : State) : steady (stripeParity pid p n cls s) = steady s := by
  unfold stripeParity
  try dsimp only
  repeat' (first | split | ((refine (steady_foldl _ (fun s x => ?_) _ _).trans ?_) <;> try dsimp only) | ((refine (steady_foldl2 _ (fun s x => ?_) _ _).trans ?_) <;> try dsimp only) | simp)
  all_goals simp_all

@[simp] theorem queueUnit_steady (z k : Nat) (isFold : Bool) (s : State) : steady (queueUnit z k isFold s) = steady s := by
  unfold queueUnit
  repeat' split
  all_goals simp

@[simp] theorem withdraw_steady (ps : List (Nat × Nat)) (s : State) : steady (withdraw ps s) = steady s := by
  unfold withdraw
  try dsimp only
  repeat' (first | split | ((refine (steady_foldl _ (fun s x => ?_) _ _).trans ?_) <;> try dsimp only) | ((refine (steady_foldl2 _ (fun s x => ?_) _ _).trans ?_) <;> try dsimp only) | simp)
  all_goals simp_all

@[simp] theorem directUnits_steady (z : Nat) : ∀ (fuel : Nat) (s : State), steady (directUnits z fuel s) = steady s
  | 0, _ => rfl
  | fuel + 1, s => by
    unfold directUnits
    split
    · dsimp only
      split
      · rw [directUnits_steady z fuel, queueUnit_steady, withdraw_steady]
      · rfl
    · rfl

theorem convPen_pick_steady {hot : Bool} {s : State} {r : Nat × State} (h : convPen.pick hot s = some r) : steady r.2 = steady s := by
  unfold convPen.pick at h
  unfold Option.orElse at h
  split at h
  · rename_i hm
    obtain ⟨q, _, rfl⟩ := Option.map_eq_some_iff.mp hm
    cases h
    cases hot <;> rfl
  · dsimp only at h
    split at h
    · split at h
      · cases h; rfl
      · cases h
    · cases h

@[simp] theorem dropParity_steady (pid stripe : Nat) (s : State) : steady (dropParity pid stripe s) = steady s := by
  unfold dropParity
  try dsimp only
  repeat' (first | split | ((refine (steady_foldl _ (fun s x => ?_) _ _).trans ?_) <;> try dsimp only) | ((refine (steady_foldl2 _ (fun s x => ?_) _ _).trans ?_) <;> try dsimp only) | simp)
  all_goals simp_all

@[simp] theorem dropUnits_steady (pick : AOp → Bool) (s : State) : steady (dropUnits pick s) = steady s := by
  unfold dropUnits
  try dsimp only
  repeat' (first | split | ((refine (steady_foldl _ (fun s x => ?_) _ _).trans ?_) <;> try dsimp only) | ((refine (steady_foldl2 _ (fun s x => ?_) _ _).trans ?_) <;> try dsimp only) | simp)
  all_goals simp_all

@[simp] theorem divertDirect_steady (s : State) : steady (divertDirect s) = steady s := by
  unfold divertDirect
  try dsimp only
  repeat' (first | split | ((refine (steady_foldl _ (fun s x => ?_) _ _).trans ?_) <;> try dsimp only) | ((refine (steady_foldl2 _ (fun s x => ?_) _ _).trans ?_) <;> try dsimp only) | simp)
  all_goals simp_all

theorem convPen_steady {hot : Bool} {s : State} {r : Nat × State} (h : convPen hot s = some r) : steady r.2 = steady s := by
  unfold convPen at h
  dsimp only at h
  split at h
  · split at h
    · cases h; rfl
    · exact convPen_pick_steady h
  · exact convPen_pick_steady h

@[simp] theorem landUnits_steady (hot : Bool) : ∀ (fuel : Nat) (us : List (Nat × List (Nat × Nat))) (s : State),
    steady (landUnits hot fuel us s) = steady s
  | _, [], s => by unfold landUnits; rfl
  | 0, _ :: _, s => rfl
  | fuel + 1, u :: us, s => by
    unfold landUnits
    split
    · rfl
    · rename_i h
      dsimp only
      rw [landUnits_steady hot fuel, landChunk_steady, convPen_steady h]

@[simp] theorem landConv_steady (ps : List (Nat × Nat)) (s : State) : steady (landConv ps s) = steady s := by simp [landConv]

@[simp] theorem placeWrite_steady (id : Nat) (s : State) : steady (placeWrite id s) = steady s := by
  unfold placeWrite
  repeat' split
  all_goals simp

@[simp] theorem placeWaiting_steady (y : Nat) (s : State) : steady (placeWaiting y s) = steady s := by simp [placeWaiting]

@[simp] theorem loseUnits_steady (pid : Nat) (s : State) : steady (loseUnits pid s) = steady s := by
  unfold loseUnits
  try dsimp only
  repeat' (first | split | ((refine (steady_foldl _ (fun s x => ?_) _ _).trans ?_) <;> try dsimp only) | ((refine (steady_foldl2 _ (fun s x => ?_) _ _).trans ?_) <;> try dsimp only) | simp)
  all_goals simp_all

@[simp] theorem decideOne_steady (id : Nat) (s : State) : steady (decideOne id s) = steady s := by
  unfold decideOne
  try dsimp only
  repeat' (first | split | ((refine (steady_foldl _ (fun s x => ?_) _ _).trans ?_) <;> try dsimp only) | ((refine (steady_foldl2 _ (fun s x => ?_) _ _).trans ?_) <;> try dsimp only) | simp)
  all_goals simp_all

@[simp] theorem decideAll_steady (s : State) : steady (decideAll s) = steady s := by
  unfold decideAll
  try dsimp only
  repeat' (first | split | ((refine (steady_foldl _ (fun s x => ?_) _ _).trans ?_) <;> try dsimp only) | ((refine (steady_foldl2 _ (fun s x => ?_) _ _).trans ?_) <;> try dsimp only) | simp)
  all_goals simp_all

@[simp] theorem failWrite_steady (id : Nat) (s : State) : steady (failWrite id s) = steady s := by unfold failWrite; split <;> simp

@[simp] theorem discardWrite_steady (id : Nat) (s : State) : steady (discardWrite id s) = steady s := by unfold discardWrite; split <;> simp

@[simp] theorem cutZone_steady (z wp : Nat) (s : State) : steady (cutZone z wp s) = steady s := by
  unfold cutZone
  repeat' split
  all_goals simp

@[simp] theorem cutWrite_steady (w : Wr) (s : State) : steady (cutWrite w s) = steady s := by
  unfold cutWrite
  try dsimp only
  repeat' (first | split | ((refine (steady_foldl _ (fun s x => ?_) _ _).trans ?_) <;> try dsimp only) | ((refine (steady_foldl2 _ (fun s x => ?_) _ _).trans ?_) <;> try dsimp only) | simp)
  all_goals simp_all

@[simp] theorem cutAll_steady (s : State) : steady (cutAll s) = steady s := by
  unfold cutAll
  try dsimp only
  repeat' (first | split | ((refine (steady_foldl _ (fun s x => ?_) _ _).trans ?_) <;> try dsimp only) | ((refine (steady_foldl2 _ (fun s x => ?_) _ _).trans ?_) <;> try dsimp only) | simp)
  all_goals simp_all

@[simp] theorem freshConv_steady (src : Nat) (s : State) : steady (freshConv src s) = steady s := by
  unfold freshConv
  split
  · rfl
  · rename_i h
    have := formPad_steady h
    simpa using this

@[simp] theorem moveRow_steady (r y : Nat) (s : State) : steady (moveRow r y s) = steady s := by
  unfold moveRow
  try dsimp only
  repeat' (first | split | ((refine (steady_foldl _ (fun s x => ?_) _ _).trans ?_) <;> try dsimp only) | ((refine (steady_foldl2 _ (fun s x => ?_) _ _).trans ?_) <;> try dsimp only) | simp)
  all_goals simp_all

@[simp] theorem settleRows_steady (s : State) : steady (settleRows s) = steady s := by
  unfold settleRows
  try dsimp only
  repeat' (first | split | ((refine (steady_foldl _ (fun s x => ?_) _ _).trans ?_) <;> try dsimp only) | ((refine (steady_foldl2 _ (fun s x => ?_) _ _).trans ?_) <;> try dsimp only) | simp)
  all_goals simp_all

end Sys2Proof.Machine
end

