-- ==== Sys2Proof/Laws/KeptZones.lean ====
section
/-! SUPPORT. The same for Slack, the cipher's operations, reads, zones and placement. -/

namespace Sys2Proof.Machine
open Sys2Proof

set_option linter.unusedTactic false
set_option linter.unreachableTactic false
set_option linter.unusedSimpArgs false

/-! ## CadOps -/

@[simp] theorem reportBreak_steady (cause : Nat) (y : Option Nat) (s : State) : steady (reportBreak cause y s) = steady s := by
  unfold reportBreak
  repeat' split
  all_goals simp

@[simp] theorem endBreak_steady (cause : Nat) (y : Option Nat) (s : State) : steady (endBreak cause y s) = steady s := by unfold endBreak; split <;> simp

@[simp] theorem padWatch_steady (y : Nat) (s : State) : steady (padWatch y s) = steady s := by
  unfold padWatch
  try dsimp only
  repeat' (first | split | ((refine (steady_foldl _ (fun s x => ?_) _ _).trans ?_) <;> try dsimp only) | ((refine (steady_foldl2 _ (fun s x => ?_) _ _).trans ?_) <;> try dsimp only) | simp)
  all_goals simp_all

@[simp] theorem keepReserve_steady (s : State) : steady (keepReserve s) = steady s := by
  unfold keepReserve
  try dsimp only
  repeat' (first | split | ((refine (steady_foldl _ (fun s x => ?_) _ _).trans ?_) <;> try dsimp only) | ((refine (steady_foldl2 _ (fun s x => ?_) _ _).trans ?_) <;> try dsimp only) | simp)
  all_goals first
    | ((refine (formQlc_steady ‹formQlc _ _ _ _ = some _›).trans ?_); simp; done)
    | ((refine (formPad_steady ‹formPad _ _ _ = some _›).trans ?_); simp; done)
    | ((refine (formPadShed_steady ‹formPadShed _ _ _ = some _›).trans ?_); simp; done)
    | ((refine (landingPen_steady ‹landingPen _ _ = some _›).trans ?_); simp; done)
    | ((refine (convPen_steady ‹convPen _ _ = some _›).trans ?_); simp; done)
    | ((refine (reserve_steady ‹reserve _ _ _ _ = some _›).trans ?_); simp; done)
    | simp_all

@[simp] theorem slackWatch_steady (s : State) : steady (slackWatch s) = steady s := by
  unfold slackWatch
  try dsimp only
  repeat' (first | split | ((refine (steady_foldl _ (fun s x => ?_) _ _).trans ?_) <;> try dsimp only) | ((refine (steady_foldl2 _ (fun s x => ?_) _ _).trans ?_) <;> try dsimp only) | simp)
  all_goals simp_all

@[simp] theorem convWatch_steady (s : State) : steady (convWatch s) = steady s := by
  unfold convWatch
  try dsimp only
  repeat' (first | split | ((refine (steady_foldl _ (fun s x => ?_) _ _).trans ?_) <;> try dsimp only) | ((refine (steady_foldl2 _ (fun s x => ?_) _ _).trans ?_) <;> try dsimp only) | simp)
  all_goals simp_all

@[simp] theorem landWatch_steady (s : State) : steady (landWatch s) = steady s := by
  unfold landWatch
  try dsimp only
  repeat' (first | split | ((refine (steady_foldl _ (fun s x => ?_) _ _).trans ?_) <;> try dsimp only) | ((refine (steady_foldl2 _ (fun s x => ?_) _ _).trans ?_) <;> try dsimp only) | simp)
  all_goals simp_all

@[simp] theorem setToken_steady (lvl : Nat) (s : State) : steady (setToken lvl s) = steady s := by unfold setToken; split <;> simp

@[simp] theorem headerCmd_steady (cmd arg seq : Nat) (s : State) : steady (headerCmd cmd arg seq s) = steady s := by
  unfold headerCmd
  repeat' split
  all_goals simp

@[simp] theorem setVer_steady (v : Nat) (s : State) : steady (setVer v s) = steady s := by
  unfold setVer
  repeat' split
  all_goals simp

@[simp] theorem takeSched_steady (s : State) : steady (takeSched s) = steady s := by
  unfold takeSched
  repeat' split
  all_goals simp

@[simp] theorem epochWork_steady (s : State) : steady (epochWork s) = steady s := by
  unfold epochWork
  try dsimp only
  repeat' (first | split | ((refine (steady_foldl _ (fun s x => ?_) _ _).trans ?_) <;> try dsimp only) | ((refine (steady_foldl2 _ (fun s x => ?_) _ _).trans ?_) <;> try dsimp only) | simp)
  all_goals simp_all

@[simp] theorem driveTurn_steady (s : State) : steady (driveTurn s) = steady s := by
  unfold driveTurn
  try dsimp only
  repeat' (first | split | ((refine (steady_foldl _ (fun s x => ?_) _ _).trans ?_) <;> try dsimp only) | ((refine (steady_foldl2 _ (fun s x => ?_) _ _).trans ?_) <;> try dsimp only) | simp)
  all_goals simp_all

@[simp] theorem rootTurn_steady (s : State) : steady (rootTurn s) = steady s := by
  unfold rootTurn
  try dsimp only
  repeat' (first | split | ((refine (steady_foldl _ (fun s x => ?_) _ _).trans ?_) <;> try dsimp only) | ((refine (steady_foldl2 _ (fun s x => ?_) _ _).trans ?_) <;> try dsimp only) | simp)
  all_goals simp_all

@[simp] theorem turnEnds_steady (s : State) : steady (turnEnds s) = steady s := by unfold turnEnds; split <;> simp

@[simp] theorem lockRises_steady (s : State) : steady (lockRises s) = steady s := by unfold lockRises; split <;> simp

@[simp] theorem softTurn_steady (s : State) : steady (softTurn s) = steady s := by
  unfold softTurn
  try dsimp only
  repeat' (first | split | ((refine (steady_foldl _ (fun s x => ?_) _ _).trans ?_) <;> try dsimp only) | ((refine (steady_foldl2 _ (fun s x => ?_) _ _).trans ?_) <;> try dsimp only) | simp)
  all_goals simp_all

@[simp] theorem newTurn_steady (s : State) : steady (newTurn s) = steady s := by
  unfold newTurn
  try dsimp only
  repeat' (first | split | ((refine (steady_foldl _ (fun s x => ?_) _ _).trans ?_) <;> try dsimp only) | ((refine (steady_foldl2 _ (fun s x => ?_) _ _).trans ?_) <;> try dsimp only) | simp)
  all_goals simp_all

@[simp] theorem closePass_steady (p : Pass) (x : Summary) (s : State) : steady (closePass p x s) = steady s := by
  unfold closePass
  try dsimp only
  repeat' (first | split | ((refine (steady_foldl _ (fun s x => ?_) _ _).trans ?_) <;> try dsimp only) | ((refine (steady_foldl2 _ (fun s x => ?_) _ _).trans ?_) <;> try dsimp only) | simp)
  all_goals simp_all

@[simp] theorem dropComb_steady (s : State) : steady (dropComb s) = steady s := by
  unfold dropComb
  try dsimp only
  repeat' (first | split | ((refine (steady_foldl _ (fun s x => ?_) _ _).trans ?_) <;> try dsimp only) | ((refine (steady_foldl2 _ (fun s x => ?_) _ _).trans ?_) <;> try dsimp only) | simp)
  all_goals simp_all

@[simp] theorem endPasses_steady (s : State) : steady (endPasses s) = steady s := by
  unfold endPasses
  try dsimp only
  repeat' (first | split | ((refine (steady_foldl _ (fun s x => ?_) _ _).trans ?_) <;> try dsimp only) | ((refine (steady_foldl2 _ (fun s x => ?_) _ _).trans ?_) <;> try dsimp only) | simp)
  all_goals simp_all

@[simp] theorem dropPasses_steady (gone : Pass → Bool) (s : State) : steady (dropPasses gone s) = steady s := by
  unfold dropPasses
  extract_lets left t
  have ht : steady t = steady s := by
    simp only [t]
    split
    · split <;> simp
    · rfl
  exact ht

@[simp] theorem passMicrosecond_steady (s : State) : steady (passMicrosecond s) = steady s := by simp [passMicrosecond]

/-! ## Slack -/

@[simp] theorem setWt_steady (fail : Bool) (s : State) : steady (setWt fail s) = steady s := by unfold setWt; split <;> simp

@[simp] theorem clearWt_steady (s : State) : steady (clearWt s) = steady s := by simp [clearWt]

@[simp] theorem proofTrigger_steady (soft : Bool) (s : State) : steady (proofTrigger soft s) = steady s := by
  unfold proofTrigger
  repeat' split
  all_goals rfl

@[simp] theorem proofDone_steady (code : Nat) (s : State) : steady (proofDone code s) = steady s := by
  unfold proofDone
  try dsimp only
  repeat' (first | split | ((refine (steady_foldl _ (fun s x => ?_) _ _).trans ?_) <;> try dsimp only) | ((refine (steady_foldl2 _ (fun s x => ?_) _ _).trans ?_) <;> try dsimp only) | simp)
  all_goals simp_all

@[simp] theorem proofStamps_steady (s : State) : steady (proofStamps s) = steady s := by simp [proofStamps]

@[simp] theorem proofInterrupt_steady (wt : Bool) (s : State) : steady (proofInterrupt wt s) = steady s := by
  unfold proofInterrupt
  try dsimp only
  repeat' (first | split | ((refine (steady_foldl _ (fun s x => ?_) _ _).trans ?_) <;> try dsimp only) | ((refine (steady_foldl2 _ (fun s x => ?_) _ _).trans ?_) <;> try dsimp only) | simp)
  all_goals simp_all

@[simp] theorem stageRest_steady (id : Nat) (mk : Nat → Nat → Blk → Nat × Piece) (rest : List Blk) (s : State) : steady (stageRest id mk rest s) = steady s := by simp [stageRest]

@[simp] theorem slackReportOn_steady (k : Ctx) (s : State) : steady (slackReportOn k s) = steady s := by
  unfold slackReportOn
  try dsimp only
  repeat' (first | split | ((refine (steady_foldl _ (fun s x => ?_) _ _).trans ?_) <;> try dsimp only) | ((refine (steady_foldl2 _ (fun s x => ?_) _ _).trans ?_) <;> try dsimp only) | simp)
  all_goals simp_all

/-! ## CiphOps -/

@[simp] theorem clearSlots_steady (gone : Nat → Bool) (s : State) : steady (clearSlots gone s) = steady s := by simp [clearSlots]

@[simp] theorem genKeys_steady (n cause : Nat) (s : State) : steady (genKeys n cause s) = steady s := by simp [genKeys]

@[simp] theorem dropKeys_steady (n : Nat) (s : State) : steady (dropKeys n s) = steady s := by simp [dropKeys]

@[simp] theorem cryptoErase_steady (s : State) : steady (cryptoErase s) = steady s := by
  unfold cryptoErase
  try dsimp only
  repeat' (first | split | ((refine (steady_foldl _ (fun s x => ?_) _ _).trans ?_) <;> try dsimp only) | ((refine (steady_foldl2 _ (fun s x => ?_) _ _).trans ?_) <;> try dsimp only) | simp)
  all_goals simp_all

@[simp] theorem refuseSeal_steady (k : Ctx) (z : Nat) (s : State) : steady (refuseSeal k z s) = steady s := by simp [refuseSeal]

@[simp] theorem bindSeal_steady (k : Ctx) (z slot : Nat) (s : State) : steady (bindSeal k z slot s).2 = steady s := by
  unfold bindSeal
  repeat' split
  all_goals simp

@[simp] theorem unbind_steady (z : Nat) (s : State) : steady (unbind z s) = steady s := by simp [unbind]

@[simp] theorem sealAfter_steady (z : Nat) (s : State) : steady (sealAfter z s) = steady s := by
  unfold sealAfter
  try dsimp only
  repeat' (first | split | ((refine (steady_foldl _ (fun s x => ?_) _ _).trans ?_) <;> try dsimp only) | ((refine (steady_foldl2 _ (fun s x => ?_) _ _).trans ?_) <;> try dsimp only) | simp)
  all_goals simp_all

@[simp] theorem piRecord_steady (f lba kind : Nat) (s : State) : steady (piRecord f lba kind s) = steady s := by simp [piRecord]

/-! ## ReadOps -/

@[simp] theorem updGdc_steady (n : Nat) (g : Gdc → Gdc) (s : State) : steady (updGdc n g s) = steady s := by simp [updGdc]

@[simp] theorem updRd_steady (id : Nat) (g : Rd → Rd) (s : State) : steady (updRd id g s) = steady s := by
  unfold updRd
  repeat' split
  all_goals simp

@[simp] theorem queueMember_steady (rid : Nat) (t : Target) (m : Nat) (s : State) : steady (queueMember rid t m s) = steady s := by
  unfold queueMember
  try dsimp only
  repeat' (first | split | ((refine (steady_foldl _ (fun s x => ?_) _ _).trans ?_) <;> try dsimp only) | ((refine (steady_foldl2 _ (fun s x => ?_) _ _).trans ?_) <;> try dsimp only) | simp)
  all_goals simp_all

@[simp] theorem queueRecon_steady (id o q path : Nat) (t : Target) (s : State) : steady (queueRecon id o q path t s) = steady s := by
  unfold queueRecon
  exact (steady_foldl _ (fun s m => queueMember_steady _ _ _ s) _ _).trans rfl

@[simp] theorem unrecovered_steady (pen die o q : Nat) (s : State) : steady (unrecovered pen die o q s) = steady s := by simp [unrecovered]

@[simp] theorem readTarget_steady (id o q : Nat) (t : Target) (s : State) : steady (readTarget id o q t s).2 = steady s := by
  unfold readTarget
  dsimp only
  repeat' split
  all_goals simp

@[simp] theorem startRead_steady (id o q : Nat) (p : Piece) (s : State) : steady (startRead id o q p s).2 = steady s := by
  unfold startRead
  dsimp only
  repeat' split
  all_goals simp

@[simp] theorem fillPart_steady (id : Nat) (fua : Bool) (md : Nat) (p0 : RPart) (s : State) : steady (fillPart id fua md p0 s).2 = steady s := by
  unfold fillPart
  try dsimp only
  repeat' (first | split | ((refine (steady_foldl _ (fun s x => ?_) _ _).trans ?_) <;> try dsimp only) | ((refine (steady_foldl2 _ (fun s x => ?_) _ _).trans ?_) <;> try dsimp only) | simp)
  all_goals simp_all

@[simp] theorem fillRd_steady (id md : Nat) (rd : Rd) (s : State) : steady (fillRd id md rd s).2 = steady s := by
  unfold fillRd
  try dsimp only
  repeat' (first | split | ((refine (steady_foldl _ (fun s x => ?_) _ _).trans ?_) <;> try dsimp only) | ((refine (steady_foldl2 _ (fun s x => ?_) _ _).trans ?_) <;> try dsimp only) | simp)
  all_goals simp_all

@[simp] theorem sealFailures_steady (f : Nat) (cs : List ((Nat × Nat) × Nat)) (s : State) : steady (sealFailures f cs s) = steady s := by
  unfold sealFailures
  try dsimp only
  repeat' (first | split | ((refine (steady_foldl _ (fun s x => ?_) _ _).trans ?_) <;> try dsimp only) | ((refine (steady_foldl2 _ (fun s x => ?_) _ _).trans ?_) <;> try dsimp only) | simp)
  all_goals simp_all

@[simp] theorem guardLost_steady (p : RPart) (s : State) : steady (guardLost p s) = steady s := by
  unfold guardLost
  split <;> simp

@[simp] theorem piNote_steady (f lba : Nat) (r : Nat × Option Nat) (p : RPart) (s : State) : steady (piNote f lba r p s) = steady s := by
  unfold piNote
  repeat' split
  all_goals simp

@[simp] theorem finishRead_steady (k : Ctx) (s : State) : steady (finishRead k s) = steady s := by
  unfold finishRead
  try dsimp only
  repeat' (first | split | ((refine (steady_foldl _ (fun s x => ?_) _ _).trans ?_) <;> try dsimp only) | ((refine (steady_foldl2 _ (fun s x => ?_) _ _).trans ?_) <;> try dsimp only) | simp)
  all_goals simp_all

@[simp] theorem finishHhRead_steady (k : Ctx) (s : State) : steady (finishHhRead k s) = steady s := by
  unfold finishHhRead
  try dsimp only
  repeat' (first | split | ((refine (steady_foldl _ (fun s x => ?_) _ _).trans ?_) <;> try dsimp only) | ((refine (steady_foldl2 _ (fun s x => ?_) _ _).trans ?_) <;> try dsimp only) | simp)
  all_goals simp_all

@[simp] theorem finishSeal_steady (z : Nat) (k : Ctx) (s : State) : steady (finishSeal z k s) = steady s := by
  unfold finishSeal
  repeat' split
  all_goals simp

@[simp] theorem fenceGather_steady (f : Nat) (s : State) : steady (fenceGather f s) = steady s := by
  unfold fenceGather
  try dsimp only
  repeat' (first | split | ((refine (steady_foldl _ (fun s x => ?_) _ _).trans ?_) <;> try dsimp only) | ((refine (steady_foldl2 _ (fun s x => ?_) _ _).trans ?_) <;> try dsimp only) | simp)
  all_goals simp_all

@[simp] theorem updPass_steady (g : Pass → Pass) (s : State) : steady (updPass g s) = steady s := by
  unfold updPass
  try dsimp only
  repeat' (first | split | ((refine (steady_foldl _ (fun s x => ?_) _ _).trans ?_) <;> try dsimp only) | ((refine (steady_foldl2 _ (fun s x => ?_) _ _).trans ?_) <;> try dsimp only) | simp)
  all_goals simp_all

@[simp] theorem combCount_steady (g : Summary → Summary) (s : State) : steady (combCount g s) = steady s := by
  unfold combCount
  try dsimp only
  repeat' (first | split | ((refine (steady_foldl _ (fun s x => ?_) _ _).trans ?_) <;> try dsimp only) | ((refine (steady_foldl2 _ (fun s x => ?_) _ _).trans ?_) <;> try dsimp only) | simp)
  all_goals simp_all

@[simp] theorem combPump_steady (s : State) : steady (combPump s) = steady s := by
  unfold combPump
  dsimp only
  repeat' split
  all_goals first
    | rfl
    | exact updPass_steady _ _
    | exact (readTarget_steady _ _ _ _ _).trans (updPass_steady _ _)
    | exact (combCount_steady _ _).trans (updPass_steady _ _)

@[simp] theorem readMap_steady (k : Ctx) (s : State) : steady (readMap k s) = steady s := by
  unfold readMap
  try dsimp only
  repeat' (first | split | ((refine (steady_foldl _ (fun s x => ?_) _ _).trans ?_) <;> try dsimp only) | ((refine (steady_foldl2 _ (fun s x => ?_) _ _).trans ?_) <;> try dsimp only) | simp)
  all_goals simp_all

@[simp] theorem pumpCtx_steady (q : Nat) (s : State) : steady (pumpCtx q s) = steady s := by
  unfold pumpCtx
  try dsimp only
  repeat' (first | split | ((refine (steady_foldl _ (fun s x => ?_) _ _).trans ?_) <;> try dsimp only) | ((refine (steady_foldl2 _ (fun s x => ?_) _ _).trans ?_) <;> try dsimp only) | simp)
  all_goals simp_all

@[simp] theorem freeFenced_steady (s : State) : steady (freeFenced s) = steady s := by simp [freeFenced]

@[simp] theorem pumpReads_steady (s : State) : steady (pumpReads s) = steady s := by
  unfold pumpReads
  try dsimp only
  repeat' (first | split | ((refine (steady_foldl _ (fun s x => ?_) _ _).trans ?_) <;> try dsimp only) | ((refine (steady_foldl2 _ (fun s x => ?_) _ _).trans ?_) <;> try dsimp only) | simp)
  all_goals simp_all

/-! ## Gate -/

@[simp] theorem gateForm_steady (allowed : Bool) (k : Ctx) (s : State) (f : Ctx → State → State)
    (h : ∀ k s, steady (f k s) = steady s) : steady (gateForm allowed k s f) = steady s := by
  unfold gateForm
  repeat' split
  all_goals simp [h]

@[simp] theorem gateAdmin_steady (allowed san : Bool) (k : Ctx) (s : State) (f : Ctx → State → State)
    (h : ∀ k s, steady (f k s) = steady s) : steady (gateAdmin allowed san k s f) = steady s := by
  refine gateForm_steady _ _ _ _ (fun k s => ?_)
  repeat' split
  all_goals simp [h]

@[simp] theorem gateIo_steady (k : Ctx) (s : State) (f : Ctx → State → State)
    (h : ∀ k s, steady (f k s) = steady s) : steady (gateIo k s f) = steady s := by
  refine gateForm_steady _ _ _ _ (fun k s => ?_)
  repeat' split
  all_goals simp [h]

@[simp] theorem denyPerm_steady (k : Ctx) (s : State) : steady (denyPerm k s) = steady s := by simp [denyPerm]

@[simp] theorem withNs_steady (k : Ctx) (s : State) (f : Ns → State) (h : ∀ n, steady (f n) = steady s) :
    steady (withNs k s f) = steady s := by
  unfold withNs
  split
  · exact h _
  · simp

/-! ## ZoneOps -/

@[simp] theorem freeRuns_steady : ∀ (l : List (Nat × Nat × Nat)) (k : Nat) (s : State), steady (freeRuns l k s) = steady s
  | [], _, _ => rfl
  | (p, f, c) :: t, k, s => by
    unfold freeRuns
    dsimp only
    split
    · rw [updPen_steady, freeRuns_steady t]
    · exact freeRuns_steady t _ s

@[simp] theorem giveBack_steady (runs : List (Nat × Nat × Nat)) (k : Nat) (s : State) : steady (giveBack runs k s).2 = steady s :=
  freeRuns_steady runs k s

@[simp] theorem makeFull_steady (z : Nat) (s : State) : steady (makeFull z s) = steady s := by unfold makeFull; split <;> simp

@[simp] theorem finishDiscarded_steady (id : Nat) (s : State) : steady (finishDiscarded id s) = steady s := by simp [finishDiscarded]

@[simp] theorem discardZoneWrites_steady (z : Nat) (s : State) : steady (discardZoneWrites z s) = steady s := by
  unfold discardZoneWrites
  try dsimp only
  repeat' (first | split | ((refine (steady_foldl _ (fun s x => ?_) _ _).trans ?_) <;> try dsimp only) | ((refine (steady_foldl2 _ (fun s x => ?_) _ _).trans ?_) <;> try dsimp only) | simp)
  all_goals simp_all

@[simp] theorem dropUnitOps_steady (z : Nat) (s : State) : steady (dropUnitOps z s) = steady s := by simp [dropUnitOps]

@[simp] theorem addStale_steady (l : List (Nat × Nat)) (s : State) : steady (addStale l s) = steady s := by
  unfold addStale
  try dsimp only
  repeat' (first | split | ((refine (steady_foldl _ (fun s x => ?_) _ _).trans ?_) <;> try dsimp only) | ((refine (steady_foldl2 _ (fun s x => ?_) _ _).trans ?_) <;> try dsimp only) | simp)
  all_goals simp_all

@[simp] theorem discardZone_steady (z : Nat) (s : State) : steady (discardZone z s) = steady s := by unfold discardZone; split <;> simp

@[simp] theorem resetZone_steady (z : Nat) (s : State) : steady (resetZone z s) = steady s := by
  unfold resetZone
  repeat' split
  all_goals simp

@[simp] theorem makeOffline_steady (z cause : Nat) (s : State) : steady (makeOffline z cause s) = steady s := by
  unfold makeOffline
  repeat' split
  all_goals simp

theorem openCheck_steady {f : Nat} {s t : State} (h : openCheck f s = some t) : steady t = steady s := by
  unfold openCheck at h
  dsimp only at h
  repeat' split at h
  all_goals (cases h)
  all_goals simp

theorem reserveOr_steady {y lcl n : Nat} {p : Prop} [Decidable p] {s : State} {r : List (Nat × Nat × Nat) × State}
    (h : (if 64 ≤ y then none else if p then some ([], s) else reserve y lcl n s) = some r) : steady r.2 = steady s := by
  by_cases hy : 64 ≤ y
  · simp [hy] at h
  · by_cases hp : p
    · simp [hy, hp] at h; rw [← h]
    · simp only [hy, hp, if_false] at h; exact reserve_steady h

@[simp] theorem reserveFor_steady (f z y lcl : Nat) (s : State) : steady (reserveFor f z y lcl s).2 = steady s := by
  unfold reserveFor
  extract_lets held need e
  have he : steady e = steady s := raise_steady _ _ _ _
  clear_value held need e
  split
  · rename_i runs s1 h
    have hs : steady s1 = steady s := reserveOr_steady h
    simp [hs]
  · dsimp only
    by_cases hy : y < 64 <;> simp [hy, he]

@[simp] theorem activate_steady (k : Ctx) (z : Nat) (a : Attr) (tgt : ZS) (s : State) : steady (activate k z a tgt s).2 = steady s := by
  unfold activate
  split
  · rfl
  · dsimp only
    split
    · rfl
    · rename_i s1 h
      have hs : steady s1 = steady s := by
        split at h
        · cases h; rfl
        · exact openCheck_steady h
      repeat' split
      all_goals simp [hs]

@[simp] theorem writeModeStatus_steady (y : Nat) (s : State) : steady (writeModeStatus y s).2 = steady s := by
  unfold writeModeStatus
  repeat' split
  all_goals simp

@[simp] theorem takeWrite_steady (k : Ctx) (o pos len yard gen : Nat) (z : Option Zone) (fua : Bool) (blks : List Blk) (s : State) : steady (takeWrite k o pos len yard gen z fua blks s).2 = steady s := by
  unfold takeWrite
  try dsimp only
  repeat' (first | split | ((refine (steady_foldl _ (fun s x => ?_) _ _).trans ?_) <;> try dsimp only) | ((refine (steady_foldl2 _ (fun s x => ?_) _ _).trans ?_) <;> try dsimp only) | simp)
  all_goals simp_all

@[simp] theorem acceptZone_steady (z len : Nat) (s : State) : steady (acceptZone z len s) = steady s := by
  unfold acceptZone
  try dsimp only
  repeat' (first | split | ((refine (steady_foldl _ (fun s x => ?_) _ _).trans ?_) <;> try dsimp only) | ((refine (steady_foldl2 _ (fun s x => ?_) _ _).trans ?_) <;> try dsimp only) | simp)
  all_goals simp_all

@[simp] theorem afterStage_steady (k : Ctx) (n : Ns) (id lba : Nat) (blks : List Blk) (s : State) : steady (afterStage k n id lba blks s) = steady s := by
  unfold afterStage
  repeat' split
  all_goals simp

@[simp] theorem zoneWrite_steady (kind : WKind) (n : Ns) (blks : List Blk) (k : Ctx) (s : State) :
    steady (zoneWrite kind n blks k s) = steady s := by
  unfold zoneWrite
  extract_lets c lba cnt
  clear_value c lba cnt
  split
  · simp
  split
  · simp
  split
  · simp
  rename_i q hq
  extract_lets m s1 p i r s2
  have hm : steady m.2 = steady s := writeModeStatus_steady _ _
  have hs : steady s1 = steady s := hm
  have hr : steady r.2 = steady s := by
    simp only [r]
    split
    · exact hs
    · rw [activate_steady, hs]
  have hs2 : steady s2 = steady s := hr
  clear_value s2 r i p s1 m
  repeat' (first | with_reducible rfl | exact hs2 | rw [afterStage_steady, acceptZone_steady, takeWrite_steady, hs2] | split | simp only [fin_steady, refuseSeal_steady, hm, hs, hr])

@[simp] theorem supersede_steady (lo hi : Nat) (s : State) : steady (supersede lo hi s) = steady s := by
  unfold supersede
  try dsimp only
  repeat' (first | split | ((refine (steady_foldl _ (fun s x => ?_) _ _).trans ?_) <;> try dsimp only) | ((refine (steady_foldl2 _ (fun s x => ?_) _ _).trans ?_) <;> try dsimp only) | simp)
  all_goals simp_all

@[simp] theorem unmapUnit_steady (u : Nat) (s : State) : steady (unmapUnit u s) = steady s := by
  unfold unmapUnit
  try dsimp only
  repeat' (first | split | ((refine (steady_foldl _ (fun s x => ?_) _ _).trans ?_) <;> try dsimp only) | ((refine (steady_foldl2 _ (fun s x => ?_) _ _).trans ?_) <;> try dsimp only) | simp)
  all_goals simp_all

@[simp] theorem convWrite_steady (kind : WKind) (n : Ns) (blks : List Blk) (k : Ctx) (s : State) : steady (convWrite kind n blks k s) = steady s := by
  unfold convWrite
  simp only []
  repeat' (first | with_reducible rfl | split | simp only [↓afterStage_steady, ↓fin_steady, ↓ok_steady, ↓takeWrite_steady, ↓unmapUnit_steady, ↓updWr_steady] | ((refine (withCmd_steady _ _ _ (fun k s => ?_)).trans ?_) <;> try dsimp only) | ((refine (steady_foldl _ (fun s x => ?_) _ _).trans ?_) <;> try dsimp only) | ((refine (steady_foldl2 _ (fun s x => ?_) _ _).trans ?_) <;> try dsimp only))
  all_goals rfl

/-! ## Zones -/

theorem formRegion_steady : ∀ (n : Nat) (s : State) (r : List Nat × State), formRegion n s = some r → steady r.2 = steady s
  | 0, s, r, h => by unfold formRegion at h; cases h; rfl
  | n + 1, s, r, h => by
    unfold formRegion at h
    split at h
    · cases h
    · split at h
      · cases h
      · rename_i hf
        obtain ⟨q, hq, rfl⟩ := Option.map_eq_some_iff.mp h
        rw [formRegion_steady n _ _ hq, formPad_steady hf]

@[simp] theorem createZoned_steady (k : Ctx) (nsze lbaf pi : Nat) (s : State) : steady (createZoned k nsze lbaf pi s) = steady s := by
  unfold createZoned
  try dsimp only
  repeat' (first | split | ((refine (steady_foldl _ (fun s x => ?_) _ _).trans ?_) <;> try dsimp only) | ((refine (steady_foldl2 _ (fun s x => ?_) _ _).trans ?_) <;> try dsimp only) | simp)
  all_goals simp_all

@[simp] theorem createConv_steady (k : Ctx) (nsze lbaf pi : Nat) (s : State) : steady (createConv k nsze lbaf pi s) = steady s := by
  delta createConv
  generalize ceilDiv (5 * nsze * 4096) (4 * padPenBytes) = n
  generalize freeNsid s = o
  cases o with
  | none => exact fin_steady k 1 0x16 s
  | some id =>
    generalize hf : formRegion n s = o2
    cases o2 with
    | none => exact fin_steady k 1 0x15 s
    | some r =>
      refine ((okDw0_steady _ _ _).trans (genKeys_steady _ _ _)).trans ?_
      exact formRegion_steady _ _ _ hf

@[simp] theorem nsCreateOn_steady (buf : List Byte) (k : Ctx) (s : State) : steady (nsCreateOn buf k s) = steady s := by
  unfold nsCreateOn
  try dsimp only
  repeat' (first | split | ((refine (steady_foldl _ (fun s x => ?_) _ _).trans ?_) <;> try dsimp only) | ((refine (steady_foldl2 _ (fun s x => ?_) _ _).trans ?_) <;> try dsimp only) | simp)
  all_goals simp_all

@[simp] theorem deleteNs_steady (n : Nat) (s : State) : steady (deleteNs n s) = steady s := by
  unfold deleteNs
  try dsimp only
  repeat' (first | split | ((refine (steady_foldl _ (fun s x => ?_) _ _).trans ?_) <;> try dsimp only) | ((refine (steady_foldl2 _ (fun s x => ?_) _ _).trans ?_) <;> try dsimp only) | simp)
  all_goals simp_all

@[simp] theorem nsDeleteOn_steady (k : Ctx) (s : State) : steady (nsDeleteOn k s) = steady s := by
  unfold nsDeleteOn
  try dsimp only
  repeat' (first | split | ((refine (steady_foldl _ (fun s x => ?_) _ _).trans ?_) <;> try dsimp only) | ((refine (steady_foldl2 _ (fun s x => ?_) _ _).trans ?_) <;> try dsimp only) | simp)
  all_goals simp_all

@[simp] theorem nsAttachOn_steady (buf : List Byte) (k : Ctx) (s : State) : steady (nsAttachOn buf k s) = steady s := by
  unfold nsAttachOn
  try dsimp only
  repeat' (first | split | ((refine (steady_foldl _ (fun s x => ?_) _ _).trans ?_) <;> try dsimp only) | ((refine (steady_foldl2 _ (fun s x => ?_) _ _).trans ?_) <;> try dsimp only) | simp)
  all_goals simp_all

@[simp] theorem writeOn_steady (kind : WKind) (blks : List Blk) (k : Ctx) (s : State) : steady (writeOn kind blks k s) = steady s := by
  unfold writeOn
  try dsimp only
  repeat' (first | split | (with_reducible refine (withNs_steady _ _ _ (fun n => ?_))) | ((refine (steady_foldl _ (fun s x => ?_) _ _).trans ?_) <;> try dsimp only) | ((refine (steady_foldl2 _ (fun s x => ?_) _ _).trans ?_) <;> try dsimp only) | simp)
  all_goals simp_all

@[simp] theorem stageMore_steady (x : Wr) (rest : List Blk) (s : State) : steady (stageMore x rest s) = steady s := by
  unfold stageMore
  try dsimp only
  repeat' (first | split | ((refine (steady_foldl _ (fun s x => ?_) _ _).trans ?_) <;> try dsimp only) | ((refine (steady_foldl2 _ (fun s x => ?_) _ _).trans ?_) <;> try dsimp only) | simp)
  all_goals simp_all

@[simp] theorem dsmOn_steady (buf : List Byte) (k : Ctx) (s : State) : steady (dsmOn buf k s) = steady s := by
  unfold dsmOn
  try dsimp only
  repeat' (first | split | (with_reducible refine (withNs_steady _ _ _ (fun n => ?_))) | ((refine (steady_foldl _ (fun s x => ?_) _ _).trans ?_) <;> try dsimp only) | ((refine (steady_foldl2 _ (fun s x => ?_) _ _).trans ?_) <;> try dsimp only) | simp)
  all_goals simp_all

@[simp] theorem sendOn_steady (k : Ctx) (s : State) (one : Nat → Zone → State) (all : Ns → State)
    (h1 : ∀ z q, steady (one z q) = steady s) (h2 : ∀ n, steady (all n) = steady s) : steady (sendOn k s one all) = steady s := by
  unfold sendOn
  split
  · simp
  · refine withNs_steady _ _ _ (fun n => ?_)
    repeat' split
    all_goals first
      | exact h1 _ _
      | exact h2 _
      | simp

theorem openOne_openGo_steady (k : Ctx) (z : Nat) (q : Zone) (s : State) : steady (openOne.openGo k z q s).2 = steady s := by
  unfold openOne.openGo
  split <;> simp

@[simp] theorem openOne_steady (k : Ctx) (z : Nat) (q : Zone) (s : State) : steady (openOne k z q s).2 = steady s := by
  unfold openOne
  repeat' split
  all_goals first
    | exact openOne_openGo_steady _ _ _ _
    | rfl

@[simp] theorem finBy_steady (k : Ctx) (r : Option (Nat × Nat) × State) : steady (finBy k r) = steady r.2 := by
  unfold finBy
  split <;> simp

@[simp] theorem openEach_steady (k : Ctx) : ∀ (l : List Nat) (c : Bool) (s : State), steady (openEach k l c s).2 = steady s
  | [], _, _ => rfl
  | z :: t, c, s => by
    unfold openEach
    split
    · exact openEach_steady k t c s
    · split
      · rfl
      · dsimp only
        split
        · rfl
        · rw [openEach_steady k t]; simp

@[simp] theorem zoneOpenOn_steady (k : Ctx) (s : State) : steady (zoneOpenOn k s) = steady s := by
  unfold zoneOpenOn
  with_reducible refine (sendOn_steady _ _ _ _ (fun z q => ?_) (fun n => ?_))
  · simp
  · dsimp only
    split <;> simp

@[simp] theorem zoneCloseOn_steady (k : Ctx) (s : State) : steady (zoneCloseOn k s) = steady s := by
  unfold zoneCloseOn
  try dsimp only
  repeat' (first | split | (with_reducible refine (sendOn_steady _ _ _ _ (fun z q => ?_) (fun n => ?_))) | ((refine (steady_foldl _ (fun s x => ?_) _ _).trans ?_) <;> try dsimp only) | ((refine (steady_foldl2 _ (fun s x => ?_) _ _).trans ?_) <;> try dsimp only) | simp)
  all_goals simp_all

@[simp] theorem zoneFinishOn_steady (k : Ctx) (s : State) : steady (zoneFinishOn k s) = steady s := by
  unfold zoneFinishOn
  try dsimp only
  repeat' (first | split | (with_reducible refine (sendOn_steady _ _ _ _ (fun z q => ?_) (fun n => ?_))) | ((refine (steady_foldl _ (fun s x => ?_) _ _).trans ?_) <;> try dsimp only) | ((refine (steady_foldl2 _ (fun s x => ?_) _ _).trans ?_) <;> try dsimp only) | simp)
  all_goals simp_all

@[simp] theorem zoneResetOn_steady (k : Ctx) (s : State) : steady (zoneResetOn k s) = steady s := by
  unfold zoneResetOn
  try dsimp only
  repeat' (first | split | (with_reducible refine (sendOn_steady _ _ _ _ (fun z q => ?_) (fun n => ?_))) | ((refine (steady_foldl _ (fun s x => ?_) _ _).trans ?_) <;> try dsimp only) | ((refine (steady_foldl2 _ (fun s x => ?_) _ _).trans ?_) <;> try dsimp only) | simp)
  all_goals simp_all

@[simp] theorem beginScrub_steady (z : Nat) (ctx : Option Nat) (s : State) : steady (beginScrub z ctx s) = steady s := by
  unfold beginScrub
  try dsimp only
  repeat' (first | split | ((refine (steady_foldl _ (fun s x => ?_) _ _).trans ?_) <;> try dsimp only) | ((refine (steady_foldl2 _ (fun s x => ?_) _ _).trans ?_) <;> try dsimp only) | simp)
  all_goals simp_all

@[simp] theorem scrubOn_steady (k : Ctx) (s : State) : steady (scrubOn k s) = steady s := by
  unfold scrubOn
  try dsimp only
  repeat' (first | split | (with_reducible refine (sendOn_steady _ _ _ _ (fun z q => ?_) (fun n => ?_))) | ((refine (steady_foldl _ (fun s x => ?_) _ _).trans ?_) <;> try dsimp only) | ((refine (steady_foldl2 _ (fun s x => ?_) _ _).trans ?_) <;> try dsimp only) | simp)
  all_goals simp_all

@[simp] theorem reportOn_steady (k : Ctx) (s : State) : steady (reportOn k s) = steady s := by
  unfold reportOn
  try dsimp only
  repeat' (first | split | (with_reducible refine (withNs_steady _ _ _ (fun n => ?_))) | ((refine (steady_foldl _ (fun s x => ?_) _ _).trans ?_) <;> try dsimp only) | ((refine (steady_foldl2 _ (fun s x => ?_) _ _).trans ?_) <;> try dsimp only) | simp)
  all_goals simp_all

@[simp] theorem placementOpenOn_steady (k : Ctx) (s : State) : steady (placementOpenOn k s) = steady s := by
  unfold placementOpenOn
  try dsimp only
  repeat' (first | split | (with_reducible refine (withNs_steady _ _ _ (fun n => ?_))) | ((refine (steady_foldl _ (fun s x => ?_) _ _).trans ?_) <;> try dsimp only) | ((refine (steady_foldl2 _ (fun s x => ?_) _ _).trans ?_) <;> try dsimp only) | simp)
  all_goals simp_all

@[simp] theorem beginSanitize_steady (kind : Nat) (k : Ctx) (s : State) : steady (beginSanitize kind k s) = steady s := by simp [beginSanitize]

@[simp] theorem sanitizeOn_steady (kind : Nat) (k : Ctx) (s : State) : steady (sanitizeOn kind k s) = steady s := by
  unfold sanitizeOn
  repeat' split
  all_goals simp

@[simp] theorem wipeData_steady (s : State) : steady (wipeData s) = steady s := by
  unfold wipeData
  try dsimp only
  repeat' (first | split | ((refine (steady_foldl _ (fun s x => ?_) _ _).trans ?_) <;> try dsimp only) | ((refine (steady_foldl2 _ (fun s x => ?_) _ _).trans ?_) <;> try dsimp only) | simp)
  all_goals simp_all

@[simp] theorem eraseAll_steady (s : State) : steady (eraseAll s) = steady s := by
  unfold eraseAll
  simp only []
  refine (steady_foldl _ (fun s sh => ?_) _ _).trans ?_
  · split
    · rename_i h
      exact formPadShed_steady h
    · rfl
  split
  · rename_i h
    have hs := formRegion_steady _ _ _ h
    rw [steady_foldl _ (fun s d => by simp)] at hs
    exact hs
  · rw [steady_foldl _ (fun s d => by simp)]
    rfl

@[simp] theorem retireAll_steady (s : State) : steady (retireAll s) = steady s := by
  unfold retireAll
  try dsimp only
  repeat' (first | split | ((refine (steady_foldl _ (fun s x => ?_) _ _).trans ?_) <;> try dsimp only) | ((refine (steady_foldl2 _ (fun s x => ?_) _ _).trans ?_) <;> try dsimp only) | simp)
  all_goals simp_all

@[simp] theorem formatNs_steady (lbaf pi n : Nat) (s : State) : steady (formatNs lbaf pi n s) = steady s := by
  unfold formatNs
  try dsimp only
  repeat' (first | split | ((refine (steady_foldl _ (fun s x => ?_) _ _).trans ?_) <;> try dsimp only) | ((refine (steady_foldl2 _ (fun s x => ?_) _ _).trans ?_) <;> try dsimp only) | simp)
  all_goals simp_all

@[simp] theorem formatOn_steady (k : Ctx) (s : State) : steady (formatOn k s) = steady s := by
  unfold formatOn
  try dsimp only
  repeat' (first | split | ((refine (steady_foldl _ (fun s x => ?_) _ _).trans ?_) <;> try dsimp only) | ((refine (steady_foldl2 _ (fun s x => ?_) _ _).trans ?_) <;> try dsimp only) | simp)
  all_goals simp_all

/-! ## Reads -/

@[simp] theorem readOn_steady (k : Ctx) (s : State) : steady (readOn k s) = steady s := by
  unfold readOn
  try dsimp only
  repeat' (first | split | (with_reducible refine (withNs_steady _ _ _ (fun n => ?_))) | ((refine (steady_foldl _ (fun s x => ?_) _ _).trans ?_) <;> try dsimp only) | ((refine (steady_foldl2 _ (fun s x => ?_) _ _).trans ?_) <;> try dsimp only) | simp)
  all_goals simp_all

@[simp] theorem logReply_steady (data : List Byte) (k : Ctx) (s : State) : steady (logReply data k s) = steady s := by
  unfold logReply
  try dsimp only
  repeat' (first | split | ((refine (steady_foldl _ (fun s x => ?_) _ _).trans ?_) <;> try dsimp only) | ((refine (steady_foldl2 _ (fun s x => ?_) _ _).trans ?_) <;> try dsimp only) | simp)
  all_goals simp_all

@[simp] theorem yardLogOn_steady (k : Ctx) (s : State) : steady (yardLogOn k s) = steady s := by simp [yardLogOn]

/-! ## Placement -/

@[simp] theorem acceptLayout_steady (buf : List Byte) (ms : List (Nat × Nat)) (s : State) : steady (acceptLayout buf ms s) = steady s := by
  unfold acceptLayout
  try dsimp only
  repeat' (first | split | ((refine (steady_foldl _ (fun s x => ?_) _ _).trans ?_) <;> try dsimp only) | ((refine (steady_foldl2 _ (fun s x => ?_) _ _).trans ?_) <;> try dsimp only) | simp)
  all_goals simp_all

@[simp] theorem setLayoutOn_steady (buf : List Byte) (k : Ctx) (s : State) : steady (setLayoutOn buf k s) = steady s := by
  unfold setLayoutOn
  try dsimp only
  repeat' (first | split | ((refine (steady_foldl _ (fun s x => ?_) _ _).trans ?_) <;> try dsimp only) | ((refine (steady_foldl2 _ (fun s x => ?_) _ _).trans ?_) <;> try dsimp only) | simp)
  all_goals simp_all

@[simp] theorem loseSource_steady (o q : Nat) (s : State) : steady (loseSource o q s) = steady s := by
  unfold loseSource
  try dsimp only
  repeat' (first | split | ((refine (steady_foldl _ (fun s x => ?_) _ _).trans ?_) <;> try dsimp only) | ((refine (steady_foldl2 _ (fun s x => ?_) _ _).trans ?_) <;> try dsimp only) | simp)
  all_goals simp_all

@[simp] theorem forgetLost_steady (gone : Nat → Nat → Bool) (s : State) : steady (forgetLost gone s) = steady s := by
  unfold forgetLost
  try dsimp only
  repeat' (first | split | ((refine (steady_foldl _ (fun s x => ?_) _ _).trans ?_) <;> try dsimp only) | ((refine (steady_foldl2 _ (fun s x => ?_) _ _).trans ?_) <;> try dsimp only) | simp)
  all_goals simp_all

@[simp] theorem readSources_steady (mine : Work → Bool) (start : Nat) (ps : List (Nat × Nat)) (s : State) : steady (readSources mine start ps s) = steady s := by
  unfold readSources
  try dsimp only
  repeat' (first | split | ((refine (steady_foldl _ (fun s x => ?_) _ _).trans ?_) <;> try dsimp only) | ((refine (steady_foldl2 _ (fun s x => ?_) _ _).trans ?_) <;> try dsimp only) | simp)
  all_goals simp_all

theorem takeDst_steady (src : Nat) (k : PenKind) (y lcl : Nat) : ∀ (fuel n : Nat) (s : State) (r : List (Nat × Nat) × State),
    takeDst src k y lcl fuel n s = some r → steady r.2 = steady s
  | _, 0, s, r, h => by unfold takeDst at h; cases h; rfl
  | 0, _ + 1, _, _, h => by unfold takeDst at h; cases h
  | fuel + 1, n + 1, s, r, h => by
    unfold takeDst at h
    split at h
    · split at h
      · obtain ⟨q, hq, rfl⟩ := Option.map_eq_some_iff.mp h
        rw [takeDst_steady src k y lcl fuel _ _ _ hq]; simp
      · rw [takeDst_steady src k y lcl fuel _ _ _ h]; rfl
    · split at h
      · cases h
      · rename_i hf
        rw [takeDst_steady src k y lcl fuel _ _ _ h, ← formQlc_steady hf]; rfl

@[simp] theorem addMove_steady (src y : Nat) (k : PenKind) (its : List MvU) (s : State) : steady (addMove src y k its s) = steady s := by
  unfold addMove
  try dsimp only
  repeat' (first | split | ((refine (steady_foldl _ (fun s x => ?_) _ _).trans ?_) <;> try dsimp only) | ((refine (steady_foldl2 _ (fun s x => ?_) _ _).trans ?_) <;> try dsimp only) | simp)
  all_goals simp_all

theorem startMove_steady {src : Nat} {p : Pen} {k : PenKind} {s t : State} (h : startMove src p k s = some t) : steady t = steady s := by
  unfold startMove at h
  dsimp only at h
  split at h
  · cases h
  · rename_i hd
    have hs := takeDst_steady _ _ _ _ _ _ _ _ hd
    cases h
    refine (steady_foldl _ (fun s i => ?_) _ _).trans (Eq.trans ?_ hs)
    · split
      · rfl
      · rw [stripeParity_steady, readSources_steady, queueProg_steady, catchUp_steady]
    · rw [apply_ite steady, addMove_steady]
      exact ite_self _

theorem copyChunks_steady {α : Type} (seq : Nat) (dst : State → Option (Nat × State)) (room : Nat → Nat) (item : Nat → Nat → α → MvU)
    (srcs : α → List (Nat × Nat)) (hd : ∀ s r, dst s = some r → steady r.2 = steady s) :
    ∀ (fuel : Nat) (l : List α) (s : State) (r : List MvU × State), copyChunks seq dst room item srcs fuel l s = some r → steady r.2 = steady s
  | _, [], s, r, h => by unfold copyChunks at h; cases h; rfl
  | 0, _ :: _, _, _, h => by unfold copyChunks at h; cases h
  | fuel + 1, u :: us, s, r, h => by
    unfold copyChunks at h
    split at h
    · cases h
    · rename_i hds
      dsimp only at h
      obtain ⟨q, hq, rfl⟩ := Option.map_eq_some_iff.mp h
      rw [copyChunks_steady seq dst room item srcs hd fuel _ _ _ hq, readSources_steady, landWork_steady]
      exact hd _ _ hds

theorem startPadMove_steady {src : Nat} {p : Pen} {s t : State} (h : startPadMove src p s = some t) : steady t = steady s := by
  unfold startPadMove at h
  extract_lets ps src0 s0 at h
  have h0 : steady s0 = steady s := by simp only [s0]; split <;> rfl
  clear_value s0
  obtain ⟨q, hq, rfl⟩ := Option.map_eq_some_iff.mp h
  rw [addMove_steady, copyChunks_steady _ _ _ _ _ (fun s r hr => landingPen_steady hr) _ _ _ _ hq, h0]

theorem startConvMove_steady {src : Nat} {s t : State} (h : startConvMove src s = some t) : steady t = steady s := by
  unfold startConvMove at h
  extract_lets us src0 s0 seq one at h
  have h0 : steady s0 = steady s := by simp only [s0]; simp
  have hone : ∀ hot l u r, one hot l u = some r → steady r.2 = steady u := by
    intro hot l u r hr
    refine copyChunks_steady _ _ _ _ _ (fun s r hr => ?_) _ _ _ _ hr
    obtain ⟨a, ha, hb⟩ := Option.bind_eq_some_iff.mp hr
    split at hb
    · cases hb
    · cases hb; exact convPen_steady ha
  clear_value one s0
  split at h
  · cases h
  · rename_i ha
    obtain ⟨q, hq, rfl⟩ := Option.map_eq_some_iff.mp h
    rw [addMove_steady, hone _ _ _ _ hq, hone _ _ _ _ ha, h0]

@[simp] theorem wearEnds_steady (y : Nat) (s : State) : steady (wearEnds y s) = steady s := by unfold wearEnds; split <;> simp

@[simp] theorem commitItem_steady (src : Nat) (kind : PenKind) (i : MvU) (s : State) : steady (commitItem src kind i s) = steady s := by
  unfold commitItem
  try dsimp only
  repeat' (first | split | ((refine (steady_foldl _ (fun s x => ?_) _ _).trans ?_) <;> try dsimp only) | ((refine (steady_foldl2 _ (fun s x => ?_) _ _).trans ?_) <;> try dsimp only) | simp)
  all_goals simp_all

@[simp] theorem emptyConv_steady (src : Nat) (s : State) : steady (emptyConv src s) = steady s := by
  unfold emptyConv
  try dsimp only
  repeat' (first | split | ((refine (steady_foldl _ (fun s x => ?_) _ _).trans ?_) <;> try dsimp only) | ((refine (steady_foldl2 _ (fun s x => ?_) _ _).trans ?_) <;> try dsimp only) | simp)
  all_goals simp_all

@[simp] theorem commitMove_steady (seq : Nat) (s : State) : steady (commitMove seq s) = steady s := by
  unfold commitMove
  try dsimp only
  repeat' (first | split | ((refine (steady_foldl _ (fun s x => ?_) _ _).trans ?_) <;> try dsimp only) | ((refine (steady_foldl2 _ (fun s x => ?_) _ _).trans ?_) <;> try dsimp only) | simp)
  all_goals simp_all

@[simp] theorem dropMove_steady (seq : Nat) (s : State) : steady (dropMove seq s) = steady s := by
  unfold dropMove
  try dsimp only
  repeat' (first | split | ((refine (steady_foldl _ (fun s x => ?_) _ _).trans ?_) <;> try dsimp only) | ((refine (steady_foldl2 _ (fun s x => ?_) _ _).trans ?_) <;> try dsimp only) | simp)
  all_goals simp_all

@[simp] theorem afterStart_steady (s : State) : steady (afterStart s) = steady s := by
  unfold afterStart
  try dsimp only
  repeat' (first | split | ((refine (steady_foldl _ (fun s x => ?_) _ _).trans ?_) <;> try dsimp only) | ((refine (steady_foldl2 _ (fun s x => ?_) _ _).trans ?_) <;> try dsimp only) | simp)
  all_goals simp_all

@[simp] theorem retireDead_steady (y : Nat) (s : State) : steady (retireDead y s) = steady s := by
  unfold retireDead
  try dsimp only
  repeat' (first | split | ((refine (steady_foldl _ (fun s x => ?_) _ _).trans ?_) <;> try dsimp only) | ((refine (steady_foldl2 _ (fun s x => ?_) _ _).trans ?_) <;> try dsimp only) | simp)
  all_goals simp_all

end Sys2Proof.Machine
end

