-- ==== Sys2Proof/Laws/KeptFlash.lean ====
section
/-! SUPPORT. The same for the flash channels, integrity, the flush and the cadence link. -/

namespace Sys2Proof.Machine
open Sys2Proof

set_option linter.unusedTactic false
set_option linter.unreachableTactic false
set_option linter.unusedSimpArgs false

/-! ## FlashCh -/

@[simp] theorem losePen_steady (id : Nat) (s : State) : steady (losePen id s) = steady s := by
  unfold losePen
  try dsimp only
  repeat' (first | split | ((refine (steady_foldl _ (fun s x => ?_) _ _).trans ?_) <;> try dsimp only) | ((refine (steady_foldl2 _ (fun s x => ?_) _ _).trans ?_) <;> try dsimp only) | simp)
  all_goals simp_all

@[simp] theorem loseDie_steady (d : Nat) (s : State) : steady (loseDie d s) = steady s := by
  unfold loseDie
  try dsimp only
  repeat' (first | split | ((refine (steady_foldl _ (fun s x => ?_) _ _).trans ?_) <;> try dsimp only) | ((refine (steady_foldl2 _ (fun s x => ?_) _ _).trans ?_) <;> try dsimp only) | simp)
  all_goals simp_all

@[simp] theorem wearOut_steady (d : Nat) (s : State) : steady (wearOut d s) = steady s := by simp [wearOut]

@[simp] theorem goBad_steady (d b : Nat) (s : State) : steady (goBad d b s) = steady s := by
  unfold goBad
  try dsimp only
  repeat' (first | split | ((refine (steady_foldl _ (fun s x => ?_) _ _).trans ?_) <;> try dsimp only) | ((refine (steady_foldl2 _ (fun s x => ?_) _ _).trans ?_) <;> try dsimp only) | simp)
  all_goals simp_all

@[simp] theorem retarget_steady (d old new : Nat) (s : State) : steady (retarget d old new s) = steady s := by simp [retarget]

@[simp] theorem copyOld_steady (pid m d nb : Nat) (s : State) : steady (copyOld pid m d nb s) = steady s := by
  unfold copyOld
  try dsimp only
  repeat' (first | split | ((refine (steady_foldl _ (fun s x => ?_) _ _).trans ?_) <;> try dsimp only) | ((refine (steady_foldl2 _ (fun s x => ?_) _ _).trans ?_) <;> try dsimp only) | simp)
  all_goals simp_all

@[simp] theorem replaceMember_steady (d b : Nat) (s : State) : steady (replaceMember d b s) = steady s := by
  unfold replaceMember
  try dsimp only
  repeat' (first | split | ((refine (steady_foldl _ (fun s x => ?_) _ _).trans ?_) <;> try dsimp only) | ((refine (steady_foldl2 _ (fun s x => ?_) _ _).trans ?_) <;> try dsimp only) | simp)
  all_goals simp_all

@[simp] theorem settleOld_steady (d b : Nat) (s : State) : steady (settleOld d b s) = steady s := by
  unfold settleOld
  try dsimp only
  repeat' (first | split | ((refine (steady_foldl _ (fun s x => ?_) _ _).trans ?_) <;> try dsimp only) | ((refine (steady_foldl2 _ (fun s x => ?_) _ _).trans ?_) <;> try dsimp only) | simp)
  all_goals simp_all

@[simp] theorem placeAgain_steady (o : AOp) (s : State) : steady (placeAgain o s) = steady s := by
  unfold placeAgain
  try dsimp only
  repeat' (first | split | ((refine (steady_foldl _ (fun s x => ?_) _ _).trans ?_) <;> try dsimp only) | ((refine (steady_foldl2 _ (fun s x => ?_) _ _).trans ?_) <;> try dsimp only) | simp)
  all_goals simp_all

@[simp] theorem markRefresh_steady (p ladder : Nat) (s : State) : steady (markRefresh p ladder s) = steady s := by
  unfold markRefresh
  repeat' split
  all_goals simp

@[simp] theorem countLadder_steady (l : Nat) (s : State) : steady (countLadder l s) = steady s := by simp [countLadder]

@[simp] theorem gotPiece_steady (id o q path ladder : Nat) (s : State) : steady (gotPiece id o q path ladder s) = steady s := by simp [gotPiece]

@[simp] theorem lostPiece_steady (id o q path : Nat) (s : State) : steady (lostPiece id o q path s) = steady s := by
  unfold lostPiece
  repeat' split
  all_goals simp

@[simp] theorem readLost_steady (id o q path : Nat) (s : State) : steady (readLost id o q path s) = steady s := by
  unfold readLost
  try dsimp only
  repeat' (first | split | ((refine (steady_foldl _ (fun s x => ?_) _ _).trans ?_) <;> try dsimp only) | ((refine (steady_foldl2 _ (fun s x => ?_) _ _).trans ?_) <;> try dsimp only) | simp)
  all_goals simp_all

@[simp] theorem learnOffset_steady (d b : Nat) (s : State) : steady (learnOffset d b s) = steady s := by
  unfold learnOffset
  try dsimp only
  repeat' (first | split | ((refine (steady_foldl _ (fun s x => ?_) _ _).trans ?_) <;> try dsimp only) | ((refine (steady_foldl2 _ (fun s x => ?_) _ _).trans ?_) <;> try dsimp only) | simp)
  all_goals simp_all

@[simp] theorem combEnds_steady (t : Target) (ladder corr : Nat) (marked : Bool) (s : State) : steady (combEnds t ladder corr marked s) = steady s := by
  unfold combEnds
  try dsimp only
  repeat' (first | split | ((refine (steady_foldl _ (fun s x => ?_) _ _).trans ?_) <;> try dsimp only) | ((refine (steady_foldl2 _ (fun s x => ?_) _ _).trans ?_) <;> try dsimp only) | simp)
  all_goals simp_all

@[simp] theorem readEnds_steady (id o q path ladder corr : Nat) (s : State) : steady (readEnds id o q path ladder corr s) = steady s := by
  unfold readEnds
  split
  · simp
  · extract_lets e s1 s2 due s3 s4 s5
    have h1 : steady s1 = steady s := countLadder_steady _ _
    clear_value s1
    have h2 : steady s2 = steady s1 := by simp only [s2]; split <;> simp
    clear_value s2
    have h3 : steady s3 = steady s2 := by simp only [s3]; split <;> simp
    clear_value s3
    have h4 : steady s4 = steady s3 := by simp only [s4]; split <;> simp
    clear_value s4
    have h5 : steady s5 = steady s4 := by simp only [s5]; split <;> simp
    clear_value s5
    split
    · rw [readLost_steady, h5, h4, h3, h2, h1]
    · rw [gotPiece_steady, h5, h4, h3, h2, h1]

@[simp] theorem stepThree_steady (id o q path : Nat) (s : State) : steady (stepThree id o q path s) = steady s := by
  unfold stepThree
  repeat' split
  all_goals simp

@[simp] theorem memberFails_steady (rid m : Nat) (s : State) : steady (memberFails rid m s) = steady s := by
  unfold memberFails
  try dsimp only
  repeat' (first | split | ((refine (steady_foldl _ (fun s x => ?_) _ _).trans ?_) <;> try dsimp only) | ((refine (steady_foldl2 _ (fun s x => ?_) _ _).trans ?_) <;> try dsimp only) | simp)
  all_goals simp_all

@[simp] theorem rparTrim_steady (sh : Nat) : ∀ (n : Nat) (s : State), steady (rparTrim sh n s) = steady s
  | 0, _ => rfl
  | n + 1, s => by
    unfold rparTrim
    dsimp only
    split
    · split
      · rw [rparTrim_steady sh n]; rfl
      · rfl
    · rfl

@[simp] theorem rparAdd_steady (pid k : Nat) (s : State) : steady (rparAdd pid k s) = steady s := by
  unfold rparAdd
  repeat' split
  all_goals simp

@[simp] theorem parWatch_steady (ch : Nat) (s : State) : steady (parWatch ch s) = steady s := by
  unfold parWatch
  try dsimp only
  repeat' (first | split | ((refine (steady_foldl _ (fun s x => ?_) _ _).trans ?_) <;> try dsimp only) | ((refine (steady_foldl2 _ (fun s x => ?_) _ _).trans ?_) <;> try dsimp only) | simp)
  all_goals simp_all

@[simp] theorem parDone_steady (pid k : Nat) (s : State) : steady (parDone pid k s) = steady s := by
  unfold parDone
  try dsimp only
  repeat' (first | split | ((refine (steady_foldl _ (fun s x => ?_) _ _).trans ?_) <;> try dsimp only) | ((refine (steady_foldl2 _ (fun s x => ?_) _ _).trans ?_) <;> try dsimp only) | simp)
  all_goals simp_all

@[simp] theorem readFailed_steady (o : AOp) (path : Nat) (s : State) : steady (readFailed o path s) = steady s := by
  unfold readFailed
  try dsimp only
  repeat' (first | split | ((refine (steady_foldl _ (fun s x => ?_) _ _).trans ?_) <;> try dsimp only) | ((refine (steady_foldl2 _ (fun s x => ?_) _ _).trans ?_) <;> try dsimp only) | simp)
  all_goals simp_all

@[simp] theorem failLun_steady (d : Nat) (s : State) : steady (failLun d s) = steady s := by
  unfold failLun
  try dsimp only
  repeat' (first | split | ((refine (steady_foldl _ (fun s x => ?_) _ _).trans ?_) <;> try dsimp only) | ((refine (steady_foldl2 _ (fun s x => ?_) _ _).trans ?_) <;> try dsimp only) | simp)
  all_goals simp_all

@[simp] theorem failChannel_steady (ch cause : Nat) (s : State) : steady (failChannel ch cause s) = steady s := by
  unfold failChannel
  try dsimp only
  repeat' (first | split | ((refine (steady_foldl _ (fun s x => ?_) _ _).trans ?_) <;> try dsimp only) | ((refine (steady_foldl2 _ (fun s x => ?_) _ _).trans ?_) <;> try dsimp only) | simp)
  all_goals simp_all

@[simp] theorem failLunCh_steady (d : Nat) (s : State) : steady (failLunCh d s) = steady s := by
  unfold failLunCh
  try dsimp only
  repeat' (first | split | ((refine (steady_foldl _ (fun s x => ?_) _ _).trans ?_) <;> try dsimp only) | ((refine (steady_foldl2 _ (fun s x => ?_) _ _).trans ?_) <;> try dsimp only) | simp)
  all_goals simp_all

@[simp] theorem chainStep_steady (o : AOp) (s : State) : steady (chainStep o s) = steady s := by
  unfold chainStep
  try dsimp only
  repeat' (first | split | ((refine (steady_foldl _ (fun s x => ?_) _ _).trans ?_) <;> try dsimp only) | ((refine (steady_foldl2 _ (fun s x => ?_) _ _).trans ?_) <;> try dsimp only) | simp)
  all_goals simp_all

@[simp] theorem tackRefused_steady (who ch blk : Nat) (s : State) : steady (tackRefused who ch blk s) = steady s := by
  unfold tackRefused
  try dsimp only
  repeat' (first | split | ((refine (steady_foldl _ (fun s x => ?_) _ _).trans ?_) <;> try dsimp only) | ((refine (steady_foldl2 _ (fun s x => ?_) _ _).trans ?_) <;> try dsimp only) | simp)
  all_goals simp_all

@[simp] theorem tackRead_steady (id o q : Nat) (s : State) : steady (tackRead id o q s) = steady s := by
  unfold tackRead
  try dsimp only
  repeat' (first | split | ((refine (steady_foldl _ (fun s x => ?_) _ _).trans ?_) <;> try dsimp only) | ((refine (steady_foldl2 _ (fun s x => ?_) _ _).trans ?_) <;> try dsimp only) | simp)
  all_goals simp_all

@[simp] theorem refuseProgram_steady (o : AOp) (r : Nat) (s : State) : steady (refuseProgram o r s) = steady s := by
  unfold refuseProgram
  try dsimp only
  repeat' (first | split | ((refine (steady_foldl _ (fun s x => ?_) _ _).trans ?_) <;> try dsimp only) | ((refine (steady_foldl2 _ (fun s x => ?_) _ _).trans ?_) <;> try dsimp only) | simp)
  all_goals simp_all

@[simp] theorem startOp_steady (o : AOp) (s : State) : steady (startOp o s) = steady s := by
  unfold startOp
  try dsimp only
  repeat' (first | split | ((refine (steady_foldl _ (fun s x => ?_) _ _).trans ?_) <;> try dsimp only) | ((refine (steady_foldl2 _ (fun s x => ?_) _ _).trans ?_) <;> try dsimp only) | simp)
  all_goals simp_all

@[simp] theorem liveWatch_steady (ch : Nat) (s : State) : steady (liveWatch ch s) = steady s := by
  unfold liveWatch
  try dsimp only
  repeat' (first | split | ((refine (steady_foldl _ (fun s x => ?_) _ _).trans ?_) <;> try dsimp only) | ((refine (steady_foldl2 _ (fun s x => ?_) _ _).trans ?_) <;> try dsimp only) | simp)
  all_goals simp_all

@[simp] theorem innerWake_steady (o : AOp) (s : State) : steady (innerWake o s) = steady s := by
  unfold innerWake
  try dsimp only
  repeat' (first | split | ((refine (steady_foldl _ (fun s x => ?_) _ _).trans ?_) <;> try dsimp only) | ((refine (steady_foldl2 _ (fun s x => ?_) _ _).trans ?_) <;> try dsimp only) | simp)
  all_goals simp_all

@[simp] theorem commitUnit_steady (z u pen : Nat) (s : State) : steady (commitUnit z u pen s) = steady s := by
  unfold commitUnit
  try dsimp only
  repeat' (first | split | ((refine (steady_foldl _ (fun s x => ?_) _ _).trans ?_) <;> try dsimp only) | ((refine (steady_foldl2 _ (fun s x => ?_) _ _).trans ?_) <;> try dsimp only) | simp)
  all_goals simp_all

@[simp] theorem closeStripe_steady (pen k m : Nat) (s : State) : steady (closeStripe pen k m s) = steady s := by
  unfold closeStripe
  try dsimp only
  repeat' (first | split | ((refine (steady_foldl _ (fun s x => ?_) _ _).trans ?_) <;> try dsimp only) | ((refine (steady_foldl2 _ (fun s x => ?_) _ _).trans ?_) <;> try dsimp only) | simp)
  all_goals simp_all

@[simp] theorem programmed_steady (o : AOp) (s : State) : steady (programmed o s) = steady s := by
  unfold programmed
  split
  · rw [lseqNext_steady]; exact steady_foldl _ (fun s e => pieceDurable_steady _ _ _ _ _) _ _
  · simp
  · simp
  · rw [commitMove_steady]
    repeat' split
    all_goals simp
  · split
    · rw [forgetLost_steady]; exact steady_foldl _ (fun s e => mapPieces_steady _ _ _) _ _
    · rfl
  · rfl

@[simp] theorem mediaFlip_steady (o : AOp) (s : State) : steady (mediaFlip o s) = steady s := by unfold mediaFlip; split <;> simp

@[simp] theorem programFails_steady (o : AOp) (s : State) : steady (programFails o s) = steady s := by
  unfold programFails
  try dsimp only
  repeat' (first | split | ((refine (steady_foldl _ (fun s x => ?_) _ _).trans ?_) <;> try dsimp only) | ((refine (steady_foldl2 _ (fun s x => ?_) _ _).trans ?_) <;> try dsimp only) | simp)
  all_goals simp_all

@[simp] theorem eraseDone_steady (d b : Nat) (s : State) : steady (eraseDone d b s) = steady s := by simp [eraseDone]

@[simp] theorem enterLists_steady (d b : Nat) (s : State) : steady (enterLists d b s) = steady s := by
  unfold enterLists
  try dsimp only
  repeat' (first | split | ((refine (steady_foldl _ (fun s x => ?_) _ _).trans ?_) <;> try dsimp only) | ((refine (steady_foldl2 _ (fun s x => ?_) _ _).trans ?_) <;> try dsimp only) | simp)
  all_goals simp_all

@[simp] theorem convErased_steady (p : Nat) (s : State) : steady (convErased p s) = steady s := by
  unfold convErased
  repeat' split
  all_goals simp

@[simp] theorem eraseBad_steady (ch lun blk : Nat) (s : State) : steady (eraseBad ch lun blk s) = steady s := by
  unfold eraseBad
  try dsimp only
  repeat' (first | split | ((refine (steady_foldl _ (fun s x => ?_) _ _).trans ?_) <;> try dsimp only) | ((refine (steady_foldl2 _ (fun s x => ?_) _ _).trans ?_) <;> try dsimp only) | simp)
  all_goals simp_all

@[simp] theorem eraseFails_steady (o : AOp) (s : State) : steady (eraseFails o s) = steady s := by simp [eraseFails]

@[simp] theorem noToken_steady (y : Nat) (s : State) : steady (noToken y s) = steady s := by unfold noToken; split <;> simp

@[simp] theorem rebuildOrWait_steady (r : AOp) (s : State) : steady (rebuildOrWait r s) = steady s := by
  unfold rebuildOrWait
  try dsimp only
  repeat' (first | split | ((refine (steady_foldl _ (fun s x => ?_) _ _).trans ?_) <;> try dsimp only) | ((refine (steady_foldl2 _ (fun s x => ?_) _ _).trans ?_) <;> try dsimp only) | simp)
  all_goals simp_all

@[simp] theorem arbitrate_steady (r : AOp) (s : State) : steady (arbitrate r s) = steady s := by
  unfold arbitrate
  try dsimp only
  repeat' (first | split | ((refine (steady_foldl _ (fun s x => ?_) _ _).trans ?_) <;> try dsimp only) | ((refine (steady_foldl2 _ (fun s x => ?_) _ _).trans ?_) <;> try dsimp only) | simp)
  all_goals simp_all

@[simp] theorem refreshBlock_steady (ch old new : Nat) (s : State) : steady (refreshBlock ch old new s) = steady s := by
  unfold refreshBlock
  try dsimp only
  repeat' (first | split | ((refine (steady_foldl _ (fun s x => ?_) _ _).trans ?_) <;> try dsimp only) | ((refine (steady_foldl2 _ (fun s x => ?_) _ _).trans ?_) <;> try dsimp only) | simp)
  all_goals simp_all

@[simp] theorem writeDiagCtl_steady (ch v : Nat) (s : State) : steady (writeDiagCtl ch v s) = steady s := by
  unfold writeDiagCtl
  try dsimp only
  repeat' (first | split | ((refine (steady_foldl _ (fun s x => ?_) _ _).trans ?_) <;> try dsimp only) | ((refine (steady_foldl2 _ (fun s x => ?_) _ _).trans ?_) <;> try dsimp only) | simp)
  all_goals simp_all

@[simp] theorem bindMember_steady (d p : Nat) (s : State) : steady (bindMember d p s) = steady s := by
  have h : ∀ w, steady (takeBlock d w p s).2 = steady s := fun w => takeBlock_steady _ _ _ _
  unfold bindMember
  dsimp only
  split
  · rfl
  · rw [readyBlock_steady]
    exact h _

/-! ## Integrity -/

@[simp] theorem sramFlip_steady (die region word : Nat) (s : State) : steady (sramFlip die region word s) = steady s := by unfold sramFlip; split <;> simp

@[simp] theorem stagingLost_steady (id : Nat) (s : State) : steady (stagingLost id s) = steady s := by
  unfold stagingLost
  try dsimp only
  repeat' (first | split | ((refine (steady_foldl _ (fun s x => ?_) _ _).trans ?_) <;> try dsimp only) | ((refine (steady_foldl2 _ (fun s x => ?_) _ _).trans ?_) <;> try dsimp only) | simp)
  all_goals simp_all

@[simp] theorem readFails_steady (id : Nat) (s : State) : steady (readFails id s) = steady s := by simp [readFails]

@[simp] theorem readRepeats_steady (id : Nat) (s : State) : steady (readRepeats id s) = steady s := by
  unfold readRepeats
  try dsimp only
  repeat' (first | split | ((refine (steady_foldl _ (fun s x => ?_) _ _).trans ?_) <;> try dsimp only) | ((refine (steady_foldl2 _ (fun s x => ?_) _ _).trans ?_) <;> try dsimp only) | simp)
  all_goals simp_all

@[simp] theorem hhFails_steady (id : Nat) (s : State) : steady (hhFails id s) = steady s := by
  unfold hhFails
  try dsimp only
  repeat' (first | split | ((refine (steady_foldl _ (fun s x => ?_) _ _).trans ?_) <;> try dsimp only) | ((refine (steady_foldl2 _ (fun s x => ?_) _ _).trans ?_) <;> try dsimp only) | simp)
  all_goals simp_all

@[simp] theorem writeFlipCtl_steady (v : Nat) (s : State) : steady (writeFlipCtl v s) = steady s := by unfold writeFlipCtl; split <;> simp

@[simp] theorem queuePass_steady (p : Pass) (s : State) : steady (queuePass p s) = steady s := by
  unfold queuePass
  repeat' split
  all_goals simp

@[simp] theorem currycombOn_steady (k : Ctx) (s : State) : steady (currycombOn k s) = steady s := by
  unfold currycombOn
  try dsimp only
  repeat' (first | split | ((refine (steady_foldl _ (fun s x => ?_) _ _).trans ?_) <;> try dsimp only) | ((refine (steady_foldl2 _ (fun s x => ?_) _ _).trans ?_) <;> try dsimp only) | simp)
  all_goals simp_all

@[simp] theorem resizePaddock_steady (s : State) : steady (resizePaddock s) = steady s := by
  unfold resizePaddock
  try dsimp only
  repeat' (first | split | ((refine (steady_foldl _ (fun s x => ?_) _ _).trans ?_) <;> try dsimp only) | ((refine (steady_foldl2 _ (fun s x => ?_) _ _).trans ?_) <;> try dsimp only) | simp)
  all_goals simp_all

@[simp] theorem takeSurvey_steady (p : Pass) (s : State) : steady (takeSurvey p s) = steady s := by
  unfold takeSurvey
  try dsimp only
  repeat' (first | split | ((refine (steady_foldl _ (fun s x => ?_) _ _).trans ?_) <;> try dsimp only) | ((refine (steady_foldl2 _ (fun s x => ?_) _ _).trans ?_) <;> try dsimp only) | simp)
  all_goals simp_all

/-! ## Flush -/

@[simp] theorem stopArray_steady (s : State) : steady (stopArray s) = steady s := by simp [stopArray]

@[simp] theorem dropUndecided_steady (s : State) : steady (dropUndecided s) = steady s := by
  unfold dropUndecided
  try dsimp only
  repeat' (first | split | ((refine (steady_foldl _ (fun s x => ?_) _ _).trans ?_) <;> try dsimp only) | ((refine (steady_foldl2 _ (fun s x => ?_) _ _).trans ?_) <;> try dsimp only) | simp)
  all_goals simp_all

@[simp] theorem tripRecord_steady (die : Nat) (temp : Int) (s : State) : steady (tripRecord die temp s) = steady s := by simp [tripRecord]

@[simp] theorem endDrain_steady (s : State) : steady (endDrain s) = steady s := by unfold endDrain; split <;> simp

@[simp] theorem beginFlush_steady (src : Nat) (s : State) : steady (beginFlush src s) = steady s := by
  unfold beginFlush
  split
  · rfl
  · extract_lets use s1 pins0 slk0 fl0 pw0 s2 s3
    have h1 : steady s1 = steady s := by
      refine (steady_foldl _ (fun s f => by simp) _ _).trans ?_
      rw [endDrain_steady, proofInterrupt_steady]
    clear_value s1
    have h2 : steady s2 = steady s1 := raise_steady _ _ _ _
    clear_value s2
    have h3 : steady s3 = steady s2 := setMode_steady _ _
    clear_value s3
    rw [dropPasses_steady, stopArray_steady, dropUndecided_steady, h3, h2, h1]

@[simp] theorem sendPf_steady (s : State) : steady (sendPf s) = steady s := by simp [sendPf]

/-! ## Cadence -/

@[simp] theorem dropLock_steady (s : State) : steady (dropLock s) = steady s := by simp [dropLock]

@[simp] theorem loseLock_steady (cause : Nat) (s : State) : steady (loseLock cause s) = steady s := by simp [loseLock]

@[simp] theorem alignCount_steady (e t : Nat) (s : State) : steady (alignCount e t s) = steady s := by unfold alignCount; split <;> simp

@[simp] theorem goodHeader_steady (h : List Byte) (rc : Nat) (s : State) : steady (goodHeader h rc s) = steady s := by
  unfold goodHeader
  extract_lets ver e t s0 cad0 s1 cad1 s2 cad2 s3 v2 cad4 s4
  have h0 : steady s0 = steady s := alignCount_steady _ _ _
  have h1 : steady s1 = steady s0 := rfl
  have h2 : steady s2 = steady s1 := by
    simp only [s2]
    split
    · exact setVer_steady _ _
    split
    · rfl
    generalize (_ && inDepth s1) = b
    cases b <;> rfl
  clear_value s2
  have h3 : steady s3 = steady s2 := by
    simp only [s3]
    split
    · rw [raise_steady]; rfl
    · rfl
  clear_value s3
  have h4 : steady s4 = steady s3 := rfl
  clear_value s4
  split
  · rw [headerCmd_steady, h4, h3, h2, h1, h0]
  · rw [h4, h3, h2, h1, h0]

@[simp] theorem badHeader_steady (s : State) : steady (badHeader s) = steady s := by
  unfold badHeader
  try dsimp only
  repeat' (first | split | ((refine (steady_foldl _ (fun s x => ?_) _ _).trans ?_) <;> try dsimp only) | ((refine (steady_foldl2 _ (fun s x => ?_) _ _).trans ?_) <;> try dsimp only) | simp)
  all_goals simp_all

@[simp] theorem relockNow_steady (s : State) : steady (relockNow s) = steady s := by unfold relockNow; split <;> simp

@[simp] theorem tokenReleaseNow_steady (s : State) : steady (tokenReleaseNow s) = steady s := by unfold tokenReleaseNow; split <;> simp

@[simp] theorem commitSched_steady (l : List Byte) (arg src : Nat) (s : State) : steady (commitSched l arg src s) = steady s := by simp [commitSched]

@[simp] theorem answer_steady (w : Nat) (s : State) : steady (answer w s) = steady s := by simp [answer]

@[simp] theorem forwardTurn_steady (h : List Byte) (rollcall : Nat) (s : State) : steady (forwardTurn h rollcall s) = steady s := by
  unfold forwardTurn
  try dsimp only
  repeat' (first | split | ((refine (steady_foldl _ (fun s x => ?_) _ _).trans ?_) <;> try dsimp only) | ((refine (steady_foldl2 _ (fun s x => ?_) _ _).trans ?_) <;> try dsimp only) | simp)
  all_goals simp_all

@[simp] theorem rollCall_steady (ups : List (Nat × BitVec 1024)) (s : State) : steady (rollCall ups s) = steady s := by
  unfold rollCall
  try dsimp only
  repeat' (first | split | ((refine (steady_foldl _ (fun s x => ?_) _ _).trans ?_) <;> try dsimp only) | ((refine (steady_foldl2 _ (fun s x => ?_) _ _).trans ?_) <;> try dsimp only) | simp)
  all_goals simp_all

@[simp] theorem updPart_steady (a : Nat) (g : Part13 → Part13) (s : State) : steady (updPart a g s) = steady s := by simp [updPart]

@[simp] theorem failDeliv_steady (d : Deliv) (cause : Nat) (s : State) : steady (failDeliv d cause s) = steady s := by
  unfold failDeliv
  try dsimp only
  repeat' (first | split | ((refine (steady_foldl _ (fun s x => ?_) _ _).trans ?_) <;> try dsimp only) | ((refine (steady_foldl2 _ (fun s x => ?_) _ _).trans ?_) <;> try dsimp only) | simp)
  all_goals simp_all

@[simp] theorem beginDelivs_steady : ∀ (n : Nat) (s : State), steady (beginDelivs n s) = steady s
  | 0, _ => rfl
  | n + 1, s => by
    unfold beginDelivs
    split
    · rfl
    · split
      · rw [beginDelivs_steady n]; rfl
      · rw [beginDelivs_steady n, failDeliv_steady]

@[simp] theorem delivAnswer_steady (d : Deliv) (code : Nat) (reply : Nat) (s : State) : steady (delivAnswer d code reply s) = steady s := by
  unfold delivAnswer
  try dsimp only
  repeat' (first | split | ((refine (steady_foldl _ (fun s x => ?_) _ _).trans ?_) <;> try dsimp only) | ((refine (steady_foldl2 _ (fun s x => ?_) _ _).trans ?_) <;> try dsimp only) | simp)
  all_goals simp_all

@[simp] theorem schedLoadOn_steady (buf : List Byte) (k : Ctx) (s : State) : steady (schedLoadOn buf k s) = steady s := by
  unfold schedLoadOn
  generalize padTo 128 buf = b
  extract_lets w tgt d s1
  clear_value w tgt d
  split
  · simp
  split
  · simp
  split
  · simp
  · rw [beginDelivs_steady]
    exact putCtx_steady { k with wait := .sched } s

@[simp] theorem pfSendNow_steady (s : State) : steady (pfSendNow s) = steady s := by unfold pfSendNow; split <;> simp

@[simp] theorem writeRootCmd_steady (cmd arg : Nat) (send : Bool) (s : State) : steady (writeRootCmd cmd arg send s) = steady s := by
  unfold writeRootCmd
  try dsimp only
  repeat' (first | split | ((refine (steady_foldl _ (fun s x => ?_) _ _).trans ?_) <;> try dsimp only) | ((refine (steady_foldl2 _ (fun s x => ?_) _ _).trans ?_) <;> try dsimp only) | simp)
  all_goals simp_all

@[simp] theorem writeRootEpoch_steady (v : Nat) (s : State) : steady (writeRootEpoch v s) = steady s := by simp [writeRootEpoch]

theorem logReply_crcFail_steady (l : List Byte) (k : Ctx) (s : State) : steady { logReply l k s with cad := { (logReply l k s).cad with
    parts := Tbl.mapV (logReply l k s).cad.parts (fun _ p => { p with crcFail := false }) } } = steady s := by
  rw [steady_mk, steady_eq, logReply_steady]

@[simp] theorem cadLogOn_steady (k : Ctx) (s : State) : steady (cadLogOn k s) = steady s := by
  cases h : (isRoot s && isPf k.cmd.fn)
  · have e : cadLogOn k s = fin k 0 2 s := by simp only [cadLogOn, h]; rfl
    rw [e, fin_steady]
  · rw [cadLogOn, if_pos h]
    exact logReply_crcFail_steady _ _ _

end Sys2Proof.Machine
end

