-- ==== Sys2Proof/Laws/Studbook.lean ====
section
/-! SUPPORT. The Studbook's operations keep its bounds (R51, R397, R400, R405): 256 queued events, 16 always-on ones, 64 early records before the load, one record a slot of the ring. `Ext` carries the bounds through what follows a Studbook operation. -/

namespace Sys2Proof.Machine
open Sys2Proof

set_option linter.unusedTactic false
set_option linter.unreachableTactic false
set_option linter.unusedSimpArgs false

/-! ## StbOps -/

/-! ## The Studbook's bounds -/

/-- The part, the command queue and the image stay, and the Studbook's bounds are kept. -/
def Stays (s t : State) : Prop := t.part = s.part ∧ t.pending = s.pending ∧ t.img = s.img ∧ (stbBounds s → stbBounds t)

theorem Stays.refl (s : State) : Stays s s := ⟨rfl, rfl, rfl, id⟩
theorem Stays.trans {a b c : State} (h1 : Stays a b) (h2 : Stays b c) : Stays a c :=
  ⟨h2.1.trans h1.1, h2.2.1.trans h1.2.1, h2.2.2.1.trans h1.2.2.1, fun h => h2.2.2.2 (h1.2.2.2 h)⟩
theorem Stays.of_steady {s t : State} (h : steady t = steady s) : Stays s t := by
  simp only [steady, Prod.mk.injEq] at h
  obtain ⟨h1, h2, h3, h4, h5, h6, h7, h8, h9⟩ := h
  refine ⟨h1, h2, h3, fun h => ?_⟩
  simpa only [stbBounds, h4, h5, h6, h7, h8, h9] using h
theorem stays_foldl {α : Type} (f : State → α → State) (h : ∀ s x, Stays s (f s x)) : ∀ (l : List α) (s : State), Stays s (l.foldl f s)
  | [], s => Stays.refl s
  | x :: xs, s => (h s x).trans (stays_foldl f h xs (f s x))

theorem enqueueEv_frame (b : Stb) (e : Ev) : (enqueueEv b e).early = b.early ∧ (enqueueEv b e).loaded = b.loaded ∧
    (enqueueEv b e).per = b.per ∧ (enqueueEv b e).ring = b.ring ∧ (enqueueEv b e).raised = b.raised ∧
    (b.queue.length ≤ 256 → (enqueueEv b e).queue.length ≤ 256) ∧ (b.aon.length ≤ 16 → (enqueueEv b e).aon.length ≤ 16) := by
  unfold enqueueEv
  repeat' split
  all_goals simp only [true_and, List.length_append, List.length_singleton]
  all_goals omega

theorem enqueueAll_frame : ∀ (l : List Ev) (b : Stb), (l.foldl enqueueEv b).early = b.early ∧ (l.foldl enqueueEv b).loaded = b.loaded ∧
    (l.foldl enqueueEv b).per = b.per ∧ (l.foldl enqueueEv b).ring = b.ring ∧ (l.foldl enqueueEv b).raised = b.raised ∧
    (b.queue.length ≤ 256 → (l.foldl enqueueEv b).queue.length ≤ 256) ∧ (b.aon.length ≤ 16 → (l.foldl enqueueEv b).aon.length ≤ 16)
  | [], b => by simp
  | x :: xs, b => by
    obtain ⟨h1, h2, h3, h4, h5, h6, h7⟩ := enqueueEv_frame b x
    obtain ⟨g1, g2, g3, g4, g5, g6, g7⟩ := enqueueAll_frame xs (enqueueEv b x)
    exact ⟨g1.trans h1, g2.trans h2, g3.trans h3, g4.trans h4, g5.trans h5, fun h => g6 (h6 h), fun h => g7 (h7 h)⟩

theorem settle_stays (s : State) : Stays s (settle s) := by
  obtain ⟨g1, g2, g3, g4, g5, g6, g7⟩ := enqueueAll_frame (sortEvs s.stb.raised) { s.stb with raised := [] }
  refine ⟨rfl, rfl, rfl, fun ⟨b1, b2, b3, b5, b6, b7, b8⟩ => ?_⟩
  exact ⟨g6 b1, g7 b2, by simp only [settle, g1, g2]; exact b3, by simp only [settle, g4]; exact b5,
    by simp only [settle, g4]; exact b6, by simp only [settle, g3]; exact b7, by simp only [settle, g3]; exact b8⟩

theorem settle_raised (s : State) : (settle s).stb.raised = [] := (enqueueAll_frame (sortEvs s.stb.raised) { s.stb with raised := [] }).2.2.2.2.1

/-! ### Sparse tables -/

theorem Tbl.rising_cons {α : Type} {k : Nat} {v : α} : ∀ {t : Tbl α}, Tbl.rising ((k, v) :: t) = true ↔ (∀ p ∈ t, k < p.1) ∧ Tbl.rising t = true
  | [] => by simp [Tbl.rising]
  | (k', v') :: t => by
    simp only [Tbl.rising, Bool.and_eq_true, decide_eq_true_eq, List.mem_cons]
    constructor
    · rintro ⟨h1, h2⟩
      refine ⟨?_, h2⟩
      rintro p (rfl | hp)
      · exact h1
      · exact Nat.lt_trans h1 ((Tbl.rising_cons.mp h2).1 p hp)
    · rintro ⟨h1, h2⟩
      exact ⟨h1 (k', v') (Or.inl rfl), h2⟩

theorem Tbl.mem_put {α : Type} {x : Nat} {a : α} {p : Nat × α} : ∀ {t : Tbl α}, p ∈ Tbl.put t x a → p = (x, a) ∨ p ∈ t
  | [], h => by simpa [Tbl.put] using h
  | (k, v) :: t, h => by
    simp only [Tbl.put] at h
    split at h
    · simpa using h
    · split at h
      · simp only [List.mem_cons] at h ⊢; tauto
      · simp only [List.mem_cons] at h ⊢
        rcases h with rfl | h
        · exact Or.inr (Or.inl rfl)
        · rcases Tbl.mem_put h with h | h
          · exact Or.inl h
          · exact Or.inr (Or.inr h)

theorem Tbl.put_rising {α : Type} {x : Nat} {a : α} : ∀ {t : Tbl α}, Tbl.rising t = true → Tbl.rising (Tbl.put t x a) = true
  | [], _ => rfl
  | (k, v) :: t, h => by
    have h' := Tbl.rising_cons.mp h
    simp only [Tbl.put]
    split
    · rename_i hx
      rw [Tbl.rising_cons]
      refine ⟨?_, h⟩
      intro p hp
      rcases List.mem_cons.mp hp with rfl | hp
      · exact hx
      · exact Nat.lt_trans hx (h'.1 p hp)
    · split
      · rename_i hx
        subst hx
        exact Tbl.rising_cons.mpr h'
      · rename_i h1 h2
        rw [Tbl.rising_cons]
        refine ⟨fun p hp => ?_, Tbl.put_rising h'.2⟩
        rcases Tbl.mem_put hp with rfl | hp
        · show k < x
          omega
        · exact h'.1 p hp

theorem Tbl.put_length {α : Type} {x : Nat} {a : α} : ∀ {t : Tbl α}, (Tbl.put t x a).length ≤ t.length + 1
  | [] => by simp [Tbl.put]
  | (k, v) :: t => by
    simp only [Tbl.put]
    split
    · simp
    · split
      · simp
      · have := Tbl.put_length (x := x) (a := a) (t := t)
        simp only [List.length_cons]; omega

theorem Tbl.put_length_mem {α : Type} {x : Nat} {a : α} : ∀ {t : Tbl α}, Tbl.rising t = true → (∃ p ∈ t, p.1 = x) →
    (Tbl.put t x a).length = t.length
  | [], _, h => by simp at h
  | (k, v) :: t, hr, h => by
    have h' := Tbl.rising_cons.mp hr
    simp only [Tbl.put]
    split
    · rename_i hx
      obtain ⟨p, hp, rfl⟩ := h
      rcases List.mem_cons.mp hp with rfl | hp
      · simp at hx
      · have := h'.1 p hp; omega
    · split
      · simp
      · rename_i h1 h2
        simp only [List.length_cons]
        rw [Tbl.put_length_mem h'.2]
        obtain ⟨p, hp, rfl⟩ := h
        rcases List.mem_cons.mp hp with rfl | hp
        · simp at h2
        · exact ⟨p, hp, rfl⟩

/-! ### The ring -/

theorem writeSlot_frame (n : Nat) (r : Rec) (us : Option Nat) (b : Stb) : (writeSlot n r us b).queue = b.queue ∧ (writeSlot n r us b).aon = b.aon ∧
    (writeSlot n r us b).early = b.early ∧ (writeSlot n r us b).loaded = b.loaded ∧ (writeSlot n r us b).per = b.per ∧
    (writeSlot n r us b).raised = b.raised ∧ (writeSlot n r us b).ring = Tbl.put b.ring n { r with seq := b.seqNext } := by
  unfold writeSlot markDirty
  split <;> simp

theorem oldestRec_mem (b : Stb) (p : Rec → Bool) {x : Nat × Rec} (h : oldestRec b p = some x) : x ∈ b.ring := by
  unfold oldestRec at h
  have key : ∀ (l : Tbl Rec) (o : Option (Nat × Rec)), (∀ y, o = some y → y ∈ b.ring) → (∀ y ∈ l, y ∈ b.ring) →
      l.foldl (fun o x => if p x.2 then (match o with | none => some x | some y => if seqAge b y.2.seq < seqAge b x.2.seq then some x else some y) else o) o
        = some x → x ∈ b.ring := by
    intro l
    induction l with
    | nil => intro o ho _ h; exact ho x h
    | cons z zs ih =>
      intro o ho hl h
      refine ih _ ?_ (fun y hy => hl y (List.mem_cons_of_mem _ hy)) h
      intro y hy
      have hz := hl z List.mem_cons_self
      dsimp only at hy
      split at hy
      · split at hy
        · cases hy; exact hz
        · split at hy
          · cases hy; exact hz
          · cases hy; exact ho _ rfl
      · exact ho y hy
  exact key _ _ (fun y hy => by cases hy) (fun y hy => hy) h

theorem placeNew_stays (r : Rec) (us : Option Nat) (s : State) : Stays s (placeNew r us s) ∧ (placeNew r us s).stb.early = s.stb.early ∧
    (placeNew r us s).stb.loaded = s.stb.loaded ∧ (placeNew r us s).stb.raised = s.stb.raised := by
  unfold placeNew
  dsimp only
  have ring : ∀ (n : Nat) (f : Nat), (s.stb.ring.rising = true → s.stb.ring.length ≤ 32768 → (Tbl.put s.stb.ring n { r with seq := s.stb.seqNext }).length ≤ 32768) →
      Stays s { s with stb := writeSlot n r us s.stb, free := f } ∧ (writeSlot n r us s.stb).early = s.stb.early ∧
      (writeSlot n r us s.stb).loaded = s.stb.loaded ∧ (writeSlot n r us s.stb).raised = s.stb.raised := by
    intro n f hl
    obtain ⟨h1, h2, h3, h4, h5, h6, h7⟩ := writeSlot_frame n r us s.stb
    refine ⟨⟨rfl, rfl, rfl, fun ⟨b1, b2, b3, b5, b6, b7, b8⟩ => ?_⟩, h3, h4, h6⟩
    simp only [stbBounds, h1, h2, h3, h4, h5, h7]
    exact ⟨b1, b2, b3, Tbl.put_rising b5, hl b5 b6, b7, b8⟩
  split
  · rename_i h
    refine ring _ _ (fun _ _ => ?_)
    have := Tbl.put_length (x := nthFree s.stb.ring 0 (Config.freeNat s.free % (ringSize - s.stb.ring.length))) (a := { r with seq := s.stb.seqNext }) (t := s.stb.ring)
    unfold ringSize at h this ⊢
    omega
  · split
    · rename_i x h
      refine ring x.1 s.free (fun hr hl => ?_)
      rw [Tbl.put_length_mem hr ⟨x, oldestRec_mem _ _ h, rfl⟩]
      exact hl
    · exact ⟨⟨rfl, rfl, rfl, id⟩, rfl, rfl, rfl⟩

theorem placeEv_stays (e : Ev) (s : State) : Stays s (placeEv e s) ∧ (placeEv e s).stb.early = s.stb.early ∧ (placeEv e s).stb.loaded = s.stb.loaded ∧
    (placeEv e s).stb.raised = s.stb.raised := by
  unfold placeEv
  dsimp only
  split
  · rename_i x hx
    split
    · have hm : x ∈ s.stb.ring := List.mem_of_find?_eq_some hx
      unfold markDirty
      have key : stbBounds s → stbBounds { s with stb := { s.stb with ring := Tbl.put s.stb.ring x.1 { x.2 with rpt := x.2.rpt + 1 } } } := by
        rintro ⟨b1, b2, b3, b5, b6, b7, b8⟩
        exact ⟨b1, b2, b3, Tbl.put_rising b5, by show (Tbl.put _ _ _).length ≤ _; rw [Tbl.put_length_mem b5 ⟨x, hm, rfl⟩]; exact b6, b7, b8⟩
      split
      · exact ⟨⟨rfl, rfl, rfl, key⟩, rfl, rfl, rfl⟩
      · exact ⟨⟨rfl, rfl, rfl, key⟩, rfl, rfl, rfl⟩
    · exact placeNew_stays _ _ _
  · exact placeNew_stays _ _ _

theorem placeEarly_stays (e : Ev) (s : State) : Stays s (placeEarly e s) := by
  unfold placeEarly
  split
  · refine ⟨rfl, rfl, rfl, fun ⟨b1, b2, b3, b5, b6, b7, b8⟩ => ⟨b1, b2, fun _ => ?_, b5, b6, b7, b8⟩⟩
    simp only [List.length_append, List.length_singleton]
    omega
  · exact ⟨rfl, rfl, rfl, id⟩

theorem appendEarly_stays : ∀ (n : Nat) (s : State), Stays s (appendEarly n s)
  | 0, s => Stays.refl s
  | n + 1, s => by
    unfold appendEarly
    split
    · exact Stays.refl s
    · rename_i r rs h
      split
      · exact Stays.refl s
      · refine Stays.trans ?_ (appendEarly_stays n _)
        refine Stays.trans ?_ (placeNew_stays r none _).1
        refine ⟨rfl, rfl, rfl, fun ⟨b1, b2, b3, b5, b6, b7, b8⟩ => ⟨b1, b2, fun hl => ?_, b5, b6, b7, b8⟩⟩
        have := b3 hl
        rw [h] at this
        simp only [List.length_cons] at this
        show rs.length ≤ 64
        omega

theorem persistNow_stays (s : State) : Stays s (persistNow s) := by
  unfold persistNow
  extract_lets b res t
  refine Stays.trans ?_ (appendEarly_stays _ _)
  exact ⟨rfl, rfl, rfl, fun ⟨b1, b2, b3, b5, b6, b7, b8⟩ => ⟨b1, b2, b3, b5, b6, b5, b6⟩⟩

theorem takeFront_stays (e : Ev) (es : List Ev) (c : Bool) (s s1 : State) (h : s.stb.queue = e :: es) (h1 : Stays s s1) :
    Stays s (if c then s1 else placeEv e { s1 with stb := { s1.stb with queue := es } }) := by
  cases c
  · refine Stays.trans (b := { s1 with stb := { s1.stb with queue := es } }) ⟨h1.1, h1.2.1, h1.2.2.1, fun hb => ?_⟩ (placeEv_stays e _).1
    obtain ⟨b1, b2, b3, b5, b6, b7, b8⟩ := h1.2.2.2 hb
    refine ⟨?_, b2, b3, b5, b6, b7, b8⟩
    have hq := hb.1
    rw [h] at hq
    simp only [List.length_cons] at hq
    show es.length ≤ 256
    omega
  · exact h1

theorem persistIf_stays (c : Bool) (s : State) : Stays s (if c then persistNow s else s) := by
  cases c
  · exact Stays.refl s
  · exact persistNow_stays s

theorem placeFront_stays (s : State) : Stays s (placeFront s) := by
  unfold placeFront
  split
  · exact Stays.refl s
  · rename_i e es h
    split
    · refine Stays.trans (b := { s with stb := { s.stb with queue := es } }) ?_ (placeEarly_stays e _)
      refine ⟨rfl, rfl, rfl, fun ⟨b1, b2, b3, b5, b6, b7, b8⟩ => ⟨?_, b2, b3, b5, b6, b7, b8⟩⟩
      rw [h] at b1
      simp only [List.length_cons] at b1
      show es.length ≤ 256
      omega
    · exact takeFront_stays e es _ s _ h (persistIf_stays _ s)

theorem drainQueue_stays : ∀ (n : Nat) (s : State), Stays s (drainQueue n s)
  | 0, s => Stays.refl s
  | n + 1, s => (placeFront_stays s).trans (drainQueue_stays n _)

theorem persistAll_stays (s : State) : Stays s (persistAll s) := by
  unfold persistAll
  extract_lets s1 s2 s3 s4
  have h2 : Stays s s2 := (settle_stays s).trans (drainQueue_stays _ _)
  split
  · have h4 : Stays s s4 := h2.trans ((persistNow_stays s2).trans (drainQueue_stays _ _))
    split
    · exact h4
    · exact h4.trans (persistNow_stays s4)
  · exact h2

theorem flushStudbook_stays (s : State) : Stays s (flushStudbook s) := by
  unfold flushStudbook
  extract_lets s1 inJob b0 p0
  have h1 : Stays s s1 := persistAll_stays s
  clear_value s1
  split
  · exact h1.trans (Stays.of_steady (tick_steady _))
  · exact h1.trans ⟨rfl, rfl, rfl, id⟩

theorem loadRing_stays (s : State) : Stays s (loadRing s) := by
  unfold loadRing
  extract_lets p add b0 b s1
  have h1 : Stays s s1 := ⟨rfl, rfl, rfl, fun ⟨b1, b2, b3, b5, b6, b7, b8⟩ => ⟨b1, b2, fun h => (by cases h), b7, b8, b7, b8⟩⟩
  split
  · exact h1
  · exact h1.trans (persistNow_stays _)

theorem aonWake_stays (s : State) : Stays s (aonWake s) := by
  unfold aonWake
  extract_lets b room
  refine ⟨rfl, rfl, rfl, fun ⟨b1, b2, b3, b5, b6, b7, b8⟩ => ⟨?_, Nat.zero_le _, b3, b5, b6, b7, b8⟩⟩
  show (b.queue ++ b.aon.take room).length ≤ 256
  simp only [List.length_append, List.length_take, room]
  have : b.queue.length ≤ 256 := b1
  omega

/-- The type of a state's steady part. -/
abbrev Tup := Part × List Instr × Img × List Ev × List Ev × List Rec × Bool × StbPersist × Tbl Rec

/-- The steady part of one state extends another's: part, queue and image the same, the bounds kept. -/
def Ext (x y : Tup) : Prop :=
  y.1 = x.1 ∧ y.2.1 = x.2.1 ∧ y.2.2.1 = x.2.2.1 ∧
  ((x.2.2.2.1.length ≤ 256 ∧ x.2.2.2.2.1.length ≤ 16 ∧ (x.2.2.2.2.2.2.1 = false → x.2.2.2.2.2.1.length ≤ 64) ∧
    x.2.2.2.2.2.2.2.2.rising = true ∧ x.2.2.2.2.2.2.2.2.length ≤ 32768 ∧
    x.2.2.2.2.2.2.2.1.ring.rising = true ∧ x.2.2.2.2.2.2.2.1.ring.length ≤ 32768) →
  (y.2.2.2.1.length ≤ 256 ∧ y.2.2.2.2.1.length ≤ 16 ∧ (y.2.2.2.2.2.2.1 = false → y.2.2.2.2.2.1.length ≤ 64) ∧
    y.2.2.2.2.2.2.2.2.rising = true ∧ y.2.2.2.2.2.2.2.2.length ≤ 32768 ∧
    y.2.2.2.2.2.2.2.1.ring.rising = true ∧ y.2.2.2.2.2.2.2.1.ring.length ≤ 32768))

theorem Ext.iff {s t : State} : Ext (steady s) (steady t) ↔ Stays s t := Iff.rfl
@[simp] theorem Ext.refl (x : Tup) : Ext x x :=
  ⟨rfl, rfl, rfl, id⟩
theorem Ext.trans {x y z : Tup} (h1 : Ext x y) (h2 : Ext y z) :
    Ext x z := ⟨h2.1.trans h1.1, h2.2.1.trans h1.2.1, h2.2.2.1.trans h1.2.2.1, fun h => h2.2.2.2 (h1.2.2.2 h)⟩
theorem Ext.stays {x : Tup} {s t : State}
    (h1 : Ext x (steady s)) (h2 : Stays s t) : Ext x (steady t) := h1.trans (Ext.iff.mpr h2)
theorem ext_foldl {α : Type} {x : Tup} (f : State → α → State)
    (h : ∀ s e, Ext x (steady s) → Ext x (steady (f s e))) : ∀ (l : List α) (s : State), Ext x (steady s) → Ext x (steady (l.foldl f s))
  | [], _, h0 => h0
  | e :: es, s, h0 => ext_foldl f h es (f s e) (h s e h0)
theorem withCmd_ext {x : Tup} (c : Cmd) (s : State) (f : Ctx → State → State)
    (h : ∀ k s, Ext x (steady s) → Ext x (steady (f k s))) (h0 : Ext x (steady s)) : Ext x (steady (withCmd c s f)) := by
  unfold withCmd
  have hr : ∀ c, steady (fetchNow c s).2 = steady s := fun c => fetchNow_steady c s
  repeat' split
  all_goals first
    | exact h0
    | (refine h _ _ ?_; simp [h0]; done)
    | (simp [h0]; done)

theorem endDeletes_stays (s : State) : Stays s (endDeletes s) := Stays.of_steady (endDeletes_steady s)

/-- The state a meaning answers after its events are settled: no event is left in flight. -/
theorem done_stays (s : State) : ∃ t, done s = .next t ∧ Stays s t ∧ t.stb.raised = [] :=
  ⟨_, rfl, (endDeletes_stays s).trans (settle_stays _), settle_raised _⟩

theorem doneIo_stays (s : State) : ∃ t, doneIo s = .next t ∧ Stays s t ∧ t.stb.raised = [] := by
  obtain ⟨t, h1, h2, h3⟩ := done_stays (landWatch (resumeIdle (combPump (pumpReads s))))
  exact ⟨t, h1, (Stays.of_steady (by rw [landWatch_steady, resumeIdle_steady, combPump_steady, pumpReads_steady])).trans h2, h3⟩
@[simp] theorem persistAll_ext {x : Tup} {s : State} (h : Ext x (steady s)) : Ext x (steady (persistAll s)) := h.stays (persistAll_stays s)
@[simp] theorem flushStudbook_ext {x : Tup} {s : State} (h : Ext x (steady s)) : Ext x (steady (flushStudbook s)) := h.stays (flushStudbook_stays s)
@[simp] theorem loadRing_ext {x : Tup} {s : State} (h : Ext x (steady s)) : Ext x (steady (loadRing s)) := h.stays (loadRing_stays s)
@[simp] theorem aonWake_ext {x : Tup} {s : State} (h : Ext x (steady s)) : Ext x (steady (aonWake s)) := h.stays (aonWake_stays s)
@[simp] theorem persistNow_ext {x : Tup} {s : State} (h : Ext x (steady s)) : Ext x (steady (persistNow s)) := h.stays (persistNow_stays s)
@[simp] theorem placeFront_ext {x : Tup} {s : State} (h : Ext x (steady s)) : Ext x (steady (placeFront s)) := h.stays (placeFront_stays s)
@[simp] theorem settle_ext {x : Tup} {s : State} (h : Ext x (steady s)) : Ext x (steady (settle s)) := h.stays (settle_stays s)

end Sys2Proof.Machine
end

