-- ==== Sys2Proof/Laws/KeptStart.lean ====
section
/-! SUPPORT. What restarts, power, keys, half-hitches and the Gather engine leave alone, or extend within the Studbook's bounds. -/

namespace Sys2Proof.Machine
open Sys2Proof

set_option linter.unusedTactic false
set_option linter.unreachableTactic false
set_option linter.unusedSimpArgs false

/-! ## Start -/

@[simp] theorem persistStampLife_steady (s : State) : steady (persistStampLife s) = steady s := by simp [persistStampLife]

@[simp] theorem checkpoint_ext {x : Tup} (s : State) (h : Ext x (steady s)) : Ext x (steady (checkpoint s)) := by
  unfold checkpoint
  try dsimp only
  repeat' (first | split | (refine ext_foldl _ (fun s e h => ?_) _ _ ?_) | (simp [*]; done))
  all_goals simp_all

@[simp] theorem cleanClose_ext {x : Tup} (s : State) (h : Ext x (steady s)) : Ext x (steady (cleanClose s)) := by
  unfold cleanClose
  try dsimp only
  repeat' (first | split | (refine ext_foldl _ (fun s e h => ?_) _ _ ?_) | (simp [*]; done))
  all_goals simp_all

/-- A restart keeps the part and the command queue and leaves the Studbook's buffers empty; the image stays where VDD_AON does. -/
theorem restartWith_kept (aon keep : Bool) (s : State) : (restartWith aon keep s).part = s.part ∧ (restartWith aon keep s).pending = s.pending ∧
    (restartWith aon keep s).img = (if aon then s.img else Img.dflt s.part) ∧ (restartWith aon keep s).stb.raised = [] ∧
    (stbBounds s → stbBounds (restartWith aon keep s)) := by
  refine ⟨rfl, rfl, rfl, rfl, fun ⟨b1, b2, b3, b5, b6, b7, b8⟩ => ?_⟩
  exact ⟨Nat.zero_le _, Nat.zero_le _, fun _ => Nat.zero_le _, rfl, Nat.zero_le _, b7, b8⟩

theorem restartWith_stays (keep : Bool) (s : State) : Stays s (restartWith true keep s) := by
  obtain ⟨h1, h2, h3, -, h4⟩ := restartWith_kept true keep s
  exact ⟨h1, h2, h3, h4⟩

theorem restart_kept (aon keep : Bool) (s : State) : (restart aon keep s).part = s.part ∧ (restart aon keep s).pending = s.pending ∧
    (restart aon keep s).img = (if aon then s.img else Img.dflt s.part) ∧ (restart aon keep s).stb.raised = [] ∧
    (stbBounds s → stbBounds (restart aon keep s)) := by
  obtain ⟨h1, h2, h3, h4, h5⟩ := restartWith_kept aon keep (cutAll s)
  obtain ⟨g1, g2, g3, g4⟩ := Stays.of_steady (cutAll_steady s)
  exact ⟨h1.trans g1, h2.trans g2, by rw [restart, h3, g1, g3], h4, fun h => h5 (g4 h)⟩

@[simp] theorem restart_ext {x : Tup} (keep : Bool) (s : State) (h : Ext x (steady s)) : Ext x (steady (restart true keep s)) := by
  obtain ⟨h1, h2, h3, -, h4⟩ := restart_kept true keep s
  exact h.stays ⟨h1, h2, h3, h4⟩

@[simp] theorem enterReset_ext {x : Tup} (s : State) (h : Ext x (steady s)) : Ext x (steady (enterReset s)) := by
  unfold enterReset
  try dsimp only
  repeat' (first | split | (refine ext_foldl _ (fun s e h => ?_) _ _ ?_) | (simp [*]; done))
  all_goals simp_all

@[simp] theorem rebuildCopy_steady (s : State) : steady (rebuildCopy s) = steady s := by unfold rebuildCopy; split <;> simp

/-! ## Power -/

@[simp] theorem accrue_steady (s : State) : steady (accrue s) = steady s := by
  unfold accrue
  try dsimp only
  repeat' (first | split | ((refine (steady_foldl _ (fun s x => ?_) _ _).trans ?_) <;> try dsimp only) | ((refine (steady_foldl2 _ (fun s x => ?_) _ _).trans ?_) <;> try dsimp only) | simp)
  all_goals simp_all

@[simp] theorem setPs_steady (n : Nat) (s : State) : steady (setPs n s) = steady s := by unfold setPs; split <;> simp

@[simp] theorem repower_steady (s : State) : steady (repower s) = steady s := by unfold repower; split <;> simp

@[simp] theorem setFnPs_steady (f n : Nat) (s : State) : steady (setFnPs f n s) = steady s := by simp [setFnPs]

@[simp] theorem wake_ext {x : Tup} (cause : Nat) (s : State) (h : Ext x (steady s)) : Ext x (steady (wake cause s)) := by
  unfold wake
  try dsimp only
  repeat' (first | split | (refine ext_foldl _ (fun s e h => ?_) _ _ ?_) | (simp [*]; done))
  all_goals simp_all

@[simp] theorem touch_ext {x : Tup} (f : Nat) (s : State) (h : Ext x (steady s)) : Ext x (steady (touch f s)) := by
  unfold touch
  try dsimp only
  repeat' (first | split | (refine ext_foldl _ (fun s e h => ?_) _ _ ?_) | (simp [*]; done))
  all_goals simp_all

@[simp] theorem ageBy_steady (dt : Nat) (tj : Option Int) (s : State) : steady (ageBy dt tj s) = steady s := by
  unfold ageBy
  try dsimp only
  repeat' (first | split | ((refine (steady_foldl _ (fun s x => ?_) _ _).trans ?_) <;> try dsimp only) | ((refine (steady_foldl2 _ (fun s x => ?_) _ _).trans ?_) <;> try dsimp only) | simp)
  all_goals simp_all

@[simp] theorem entryDone_steady (t : Nat) (s : State) : steady (entryDone t s) = steady s := by
  unfold entryDone
  try dsimp only
  repeat' (first | split | ((refine (steady_foldl _ (fun s x => ?_) _ _).trans ?_) <;> try dsimp only) | ((refine (steady_foldl2 _ (fun s x => ?_) _ _).trans ?_) <;> try dsimp only) | simp)
  all_goals simp_all

@[simp] theorem reconcile_steady (hdr : Option (Nat × Nat)) (s : State) : steady (reconcile hdr s) = steady s := by
  unfold reconcile
  repeat' split
  all_goals simp

@[simp] theorem lifeLogOn_steady (k : Ctx) (s : State) : steady (lifeLogOn k s) = steady s := by unfold lifeLogOn; split <;> simp

@[simp] theorem takeFlash_steady (l : List (Nat × Nat × Option Int)) (s : State) : steady (takeFlash l s) = steady s := by
  unfold takeFlash
  try dsimp only
  repeat' (first | split | ((refine (steady_foldl _ (fun s x => ?_) _ _).trans ?_) <;> try dsimp only) | ((refine (steady_foldl2 _ (fun s x => ?_) _ _).trans ?_) <;> try dsimp only) | simp)
  all_goals simp_all

@[simp] theorem takeRails_steady (l : List (Nat × Nat)) (s : State) : steady (takeRails l s) = steady s := by
  unfold takeRails
  try dsimp only
  repeat' (first | split | ((refine (steady_foldl _ (fun s x => ?_) _ _).trans ?_) <;> try dsimp only) | ((refine (steady_foldl2 _ (fun s x => ?_) _ _).trans ?_) <;> try dsimp only) | simp)
  all_goals simp_all

@[simp] theorem takeTherm_steady (l : List Therm) (s : State) : steady (takeTherm l s) = steady s := by
  unfold takeTherm
  try dsimp only
  repeat' (first | split | ((refine (steady_foldl _ (fun s x => ?_) _ _).trans ?_) <;> try dsimp only) | ((refine (steady_foldl2 _ (fun s x => ?_) _ _).trans ?_) <;> try dsimp only) | simp)
  all_goals simp_all

@[simp] theorem throttleStep_steady (s : State) : steady (throttleStep s) = steady s := by
  unfold throttleStep
  try dsimp only
  repeat' (first | split | ((refine (steady_foldl _ (fun s x => ?_) _ _).trans ?_) <;> try dsimp only) | ((refine (steady_foldl2 _ (fun s x => ?_) _ _).trans ?_) <;> try dsimp only) | simp)
  all_goals simp_all

@[simp] theorem endHotFlushes_steady (s : State) : steady (endHotFlushes s) = steady s := by
  unfold endHotFlushes
  try dsimp only
  repeat' (first | split | ((refine (steady_foldl _ (fun s x => ?_) _ _).trans ?_) <;> try dsimp only) | ((refine (steady_foldl2 _ (fun s x => ?_) _ _).trans ?_) <;> try dsimp only) | simp)
  all_goals simp_all

@[simp] theorem thmStep_steady (s : State) : steady (thmStep s) = steady s := by
  unfold thmStep
  try dsimp only
  repeat' (first | split | ((refine (steady_foldl _ (fun s x => ?_) _ _).trans ?_) <;> try dsimp only) | ((refine (steady_foldl2 _ (fun s x => ?_) _ _).trans ?_) <;> try dsimp only) | simp)
  all_goals simp_all

@[simp] theorem tmpReport_steady (s : State) : steady (tmpReport s) = steady s := by
  unfold tmpReport
  try dsimp only
  repeat' (first | split | ((refine (steady_foldl _ (fun s x => ?_) _ _).trans ?_) <;> try dsimp only) | ((refine (steady_foldl2 _ (fun s x => ?_) _ _).trans ?_) <;> try dsimp only) | simp)
  all_goals simp_all

@[simp] theorem sagStep_steady (hold : Nat) (s : State) : steady (sagStep hold s) = steady s := by
  unfold sagStep
  try dsimp only
  repeat' (first | split | ((refine (steady_foldl _ (fun s x => ?_) _ _).trans ?_) <;> try dsimp only) | ((refine (steady_foldl2 _ (fun s x => ?_) _ _).trans ?_) <;> try dsimp only) | simp)
  all_goals simp_all

@[simp] theorem boardStep_steady (s : State) : steady (boardStep s) = steady s := by
  unfold boardStep
  try dsimp only
  repeat' (first | split | ((refine (steady_foldl _ (fun s x => ?_) _ _).trans ?_) <;> try dsimp only) | ((refine (steady_foldl2 _ (fun s x => ?_) _ _).trans ?_) <;> try dsimp only) | simp)
  all_goals simp_all

/-! ## Cipher -/

@[simp] theorem commitKey_steady (f slot : Nat) (key : List Byte) (s : State) : steady (commitKey f slot key s) = steady s := by
  unfold commitKey
  repeat' split
  all_goals simp

@[simp] theorem keyWrite_steady (f off : Nat) (bytes : List Byte) (s : State) : steady (keyWrite f off bytes s) = steady s := by
  unfold keyWrite
  try dsimp only
  repeat' (first | split | ((refine (steady_foldl _ (fun s x => ?_) _ _).trans ?_) <;> try dsimp only) | ((refine (steady_foldl2 _ (fun s x => ?_) _ _).trans ?_) <;> try dsimp only) | simp)
  all_goals simp_all

theorem sealOn_end_steady (z : Nat) (q : Zone) (s : State) (F : Zone → State → Ctx) :
    steady (let s1 := if q.st.active then sealAfter z (makeFull z s) else s
      let s2 := updZone z (fun q => { q with sealed := true }) { s1 with ci := { s1.ci with bind := Tbl.upd s1.ci.bind z (fun b =>
        { b with stamp := some (b.stamp.getD (stampNow s)) }) } }
      match zoneAt? z s2 with
      | none => s2
      | some q2 => putCtx (F q2 s2) s2) = steady s := by
  extract_lets s1 ci0 s2
  have h1 : steady s1 = steady s := by
    simp only [s1]
    split
    · rw [sealAfter_steady, makeFull_steady]
    · rfl
  have h2 : steady s2 = steady s1 := updZone_steady _ _ _
  clear_value s2 s1
  split
  · exact h2.trans h1
  · rw [putCtx_steady, h2, h1]

@[simp] theorem sealOn_steady (k : Ctx) (s : State) : steady (sealOn k s) = steady s := by
  unfold sealOn
  extract_lets c
  split
  · simp
  refine withNs_steady _ _ _ (fun n => ?_)
  iterate 5 (split; · simp)
  rename_i q _
  iterate 4 (split; · simp)
  exact sealOn_end_steady _ q s (fun q2 s2 => _)

@[simp] theorem cvuCtl_steady (u v : Nat) (s : State) : steady (cvuCtl u v s) = steady s := by simp [cvuCtl]

@[simp] theorem cvuFeed_steady (u : Nat) (bytes : List Byte) (s : State) : steady (cvuFeed u bytes s) = steady s := by unfold cvuFeed; split <;> simp

@[simp] theorem cvuVal_steady (u v : Nat) (s : State) : steady (cvuVal u v s) = steady s := by simp [cvuVal]

/-! ## HalfHitch -/

@[simp] theorem hhAppendOn_steady (blks : List Blk) (k : Ctx) (s : State) : steady (hhAppendOn blks k s) = steady s := by
  unfold hhAppendOn
  try dsimp only
  repeat' (first | split | (with_reducible refine (withNs_steady _ _ _ (fun n => ?_))) | ((refine (steady_foldl _ (fun s x => ?_) _ _).trans ?_) <;> try dsimp only) | ((refine (steady_foldl2 _ (fun s x => ?_) _ _).trans ?_) <;> try dsimp only) | simp)
  all_goals simp_all

@[simp] theorem hhAccept_steady (mapOk : Bool) (k : Ctx) (n : Ns) (s : State) : steady (hhAccept mapOk k n s) = steady s := by
  unfold hhAccept
  extract_lets c raw coded spills u
  clear_value c coded spills u
  iterate 2 (split; · simp)
  rename_i q _
  extract_lets m
  have hm : steady m.2 = steady s := writeModeStatus_steady _ _
  clear_value m
  split
  · simp [hm]
  rename_i sa r sb wid src0 _ _
  have ha : steady sa = steady s := hm
  split
  · rw [fin_steady]
    split
    · exact (raise_steady _ _ _ _).trans ha
    · exact ha
  have hr : steady r.2 = steady sa := by
    simp only [r]
    split
    · rfl
    · exact activate_steady _ _ _ _ _
  split
  · rw [fin_steady, hr, ha]
  have hb : steady sb = steady s := hr.trans ha
  split
  · exact hb
  extract_lets st haddr w s1 k1 ga0 s2 s3
  have h1 : steady s1 = steady sb := acceptZone_steady _ _ _
  clear_value s1
  have h2 : steady s2 = steady s1 := by
    simp only [s2]
    split
    · exact putCtx_steady _ _
    split
    · rw [putCtx_steady]; rfl
    · exact putCtx_steady _ _
  clear_value s2
  have h3 : steady s3 = steady s2 := sealAfter_steady _ _
  clear_value s3
  split
  · rw [placeWrite_steady, h3, h2, h1, hb]
  · rw [decideAll_steady, h3, h2, h1, hb]

@[simp] theorem hhReadOn_steady (k : Ctx) (s : State) : steady (hhReadOn k s) = steady s := by
  unfold hhReadOn
  try dsimp only
  repeat' (first | split | (with_reducible refine (withNs_steady _ _ _ (fun n => ?_))) | ((refine (steady_foldl _ (fun s x => ?_) _ _).trans ?_) <;> try dsimp only) | ((refine (steady_foldl2 _ (fun s x => ?_) _ _).trans ?_) <;> try dsimp only) | simp)
  all_goals simp_all

/-! ## Gather -/

@[simp] theorem gatherOutcome_steady (f nsid : Nat) (n : Ns) (es : List GEnt) (rd : Rd) (s : State) : steady (gatherOutcome f nsid n es rd s).2.2 = steady s := by
  unfold gatherOutcome
  try dsimp only
  repeat' (first | split | ((refine (steady_foldl _ (fun s x => ?_) _ _).trans ?_) <;> try dsimp only) | ((refine (steady_foldl2 _ (fun s x => ?_) _ _).trans ?_) <;> try dsimp only) | simp)
  all_goals simp_all

@[simp] theorem laneState_steady (ch st : Nat) (s : State) : steady (laneState ch st s) = steady s := by unfold laneState; split <;> simp

@[simp] theorem requestLane_steady (ch : Nat) (s : State) : steady (requestLane ch s) = steady s := by
  unfold requestLane
  try dsimp only
  repeat' (first | split | ((refine (steady_foldl _ (fun s x => ?_) _ _).trans ?_) <;> try dsimp only) | ((refine (steady_foldl2 _ (fun s x => ?_) _ _).trans ?_) <;> try dsimp only) | simp)
  all_goals simp_all

@[simp] theorem releaseLane_steady (ch : Nat) (s : State) : steady (releaseLane ch s) = steady s := by
  unfold releaseLane
  try dsimp only
  repeat' (first | split | ((refine (steady_foldl _ (fun s x => ?_) _ _).trans ?_) <;> try dsimp only) | ((refine (steady_foldl2 _ (fun s x => ?_) _ _).trans ?_) <;> try dsimp only) | simp)
  all_goals simp_all

@[simp] theorem noteTack_steady (n : Ns) (es : List GEnt) (e : Nat × Nat) (s : State) : steady (noteTack n es e s) = steady s := by
  unfold noteTack
  repeat' split
  all_goals simp

@[simp] theorem gatherOn_steady (sgl : Option Nat) (k : Ctx) (s : State) : steady (gatherOn sgl k s) = steady s := by
  unfold gatherOn
  repeat' split
  all_goals simp

@[simp] theorem dropChan_steady (ch : Nat) (s : State) : steady (dropChan ch s) = steady s := by simp [dropChan]

@[simp] theorem tableFault_steady (k : Ctx) (e cause : Nat) (s : State) : steady (tableFault k e cause s) = steady s := by simp [tableFault]

@[simp] theorem gatherStart_steady (k : Ctx) (ch : Nat) (mem : HostMem) (s : State) : steady (gatherStart k ch mem s) = steady s := by
  unfold gatherStart
  repeat' (first | split | dsimp only)
  all_goals simp

@[simp] theorem gatherEnd_steady (k : Ctx) (ch : Nat) (es : List GEnt) (n : Ns) (badBeat : Option Nat) (s : State) : steady (gatherEnd k ch es n badBeat s) = steady s := by
  unfold gatherEnd
  try dsimp only
  repeat' (first | split | ((refine (steady_foldl _ (fun s x => ?_) _ _).trans ?_) <;> try dsimp only) | ((refine (steady_foldl2 _ (fun s x => ?_) _ _).trans ?_) <;> try dsimp only) | simp)
  all_goals simp_all

@[simp] theorem gdcSignal_steady (n : Nat) (s : State) : steady (gdcSignal n s) = steady s := by
  unfold gdcSignal
  try dsimp only
  repeat' (first | split | ((refine (steady_foldl _ (fun s x => ?_) _ _).trans ?_) <;> try dsimp only) | ((refine (steady_foldl2 _ (fun s x => ?_) _ _).trans ?_) <;> try dsimp only) | simp)
  all_goals simp_all

@[simp] theorem gdcFault_steady (n code entry : Nat) (s : State) : steady (gdcFault n code entry s) = steady s := by simp [gdcFault]

@[simp] theorem gdcBegin_steady (n : Nat) (mem : HostMem) (s : State) : steady (gdcBegin n mem s).1 = steady s := by
  unfold gdcBegin
  extract_lets g run
  have hrun : ∀ es rd s, steady (run es rd s) = steady s := by
    intro es rd s
    simp only [run]
    rw [requestLane_steady, updGdc_steady]
  clear_value run g
  iterate 2 (split; · exact gdcFault_steady _ _ _ _)
  split
  · exact hrun _ _ _
  split
  · exact gdcFault_steady _ _ _ _
  split
  · exact gdcFault_steady _ _ _ _
  simp only []
  split
  · exact (gdcFault_steady _ _ _ _).trans (noteTack_steady _ _ _ _)
  split
  · exact gdcFault_steady _ _ _ _
  split
  · simp only []
    rw [tick_steady, gdcFault_steady, raise_steady]
    rfl
  · exact hrun _ _ _

@[simp] theorem gdcLoad_steady (n : Nat) (mem : HostMem) (s : State) : steady (gdcLoad n mem s).1 = steady s := by unfold gdcLoad; split <;> simp

@[simp] theorem gdcLink_steady : ∀ (fuel n : Nat) (mem : HostMem) (s : State), steady (gdcLink fuel n mem s) = steady s
  | 0, _, _, _ => rfl
  | fuel + 1, n, mem, s => by
    unfold gdcLink
    simp only []
    split
    · exact gdcFault_steady _ _ _ _
    split
    · split
      · rw [gdcFault_steady, updGdc_steady]
      · split
        · rw [gdcLink_steady fuel]
          split
          · rw [gdcSignal_steady, updGdc_steady, gdcLoad_steady, updGdc_steady, updGdc_steady]
          · rw [gdcLoad_steady, updGdc_steady, updGdc_steady]
        · rw [gdcLoad_steady, updGdc_steady, updGdc_steady]
    · split
      · rw [gdcLink_steady fuel, updGdc_steady, updGdc_steady]
      · rw [updGdc_steady, releaseLane_steady, updGdc_steady]

@[simp] theorem gdcNext_steady (n : Nat) (mem : HostMem) (s : State) : steady (gdcNext n mem s) = steady s := by
  unfold gdcNext
  try dsimp only
  repeat' (first | split | ((refine (steady_foldl _ (fun s x => ?_) _ _).trans ?_) <;> try dsimp only) | ((refine (steady_foldl2 _ (fun s x => ?_) _ _).trans ?_) <;> try dsimp only) | simp)
  all_goals simp_all

@[simp] theorem gdcWrite_steady (n : Nat) (bytes : List Byte) (s : State) : steady (gdcWrite n bytes s) = steady s := by
  unfold gdcWrite
  try dsimp only
  repeat' (first | split | ((refine (steady_foldl _ (fun s x => ?_) _ _).trans ?_) <;> try dsimp only) | ((refine (steady_foldl2 _ (fun s x => ?_) _ _).trans ?_) <;> try dsimp only) | simp)
  all_goals simp_all


@[simp] theorem gdcPark_steady (n moved : Nat) (mem : HostMem) (s : State) : steady (gdcPark n moved mem s) = steady s := by
  unfold gdcPark
  dsimp only
  repeat' split
  all_goals simp

@[simp] theorem gdcCtl_steady (n v moved : Nat) (mem : HostMem) (s : State) : steady (gdcCtl n v moved mem s) = steady s := by
  unfold gdcCtl
  try dsimp only
  repeat' (first | split | ((refine (steady_foldl _ (fun s x => ?_) _ _).trans ?_) <;> try dsimp only) | ((refine (steady_foldl2 _ (fun s x => ?_) _ _).trans ?_) <;> try dsimp only) | simp)
  all_goals simp_all

end Sys2Proof.Machine
end

