-- ==== Sys2Proof/Laws/KeptHost.lean ====
section
/-! SUPPORT. The same for resets, stalls, queues and the admin commands. -/

namespace Sys2Proof.Machine
open Sys2Proof

set_option linter.unusedTactic false
set_option linter.unreachableTactic false
set_option linter.unusedSimpArgs false

/-! ## Resets -/

@[simp] theorem resetWrites_steady (f : Nat) (s : State) : steady (resetWrites f s) = steady s := by
  unfold resetWrites
  try dsimp only
  repeat' (first | split | ((refine (steady_foldl _ (fun s x => ?_) _ _).trans ?_) <;> try dsimp only) | ((refine (steady_foldl2 _ (fun s x => ?_) _ _).trans ?_) <;> try dsimp only) | simp)
  all_goals simp_all

@[simp] theorem fenceFn_steady (f : Nat) (s : State) : steady (fenceFn f s) = steady s := by
  unfold fenceFn
  extract_lets mine s1 s2 keep q0 s3
  have h1 : steady s1 = steady s := by
    simp only [s1]
    rw [resetWrites_steady, fenceGather_steady]
  clear_value s1
  have h2 : steady s2 = steady s1 := dropPasses_steady _ _
  clear_value s2
  have h3 : steady s3 = steady s2 := rfl
  clear_value s3
  rw [freeFenced_steady, updFn_steady, h3, h2, h1]

@[simp] theorem ownerRegs_steady (s : State) : steady (ownerRegs s) = steady s := by
  unfold ownerRegs
  extract_lets s1
  have h1 : steady s1 = steady s := steady_foldl _ (fun s n => releaseLane_steady _ _) _ _
  clear_value s1
  exact h1

@[simp] theorem freezeEnd_steady (f : Nat) (k : Ctx) (s : State) : steady (freezeEnd f k s) = steady s := by simp [freezeEnd]

@[simp] theorem freezeQuiet_steady (f : Nat) (s : State) : steady (freezeQuiet f s) = steady s := by
  unfold freezeQuiet
  try dsimp only
  repeat' (first | split | ((refine (steady_foldl _ (fun s x => ?_) _ _).trans ?_) <;> try dsimp only) | ((refine (steady_foldl2 _ (fun s x => ?_) _ _).trans ?_) <;> try dsimp only) | simp)
  all_goals simp_all

@[simp] theorem stallReset_steady (f : Nat) (kind : Nat) (s : State) : steady (stallReset f kind s) = steady s := by
  unfold stallReset
  extract_lets n s1 zn0 ci0 s2 s3
  have h1 : steady s1 = steady s := (raise_steady _ _ _ _).trans (fenceFn_steady _ _)
  clear_value s1
  have h2 : steady s2 = steady s1 := clearSlots_steady _ _
  clear_value s2
  have h3 : steady s3 = steady s2 := updSlk_steady _ _ _
  clear_value s3
  rw [freezeQuiet_steady, repower_steady, h3, h2, h1]

@[simp] theorem stallGone_steady (f : Nat) (s : State) : steady (stallGone f s) = steady s := by simp [stallGone]

@[simp] theorem removeStalls_steady (cause kind : Nat) (s : State) : steady (removeStalls cause kind s) = steady s := by
  unfold removeStalls
  split
  · rfl
  extract_lets fs s1
  have h1 : steady s1 = steady s := steady_foldl _ (fun s f => by rw [stallGone_steady, stallReset_steady]) _ _
  clear_value s1
  rw [raise_steady]
  exact h1

@[simp] theorem ctrlReset_steady (f : Nat) (s : State) : steady (ctrlReset f s) = steady s := by
  unfold ctrlReset
  extract_lets n s1
  have h1 : steady s1 = steady s := (raise_steady _ _ _ _).trans (fenceFn_steady _ _)
  clear_value s1
  rw [repower_steady]
  split
  · rw [ownerRegs_steady, h1]
  · exact h1

@[simp] theorem clearCc_steady (f : Nat) (s : State) : steady (clearCc f s) = steady s := by simp [clearCc]

@[simp] theorem pfReset_steady (f cause : Nat) (s : State) : steady (pfReset f cause s) = steady s := by unfold pfReset; split <;> simp

/-! ## Stalls -/

theorem vmOn_steady (k : Ctx) (s : State) (f : Nat → State) (h : ∀ n, steady (f n) = steady s) : steady (vmOn k s f) = steady s := by
  unfold vmOn
  split
  · simp
  · exact h _

@[simp] theorem vmAssignOn_steady (k : Ctx) (s : State) : steady (vmAssignOn k s) = steady s := by
  unfold vmAssignOn
  refine vmOn_steady _ _ _ (fun f => ?_)
  extract_lets rt nr
  iterate 3 (split; · simp)
  rw [okDw0_steady, updFn_steady]

@[simp] theorem lowerKeys_steady (f n : Nat) (s : State) : steady (lowerKeys f n s) = steady s := by
  unfold lowerKeys
  try dsimp only
  repeat' (first | split | ((refine (steady_foldl _ (fun s x => ?_) _ _).trans ?_) <;> try dsimp only) | ((refine (steady_foldl2 _ (fun s x => ?_) _ _).trans ?_) <;> try dsimp only) | simp)
  all_goals simp_all

@[simp] theorem srApply_steady (f sel : Nat) (b : List Byte) (s : State) : steady (srApply f sel b s) = steady s := by
  unfold srApply
  repeat' split
  all_goals simp

@[simp] theorem srOn_steady (b : List Byte) (k : Ctx) (s : State) : steady (srOn b k s) = steady s := by
  unfold srOn
  try dsimp only
  repeat' (first | split | ((refine (steady_foldl _ (fun s x => ?_) _ _).trans ?_) <;> try dsimp only) | ((refine (steady_foldl2 _ (fun s x => ?_) _ _).trans ?_) <;> try dsimp only) | simp)
  all_goals simp_all

@[simp] theorem freezeOn_steady (k : Ctx) (s : State) : steady (freezeOn k s) = steady s := by
  unfold freezeOn
  try dsimp only
  repeat' (first | split | ((refine (steady_foldl _ (fun s x => ?_) _ _).trans ?_) <;> try dsimp only) | ((refine (steady_foldl2 _ (fun s x => ?_) _ _).trans ?_) <;> try dsimp only) | simp)
  all_goals simp_all

@[simp] theorem thawOn_steady (k : Ctx) (s : State) : steady (thawOn k s) = steady s := by
  unfold thawOn
  try dsimp only
  repeat' (first | split | ((refine (steady_foldl _ (fun s x => ?_) _ _).trans ?_) <;> try dsimp only) | ((refine (steady_foldl2 _ (fun s x => ?_) _ _).trans ?_) <;> try dsimp only) | simp)
  all_goals simp_all

@[simp] theorem saveOn_steady (k : Ctx) (s : State) : steady (saveOn k s) = steady s := by
  unfold saveOn
  try dsimp only
  repeat' (first | split | ((refine (steady_foldl _ (fun s x => ?_) _ _).trans ?_) <;> try dsimp only) | ((refine (steady_foldl2 _ (fun s x => ?_) _ _).trans ?_) <;> try dsimp only) | simp)
  all_goals simp_all

@[simp] theorem blobLoad_steady (f : Nat) (b : List Byte) (s : State) : steady (blobLoad f b s) = steady s := by
  unfold blobLoad
  try dsimp only
  repeat' (first | split | ((refine (steady_foldl _ (fun s x => ?_) _ _).trans ?_) <;> try dsimp only) | ((refine (steady_foldl2 _ (fun s x => ?_) _ _).trans ?_) <;> try dsimp only) | simp)
  all_goals simp_all

@[simp] theorem blobMove_steady (src f : Nat) (s : State) : steady (blobMove src f s) = steady s := by simp [blobMove]

@[simp] theorem restoreOn_steady (b : List Byte) (k : Ctx) (s : State) : steady (restoreOn b k s) = steady s := by
  unfold restoreOn
  try dsimp only
  repeat' (first | split | ((refine (steady_foldl _ (fun s x => ?_) _ _).trans ?_) <;> try dsimp only) | ((refine (steady_foldl2 _ (fun s x => ?_) _ _).trans ?_) <;> try dsimp only) | simp)
  all_goals simp_all

@[simp] theorem stallRun_steady (b : List Byte) (k : Ctx) (s : State) : steady (stallRun b k s) = steady s := by
  unfold stallRun
  repeat' split
  all_goals simp

@[simp] theorem stallDrain_steady (f : Nat) : ∀ (n : Nat) (s : State), steady (stallDrain f n s) = steady s
  | 0, _ => rfl
  | n + 1, s => by
    unfold stallDrain
    split
    · rfl
    split
    · rw [stallDrain_steady f n, stallRun_steady]
    · rfl

theorem stallSerial_steady (b : List Byte) (k : Ctx) (s : State) (run : State) (h : steady run = steady s) :
    steady (stallSerial b k s run) = steady s := by
  unfold stallSerial
  simp only []
  split
  · simp
  · exact h

/-! ## Studbook -/

@[simp] theorem updWin_steady (view : Nat) (g : StbWin → StbWin) (s : State) : steady (updWin view g s) = steady s := by unfold updWin; split <;> simp

@[simp] theorem latchSlot_steady (view i : Nat) (s : State) : steady (latchSlot view i s) = steady s := by simp [latchSlot]

/-! ## Queues -/

@[simp] theorem badDoorbell_steady (f qid val info : Nat) (s : State) : steady (badDoorbell f qid val info s) = steady s := by
  unfold badDoorbell
  try dsimp only
  repeat' (first | split | ((refine (steady_foldl _ (fun s x => ?_) _ _).trans ?_) <;> try dsimp only) | ((refine (steady_foldl2 _ (fun s x => ?_) _ _).trans ?_) <;> try dsimp only) | simp)
  all_goals simp_all

@[simp] theorem postHeld_steady (f qid : Nat) (s : State) : steady (postHeld f qid s) = steady s := by
  unfold postHeld
  try dsimp only
  repeat' (first | split | ((refine (steady_foldl _ (fun s x => ?_) _ _).trans ?_) <;> try dsimp only) | ((refine (steady_foldl2 _ (fun s x => ?_) _ _).trans ?_) <;> try dsimp only) | simp)
  all_goals simp_all

@[simp] theorem enableNow_ext {x : Tup} (f : Nat) (s : State) (hx : Ext x (steady s)) : Ext x (steady (enableNow f s)) := by
  unfold enableNow
  try dsimp only
  repeat' (first | split | (refine ext_foldl _ (fun s e h => ?_) _ _ ?_) | (simp [*]; done))
  all_goals simp_all

@[simp] theorem shutNow_steady (f : Nat) (s : State) : steady (shutNow f s) = steady s := by
  unfold shutNow
  try dsimp only
  repeat' (first | split | ((refine (steady_foldl _ (fun s x => ?_) _ _).trans ?_) <;> try dsimp only) | ((refine (steady_foldl2 _ (fun s x => ?_) _ _).trans ?_) <;> try dsimp only) | simp)
  all_goals simp_all

@[simp] theorem holdWr_steady (f : Nat) (h : HeldWr) (s : State) : steady (holdWr f h s) = steady s := by simp [holdWr]

@[simp] theorem ccWrite_ext {x : Tup} (f v : Nat) (s : State) (hx : Ext x (steady s)) : Ext x (steady (ccWrite f v s)) := by
  unfold ccWrite
  extract_lets n en shn act s1 t s2
  have h1 : Ext x (steady s1) := by simpa [s1] using hx
  have h2 : Ext x (steady s2) := by
    dsimp only [s2, t]
    clear_value s1
    repeat' split
    all_goals simp [h1]
  split
  · split
    · rw [holdWr_steady]; exact h2
    · rw [shutNow_steady]; exact h2
  · exact h2

@[simp] theorem heldNow_ext {x : Tup} (f : Nat) (h : HeldWr) (s : State) (hx : Ext x (steady s)) : Ext x (steady (heldNow f h s)) := by
  cases h with
  | ccEn v =>
    simp only [heldNow]
    split
    · exact hx
    split
    · exact enableNow_ext _ _ hx
    · rw [ctrlReset_steady]; exact hx
  | flr =>
    simp only [heldNow]
    split
    · rw [pfReset_steady]; exact hx
    · rw [clearCc_steady, stallReset_steady]; exact hx
  | shn v => simp only [heldNow, shutNow_steady]; exact hx

@[simp] theorem createSqOn_steady (k : Ctx) (s : State) : steady (createSqOn k s) = steady s := by
  unfold createSqOn
  try dsimp only
  repeat' (first | split | ((refine (steady_foldl _ (fun s x => ?_) _ _).trans ?_) <;> try dsimp only) | ((refine (steady_foldl2 _ (fun s x => ?_) _ _).trans ?_) <;> try dsimp only) | simp)
  all_goals simp_all

@[simp] theorem createCqOn_steady (k : Ctx) (s : State) : steady (createCqOn k s) = steady s := by
  unfold createCqOn
  try dsimp only
  repeat' (first | split | ((refine (steady_foldl _ (fun s x => ?_) _ _).trans ?_) <;> try dsimp only) | ((refine (steady_foldl2 _ (fun s x => ?_) _ _).trans ?_) <;> try dsimp only) | simp)
  all_goals simp_all

@[simp] theorem deleteSqOn_steady (k : Ctx) (s : State) : steady (deleteSqOn k s) = steady s := by
  unfold deleteSqOn
  try dsimp only
  repeat' (first | split | ((refine (steady_foldl _ (fun s x => ?_) _ _).trans ?_) <;> try dsimp only) | ((refine (steady_foldl2 _ (fun s x => ?_) _ _).trans ?_) <;> try dsimp only) | simp)
  all_goals simp_all

@[simp] theorem deleteCqOn_steady (k : Ctx) (s : State) : steady (deleteCqOn k s) = steady s := by
  unfold deleteCqOn
  try dsimp only
  repeat' (first | split | ((refine (steady_foldl _ (fun s x => ?_) _ _).trans ?_) <;> try dsimp only) | ((refine (steady_foldl2 _ (fun s x => ?_) _ _).trans ?_) <;> try dsimp only) | simp)
  all_goals simp_all

/-! ## Admin -/

@[simp] theorem readAck_steady (k : Ctx) (s : State) : steady (readAck k s) = steady s := by
  unfold readAck
  repeat' split
  all_goals simp

@[simp] theorem logOn_steady (k : Ctx) (s : State) : steady (logOn k s) = steady s := by unfold logOn; split <;> simp

@[simp] theorem getFeatOn_steady (k : Ctx) (s : State) : steady (getFeatOn k s) = steady s := by
  unfold getFeatOn
  try dsimp only
  repeat' (first | split | ((refine (steady_foldl _ (fun s x => ?_) _ _).trans ?_) <;> try dsimp only) | ((refine (steady_foldl2 _ (fun s x => ?_) _ _).trans ?_) <;> try dsimp only) | simp)
  all_goals simp_all

@[simp] theorem putFeat_steady (k : Ctx) (g : Feats → Feats) (s : State) : steady (putFeat k g s) = steady s := by simp [putFeat]

@[simp] theorem abortOn_steady (k : Ctx) (s : State) : steady (abortOn k s) = steady s := by
  unfold abortOn
  try dsimp only
  repeat' (first | split | ((refine (steady_foldl _ (fun s x => ?_) _ _).trans ?_) <;> try dsimp only) | ((refine (steady_foldl2 _ (fun s x => ?_) _ _).trans ?_) <;> try dsimp only) | simp)
  all_goals simp_all

@[simp] theorem commitOn_steady (k : Ctx) (s : State) : steady (commitOn k s) = steady s := by
  unfold commitOn
  try dsimp only
  repeat' (first | split | ((refine (steady_foldl _ (fun s x => ?_) _ _).trans ?_) <;> try dsimp only) | ((refine (steady_foldl2 _ (fun s x => ?_) _ _).trans ?_) <;> try dsimp only) | simp)
  all_goals simp_all

@[simp] theorem endFw_steady (q sct sc : Nat) (s : State) : steady (endFw q sct sc s) = steady s := by unfold endFw; split <;> simp

end Sys2Proof.Machine
end

