-- ==== Sys2Proof/Laws/KeptPorts.lean ====
section
/-! SUPPORT. The same for registers, images, the test port and bring-up. -/

namespace Sys2Proof.Machine
open Sys2Proof

set_option linter.unusedTactic false
set_option linter.unreachableTactic false
set_option linter.unusedSimpArgs false

/-! ## Registers -/

@[simp] theorem readOut_steady (v : Nat) (s : State) : steady (readOut v s) = steady s := by simp [readOut]

@[simp] theorem peakRead_steady (lo hi : Nat) (s : State) : steady (peakRead lo hi s) = steady s := by unfold peakRead; split <;> simp

@[simp] theorem read32_steady (fn off : Nat) (s : State) : steady (read32 fn off s) = steady s := by
  unfold read32
  repeat' split
  all_goals simp

@[simp] theorem writeCadCtl_steady (v : Nat) (s : State) : steady (writeCadCtl v s) = steady s := by
  unfold writeCadCtl
  repeat' split
  all_goals simp

@[simp] theorem writeRootCfg_steady (v : Nat) (s : State) : steady (writeRootCfg v s) = steady s := by simp [writeRootCfg]

@[simp] theorem writeEcc_steady (off v : Nat) (s : State) : steady (writeEcc off v s) = steady s := by
  unfold writeEcc
  try dsimp only
  repeat' (first | split | ((refine (steady_foldl _ (fun s x => ?_) _ _).trans ?_) <;> try dsimp only) | ((refine (steady_foldl2 _ (fun s x => ?_) _ _).trans ?_) <;> try dsimp only) | simp)
  all_goals simp_all

@[simp] theorem writeStl_steady (f o v : Nat) (s : State) : steady (writeStl f o v s) = steady s := by
  unfold writeStl
  repeat' split
  all_goals simp

@[simp] theorem writeCvu_steady (u o v : Nat) (priv : Bool) (s : State) : steady (writeCvu u o v priv s) = steady s := by
  unfold writeCvu
  repeat' split
  all_goals simp

@[simp] theorem writeGdc_steady (n o v : Nat) (s : State) : steady (writeGdc n o v s) = steady s := by
  unfold writeGdc
  try dsimp only
  repeat' (first | split | ((refine (steady_foldl _ (fun s x => ?_) _ _).trans ?_) <;> try dsimp only) | ((refine (steady_foldl2 _ (fun s x => ?_) _ _).trans ?_) <;> try dsimp only) | simp)
  all_goals simp_all

@[simp] theorem writeFch_steady (c o v : Nat) (s : State) : steady (writeFch c o v s) = steady s := by
  unfold writeFch
  try dsimp only
  repeat' (first | split | ((refine (steady_foldl _ (fun s x => ?_) _ _).trans ?_) <;> try dsimp only) | ((refine (steady_foldl2 _ (fun s x => ?_) _ _).trans ?_) <;> try dsimp only) | simp)
  all_goals simp_all

theorem steady_ite {c : Prop} [Decidable c] {a b s : State} (ha : steady a = steady s) (hb : steady b = steady s) :
    steady (if c then a else b) = steady s := by
  by_cases h : c
  · rw [if_pos h]; exact ha
  · rw [if_neg h]; exact hb

@[simp] theorem writePw_steady (off v : Nat) (s : State) : steady (writePw off v s) = steady s := by
  unfold writePw
  refine steady_ite (steady_ite ((proofTrigger_steady _ _).trans rfl) rfl) ?_
  refine steady_ite (writeCadCtl_steady _ _) ?_
  refine steady_ite (steady_ite (writeRootCfg_steady _ _) rfl) ?_
  refine steady_ite (steady_ite (writeRootEpoch_steady _ _) rfl) ?_
  refine steady_ite (steady_ite (writeRootCmd_steady _ _ _ _) rfl) ?_
  refine steady_ite (steady_ite rfl rfl) ?_
  refine steady_ite rfl ?_
  refine steady_ite (writeCvu_steady _ _ _ _ _) ?_
  refine steady_ite (writeGdc_steady _ _ _ _) ?_
  refine steady_ite (writeEcc_steady _ _ _) ?_
  refine steady_ite (writeStl_steady _ _ _ _) ?_
  exact steady_ite (writeFch_steady _ _ _ _) rfl

@[simp] theorem writeW1c_steady (off v : Nat) (s : State) : steady (writeW1c off v s) = steady s := by
  unfold writeW1c
  repeat' split
  all_goals simp

@[simp] theorem putTxs_steady (fn off v : Nat) (s : State) : steady (putTxs fn off v s) = steady s := by
  unfold putTxs
  repeat' split
  all_goals simp

@[simp] theorem putPage_steady (f off v : Nat) (s : State) : steady (putPage f off v s) = steady s := by
  unfold putPage
  repeat' split
  all_goals simp

@[simp] theorem putReg_steady (fn off v : Nat) (s : State) : steady (putReg fn off v s) = steady s := by unfold putReg; split <;> simp

@[simp] theorem putDword_steady (fn off v : Nat) (s : State) : steady (putDword fn off v s) = steady s := by
  unfold putDword
  repeat' split
  all_goals simp

@[simp] theorem bar2Write_steady (fn off width v : Nat) (s : State) : steady (bar2Write fn off width v s) = steady s := by
  unfold bar2Write
  repeat' split
  all_goals simp

@[simp] theorem msixWrite_steady (f i v : Nat) (s : State) : steady (msixWrite f i v s) = steady s := by unfold msixWrite; split <;> simp

@[simp] theorem bar0Write_ext {x : Tup} (f off v : Nat) (s : State) (hx : Ext x (steady s)) : Ext x (steady (bar0Write f off v s)) := by
  unfold bar0Write
  try dsimp only
  repeat' (first | split | (refine ext_foldl _ (fun s e h => ?_) _ _ ?_) | (simp [*]; done))
  all_goals simp_all

/-! ## Image -/

/-! ## TestPort -/

@[simp] theorem selIr_steady (code drive tdo : Nat) (s : State) : steady (selIr code drive tdo s) = steady s := by simp [selIr]

@[simp] theorem selBypass_steady (s : State) : steady (selBypass s) = steady s := by simp [selBypass]

@[simp] theorem enterTest_steady (cause : Nat) (s : State) : steady (enterTest cause s) = steady s := by
  unfold enterTest
  try dsimp only
  repeat' (first | split | ((refine (steady_foldl _ (fun s x => ?_) _ _).trans ?_) <;> try dsimp only) | ((refine (steady_foldl2 _ (fun s x => ?_) _ _).trans ?_) <;> try dsimp only) | simp)
  all_goals simp_all

@[simp] theorem beginTestDrain_steady (s : State) : steady (beginTestDrain s) = steady s := by simp [beginTestDrain]

@[simp] theorem mbEnds_steady (run rep fails first : Nat) (s : State) : steady (mbEnds run rep fails first s) = steady s := by unfold mbEnds; split <;> simp

theorem clearRings_stays (s : State) : Stays s { clearSlots (fun _ => true) s with q := { s.q with ctxs := [], fns := [] }, stl := Stl.dflt, stb := { s.stb with ring := [], loaded := false, dirty := [], early := s.stb.early.take 64 } } := by
  refine (Stays.of_steady (clearSlots_steady (fun _ => true) s)).trans ?_
  have hc := clearSlots_steady (fun _ => true) s
  simp only [steady, Prod.mk.injEq] at hc
  obtain ⟨h1, h2, h3, h4, h5, h6, h7, h8, h9⟩ := hc
  refine ⟨rfl, rfl, rfl, fun ⟨b1, b2, b3, b5, b6, b7, b8⟩ => ?_⟩
  rw [h4] at b1; rw [h5] at b2; rw [h8] at b7 b8
  refine ⟨b1, b2, fun _ => ?_, rfl, Nat.zero_le _, b7, b8⟩
  simp only [List.length_take]
  omega

@[simp] theorem mbClears_ext {x : Tup} (v : Nat) (s : State) (hx : Ext x (steady s)) : Ext x (steady (mbClears v s)) := by
  refine hx.stays ?_
  unfold mbClears
  extract_lets r e0 t
  have ht : Stays s t := Stays.of_steady (by simp only [t]; split <;> rfl)
  clear_value t
  split
  · exact ht.trans (clearRings_stays t)
  · exact ht

@[simp] theorem fpEnds_steady (blocks failed worst tack : Nat) (fail : Bool) (s : State) : steady (fpEnds blocks failed worst tack fail s) = steady s := by simp [fpEnds]

/-! ## BringUp -/

@[simp] theorem reErase_steady (key : Nat) (s : State) : steady (reErase key s) = steady s := by
  unfold reErase
  try dsimp only
  repeat' (first | split | ((refine (steady_foldl _ (fun s x => ?_) _ _).trans ?_) <;> try dsimp only) | ((refine (steady_foldl2 _ (fun s x => ?_) _ _).trans ?_) <;> try dsimp only) | simp)
  all_goals simp_all

@[simp] theorem reEraseAll_steady (bad : List (Nat × Nat × Nat)) (s : State) : steady (reEraseAll bad s) = steady s := by
  unfold reEraseAll
  try dsimp only
  repeat' (first | split | ((refine (steady_foldl _ (fun s x => ?_) _ _).trans ?_) <;> try dsimp only) | ((refine (steady_foldl2 _ (fun s x => ?_) _ _).trans ?_) <;> try dsimp only) | simp)
  all_goals simp_all

@[simp] theorem cutRecovery_steady (s : State) : steady (cutRecovery s) = steady s := by
  unfold cutRecovery
  try dsimp only
  repeat' (first | split | ((refine (steady_foldl _ (fun s x => ?_) _ _).trans ?_) <;> try dsimp only) | ((refine (steady_foldl2 _ (fun s x => ?_) _ _).trans ?_) <;> try dsimp only) | simp)
  all_goals simp_all

@[simp] theorem tornPage_steady (s : State) : steady (tornPage s) = steady s := by
  unfold tornPage
  try dsimp only
  repeat' (first | split | ((refine (steady_foldl _ (fun s x => ?_) _ _).trans ?_) <;> try dsimp only) | ((refine (steady_foldl2 _ (fun s x => ?_) _ _).trans ?_) <;> try dsimp only) | simp)
  all_goals simp_all

@[simp] theorem startNow_ext {x : Tup} (s : State) (hx : Ext x (steady s)) : Ext x (steady (startNow s)) := by
  unfold startNow
  exact restart_ext _ _ (by simpa using hx)

@[simp] theorem devicePerst_ext {x : Tup} (s : State) (hx : Ext x (steady s)) : Ext x (steady (devicePerst s)) := by
  unfold devicePerst
  try dsimp only
  repeat' (first | split | (refine ext_foldl _ (fun s e h => ?_) _ _ ?_) | (simp [*]; done))
  all_goals simp_all

@[simp] theorem portReset_steady (port : Nat) (s : State) : steady (portReset port s) = steady s := by
  unfold portReset
  split
  · rfl
  simp only []
  rw [clearSlots_steady]
  exact steady_ite (pfReset_steady _ _ _) rfl

@[simp] theorem slotRecord_steady (noimg : Bool) (slot : Nat) (r : SlotRead) (s : State) : steady (slotRecord noimg slot r s) = steady s := by unfold slotRecord; split <;> simp

@[simp] theorem startFw_steady (fwOk : Bool) (s : State) : steady (startFw fwOk s) = steady s := by
  unfold startFw
  dsimp only
  split <;> simp

@[simp] theorem takeLuns_steady (rs : List (Nat × Bool)) (s : State) : steady (takeLuns rs s) = steady s := by simp [takeLuns]

@[simp] theorem trainChannel_steady (t : ChTrain) (rs : List LunReport) (s : State) : steady (trainChannel t rs s) = steady s := by
  unfold trainChannel
  try dsimp only
  repeat' (first | split | ((refine (steady_foldl _ (fun s x => ?_) _ _).trans ?_) <;> try dsimp only) | ((refine (steady_foldl2 _ (fun s x => ?_) _ _).trans ?_) <;> try dsimp only) | simp)
  all_goals simp_all

@[simp] theorem setApart_steady (d b : Nat) (r : Role) (st : BSt) (s : State) : steady (setApart d b r st s) = steady s := by simp [setApart]

@[simp] theorem layTack_steady (d : Nat) (s : State) : steady (layTack d s) = steady s := by
  unfold layTack
  try dsimp only
  repeat' (first | split | ((refine (steady_foldl _ (fun s x => ?_) _ _).trans ?_) <;> try dsimp only) | ((refine (steady_foldl2 _ (fun s x => ?_) _ _).trans ?_) <;> try dsimp only) | simp)
  all_goals simp_all

@[simp] theorem layCalib_steady (ch : Nat) (s : State) : steady (layCalib ch s) = steady s := by
  unfold layCalib
  dsimp only
  repeat' split
  all_goals first
    | rfl
    | exact setApart_steady _ _ _ _ _

@[simp] theorem factoryLayout_steady (s : State) : steady (factoryLayout s) = steady s := by
  unfold factoryLayout
  try dsimp only
  repeat' (first | split | ((refine (steady_foldl _ (fun s x => ?_) _ _).trans ?_) <;> try dsimp only) | ((refine (steady_foldl2 _ (fun s x => ?_) _ _).trans ?_) <;> try dsimp only) | simp)
  all_goals simp_all

@[simp] theorem sizePaddock_steady (s : State) : steady (sizePaddock s) = steady s := by simp [sizePaddock]

@[simp] theorem tablesMeetFlash_steady (s : State) : steady (tablesMeetFlash s) = steady s := by
  unfold tablesMeetFlash
  repeat' split
  all_goals simp

@[simp] theorem useCalib_steady (key : Nat) (s : State) : steady (useCalib key s) = steady s := by
  unfold useCalib
  try dsimp only
  repeat' (first | split | ((refine (steady_foldl _ (fun s x => ?_) _ _).trans ?_) <;> try dsimp only) | ((refine (steady_foldl2 _ (fun s x => ?_) _ _).trans ?_) <;> try dsimp only) | simp)
  all_goals simp_all

@[simp] theorem resumeParity_steady (id : Nat) (p : Pen) (s : State) : steady (resumeParity id p s) = steady s := by
  unfold resumeParity
  try dsimp only
  repeat' (first | split | ((refine (steady_foldl _ (fun s x => ?_) _ _).trans ?_) <;> try dsimp only) | ((refine (steady_foldl2 _ (fun s x => ?_) _ _).trans ?_) <;> try dsimp only) | simp)
  all_goals simp_all

@[simp] theorem resumeMedia_steady (s : State) : steady (resumeMedia s) = steady s := by
  unfold resumeMedia
  try dsimp only
  repeat' (first | split | ((refine (steady_foldl _ (fun s x => ?_) _ _).trans ?_) <;> try dsimp only) | ((refine (steady_foldl2 _ (fun s x => ?_) _ _).trans ?_) <;> try dsimp only) | simp)
  all_goals simp_all

@[simp] theorem startEnds_steady (s : State) : steady (startEnds s) = steady s := by
  have key : ∀ t : State, steady t = steady s → steady (if s.jn.sanitize ≠ 0 then
      setMode .sanitize { t with zn := { t.zn with sanit := s.jn.sanitize, sstat := 2 } }
      else setMode (baseMode t) (t.zn.scrubs.foldl (fun s c => raise 0x3021 1 [h2 c.zone] s) t)) = steady s := by
    intro t h
    split
    · simpa using h
    · rw [setMode_steady, steady_foldl _ (fun s c => by simp) _ _, h]
  exact key _ (by simp)

@[simp] theorem lostRecords_steady (l : Lost) (s : State) : steady (lostRecords l s) = steady s := by
  unfold lostRecords
  try dsimp only
  repeat' (first | split | ((refine (steady_foldl _ (fun s x => ?_) _ _).trans ?_) <;> try dsimp only) | ((refine (steady_foldl2 _ (fun s x => ?_) _ _).trans ?_) <;> try dsimp only) | simp)
  all_goals simp_all

@[simp] theorem returnUnits_steady (l : Lost) (s : State) : steady (returnUnits l s) = steady s := by
  unfold returnUnits
  try dsimp only
  repeat' (first | split | ((refine (steady_foldl _ (fun s x => ?_) _ _).trans ?_) <;> try dsimp only) | ((refine (steady_foldl2 _ (fun s x => ?_) _ _).trans ?_) <;> try dsimp only) | simp)
  all_goals simp_all

@[simp] theorem flushShortWork_steady (lost : List Lost) (s : State) : steady (flushShortWork lost s) = steady s := by
  unfold flushShortWork
  try dsimp only
  repeat' (first | split | ((refine (steady_foldl _ (fun s x => ?_) _ _).trans ?_) <;> try dsimp only) | ((refine (steady_foldl2 _ (fun s x => ?_) _ _).trans ?_) <;> try dsimp only) | simp)
  all_goals simp_all

@[simp] theorem confirmNext_steady (dead : List (Nat × Nat × Nat × Nat)) (s : State) : steady (confirmNext dead s) = steady s := by
  unfold confirmNext
  try dsimp only
  repeat' (first | split | ((refine (steady_foldl _ (fun s x => ?_) _ _).trans ?_) <;> try dsimp only) | ((refine (steady_foldl2 _ (fun s x => ?_) _ _).trans ?_) <;> try dsimp only) | simp)
  all_goals simp_all

@[simp] theorem closeZones_steady (s : State) : steady (closeZones s) = steady s := by
  unfold closeZones
  try dsimp only
  repeat' (first | split | ((refine (steady_foldl _ (fun s x => ?_) _ _).trans ?_) <;> try dsimp only) | ((refine (steady_foldl2 _ (fun s x => ?_) _ _).trans ?_) <;> try dsimp only) | simp)
  all_goals simp_all

@[simp] theorem faultWork_steady (f : JFault) (s : State) : steady (faultWork f s) = steady s := by
  unfold faultWork
  try dsimp only
  repeat' (first | split | ((refine (steady_foldl _ (fun s x => ?_) _ _).trans ?_) <;> try dsimp only) | ((refine (steady_foldl2 _ (fun s x => ?_) _ _).trans ?_) <;> try dsimp only) | simp)
  all_goals simp_all

@[simp] theorem programNow_steady (id : Nat) (s : State) : steady (programNow id s) = steady s := by
  unfold programNow
  try dsimp only
  repeat' (first | split | ((refine (steady_foldl _ (fun s x => ?_) _ _).trans ?_) <;> try dsimp only) | ((refine (steady_foldl2 _ (fun s x => ?_) _ _).trans ?_) <;> try dsimp only) | simp)
  all_goals simp_all

@[simp] theorem mergeUnits_steady (hot : Bool) : ∀ (fuel : Nat) (us : List Nat) (s : State), steady (mergeUnits hot fuel us s) = steady s
  | 0, _, _ => rfl
  | _ + 1, [], _ => rfl
  | fuel + 1, u :: us, s => by
    unfold mergeUnits
    split
    · rfl
    · rename_i h
      dsimp only
      rw [mergeUnits_steady hot fuel, lseqNext_steady, programNow_steady, ← convPen_steady h]
      refine steady_foldl _ (fun s e => ?_) _ _
      split <;> simp

@[simp] theorem indexFlush_steady (s : State) : steady (indexFlush s) = steady s := by
  unfold indexFlush
  dsimp only
  refine (steady_foldl _ (fun s r => ?_) _ _).trans ?_
  · repeat' split
    all_goals simp
  · rw [mergeUnits_steady, mergeUnits_steady]

@[simp] theorem stopPattern_steady (s : State) : steady (stopPattern s) = steady s := by simp [stopPattern]

theorem takeReserve_steady {n : Nat} {s : State} {r : Nat × Nat × State} (h : takeReserve n s = some r) : steady r.2.2 = steady s := by
  unfold takeReserve at h
  dsimp only at h
  obtain ⟨p, _, rfl⟩ := Option.map_eq_some_iff.mp h
  exact updPen_steady _ _ _

theorem flushPiece_newUnit_steady (e : Nat × Nat) (s : State) : steady (flushPiece.newUnit e s).2 = steady s := by
  unfold flushPiece.newUnit
  split
  · rename_i h
    simp only []
    rw [pieceDurable_steady]
    exact takeReserve_steady h
  · rfl

@[simp] theorem flushPiece_steady (a : Option (Nat × Nat × Nat) × State) (e : Nat × Nat) : steady (flushPiece a e).2 = steady a.2 := by
  unfold flushPiece
  split
  · rfl
  split
  · split
    · rename_i h
      simp only []
      rw [pieceDurable_steady]
      exact takeReserve_steady h
    · rfl
  split
  · split
    · exact pieceDurable_steady _ _ _ _ _
    · exact flushPiece_newUnit_steady _ _
  · exact flushPiece_newUnit_steady _ _

@[simp] theorem closeReserve_steady (s : State) : steady (closeReserve s) = steady s := by
  unfold closeReserve
  try dsimp only
  repeat' (first | split | ((refine (steady_foldl _ (fun s x => ?_) _ _).trans ?_) <;> try dsimp only) | ((refine (steady_foldl2 _ (fun s x => ?_) _ _).trans ?_) <;> try dsimp only) | simp)
  all_goals simp_all

@[simp] theorem flushData_steady (s : State) : steady (flushData s) = steady s := by
  unfold flushData
  extract_lets ws s1 lost s2 s3
  have h1 : steady s1 = steady s := steady_foldl _ (fun s w => steady_foldl2 _ (fun a q => flushPiece_steady _ _) _ _) _ _
  clear_value s1
  have h2 : steady s2 = steady s1 := steady_foldl _ (fun s w => raise_steady _ _ _ _) _ _
  clear_value s2
  have h3 : steady s3 = steady s2 := (closeReserve_steady _).trans (cutAll_steady _)
  clear_value s3
  exact h3.trans (h2.trans h1)

@[simp] theorem flushFixed_ext {x : Tup} (bytes : Nat) (s : State) (hx : Ext x (steady s)) : Ext x (steady (flushFixed bytes s)) := by
  unfold flushFixed
  extract_lets s1 s2
  have h1 : Ext x (steady s1) := by simp [s1, hx]
  clear_value s1
  have h2 : Ext x (steady s2) := by
    simp only [s2]
    split
    · simpa using h1
    · exact h1
  exact h2

@[simp] theorem hotFlush_steady (temp : Int) (hot : Bool) (s : State) : steady (hotFlush temp hot s) = steady s := by unfold hotFlush; split <;> simp

@[simp] theorem heldResets_ext {x : Tup} (s : State) (hx : Ext x (steady s)) : Ext x (steady (heldResets s)) := by unfold heldResets; split <;> simp [hx]

@[simp] theorem lastFlush_steady (us bytes : Nat) (s : State) : steady (lastFlush us bytes s) = steady s := by unfold lastFlush; split <;> simp

end Sys2Proof.Machine
end

