-- ==== Sys2Proof/Laws/State.lean ====
section
/-! SUPPORT. One lemma per field per named update of State: what each leaves as it is. -/

namespace Sys2Proof.Machine
open Sys2Proof

/-! ### raise -/

@[simp] theorem raise_part (code sev : Nat) (args : List (List Nat)) (s : State) : (raise code sev args s).part = s.part := rfl
@[simp] theorem raise_m (code sev : Nat) (args : List (List Nat)) (s : State) : (raise code sev args s).m = s.m := rfl
@[simp] theorem raise_pins (code sev : Nat) (args : List (List Nat)) (s : State) : (raise code sev args s).pins = s.pins := rfl
@[simp] theorem raise_st (code sev : Nat) (args : List (List Nat)) (s : State) : (raise code sev args s).st = s.st := rfl
@[simp] theorem raise_img (code sev : Nat) (args : List (List Nat)) (s : State) : (raise code sev args s).img = s.img := rfl
@[simp] theorem raise_slk (code sev : Nat) (args : List (List Nat)) (s : State) : (raise code sev args s).slk = s.slk := rfl
@[simp] theorem raise_q (code sev : Nat) (args : List (List Nat)) (s : State) : (raise code sev args s).q = s.q := rfl
@[simp] theorem raise_zn (code sev : Nat) (args : List (List Nat)) (s : State) : (raise code sev args s).zn = s.zn := rfl
@[simp] theorem raise_pl (code sev : Nat) (args : List (List Nat)) (s : State) : (raise code sev args s).pl = s.pl := rfl
@[simp] theorem raise_fl (code sev : Nat) (args : List (List Nat)) (s : State) : (raise code sev args s).fl = s.fl := rfl
@[simp] theorem raise_ecc (code sev : Nat) (args : List (List Nat)) (s : State) : (raise code sev args s).ecc = s.ecc := rfl
@[simp] theorem raise_tm (code sev : Nat) (args : List (List Nat)) (s : State) : (raise code sev args s).tm = s.tm := rfl
@[simp] theorem raise_stl (code sev : Nat) (args : List (List Nat)) (s : State) : (raise code sev args s).stl = s.stl := rfl
@[simp] theorem raise_ci (code sev : Nat) (args : List (List Nat)) (s : State) : (raise code sev args s).ci = s.ci := rfl
@[simp] theorem raise_ga (code sev : Nat) (args : List (List Nat)) (s : State) : (raise code sev args s).ga = s.ga := rfl
@[simp] theorem raise_cad (code sev : Nat) (args : List (List Nat)) (s : State) : (raise code sev args s).cad = s.cad := rfl
@[simp] theorem raise_pw (code sev : Nat) (args : List (List Nat)) (s : State) : (raise code sev args s).pw = s.pw := rfl
@[simp] theorem raise_ts (code sev : Nat) (args : List (List Nat)) (s : State) : (raise code sev args s).ts = s.ts := rfl
@[simp] theorem raise_jn (code sev : Nat) (args : List (List Nat)) (s : State) : (raise code sev args s).jn = s.jn := rfl
@[simp] theorem raise_rg (code sev : Nat) (args : List (List Nat)) (s : State) : (raise code sev args s).rg = s.rg := rfl
@[simp] theorem raise_free (code sev : Nat) (args : List (List Nat)) (s : State) : (raise code sev args s).free = s.free := rfl
@[simp] theorem raise_pending (code sev : Nat) (args : List (List Nat)) (s : State) : (raise code sev args s).pending = s.pending := rfl

/-! ### tick -/

@[simp] theorem tick_part (s : State) : (tick s).part = s.part := rfl
@[simp] theorem tick_m (s : State) : (tick s).m = s.m := rfl
@[simp] theorem tick_pins (s : State) : (tick s).pins = s.pins := rfl
@[simp] theorem tick_st (s : State) : (tick s).st = s.st := rfl
@[simp] theorem tick_img (s : State) : (tick s).img = s.img := rfl
@[simp] theorem tick_stb (s : State) : (tick s).stb = s.stb := rfl
@[simp] theorem tick_slk (s : State) : (tick s).slk = s.slk := rfl
@[simp] theorem tick_q (s : State) : (tick s).q = s.q := rfl
@[simp] theorem tick_zn (s : State) : (tick s).zn = s.zn := rfl
@[simp] theorem tick_pl (s : State) : (tick s).pl = s.pl := rfl
@[simp] theorem tick_fl (s : State) : (tick s).fl = s.fl := rfl
@[simp] theorem tick_ecc (s : State) : (tick s).ecc = s.ecc := rfl
@[simp] theorem tick_tm (s : State) : (tick s).tm = s.tm := rfl
@[simp] theorem tick_stl (s : State) : (tick s).stl = s.stl := rfl
@[simp] theorem tick_ci (s : State) : (tick s).ci = s.ci := rfl
@[simp] theorem tick_ga (s : State) : (tick s).ga = s.ga := rfl
@[simp] theorem tick_cad (s : State) : (tick s).cad = s.cad := rfl
@[simp] theorem tick_pw (s : State) : (tick s).pw = s.pw := rfl
@[simp] theorem tick_ts (s : State) : (tick s).ts = s.ts := rfl
@[simp] theorem tick_jn (s : State) : (tick s).jn = s.jn := rfl
@[simp] theorem tick_rg (s : State) : (tick s).rg = s.rg := rfl
@[simp] theorem tick_pending (s : State) : (tick s).pending = s.pending := rfl

/-! ### updFn -/

@[simp] theorem updFn_part (f : Nat) (g : Fn → Fn) (s : State) : (updFn f g s).part = s.part := rfl
@[simp] theorem updFn_m (f : Nat) (g : Fn → Fn) (s : State) : (updFn f g s).m = s.m := rfl
@[simp] theorem updFn_pins (f : Nat) (g : Fn → Fn) (s : State) : (updFn f g s).pins = s.pins := rfl
@[simp] theorem updFn_st (f : Nat) (g : Fn → Fn) (s : State) : (updFn f g s).st = s.st := rfl
@[simp] theorem updFn_img (f : Nat) (g : Fn → Fn) (s : State) : (updFn f g s).img = s.img := rfl
@[simp] theorem updFn_stb (f : Nat) (g : Fn → Fn) (s : State) : (updFn f g s).stb = s.stb := rfl
@[simp] theorem updFn_slk (f : Nat) (g : Fn → Fn) (s : State) : (updFn f g s).slk = s.slk := rfl
@[simp] theorem updFn_zn (f : Nat) (g : Fn → Fn) (s : State) : (updFn f g s).zn = s.zn := rfl
@[simp] theorem updFn_pl (f : Nat) (g : Fn → Fn) (s : State) : (updFn f g s).pl = s.pl := rfl
@[simp] theorem updFn_fl (f : Nat) (g : Fn → Fn) (s : State) : (updFn f g s).fl = s.fl := rfl
@[simp] theorem updFn_ecc (f : Nat) (g : Fn → Fn) (s : State) : (updFn f g s).ecc = s.ecc := rfl
@[simp] theorem updFn_tm (f : Nat) (g : Fn → Fn) (s : State) : (updFn f g s).tm = s.tm := rfl
@[simp] theorem updFn_stl (f : Nat) (g : Fn → Fn) (s : State) : (updFn f g s).stl = s.stl := rfl
@[simp] theorem updFn_ci (f : Nat) (g : Fn → Fn) (s : State) : (updFn f g s).ci = s.ci := rfl
@[simp] theorem updFn_ga (f : Nat) (g : Fn → Fn) (s : State) : (updFn f g s).ga = s.ga := rfl
@[simp] theorem updFn_cad (f : Nat) (g : Fn → Fn) (s : State) : (updFn f g s).cad = s.cad := rfl
@[simp] theorem updFn_pw (f : Nat) (g : Fn → Fn) (s : State) : (updFn f g s).pw = s.pw := rfl
@[simp] theorem updFn_ts (f : Nat) (g : Fn → Fn) (s : State) : (updFn f g s).ts = s.ts := rfl
@[simp] theorem updFn_jn (f : Nat) (g : Fn → Fn) (s : State) : (updFn f g s).jn = s.jn := rfl
@[simp] theorem updFn_rg (f : Nat) (g : Fn → Fn) (s : State) : (updFn f g s).rg = s.rg := rfl
@[simp] theorem updFn_free (f : Nat) (g : Fn → Fn) (s : State) : (updFn f g s).free = s.free := rfl
@[simp] theorem updFn_pending (f : Nat) (g : Fn → Fn) (s : State) : (updFn f g s).pending = s.pending := rfl

/-! ### putCtx -/

@[simp] theorem putCtx_part (k : Ctx) (s : State) : (putCtx k s).part = s.part := rfl
@[simp] theorem putCtx_m (k : Ctx) (s : State) : (putCtx k s).m = s.m := rfl
@[simp] theorem putCtx_pins (k : Ctx) (s : State) : (putCtx k s).pins = s.pins := rfl
@[simp] theorem putCtx_st (k : Ctx) (s : State) : (putCtx k s).st = s.st := rfl
@[simp] theorem putCtx_img (k : Ctx) (s : State) : (putCtx k s).img = s.img := rfl
@[simp] theorem putCtx_stb (k : Ctx) (s : State) : (putCtx k s).stb = s.stb := rfl
@[simp] theorem putCtx_slk (k : Ctx) (s : State) : (putCtx k s).slk = s.slk := rfl
@[simp] theorem putCtx_zn (k : Ctx) (s : State) : (putCtx k s).zn = s.zn := rfl
@[simp] theorem putCtx_pl (k : Ctx) (s : State) : (putCtx k s).pl = s.pl := rfl
@[simp] theorem putCtx_fl (k : Ctx) (s : State) : (putCtx k s).fl = s.fl := rfl
@[simp] theorem putCtx_ecc (k : Ctx) (s : State) : (putCtx k s).ecc = s.ecc := rfl
@[simp] theorem putCtx_tm (k : Ctx) (s : State) : (putCtx k s).tm = s.tm := rfl
@[simp] theorem putCtx_stl (k : Ctx) (s : State) : (putCtx k s).stl = s.stl := rfl
@[simp] theorem putCtx_ci (k : Ctx) (s : State) : (putCtx k s).ci = s.ci := rfl
@[simp] theorem putCtx_ga (k : Ctx) (s : State) : (putCtx k s).ga = s.ga := rfl
@[simp] theorem putCtx_cad (k : Ctx) (s : State) : (putCtx k s).cad = s.cad := rfl
@[simp] theorem putCtx_pw (k : Ctx) (s : State) : (putCtx k s).pw = s.pw := rfl
@[simp] theorem putCtx_ts (k : Ctx) (s : State) : (putCtx k s).ts = s.ts := rfl
@[simp] theorem putCtx_jn (k : Ctx) (s : State) : (putCtx k s).jn = s.jn := rfl
@[simp] theorem putCtx_rg (k : Ctx) (s : State) : (putCtx k s).rg = s.rg := rfl
@[simp] theorem putCtx_free (k : Ctx) (s : State) : (putCtx k s).free = s.free := rfl
@[simp] theorem putCtx_pending (k : Ctx) (s : State) : (putCtx k s).pending = s.pending := rfl

/-! ### dropCtx -/

@[simp] theorem dropCtx_part (i : Nat) (s : State) : (dropCtx i s).part = s.part := rfl
@[simp] theorem dropCtx_m (i : Nat) (s : State) : (dropCtx i s).m = s.m := rfl
@[simp] theorem dropCtx_pins (i : Nat) (s : State) : (dropCtx i s).pins = s.pins := rfl
@[simp] theorem dropCtx_st (i : Nat) (s : State) : (dropCtx i s).st = s.st := rfl
@[simp] theorem dropCtx_img (i : Nat) (s : State) : (dropCtx i s).img = s.img := rfl
@[simp] theorem dropCtx_stb (i : Nat) (s : State) : (dropCtx i s).stb = s.stb := rfl
@[simp] theorem dropCtx_slk (i : Nat) (s : State) : (dropCtx i s).slk = s.slk := rfl
@[simp] theorem dropCtx_zn (i : Nat) (s : State) : (dropCtx i s).zn = s.zn := rfl
@[simp] theorem dropCtx_pl (i : Nat) (s : State) : (dropCtx i s).pl = s.pl := rfl
@[simp] theorem dropCtx_fl (i : Nat) (s : State) : (dropCtx i s).fl = s.fl := rfl
@[simp] theorem dropCtx_ecc (i : Nat) (s : State) : (dropCtx i s).ecc = s.ecc := rfl
@[simp] theorem dropCtx_tm (i : Nat) (s : State) : (dropCtx i s).tm = s.tm := rfl
@[simp] theorem dropCtx_stl (i : Nat) (s : State) : (dropCtx i s).stl = s.stl := rfl
@[simp] theorem dropCtx_ci (i : Nat) (s : State) : (dropCtx i s).ci = s.ci := rfl
@[simp] theorem dropCtx_ga (i : Nat) (s : State) : (dropCtx i s).ga = s.ga := rfl
@[simp] theorem dropCtx_cad (i : Nat) (s : State) : (dropCtx i s).cad = s.cad := rfl
@[simp] theorem dropCtx_pw (i : Nat) (s : State) : (dropCtx i s).pw = s.pw := rfl
@[simp] theorem dropCtx_ts (i : Nat) (s : State) : (dropCtx i s).ts = s.ts := rfl
@[simp] theorem dropCtx_jn (i : Nat) (s : State) : (dropCtx i s).jn = s.jn := rfl
@[simp] theorem dropCtx_rg (i : Nat) (s : State) : (dropCtx i s).rg = s.rg := rfl
@[simp] theorem dropCtx_free (i : Nat) (s : State) : (dropCtx i s).free = s.free := rfl
@[simp] theorem dropCtx_pending (i : Nat) (s : State) : (dropCtx i s).pending = s.pending := rfl

/-! ### signal -/

@[simp] theorem signal_part (f vec : Nat) (s : State) : (signal f vec s).part = s.part := rfl
@[simp] theorem signal_m (f vec : Nat) (s : State) : (signal f vec s).m = s.m := rfl
@[simp] theorem signal_pins (f vec : Nat) (s : State) : (signal f vec s).pins = s.pins := rfl
@[simp] theorem signal_st (f vec : Nat) (s : State) : (signal f vec s).st = s.st := rfl
@[simp] theorem signal_img (f vec : Nat) (s : State) : (signal f vec s).img = s.img := rfl
@[simp] theorem signal_stb (f vec : Nat) (s : State) : (signal f vec s).stb = s.stb := rfl
@[simp] theorem signal_slk (f vec : Nat) (s : State) : (signal f vec s).slk = s.slk := rfl
@[simp] theorem signal_zn (f vec : Nat) (s : State) : (signal f vec s).zn = s.zn := rfl
@[simp] theorem signal_pl (f vec : Nat) (s : State) : (signal f vec s).pl = s.pl := rfl
@[simp] theorem signal_fl (f vec : Nat) (s : State) : (signal f vec s).fl = s.fl := rfl
@[simp] theorem signal_ecc (f vec : Nat) (s : State) : (signal f vec s).ecc = s.ecc := rfl
@[simp] theorem signal_tm (f vec : Nat) (s : State) : (signal f vec s).tm = s.tm := rfl
@[simp] theorem signal_stl (f vec : Nat) (s : State) : (signal f vec s).stl = s.stl := rfl
@[simp] theorem signal_ci (f vec : Nat) (s : State) : (signal f vec s).ci = s.ci := rfl
@[simp] theorem signal_ga (f vec : Nat) (s : State) : (signal f vec s).ga = s.ga := rfl
@[simp] theorem signal_cad (f vec : Nat) (s : State) : (signal f vec s).cad = s.cad := rfl
@[simp] theorem signal_pw (f vec : Nat) (s : State) : (signal f vec s).pw = s.pw := rfl
@[simp] theorem signal_ts (f vec : Nat) (s : State) : (signal f vec s).ts = s.ts := rfl
@[simp] theorem signal_jn (f vec : Nat) (s : State) : (signal f vec s).jn = s.jn := rfl
@[simp] theorem signal_rg (f vec : Nat) (s : State) : (signal f vec s).rg = s.rg := rfl
@[simp] theorem signal_free (f vec : Nat) (s : State) : (signal f vec s).free = s.free := rfl
@[simp] theorem signal_pending (f vec : Nat) (s : State) : (signal f vec s).pending = s.pending := rfl

/-! ### updCvu -/

@[simp] theorem updCvu_part (u : Nat) (g : Cvu → Cvu) (s : State) : (updCvu u g s).part = s.part := rfl
@[simp] theorem updCvu_m (u : Nat) (g : Cvu → Cvu) (s : State) : (updCvu u g s).m = s.m := rfl
@[simp] theorem updCvu_pins (u : Nat) (g : Cvu → Cvu) (s : State) : (updCvu u g s).pins = s.pins := rfl
@[simp] theorem updCvu_st (u : Nat) (g : Cvu → Cvu) (s : State) : (updCvu u g s).st = s.st := rfl
@[simp] theorem updCvu_img (u : Nat) (g : Cvu → Cvu) (s : State) : (updCvu u g s).img = s.img := rfl
@[simp] theorem updCvu_stb (u : Nat) (g : Cvu → Cvu) (s : State) : (updCvu u g s).stb = s.stb := rfl
@[simp] theorem updCvu_slk (u : Nat) (g : Cvu → Cvu) (s : State) : (updCvu u g s).slk = s.slk := rfl
@[simp] theorem updCvu_q (u : Nat) (g : Cvu → Cvu) (s : State) : (updCvu u g s).q = s.q := rfl
@[simp] theorem updCvu_zn (u : Nat) (g : Cvu → Cvu) (s : State) : (updCvu u g s).zn = s.zn := rfl
@[simp] theorem updCvu_pl (u : Nat) (g : Cvu → Cvu) (s : State) : (updCvu u g s).pl = s.pl := rfl
@[simp] theorem updCvu_fl (u : Nat) (g : Cvu → Cvu) (s : State) : (updCvu u g s).fl = s.fl := rfl
@[simp] theorem updCvu_ecc (u : Nat) (g : Cvu → Cvu) (s : State) : (updCvu u g s).ecc = s.ecc := rfl
@[simp] theorem updCvu_tm (u : Nat) (g : Cvu → Cvu) (s : State) : (updCvu u g s).tm = s.tm := rfl
@[simp] theorem updCvu_stl (u : Nat) (g : Cvu → Cvu) (s : State) : (updCvu u g s).stl = s.stl := rfl
@[simp] theorem updCvu_ga (u : Nat) (g : Cvu → Cvu) (s : State) : (updCvu u g s).ga = s.ga := rfl
@[simp] theorem updCvu_cad (u : Nat) (g : Cvu → Cvu) (s : State) : (updCvu u g s).cad = s.cad := rfl
@[simp] theorem updCvu_pw (u : Nat) (g : Cvu → Cvu) (s : State) : (updCvu u g s).pw = s.pw := rfl
@[simp] theorem updCvu_ts (u : Nat) (g : Cvu → Cvu) (s : State) : (updCvu u g s).ts = s.ts := rfl
@[simp] theorem updCvu_jn (u : Nat) (g : Cvu → Cvu) (s : State) : (updCvu u g s).jn = s.jn := rfl
@[simp] theorem updCvu_rg (u : Nat) (g : Cvu → Cvu) (s : State) : (updCvu u g s).rg = s.rg := rfl
@[simp] theorem updCvu_free (u : Nat) (g : Cvu → Cvu) (s : State) : (updCvu u g s).free = s.free := rfl
@[simp] theorem updCvu_pending (u : Nat) (g : Cvu → Cvu) (s : State) : (updCvu u g s).pending = s.pending := rfl

/-! ### updSlk -/

@[simp] theorem updSlk_part (f : Nat) (g : SlkFn → SlkFn) (s : State) : (updSlk f g s).part = s.part := rfl
@[simp] theorem updSlk_m (f : Nat) (g : SlkFn → SlkFn) (s : State) : (updSlk f g s).m = s.m := rfl
@[simp] theorem updSlk_pins (f : Nat) (g : SlkFn → SlkFn) (s : State) : (updSlk f g s).pins = s.pins := rfl
@[simp] theorem updSlk_st (f : Nat) (g : SlkFn → SlkFn) (s : State) : (updSlk f g s).st = s.st := rfl
@[simp] theorem updSlk_img (f : Nat) (g : SlkFn → SlkFn) (s : State) : (updSlk f g s).img = s.img := rfl
@[simp] theorem updSlk_stb (f : Nat) (g : SlkFn → SlkFn) (s : State) : (updSlk f g s).stb = s.stb := rfl
@[simp] theorem updSlk_q (f : Nat) (g : SlkFn → SlkFn) (s : State) : (updSlk f g s).q = s.q := rfl
@[simp] theorem updSlk_zn (f : Nat) (g : SlkFn → SlkFn) (s : State) : (updSlk f g s).zn = s.zn := rfl
@[simp] theorem updSlk_pl (f : Nat) (g : SlkFn → SlkFn) (s : State) : (updSlk f g s).pl = s.pl := rfl
@[simp] theorem updSlk_fl (f : Nat) (g : SlkFn → SlkFn) (s : State) : (updSlk f g s).fl = s.fl := rfl
@[simp] theorem updSlk_ecc (f : Nat) (g : SlkFn → SlkFn) (s : State) : (updSlk f g s).ecc = s.ecc := rfl
@[simp] theorem updSlk_tm (f : Nat) (g : SlkFn → SlkFn) (s : State) : (updSlk f g s).tm = s.tm := rfl
@[simp] theorem updSlk_stl (f : Nat) (g : SlkFn → SlkFn) (s : State) : (updSlk f g s).stl = s.stl := rfl
@[simp] theorem updSlk_ci (f : Nat) (g : SlkFn → SlkFn) (s : State) : (updSlk f g s).ci = s.ci := rfl
@[simp] theorem updSlk_ga (f : Nat) (g : SlkFn → SlkFn) (s : State) : (updSlk f g s).ga = s.ga := rfl
@[simp] theorem updSlk_cad (f : Nat) (g : SlkFn → SlkFn) (s : State) : (updSlk f g s).cad = s.cad := rfl
@[simp] theorem updSlk_pw (f : Nat) (g : SlkFn → SlkFn) (s : State) : (updSlk f g s).pw = s.pw := rfl
@[simp] theorem updSlk_ts (f : Nat) (g : SlkFn → SlkFn) (s : State) : (updSlk f g s).ts = s.ts := rfl
@[simp] theorem updSlk_jn (f : Nat) (g : SlkFn → SlkFn) (s : State) : (updSlk f g s).jn = s.jn := rfl
@[simp] theorem updSlk_rg (f : Nat) (g : SlkFn → SlkFn) (s : State) : (updSlk f g s).rg = s.rg := rfl
@[simp] theorem updSlk_free (f : Nat) (g : SlkFn → SlkFn) (s : State) : (updSlk f g s).free = s.free := rfl
@[simp] theorem updSlk_pending (f : Nat) (g : SlkFn → SlkFn) (s : State) : (updSlk f g s).pending = s.pending := rfl

/-! ### updZone -/

@[simp] theorem updZone_part (z : Nat) (g : Zone → Zone) (s : State) : (updZone z g s).part = s.part := rfl
@[simp] theorem updZone_m (z : Nat) (g : Zone → Zone) (s : State) : (updZone z g s).m = s.m := rfl
@[simp] theorem updZone_pins (z : Nat) (g : Zone → Zone) (s : State) : (updZone z g s).pins = s.pins := rfl
@[simp] theorem updZone_st (z : Nat) (g : Zone → Zone) (s : State) : (updZone z g s).st = s.st := rfl
@[simp] theorem updZone_img (z : Nat) (g : Zone → Zone) (s : State) : (updZone z g s).img = s.img := rfl
@[simp] theorem updZone_stb (z : Nat) (g : Zone → Zone) (s : State) : (updZone z g s).stb = s.stb := rfl
@[simp] theorem updZone_slk (z : Nat) (g : Zone → Zone) (s : State) : (updZone z g s).slk = s.slk := rfl
@[simp] theorem updZone_q (z : Nat) (g : Zone → Zone) (s : State) : (updZone z g s).q = s.q := rfl
@[simp] theorem updZone_pl (z : Nat) (g : Zone → Zone) (s : State) : (updZone z g s).pl = s.pl := rfl
@[simp] theorem updZone_fl (z : Nat) (g : Zone → Zone) (s : State) : (updZone z g s).fl = s.fl := rfl
@[simp] theorem updZone_ecc (z : Nat) (g : Zone → Zone) (s : State) : (updZone z g s).ecc = s.ecc := rfl
@[simp] theorem updZone_tm (z : Nat) (g : Zone → Zone) (s : State) : (updZone z g s).tm = s.tm := rfl
@[simp] theorem updZone_stl (z : Nat) (g : Zone → Zone) (s : State) : (updZone z g s).stl = s.stl := rfl
@[simp] theorem updZone_ci (z : Nat) (g : Zone → Zone) (s : State) : (updZone z g s).ci = s.ci := rfl
@[simp] theorem updZone_ga (z : Nat) (g : Zone → Zone) (s : State) : (updZone z g s).ga = s.ga := rfl
@[simp] theorem updZone_cad (z : Nat) (g : Zone → Zone) (s : State) : (updZone z g s).cad = s.cad := rfl
@[simp] theorem updZone_pw (z : Nat) (g : Zone → Zone) (s : State) : (updZone z g s).pw = s.pw := rfl
@[simp] theorem updZone_ts (z : Nat) (g : Zone → Zone) (s : State) : (updZone z g s).ts = s.ts := rfl
@[simp] theorem updZone_jn (z : Nat) (g : Zone → Zone) (s : State) : (updZone z g s).jn = s.jn := rfl
@[simp] theorem updZone_rg (z : Nat) (g : Zone → Zone) (s : State) : (updZone z g s).rg = s.rg := rfl
@[simp] theorem updZone_free (z : Nat) (g : Zone → Zone) (s : State) : (updZone z g s).free = s.free := rfl
@[simp] theorem updZone_pending (z : Nat) (g : Zone → Zone) (s : State) : (updZone z g s).pending = s.pending := rfl

/-! ### updLun -/

@[simp] theorem updLun_part (d : Nat) (g : Lun → Lun) (s : State) : (updLun d g s).part = s.part := rfl
@[simp] theorem updLun_m (d : Nat) (g : Lun → Lun) (s : State) : (updLun d g s).m = s.m := rfl
@[simp] theorem updLun_pins (d : Nat) (g : Lun → Lun) (s : State) : (updLun d g s).pins = s.pins := rfl
@[simp] theorem updLun_st (d : Nat) (g : Lun → Lun) (s : State) : (updLun d g s).st = s.st := rfl
@[simp] theorem updLun_img (d : Nat) (g : Lun → Lun) (s : State) : (updLun d g s).img = s.img := rfl
@[simp] theorem updLun_stb (d : Nat) (g : Lun → Lun) (s : State) : (updLun d g s).stb = s.stb := rfl
@[simp] theorem updLun_slk (d : Nat) (g : Lun → Lun) (s : State) : (updLun d g s).slk = s.slk := rfl
@[simp] theorem updLun_q (d : Nat) (g : Lun → Lun) (s : State) : (updLun d g s).q = s.q := rfl
@[simp] theorem updLun_zn (d : Nat) (g : Lun → Lun) (s : State) : (updLun d g s).zn = s.zn := rfl
@[simp] theorem updLun_pl (d : Nat) (g : Lun → Lun) (s : State) : (updLun d g s).pl = s.pl := rfl
@[simp] theorem updLun_ecc (d : Nat) (g : Lun → Lun) (s : State) : (updLun d g s).ecc = s.ecc := rfl
@[simp] theorem updLun_tm (d : Nat) (g : Lun → Lun) (s : State) : (updLun d g s).tm = s.tm := rfl
@[simp] theorem updLun_stl (d : Nat) (g : Lun → Lun) (s : State) : (updLun d g s).stl = s.stl := rfl
@[simp] theorem updLun_ci (d : Nat) (g : Lun → Lun) (s : State) : (updLun d g s).ci = s.ci := rfl
@[simp] theorem updLun_ga (d : Nat) (g : Lun → Lun) (s : State) : (updLun d g s).ga = s.ga := rfl
@[simp] theorem updLun_cad (d : Nat) (g : Lun → Lun) (s : State) : (updLun d g s).cad = s.cad := rfl
@[simp] theorem updLun_pw (d : Nat) (g : Lun → Lun) (s : State) : (updLun d g s).pw = s.pw := rfl
@[simp] theorem updLun_ts (d : Nat) (g : Lun → Lun) (s : State) : (updLun d g s).ts = s.ts := rfl
@[simp] theorem updLun_jn (d : Nat) (g : Lun → Lun) (s : State) : (updLun d g s).jn = s.jn := rfl
@[simp] theorem updLun_rg (d : Nat) (g : Lun → Lun) (s : State) : (updLun d g s).rg = s.rg := rfl
@[simp] theorem updLun_free (d : Nat) (g : Lun → Lun) (s : State) : (updLun d g s).free = s.free := rfl
@[simp] theorem updLun_pending (d : Nat) (g : Lun → Lun) (s : State) : (updLun d g s).pending = s.pending := rfl

/-! ### updBk -/

@[simp] theorem updBk_part (d b : Nat) (g : Bk → Bk) (s : State) : (updBk d b g s).part = s.part := rfl
@[simp] theorem updBk_m (d b : Nat) (g : Bk → Bk) (s : State) : (updBk d b g s).m = s.m := rfl
@[simp] theorem updBk_pins (d b : Nat) (g : Bk → Bk) (s : State) : (updBk d b g s).pins = s.pins := rfl
@[simp] theorem updBk_st (d b : Nat) (g : Bk → Bk) (s : State) : (updBk d b g s).st = s.st := rfl
@[simp] theorem updBk_img (d b : Nat) (g : Bk → Bk) (s : State) : (updBk d b g s).img = s.img := rfl
@[simp] theorem updBk_stb (d b : Nat) (g : Bk → Bk) (s : State) : (updBk d b g s).stb = s.stb := rfl
@[simp] theorem updBk_slk (d b : Nat) (g : Bk → Bk) (s : State) : (updBk d b g s).slk = s.slk := rfl
@[simp] theorem updBk_q (d b : Nat) (g : Bk → Bk) (s : State) : (updBk d b g s).q = s.q := rfl
@[simp] theorem updBk_zn (d b : Nat) (g : Bk → Bk) (s : State) : (updBk d b g s).zn = s.zn := rfl
@[simp] theorem updBk_pl (d b : Nat) (g : Bk → Bk) (s : State) : (updBk d b g s).pl = s.pl := rfl
@[simp] theorem updBk_ecc (d b : Nat) (g : Bk → Bk) (s : State) : (updBk d b g s).ecc = s.ecc := rfl
@[simp] theorem updBk_tm (d b : Nat) (g : Bk → Bk) (s : State) : (updBk d b g s).tm = s.tm := rfl
@[simp] theorem updBk_stl (d b : Nat) (g : Bk → Bk) (s : State) : (updBk d b g s).stl = s.stl := rfl
@[simp] theorem updBk_ci (d b : Nat) (g : Bk → Bk) (s : State) : (updBk d b g s).ci = s.ci := rfl
@[simp] theorem updBk_ga (d b : Nat) (g : Bk → Bk) (s : State) : (updBk d b g s).ga = s.ga := rfl
@[simp] theorem updBk_cad (d b : Nat) (g : Bk → Bk) (s : State) : (updBk d b g s).cad = s.cad := rfl
@[simp] theorem updBk_pw (d b : Nat) (g : Bk → Bk) (s : State) : (updBk d b g s).pw = s.pw := rfl
@[simp] theorem updBk_ts (d b : Nat) (g : Bk → Bk) (s : State) : (updBk d b g s).ts = s.ts := rfl
@[simp] theorem updBk_jn (d b : Nat) (g : Bk → Bk) (s : State) : (updBk d b g s).jn = s.jn := rfl
@[simp] theorem updBk_rg (d b : Nat) (g : Bk → Bk) (s : State) : (updBk d b g s).rg = s.rg := rfl
@[simp] theorem updBk_free (d b : Nat) (g : Bk → Bk) (s : State) : (updBk d b g s).free = s.free := rfl
@[simp] theorem updBk_pending (d b : Nat) (g : Bk → Bk) (s : State) : (updBk d b g s).pending = s.pending := rfl

/-! ### updChn -/

@[simp] theorem updChn_part (c : Nat) (g : Chn → Chn) (s : State) : (updChn c g s).part = s.part := rfl
@[simp] theorem updChn_m (c : Nat) (g : Chn → Chn) (s : State) : (updChn c g s).m = s.m := rfl
@[simp] theorem updChn_pins (c : Nat) (g : Chn → Chn) (s : State) : (updChn c g s).pins = s.pins := rfl
@[simp] theorem updChn_st (c : Nat) (g : Chn → Chn) (s : State) : (updChn c g s).st = s.st := rfl
@[simp] theorem updChn_img (c : Nat) (g : Chn → Chn) (s : State) : (updChn c g s).img = s.img := rfl
@[simp] theorem updChn_stb (c : Nat) (g : Chn → Chn) (s : State) : (updChn c g s).stb = s.stb := rfl
@[simp] theorem updChn_slk (c : Nat) (g : Chn → Chn) (s : State) : (updChn c g s).slk = s.slk := rfl
@[simp] theorem updChn_q (c : Nat) (g : Chn → Chn) (s : State) : (updChn c g s).q = s.q := rfl
@[simp] theorem updChn_zn (c : Nat) (g : Chn → Chn) (s : State) : (updChn c g s).zn = s.zn := rfl
@[simp] theorem updChn_pl (c : Nat) (g : Chn → Chn) (s : State) : (updChn c g s).pl = s.pl := rfl
@[simp] theorem updChn_ecc (c : Nat) (g : Chn → Chn) (s : State) : (updChn c g s).ecc = s.ecc := rfl
@[simp] theorem updChn_tm (c : Nat) (g : Chn → Chn) (s : State) : (updChn c g s).tm = s.tm := rfl
@[simp] theorem updChn_stl (c : Nat) (g : Chn → Chn) (s : State) : (updChn c g s).stl = s.stl := rfl
@[simp] theorem updChn_ci (c : Nat) (g : Chn → Chn) (s : State) : (updChn c g s).ci = s.ci := rfl
@[simp] theorem updChn_ga (c : Nat) (g : Chn → Chn) (s : State) : (updChn c g s).ga = s.ga := rfl
@[simp] theorem updChn_cad (c : Nat) (g : Chn → Chn) (s : State) : (updChn c g s).cad = s.cad := rfl
@[simp] theorem updChn_pw (c : Nat) (g : Chn → Chn) (s : State) : (updChn c g s).pw = s.pw := rfl
@[simp] theorem updChn_ts (c : Nat) (g : Chn → Chn) (s : State) : (updChn c g s).ts = s.ts := rfl
@[simp] theorem updChn_jn (c : Nat) (g : Chn → Chn) (s : State) : (updChn c g s).jn = s.jn := rfl
@[simp] theorem updChn_rg (c : Nat) (g : Chn → Chn) (s : State) : (updChn c g s).rg = s.rg := rfl
@[simp] theorem updChn_free (c : Nat) (g : Chn → Chn) (s : State) : (updChn c g s).free = s.free := rfl
@[simp] theorem updChn_pending (c : Nat) (g : Chn → Chn) (s : State) : (updChn c g s).pending = s.pending := rfl

/-! ### updOp -/

@[simp] theorem updOp_part (i : Nat) (g : AOp → AOp) (s : State) : (updOp i g s).part = s.part := rfl
@[simp] theorem updOp_m (i : Nat) (g : AOp → AOp) (s : State) : (updOp i g s).m = s.m := rfl
@[simp] theorem updOp_pins (i : Nat) (g : AOp → AOp) (s : State) : (updOp i g s).pins = s.pins := rfl
@[simp] theorem updOp_st (i : Nat) (g : AOp → AOp) (s : State) : (updOp i g s).st = s.st := rfl
@[simp] theorem updOp_img (i : Nat) (g : AOp → AOp) (s : State) : (updOp i g s).img = s.img := rfl
@[simp] theorem updOp_stb (i : Nat) (g : AOp → AOp) (s : State) : (updOp i g s).stb = s.stb := rfl
@[simp] theorem updOp_slk (i : Nat) (g : AOp → AOp) (s : State) : (updOp i g s).slk = s.slk := rfl
@[simp] theorem updOp_q (i : Nat) (g : AOp → AOp) (s : State) : (updOp i g s).q = s.q := rfl
@[simp] theorem updOp_zn (i : Nat) (g : AOp → AOp) (s : State) : (updOp i g s).zn = s.zn := rfl
@[simp] theorem updOp_pl (i : Nat) (g : AOp → AOp) (s : State) : (updOp i g s).pl = s.pl := rfl
@[simp] theorem updOp_ecc (i : Nat) (g : AOp → AOp) (s : State) : (updOp i g s).ecc = s.ecc := rfl
@[simp] theorem updOp_tm (i : Nat) (g : AOp → AOp) (s : State) : (updOp i g s).tm = s.tm := rfl
@[simp] theorem updOp_stl (i : Nat) (g : AOp → AOp) (s : State) : (updOp i g s).stl = s.stl := rfl
@[simp] theorem updOp_ci (i : Nat) (g : AOp → AOp) (s : State) : (updOp i g s).ci = s.ci := rfl
@[simp] theorem updOp_ga (i : Nat) (g : AOp → AOp) (s : State) : (updOp i g s).ga = s.ga := rfl
@[simp] theorem updOp_cad (i : Nat) (g : AOp → AOp) (s : State) : (updOp i g s).cad = s.cad := rfl
@[simp] theorem updOp_pw (i : Nat) (g : AOp → AOp) (s : State) : (updOp i g s).pw = s.pw := rfl
@[simp] theorem updOp_ts (i : Nat) (g : AOp → AOp) (s : State) : (updOp i g s).ts = s.ts := rfl
@[simp] theorem updOp_jn (i : Nat) (g : AOp → AOp) (s : State) : (updOp i g s).jn = s.jn := rfl
@[simp] theorem updOp_rg (i : Nat) (g : AOp → AOp) (s : State) : (updOp i g s).rg = s.rg := rfl
@[simp] theorem updOp_free (i : Nat) (g : AOp → AOp) (s : State) : (updOp i g s).free = s.free := rfl
@[simp] theorem updOp_pending (i : Nat) (g : AOp → AOp) (s : State) : (updOp i g s).pending = s.pending := rfl

/-! ### dropOp -/

@[simp] theorem dropOp_part (i : Nat) (s : State) : (dropOp i s).part = s.part := rfl
@[simp] theorem dropOp_m (i : Nat) (s : State) : (dropOp i s).m = s.m := rfl
@[simp] theorem dropOp_pins (i : Nat) (s : State) : (dropOp i s).pins = s.pins := rfl
@[simp] theorem dropOp_st (i : Nat) (s : State) : (dropOp i s).st = s.st := rfl
@[simp] theorem dropOp_img (i : Nat) (s : State) : (dropOp i s).img = s.img := rfl
@[simp] theorem dropOp_stb (i : Nat) (s : State) : (dropOp i s).stb = s.stb := rfl
@[simp] theorem dropOp_slk (i : Nat) (s : State) : (dropOp i s).slk = s.slk := rfl
@[simp] theorem dropOp_q (i : Nat) (s : State) : (dropOp i s).q = s.q := rfl
@[simp] theorem dropOp_zn (i : Nat) (s : State) : (dropOp i s).zn = s.zn := rfl
@[simp] theorem dropOp_pl (i : Nat) (s : State) : (dropOp i s).pl = s.pl := rfl
@[simp] theorem dropOp_ecc (i : Nat) (s : State) : (dropOp i s).ecc = s.ecc := rfl
@[simp] theorem dropOp_tm (i : Nat) (s : State) : (dropOp i s).tm = s.tm := rfl
@[simp] theorem dropOp_stl (i : Nat) (s : State) : (dropOp i s).stl = s.stl := rfl
@[simp] theorem dropOp_ci (i : Nat) (s : State) : (dropOp i s).ci = s.ci := rfl
@[simp] theorem dropOp_ga (i : Nat) (s : State) : (dropOp i s).ga = s.ga := rfl
@[simp] theorem dropOp_cad (i : Nat) (s : State) : (dropOp i s).cad = s.cad := rfl
@[simp] theorem dropOp_pw (i : Nat) (s : State) : (dropOp i s).pw = s.pw := rfl
@[simp] theorem dropOp_ts (i : Nat) (s : State) : (dropOp i s).ts = s.ts := rfl
@[simp] theorem dropOp_jn (i : Nat) (s : State) : (dropOp i s).jn = s.jn := rfl
@[simp] theorem dropOp_rg (i : Nat) (s : State) : (dropOp i s).rg = s.rg := rfl
@[simp] theorem dropOp_free (i : Nat) (s : State) : (dropOp i s).free = s.free := rfl
@[simp] theorem dropOp_pending (i : Nat) (s : State) : (dropOp i s).pending = s.pending := rfl

/-! ### queueOp -/

@[simp] theorem queueOp_part (ch lun cls : Nat) (k : OpKind) (b wl : Nat) (o : Bool) (w : Work) (s : State) : (queueOp ch lun cls k b wl o w s).part = s.part := rfl
@[simp] theorem queueOp_m (ch lun cls : Nat) (k : OpKind) (b wl : Nat) (o : Bool) (w : Work) (s : State) : (queueOp ch lun cls k b wl o w s).m = s.m := rfl
@[simp] theorem queueOp_pins (ch lun cls : Nat) (k : OpKind) (b wl : Nat) (o : Bool) (w : Work) (s : State) : (queueOp ch lun cls k b wl o w s).pins = s.pins := rfl
@[simp] theorem queueOp_st (ch lun cls : Nat) (k : OpKind) (b wl : Nat) (o : Bool) (w : Work) (s : State) : (queueOp ch lun cls k b wl o w s).st = s.st := rfl
@[simp] theorem queueOp_img (ch lun cls : Nat) (k : OpKind) (b wl : Nat) (o : Bool) (w : Work) (s : State) : (queueOp ch lun cls k b wl o w s).img = s.img := rfl
@[simp] theorem queueOp_stb (ch lun cls : Nat) (k : OpKind) (b wl : Nat) (o : Bool) (w : Work) (s : State) : (queueOp ch lun cls k b wl o w s).stb = s.stb := rfl
@[simp] theorem queueOp_slk (ch lun cls : Nat) (k : OpKind) (b wl : Nat) (o : Bool) (w : Work) (s : State) : (queueOp ch lun cls k b wl o w s).slk = s.slk := rfl
@[simp] theorem queueOp_q (ch lun cls : Nat) (k : OpKind) (b wl : Nat) (o : Bool) (w : Work) (s : State) : (queueOp ch lun cls k b wl o w s).q = s.q := rfl
@[simp] theorem queueOp_zn (ch lun cls : Nat) (k : OpKind) (b wl : Nat) (o : Bool) (w : Work) (s : State) : (queueOp ch lun cls k b wl o w s).zn = s.zn := rfl
@[simp] theorem queueOp_pl (ch lun cls : Nat) (k : OpKind) (b wl : Nat) (o : Bool) (w : Work) (s : State) : (queueOp ch lun cls k b wl o w s).pl = s.pl := rfl
@[simp] theorem queueOp_ecc (ch lun cls : Nat) (k : OpKind) (b wl : Nat) (o : Bool) (w : Work) (s : State) : (queueOp ch lun cls k b wl o w s).ecc = s.ecc := rfl
@[simp] theorem queueOp_tm (ch lun cls : Nat) (k : OpKind) (b wl : Nat) (o : Bool) (w : Work) (s : State) : (queueOp ch lun cls k b wl o w s).tm = s.tm := rfl
@[simp] theorem queueOp_stl (ch lun cls : Nat) (k : OpKind) (b wl : Nat) (o : Bool) (w : Work) (s : State) : (queueOp ch lun cls k b wl o w s).stl = s.stl := rfl
@[simp] theorem queueOp_ci (ch lun cls : Nat) (k : OpKind) (b wl : Nat) (o : Bool) (w : Work) (s : State) : (queueOp ch lun cls k b wl o w s).ci = s.ci := rfl
@[simp] theorem queueOp_ga (ch lun cls : Nat) (k : OpKind) (b wl : Nat) (o : Bool) (w : Work) (s : State) : (queueOp ch lun cls k b wl o w s).ga = s.ga := rfl
@[simp] theorem queueOp_cad (ch lun cls : Nat) (k : OpKind) (b wl : Nat) (o : Bool) (w : Work) (s : State) : (queueOp ch lun cls k b wl o w s).cad = s.cad := rfl
@[simp] theorem queueOp_pw (ch lun cls : Nat) (k : OpKind) (b wl : Nat) (o : Bool) (w : Work) (s : State) : (queueOp ch lun cls k b wl o w s).pw = s.pw := rfl
@[simp] theorem queueOp_ts (ch lun cls : Nat) (k : OpKind) (b wl : Nat) (o : Bool) (w : Work) (s : State) : (queueOp ch lun cls k b wl o w s).ts = s.ts := rfl
@[simp] theorem queueOp_jn (ch lun cls : Nat) (k : OpKind) (b wl : Nat) (o : Bool) (w : Work) (s : State) : (queueOp ch lun cls k b wl o w s).jn = s.jn := rfl
@[simp] theorem queueOp_rg (ch lun cls : Nat) (k : OpKind) (b wl : Nat) (o : Bool) (w : Work) (s : State) : (queueOp ch lun cls k b wl o w s).rg = s.rg := rfl
@[simp] theorem queueOp_free (ch lun cls : Nat) (k : OpKind) (b wl : Nat) (o : Bool) (w : Work) (s : State) : (queueOp ch lun cls k b wl o w s).free = s.free := rfl
@[simp] theorem queueOp_pending (ch lun cls : Nat) (k : OpKind) (b wl : Nat) (o : Bool) (w : Work) (s : State) : (queueOp ch lun cls k b wl o w s).pending = s.pending := rfl

/-! ### updPen -/

@[simp] theorem updPen_part (i : Nat) (g : Pen → Pen) (s : State) : (updPen i g s).part = s.part := rfl
@[simp] theorem updPen_m (i : Nat) (g : Pen → Pen) (s : State) : (updPen i g s).m = s.m := rfl
@[simp] theorem updPen_pins (i : Nat) (g : Pen → Pen) (s : State) : (updPen i g s).pins = s.pins := rfl
@[simp] theorem updPen_st (i : Nat) (g : Pen → Pen) (s : State) : (updPen i g s).st = s.st := rfl
@[simp] theorem updPen_img (i : Nat) (g : Pen → Pen) (s : State) : (updPen i g s).img = s.img := rfl
@[simp] theorem updPen_stb (i : Nat) (g : Pen → Pen) (s : State) : (updPen i g s).stb = s.stb := rfl
@[simp] theorem updPen_slk (i : Nat) (g : Pen → Pen) (s : State) : (updPen i g s).slk = s.slk := rfl
@[simp] theorem updPen_q (i : Nat) (g : Pen → Pen) (s : State) : (updPen i g s).q = s.q := rfl
@[simp] theorem updPen_zn (i : Nat) (g : Pen → Pen) (s : State) : (updPen i g s).zn = s.zn := rfl
@[simp] theorem updPen_fl (i : Nat) (g : Pen → Pen) (s : State) : (updPen i g s).fl = s.fl := rfl
@[simp] theorem updPen_ecc (i : Nat) (g : Pen → Pen) (s : State) : (updPen i g s).ecc = s.ecc := rfl
@[simp] theorem updPen_tm (i : Nat) (g : Pen → Pen) (s : State) : (updPen i g s).tm = s.tm := rfl
@[simp] theorem updPen_stl (i : Nat) (g : Pen → Pen) (s : State) : (updPen i g s).stl = s.stl := rfl
@[simp] theorem updPen_ci (i : Nat) (g : Pen → Pen) (s : State) : (updPen i g s).ci = s.ci := rfl
@[simp] theorem updPen_ga (i : Nat) (g : Pen → Pen) (s : State) : (updPen i g s).ga = s.ga := rfl
@[simp] theorem updPen_cad (i : Nat) (g : Pen → Pen) (s : State) : (updPen i g s).cad = s.cad := rfl
@[simp] theorem updPen_pw (i : Nat) (g : Pen → Pen) (s : State) : (updPen i g s).pw = s.pw := rfl
@[simp] theorem updPen_ts (i : Nat) (g : Pen → Pen) (s : State) : (updPen i g s).ts = s.ts := rfl
@[simp] theorem updPen_jn (i : Nat) (g : Pen → Pen) (s : State) : (updPen i g s).jn = s.jn := rfl
@[simp] theorem updPen_rg (i : Nat) (g : Pen → Pen) (s : State) : (updPen i g s).rg = s.rg := rfl
@[simp] theorem updPen_free (i : Nat) (g : Pen → Pen) (s : State) : (updPen i g s).free = s.free := rfl
@[simp] theorem updPen_pending (i : Nat) (g : Pen → Pen) (s : State) : (updPen i g s).pending = s.pending := rfl

/-! ### updYard -/

@[simp] theorem updYard_part (y : Nat) (g : YardS → YardS) (s : State) : (updYard y g s).part = s.part := rfl
@[simp] theorem updYard_m (y : Nat) (g : YardS → YardS) (s : State) : (updYard y g s).m = s.m := rfl
@[simp] theorem updYard_pins (y : Nat) (g : YardS → YardS) (s : State) : (updYard y g s).pins = s.pins := rfl
@[simp] theorem updYard_st (y : Nat) (g : YardS → YardS) (s : State) : (updYard y g s).st = s.st := rfl
@[simp] theorem updYard_img (y : Nat) (g : YardS → YardS) (s : State) : (updYard y g s).img = s.img := rfl
@[simp] theorem updYard_stb (y : Nat) (g : YardS → YardS) (s : State) : (updYard y g s).stb = s.stb := rfl
@[simp] theorem updYard_slk (y : Nat) (g : YardS → YardS) (s : State) : (updYard y g s).slk = s.slk := rfl
@[simp] theorem updYard_q (y : Nat) (g : YardS → YardS) (s : State) : (updYard y g s).q = s.q := rfl
@[simp] theorem updYard_zn (y : Nat) (g : YardS → YardS) (s : State) : (updYard y g s).zn = s.zn := rfl
@[simp] theorem updYard_fl (y : Nat) (g : YardS → YardS) (s : State) : (updYard y g s).fl = s.fl := rfl
@[simp] theorem updYard_ecc (y : Nat) (g : YardS → YardS) (s : State) : (updYard y g s).ecc = s.ecc := rfl
@[simp] theorem updYard_tm (y : Nat) (g : YardS → YardS) (s : State) : (updYard y g s).tm = s.tm := rfl
@[simp] theorem updYard_stl (y : Nat) (g : YardS → YardS) (s : State) : (updYard y g s).stl = s.stl := rfl
@[simp] theorem updYard_ci (y : Nat) (g : YardS → YardS) (s : State) : (updYard y g s).ci = s.ci := rfl
@[simp] theorem updYard_ga (y : Nat) (g : YardS → YardS) (s : State) : (updYard y g s).ga = s.ga := rfl
@[simp] theorem updYard_cad (y : Nat) (g : YardS → YardS) (s : State) : (updYard y g s).cad = s.cad := rfl
@[simp] theorem updYard_pw (y : Nat) (g : YardS → YardS) (s : State) : (updYard y g s).pw = s.pw := rfl
@[simp] theorem updYard_ts (y : Nat) (g : YardS → YardS) (s : State) : (updYard y g s).ts = s.ts := rfl
@[simp] theorem updYard_jn (y : Nat) (g : YardS → YardS) (s : State) : (updYard y g s).jn = s.jn := rfl
@[simp] theorem updYard_rg (y : Nat) (g : YardS → YardS) (s : State) : (updYard y g s).rg = s.rg := rfl
@[simp] theorem updYard_free (y : Nat) (g : YardS → YardS) (s : State) : (updYard y g s).free = s.free := rfl
@[simp] theorem updYard_pending (y : Nat) (g : YardS → YardS) (s : State) : (updYard y g s).pending = s.pending := rfl

/-! ### updWr -/

@[simp] theorem updWr_part (i : Nat) (g : Wr → Wr) (s : State) : (updWr i g s).part = s.part := rfl
@[simp] theorem updWr_m (i : Nat) (g : Wr → Wr) (s : State) : (updWr i g s).m = s.m := rfl
@[simp] theorem updWr_pins (i : Nat) (g : Wr → Wr) (s : State) : (updWr i g s).pins = s.pins := rfl
@[simp] theorem updWr_st (i : Nat) (g : Wr → Wr) (s : State) : (updWr i g s).st = s.st := rfl
@[simp] theorem updWr_img (i : Nat) (g : Wr → Wr) (s : State) : (updWr i g s).img = s.img := rfl
@[simp] theorem updWr_stb (i : Nat) (g : Wr → Wr) (s : State) : (updWr i g s).stb = s.stb := rfl
@[simp] theorem updWr_slk (i : Nat) (g : Wr → Wr) (s : State) : (updWr i g s).slk = s.slk := rfl
@[simp] theorem updWr_q (i : Nat) (g : Wr → Wr) (s : State) : (updWr i g s).q = s.q := rfl
@[simp] theorem updWr_pl (i : Nat) (g : Wr → Wr) (s : State) : (updWr i g s).pl = s.pl := rfl
@[simp] theorem updWr_fl (i : Nat) (g : Wr → Wr) (s : State) : (updWr i g s).fl = s.fl := rfl
@[simp] theorem updWr_ecc (i : Nat) (g : Wr → Wr) (s : State) : (updWr i g s).ecc = s.ecc := rfl
@[simp] theorem updWr_tm (i : Nat) (g : Wr → Wr) (s : State) : (updWr i g s).tm = s.tm := rfl
@[simp] theorem updWr_stl (i : Nat) (g : Wr → Wr) (s : State) : (updWr i g s).stl = s.stl := rfl
@[simp] theorem updWr_ci (i : Nat) (g : Wr → Wr) (s : State) : (updWr i g s).ci = s.ci := rfl
@[simp] theorem updWr_ga (i : Nat) (g : Wr → Wr) (s : State) : (updWr i g s).ga = s.ga := rfl
@[simp] theorem updWr_cad (i : Nat) (g : Wr → Wr) (s : State) : (updWr i g s).cad = s.cad := rfl
@[simp] theorem updWr_pw (i : Nat) (g : Wr → Wr) (s : State) : (updWr i g s).pw = s.pw := rfl
@[simp] theorem updWr_ts (i : Nat) (g : Wr → Wr) (s : State) : (updWr i g s).ts = s.ts := rfl
@[simp] theorem updWr_jn (i : Nat) (g : Wr → Wr) (s : State) : (updWr i g s).jn = s.jn := rfl
@[simp] theorem updWr_rg (i : Nat) (g : Wr → Wr) (s : State) : (updWr i g s).rg = s.rg := rfl
@[simp] theorem updWr_free (i : Nat) (g : Wr → Wr) (s : State) : (updWr i g s).free = s.free := rfl
@[simp] theorem updWr_pending (i : Nat) (g : Wr → Wr) (s : State) : (updWr i g s).pending = s.pending := rfl

/-! ### updGdc -/

@[simp] theorem updGdc_part (n : Nat) (g : Gdc → Gdc) (s : State) : (updGdc n g s).part = s.part := rfl
@[simp] theorem updGdc_m (n : Nat) (g : Gdc → Gdc) (s : State) : (updGdc n g s).m = s.m := rfl
@[simp] theorem updGdc_pins (n : Nat) (g : Gdc → Gdc) (s : State) : (updGdc n g s).pins = s.pins := rfl
@[simp] theorem updGdc_st (n : Nat) (g : Gdc → Gdc) (s : State) : (updGdc n g s).st = s.st := rfl
@[simp] theorem updGdc_img (n : Nat) (g : Gdc → Gdc) (s : State) : (updGdc n g s).img = s.img := rfl
@[simp] theorem updGdc_stb (n : Nat) (g : Gdc → Gdc) (s : State) : (updGdc n g s).stb = s.stb := rfl
@[simp] theorem updGdc_slk (n : Nat) (g : Gdc → Gdc) (s : State) : (updGdc n g s).slk = s.slk := rfl
@[simp] theorem updGdc_q (n : Nat) (g : Gdc → Gdc) (s : State) : (updGdc n g s).q = s.q := rfl
@[simp] theorem updGdc_zn (n : Nat) (g : Gdc → Gdc) (s : State) : (updGdc n g s).zn = s.zn := rfl
@[simp] theorem updGdc_pl (n : Nat) (g : Gdc → Gdc) (s : State) : (updGdc n g s).pl = s.pl := rfl
@[simp] theorem updGdc_fl (n : Nat) (g : Gdc → Gdc) (s : State) : (updGdc n g s).fl = s.fl := rfl
@[simp] theorem updGdc_ecc (n : Nat) (g : Gdc → Gdc) (s : State) : (updGdc n g s).ecc = s.ecc := rfl
@[simp] theorem updGdc_tm (n : Nat) (g : Gdc → Gdc) (s : State) : (updGdc n g s).tm = s.tm := rfl
@[simp] theorem updGdc_stl (n : Nat) (g : Gdc → Gdc) (s : State) : (updGdc n g s).stl = s.stl := rfl
@[simp] theorem updGdc_ci (n : Nat) (g : Gdc → Gdc) (s : State) : (updGdc n g s).ci = s.ci := rfl
@[simp] theorem updGdc_cad (n : Nat) (g : Gdc → Gdc) (s : State) : (updGdc n g s).cad = s.cad := rfl
@[simp] theorem updGdc_pw (n : Nat) (g : Gdc → Gdc) (s : State) : (updGdc n g s).pw = s.pw := rfl
@[simp] theorem updGdc_ts (n : Nat) (g : Gdc → Gdc) (s : State) : (updGdc n g s).ts = s.ts := rfl
@[simp] theorem updGdc_jn (n : Nat) (g : Gdc → Gdc) (s : State) : (updGdc n g s).jn = s.jn := rfl
@[simp] theorem updGdc_rg (n : Nat) (g : Gdc → Gdc) (s : State) : (updGdc n g s).rg = s.rg := rfl
@[simp] theorem updGdc_free (n : Nat) (g : Gdc → Gdc) (s : State) : (updGdc n g s).free = s.free := rfl
@[simp] theorem updGdc_pending (n : Nat) (g : Gdc → Gdc) (s : State) : (updGdc n g s).pending = s.pending := rfl

/-! ### updWin -/

@[simp] theorem updWin_part (v : Nat) (g : StbWin → StbWin) (s : State) : (updWin v g s).part = s.part := rfl
@[simp] theorem updWin_m (v : Nat) (g : StbWin → StbWin) (s : State) : (updWin v g s).m = s.m := rfl
@[simp] theorem updWin_pins (v : Nat) (g : StbWin → StbWin) (s : State) : (updWin v g s).pins = s.pins := rfl
@[simp] theorem updWin_st (v : Nat) (g : StbWin → StbWin) (s : State) : (updWin v g s).st = s.st := rfl
@[simp] theorem updWin_img (v : Nat) (g : StbWin → StbWin) (s : State) : (updWin v g s).img = s.img := rfl
@[simp] theorem updWin_slk (v : Nat) (g : StbWin → StbWin) (s : State) : (updWin v g s).slk = s.slk := rfl
@[simp] theorem updWin_q (v : Nat) (g : StbWin → StbWin) (s : State) : (updWin v g s).q = s.q := rfl
@[simp] theorem updWin_zn (v : Nat) (g : StbWin → StbWin) (s : State) : (updWin v g s).zn = s.zn := rfl
@[simp] theorem updWin_pl (v : Nat) (g : StbWin → StbWin) (s : State) : (updWin v g s).pl = s.pl := rfl
@[simp] theorem updWin_fl (v : Nat) (g : StbWin → StbWin) (s : State) : (updWin v g s).fl = s.fl := rfl
@[simp] theorem updWin_ecc (v : Nat) (g : StbWin → StbWin) (s : State) : (updWin v g s).ecc = s.ecc := rfl
@[simp] theorem updWin_tm (v : Nat) (g : StbWin → StbWin) (s : State) : (updWin v g s).tm = s.tm := rfl
@[simp] theorem updWin_stl (v : Nat) (g : StbWin → StbWin) (s : State) : (updWin v g s).stl = s.stl := rfl
@[simp] theorem updWin_ci (v : Nat) (g : StbWin → StbWin) (s : State) : (updWin v g s).ci = s.ci := rfl
@[simp] theorem updWin_ga (v : Nat) (g : StbWin → StbWin) (s : State) : (updWin v g s).ga = s.ga := rfl
@[simp] theorem updWin_cad (v : Nat) (g : StbWin → StbWin) (s : State) : (updWin v g s).cad = s.cad := rfl
@[simp] theorem updWin_pw (v : Nat) (g : StbWin → StbWin) (s : State) : (updWin v g s).pw = s.pw := rfl
@[simp] theorem updWin_ts (v : Nat) (g : StbWin → StbWin) (s : State) : (updWin v g s).ts = s.ts := rfl
@[simp] theorem updWin_jn (v : Nat) (g : StbWin → StbWin) (s : State) : (updWin v g s).jn = s.jn := rfl
@[simp] theorem updWin_rg (v : Nat) (g : StbWin → StbWin) (s : State) : (updWin v g s).rg = s.rg := rfl
@[simp] theorem updWin_free (v : Nat) (g : StbWin → StbWin) (s : State) : (updWin v g s).free = s.free := rfl
@[simp] theorem updWin_pending (v : Nat) (g : StbWin → StbWin) (s : State) : (updWin v g s).pending = s.pending := rfl

/-! ### updPart -/

@[simp] theorem updPart_part (a : Nat) (g : Part13 → Part13) (s : State) : (updPart a g s).part = s.part := rfl
@[simp] theorem updPart_m (a : Nat) (g : Part13 → Part13) (s : State) : (updPart a g s).m = s.m := rfl
@[simp] theorem updPart_pins (a : Nat) (g : Part13 → Part13) (s : State) : (updPart a g s).pins = s.pins := rfl
@[simp] theorem updPart_st (a : Nat) (g : Part13 → Part13) (s : State) : (updPart a g s).st = s.st := rfl
@[simp] theorem updPart_img (a : Nat) (g : Part13 → Part13) (s : State) : (updPart a g s).img = s.img := rfl
@[simp] theorem updPart_stb (a : Nat) (g : Part13 → Part13) (s : State) : (updPart a g s).stb = s.stb := rfl
@[simp] theorem updPart_slk (a : Nat) (g : Part13 → Part13) (s : State) : (updPart a g s).slk = s.slk := rfl
@[simp] theorem updPart_q (a : Nat) (g : Part13 → Part13) (s : State) : (updPart a g s).q = s.q := rfl
@[simp] theorem updPart_zn (a : Nat) (g : Part13 → Part13) (s : State) : (updPart a g s).zn = s.zn := rfl
@[simp] theorem updPart_pl (a : Nat) (g : Part13 → Part13) (s : State) : (updPart a g s).pl = s.pl := rfl
@[simp] theorem updPart_fl (a : Nat) (g : Part13 → Part13) (s : State) : (updPart a g s).fl = s.fl := rfl
@[simp] theorem updPart_ecc (a : Nat) (g : Part13 → Part13) (s : State) : (updPart a g s).ecc = s.ecc := rfl
@[simp] theorem updPart_tm (a : Nat) (g : Part13 → Part13) (s : State) : (updPart a g s).tm = s.tm := rfl
@[simp] theorem updPart_stl (a : Nat) (g : Part13 → Part13) (s : State) : (updPart a g s).stl = s.stl := rfl
@[simp] theorem updPart_ci (a : Nat) (g : Part13 → Part13) (s : State) : (updPart a g s).ci = s.ci := rfl
@[simp] theorem updPart_ga (a : Nat) (g : Part13 → Part13) (s : State) : (updPart a g s).ga = s.ga := rfl
@[simp] theorem updPart_pw (a : Nat) (g : Part13 → Part13) (s : State) : (updPart a g s).pw = s.pw := rfl
@[simp] theorem updPart_ts (a : Nat) (g : Part13 → Part13) (s : State) : (updPart a g s).ts = s.ts := rfl
@[simp] theorem updPart_jn (a : Nat) (g : Part13 → Part13) (s : State) : (updPart a g s).jn = s.jn := rfl
@[simp] theorem updPart_rg (a : Nat) (g : Part13 → Part13) (s : State) : (updPart a g s).rg = s.rg := rfl
@[simp] theorem updPart_free (a : Nat) (g : Part13 → Part13) (s : State) : (updPart a g s).free = s.free := rfl
@[simp] theorem updPart_pending (a : Nat) (g : Part13 → Part13) (s : State) : (updPart a g s).pending = s.pending := rfl

/-! ### readOut -/

@[simp] theorem readOut_part (v : Nat) (s : State) : (readOut v s).part = s.part := rfl
@[simp] theorem readOut_m (v : Nat) (s : State) : (readOut v s).m = s.m := rfl
@[simp] theorem readOut_pins (v : Nat) (s : State) : (readOut v s).pins = s.pins := rfl
@[simp] theorem readOut_st (v : Nat) (s : State) : (readOut v s).st = s.st := rfl
@[simp] theorem readOut_img (v : Nat) (s : State) : (readOut v s).img = s.img := rfl
@[simp] theorem readOut_stb (v : Nat) (s : State) : (readOut v s).stb = s.stb := rfl
@[simp] theorem readOut_slk (v : Nat) (s : State) : (readOut v s).slk = s.slk := rfl
@[simp] theorem readOut_q (v : Nat) (s : State) : (readOut v s).q = s.q := rfl
@[simp] theorem readOut_zn (v : Nat) (s : State) : (readOut v s).zn = s.zn := rfl
@[simp] theorem readOut_pl (v : Nat) (s : State) : (readOut v s).pl = s.pl := rfl
@[simp] theorem readOut_fl (v : Nat) (s : State) : (readOut v s).fl = s.fl := rfl
@[simp] theorem readOut_ecc (v : Nat) (s : State) : (readOut v s).ecc = s.ecc := rfl
@[simp] theorem readOut_tm (v : Nat) (s : State) : (readOut v s).tm = s.tm := rfl
@[simp] theorem readOut_stl (v : Nat) (s : State) : (readOut v s).stl = s.stl := rfl
@[simp] theorem readOut_ci (v : Nat) (s : State) : (readOut v s).ci = s.ci := rfl
@[simp] theorem readOut_ga (v : Nat) (s : State) : (readOut v s).ga = s.ga := rfl
@[simp] theorem readOut_cad (v : Nat) (s : State) : (readOut v s).cad = s.cad := rfl
@[simp] theorem readOut_pw (v : Nat) (s : State) : (readOut v s).pw = s.pw := rfl
@[simp] theorem readOut_ts (v : Nat) (s : State) : (readOut v s).ts = s.ts := rfl
@[simp] theorem readOut_jn (v : Nat) (s : State) : (readOut v s).jn = s.jn := rfl
@[simp] theorem readOut_free (v : Nat) (s : State) : (readOut v s).free = s.free := rfl
@[simp] theorem readOut_pending (v : Nat) (s : State) : (readOut v s).pending = s.pending := rfl

/-! ### selIr -/

@[simp] theorem selIr_part (c d t : Nat) (s : State) : (selIr c d t s).part = s.part := rfl
@[simp] theorem selIr_m (c d t : Nat) (s : State) : (selIr c d t s).m = s.m := rfl
@[simp] theorem selIr_pins (c d t : Nat) (s : State) : (selIr c d t s).pins = s.pins := rfl
@[simp] theorem selIr_st (c d t : Nat) (s : State) : (selIr c d t s).st = s.st := rfl
@[simp] theorem selIr_img (c d t : Nat) (s : State) : (selIr c d t s).img = s.img := rfl
@[simp] theorem selIr_stb (c d t : Nat) (s : State) : (selIr c d t s).stb = s.stb := rfl
@[simp] theorem selIr_slk (c d t : Nat) (s : State) : (selIr c d t s).slk = s.slk := rfl
@[simp] theorem selIr_q (c d t : Nat) (s : State) : (selIr c d t s).q = s.q := rfl
@[simp] theorem selIr_zn (c d t : Nat) (s : State) : (selIr c d t s).zn = s.zn := rfl
@[simp] theorem selIr_pl (c d t : Nat) (s : State) : (selIr c d t s).pl = s.pl := rfl
@[simp] theorem selIr_fl (c d t : Nat) (s : State) : (selIr c d t s).fl = s.fl := rfl
@[simp] theorem selIr_ecc (c d t : Nat) (s : State) : (selIr c d t s).ecc = s.ecc := rfl
@[simp] theorem selIr_tm (c d t : Nat) (s : State) : (selIr c d t s).tm = s.tm := rfl
@[simp] theorem selIr_stl (c d t : Nat) (s : State) : (selIr c d t s).stl = s.stl := rfl
@[simp] theorem selIr_ci (c d t : Nat) (s : State) : (selIr c d t s).ci = s.ci := rfl
@[simp] theorem selIr_ga (c d t : Nat) (s : State) : (selIr c d t s).ga = s.ga := rfl
@[simp] theorem selIr_cad (c d t : Nat) (s : State) : (selIr c d t s).cad = s.cad := rfl
@[simp] theorem selIr_pw (c d t : Nat) (s : State) : (selIr c d t s).pw = s.pw := rfl
@[simp] theorem selIr_jn (c d t : Nat) (s : State) : (selIr c d t s).jn = s.jn := rfl
@[simp] theorem selIr_rg (c d t : Nat) (s : State) : (selIr c d t s).rg = s.rg := rfl
@[simp] theorem selIr_free (c d t : Nat) (s : State) : (selIr c d t s).free = s.free := rfl
@[simp] theorem selIr_pending (c d t : Nat) (s : State) : (selIr c d t s).pending = s.pending := rfl

end Sys2Proof.Machine
end

