-- ==== Sys2Proof/Laws/Ops.lean ====
section
/-! SUPPORT. What the shared operations do, said once: tables, named updates, fetching, gates, completions, how a meaning ends. -/

namespace Sys2Proof
open Sys2Proof

/-! ## Tables -/

@[simp] theorem Tbl.get?_put_same {α : Type} (t : Tbl α) (x : Nat) (a : α) : Tbl.get? (Tbl.put t x a) x = some a := by
  induction t with
  | nil => simp [Tbl.put, Tbl.get?]
  | cons p t ih =>
    obtain ⟨k, v⟩ := p
    simp only [Tbl.put]
    split
    · simp [Tbl.get?]
    · split
      · simp [Tbl.get?]
      · rename_i h1 h2; simp [Tbl.get?, show k ≠ x from fun h => h2 h.symm, ih]

theorem Tbl.get?_put_other {α : Type} (t : Tbl α) (x y : Nat) (a : α) (h : y ≠ x) : Tbl.get? (Tbl.put t x a) y = Tbl.get? t y := by
  induction t with
  | nil => simp [Tbl.put, Tbl.get?, h.symm]
  | cons p t ih =>
    obtain ⟨k, v⟩ := p
    simp only [Tbl.put]
    split
    · simp [Tbl.get?, h.symm]
    · split
      · rename_i h1 h2; subst h2; simp [Tbl.get?, h.symm]
      · simp only [Tbl.get?, ih]

@[simp] theorem Tbl.getD_put_same {α : Type} (t : Tbl α) (x : Nat) (a d : α) : Tbl.getD (Tbl.put t x a) x d = a := by simp [Tbl.getD]
theorem Tbl.getD_put_other {α : Type} (t : Tbl α) (x y : Nat) (a d : α) (h : y ≠ x) : Tbl.getD (Tbl.put t x a) y d = Tbl.getD t y d := by
  simp [Tbl.getD, Tbl.get?_put_other _ _ _ _ h]

@[simp] theorem Tbl.get?_del_same {α : Type} (t : Tbl α) (x : Nat) : Tbl.get? (Tbl.del t x) x = none := by
  induction t with
  | nil => rfl
  | cons p t ih =>
    obtain ⟨k, v⟩ := p
    by_cases h : k = x
    · subst h; simpa [Tbl.del] using ih
    · simp only [Tbl.del] at ih ⊢; simp [h, Tbl.get?, ih]

theorem Tbl.get?_del_other {α : Type} (t : Tbl α) (x y : Nat) (h : y ≠ x) : Tbl.get? (Tbl.del t x) y = Tbl.get? t y := by
  induction t with
  | nil => rfl
  | cons p t ih =>
    obtain ⟨k, v⟩ := p
    by_cases e : k = x
    · subst e; simp only [Tbl.del] at ih ⊢; simp [Tbl.get?, h.symm, ih]
    · simp only [Tbl.del] at ih ⊢; simp [e, Tbl.get?, ih]

@[simp] theorem Tbl.get?_upd_same {α : Type} (t : Tbl α) (x : Nat) (f : α → α) : Tbl.get? (Tbl.upd t x f) x = (Tbl.get? t x).map f := by
  induction t with
  | nil => rfl
  | cons p t ih =>
    obtain ⟨k, v⟩ := p
    by_cases h : k = x
    · simp [Tbl.upd, Tbl.get?, h]
    · simp only [Tbl.upd] at ih; simp [Tbl.upd, Tbl.get?, h, ih]

theorem Tbl.get?_upd_other {α : Type} (t : Tbl α) (x y : Nat) (f : α → α) (h : y ≠ x) : Tbl.get? (Tbl.upd t x f) y = Tbl.get? t y := by
  induction t with
  | nil => rfl
  | cons p t ih =>
    obtain ⟨k, v⟩ := p
    by_cases e : k = x
    · subst e; simp only [Tbl.upd] at ih; simp [Tbl.upd, Tbl.get?, h.symm, ih]
    · simp only [Tbl.upd] at ih; simp [Tbl.upd, Tbl.get?, e, ih]

@[simp] theorem Tbl.get?_mapV {α : Type} (t : Tbl α) (f : Nat → α → α) (x : Nat) : Tbl.get? (Tbl.mapV t f) x = (Tbl.get? t x).map (f x) := by
  induction t with
  | nil => rfl
  | cons p t ih =>
    obtain ⟨k, v⟩ := p
    by_cases e : k = x
    · subst e; simp [Tbl.mapV, Tbl.get?]
    · simp only [Tbl.mapV] at ih; simp [Tbl.mapV, Tbl.get?, e, ih]

/-- Every entry of a table after a put is the new one or was there. -/
theorem Tbl.mem_put {α : Type} {t : Tbl α} {x : Nat} {a : α} {p : Nat × α} (h : p ∈ Tbl.put t x a) : p = (x, a) ∨ p ∈ t := by
  induction t with
  | nil => left; simpa [Tbl.put] using h
  | cons q t ih =>
    obtain ⟨k, v⟩ := q
    simp only [Tbl.put] at h
    split at h
    · simpa using h
    · split at h
      · rcases List.mem_cons.1 h with h | h
        · exact .inl h
        · exact .inr (List.mem_cons_of_mem _ h)
      · rcases List.mem_cons.1 h with h | h
        · exact .inr (by simp [h])
        · exact (ih h).imp id (List.mem_cons_of_mem _)

end Sys2Proof

namespace Sys2Proof.Machine
open Sys2Proof

/-! ## Named updates -/

@[simp] theorem fnOf_updFn (f : Nat) (g : Fn → Fn) (s : State) : fnOf f (updFn f g s) = g (fnOf f s) := by simp [fnOf, updFn]
theorem fnOf_updFn_other (f h : Nat) (g : Fn → Fn) (s : State) (e : h ≠ f) : fnOf h (updFn f g s) = fnOf h s := by
  simp [fnOf, updFn, Tbl.getD_put_other _ _ _ _ _ e]
@[simp] theorem slkOf_updSlk (f : Nat) (g : SlkFn → SlkFn) (s : State) : slkOf f (updSlk f g s) = g (slkOf f s) := by simp [slkOf, updSlk]
@[simp] theorem chnOf_updChn (c : Nat) (g : Chn → Chn) (s : State) : chnOf c (updChn c g s) = g (chnOf c s) := by simp [chnOf, updChn]
@[simp] theorem cvuAt_updCvu (u : Nat) (g : Cvu → Cvu) (s : State) : cvuAt u (updCvu u g s) = g (cvuAt u s) := by simp [cvuAt, updCvu]
@[simp] theorem yardOf_updYard (y : Nat) (g : YardS → YardS) (s : State) : yardOf y (updYard y g s) = g (yardOf y s) := by simp [yardOf, updYard]
@[simp] theorem gdcAt_updGdc (n : Nat) (g : Gdc → Gdc) (s : State) : gdcAt n (updGdc n g s) = g (gdcAt n s) := by simp [gdcAt, updGdc]
theorem gdcAt_updGdc_other (n m : Nat) (g : Gdc → Gdc) (s : State) (h : m ≠ n) : gdcAt m (updGdc n g s) = gdcAt m s := by
  simp [gdcAt, updGdc, Tbl.getD_put_other _ _ _ _ _ h]
@[simp] theorem partOf_updPart (a : Nat) (g : Part13 → Part13) (s : State) : partOf a (updPart a g s) = g (partOf a s) := by simp [partOf, updPart]
@[simp] theorem zoneAt_updZone (z : Nat) (g : Zone → Zone) (s : State) : zoneAt? z (updZone z g s) = (zoneAt? z s).map g := by
  simp [zoneAt?, updZone]
theorem zoneAt_updZone_other (z y : Nat) (g : Zone → Zone) (s : State) (h : y ≠ z) : zoneAt? y (updZone z g s) = zoneAt? y s := by
  simp [zoneAt?, updZone, Tbl.get?_upd_other _ _ _ _ h]
@[simp] theorem bkOf_updBk (d b : Nat) (g : Bk → Bk) (s : State) : bkOf d b (updBk d b g s) = g (bkOf d b s) := by
  have key : ∀ x : Bk, bkOf d b { s with fl := { s.fl with blks := (if x = Bk.dflt then Tbl.del s.fl.blks (blkKey d b) else Tbl.put s.fl.blks (blkKey d b) x) } } = x := by
    intro x
    by_cases h : x = Bk.dflt
    · subst h; simp [bkOf, Tbl.getD]
    · simp [bkOf, h]
  exact key _

/-! ## Events of the step -/

@[simp] theorem raise_raised (code sev : Nat) (args : List (List Nat)) (s : State) :
    ∃ e, (raise code sev args s).stb.raised = s.stb.raised ++ [e] ∧ e.code = code := ⟨_, rfl, rfl⟩
/-- A raised event is among those of the step. -/
theorem raises_raise (code sev : Nat) (args : List (List Nat)) (s : State) : raises code (raise code sev args s) := by
  simp [raises, raise]
/-- An event stays raised through whatever only adds to the step's events. -/
theorem raises_mono {code : Nat} {s t : State} (h : s.stb.raised <+: t.stb.raised) (hr : raises code s) : raises code t := by
  obtain ⟨e, he, hc⟩ := hr
  exact ⟨e, h.subset he, hc⟩
theorem raises_of_eq {code : Nat} {s t : State} (h : t.stb.raised = s.stb.raised) (hr : raises code s) : raises code t :=
  raises_mono (h ▸ List.prefix_refl _) hr

/-! ## Fetching and gates -/

/-- A fetched context carries the command itself. -/
theorem taken_cmd {c : Cmd} {s s1 : State} {k : Ctx} (h : taken c s = some (k, s1)) : k.cmd = c := by
  unfold taken at h
  split at h
  · rename_i k' hk
    cases h
    have := List.find?_some hk
    simp at this
    exact this.1
  · split at h
    · cases h; rfl
    · cases h

/-- The context a command runs on is waiting to run. -/
theorem taken_wait {c : Cmd} {s s1 : State} {k : Ctx} (h : taken c s = some (k, s1)) : k.wait = .fetched := by
  unfold taken at h
  split at h
  · rename_i k' hk
    cases h
    have := List.find?_some hk
    simp at this
    exact this.2
  · split at h
    · cases h; rfl
    · cases h

/-- The context a command runs on is among the device's. -/
theorem taken_mem {c : Cmd} {s s1 : State} {k : Ctx} (h : taken c s = some (k, s1)) : k ∈ s1.q.ctxs := by
  unfold taken at h
  split at h
  · rename_i k' hk
    cases h
    exact List.mem_of_find?_eq_some hk
  · split at h
    · cases h
      exact List.mem_append_right _ (List.mem_singleton.2 rfl)
    · cases h

/-- A command of a submission queue runs its meaning on its context. -/
theorem withCmd_taken {c : Cmd} {s s1 : State} {k : Ctx} (h : taken c s = some (k, s1)) (f : Ctx → State → State) : withCmd c s f = f k s1 := by
  unfold taken at h
  unfold withCmd
  split at h
  · rename_i k' hk
    cases h
    simp [hk]
  · rename_i hk
    split at h
    · rename_i hc
      simp only [Bool.and_eq_true] at hc
      simp only [hk, hc.1.1, hc.1.2, hc.2, Bool.and_self, if_true, Option.some.inj h]
    · cases h

/-- A command a function may not send. -/
theorem gateForm_denied (k : Ctx) (s : State) (f : Ctx → State → State) : gateForm false k s f = fin k 0 0x01 s := rfl
/-- A command of a plain form that its function may send goes on. -/
theorem gateForm_plain {k : Ctx} (h : plainForm k) (s : State) (f : Ctx → State → State) : gateForm true k s f = f k s := by
  simp [gateForm, h.1, h.2]
/-- An admin command that a sanitize does not stop. -/
theorem gateAdmin_san {k : Ctx} (h : plainForm k) (s : State) (f : Ctx → State → State) :
    gateAdmin true true k s f = f { k with dispatched := true } s := by
  simp [gateAdmin, gateForm_plain h]
/-- Any other admin command, with no sanitize in the way. -/
theorem gateAdmin_plain {k : Ctx} {s : State} (h : plainForm k) (hs : notSanitizing s) (f : Ctx → State → State) :
    gateAdmin true false k s f = f { k with dispatched := true } s := by
  simp [gateAdmin, gateForm_plain h, hs.1, hs.2]
theorem gateAdmin_denied (san : Bool) (k : Ctx) (s : State) (f : Ctx → State → State) : gateAdmin false san k s f = fin k 0 0x01 s := rfl
/-- An I/O command, with no sanitize in the way. -/
theorem gateIo_plain {k : Ctx} {s : State} (h : plainForm k) (hs : notSanitizing s) (f : Ctx → State → State) : gateIo k s f = f k s := by
  simp [gateIo, gateForm_plain h, hs.1, hs.2]

/-! ## How a meaning ends -/

theorem done_after (u : State) : done u = .next (after u) := rfl
theorem doneIo_after (u : State) : doneIo u = .next (afterIo u) := rfl

/-- Two states that differ in the queues, the cipher and the Studbook only. -/
def sameBut (s t : State) : Prop := t = { s with q := t.q, ci := t.ci, stb := t.stb }

theorem sameBut.refl (s : State) : sameBut s s := rfl
theorem sameBut.trans {a b c : State} (h1 : sameBut a b) (h2 : sameBut b c) : sameBut a c := by
  unfold sameBut at *; rw [h1] at h2; exact h2
theorem sameBut_foldl {α : Type} (f : State → α → State) (h : ∀ s x, sameBut s (f s x)) : ∀ (l : List α) (s : State), sameBut s (l.foldl f s)
  | [], s => .refl s
  | x :: xs, s => (h s x).trans (sameBut_foldl f h xs (f s x))

theorem sameBut_ite {s x y : State} {c : Prop} [Decidable c] (h1 : sameBut s x) (h2 : sameBut s y) : sameBut s (if c then x else y) := by
  split
  · exact h1
  · exact h2

theorem cvuFold_sameBut (k : Ctx) (g : Bool) (s : State) : sameBut s (cvuFold k g s) :=
  sameBut_foldl _ (fun s e => by dsimp only [updCvu]; rfl) _ _
theorem cqPush_sameBut (f : Nat) (e : Cqe) (s : State) : sameBut s (cqPush f e s).1 := by
  unfold cqPush
  dsimp only
  split
  · rfl
  · split
    · rfl
    · split <;> rfl
/-- A completion changes the queues, the check-value units and nothing else. -/
theorem postFull_sameBut (k : Ctx) (sct sc dw0 cs1 : Nat) (data : List Byte) (s : State) : sameBut s (postFull k sct sc dw0 cs1 data s) := by
  unfold postFull
  split
  · rfl
  · split
    · rfl
    · dsimp only
      have h1 : sameBut s (if sct = 7 then logError k sct sc s else s) := by split <;> rfl
      have h2 := h1.trans (cvuFold_sameBut k (sct == 0 && sc == 0) _)
      have h3 := h2.trans (cqPush_sameBut k.cmd.fn (cqeOf k sct sc dw0 cs1 data (cvuFold k (sct == 0 && sc == 0) (if sct = 7 then logError k sct sc s else s))) _)
      exact sameBut_ite (h3.trans rfl) (h3.trans rfl)
theorem endDeletes_sameBut (s : State) : sameBut s (endDeletes s) :=
  sameBut_foldl _ (fun s k => by
    split
    · split
      · rfl
      · exact sameBut.trans (b := updFn k.cmd.fn _ s) rfl (postFull_sameBut _ _ _ _ _ _ _)
    · rfl) _ _
/-- The end of a meaning lets deletions end and queues its events; nothing else of the state changes. -/
theorem after_sameBut (u : State) : sameBut u (after u) := (endDeletes_sameBut u).trans rfl

end Sys2Proof.Machine
end

