-- ==== Sys2Proof/WellFormed.lean ====
section
/-! DEFINITION. Which commands can occur at all: a command's fields within their widths, the opcode and sub-operation its row names,
functions, channels, LUNs and addresses the part can have. `step` does not ask for it: an ill-formed command has the effect its
fields give it, or none. -/

namespace Sys2Proof

/-- A submission queue entry's fields are within their widths (Table 8.1, R313). -/
def Cmd.wf (c : Cmd) : Bool :=
  decide (c.fn ≤ 1024) && decide (c.sqid < 65536) && decide (c.cid < 65536) && decide (c.nsid < 2 ^ 32) &&
    decide (c.opc < 256) && decide (c.fuse < 4) && decide (c.dptr < 2 ^ 64)

/-- A well-formed admin command of an opcode. -/
def admin (c : Cmd) (opc : Nat) : Bool := c.wf && decide (c.sqid = 0) && decide (c.opc = opc)

/-- A well-formed I/O command of an opcode. -/
def io (c : Cmd) (opc : Nat) : Bool := c.wf && decide (c.sqid ≠ 0) && decide (c.opc = opc)

/-- The lowest `w` bits of a command dword hold a value. -/
def low (d : Dword) (w v : Nat) : Bool := decide (d.toNat % 2 ^ w = v)

/-- Firmware Commit's Commit Action (CDW10 bits 5:3). -/
def ca (c : Cmd) (v : Nat) : Bool := decide (bits c.cdw10.toNat 5 3 = v)

/-- Admin opcodes the device supports (Tables 8.3, 8.4). -/
def adminOpcodes : List Nat :=
  [0x00, 0x01, 0x02, 0x04, 0x05, 0x06, 0x08, 0x09, 0x0A, 0x0C, 0x0D, 0x10, 0x11, 0x15, 0x1C, 0x80, 0x84] ++
    [0xC1, 0xC2, 0xC4, 0xC5, 0xC6, 0xC8, 0xCA, 0xCC]

/-- I/O opcodes the device supports. -/
def ioOpcodes : List Nat := [0x00, 0x01, 0x02, 0x08, 0x09, 0x79, 0x7A, 0x7D, 0x81, 0x85, 0x8A, 0x8D, 0x8E]

/-- Feature Identifiers a Set Features row serves. -/
def setFids : List Nat := [0x01, 0x02, 0x04, 0x06, 0x07, 0x08, 0x09, 0x0A, 0x0B, 0x0C, 0x11, 0x16, 0xC0, 0xC5]

/-- Another row serves the command. -/
def known (c : Cmd) : Bool :=
  if c.sqid = 0 then adminOpcodes.contains c.opc && (c.opc != 0x09 || setFids.contains (c.cdw10.toNat % 256))
  else ioOpcodes.contains c.opc

/-- A command that can occur. -/
def Instr.wf (i : Instr) : Bool :=
  match i with
  | .powerOn => true
  | .sysRstNLow _ => true
  | .deviceLevelPerst => true
  | .deviceResetDrainEnd => true
  | .portPerst port => decide (port < 2)
  | .dlDown port => decide (port < 2)
  | .strapSample _ _ _ => true
  | .imageLoadEnd _ _ _ _ => true
  | .flashDiscoveryEnd _ _ _ => true
  | .flushRehearsalEnd _ _ => true
  | .tableLoadEnd _ _ => true
  | .proofLoadEnd => true
  | .recoveryEnd .. => true
  | .startModeOverrun => true
  | .ostlerWatchdogExpiry core => decide (core < 16)
  | .spineLinkFault shed => decide (shed < 4)
  | .refclk38m4Lost => true
  | .vddRetLost => true
  | .pwrfailNFall => true
  | .cadPfAccepted _ => true
  | .emergencyFlushComplete _ _ => true
  | .flushRestartDelayExpiry => true
  | .thermalTrip die _ => decide (die < 5)
  | .thermalTripDrainEnd _ => true
  | .huOkRise => true
  | .huOkFall => true
  | .chgTimeoutExpiry => true
  | .proofNow fn => decide (fn ≤ 1024)
  | .proofAgeExpiry => true
  | .proofWindowOpen => true
  | .proofPulseStart _ => true
  | .proofWindowTimeout => true
  | .proofPulseEnd _ _ => true
  | .proofLoadEvaluation => true
  | .slackDecision _ _ => true
  | .slackReport c => admin c 0xC1
  | .namespaceCreate c _ => admin c 0x0D && low c.cdw10 4 0
  | .namespaceDelete c => admin c 0x0D && low c.cdw10 4 1
  | .namespaceAttachment c _ => admin c 0x15
  | .write c _ => io c 0x01
  | .writeZeroes c => io c 0x08
  | .zoneAppend c _ => io c 0x7D
  | .read c => io c 0x02
  | .datasetManagement c _ => io c 0x09
  | .flush c => io c 0x00
  | .zoneOpen c => io c 0x79 && low c.cdw13 8 3
  | .zoneClose c => io c 0x79 && low c.cdw13 8 1
  | .zoneFinish c => io c 0x79 && low c.cdw13 8 2
  | .zoneReset c => io c 0x79 && low c.cdw13 8 4 && !bit c.cdw14.toNat 0
  | .scrubbingReset c => io c 0x79 && low c.cdw13 8 4 && bit c.cdw14.toNat 0
  | .zoneOfflineAction c => io c 0x79 && low c.cdw13 8 5
  | .setZoneDescriptorExtension c => io c 0x79 && low c.cdw13 8 16
  | .reportZones c => io c 0x7A && low c.cdw13 8 0
  | .extendedReportZones c => io c 0x7A && low c.cdw13 8 1
  | .placementOpen c => io c 0x85
  | .zoneFinishedByController _ => true
  | .scrubComplete _ => true
  | .scrubScheduleBreakExpiry _ => true
  | .sanitizeBlockErase c => admin c 0x84 && low c.cdw10 3 2
  | .sanitizeCryptoErase c => admin c 0x84 && low c.cdw10 3 4
  | .sanitizeExitFailureMode c => admin c 0x84 && low c.cdw10 3 1
  | .sanitizeOverwrite c => admin c 0x84 && low c.cdw10 3 3
  | .sanitizeEnd _ => true
  | .formatNvm c => admin c 0x80
  | .conventionalGarbageCollection => true
  | .setFeaturesYardLayout c _ => admin c 0x09 && low c.cdw10 8 0xC5
  | .fold _ => true
  | .paddockCompaction yard => decide (yard < 64)
  | .relocation _ => true
  | .wearLevelling yard => decide (yard < 64)
  | .landingSpaceReturns yard => decide (yard < 64)
  | .yardStatusLog c => admin c 0x02 && low c.cdw10 8 0xD5
  | .arrayOperationStart ch _ => decide (ch < 64)
  | .programEnd ch lun _ => decide (ch < 64) && decide (lun < 64)
  | .eraseEnd ch lun _ => decide (ch < 64) && decide (lun < 64)
  | .readEnd ch lun ladder _ => decide (ch < 64) && decide (lun < 64) && decide (ladder < 7)
  | .preProgramCheckEnd ch lun _ => decide (ch < 64) && decide (lun < 64)
  | .suspendArbiterDecision _ => true
  | .suspendRunMinReached ch lun => decide (ch < 64) && decide (lun < 64)
  | .dieSuspended ch lun => decide (ch < 64) && decide (lun < 64)
  | .suspendHoldExpiry ch lun => decide (ch < 64) && decide (lun < 64)
  | .continuousReadWaitExpiry ch lun => decide (ch < 64) && decide (lun < 64)
  | .eyePass ch _ => decide (ch < 64)
  | .retrainEnd ch _ _ _ => decide (ch < 64)
  | .lunTimeout ch lun => decide (ch < 64) && decide (lun < 64)
  | .tackFirmwareRefresh shed _ => decide (shed < 4)
  | .fchDiagGo fn ch _ => decide (fn ≤ 1024) && decide (ch < 64)
  | .fchDiagDone ch _ _ ladder => decide (ch < 64) && decide (ladder < 7)
  | .lowWearListRefillEnd ch lun => decide (ch < 64) && decide (lun < 64)
  | .reconstructionEnd _ ladder => decide (ladder < 7)
  | .sramCorrectableError die _ _ _ => decide (die < 5)
  | .sramUncorrectableError die _ _ _ _ _ => decide (die < 5)
  | .tableLineRebuildEnd die _ _ _ => decide (die < 5)
  | .eccFlipArm fn _ => decide (fn ≤ 1024)
  | .eccFlipDisarm fn _ => decide (fn ≤ 1024)
  | .currycombPass c => admin c 0xCC
  | .currycombAutoPassStart => true
  | .currycombPassEnd _ => true
  | .entropyHealthFail => true
  | .sqTailDoorbell fn qid _ => decide (fn ≤ 1024) && decide (qid < 65536)
  | .cqHeadDoorbell fn qid _ => decide (fn ≤ 1024) && decide (qid < 65536)
  | .fetchSlot c => c.wf
  | .controllerEnable fn _ => decide (fn ≤ 1024)
  | .controllerReset fn => decide (fn ≤ 1024)
  | .functionLevelResetPf fn => decide (fn ≤ 1024)
  | .shutdown fn shn => decide (fn ≤ 1024) && decide (shn < 4)
  | .shutdownComplete fn => decide (fn ≤ 1024)
  | .createIoSq c => admin c 0x01
  | .createIoCq c => admin c 0x05
  | .deleteIoSq c => admin c 0x00
  | .deleteIoCq c => admin c 0x04
  | .getLogPage c => admin c 0x02 && !([0xD3, 0xD5, 0xD7].contains (bits c.cdw10.toNat 7 0))
  | .identify c => admin c 0x06
  | .getFeatures c => admin c 0x0A
  | .setFeaturesArbitration c => admin c 0x09 && low c.cdw10 8 0x01
  | .setFeaturesVolatileWriteCache c => admin c 0x09 && low c.cdw10 8 0x06
  | .setFeaturesNumberOfQueues c => admin c 0x09 && low c.cdw10 8 0x07
  | .setFeaturesInterruptCoalescing c => admin c 0x09 && low c.cdw10 8 0x08
  | .setFeaturesInterruptVectorConfig c => admin c 0x09 && low c.cdw10 8 0x09
  | .setFeaturesWriteAtomicity c => admin c 0x09 && low c.cdw10 8 0x0A
  | .setFeaturesAsyncEventConfig c => admin c 0x09 && low c.cdw10 8 0x0B
  | .setFeaturesHostBehaviorSupport c _ => admin c 0x09 && low c.cdw10 8 0x16
  | .setFeaturesExtensionLevel c => admin c 0x09 && low c.cdw10 8 0xC0
  | .setFeaturesPowerManagement c => admin c 0x09 && low c.cdw10 8 0x02
  | .setFeaturesApst c _ => admin c 0x09 && low c.cdw10 8 0x0C
  | .setFeaturesNopsc c => admin c 0x09 && low c.cdw10 8 0x11
  | .setFeaturesTemperatureThreshold c => admin c 0x09 && low c.cdw10 8 0x04
  | .apstIdleExpiry fn => decide (fn ≤ 1024)
  | .asynchronousEventRequest c => admin c 0x0C
  | .abort c => admin c 0x08
  | .firmwareImageDownload c => admin c 0x11
  | .fwCommitReplace c => admin c 0x10 && ca c 0
  | .fwCommitReplaceActivateNext c => admin c 0x10 && ca c 1
  | .fwCommitActivateNext c => admin c 0x10 && ca c 2
  | .fwCommitActivateNow c => admin c 0x10 && ca c 3
  | .fwCommitCheckDone _ _ => true
  | .fwActivationEnd _ => true
  | .interruptCoalescingTimeExpiry fn _ => decide (fn ≤ 1024)
  | .hostMemoryError fn sqid cid => decide (fn ≤ 1024) && decide (sqid < 65536) && decide (cid < 65536)
  | .gatherRead c => io c.cmd 0x81
  | .gatherChannelGrant _ => true
  | .gatherChannelWaitExpiry fn sqid cid => decide (fn ≤ 1024) && decide (sqid < 65536) && decide (cid < 65536)
  | .gatherReadComplete ch _ => decide (ch < 48)
  | .beatLaneAgeing ch => decide (ch < 64)
  | .gdcStart fn ch _ _ => decide (fn ≤ 1024) && decide (ch < 16)
  | .gdcStop fn ch _ => decide (fn ≤ 1024) && decide (ch < 16)
  | .gdcResume fn ch _ _ => decide (fn ≤ 1024) && decide (ch < 16)
  | .gdcClear fn ch _ => decide (fn ≤ 1024) && decide (ch < 16)
  | .gdcTransferEnd ch _ _ => decide (ch < 16)
  | .halfHitchAppend c _ => io c 0x8D
  | .halfHitchAcceptance fn sqid cid _ => decide (fn ≤ 1024) && decide (sqid < 65536) && decide (cid < 65536)
  | .halfHitchRead c => io c 0x8E
  | .keySlotWrite fn _ bytes => decide (fn ≤ 1024) && !bytes.isEmpty
  | .sealZone c => io c 0x8A
  | .cvuInit fn unit _ => decide (fn ≤ 1024) && decide (unit < 16)
  | .cvuFeedWrite fn unit bytes => decide (fn ≤ 1024) && decide (unit < 16) && !bytes.isEmpty
  | .cvuValWrite fn unit _ => decide (fn ≤ 1024) && decide (unit < 16)
  | .vfEnableSet => true
  | .vfEnableClear => true
  | .numvfsWrite _ => true
  | .virtMgmtResourceAssign c => admin c 0x1C && low c.cdw10 4 8
  | .virtMgmtSecondaryOnline c => admin c 0x1C && low c.cdw10 4 9
  | .virtMgmtSecondaryOffline c => admin c 0x1C && low c.cdw10 4 7
  | .vfFunctionLevelReset fn => decide (fn ≤ 1024)
  | .stallResourceSet c _ => admin c 0xC2
  | .stallFreeze c => admin c 0xC4 && !bit c.cdw10.toNat 31
  | .stallThaw c => admin c 0xC4 && bit c.cdw10.toNat 31
  | .stallFreezeQuiet fn => decide (fn ≤ 1024)
  | .stallFreezeTimeout fn => decide (fn ≤ 1024)
  | .stallSave c => admin c 0xC5
  | .stallRestore c _ => admin c 0xC6
  | .turnStart => true
  | .epochBoundary => true
  | .turnHeader t => decide (t.hdr.length = 32) && t.ups.all (fun c => decide (c.1 < 32))
  | .allQuiet _ _ => true
  | .release _ => true
  | .resync _ _ => true
  | .allQuietExpiry => true
  | .lockAcquired => true
  | .lockLost _ => true
  | .pollStatus a => decide (a.addr < 1024) && decide (a.crc < 256)
  | .pollIdent a => decide (a.addr < 1024) && decide (a.crc < 256)
  | .pollSchedCommit a _ => decide (a.addr < 1024) && decide (a.crc < 256)
  | .pollSchedData a _ _ => decide (a.addr < 1024) && decide (a.crc < 256)
  | .pollUnknown a _ => decide (a.addr < 1024) && decide (a.crc < 256)
  | .rootPollAnswer addr _ ports words => decide (addr < 1024) && ports.all (fun p => decide (p < 32)) && ports.length == words.length
  | .participantAbsent addr => decide (addr < 1024)
  | .portTrainingSweepEnd port steps => decide (port < 32) && decide (steps.length = 16)
  | .cadenceScheduleLoad c _ => admin c 0xC8
  | .scheduleDeliveryTimeout => true
  | .cadPfSend fn => decide (fn ≤ 1024)
  | .tokenRelease fn => decide (fn ≤ 1024)
  | .relock fn => decide (fn ≤ 1024)
  | .cadRootCmdSend fn _ => decide (fn ≤ 1024)
  | .cadRootEpochWrite fn _ => decide (fn ≤ 1024)
  | .cadenceDomainStatusLog c => admin c 0x02 && low c.cdw10 8 0xD3
  | .powerLoopWindow _ => true
  | .housekeepingRound _ => true
  | .nonopEntryBegin => true
  | .sleepHandshakeReply _ => true
  | .nonopExitEnd _ => true
  | .pwrMeasRead fn => decide (fn ≤ 1024)
  | .studbookRecordPlace => true
  | .studbookPersist => true
  | .studbookRead c => admin c 0xCA
  | .stbSlotFirstDwordRead view slot => decide (view < 2) && decide (slot < 64)
  | .tapReset => true
  | .samplePreload _ _ => true
  | .idcode => true
  | .extest _ => true
  | .clamp => true
  | .highz => true
  | .extestPulse => true
  | .extestTrain => true
  | .bypass ir => decide (ir < 256)
  | .testEnter key => decide (key < 65536)
  | .testDrainEnd => true
  | .tstat => true
  | .txsRead _ => true
  | .mbist _ => true
  | .mbistRes => true
  | .mbistEnd _ => true
  | .fptest _ => true
  | .fpRes => true
  | .fptestEnd _ _ => true
  | .spiProg _ => true
  | .serviceLifeLog c => admin c 0x02 && low c.cdw10 8 0xD7
  | .nvmeMiCommand fn => (fn.map (fun f => decide (f ≤ 1024))).getD true
  | .i3cDynamicAddressAssignment addr => decide (addr < 128)
  | .registerWrite fn _ _ width _ => decide (fn ≤ 1024) && [1, 2, 4, 8].contains width
  | .regReadLowDword fn _ a => decide (fn ≤ 1024) && [1, 2, 4, 8].contains a.width
  | .regReadHighDword fn _ a => decide (fn ≤ 1024) && [1, 2, 4, 8].contains a.width
  | .powerLoss => true
  | .pwrfailNRise => true
  | .sysRstNRise => true
  | .perstDeassert port => decide (port < 2)
  | .journalCheckpoint => true
  | .oscillator32kStopped => true
  | .invalidCommandOpcode c => c.wf && !known c

end Sys2Proof
end

