-- ==== Sys2Proof/Tests/Slice0.lean ====
section
/-! SUPPORT. Tests: the well-formedness check refuses an ill-formed command for each of its conditions; values worked out in the spec; and,
for every statement with hypotheses, states and operands that meet them, clause by clause. -/

namespace Sys2Proof.Tests
set_option Elab.async false
open Sys2Proof Sys2Proof.Machine

/-! ## States and commands the tests start from -/

/-- An enabled function with its admin queues and one I/O queue pair. -/
def fnUp : Fn :=
  { Fn.dflt with en := true, cfgOk := true, css := 6, vq := 2, vi := 1, online := true, asqs := 63, acqs := 63, iosqes := 6, iocqes := 4,
                 sqs := [(0, ⟨64, 0, 0, 0, 0, 0⟩), (1, ⟨64, 0, 0, 0, 1, 0⟩)],
                 cqs := [(0, ⟨64, 0, 0, 0, true, 0, true, [], 0⟩), (1, ⟨64, 0, 0, 0, true, 0, true, [], 0⟩)] }

/-- SERVICE with the Owner PF enabled. -/
def sv : State :=
  { State.reset with
      m := { ModeS.dflt with cur := .service }, q := { Qs.dflt with fns := [(0, fnUp)] },
      jn := { Jrn.dflt with admOff := false, opened := true } }

/-- The same in another mode. -/
def inM (md : Mode) : State := { sv with m := { ModeS.dflt with cur := md } }

/-- A drain is going on in SERVICE. -/
def draining (d : Drain) : State := { sv with m := { sv.m with drain := d } }

/-- Slack in a phase of the proof-load. -/
def inPhase (p : ProofPhase) : State := { sv with slk := { sv.slk with phase := p } }

/-- The admission of writes is open: Slack 1 MiB, no hold. -/
def slackUp : Slk := { Slk.dflt with totalMiB := 1, admissionOff := false }

/-- An NVMe command of the Owner PF for namespace 1. -/
def cmd (sqid opc : Nat) : Cmd := ⟨0, sqid, 1, 1, 0, 0, 0, 0, 0, 0, opc, 0, false, 0⟩

/-- An admin command with its first command dwords. -/
def adm (opc : Nat) (d10 d11 : Dword := 0) : Cmd := { cmd 0 opc with cdw10 := d10, cdw11 := d11 }

/-- A geometry of 16 KiB pages: a zone is 4 GiB. -/
def geo : Geom := ⟨true, 16384, 2048, 1152, 1024, 1, 4, 4⟩

/-- Zone 0, open by the Owner PF with nothing written. -/
def zone0 : Zone := ⟨1, 0, .expOpen, false, 0, 0, 0xF, false, false, true, 0, false, false, false, 0, 0, 1, 0, 0, [], 0, [], [], 0, 0⟩

/-- A zoned namespace of zone 0, attached to the Owner PF. -/
def ns0 : Ns := ⟨false, 2 ^ 20, 0, 0, [0], [0]⟩

/-- SERVICE with namespace 1 and its zone in this form. -/
def withZone (z : Zone) : State :=
  { sv with zn := { sv.zn with nss := [(1, ns0)], zones := [(0, z)] }, fl := { sv.fl with geom := geo }, slk := slackUp }

/-- The zone in a state. -/
def zIn (st : ZS) : State := withZone { zone0 with st := st }

/-- A conventional namespace, attached to the Owner PF. -/
def convNs : State := { sv with zn := { sv.zn with nss := [(1, { ns0 with conv := true, zones := [] })] }, fl := { sv.fl with geom := geo } }

/-- A context of the Owner PF that waits. -/
def ctx (w : Wait) : Ctx := { newCtx (cmd 1 0x02) sv with wait := w, seq := 7 }

/-- SERVICE with one waiting command. -/
def waits (w : Wait) : State := { sv with q := { sv.q with ctxs := [ctx w], seq := 7 } }

/-- A command runs on a state, in no form R226 excludes, with no sanitize in its way, and a condition holds of its context and the
state it starts from. -/
def met (c : Cmd) (s : State) (p : Ctx → State → Bool) : Bool :=
  match taken c s with
  | some (k, s1) => k.cmd.fuse == 0 && !k.cmd.bitBucket && s1.m.cur != .sanitize && !s1.zn.sanFail && p k s1
  | none => false

/-- What `met` says, in the terms of the statements. -/
theorem met_spec {c : Cmd} {s : State} {p : Ctx → State → Bool} (h : met c s p = true) :
    ∃ k s1, taken c s = some (k, s1) ∧ plainForm k ∧ notSanitizing s1 ∧ p k s1 = true := by
  unfold met at h
  split at h
  · rename_i k s1 ht
    simp only [Bool.and_eq_true, bne_iff_ne, beq_iff_eq, Bool.not_eq_true'] at h
    obtain ⟨⟨⟨⟨h1, h2⟩, h3⟩, h4⟩, h5⟩ := h
    exact ⟨k, s1, ht, ⟨h1, h2⟩, ⟨h3, h4⟩, h5⟩
  · cases h

/-- The conditions of `sendsTo`, as a test. -/
def sends (k : Ctx) (s : State) (z : Nat) : Bool :=
  k.snap.write && !selAllOf k.cmd && slbaOf k.cmd % 2 ^ 20 == 0 &&
    match nsFor? k.cmd.fn k.cmd.nsid s with
    | some n => !n.conv && decide (slbaOf k.cmd < n.nsze) && zoneOfLba n (slbaOf k.cmd) == some (z, 0) && (zoneAt? z s).isSome
    | none => false

/-- What `sends` says, in the terms of the statements. -/
theorem sends_spec {k : Ctx} {s : State} {z : Nat} (h : sends k s z = true) : ∃ n q, sendsTo k s n z q := by
  unfold sends at h
  split at h
  · rename_i n hn
    simp only [Bool.and_eq_true, beq_iff_eq, Bool.not_eq_true', decide_eq_true_eq] at h
    obtain ⟨⟨⟨h1, h2⟩, h3⟩, ⟨⟨h4, h5⟩, h6⟩, h7⟩ := h
    obtain ⟨q, hq⟩ := Option.isSome_iff_exists.1 h7
    exact ⟨n, q, h1, hn, h4, h2, h5, h3, h6, hq⟩
  · simp at h

/-- The zone a Send acts on, tested. -/
def zq (s : State) (p : Zone → Bool) : Bool := match zoneAt? 0 s with | some q => p q | none => false

/-- A command with an I/O queue's opcode. -/
def adm1 (opc : Nat) : Cmd := cmd 1 opc

/-- Dual-port mode in SERVICE with PERST# of its ports at these levels. -/
def dual (a b : Bool) : State := { sv with pins := { sv.pins with strapDual := true, perstA := a, perstB := b } }

/-- PROOF_LOAD with its jobs ended or not. -/
def pl (a b c : Bool) : State := { inM .proofLoad with st := { StartS.dflt with jobA := a, jobB := b, jobC := c } }

/-- A participant of a cadence domain. -/
def part13 : State := { sv with img := { sv.img with cadEnable := true } }

/-- A configuration slot without sections: its header, and its CRC. -/
def slot (seq : Nat) : List Byte :=
  let h := leBytes 4 0x43585A44 ++ leBytes 2 1 ++ leBytes 2 16 ++ leBytes 4 20 ++ leBytes 4 seq
  h ++ leBytes 4 (crcOf 1 h)

/-- A write of one position by the Owner PF, staged whole. -/
def wr : Wr := ⟨1, 0, 1, 1, 3, 1, 0, 0, 2, 0, 0, false, [(0, ⟨2, [], [], false, false, 0, 0, 0, 0, 0⟩)], false, true, .undecided, 0, 0, [], false, false⟩

/-- A stall that is up: stall 3 of 4. -/
def stallOn : State := { sv with stl := { sv.stl with vfEnable := true, numVfs := 4 }, q := { sv.q with fns := [(0, fnUp), (3, fnUp)] } }

/-- The stall may not write. -/
def stallNoWrite : State := { stallOn with stl := { stallOn.stl with ents := [(3, { StlEnt.dflt with write := false })] } }

/-- A geometry whose zone is smaller than its address range. -/
def smallZone : State := { zIn .expOpen with fl := { sv.fl with geom := { geo with cell := 3 } } }

/-- A write of namespace 1 fetched before the next command is not durable yet. -/
def withWr : State := { zIn .expOpen with zn := { (zIn .expOpen).zn with wrs := [wr] }, q := { sv.q with seq := 9 } }

/-- A zoned namespace in this form. -/
def withNs (n : Ns) : State := { zIn .empty with zn := { (zIn .empty).zn with nss := [(1, n)] } }

/-- A conventional Pen that is full. -/
def conv1 : Pen := ⟨.conv, 64, 0, 0, none, 1, 0xF, 0xF, [], 49152, .full, false, false, [], 0, []⟩

/-- A busy turn of SERVICE with one conventional Pen that is full, one valid unit of it, and a free one. -/
def gcS : State :=
  { sv with zn := { sv.zn with cmap := [(0, ⟨3, 1, 0, false⟩)], store := [(convOwner, [(0, ⟨2, [], [], false, false, 0, 1, 0, 0, 0⟩)])] },
            fl := { sv.fl with geom := geo },
            pl := { sv.pl with convPens := [1, 2], pens := [(1, { conv1 with mem := [(0, 5, false), (64, 5, false)] }),
              (2, { conv1 with mem := [(0, 6, false), (64, 6, false)], next := 0, st := .erased })] } }

/-- A Pen of host data with one unit reserved. -/
def hostP : Pen := ⟨.host, 0, 0, 0, none, 2, 0xF, 0xF, [(0, 5, false), (64, 5, false), (128, 5, false)], 1, .filling, false, false, [], 0, []⟩

/-- A Pen with one live unit of zone 0, and an open relocation Pen. -/
def relS : State :=
  let s := withZone { zone0 with runs := [(1, 0, 1)], folded := 1, wp := 128 }
  { s with zn := { s.zn with store := [(0, [(0, ⟨2, [], [], false, false, 0, 1, 0, 0, 0⟩)])] },
           pl := { sv.pl with pens := [(1, hostP), (2, { hostP with kind := .reloc, next := 0 })], relocPen := [(dstKey .reloc 0 0xF, 2)] } }

/-- A zone with one unit in the Paddock, all of it there. -/
def foldS : State :=
  let s := withZone { zone0 with wp := 128, runs := [(1, 0, 1)] }
  { s with zn := { s.zn with store := [(0, (List.range 64).map (fun i => (2 * i, ⟨2, [], [], false, false, 0, 1, i, 0, 0⟩)))] },
           pl := { sv.pl with pens := [(1, { conv1 with kind := .landing })] } }

/-- A Yard whose wear is spread past its bound. -/
def wearS : State :=
  { sv with fl := { sv.fl with geom := { geo with blocksPerLun := 64 }, luns := [(0, Lun.dflt), (64, Lun.dflt)],
                               chs := [(0, { Chn.dflt with state := 2 }), (1, { Chn.dflt with state := 2 })],
                               blks := [(0, { Bk.dflt with wear := 500 }), (64 * 8192, { Bk.dflt with wear := 1 })] },
             pl := { sv.pl with rowYard := [(0, 0)] } }

/-- A program of block 5's next wordline, waiting. -/
def pgm : AOp := ⟨1, 0, 0, 3, .program, 5, 2, false, 1, .queued, 0, 0, 0, false, false, false, 0, (100, 1, 3000, 16), .journal⟩

/-- An erase of block 6, waiting. -/
def ers : AOp := { pgm with kind := .erase, blk := 6, wl := 0, work := .none }

/-- Channel 0 up with one operation, block 5 open, block 7 failed once at its check. -/
def opS (o : AOp) : State :=
  { sv with fl := { sv.fl with geom := geo, ops := [o], chs := [(0, { Chn.dflt with state := 2, luns := 1, suspCap := true })], luns := [(0, Lun.dflt)],
                               blks := [(5, { Bk.dflt with st := .openB, nextWl := 2, liveEgen := 1, hasLive := true }),
                                        (7, { Bk.dflt with prechkFailed := true })] } }

/-- An erase waits for block 6, which is pending. -/
def erS : State :=
  let s := opS ers
  { s with fl := { s.fl with blks := [(6, { Bk.dflt with st := .pending })] }, m := { s.m with cur := .service } }

/-- A program runs and a host read waits behind it. -/
def susS : State :=
  let s := opS { pgm with st := .running }
  { s with fl := { s.fl with ops := [{ pgm with st := .running }, { pgm with id := 2, kind := .read, cls := 2 }] }, tm := { s.tm with elapsed := 300 } }

/-- A piece of zone 0 on a Pen of two members, of a stripe that is closed; the first member lost or not. -/
def recP (lost : Bool) (o : AOp) : State :=
  let p : Pen := ⟨.landing, 0, 0, 0, none, 1, 0xF, 0xF, [(0, 5, lost), (64, 0, false)], 9, .full, false, false, [(0, 0), (0, 1)], 0, []⟩
  let s := opS o
  { s with zn := { s.zn with store := [(0, [(0, ⟨2, [], [], false, false, 0, 1, 0, 0, 0⟩)])] }, pl := { s.pl with pens := [(1, p)] },
           fl := { s.fl with luns := [(0, Lun.dflt), (64, Lun.dflt)], chs := [(0, { Chn.dflt with state := 2 }), (1, { Chn.dflt with state := 2 })] } }

/-- A read of a codeword for context 1, and a rebuild of it over the other member. -/
def hostO : AOp := { pgm with kind := .read, work := .host 1 0 0, st := .running }
/-- The rebuild, on the path of the arbiter (4) or of ladder step 3. -/
def reconO (path : Nat) : AOp := { pgm with ch := 64, kind := .read, work := .recon 1 0 0 path [1] [], st := .running }

/-- No I/O queues. -/
def noIoQ : State := { sv with q := { sv.q with fns := [(0, { fnUp with sqs := [(0, ⟨64, 0, 0, 0, 0, 0⟩)], cqs := [(0, ⟨64, 0, 0, 0, true, 0, true, [], 0⟩)] })] } }

/-- The root of a cadence domain. -/
def rootS : State := { sv with img := { sv.img with cadEnable := true, cadRoot := true } }

/-- Asynchronous Event Requests that wait. -/
def aers (n : Nat) : State := { sv with q := { sv.q with ctxs := (List.range n).map (fun i => { ctx .aer with seq := i }), seq := 20 } }

/-- Aborts that are outstanding. -/
def abortsN (n : Nat) : State :=
  { sv with q := { sv.q with ctxs := (List.range n).map (fun i => { newCtx { adm 0x08 with cid := 100 + i } sv with seq := i }), seq := 20 } }

/-- Firmware parts collected, and an activation. -/
def fwS (parts : List (Nat × Nat)) (act : Option (Nat × Nat × Nat)) : State := { sv with q := { sv.q with fw := { Fw.dflt with parts := parts, act := act } } }

/-- A Gather Read of one element of `len` bytes at block `slba` is granted a channel: the table it names holds that element. -/
def grant (slba len : Nat) (p : Ns → List GEnt → State → Bool) : Bool :=
  let c := { cmd 1 0x81 with cdw13 := 4096 }
  let s0 := zIn .full
  let s := { s0 with q := { s0.q with ctxs := [{ newCtx c s0 with wait := .gatherWait, seq := 7 }], seq := 7 } }
  let tab := leBytes 8 (if slba = 0 then 0 else 2 ^ 20) ++ leBytes 4 0 ++ leBytes 4 len
  match s.q.ctxs.find? (fun k => k.wait == .gatherWait && chanCap k s), freeChan s, hostRead (itabOf c) (16 * nblocks c) [(0, tab)] with
  | some k, some _, some (t, _) => (nsAt? k.cmd.nsid s).isSome && p ns0 (parseEnts (nblocks k.cmd) t) s
  | _, _, _ => false

/-- Maintenance channel 15 in a state, with 4 bytes to copy. -/
def gd (st : Nat) : State := { sv with ga := { sv.ga with gdc := [(15, { Gdc.dflt with cnt := 4, dlen := 4, state := st })] } }

/-- Stall 3 is present and Offline. -/
def offStall : State := { stallOn with q := { sv.q with fns := [(0, fnUp)] } }

/-- A command of stall 3 is left. -/
def leftS (w : Wait) : State :=
  { stallOn with q := { stallOn.q with ctxs := [{ newCtx { cmd 1 0x02 with fn := 3 } stallOn with wait := w, dispatched := true, seq := 6 }], seq := 7 } }

/-- Stall 3 is frozen, enabled or not, and the Owner PF holds a key. -/
def frozenS (en : Bool) : State :=
  { stallOn with stl := { stallOn.stl with res := [(3, { StlRes.dflt with frz := true })] }, ci := { sv.ci with keys := [(0, zeroBytes 31 ++ [1])] },
                 q := { sv.q with fns := [(0, fnUp), (3, if en then fnUp else { fnUp with en := false, sqs := [], cqs := [] })] } }

/-- A participant in lock. -/
def locked : State := { part13 with cad := { part13.cad with lock := true } }

/-- An idle controller whose table sends it to state 3. -/
def idleS : State :=
  { sv with q := { sv.q with fns := [(0, { fnUp with feats := { Feats.dflt with apste := true, apst := List.replicate 32 (256 + 24) } })] } }


/-- The time of a Currycomb's period of days. -/
def s0Media : Nat := sv.ecc.mediaAt + sv.ecc.mediaDays * 86400000000

/-- The page of a LUN. -/
def lunRep : LunReport := ⟨0, 0, 0, true, true, 16384, 2048, 1152, 1024, 4, 4, true, 4800, 0, 3000⟩
/-! ## Well-formedness: each condition refuses an ill-formed command -/

/-- The fields of a command are within their widths; each one past its width is refused. -/
theorem test_wf_cmd :
    (cmd 1 0x02).wf = true ∧ ({ cmd 1 0x02 with fn := 1025 }).wf = false ∧ ({ cmd 1 0x02 with sqid := 65536 }).wf = false ∧
    ({ cmd 1 0x02 with cid := 65536 }).wf = false ∧ ({ cmd 1 0x02 with nsid := 2 ^ 32 }).wf = false ∧ (cmd 1 256).wf = false ∧
    ({ cmd 1 0x02 with fuse := 4 }).wf = false ∧ ({ cmd 1 0x02 with dptr := 2 ^ 64 }).wf = false := by decide

/-- A command of the wrong queue, opcode or sub-operation is refused. -/
theorem test_wf_opcode :
    (Instr.read (cmd 1 0x02)).wf = true ∧ (Instr.read (cmd 0 0x02)).wf = false ∧ (Instr.read (cmd 1 0x01)).wf = false ∧
    (Instr.identify (adm 0x06)).wf = true ∧ (Instr.identify (cmd 1 0x06)).wf = false ∧
    (Instr.zoneReset { cmd 1 0x79 with cdw13 := 4 }).wf = true ∧ (Instr.zoneReset { cmd 1 0x79 with cdw13 := 4, cdw14 := 1 }).wf = false ∧
    (Instr.scrubbingReset { cmd 1 0x79 with cdw13 := 4, cdw14 := 1 }).wf = true ∧ (Instr.zoneOpen { cmd 1 0x79 with cdw13 := 1 }).wf = false ∧
    (Instr.fwCommitActivateNow (adm 0x10 0x18)).wf = true ∧ (Instr.fwCommitActivateNow (adm 0x10 0x10)).wf = false ∧
    (Instr.stallThaw (adm 0xC4 0x80000003)).wf = true ∧ (Instr.stallFreeze (adm 0xC4 0x80000003)).wf = false ∧
    (Instr.getLogPage (adm 0x02 0x02)).wf = true ∧ (Instr.getLogPage (adm 0x02 0xD3)).wf = false ∧
    (Instr.invalidCommandOpcode (adm 0x03)).wf = true ∧ (Instr.invalidCommandOpcode (adm 0x06)).wf = false := by decide

/-- A function, port, core, die, Yard, channel, LUN, ladder step, address, unit or slot the part cannot have is refused. -/
theorem test_wf_ranges :
    (Instr.portPerst 2).wf = false ∧ (Instr.ostlerWatchdogExpiry 16).wf = false ∧ (Instr.spineLinkFault 4).wf = false ∧
    (Instr.thermalTrip 5 125).wf = false ∧ (Instr.proofNow 1025).wf = false ∧ (Instr.wearLevelling 64).wf = false ∧
    (Instr.eyePass 64 0).wf = false ∧ (Instr.dieSuspended 0 64).wf = false ∧ (Instr.readEnd 0 0 7 0).wf = false ∧
    (Instr.shutdown 0 4).wf = false ∧ (Instr.gatherReadComplete 48 none).wf = false ∧ (Instr.gdcStop 0 16 ⟨0, 0, []⟩).wf = false ∧
    (Instr.cvuInit 0 16 0).wf = false ∧ (Instr.keySlotWrite 0 0 []).wf = false ∧ (Instr.pollStatus ⟨1024, 0⟩).wf = false ∧
    (Instr.turnHeader ⟨zeroBytes 31, 0, []⟩).wf = false ∧ (Instr.portTrainingSweepEnd 0 []).wf = false ∧ (Instr.stbSlotFirstDwordRead 2 0).wf = false ∧
    (Instr.bypass 256).wf = false ∧ (Instr.testEnter 65536).wf = false ∧ (Instr.i3cDynamicAddressAssignment 128).wf = false ∧
    (Instr.registerWrite 0 0 0 3 0).wf = false ∧ (Instr.nvmeMiCommand (some 1025)).wf = false := by decide

/-- No row of the opcode table gives bits, so no word spells a command and `withFetchWord` changes nothing. -/
theorem test_no_words : decodeTableWord 8 0 = none ∧ State.reset.withFetchWord 8 0 = State.reset := by decide +kernel

/-! ## Values worked out in the spec -/

/-- The check values of Table 11.7. -/
theorem test_crc_check_values :
    let s : List Byte := [0x31, 0x32, 0x33, 0x34, 0x35, 0x36, 0x37, 0x38, 0x39]
    crcOf 0 s = 0xD0DB ∧ crcOf 1 s = 0xE3069283 ∧ crcOf 2 s = 0xAE8B14860A799888 := by decide +kernel

/-- R414's worked example: CH21_RE_T is depth 9, column 1 of its block, ball 29-60; the corners of Table 16.2 and R418. -/
theorem test_balls :
    chPlace 21 9 1 = (29, 60) ∧ ballNet 29 60 = .chan 21 "RE_T" ∧ ballNet 66 5 = .serv "PWRFAIL_N" ∧ ballNet 1 51 = .cad 32 "CK_P" ∧
      ballNet 13 7 = .pcie "PERST_A_N" ∧ ballNet 19 18 = .plane "VDD_SRAM" ∧ ballDrive (.chan 0 "WP_N") State.reset = some false := by decide +kernel

/-- R76's worked example: 4,700 µF, 30.0 mΩ, Slack 24 MiB; with DERATE 800, 7 MiB. -/
theorem test_slack_example :
    100 * (27916 + 26753) / (27916 - 26753) = 4700 ∧ (28000 - 27916) * 100000 / 27916 = 300 ∧
    ebyteOf 75000 16670000000 0 = 450 ∧ slackMiB (energy2 4700 28000 11000) 850 1200000 450 = 24 ∧
    slackMiB (energy2 4700 28000 11000) 800 1200000 450 = 7 := by decide

/-- R87's worked example: 6,144 KiB among 200 quotas of 64 KiB leave 28 KiB each and a pool of 544 KiB. -/
theorem test_quota_example :
    let s := { sv with slk := { sv.slk with totalMiB := 6, fns := (List.range 200).map (fun i => (i + 1, { SlkFn.dflt with quotaKiB := 64 })) } }
    (slkOf 7 (scaleQuotas s)).effKiB = 28 ∧ poolKiB (scaleQuotas s) = 544 := by decide +kernel

/-- R104's worked example: ZCAP of QLC and of TLC flash with 16 KiB pages and 4 planes. -/
theorem test_zcap_example : zcapLbas geo = 0x100000 ∧ zcapLbas { geo with cell := 3 } = 0xFFFF0 := by decide

/-- The example's first tokens of R287: four literals, a MATCH of 2,044 bytes from distance 4, and three bits left. -/
theorem test_half_hitch_example :
    let bs := (([0x82, 0x08, 0x19, 0x42, 0xD4, 0x6F, 0x9A, 0xE1] : List Byte).flatMap byteBits)
    (match hhRun 4 ⟨bs, 0, [], 0, 1⟩ with
      | .ok t => t.out == [0x44, 0x43, 0x42, 0x41] && t.used == 36 &&
        (match hhPrefix hhTokens t with
          | some (1, t1) => (match hhNum hhLens t1 with
            | some (l, t2) => l == 2044 && (match hhNum hhDists t2 with
              | some (d, t3) => d == 4 && t3.used == 61 && t3.bs == [true, true, true]
              | none => false)
            | none => false)
          | _ => false)
      | .error _ => false) = true := by decide +kernel

/-- R70's worked example: the Paddock at fills 0.62 and 0.98. -/
theorem test_paddock_example : paddockSize (62, 100) sv = 15099 ∧ paddockSize (98, 100) sv = 1271 := by decide

/-- R352's worked example of a stamp. -/
theorem test_stamp_example : stampNow { sv with tm := ⟨1234567, 812, 407, 0, 0, true, false, false⟩ } = 0x000012D687CB1972 := by decide

/-- R360's worked example: BUDGET 75.0 W and TOKEN 0x9F give 46.8 W. -/
theorem test_token_example : tokenCap 0x9F sv = 468 := by decide

/-- F after a window of a device under token 0x9F. -/
def fAfter (f lim p : Nat) : Nat :=
  let s := { sv with cad := { sv.cad with token := 0x9F }, pw := { sv.pw with f := f, limSeen := lim } }
  match exec (.powerLoopWindow p) s with
  | .next t => t.pw.f
  | _ => 0

/-- R377's worked example: F falls to 51 at the first window under the cap, stays at 45.10 W and falls to 47 at 47.30 W. -/
theorem test_power_example : fAfter 64 750 5800 = 51 ∧ fAfter 51 468 4510 = 51 ∧ fAfter 51 468 4730 = 47 := by decide +kernel

/-- Table 8.13's worked example: a held write and a read rebuilt at Level 2. -/
theorem test_detail_example :
    let s := { sv with q := { sv.q with fns := [(0, { fnUp with feats := { Feats.dflt with xlevel := 2 } })] } }
    detailOf { ctx .posted with wpath := 6 } s = 0x0006 ∧
      detailOf { ctx .posted with rd := { Rd.none with rpath := 4, ladder := 4 } } s = 0x0120 := by decide

/-- R402's worked example: the bytes of the record of step 2. -/
theorem test_record_example :
    recBytes ⟨0x000012D687CB1972, 0x4005, 0, 0x00010F2A, [21, 5, 0x0A3C, 0x0171, 0, 0, 0], 1, false, false⟩ =
      [0x72, 0x19, 0xCB, 0x87, 0xD6, 0x12, 0x00, 0x00, 0x05, 0x40, 0x00, 0x00, 0x2A, 0x0F, 0x01, 0x00, 0x15, 0x00, 0x05, 0x00,
        0x3C, 0x0A, 0x71, 0x01, 0x00, 0x00, 0x00, 0x00, 0x00, 0x00, 0x01, 0xA5] := by decide

/-- R33: a standing QLC prohibition gives THERMAL_HOLD, and its end SERVICE (the worked example's steps 1 and 4). -/
theorem test_base_mode : baseMode { sv with m := { sv.m with thm := 1 } } = .thermalHold ∧ baseMode sv = .service := by decide

/-! ## Witnesses: states and operands that meet the hypotheses of each statement, clause by clause -/

/-- PowerAndResetPins: sysRstNLow of 10 µs outside a flush and within one, a pulse of 1 µs. -/
theorem witness_PowerAndResetPins :
    (10000 ≤ 10000 ∧ (inM .service).m.cur ≠ .emergencyFlush) ∧
    (10000 ≤ 10001 ∧ (inM .emergencyFlush).m.cur = .emergencyFlush ∧ (inM .emergencyFlush).fl.parked = false) ∧
    (1000 ≤ 1000) := by
  decide +kernel

/-- DeviceAndPortResets: a start mode, HALTED, a mode of service without and with its drain ended; dual-port mode with either port high and both low. -/
theorem witness_DeviceAndPortResets :
    (State.reset.m.cur.isStart = true) ∧
    ((inM .retain).m.cur = .retain) ∧
    ((inM .halted).m.cur = .halted) ∧
    ((inM .sanitize).m.cur = .sanitize ∧ (inM .sanitize).m.drain = .none) ∧
    (sv.m.cur.isBase = true ∧ sv.m.drain = .none ∧ sv.slk.phase ≠ .pulse) ∧
    ((inPhase .pulse).m.cur.isBase = true ∧ (inPhase .pulse).slk.phase = .pulse) ∧
    ((inM .fwActivate).m.cur = .fwActivate ∧ (inM .fwActivate).m.drain = .none) ∧
    ((draining .devReset).m.drain = .devReset ∧ useBytes (draining .devReset) = 0 ∧ (draining .devReset).m.thm ≠ 2) ∧
    ((dual true true).pins.strapDual = true ∧ (dual true true).m.cur.isBase = true ∧ (dual true true).pins.perstB = true) ∧
    ((dual true false).pins.perstA = true ∧ fnPresent 1024 (dual true false) = true) ∧
    ((dual true false).pins.perstB = false ∧ (dual true false).m.drain = .none) := by
  decide +kernel

/-- StrapsStandUntilReset: a command outside RESET; the Owner PF and the part with the most dies. -/
theorem witness_StrapsStandUntilReset :
    (sv.m.cur ≠ .reset) ∧
    (isPf 0 = true ∧ isPf 1024 = true) ∧
    (sv.part.channels < 128 ∧ sv.part.sheds < 8) := by
  decide +kernel

/-- StartBegins: straps in RESET; IMAGE_LOAD with a readable image in either slot and in neither. -/
theorem witness_StartBegins :
    ((let s := { State.reset with pins := { State.reset.pins with sysRstN := true } }; s.m.cur = .reset ∧ s.pins.sysRstN = true)) ∧
    ((inM .imageLoad).m.cur = .imageLoad) ∧
    ((readSlot Part.dflt true (slot 5)).st = 0 ∧ (readSlot Part.dflt true (slot 5)).seq = 5) ∧
    ((readSlot Part.dflt true (slot 5)).st = 0 ∧ (readSlot Part.dflt true []).st ≠ 0) ∧
    ((readSlot Part.dflt true (slot 5)).seq < (readSlot Part.dflt true (slot 6)).seq) ∧
    ((readSlot Part.dflt false (slot 5)).st ≠ 0) := by
  decide +kernel

/-- ProofLoadJobs: PROOF_LOAD before and after each of its jobs. -/
theorem witness_ProofLoadJobs :
    ((pl false false false).m.cur = .proofLoad ∧ (pl false false false).st.jobB = false ∧ (pl false false false).st.jobC = false) ∧
    ((pl false true false).st.jobB = true ∧ (pl false true false).slk.rehearsed = false) ∧
    ((let r : LunReport := { lunRep with crcOk := false, ch := 63, target := 15, unit := 3 }; r.ch < sv.part.channels ∧ r.target < 16 ∧ r.unit < 4 ∧ r.crcOk = false)) ∧
    ((false || true) = true ∧ (true || true) = true ∧ (true && false) = false ∧ (pl false false false).jn.closing = .clean) ∧
    ((let s := { pl false false false with jn := { Jrn.dflt with closing := .none } }; s.st.jobC = false ∧ s.jn.closing = .none)) ∧
    ((let s := { pl false false false with jn := { Jrn.dflt with closing := .flush } }; s.st.jobC = false ∧ s.jn.closing = .flush)) ∧
    ((let s := pl true true true; s.m.cur = .proofLoad ∧ s.st.jobA = true ∧ s.st.jobB = true ∧ s.st.jobC = true ∧ s.st.needRecovery = false ∧ s.jn.sanitize = 0)) ∧
    ((let s := { pl true true true with st := { (pl true true true).st with needRecovery := true } }; s.st.jobA = true ∧ s.st.jobB = true ∧ s.st.jobC = true ∧ s.st.needRecovery = true)) ∧
    ((let s := { pl true true true with jn := { Jrn.dflt with sanitize := 1 } }; s.m.cur = .proofLoad ∧ s.st.jobA = true ∧ s.st.jobB = true ∧ s.st.jobC = true ∧ s.st.needRecovery = false ∧ s.jn.sanitize ≠ 0)) := by
  decide +kernel

/-- RecoveryEnds: RECOVERY. -/
theorem witness_RecoveryEnds :
    ((inM .recovery).m.cur = .recovery) := by
  decide +kernel

/-- FaultsAndTripsHalt: each fault and trip in a mode it acts in. -/
theorem witness_FaultsAndTripsHalt :
    (State.reset.m.cur.isStart = true) ∧
    (sv.m.cur ≠ .reset ∧ sv.m.cur ≠ .test ∧ sv.m.cur ≠ .emergencyFlush ∧ sv.m.cur ≠ .halted ∧ 3 < sv.part.sheds) ∧
    (sv.m.cur ≠ .retain ∧ 15 < 16 ∧ sv.m.cores = []) ∧
    (sv.m.cur.isBase = true ∧ sv.m.drain = .none) ∧
    ((inM .imageLoad).m.cur = .imageLoad) ∧
    ((draining (.thermalTrip 4 125)).m.drain = .thermalTrip 4 125 ∧ (draining (.thermalTrip 4 125)).m.cur ≠ .emergencyFlush ∧ (draining (.thermalTrip 4 125)).m.cur ≠ .halted) := by
  decide +kernel

/-- PowerFailFlushes: a mode that may flush; a flush complete and one still writing; a participant of a domain. -/
theorem witness_PowerFailFlushes :
    (sv.m.cur.flushable = true ∧ sv.m.cur ≠ .test) ∧
    ((let s := { inM .emergencyFlush with fl := { sv.fl with parked := true } }; s.m.cur = .emergencyFlush ∧ s.fl.parked = true ∧ s.pins.pwrfailN = true)) ∧
    (208 ≤ 208 ∧ part13.img.cadEnable = true ∧ part13.img.cadRoot = false ∧ part13.m.cur.flushable = true ∧ part13.m.cur ≠ .test) ∧
    ((inM .emergencyFlush).m.cur = .emergencyFlush ∧ (inM .emergencyFlush).fl.parked = false ∧ (inM .emergencyFlush).pins.heldReset = 0) ∧
    ((let s := { inM .emergencyFlush with m := { ModeS.dflt with cur := .emergencyFlush, prev := .halted } }; s.m.prev = .halted)) ∧
    ((let s := { inM .emergencyFlush with st := { StartS.dflt with up := true } }; s.st.up = true ∧ s.jn.opened = true)) ∧
    ((let s := { inM .emergencyFlush with jn := Jrn.dflt }; s.jn.opened = false)) := by
  decide +kernel

/-- ProofLoads: each event of a proof-load; a bank of 9,000 µF at 18 V. -/
theorem witness_ProofLoads :
    (sv.pins.huOk = false) ∧
    ((let s := { sv with pins := { sv.pins with huOk := true } }; s.pins.huOk = true ∧ s.pins.pwrfailN = true ∧ s.slk.phase = .idle ∧ s.m.cur ≠ .reset ∧ s.m.cur ≠ .imageLoad ∧ s.m.cur ≠ .test ∧ s.m.cur ≠ .emergencyFlush)) ∧
    ((pl true false false).st.jobA = true) ∧
    ((inM .writeThrough).m.cur = .writeThrough ∧ (inM .writeThrough).slk.phase = .idle ∧ (inM .writeThrough).pins.huOk = false) ∧
    ((let s := { inPhase .pulse with pins := { sv.pins with huOk := true } }; s.pins.huOk = true ∧ s.slk.phase = .pulse)) ∧
    ((inPhase .charging).pins.huOk = false ∧ (inPhase .charging).slk.phase = .charging) ∧
    (windowAllowed { sv with slk := { sv.slk with due := true } } = true) ∧
    ((inPhase .window).slk.phase = .window ∧ useKiB (inPhase .window) = 0 ∧ (inPhase .window).m.thm ≠ 2) ∧
    ((sv.pw.ps ≤ 3 ∨ sv.pw.retLost = false) ∧ sv.m.cur ≠ .halted ∧ sv.slk.phase = .idle) ∧
    (fnPresent 1024 (dual true false) = true) ∧
    ((let s := { inPhase .recharge with slk := { (inPhase .recharge).slk with v0 := 18000, v1 := 17900, v2 := 17700 }, pins := { sv.pins with huOk := true } }; s.slk.phase = .recharge ∧ s.pins.huOk = true ∧ s.slk.window = false ∧ s.slk.v2 < s.slk.v1 ∧ s.slk.v1 ≤ s.slk.v0)) ∧
    ((let s := { inPhase .recharge with slk := { (inPhase .recharge).slk with v0 := 20000, v1 := 20000, v2 := 19999, window := true }, pins := { sv.pins with huOk := true } }; s.slk.window = true ∧ 99 * s.slk.v0 ≤ 100 * 19800 ∧ s.slk.v2 < s.slk.v1 ∧ s.slk.v1 ≤ s.slk.v0)) := by
  decide +kernel

/-- SlackDecides: a write in flight with a charge that fits; one whose range was discarded. -/
theorem witness_SlackDecides :
    ((let s := { sv with slk := slackUp, zn := { sv.zn with wrs := [wr] } }; wrAt wr.id s = some wr ∧ wr.dec = .undecided ∧ wr.ready = true ∧ lowerUndecided wr s = false ∧ decision wr s = .early ∧ wr.discarded = false ∧ wr.xferWait = false)) ∧
    ((let s := { sv with zn := { sv.zn with wrs := [{ wr with discarded := true }] } }; wrAt wr.id s = some { wr with discarded := true })) := by
  decide +kernel

/-- SlackReportAnswers: the Owner PF at the limit and past it; a stall. -/
theorem witness_SlackReportAnswers :
    (met (adm 0xC1 1020 5) sv (fun k _ => isStall k.cmd.fn == false && decide (bits k.cmd.cdw10.toNat 10 0 + bits k.cmd.cdw11.toNat 10 0 ≤ 1025))) ∧
    (met (adm 0xC1 1021 5) sv (fun k _ => decide (1025 < bits k.cmd.cdw10.toNat 10 0 + bits k.cmd.cdw11.toNat 10 0))) ∧
    (met { adm 0xC1 with fn := 3 } stallOn (fun k _ => isStall k.cmd.fn)) := by
  decide +kernel

/-- ZoneActions: each Send action in each zone state. -/
theorem witness_ZoneActions :
    (met (adm1 0x79) (zIn .impOpen) (fun k s => sends k s 0 && zq s (fun q => q.st == .impOpen) && !s.m.sparesOut)) ∧
    (met (adm1 0x79) (zIn .closed) (fun k s => sends k s 0 && zq s (fun q => q.st == .closed) && !s.m.sparesOut)) ∧
    (met (adm1 0x79) (zIn .expOpen) (fun k s => sends k s 0 && zq s (fun q => q.st == .expOpen) && !s.m.sparesOut)) ∧
    (met (adm1 0x79) (zIn .full) (fun k s => sends k s 0 && zq s (fun q => q.st == .full) && !s.m.sparesOut)) ∧
    (met (adm1 0x79) (zIn .offline) (fun k s => sends k s 0 && zq s (fun q => q.st == .offline) && !s.m.sparesOut)) ∧
    (met (adm1 0x79) (zIn .empty) (fun k s => sends k s 0 && zq s (fun q => q.st == .empty) && !s.m.sparesOut)) ∧
    (met (adm1 0x79) (zIn .closed) (fun _ s => zq s (fun q => q.activeRes && decide (openAll s < 8192 ∧ openCount q.actFn s < openLim q.actFn s)))) ∧
    (met { adm1 0x7A with cdw12 := 15 } (zIn .full) (fun k s => sends k s 0 && zrasfOf k.cmd == 0 && decide (numdOf k.cmd * 4 ≤ 2097152 ∧ 64 ≤ numdOf k.cmd * 4) && ns0.zones.all (fun z => (zoneAt? z s).isSome))) := by
  decide +kernel

/-- PlacementOpens: its reserved field set; the attributes recorded and others; each zone state. -/
theorem witness_PlacementOpens :
    (met { adm1 0x85 with cdw12 := 0x20000 } (zIn .empty) (fun k s => sends k s 0 && !s.m.sparesOut && !poSeal k.cmd && !poComp k.cmd && decide (poRsvd k.cmd ≠ 0))) ∧
    (met { adm1 0x85 with cdw12 := 0xFFF } (zIn .expOpen) (fun k s => sends k s 0 && poRsvd k.cmd == 0 && poYard k.cmd == 0xFF && poClass k.cmd == 0xF && !poSeal k.cmd && !poComp k.cmd && zq s (fun q => q.st == .expOpen && sameAttr k.cmd q))) ∧
    (met { adm1 0x85 with cdw12 := 0xFFF } (zIn .impOpen) (fun k s => sends k s 0 && poRsvd k.cmd == 0 && poYard k.cmd == 0xFF && poClass k.cmd == 0xF && !poSeal k.cmd && !poComp k.cmd && zq s (fun q => q.st == .impOpen && sameAttr k.cmd q))) ∧
    (met { adm1 0x85 with cdw12 := 0xFFF } (zIn .full) (fun k s => sends k s 0 && poRsvd k.cmd == 0 && poYard k.cmd == 0xFF && poClass k.cmd == 0xF && !poSeal k.cmd && !poComp k.cmd && zq s (fun q => q.st == .full && sameAttr k.cmd q))) ∧
    (met { adm1 0x85 with cdw12 := 0xFFF } (zIn .offline) (fun k s => sends k s 0 && poRsvd k.cmd == 0 && poYard k.cmd == 0xFF && poClass k.cmd == 0xF && !poSeal k.cmd && !poComp k.cmd && zq s (fun q => q.st == .offline && sameAttr k.cmd q))) ∧
    (met { adm1 0x85 with cdw12 := 0x23F - 0x200 } (withZone { zone0 with lclass := 3 }) (fun k s => poYard k.cmd == 63 && bit k.snap.yards 63 && poClass k.cmd == 0 && zq s (fun q => q.st == .expOpen && !sameAttr k.cmd q))) := by
  decide +kernel

/-- ZoneWrites: at the write pointer, up to the capacity, past it; elsewhere; a Full and an Offline zone. -/
theorem witness_ZoneWrites :
    (met (adm1 0x01) (zIn .impOpen) (fun k s => k.snap.write && decide (nblocks k.cmd ≤ 512) && !s.m.sparesOut && s.m.thm == 0 && (match nsFor? k.cmd.fn k.cmd.nsid s with | some n => !n.conv && n.piType == 0 && decide (slbaOf k.cmd + nblocks k.cmd ≤ n.nsze) | none => false) && zq s (fun q => !q.comp && !q.sealF && q.st.isOpen && 2 * 0 == q.wp && decide (0 + nblocks k.cmd ≤ zcapLbas s.fl.geom)))) ∧
    (met { adm1 0x01 with cdw10 := 1048575 } (withZone { zone0 with wp := 2 * 1048575 }) (fun k s => k.snap.write && decide (nblocks k.cmd ≤ 512) && !s.m.sparesOut && s.m.thm == 0 && (match nsFor? k.cmd.fn k.cmd.nsid s with | some n => !n.conv && n.piType == 0 && decide (slbaOf k.cmd + nblocks k.cmd ≤ n.nsze) | none => false) && zq s (fun q => !q.comp && !q.sealF && q.st.isOpen && 2 * 1048575 == q.wp && decide (1048575 + nblocks k.cmd ≤ zcapLbas s.fl.geom)))) ∧
    (met { adm1 0x7D with cdw12 := 511 } (withZone { zone0 with wp := 2 * (1048576 - 512) }) (fun k s => k.snap.write && decide (nblocks k.cmd ≤ 512) && !s.m.sparesOut && s.m.thm == 0 && (match nsFor? k.cmd.fn k.cmd.nsid s with | some n => !n.conv && n.piType == 0 && decide (slbaOf k.cmd + nblocks k.cmd ≤ n.nsze) | none => false) && zq s (fun q => !q.comp && !q.sealF && q.wp % 2 == 0 && decide (q.wp / 2 + nblocks k.cmd ≤ zcapLbas s.fl.geom)))) ∧
    (met { adm1 0x01 with cdw10 := 1 } (zIn .expOpen) (fun k s => k.snap.write && decide (nblocks k.cmd ≤ 512) && !s.m.sparesOut && s.m.thm == 0 && (match nsFor? k.cmd.fn k.cmd.nsid s with | some n => !n.conv && n.piType == 0 && decide (slbaOf k.cmd + nblocks k.cmd ≤ n.nsze) | none => false) && zq s (fun q => !q.comp && !q.sealF && 2 * 1 != q.wp && q.st.isOpen))) ∧
    (met (adm1 0x01) (zIn .full) (fun k s => k.snap.write && decide (nblocks k.cmd ≤ 512) && !s.m.sparesOut && s.m.thm == 0 && (match nsFor? k.cmd.fn k.cmd.nsid s with | some n => !n.conv && n.piType == 0 && decide (slbaOf k.cmd + nblocks k.cmd ≤ n.nsze) | none => false) && zq s (fun q => !q.comp && !q.sealF && q.st == .full))) ∧
    (met (adm1 0x01) (zIn .offline) (fun k s => k.snap.write && decide (nblocks k.cmd ≤ 512) && !s.m.sparesOut && s.m.thm == 0 && (match nsFor? k.cmd.fn k.cmd.nsid s with | some n => !n.conv && n.piType == 0 && decide (slbaOf k.cmd + nblocks k.cmd ≤ n.nsze) | none => false) && zq s (fun q => !q.comp && !q.sealF && q.st == .offline))) ∧
    (met { adm1 0x01 with cdw10 := 1048570 } (smallZone) (fun k s => k.snap.write && decide (nblocks k.cmd ≤ 512) && !s.m.sparesOut && s.m.thm == 0 && (match nsFor? k.cmd.fn k.cmd.nsid s with | some n => !n.conv && n.piType == 0 && decide (slbaOf k.cmd + nblocks k.cmd ≤ n.nsze) | none => false) && zq s (fun q => !q.comp && !q.sealF && decide (zcapLbas s.fl.geom < 1048570 + nblocks k.cmd)))) := by
  decide +kernel

/-- RefusedBeforeActing: without write permission; a fused command and a bit bucket; in SANITIZE. -/
theorem witness_RefusedBeforeActing :
    (met { adm1 0x01 with fn := 3 } stallNoWrite (fun k _ => !k.snap.write)) ∧
    ((taken { adm1 0x01 with fuse := 1 } sv).isSome = true ∧ (taken { adm1 0x01 with bitBucket := true } sv).isSome = true) ∧
    ((match taken (adm1 0x01) (inM .sanitize) with | some (k, s1) => k.cmd.fuse == 0 && !k.cmd.bitBucket && s1.m.cur == .sanitize | none => false) = true) := by
  decide +kernel

/-- FlushReadDeallocate: Flush with and without a write before it; a Read in range, too long, past the end, of an Offline zone; a Deallocate of a conventional namespace. -/
theorem witness_FlushReadDeallocate :
    (met (adm1 0x00) (zIn .expOpen) (fun k s => (nsFor? k.cmd.fn k.cmd.nsid s).isSome && !flushBlocked k s)) ∧
    (met (adm1 0x00) withWr (fun k s => (nsFor? k.cmd.fn k.cmd.nsid s).isSome && flushBlocked k s && s.m.thm != 2)) ∧
    (met (adm1 0x00) { withWr with m := { sv.m with thm := 2 } } (fun k s => flushBlocked k s && s.m.thm == 2)) ∧
    (met { adm1 0x02 with cdw12 := 512 } (zIn .full) (fun k s => (nsFor? k.cmd.fn k.cmd.nsid s).isSome && decide (512 < nblocks k.cmd))) ∧
    (met { adm1 0x02 with cdw10 := 1048575, cdw12 := 1 } (zIn .full) (fun k _ => decide (nblocks k.cmd ≤ 512 ∧ ns0.nsze < slbaOf k.cmd + nblocks k.cmd))) ∧
    (met { adm1 0x02 with cdw12 := 511 } (zIn .offline) (fun k s => decide (nblocks k.cmd ≤ 512 ∧ slbaOf k.cmd + nblocks k.cmd ≤ ns0.nsze) && offlineIn (zonesOf ns0 (slbaOf k.cmd) (nblocks k.cmd)) s)) ∧
    (met { adm1 0x02 with cdw10 := 1048575 } (zIn .full) (fun k s => !offlineIn (zonesOf ns0 (slbaOf k.cmd) (nblocks k.cmd)) s && sealedOut (zonesOf ns0 (slbaOf k.cmd) (nblocks k.cmd)) s == none)) ∧
    (met (adm1 0x09) convNs (fun k _ => !bit k.cmd.cdw11.toNat 2)) ∧
    (met { adm1 0x09 with cdw11 := 4 } convNs (fun k s => bit k.cmd.cdw11.toNat 2 && k.snap.write && modeStatus s == none && (dsmRanges k.cmd []).all (fun r => decide (r.1 + r.2 ≤ ns0.nsze)))) := by
  decide +kernel

/-- SanitizeAndFormat: a physical function outside and inside SANITIZE; Format of a zoned namespace; a sanitize to its end. -/
theorem witness_SanitizeAndFormat :
    (met (adm 0x84) sv (fun k s => isPf k.cmd.fn && s.m.cur != .sanitize)) ∧
    ((match taken (adm 0x84) (inM .sanitize) with | some (k, s1) => isPf k.cmd.fn && k.cmd.fuse == 0 && s1.m.cur == .sanitize | none => false) = true) ∧
    (met (adm 0x80) (zIn .full) (fun k s => (match nsAt? k.cmd.nsid s with | some x => !x.conv | none => false) && decide (k.cmd.nsid ≠ 0xFFFFFFFF ∧ bits k.cmd.cdw10.toNat 11 9 = 0 ∧ bits k.cmd.cdw10.toNat 3 0 + 16 * bits k.cmd.cdw10.toNat 13 12 ≤ 3) && !s.m.sparesOut)) ∧
    ((let s := { inM .sanitize with zn := { sv.zn with sanit := 1 } }; s.m.cur = .sanitize ∧ s.zn.sanit ≠ 0 ∧ ¬(s.zn.sanit = 1 ∧ s.m.thm = 2))) ∧
    ((let s := { inM .sanitize with zn := { sv.zn with sanit := 2 }, m := { (inM .sanitize).m with thm := 2 } }; s.zn.sanit ≠ 0 ∧ ¬(s.zn.sanit = 1 ∧ s.m.thm = 2))) := by
  decide +kernel

/-- NamespaceCommands: Delete of an inactive and an active namespace and of one that is not there; Attachment; another function. -/
theorem witness_NamespaceCommands :
    (met (adm 0x0D 1) (zIn .full) (fun k s => k.cmd.fn == 0 && (nsAt? k.cmd.nsid s).isSome && !nsActive k.cmd.nsid s && decide (k.cmd.nsid ≠ 0xFFFFFFFF))) ∧
    (met (adm 0x0D 1) (zIn .closed) (fun k s => nsActive k.cmd.nsid s)) ∧
    (met (adm 0x0D 1) sv (fun k s => (nsAt? k.cmd.nsid s).isNone)) ∧
    (met (adm 0x15) (withNs { ns0 with attached := [] }) (fun k s => (nsAt? k.cmd.nsid s).isSome && bits k.cmd.cdw10.toNat 3 0 == 0 && ctlList [1, 0, 1, 0] == [0] && fnPresent 0 s)) ∧
    (met { adm 0x0D with fn := 3 } stallOn (fun k _ => k.cmd.fn != 0)) := by
  decide +kernel

/-- ZoneEvents: a reservation left short; a Scrubbing Reset to its end and past its break; a Scrubbing Reset of an open zone. -/
theorem witness_ZoneEvents :
    ((let s := zIn .closed; zq s (fun q => q.st.active && q.activeRes && decide (unitsLeft q s < zoneUnits s.fl.geom)) = true)) ∧
    ((let s := { sv with zn := { sv.zn with scrubs := [⟨0, none, [], 0, 0, false, 0⟩] } }; s.zn.scrubs.find? (fun c => c.zone == 0) = some ⟨0, none, [], 0, 0, false, 0⟩)) ∧
    (met { adm1 0x79 with cdw13 := 4, cdw14 := 1 } (zIn .expOpen) (fun k s => sends k s 0 && k.snap.scrub && zq s (fun q => q.st != .offline))) := by
  decide +kernel

/-- IdentifyReportsZoneLimits: an attached zoned namespace. -/
theorem witness_IdentifyReportsZoneLimits :
    (met { adm 0x06 0x05 with cdw11 := 0x02000000 } (zIn .empty) (fun k s => cnsOf k.cmd == 0x05 && bits k.cmd.cdw11.toNat 31 24 == 2 && decide (1 ≤ k.cmd.nsid ∧ k.cmd.nsid ≤ 128) && (match nsAt? k.cmd.nsid s with | some n => n.attached.contains k.cmd.fn && !n.conv | none => false))) := by
  decide +kernel

/-- DoorbellsAndFetch: a doorbell at the bounds of its queue, of a queue that is not there; a waiting entry; none. -/
theorem witness_DoorbellsAndFetch :
    (fnPresent 0 sv = true ∧ (Tbl.get? (fnOf 0 sv).sqs 1).map (·.size) = some 64 ∧ 63 < 64 ∧ 64 ≤ 64 ∧ Tbl.get? (fnOf 0 sv).sqs 2 = none ∧ (Tbl.get? (fnOf 0 sv).cqs 1).map (·.held) = some []) ∧
    ((let s := { sv with q := { sv.q with fns := [(0, { fnUp with sqs := [(1, ⟨64, 0, 63, 0, 1, 0⟩)] })] } }; (allFns s).any (fun f => waiting f s && !ctxFree f s) = false ∧ (slotPick s).map (fun x => (x.1, x.2.1)) = some (0, 1))) ∧
    ((allFns sv).any (fun f => waiting f sv && !ctxFree f sv) = false ∧ slotPick sv = none) := by
  decide +kernel

/-- ControllersStartAndStop: CC values that are allowed and refused; an enabled function; the last one to shut down and another. -/
theorem witness_ControllersStartAndStop :
    ((let s := inM .service; let s := { s with q := Qs.dflt }; fnPresent 0 s = true ∧ s.m.cur ≠ .fwActivate ∧ (fnOf 0 s).en = false ∧ bit (0x460001 : Dword).toNat 0 = true ∧ bits (0x460001 : Dword).toNat 15 14 = 0 ∧ enableFault (putCc 0x460001 { fnOf 0 s with asqs := 1, acqs := 1 }) = none ∧ enableFault (putCc 0x460001 (fnOf 0 s)) = some 6)) ∧
    ((fnOf 0 sv).en = true ∧ (fnOf 0 sv).shst = 0 ∧ 1 % 4 ≠ 0 ∧ (∀ p ∈ sv.q.fns, p.1 = 0 ∨ p.2.en = false ∨ p.2.shst = 2)) ∧
    ((let s := { sv with q := { sv.q with fns := [(0, { fnUp with shst := 1 })] } }; (fnOf 0 s).shst = 1 ∧ writesDone 0 s = true ∧ othersShut 0 s = true ∧ useBytes s = 0 ∧ s.m.thm ≠ 2)) ∧
    ((let s := { stallOn with q := { sv.q with fns := [(0, { fnUp with shst := 1 }), (3, fnUp)] } }; (fnOf 0 s).shst = 1 ∧ othersShut 0 s = false)) := by
  decide +kernel

/-- QueueCommands: a queue at its bounds, one that is not there, one with a submission queue attached; coalesced entries; each wait of a failed transfer. -/
theorem witness_QueueCommands :
    (met { adm 0x01 0x00010002 0x00010001 with dptr := 4096 } sv (fun k s => decide (k.cmd.dptr % 2 ^ (12 + (fnOf k.cmd.fn s).mps) = 0 ∧ qidOf k.cmd ≠ 0 ∧ qidOf k.cmd < pairsOf k.cmd.fn s ∧ qsizeOf k.cmd ≠ 0 ∧ Tbl.get? (fnOf k.cmd.fn s).sqs (qidOf k.cmd) = none) && bit k.cmd.cdw11.toNat 0 && bits k.cmd.cdw11.toNat 31 16 == 1 && (Tbl.get? (fnOf k.cmd.fn s).cqs 1).isSome)) ∧
    (met (adm 0x05 0x00010002 0x00000001) sv (fun k s => decide (Tbl.get? (fnOf k.cmd.fn s).cqs (qidOf k.cmd) = none ∧ bits k.cmd.cdw11.toNat 31 16 < vectorsOf k.cmd.fn s))) ∧
    (met (adm 0x01 0x00010040) sv (fun k s => decide (pairsOf k.cmd.fn s ≤ qidOf k.cmd))) ∧
    (met (adm 0x01) sv (fun k _ => qidOf k.cmd == 0)) ∧
    (met (adm 0x04 1) sv (fun k s => (Tbl.get? (fnOf k.cmd.fn s).cqs 1).isSome && (fnOf k.cmd.fn s).sqs.any (fun x => x.1 != 0 && x.2.cq == qidOf k.cmd))) ∧
    (met (adm 0x04 1) { sv with q := { sv.q with fns := [(0, { fnUp with sqs := [(0, ⟨64, 0, 0, 0, 0, 0⟩)] })] } } (fun k s => (Tbl.get? (fnOf k.cmd.fn s).cqs 1).isSome && (fnOf k.cmd.fn s).sqs.all (fun x => x.1 == 0 || x.2.cq != qidOf k.cmd))) ∧
    (met (adm 0x00 1) sv (fun k s => sqLive k.cmd.fn (qidOf k.cmd) s && ((ctxsOf k.cmd.fn s).filter (fun x => x.cmd.sqid == qidOf k.cmd && undispatched x s)).isEmpty)) ∧
    (met (adm 0x00 2) sv (fun k s => !sqLive k.cmd.fn (qidOf k.cmd) s)) ∧
    ((let n := { fnUp with cqs := [(1, ⟨64, 0, 0, 0, true, 0, true, [], 1⟩)], msixTab := [(3, 0)] }; let s := { sv with q := { sv.q with fns := [(0, n)] } }; (fnOf 0 s).cqs.any (fun q => q.1 != 0 && q.2.iv == 0 && decide (0 < q.2.coal) && q.2.ien) = true ∧ vecMasked (fnOf 0 s) 0 = false)) ∧
    ((ctxNamed 0 1 1 (waits .halfHitch)).map (·.wait) = some .halfHitch ∧ (ctxNamed 0 1 1 (waits (.read 2))).map (·.wait) = some (.read 2) ∧ (ctxNamed 0 1 1 (waits .hhRead)).map (·.wait) = some .hhRead ∧ (ctxNamed 0 1 1 (waits (.gather 4))).map (·.wait) = some (.gather 4)) ∧
    ((let x := { wr with ready := false, owner := convOwner }; let s := { waits (.write 1) with zn := { sv.zn with wrs := [x] } }; (ctxNamed 0 1 1 s).map (·.wait) = some (.write 1) ∧ wrAt 1 s = some x ∧ x.ready = false ∧ x.discarded = false)) ∧
    ((let x := { wr with ready := false, discarded := true }; let s := { waits (.write 1) with zn := { sv.zn with wrs := [x] } }; wrAt 1 s = some x ∧ x.ready = false ∧ x.discarded = true)) := by
  decide +kernel

/-- SetFeatures: a request to save and one not to; WT set; I/O queues and none; each field at its bound. -/
theorem witness_SetFeatures :
    (met (adm 0x09 0x80000001) sv (fun k _ => svOf k.cmd)) ∧
    (met (adm 0x09 0x01) sv (fun k _ => !svOf k.cmd)) ∧
    (met (adm 0x09 0x06 1) { sv with m := { sv.m with wt := true } } (fun k s => s.m.wt && bit k.cmd.cdw11.toNat 0)) ∧
    (met (adm 0x09 0x07) sv (fun k s => hasIoQ k.cmd.fn s)) ∧
    (met (adm 0x09 0x07) noIoQ (fun k s => !hasIoQ k.cmd.fn s)) ∧
    (met (adm 0x09 0x09 63) sv (fun k s => decide (bits k.cmd.cdw11.toNat 15 0 < vectorsOf k.cmd.fn s))) ∧
    (met (adm 0x09 0xC0 3) noIoQ (fun k s => decide (1 ≤ bits k.cmd.cdw11.toNat 7 0 ∧ bits k.cmd.cdw11.toNat 7 0 ≤ 3) && (fnOf k.cmd.fn s).sqs.all (fun q => q.1 == 0))) ∧
    (met (adm 0x09 0xC0 4) sv (fun k _ => decide (3 < bits k.cmd.cdw11.toNat 7 0))) ∧
    (met (adm 0x09 0x02 4) sv (fun k _ => decide (bits k.cmd.cdw11.toNat 4 0 ≤ 4))) ∧
    (met (adm 0x09 0x09 0xFFFF) sv (fun k s => decide (vectorsOf k.cmd.fn s ≤ bits k.cmd.cdw11.toNat 15 0))) ∧
    (met (adm 0x09 0x02 5) sv (fun k _ => decide (4 < bits k.cmd.cdw11.toNat 4 0))) ∧
    (met (adm 0x09 0x04 0xF0190) sv (fun k _ => decide (bits k.cmd.cdw11.toNat 19 16 = 15 ∧ bits k.cmd.cdw11.toNat 21 20 ≤ 1))) ∧
    ((List.range 32).all (fun i => decide (bits (numAt [] (8 * i) 8) 7 3 ≤ 4)) = true) ∧
    (met (adm 0x09 0x04 0x180190) sv (fun k _ => decide (bits k.cmd.cdw11.toNat 19 16 ≤ 8 ∧ bits k.cmd.cdw11.toNat 21 20 ≤ 1))) := by
  decide +kernel

/-- AdminAnswers: an Identify that answers and one that does not; a page at its end; a physical function and a stall; a root; each SEL. -/
theorem witness_AdminAnswers :
    (met (adm 0x06 0x01) sv (fun k s => cnsOf k.cmd == 0x01 && (match identifyData k.cmd s with | .inl _ => true | .inr _ => false))) ∧
    (met (adm 0x06 0x05 0x01000000) sv (fun k s => match identifyData k.cmd s with | .inr e => e == 2 | .inl _ => false)) ∧
    (met (adm 0x02 0x007F0002) sv (fun k s => lidOf k.cmd == 0x02 && logOff k.cmd % 4 == 0 && decide (logLen k.cmd ≤ 2097152 ∧ logOff k.cmd + logLen k.cmd ≤ (smartPage k.cmd.fn s).length))) ∧
    (met (adm 0x02 0x05) sv (fun k _ => decide (lidOf k.cmd ∉ [0x00, 0x01, 0x02, 0x03, 0x04, 0x81, 0xBF, 0xD3, 0xD5, 0xD7]))) ∧
    (met (adm 0x02 0x000F00D7) sv (fun k _ => isPf k.cmd.fn && logOff k.cmd % 4 == 0 && decide (logOff k.cmd + logLen k.cmd ≤ 64))) ∧
    (met { adm 0x02 0xD7 with fn := 3 } stallOn (fun k _ => !isPf k.cmd.fn)) ∧
    (met (adm 0x02 0x00FF00D3) rootS (fun k s => isRoot s && decide (logOff k.cmd + logLen k.cmd ≤ 1024))) ∧
    (met (adm 0x0A 0x01) sv (fun k s => selOf k.cmd == 0 && (featOf k.cmd false s).isSome)) ∧
    (met (adm 0x0A 0x101) sv (fun k s => selOf k.cmd == 1 && (featOf k.cmd true s).isSome)) ∧
    (met (adm 0x0A 0x301) sv (fun k s => selOf k.cmd == 3 && (featOf k.cmd false s).isSome)) ∧
    (met (adm 0x09) sv (fun k _ => k.cmd.sqid == 0 && k.cmd.opc == 0x09)) ∧
    (met (adm1 0x09) convNs (fun k _ => k.cmd.sqid != 0)) := by
  decide +kernel

/-- EventsAndAborts: seven and eight requests waiting; four Aborts outstanding; the Owner PF aborting a command not dispatched and none. -/
theorem witness_EventsAndAborts :
    (met (adm 0x0C) (aers 7) (fun k s => decide (((ctxsOf k.cmd.fn s).filter (fun x => x.wait == .aer)).length < 8) && s.q.pendAen.isEmpty)) ∧
    (met (adm 0x0C) (aers 8) (fun k s => decide (8 ≤ ((ctxsOf k.cmd.fn s).filter (fun x => x.wait == .aer)).length))) ∧
    (met (adm 0x08) (abortsN 4) (fun k s => decide (4 ≤ abortsOut k s))) ∧
    (met { adm 0x08 with fn := 3 } stallOn (fun k s => decide (abortsOut k s < 4 ∧ k.cmd.fn ≠ 0))) ∧
    (met (adm 0x08 0x00010001) (waits .flush) (fun k s => decide (abortsOut k s < 4) && (s.q.ctxs.find? (fun x => x.seq != k.seq && ctxKey x 0 1 1 && undispatched x s)).isSome)) ∧
    (met (adm 0x08 0x00010001) sv (fun k s => decide (abortsOut k s < 4) && (s.q.ctxs.filter (fun x => x.seq != k.seq && ctxKey x 0 1 1)).isEmpty)) := by
  decide +kernel

/-- FirmwareUpdates: the last part of an image and one that overlaps; a whole image and none; a held slot; a check waiting; an activation going on. -/
theorem witness_FirmwareUpdates :
    (met (adm 0x11 0x1FFF 0x3FE000) sv (fun k _ => k.cmd.fn == 0 && decide ((k.cmd.cdw10.toNat + 1) * 4 % 32768 = 0 ∧ k.cmd.cdw11.toNat * 4 % 32768 = 0 ∧ k.cmd.cdw11.toNat * 4 + (k.cmd.cdw10.toNat + 1) * 4 ≤ 16777216))) ∧
    (met (adm 0x11 0x1FFF 0) (fwS [(0, 32768)] none) (fun _ s => s.q.fw.parts.any (fun p => decide (0 < p.1 + p.2 ∧ p.1 < 0 + 32768)))) ∧
    (met (adm 0x10 0x02) (fwS [(0, 32768)] none) (fun k s => bits k.cmd.cdw10.toNat 5 3 == 0 && decide (bits k.cmd.cdw10.toNat 2 0 ≤ 2) && s.q.fw.act == none && s.q.fw.commit.isEmpty && imageWhole s.q.fw.parts)) ∧
    (met (adm 0x10 0x08) (fwS [(0, 32768)] none) (fun k s => bits k.cmd.cdw10.toNat 5 3 == 1 && decide (bits k.cmd.cdw10.toNat 2 0 ≤ 2) && s.q.fw.act == none && s.q.fw.commit.isEmpty && imageWhole s.q.fw.parts)) ∧
    (met (adm 0x10 0x19) (fwS [(0, 32768)] none) (fun k s => bits k.cmd.cdw10.toNat 5 3 == 3 && decide (bits k.cmd.cdw10.toNat 2 0 ≤ 2) && s.q.fw.act == none && s.q.fw.commit.isEmpty && imageWhole s.q.fw.parts)) ∧
    (met (adm 0x10 0x02) sv (fun k s => bits k.cmd.cdw10.toNat 5 3 == 0 && s.q.fw.commit.isEmpty && !imageWhole s.q.fw.parts)) ∧
    (met (adm 0x10 0x08) sv (fun k s => bits k.cmd.cdw10.toNat 5 3 == 1 && s.q.fw.commit.isEmpty && !imageWhole s.q.fw.parts)) ∧
    (met (adm 0x10 0x19) sv (fun k s => bits k.cmd.cdw10.toNat 5 3 == 3 && s.q.fw.commit.isEmpty && !imageWhole s.q.fw.parts)) ∧
    (met (adm 0x10 0x11) sv (fun k s => bits k.cmd.cdw10.toNat 5 3 == 2 && (nth s.q.fw.slots (1 - 1) ⟨false, 0⟩).held)) ∧
    ((let s := { waits .fwCommit with q := { (waits .fwCommit).q with fw := { Fw.dflt with commit := [(7, 2, 3)] } } }; s.q.fw.commit = [(7, 2, 3)] ∧ (ctxAt 7 s).isSome = true ∧ s.m.cur.isBase = true ∧ s.m.cur ≠ .sanitize)) ∧
    ((inM .sanitize).m.cur = .sanitize) ∧
    ((let s := { fwS [] (some (7, 2, 0)) with m := { ModeS.dflt with cur := .fwActivate } }; s.q.fw.act = some (7, 2, 0) ∧ s.m.cur = .fwActivate ∧ s.m.testPend = false ∧ (∀ p ∈ s.q.fns, p.2.held = []) ∧ Fn.dflt.held = [])) := by
  decide +kernel

/-- GatherReads: permission held and not; a table misaligned and in order; a grant with a bad entry, a total too long, of nothing, of a block; a wait; a lane; elements all good. -/
theorem witness_GatherReads :
    (met { adm1 0x81 with fn := 3 } { stallOn with stl := { stallOn.stl with ents := [(3, { StlEnt.dflt with gather := false })] } } (fun k _ => !k.snap.gather)) ∧
    (met { adm1 0x81 with cdw10 := 8 } (zIn .full) (fun k s => k.snap.gather && (nsFor? k.cmd.fn k.cmd.nsid s).isSome && decide (itabOf k.cmd % 16 ≠ 0))) ∧
    (met { adm1 0x81 with cdw10 := 16 } (zIn .full) (fun k s => itabOf k.cmd % 16 == 0 && bits k.cmd.cdw12.toNat 29 18 == 0 && !bit k.cmd.cdw12.toNat 31 && s.m.cur != .halted)) ∧
    ((let c := { adm1 0x81 with cdw13 := 4096 }; 4095 < c.cdw13.toNat ∧ (some 4096).any (fun n => decide (n < c.cdw13.toNat)) = false)) ∧
    (grant 2 4096 (fun n es s => decide (entsFault n es s = some (0, 2)))) ∧
    (grant 0 4097 (fun n es s => entsFault n es s == none && decide (4096 < entTotal es))) ∧
    (grant 0 0 (fun n es s => entsFault n es s == none && decide (entTotal es = 0))) ∧
    (grant 0 4096 (fun n es s => entsFault n es s == none && decide (entTotal es = 4096) && sealedOut (es.flatMap (entZones n)) s == none)) ∧
    ((ctxNamed 0 1 1 (waits .gatherWait)).map (·.wait) = some .gatherWait) ∧
    ((let s := { sv with ga := { sv.ga with laneWait := [47], chs := [(47, ⟨7, [], 0, false⟩)] } }; 47 < 48 ∧ 47 ∈ s.ga.laneWait ∧ (Tbl.get? s.ga.chs 47).isSome = true)) ∧
    ((let s := { waits (.gather 0) with ga := { sv.ga with chs := [(0, ⟨7, [], 0, false⟩)] }, zn := { sv.zn with nss := [(1, ns0)] }, q := { (waits (.gather 0)).q with ctxs := [{ ctx (.gather 0) with rd := { Rd.none with } }] } }; (match ctxAt 7 s with | some k => k.rd.complete && (gatherOutcome k.cmd.fn k.cmd.nsid ns0 [] k.rd s).1.all (fun e => e.2 == 0) | none => false) = true)) := by
  decide +kernel

/-- MaintenanceChannels: each command in each state it acts in; a transfer that ends short and whole. -/
theorem witness_MaintenanceChannels :
    (15 < 16 ∧ sv.m.cur ≠ .emergencyFlush ∧ sv.m.cur ≠ .halted) ∧
    (bit (0x1 : Dword).toNat 0 = true ∧ gdcBits (0x1 : Dword).toNat = 1 ∧ (gdcAt 15 (gd 0)).state = 0 ∧ (gdcAt 15 (gd 0)).mode = 0 ∧ (gdcAt 15 (gd 0)).cnt ≤ (gdcAt 15 (gd 0)).dlen ∧ (gdcAt 15 (gd 0)).cnt ≠ 0 ∧ (∀ l ∈ (gd 0).ga.lanes, l.1 ≠ 48 + 15)) ∧
    (2 ≤ (gdcAt 15 { gd 4 with ga := { (gd 4).ga with gdc := [(15, { Gdc.dflt with mode := 2, state := 4 })] } }).mode) ∧
    ((let g := gdcAt 15 { gd 5 with ga := { (gd 5).ga with gdc := [(15, { Gdc.dflt with cnt := 5, dlen := 4, state := 5 })] } }; g.mode < 2 ∧ g.dlen < g.cnt ∧ g.state = 5)) ∧
    (bit (0x2 : Dword).toNat 1 = true ∧ gdcBits (0x2 : Dword).toNat = 1 ∧ (gdcAt 15 (gd 1)).state = 1 ∧ (gdcAt 15 (gd 2)).state = 2 ∧ (gdcAt 15 (gd 3)).state = 3) ∧
    (bit (0x4 : Dword).toNat 2 = true ∧ gdcBits (0x4 : Dword).toNat = 1) ∧
    (bit (0x8 : Dword).toNat 3 = true ∧ gdcBits (0x8 : Dword).toNat = 1) ∧
    ((let g := gdcAt 15 (gd 1); copyRead g 4 [(0, zeroBytes 4)] = some (zeroBytes 4, []) ∧ (zeroBytes 4).length = g.cnt ∧ g.desc = 0 ∧ g.linkEnd = true ∧ g.resumePend = false ∧ g.int = false ∧ g.mode = 0)) ∧
    ((let g := gdcAt 15 (gd 1); copyRead g 3 [(0, zeroBytes 4)] = some (zeroBytes 3, []) ∧ (zeroBytes 3).length < g.cnt)) := by
  decide +kernel

/-- HalfHitches: an Append to an open zone at its last position, compressed and not; a Read of each; an acceptance at the end of its zone. -/
theorem witness_HalfHitches :
    (met (adm1 0x8D) (withZone { zone0 with wp := 2 * 1048576 - 1 }) (fun k s => k.snap.write && !hhAppendBad k.cmd && decide (slbaOf k.cmd < ns0.nsze ∧ nblocks k.cmd ≤ 512) && !s.m.sparesOut && s.m.thm == 0 && zq s (fun q => q.st.isOpen && !q.comp && decide (q.wp + nblocks k.cmd ≤ 2 * zcapLbas s.fl.geom)))) ∧
    (met (adm1 0x8D) (withZone { zone0 with comp := true }) (fun k s => !hhAppendBad k.cmd && zq s (fun q => q.st.isOpen && q.comp && !sealDenied 0 q s))) ∧
    (met { adm1 0x8E with cdw10 := 2097151 } (zIn .full) (fun k s => !hhReadBad k.cmd && decide (nblocks k.cmd ≤ 512 ∧ slbaOf k.cmd / 2 < ns0.nsze) && ns0.zones[slbaOf k.cmd / 2 ^ 21]? == some 0 && zq s (fun q => !q.comp))) ∧
    (met (adm1 0x8E) (withZone { zone0 with comp := true, st := .offline }) (fun _ s => zq s (fun q => q.comp && q.st == .offline))) ∧
    (met (adm1 0x8E) (withZone { zone0 with comp := true }) (fun _ s => zq s (fun q => q.comp && q.st != .offline && !sealDenied 0 q s))) ∧
    ((let s := { waits .halfHitch with zn := { sv.zn with nss := [(1, ns0)] } }; (ctxNamed 0 1 1 s).map (·.wait) = some .halfHitch ∧ nsAt? 1 s = some ns0 ∧ s.m.cur ≠ .emergencyFlush ∧ s.m.cur ≠ .halted)) ∧
    ((let s := withZone { zone0 with wp := 2 * 1048576 }; zoneOfLba ns0 (slbaOf (ctx .halfHitch).cmd) = some (0, 0) ∧ s.m.cur ≠ .sanitize ∧ s.m.sparesOut = false ∧ s.m.thm = 0 ∧ zq s (fun q => q.st.isOpen && decide (2 * zcapLbas s.fl.geom < q.wp + 1)) = true)) := by
  decide +kernel

/-- KeysAndCheckValues: the last bytes of a slot and earlier ones, a key and zeros; a unit; Seal Zone of each zone. -/
theorem witness_KeysAndCheckValues :
    (7 < keySlots 0 sv ∧ 24 + (zeroBytes 8).length ≤ 32 ∧ 24 + (zeroBytes 8).length = 32 ∧ 24 % 8 = 0 ∧ 20 + (zeroBytes 4).length < 32 ∧ (List.range 32).map (fun j => Tbl.getD (((zeroBytes 8).zipIdx).foldl (fun t b => Tbl.put t (24 + b.2) b.1) ([] : Tbl Byte)) j 0) = zeroBytes 32) ∧
    ((List.range 32).map (fun j => Tbl.getD ((([1, 0, 0, 0, 0, 0, 0, 0] : List Byte).zipIdx).foldl (fun t b => Tbl.put t (24 + b.2) b.1) ([] : Tbl Byte)) j 0) ≠ zeroBytes 32) ∧
    (cvuOf? 0 15 sv = some 15 ∧ cvuOf? 3 1 stallOn = some 23 ∧ bit (0x20 : Dword).toNat 5 = true ∧ cvuSrc 15 sv ≠ 5) ∧
    ((let s := { sv with ci := { sv.ci with cvus := [(15, { Cvu.dflt 0 with src := 5 })] } }; cvuSrc 15 s = 5)) ∧
    (met (adm1 0x8A) (zIn .full) (fun k s => k.snap.write && k.snap.sealP && decide (k.cmd.cdw12.toNat + k.cmd.cdw13.toNat + k.cmd.cdw14.toNat + k.cmd.cdw15.toNat = 0 ∧ slbaOf k.cmd < ns0.nsze ∧ slbaOf k.cmd % 2 ^ 20 = 0) && zq s (fun q => !q.sealF))) ∧
    (met (adm1 0x8A) (withZone { zone0 with sealF := true, st := .empty }) (fun _ s => zq s (fun q => q.sealF && q.st == .empty))) ∧
    ((let s := withZone { zone0 with sealF := true, st := .full }; let s := { s with ci := { s.ci with keys := [(0, zeroBytes 31 ++ [1])], bind := [(0, ⟨0, 0, kcvOf (zeroBytes 31 ++ [1]), none⟩)] } }; met (adm1 0x8A) s (fun _ s => s.m.thm != 2 && zq s (fun q => q.sealF && q.st == .full && !sealDenied 0 q s))) = true) := by
  decide +kernel

/-- StallsAppearAndResources: VF Enable clear and set; a stall Offline and Online; resources at their bounds and past them. -/
theorem witness_StallsAppearAndResources :
    (sv.stl.vfEnable = false) ∧
    (stallOn.stl.vfEnable = true ∧ isStall 3 = true ∧ fnPresent 3 stallOn = true ∧ stallOn.m.cur ≠ .fwActivate) ∧
    (met { adm 0x1C 0x00040007 with fn := 3 } stallOn (fun k _ => k.cmd.fn != 0)) ∧
    (met (adm 0x1C 0x00040007 513) offStall (fun k s => k.cmd.fn == 0 && decide (bits k.cmd.cdw10.toNat 31 16 ≠ 0 ∧ bits k.cmd.cdw10.toNat 10 8 < 2 ∧ bits k.cmd.cdw11.toNat 15 0 ≤ 513 ∧ bits k.cmd.cdw11.toNat 15 0 ≤ flexLeft (vmFn k.cmd) false s) && isStall (vmFn k.cmd) && fnPresent (vmFn k.cmd) s && !(fnOf (vmFn k.cmd) s).online)) ∧
    (met (adm 0x1C 0x00040009) stallOn (fun k s => decide (2 ≤ (fnOf (vmFn k.cmd) s).vq ∧ 1 ≤ (fnOf (vmFn k.cmd) s).vi))) ∧
    (met (adm 0x1C 0x00040009) offStall (fun k s => decide ((fnOf (vmFn k.cmd) s).vq < 2))) ∧
    (met { adm 0xC2 3 with fn := 3 } stallOn (fun k _ => k.cmd.fn != 0)) ∧
    (met (adm 0xC2 3 1) stallOn (fun k s => k.cmd.fn == 0 && !stallBusy 3 k s && bits k.cmd.cdw10.toNat 31 11 == 0 && bits k.cmd.cdw11.toNat 31 5 == 0 && fnPresent (stlFn k.cmd) s && isStall (stlFn k.cmd) && srRanges 1 [] && !srRanges 1 [1] && decide (sumQ s - (slkOf 3 s).quotaKiB + numAt [] 0 4 ≤ sKiB s))) ∧
    (met (adm 0xC2 3 8) stallOn (fun k s => srRanges 8 (zeroBytes 16 ++ [8]) && !srRanges 8 (zeroBytes 16 ++ [9]) && (fnOf (stlFn k.cmd) s).online)) ∧
    (met (adm 0xC2 3 24) offStall (fun k s => srRanges 24 (zeroBytes 16 ++ [8, 2]) && !(fnOf (stlFn k.cmd) s).online)) := by
  decide +kernel

/-- StallFreezesAndMoves: a quiet stall and one with a command left; a frozen one; a waiting Freeze; a save and a restore with a key. -/
theorem witness_StallFreezesAndMoves :
    (met (adm 0xC4 3) stallOn (fun k s => isPf k.cmd.fn && !stallBusy (stlFn k.cmd) k s && isStall (stlFn k.cmd) && fnPresent (stlFn k.cmd) s && quiet (stlFn k.cmd) s && !frozen (stlFn k.cmd) s)) ∧
    (met (adm 0xC4 3) (leftS (.read 1)) (fun k s => !quiet (stlFn k.cmd) s && ((ctxsOf (stlFn k.cmd) s).filter (fun x => undispatched x s)).isEmpty)) ∧
    (met (adm 0xC4 0x80000003) (frozenS true) (fun k s => frozen (stlFn k.cmd) s)) ∧
    ((let s := waits (.freeze 3); s.q.ctxs.all (fun x => x.wait != .stallQ 3) = true ∧ (s.q.ctxs.filter (fun x => x.wait == .freeze 3)).length = 1 ∧ quiet 3 s = true)) ∧
    ((let s := leftS (.read 1); let s := { s with q := { s.q with ctxs := s.q.ctxs ++ [{ ctx (.freeze 3) with cmd := adm 0xC4 3 5 }] } }; (s.q.ctxs.filter (fun x => x.wait == .freeze 3)).length = 1 ∧ quiet 3 s = false ∧ bits (adm 0xC4 3 5).cdw11.toNat 15 0 ≠ 0)) ∧
    (met { adm 0xC5 3 with cdw12 := 432 } (frozenS true) (fun k s => quiet (stlFn k.cmd) s && (keyAt? k.cmd.fn (bits k.cmd.cdw11.toNat 2 0) s).isSome && decide (336 + 48 * blobNq (fnOf (stlFn k.cmd) s) ≤ k.cmd.cdw12.toNat))) ∧
    (met { adm 0xC5 3 with cdw12 := 431 } (frozenS true) (fun k s => decide (k.cmd.cdw12.toNat < 336 + 48 * blobNq (fnOf (stlFn k.cmd) s)))) ∧
    (met { adm 0xC6 3 with cdw12 := 432 } (frozenS false) (fun k s => frozen (stlFn k.cmd) s && (fnOf 3 s).online && !(fnOf 3 s).en && (fnOf 3 s).sqs.isEmpty && (fnOf 3 s).cqs.isEmpty && (keyAt? k.cmd.fn (bits k.cmd.cdw11.toNat 2 0) s).isSome)) ∧
    (met (adm 0xC6 3) offStall (fun k s => !(fnOf (stlFn k.cmd) s).online)) := by
  decide +kernel

/-- BeatOfAParticipant: the last turn of an epoch; a good header and a bad one; in lock at each count of bad ones; out of lock with a cap. -/
theorem witness_BeatOfAParticipant :
    ((let s := { sv with tm := { sv.tm with turn := 999 } }; s.tm.turn = 999 ∧ s.cad.epochReq = none)) ∧
    (listens part13 = true ∧ isRoot part13 = false) ∧
    ((let h := leBytes 2 0xB4E1 ++ zeroBytes 28; let h := h ++ leBytes 2 (crcOf 0 h); headerOk h = true)) ∧
    (headerOk (zeroBytes 32) = false ∧ locked.cad.lock = true ∧ locked.cad.badRow < 2 ∧ inDepth locked = true ∧ locked.cad.lastSeq ≠ some (255 % 256) ∧ 65535 % 65536 ≠ 0 ∧ locked.m.cur ≠ .retain ∧ locked.m.cur ≠ .halted) ∧
    ((let s := { locked with cad := { locked.cad with badRow := 2, lastSeq := some 7 } }; 2 ≤ s.cad.badRow ∧ s.cad.lastSeq = some (7 % 256))) ∧
    ((let s := { part13 with cad := { part13.cad with lockReady := true } }; listens s = true ∧ s.cad.lockReady = true ∧ s.cad.lock = false)) ∧
    ((let s := { sv with cad := { sv.cad with quiet := 1 } }; s.cad.quiet = 1 ∧ s.cad.quietNext = none)) ∧
    ((let s := { sv with cad := { sv.cad with token := 0 } }; s.cad.lock = false ∧ s.cad.token ≠ 0xFF)) := by
  decide +kernel

/-- CountFollowsTheHeader: a good header of another turn. -/
theorem witness_CountFollowsTheHeader :
    ((let h := leBytes 2 0xB4E1 ++ zeroBytes 7 ++ leBytes 2 999 ++ zeroBytes 19; let h := h ++ leBytes 2 (crcOf 0 h); headerOk h = true ∧ (numAt h 4 5, numAt h 9 2 % 1024) ≠ (part13.tm.epoch, part13.tm.turn) ∧ numAt h 9 2 = 999)) := by
  decide +kernel

/-- PollsAndTraining: each code polled at this address with its CRC-8; another address; 32 chunks and fewer; a hub; a port of the mask with a step that passed and with none. -/
theorem witness_PollsAndTraining :
    ((let s := locked; polled s.img.addr 0 0 (crc8 (pollSlot s.img.addr 0 0)) s = true)) ∧
    ((let s := locked; polled s.img.addr 1 0 (crc8 (pollSlot s.img.addr 1 0)) s = true)) ∧
    ((let s := locked; polled s.img.addr (0x20 + 31) (0xFFFFFFFF : Dword).toNat (crc8 (pollSlot s.img.addr (0x20 + 31) (0xFFFFFFFF : Dword).toNat)) s = true)) ∧
    ((let s := locked; polled s.img.addr 2 5 (crc8 (pollSlot s.img.addr 2 5)) s = true)) ∧
    ((let s := locked; polled s.img.addr 3 0 (crc8 (pollSlot s.img.addr 3 0)) s = true)) ∧
    ((let s := locked; polled s.img.addr 0x1F 0 (crc8 (pollSlot s.img.addr 0x1F 0)) s = true)) ∧
    (5 ≠ locked.img.addr ∧ locked.cad.stage.length ≠ 32) ∧
    ((let s := { locked with cad := { locked.cad with stage := (List.range 32).map (fun i => (i, 0)) } }; polled s.img.addr 2 0 (crc8 (pollSlot s.img.addr 2 0)) s = true ∧ s.cad.stage.length = 32)) ∧
    ((let s := { locked with img := { locked.img with cadHub := true } }; 1023 < 1024 ∧ isRoot s = false ∧ s.img.cadHub = true ∧ listens s = true ∧ s.cad.lock = true ∧ inDepth s = true ∧ s.cad.depth < 3 ∧ 1023 ≠ s.img.addr)) ∧
    ((let s := { locked with img := { locked.img with cadHub := true, downMask := 2 ^ 31 }, cad := { locked.cad with sweepFail := [(31, 1)] } }; s.img.cadEnable = true ∧ s.img.cadHub = true ∧ 31 < 32 ∧ bit s.img.downMask 31 = true ∧ Tbl.getD s.cad.sweepFail 31 0 = 1)) ∧
    ((widestRun ((List.replicate 16 false).take 16)).2 = 0 ∧ (widestRun ((List.replicate 16 true).take 16)).2 = 16) := by
  decide +kernel

/-- TheRoot: answers good and bad; an address that went silent; a delivery timed out; a schedule; a command while one is repeated and while none is. -/
theorem witness_TheRoot :
    (isRoot rootS = true ∧ 1023 < 1024 ∧ rootS.cad.dels = [] ∧ (let w := portWord ([] : List (Nat × BitVec 40)) rootS ||| ownWord rootS.img.addr 0 rootS; upWord (w % 2 ^ 32) = w ∧ bit w 0 = true)) ∧
    ((let w := portWord ([] : List (Nat × BitVec 40)) rootS ||| ownWord 5 0 rootS; upWord (w % 2 ^ 32) = w) ∧ (let s := { rootS with img := { rootS.img with cadHub := true, downMask := 1 }, cad := { rootS.cad with downLink := 1 } }; let w := portWord [(0, (1 : BitVec 40))] s ||| ownWord 5 0 s; upWord (w % 2 ^ 32) ≠ w ∧ isRoot s = true)) ∧
    ((let s := { rootS with cad := { rootS.cad with parts := [(5, ⟨0, 600, 0, true, false⟩)] } }; (partOf 5 s).present = true ∧ 600 ≤ (partOf 5 s).since)) ∧
    ((let s := { waits .sched with img := rootS.img, cad := { rootS.cad with dels := [⟨7, 5, [], 1, true, [], 0, 1000⟩] } }; isRoot s = true ∧ s.cad.dels = [⟨7, 5, [], 1, true, [], 0, 1000⟩] ∧ (ctxAt 7 s).map (·.wait) = some .sched)) ∧
    (met (adm 0xC8 0x400) rootS (fun k _ => k.cmd.fn == 0 && bits k.cmd.cdw10.toNat 31 11 == 0 && bit k.cmd.cdw10.toNat 10)) ∧
    (met (adm 0xC8 0x800) rootS (fun k _ => decide (bits k.cmd.cdw10.toNat 31 11 ≠ 0))) ∧
    ((let s := { stallOn with img := rootS.img }; isRoot s = true ∧ (taken { adm 0xC8 with fn := 3 } s).isSome = true)) ∧
    (rootS.m.cur ≠ .halted ∧ rootS.m.cur.flushable = true ∧ rootS.m.cur ≠ .test ∧ bit (0x100 : BitVec 64).toNat 8 = true ∧ rootS.cad.sendLeft = 0) ∧
    ((let s := { rootS with cad := { rootS.cad with sendLeft := 1 } }; isRoot s = true ∧ s.cad.sendLeft ≠ 0)) := by
  decide +kernel

/-- PowerLoop: F at both its bounds. -/
theorem witness_PowerLoop :
    (sv.m.cur ≠ .reset ∧ sv.m.cur ≠ .retain ∧ 8 ≤ sv.pw.f ∧ sv.pw.f ≤ 64 ∧ 0 < 1) ∧
    ((let s := { sv with pw := { sv.pw with f := 8 } }; 8 ≤ s.pw.f ∧ s.pw.f ≤ 64)) := by
  decide +kernel

/-- HousekeepingAndSleep: a limit that did not fall; a round in each kind of mode; an idle controller with an entry; a device ready to enter; each block agreeing and not; exits; RETAIN. -/
theorem witness_HousekeepingAndSleep :
    ((let s := { sv with pw := { sv.pw with limSeen := 0 } }; s.m.cur ≠ .reset ∧ s.m.cur ≠ .retain ∧ s.pw.limSeen ≤ pLim s)) ∧
    (sv.m.cur.isBase = true ∧ sv.pw.ps ≠ 4) ∧
    ((let s := { sv with pw := { sv.pw with ps := 3 } }; s.m.cur.wakes = true ∧ s.pw.ps = 3 ∧ s.pw.exiting = false ∧ s.pw.entering = 0 ∧ (s.pw.ps ≤ 3 ∨ s.pw.retLost = false))) ∧
    ((fnOf 0 idleS).en = true ∧ (fnOf 0 idleS).feats.apste = true ∧ ctxsOf 0 idleS = [] ∧ (∀ q ∈ (fnOf 0 idleS).sqs, q.2.head = q.2.tail) ∧ bits (nth (fnOf 0 idleS).feats.apst (fnOf 0 idleS).feats.ps 0) 31 8 ≠ 0 ∧ bits (nth (fnOf 0 idleS).feats.apst (fnOf 0 idleS).feats.ps 0) 7 3 ≠ (fnOf 0 idleS).feats.ps) ∧
    ((let s := { sv with q := { sv.q with fns := [(0, { fnUp with feats := { Feats.dflt with ps := 3 } })] } }; 3 ≤ chosenPs s ∧ s.pw.ps < chosenPs s ∧ s.pw.entering = 0 ∧ s.pw.exiting = false ∧ s.pw.waitRound = false ∧ entryReady s = true)) ∧
    ((let s := { sv with pw := { sv.pw with entering := 3, block := 9 } }; s.pw.entering ≠ 0 ∧ blockAgrees s.pw.block true s = true ∧ s.pw.block < 10 ∧ blockAgrees s.pw.block false s = false)) ∧
    ((let s := { sv with pw := { sv.pw with entering := 3, block := 10 } }; s.pw.block = 10 ∧ s.pw.ps ≠ s.pw.entering ∧ s.pw.entering = 3)) ∧
    ((let s := { sv with pw := { sv.pw with entering := 4, block := 10 } }; s.pw.block = 10 ∧ s.pw.ps ≠ s.pw.entering ∧ s.pw.entering = 4)) ∧
    ((let s := { sv with pw := { sv.pw with exiting := true, ps := 3 } }; s.pw.exiting = true ∧ s.m.cur.wakes = true ∧ s.pw.ps ≠ 4)) ∧
    ((let s := { inM .retain with pw := { sv.pw with exiting := true, ps := 4 } }; s.pw.exiting = true ∧ s.m.cur.wakes = true ∧ s.pw.ps = 4)) ∧
    ((inM .retain).m.cur = .retain ∧ (inM .halted).m.cur = .halted) ∧
    (sv.m.cur ≠ .retain) ∧
    ((let s := { inM .retain with pw := { sv.pw with retLost := true, ps := 4 } }; s.m.cur = .retain ∧ s.pw.ps = 4 ∧ s.pw.retLost = true ∧ s.pw.entering = 0 ∧ s.pw.exiting = false)) := by
  decide +kernel

/-- RegistersReadAndWrite: a 64-bit register by halves, its high half latched; an absent function. -/
theorem witness_RegistersReadAndWrite :
    (fnPresent 0 sv = true ∧ (regAt? 0 0x2010 (touch 0 sv)).isSome = true ∧ (List.range 0x400).any (fun i => match regAt? 0 (0x2000 + 8 * i) sv with | some r => r.off == 0x2000 + 8 * i && r.bytes == 8 | none => false) = true) ∧
    ((let s := { sv with rg := { sv.rg with shadow := [(regKey 0 0x10, 5)] } }; Tbl.get? s.rg.shadow (regKey 0 0x10) = some 5)) ∧
    (isPf 0 = true ∧ 2 ≠ 4 ∧ 2 ≠ 8 ∧ fnPresent 5 sv = false) ∧
    (¬(0x7800 ≤ 0x77FF ∧ 0x77FF < 0x8000) ∧ ¬(0x7800 ≤ 0x8000 ∧ 0x8000 < 0x8000)) := by
  decide +kernel

/-- EventsAreQueuedInCodeOrder: events of an ordinary step and of RETAIN; the dropped count at its top. -/
theorem witness_EventsAreQueuedInCodeOrder :
    ((let e : Ev := ⟨0, 1, 1, [], false, 0⟩; let s := { sv with stb := { sv.stb with raised := [e] } }; (∀ x ∈ s.stb.raised, x.aon = false) ∧ s.stb.dropQueue < 2 ^ 32)) ∧
    ((let e : Ev := ⟨0, 1, 1, [], true, 0⟩; let s := { sv with stb := { sv.stb with raised := [e] } }; ∀ x ∈ s.stb.raised, x.aon = true)) := by
  decide +kernel

/-- StudbookPlacesAndReads: the front event with the ring not loaded, loaded and empty, and with an identical newest record; persistence; each Studbook Read; the last slot. -/
theorem witness_StudbookPlacesAndReads :
    ((let e : Ev := ⟨0, 1, 1, [], false, 0⟩; let s := { sv with stb := { sv.stb with queue := [e], early := List.replicate 63 (recOf e) } }; s.stb.queue = [e] ∧ s.stb.loaded = false ∧ s.stb.early.length < 64)) ∧
    ((let e : Ev := ⟨0, 1, 1, [], false, 0⟩; let s := { sv with stb := { sv.stb with queue := [e], loaded := true } }; s.stb.loaded = true ∧ seqLeft s.stb ≠ 0 ∧ s.stb.early = [] ∧ newestRec s.stb = none ∧ s.stb.ring.length < 32768 ∧ s.stb.ring.rising = true)) ∧
    ((let e : Ev := ⟨0, 1, 1, [], false, 0⟩; let s := { sv with stb := { sv.stb with queue := [e], loaded := true, seqNext := 1, lastUs := some 0, ring := [(0, recOf e)] } }; seqLeft s.stb ≠ 0 ∧ newestRec s.stb = some (0, recOf e) ∧ identicalTo e s.stb (recOf e) = true)) ∧
    ((let s := { sv with stb := { sv.stb with loaded := true } }; mayPersist s = true ∧ s.stb.early = [] ∧ s.m.cur ≠ .emergencyFlush)) ∧
    (met (adm 0xCA) sv (fun k _ => isPf k.cmd.fn && bits k.cmd.cdw11.toNat 31 22 == 0)) ∧
    (met (adm 0xCA 0 0x400000) sv (fun k _ => decide (bits k.cmd.cdw11.toNat 31 22 ≠ 0))) ∧
    (met { adm 0xCA with fn := 3 } stallOn (fun k _ => !isPf k.cmd.fn)) ∧
    (63 < 64) := by
  decide +kernel

/-- TestPort: TEST and other modes; instructions listed and not; the key and another word; each start of a test and its end. -/
theorem witness_TestPort :
    ((inM .test).m.cur = .test) ∧
    (sv.m.cur ≠ .test ∧ 0x50 % 256 ∉ listedIr ∧ 0x7E56 % 65536 ≠ 0x7E57) ∧
    ((inM .halted).m.cur = .halted) ∧
    (State.reset.m.cur.isStart = true ∧ State.reset.m.thm ≠ 2) ∧
    (sv.m.cur.isBase = true ∧ sv.m.drain = .none ∧ sv.m.thm ≠ 2 ∧ sv.slk.phase ≠ .pulse) ∧
    ((inM .fwActivate).m.cur = .fwActivate ∧ (inM .fwActivate).m.thm ≠ 2) ∧
    ((draining .testPort).m.drain = .testPort ∧ useBytes (draining .testPort) = 0 ∧ (draining .testPort).m.thm ≠ 2 ∧ (draining .testPort).m.cur ≠ .test) ∧
    ((let s := inM .test; bit 0x47 6 = true ∧ s.ts.mbStart = false ∧ s.ts.mbBusy = false ∧ bits 0x47 8 7 ≠ 3 ∧ (bits 0x44 2 0 ≤ s.part.sheds ∧ bits 0x47 2 0 = 7))) ∧
    ((let s := inM .test; bit 0x1003F 16 = true ∧ s.ts.fpStart = false ∧ s.ts.fpBusy = false ∧ bits 0x1003F 15 14 = 0 ∧ (bit 0x10040 6 = true ∧ bits 0x1003F 5 0 < s.part.channels))) ∧
    ((let s := { inM .test with ts := { sv.ts with mbBusy := true } }; s.ts.mbBusy = true)) ∧
    ((let s := { inM .test with ts := { sv.ts with fpBusy := true } }; s.ts.fpBusy = true)) ∧
    (2 ^ 32 - 1 < 2 ^ 32) := by
  decide +kernel

/-- FramesOutsideStorage: a command that reaches neither the zones nor the flash, and a register access. -/
theorem witness_FramesOutsideStorage :
    (Comp.zn ∉ mayChange .huOkRise ∧ Comp.fl ∉ mayChange .huOkRise ∧ accesses .huOkRise = false) ∧
    (Comp.zn ∉ mayChange (.pwrMeasRead 0) ∧ Comp.fl ∉ mayChange (.pwrMeasRead 0) ∧ accesses (.pwrMeasRead 0) = true ∧ (sv.pw.ps ≤ 3 ∨ sv.pw.retLost = false)) := by
  decide +kernel

/-- FramesOfStorage: a command of the zones and one of the flash. -/
theorem witness_FramesOfStorage :
    ((Comp.zn ∈ mayChange (.scrubComplete 0) ∨ Comp.fl ∈ mayChange (.scrubComplete 0)) ∧ Comp.m ∉ mayChange (.scrubComplete 0) ∧ accesses (.scrubComplete 0) = false) ∧
    (Comp.fl ∈ mayChange (.eyePass 0 80) ∧ Comp.m ∉ mayChange (.eyePass 0 80) ∧ accesses (.eyePass 0 80) = false) := by
  decide +kernel

/-- FramesOfModeChanges: a command that reaches both. -/
theorem witness_FramesOfModeChanges :
    ((Comp.zn ∈ mayChange .powerOn ∨ Comp.fl ∈ mayChange .powerOn) ∧ Comp.m ∈ mayChange .powerOn ∧ accesses .powerOn = false) := by
  decide +kernel

/-- GarbageAndYardWork: a busy turn with a full conventional Pen and a valid unit of it; READ_ONLY and THM = 0b10; each Yard in a turn its work may run in; a Pen with and without data. -/
theorem witness_GarbageAndYardWork :
    (bgSlc gcS = true ∧ bgAllowed gcS = true ∧ gcS.pl.convPens ≠ [] ∧ busyTurn gcS = true ∧ convFree gcS < 3 ∧ gcVictim gcS = some 1 ∧ validUnits 1 gcS = [0] ∧ (startConvMove 1 gcS).isSome = true) ∧
    ((let s := { sv with m := { sv.m with sparesOut := true } }; s.m.sparesOut = true)) ∧
    ((let s := { sv with m := { sv.m with thm := 2 } }; s.m.thm = 2)) ∧
    ((let e : CMap := ⟨3, 1, 0, false⟩; Tbl.get? gcS.zn.cmap (⟨convOwner, 0, 0, 2, 4⟩ : MvU).k = some e ∧ e.pen = 1 ∧ e.slot = (⟨convOwner, 0, 0, 2, 4⟩ : MvU).gen)) ∧
    (foldS.m.cur = .service ∧ bgQlc foldS = true ∧ turnFor 0x3044 0 foldS = true ∧ 0 < unitPos foldS.fl.geom) ∧
    (zq foldS (fun q => decide ((nextUnit 0 q foldS + 1) * unitPos foldS.fl.geom ≤ q.wp) && inPaddock 0 foldS && unitTurn 0 (nextUnit 0 q foldS) q foldS && unitThere 0 (nextUnit 0 q foldS) q foldS) = true) ∧
    (bgQlc (inM .halted) = false ∧ bgSlc (inM .halted) = false) ∧
    (bgSlc sv = true ∧ turnFor 0x3044 0 sv = true ∧ yardShare 0 (retireDead 0 sv) ≤ 2 * freeLanding 0 (retireDead 0 sv) ∧ (∀ p ∈ pensIn 0 .landing (retireDead 0 sv), p.2.refresh = false)) ∧
    ((let p : Pen := { hostP with st := .dying }; let s := { sv with pl := { sv.pl with pens := [(1, p)] } }; penOf? 1 s = some p ∧ penIdle 1 s = true ∧ p.kind = .host ∧ bgAllowed s = true ∧ busyTurn s = true ∧ livePieces 1 s = [] ∧ penReserved 1 s = 0 ∧ s.m.cur.isBase = true ∧ p.st ≠ .erased)) ∧
    (penOf? 1 relS = some hostP ∧ penIdle 1 relS = true ∧ livePieces 1 relS ≠ [] ∧ bgQlc relS = true ∧ bgAllowed relS = true ∧ busyTurn relS = true ∧ (yardOf 0 relS).relocs < 4 ∧ relocFirst 1 hostP relS = true ∧ (startMove 1 hostP .reloc relS).isSome = true) ∧
    (penOf? 1 sv = none) ∧
    ((bgQlc wearS = true ∧ bgAllowed wearS = true ∧ busyTurn wearS = true ∧ (yardOf 0 wearS).wlActive = false ∧ (yardOf 0 wearS).wlSpread < wearSpread 0 wearS ∧ wearS.pl.moves = [] ∧ (yardOf 0 wearS).relocPrio = false ∧ wearSource 0 wearS = none)) ∧
    ((let p : Pen := { hostP with kind := .landing, next := 5, st := .filling }; let s := { sv with pl := { sv.pl with pens := [(1, p)], landing := [(0, 1)], yards := [(0, { YardS.dflt with noLanding := true })] } }; (yardOf 0 s).noLanding = true ∧ noLandingSpace 0 s = false)) := by
  decide +kernel

/-- YardLayoutAndStatus: another function; a request to save; a layout in range that leaves the rows; a page at its end. -/
theorem witness_YardLayoutAndStatus :
    (met { adm 0x09 0xC5 with fn := 3 } stallOn (fun k _ => k.cmd.fn != 0)) ∧
    (met (adm 0x09 0x800000C5) sv (fun k _ => svOf k.cmd)) ∧
    (met (adm 0x09 0xC5) { wearS with pl := { wearS.pl with rowYard := (List.range 256).map (fun r => (r, 0)) } } (fun k s => !svOf k.cmd && !(rows s).isEmpty && (rows s).all (fun r => decide (numAt [] r 1 < 64 ∧ numAt [] r 1 = yardOfRow r s)) && (List.range 64).all (fun y => decide (numAt [] (0x100 + 4 * y) 1 ≤ 2 ∧ numAt [] (0x102 + 4 * y) 2 = 0)))) ∧
    (met { adm 0x02 0x000000D5 with cdw12 := 4092 } sv (fun k _ => logOff k.cmd % 4 == 0 && decide (logOff k.cmd + logLen k.cmd ≤ 4096))) := by
  decide +kernel

/-- OperationsStartAndEnd: a program and an erase that may start, a program out of order; each operation running; a check at its limit and past it. -/
theorem witness_OperationsStartAndEnd :
    ((let s1 := parWatch 0 (liveWatch 0 (opS pgm)); match nextOp? 0 0 s1 with | some o => o.kind == .program && programRefused o s1 == none | none => false) = true) ∧
    ((let s1 := parWatch 0 (liveWatch 0 (opS { pgm with wl := 3 })); match nextOp? 0 0 s1 with | some o => o.kind == .program && programRefused o s1 == some 2 | none => false) = true) ∧
    ((let s1 := parWatch 0 (liveWatch 0 erS); match nextOp? 0 0 s1 with | some o => o.kind == .erase && !eraseRefused o s1 | none => false) = true) ∧
    ((dieOps (dieKey 0 0) (opS { pgm with st := .running })).find? (fun o => o.kind == .program && o.st == .running) = some { pgm with st := .running }) ∧
    ((dieOps (dieKey 0 0) (opS { ers with st := .running })).find? (fun o => o.kind == .erase && o.st == .running) = some { ers with st := .running } ∧ (bkOf (dieKey 0 0) 6 (opS ers)).role = .free) ∧
    ((let o := { pgm with kind := .read, work := .prechk, st := .running }; (dieOps (dieKey 0 0) (opS o)).find? (fun o => o.work == .prechk && o.st == .running) = some o ∧ 16 ≤ o.lim.2.2.2 ∧ o.lim.2.2.2 < 17 ∧ (bkOf (dieKey 0 0) o.blk (opS o)).prechkFailed = false)) ∧
    ((let o := { pgm with kind := .read, work := .prechk, st := .running, blk := 7 }; (dieOps (dieKey 0 0) (opS o)).find? (fun o => o.work == .prechk && o.st == .running) = some o ∧ o.lim.2.2.2 < 17 ∧ (bkOf (dieKey 0 0) o.blk (opS o)).prechkFailed = true)) := by
  decide +kernel

/-- ReadsEnd: a host read that runs; a rebuild of each path with members enough; a read that runs for the first time; a codeword past its threshold. -/
theorem witness_ReadsEnd :
    ((dieOps (dieKey 0 0) (opS hostO)).find? (fun o => o.kind == .read && o.st == .running && o.work != .prechk && o.work != .diag) = some hostO ∧ (opS hostO).fl.marred = [] ∧ 2 ≤ 2 ∧ 3 < 4) ∧
    ((let s := recP false (reconO 4); s.fl.ops.find? (fun o => o.id == 1 && o.ch == 64) = some (reconO 4) ∧ s.fl.ops.any (fun x => match x.work with | .member r _ => r == 1 | _ => false) = false ∧ (match targetOf 1 0 0 (dropOp 1 s) with | some t => decide (t.pen.mem.length - t.pen.parity ≤ (([1] : List Nat).filter (fun m => !([] : List Nat).contains m)).length) && !(t.place (dropOp 1 s)).2.2 | none => false) = true)) ∧
    ((let s := recP true (reconO 2); s.fl.ops.find? (fun o => o.id == 1 && o.ch == 64) = some (reconO 2) ∧ (targetOf 1 0 0 (dropOp 1 s)).isSome = true ∧ 6 ≠ 7 ∧ 2 ≠ 4)) ∧
    ((let o := { pgm with kind := .read, st := .running }; (dieOps (dieKey 0 0) (opS o)).find? (fun o => o.st == .running || o.st == .suspending) = some o ∧ o.retried = false ∧ Tbl.get? (opS o).fl.luns (dieKey 0 0) = some (lunOf (dieKey 0 0) (opS o)) ∧ (lunOf (dieKey 0 0) (opS o)).timeouts < 2)) ∧
    ((let s := { recP false hostO with tm := { sv.tm with epoch := 1 } }; s.tm.epoch ≠ (lunOf (dieKey 0 0) s).toEpoch)) ∧
    ((match targetOf 1 0 0 (recP false hostO) with | some t => (penOf? t.pid (recP false hostO)).isSome && 1 != combReader && decide (refThr (cwClass t (recP false hostO)) (recP false hostO) < 400) | none => false) = true) := by
  decide +kernel

/-- Suspension: a waiting read behind a program that may be suspended; its die through each state; a chain another read waits for. -/
theorem witness_Suspension :
    ((susS.fl.ops.find? (fun o => o.id == 2 && o.kind == .read && o.cls == 2 && o.st == .queued)).isSome = true ∧ (dieOps (dieKey 0 0) susS).find? (fun o => o.kind != .read && o.st == .running) = some { pgm with st := .running } ∧ maySuspend { pgm with st := .running } susS = true ∧ (chnOf 0 susS).retraining = false) ∧
    ((let o := { pgm with st := .running }; (dieOps (dieKey 0 0) (opS o)).filter (fun o => o.kind != .read && o.st == .running) = [o] ∧ (dieOps (dieKey 0 0) (opS o)).filter (fun o => o.kind == .read && o.cls == 2 && o.st == .queued && o.waited) = [])) ∧
    ((let o := { pgm with st := .suspending }; (dieOps (dieKey 0 0) (opS o)).find? (fun o => o.st == .suspending) = some o)) ∧
    ((let o := { pgm with st := .suspended }; (dieOps (dieKey 0 0) (opS o)).find? (fun o => o.st == .suspended) = some o)) ∧
    ((let s := opS { pgm with kind := .read }; let s1 := { s with fl := { s.fl with luns := [(0, { Lun.dflt with chain := 1 })] } }; Tbl.get? s1.fl.luns (dieKey 0 0) = some { Lun.dflt with chain := 1 } ∧ 0 < 1 ∧ (dieOps (dieKey 0 0) s1).any (fun o => o.kind == .read && o.st == .queued) = true)) := by
  decide +kernel

/-- ChannelsAndLists: a channel up with its eye due, one retraining at full rate, a refresh due by age and after a hot flush, the diagnostic idle and busy, a list of five. -/
theorem witness_ChannelsAndLists :
    ((chnOf 0 (opS pgm)).state = 2 ∧ (let s := { opS pgm with tm := { sv.tm with turns := 1000 } }; (chnOf 0 s).eyeAt + (chnOf 0 s).eyePeriod ≤ s.tm.turns)) ∧
    ((let s := { sv with fl := { sv.fl with chs := [(0, { Chn.dflt with state := 2, retraining := true, rate := 4800 })] } }; (chnOf 0 s).state = 2 ∧ (chnOf 0 s).retraining = true ∧ (chnOf 0 s).rate = 4800 ∧ 90 ≤ min 90 91 ∧ min 89 91 < 90 ∧ 3600 ≠ 0)) ∧
    ((let s := { sv with tm := { sv.tm with elapsed := 2592000000000 } }; 3 < s.part.sheds ∧ Tbl.getD s.fl.refreshAt 3 0 + 2592000000000 ≤ s.tm.elapsed)) ∧
    ((let s := { sv with fl := { sv.fl with flushHot := true, blks := [(dieKey 48 0 * 8192 + 5, { Bk.dflt with role := .fw, st := .full }), (dieKey 48 0 * 8192 + 6, { Bk.dflt with role := .tack })] } }; s.fl.flushHot = true ∧ s.fl.fwFresh.contains 3 = false ∧ 5 ≠ 6 ∧ (bkOf (dieKey (16 * 3) 0) 5 s).role = .fw ∧ (bkOf (dieKey (16 * 3) 0) 6 s).role.inTack = true ∧ (bkOf (dieKey (16 * 3) 0) 6 s).st = .erased)) ∧
    (63 < sv.part.channels ∧ sv.m.cur.isBase = true ∧ (chnOf 63 sv).dBusy = false ∧ bit (0x1 : Dword).toNat 0 = true ∧ bits (0x5 : Dword).toNat 2 1 = 2) ∧
    ((let s := { sv with fl := { sv.fl with chs := [(0, { Chn.dflt with dBusy := true })] } }; (chnOf 0 s).dBusy = true ∧ s.fl.ops = [])) ∧
    ((let l := { Lun.dflt with low := [(1, 0), (2, 0), (3, 0), (4, 0), (5, 0)] }; let s := { sv with fl := { sv.fl with luns := [(0, l)] } }; Tbl.get? s.fl.luns (dieKey 0 0) = some l ∧ l.low.length ≤ 5 ∧ (refillLists (dieKey 0 0) s).pl.pens = [])) := by
  decide +kernel

/-- SramAndCurrycomb: a word of the last line of each kind of region; the mask armed and not; passes asked for, refused and running; each automatic round due. -/
theorem witness_SramAndCurrycomb :
    (sramFinds 0 4 (16 * 131072 - 1) true sv = true ∧ sramFinds 4 2 (6 * 131072 - 1) true sv = true ∧ sramFinds 0 4 (16 * 131072) true sv = false ∧ sv.m.cur ≠ .emergencyFlush ∧ sv.m.cur ≠ .halted) ∧
    ((let s := { sv with ecc := { sv.ecc with lines := [lineKey 1 8], flips := [] } }; sramFinds 1 3 8 false s = true ∧ sramFinds 1 3 8 true s = true)) ∧
    ((let s := waits .flush; sramFinds 1 1 0 true s = true ∧ s.q.ctxs.find? (fun x => x.seq == 7) = some (ctx .flush))) ∧
    ((let s := { sv with ecc := { sv.ecc with rebuild := [(1, 2, 3)] } }; (1, 2, 3) ∈ s.ecc.rebuild)) ∧
    (bit (0x1 : Dword).toNat 0 = true ∧ sv.ecc.arm = false ∧ bit (0x2 : Dword).toNat 0 = false ∧ { sv.ecc with arm := true }.arm = true) ∧
    (met { adm 0xCC with fn := 3 } stallOn (fun k _ => !isPf k.cmd.fn)) ∧
    (met (adm 0xCC) { sv with ecc := { sv.ecc with queued := List.replicate 4 (newPass (some 1) 0 false 0 0 0 0 false) } } (fun k s => isPf k.cmd.fn && decide (4 ≤ askedPasses s))) ∧
    (met (adm 0xCC 0x3F01) (zIn .empty) (fun k s => decide (askedPasses s < 4 ∧ bits k.cmd.cdw10.toNat 1 0 = 1) && (yardRows (bits k.cmd.cdw10.toNat 13 8) s).isEmpty)) ∧
    (met (adm 0xCC 0x0001) wearS (fun k s => !(yardRows (bits k.cmd.cdw10.toNat 13 8) s).isEmpty && s.ecc.running == none)) ∧
    ((let s := { sv with ecc := { sv.ecc with paddockDue := true } }; s.ecc.auto = true ∧ s.ecc.running = none ∧ s.m.cur.isBase = true ∧ s.ecc.paddockDue = true)) ∧
    ((let s := { sv with tm := { sv.tm with elapsed := s0Media } }; s.ecc.paddockDue = false ∧ s.ecc.mediaAt + s.ecc.mediaDays * 86400000000 ≤ s.tm.elapsed)) ∧
    ((let s := { sv with tm := { sv.tm with elapsed := s0Media - 1 } }; s.tm.elapsed < s.ecc.mediaAt + s.ecc.mediaDays * 86400000000 ∧ s.ecc.sramAt + s.ecc.sramMin * 60000000 ≤ s.tm.elapsed)) ∧
    ((let p := newPass none 3 true 0 0 0 0 false; let s := { sv with ecc := { sv.ecc with running := some p } }; s.ecc.running = some p ∧ passDone p s = true ∧ p.scope ≠ 2)) ∧
    ((let p := newPass none 2 true 7 0 0 0 false; let s := { sv with ecc := { sv.ecc with running := some p } }; s.ecc.running = some p ∧ passDone p s = true ∧ p.scope = 2)) := by
  decide +kernel

/-- A blob of a stall without queues, but for its last 16 bytes. -/
def blob0 : List Byte :=
  leBytes 4 0x53585A44 ++ leBytes 2 1 ++ leBytes 2 64 ++ leBytes 4 384 ++ leBytes 2 3 ++ leBytes 2 1 ++ zeroBytes 24 ++
    leBytes 4 (kcvOf (zeroBytes 31 ++ [1])) ++ zeroBytes 20 ++ leBytes 4 0x460000 ++ zeroBytes 20 ++ [1] ++ zeroBytes 279

/-- Its authentication code. -/
def blobMac : List Byte := cmac (migKey (zeroBytes 31 ++ [1])) blob0

/-- StallFreezesAndMoves: a blob that passes every check of Table 12.9, and one that fails its first. -/
theorem witness_StallRestoreBlobs :
    blobFault 3 (zeroBytes 31 ++ [1]) 384 (blob0 ++ blobMac) (frozenS false) = none ∧
    blobFault 3 (zeroBytes 31 ++ [1]) 384 [] (frozenS false) = some 1 := by
  refine ⟨?_, by decide +kernel⟩
  have hb : blob0.length = 368 := by decide +kernel
  have hm : blobMac.length = 16 := by decide +kernel
  have ht : (blob0 ++ blobMac).take (384 - 16) = blob0 := List.take_left' hb
  have hs : sliceB (blob0 ++ blobMac) (384 - 16) 16 = blobMac := by
    simp [sliceB, padTo, List.drop_left' hb, List.take_of_length_le, hm]
  unfold blobFault
  simp only [ht, hs]
  rw [if_neg (by decide +kernel), if_neg (by decide +kernel), if_neg (by decide +kernel), if_neg (by decide +kernel),
    if_neg (fun h => h rfl), if_neg (by decide +kernel), if_neg (by decide +kernel), if_neg (by decide +kernel), if_neg (by decide +kernel)]
  rw [if_neg]
  exact fun h => h.2.1 (by decide +kernel)

/-- NamespaceCommands: a Create of one zone on a part without namespaces. -/
theorem witness_NamespaceCreate :
    met (adm 0x0D) (withZone zone0) (fun k s => k.cmd.fn == 0 && s.fl.geom.ok && (freeNsid s).isSome) = true ∧
    bits (adm 0x0D 0 0x02000000).cdw11.toNat 31 24 = 2 ∧
    (let buf := leBytes 8 (2 ^ 20) ++ leBytes 8 (2 ^ 20); numAt buf 8 8 = numAt buf 0 8 ∧ numAt buf 0 8 ≠ 0 ∧ numAt buf 0 8 % 2 ^ 20 = 0 ∧
      numAt buf 26 1 % 16 ≤ 3) := by decide +kernel

/-- NamespaceCommands: zones are free on that part. -/
theorem witness_FreeZones (s : State) (h : s.zn.zones = []) : (freeZones s).length = s.part.zones := by
  simp [freeZones, zoneAt?, h, Tbl.get?]

/-- StepConsumesFrontCommand, PartAndImageStand, the frames, StepKeepsInv: a step and a command that answer a next state. -/
theorem witness_Steps :
    (∃ t, step State.reset = .next t) ∧ State.reset.pending = [] ∧ (∃ t, exec .huOkRise sv = .next t) ∧ (∃ t, exec .powerOn sv = .next t) ∧
    (∃ t, exec (.flush (cmd 1 0)) sv = .next t) := ⟨⟨_, rfl⟩, rfl, ⟨_, rfl⟩, ⟨_, rfl⟩, ⟨_, rfl⟩⟩

/-- StepKeepsInv: the bounds hold of State.reset. -/
theorem witness_StepKeepsInv : StbInv State.reset := by
  unfold StbInv stbBounds
  decide

end Sys2Proof.Tests
end

/-! SUPPORT. What the shared operations leave alone, by component of State (log 71): `outside L` blanks the components `L`, and an operation that
may change `F` leaves a state as it is outside every list that contains `F`. -/

namespace Sys2Proof.Machine
open Sys2Proof

/-! ## States alike outside a list of components -/

/-- What a state holds outside the components `L`: those of `L`, the part and the queue of commands are blank. -/
def outside (L : List Comp) (s : State) : State :=
  { State.reset with
    m := if .m ∈ L then ModeS.dflt else s.m
    pins := if .pins ∈ L then Pins.dflt else s.pins
    st := if .st ∈ L then StartS.dflt else s.st
    img := if .img ∈ L then Img.dflt Part.dflt else s.img
    tm := if .tm ∈ L then Tm.dflt else s.tm
    pw := if .pw ∈ L then Pwr.dflt else s.pw
    slk := if .slk ∈ L then Slk.dflt else s.slk
    zn := if .zn ∈ L then Zn.dflt else s.zn
    pl := if .pl ∈ L then Pl.dflt else s.pl
    fl := if .fl ∈ L then Fl.dflt else s.fl
    ecc := if .ecc ∈ L then Ecc.dflt else s.ecc
    q := if .q ∈ L then Qs.dflt else s.q
    stb := if .stb ∈ L then Stb.dflt else s.stb
    jn := if .jn ∈ L then Jrn.dflt else s.jn
    stl := if .stl ∈ L then Stl.dflt else s.stl
    ci := if .ci ∈ L then Ciph.dflt else s.ci
    ga := if .ga ∈ L then Gath.dflt else s.ga
    cad := if .cad ∈ L then Cad.dflt else s.cad
    ts := if .ts ∈ L then Tst.dflt else s.ts
    rg := if .rg ∈ L then Regs.dflt else s.rg
    free := if .free ∈ L then 0 else s.free }

/-- States alike outside `L` have every component that is not in `L` in common. -/
theorem keeps_of_outside {L : List Comp} {s t : State} (h : outside L t = outside L s) {x : Comp} (hx : x ∉ L) : keeps x s t := by
  simp only [outside, State.mk.injEq] at h
  cases x <;> simp_all [keeps]

/-- States that have every component outside `L` in common are alike outside `L`. -/
theorem outside_of_keeps {L : List Comp} {s t : State} (h : ∀ x, x ∉ L → keeps x s t) : outside L t = outside L s := by
  have key : ∀ {α : Type} (x : Comp) (d a b : α), (x ∉ L → a = b) → (if x ∈ L then d else a) = (if x ∈ L then d else b) := by
    intro α x d a b hab
    split
    · rfl
    · exact hab ‹_›
  simp only [outside, State.mk.injEq, true_and, and_true]
  refine ⟨?_, ?_, ?_, ?_, ?_, ?_, ?_, ?_, ?_, ?_, ?_, ?_, ?_, ?_, ?_, ?_, ?_, ?_, ?_, ?_, ?_⟩ <;> exact key _ _ _ _ (h _)

/-- Alike outside few components is alike outside more. -/
theorem outside_mono {L M : List Comp} {s t : State} (hLM : L ⊆ M) (h : outside L t = outside L s) : outside M t = outside M s :=
  outside_of_keeps fun _ hx => keeps_of_outside h (fun hL => hx (hLM hL))

/-- A state with some components replaced is the same outside a list that names them. -/
@[simp] theorem outside_upd {L : List Comp} {s : State} {m pins st img stb slk q zn pl fl ecc tm stl ci ga cad pw ts jn rg free pending}
    (hm : .m ∈ L ∨ m = s.m) (hpins : .pins ∈ L ∨ pins = s.pins) (hst : .st ∈ L ∨ st = s.st) (himg : .img ∈ L ∨ img = s.img)
    (hstb : .stb ∈ L ∨ stb = s.stb) (hslk : .slk ∈ L ∨ slk = s.slk) (hq : .q ∈ L ∨ q = s.q) (hzn : .zn ∈ L ∨ zn = s.zn)
    (hpl : .pl ∈ L ∨ pl = s.pl) (hfl : .fl ∈ L ∨ fl = s.fl) (hecc : .ecc ∈ L ∨ ecc = s.ecc) (htm : .tm ∈ L ∨ tm = s.tm)
    (hstl : .stl ∈ L ∨ stl = s.stl) (hci : .ci ∈ L ∨ ci = s.ci) (hga : .ga ∈ L ∨ ga = s.ga) (hcad : .cad ∈ L ∨ cad = s.cad)
    (hpw : .pw ∈ L ∨ pw = s.pw) (hts : .ts ∈ L ∨ ts = s.ts) (hjn : .jn ∈ L ∨ jn = s.jn) (hrg : .rg ∈ L ∨ rg = s.rg)
    (hfree : .free ∈ L ∨ free = s.free) :
    outside L ⟨s.part, m, pins, st, img, stb, slk, q, zn, pl, fl, ecc, tm, stl, ci, ga, cad, pw, ts, jn, rg, free, pending⟩ = outside L s :=
  outside_of_keeps fun x hx => by cases x <;> simp_all [keeps]

/-- A fold of steps that leave a state alike outside `L` does so too. -/
theorem outside_foldl {L : List Comp} {α : Type} (f : State → α → State) (h : ∀ s x, outside L (f s x) = outside L s) :
    ∀ (l : List α) (s : State), outside L (l.foldl f s) = outside L s
  | [], _ => rfl
  | x :: xs, s => (outside_foldl f h xs (f s x)).trans (h s x)

/-- States that differ in the queues, the cipher and the Studbook only. -/
theorem outside_of_sameBut {L : List Comp} (hL : [.q, .stb, .ci] ⊆ L) {s t : State} (h : sameBut s t) : outside L t = outside L s :=
  outside_mono hL (by rw [h]; simp)

/-! ## Events, functions, contexts, completions -/

@[simp] theorem raise_outside {L : List Comp} (h : [.stb] ⊆ L) (code sev : Nat) (args : List (List Nat)) (s : State) :
    outside L (raise code sev args s) = outside L s := outside_mono h (by simp [raise])

@[simp] theorem settle_outside {L : List Comp} (h : [.stb] ⊆ L) (s : State) : outside L (settle s) = outside L s :=
  outside_mono h (by simp [settle])

@[simp] theorem tick_outside {L : List Comp} (h : [.free] ⊆ L) (s : State) : outside L (tick s) = outside L s :=
  outside_mono h (by simp [tick])

@[simp] theorem updFn_outside {L : List Comp} (h : [.q] ⊆ L) (f : Nat) (g : Fn → Fn) (s : State) :
    outside L (updFn f g s) = outside L s := outside_mono h (by simp [updFn])

@[simp] theorem updCvu_outside {L : List Comp} (h : [.ci] ⊆ L) (u : Nat) (g : Cvu → Cvu) (s : State) :
    outside L (updCvu u g s) = outside L s := outside_mono h (by simp [updCvu])

@[simp] theorem popSq_outside {L : List Comp} (h : [.q] ⊆ L) (f qid : Nat) (s : State) : outside L (popSq f qid s) = outside L s :=
  outside_mono h (by simp [popSq])

@[simp] theorem noteExh_outside {L : List Comp} (h : [.q, .stb] ⊆ L) (s : State) : outside L (noteExh s) = outside L s :=
  outside_mono h (by unfold noteExh; split <;> simp)

@[simp] theorem resumeRecord_outside {L : List Comp} (h : [.jn] ⊆ L) (s : State) : outside L (resumeRecord s) = outside L s :=
  outside_mono h (by unfold resumeRecord; split <;> simp)

@[simp] theorem fetchNow_outside {L : List Comp} (h : [.q, .jn, .ci] ⊆ L) (c : Cmd) (s : State) :
    outside L (fetchNow c s).2 = outside L s :=
  outside_mono h (by
    have captures : ∀ (l : List Nat) (s : State), outside [.q, .jn, .ci]
        (l.foldl (fun s e => updCvu (e / 8) (fun c => { c with took := c.took || c.one }) s) s) = outside [.q, .jn, .ci] s :=
      outside_foldl _ fun s e => by simp
    simp [fetchNow, captures])

@[simp] theorem putCtx_outside {L : List Comp} (h : [.q] ⊆ L) (k : Ctx) (s : State) : outside L (putCtx k s) = outside L s :=
  outside_mono h (by simp [putCtx])

@[simp] theorem dropCtx_outside {L : List Comp} (h : [.q] ⊆ L) (i : Nat) (s : State) : outside L (dropCtx i s) = outside L s :=
  outside_mono h (by simp [dropCtx])

@[simp] theorem signal_outside {L : List Comp} (h : [.q] ⊆ L) (f vec : Nat) (s : State) : outside L (signal f vec s) = outside L s :=
  outside_mono h (by simp [signal])

@[simp] theorem postFull_outside {L : List Comp} (h : [.q, .stb, .ci] ⊆ L) (k : Ctx) (sct sc dw0 cs1 : Nat) (data : List Byte) (s : State) :
    outside L (postFull k sct sc dw0 cs1 data s) = outside L s := outside_of_sameBut h (postFull_sameBut ..)

@[simp] theorem fin_outside {L : List Comp} (h : [.q, .stb, .ci] ⊆ L) (k : Ctx) (sct sc : Nat) (s : State) :
    outside L (fin k sct sc s) = outside L s := postFull_outside h ..

@[simp] theorem ok_outside {L : List Comp} (h : [.q, .stb, .ci] ⊆ L) (k : Ctx) (s : State) : outside L (ok k s) = outside L s :=
  postFull_outside h ..

@[simp] theorem okData_outside {L : List Comp} (h : [.q, .stb, .ci] ⊆ L) (k : Ctx) (data : List Byte) (s : State) :
    outside L (okData k data s) = outside L s := postFull_outside h ..

@[simp] theorem okDw0_outside {L : List Comp} (h : [.q, .stb, .ci] ⊆ L) (k : Ctx) (dw0 : Nat) (s : State) :
    outside L (okDw0 k dw0 s) = outside L s := postFull_outside h ..

@[simp] theorem after_outside {L : List Comp} (h : [.q, .stb, .ci] ⊆ L) (u : State) : outside L (after u) = outside L u :=
  outside_of_sameBut h (after_sameBut u)

theorem withCmd_outside {L : List Comp} (h : [.q, .stb, .jn, .ci] ⊆ L) (c : Cmd) (s : State) (f : Ctx → State → State)
    (hf : ∀ k s, outside L (f k s) = outside L s) : outside L (withCmd c s f) = outside L s := by
  simp only [List.cons_subset, List.nil_subset, and_true] at h
  obtain ⟨hq, hstb, hjn, hci⟩ := h
  unfold withCmd
  split
  · exact hf _ _
  · split_ifs <;> simp [hf, hq, hstb, hjn, hci]

theorem gateForm_outside {L : List Comp} (h : [.q, .stb, .ci] ⊆ L) (allowed : Bool) (k : Ctx) (s : State) (f : Ctx → State → State)
    (hf : ∀ k s, outside L (f k s) = outside L s) : outside L (gateForm allowed k s f) = outside L s := by
  unfold gateForm; split_ifs <;> simp [hf, fin_outside h]

theorem gateAdmin_outside {L : List Comp} (h : [.q, .stb, .ci] ⊆ L) (allowed san : Bool) (k : Ctx) (s : State) (f : Ctx → State → State)
    (hf : ∀ k s, outside L (f k s) = outside L s) : outside L (gateAdmin allowed san k s f) = outside L s :=
  gateForm_outside h _ _ _ _ fun k s => by split_ifs <;> simp [hf, fin_outside h]

/-! ## Asynchronous events, warnings, the mode -/

@[simp] theorem deliverAen_outside {L : List Comp} (h : [.q, .stb, .ci] ⊆ L) (f : Nat) : ∀ (n : Nat) (s : State),
    outside L (deliverAen f n s) = outside L s
  | 0, _ => rfl
  | n + 1, s => by
    unfold deliverAen
    split
    · refine (deliverAen_outside h f n _).trans ?_
      exact outside_mono h (by simp)
    · rfl

@[simp] theorem aenFn_outside {L : List Comp} (h : [.q, .stb, .ci] ⊆ L) (f typ info log : Nat) (s : State) :
    outside L (aenFn f typ info log s) = outside L s := outside_mono h (by unfold aenFn; split <;> simp)

@[simp] theorem unmask_outside {L : List Comp} (h : [.q, .stb, .ci] ⊆ L) (f log : Nat) (s : State) :
    outside L (unmask f log s) = outside L s := outside_mono h (by simp [unmask])

@[simp] theorem aenAll_outside {L : List Comp} (h : [.q, .stb, .ci] ⊆ L) (bitNo typ info log : Nat) (s : State) :
    outside L (aenAll bitNo typ info log s) = outside L s :=
  outside_foldl _ (fun s f => by split_ifs <;> simp [aenFn_outside h]) _ _

@[simp] theorem setWarn_outside {L : List Comp} (h : [.m, .q, .stb, .ci] ⊆ L) (b : Nat) (v : Bool) (s : State) :
    outside L (setWarn b v s) = outside L s := outside_mono h (by unfold setWarn; dsimp only; split_ifs <;> simp)

@[simp] theorem setMode_outside {L : List Comp} (h : [.m, .q, .stb, .ci] ⊆ L) (md : Mode) (s : State) :
    outside L (setMode md s) = outside L s := outside_mono h (by unfold setMode; dsimp only; split_ifs <;> simp)

@[simp] theorem reBase_outside {L : List Comp} (h : [.m, .q, .stb, .ci] ⊆ L) (s : State) : outside L (reBase s) = outside L s :=
  outside_mono h (by unfold reBase; split_ifs <;> simp)

/-! ## Power states and accesses (R374) -/

@[simp] theorem accrue_outside {L : List Comp} (h : [.pw] ⊆ L) (s : State) : outside L (accrue s) = outside L s :=
  outside_mono h (by unfold accrue; dsimp only; split_ifs <;> simp)

@[simp] theorem setPs_outside {L : List Comp} (h : [.pw, .stb] ⊆ L) (n : Nat) (s : State) : outside L (setPs n s) = outside L s :=
  outside_mono h (by unfold setPs; split_ifs <;> simp)

@[simp] theorem repower_outside {L : List Comp} (h : [.pw, .stb] ⊆ L) (s : State) : outside L (repower s) = outside L s :=
  outside_mono h (by unfold repower; split_ifs <;> simp)

@[simp] theorem setFnPs_outside {L : List Comp} (h : [.q] ⊆ L) (f n : Nat) (s : State) : outside L (setFnPs f n s) = outside L s :=
  outside_mono h (by simp [setFnPs])

@[simp] theorem aonWake_outside {L : List Comp} (h : [.stb] ⊆ L) (s : State) : outside L (aonWake s) = outside L s :=
  outside_mono h (by simp [aonWake])

/-- A wake that does not start the device anew. -/
theorem wake_outside {L : List Comp} (h : [.pw, .stb] ⊆ L) (cause : Nat) {s : State} (hs : plainWake s) :
    outside L (wake cause s) = outside L s := by
  refine outside_mono h ?_
  have hps : ¬ (s.pw.ps = 4 ∧ s.pw.retLost = true) := by rintro ⟨h4, hr⟩; rcases hs with hs | hs <;> simp_all
  unfold wake
  dsimp only
  split_ifs <;> simp_all

/-- An access that does not start the device anew changes power management, its function and the Studbook. -/
theorem touch_outside {L : List Comp} (h : [.pw, .q, .stb] ⊆ L) (f : Nat) {s : State} (hs : plainWake s) :
    outside L (touch f s) = outside L s := by
  refine outside_mono h ?_
  unfold touch
  split
  · rw [repower_outside (by simp), wake_outside (by simp)]
    · split_ifs <;> simp
    · split_ifs
      · exact hs
      · exact hs
  · rfl

/-- An access changes none of the components but power management, the queues and the Studbook. -/
theorem touch_keeps (f : Nat) {s : State} (hs : plainWake s) {x : Comp} (hx : x ∉ [Comp.pw, .q, .stb]) : keeps x s (touch f s) :=
  keeps_of_outside (touch_outside (List.Subset.refl _) f hs) hx

theorem touch_rg (f : Nat) {s : State} (hs : plainWake s) : (touch f s).rg = s.rg := touch_keeps f hs (x := .rg) (by decide)
theorem touch_zn (f : Nat) {s : State} (hs : plainWake s) : (touch f s).zn = s.zn := touch_keeps f hs (x := .zn) (by decide)
theorem touch_slk (f : Nat) {s : State} (hs : plainWake s) : (touch f s).slk = s.slk := touch_keeps f hs (x := .slk) (by decide)

end Sys2Proof.Machine

/-! SUPPORT. What the operations on storage leave alone: placing, landing and forming, the decisions of the Slack, a function's fence (log 71). -/

namespace Sys2Proof.Machine
open Sys2Proof

variable {L : List Comp}

/-! ## Blocks, pens and operations -/

@[simp] theorem updSlk_outside (h : [.slk] ⊆ L) (f : Nat) (g : SlkFn → SlkFn) (s : State) : outside L (updSlk f g s) = outside L s :=
  outside_mono h (by simp [updSlk])

@[simp] theorem noteOver_outside (h : [.slk] ⊆ L) (s : State) : outside L (noteOver s) = outside L s := outside_mono h (by simp [noteOver])

@[simp] theorem updZone_outside (h : [.zn] ⊆ L) (z : Nat) (g : Zone → Zone) (s : State) : outside L (updZone z g s) = outside L s :=
  outside_mono h (by simp [updZone])

@[simp] theorem updWr_outside (h : [.zn] ⊆ L) (i : Nat) (g : Wr → Wr) (s : State) : outside L (updWr i g s) = outside L s :=
  outside_mono h (by simp [updWr])

@[simp] theorem dropWr_outside (h : [.zn] ⊆ L) (i : Nat) (s : State) : outside L (dropWr i s) = outside L s :=
  outside_mono h (by simp [dropWr])

@[simp] theorem updLun_outside (h : [.fl] ⊆ L) (d : Nat) (g : Lun → Lun) (s : State) : outside L (updLun d g s) = outside L s :=
  outside_mono h (by simp [updLun])

@[simp] theorem updBk_outside (h : [.fl] ⊆ L) (d b : Nat) (g : Bk → Bk) (s : State) : outside L (updBk d b g s) = outside L s :=
  outside_mono h (by simp [updBk])

@[simp] theorem updYard_outside (h : [.pl] ⊆ L) (y : Nat) (g : YardS → YardS) (s : State) : outside L (updYard y g s) = outside L s :=
  outside_mono h (by simp [updYard])

@[simp] theorem updPen_outside (h : [.pl] ⊆ L) (p : Nat) (g : Pen → Pen) (s : State) : outside L (updPen p g s) = outside L s :=
  outside_mono h (by simp [updPen])

@[simp] theorem queueOp_outside (h : [.fl] ⊆ L) (ch lun cls : Nat) (k : OpKind) (b wl : Nat) (o : Bool) (w : Work) (s : State) :
    outside L (queueOp ch lun cls k b wl o w s) = outside L s := outside_mono h (by simp [queueOp])

@[simp] theorem queueProg_outside (h : [.fl] ⊆ L) (d b cls wl : Nat) (o : Bool) (w : Work) (s : State) :
    outside L (queueProg d b cls wl o w s) = outside L s := queueOp_outside h ..

@[simp] theorem queueErase_outside (h : [.fl, .pl] ⊆ L) (d b : Nat) (w : Work) (s : State) : outside L (queueErase d b w s) = outside L s :=
  outside_mono h (by unfold queueErase; split <;> simp)

@[simp] theorem readyBlock_outside (h : [.fl, .pl] ⊆ L) (pen : Nat) (s : State) (m : Nat × Nat × Bool) :
    outside L (readyBlock pen s m) = outside L s := outside_mono h (by unfold readyBlock; split_ifs <;> simp)

@[simp] theorem takeBlock_outside (h : [.fl] ⊆ L) (d : Nat) (wear : Bool) (pen : Nat) (s : State) :
    outside L (takeBlock d wear pen s).2 = outside L s := by
  simp only [takeBlock]
  generalize (if wear = true then (lunOf d s).high else (lunOf d s).low) = l
  cases l <;> simp [updBk_outside h, updLun_outside h]

@[simp] theorem takeBlocks_outside (h : [.fl] ⊆ L) (pen : Nat) (wear : Bool) : ∀ (l : List Nat) (s : State),
    outside L (takeBlocks pen wear l s).2 = outside L s
  | [], _ => rfl
  | _ :: ds, _ => (takeBlocks_outside h pen wear ds _).trans (takeBlock_outside h ..)

@[simp] theorem formOn_outside (h : [.fl, .pl] ⊆ L) (k : PenKind) (y lcl par : Nat) (pr : Nat × Option Nat) (ds : List Nat) (s : State) :
    outside L (formOn k y lcl par pr ds s).2 = outside L s := by
  refine outside_mono h ((outside_foldl _ (fun s m => ?_) _ _).trans ?_)
  · simp
  · exact (outside_upd (by simp) (by simp) (by simp) (by simp) (by simp) (by simp) (by simp) (by simp) (by simp) (by simp) (by simp) (by simp)
      (by simp) (by simp) (by simp) (by simp) (by simp) (by simp) (by simp) (by simp) (by simp)).trans (takeBlocks_outside (by simp) ..)

theorem formPad_outside (h : [.fl, .pl] ⊆ L) {k : PenKind} {y : Nat} {s : State} {r : Nat × State} (hr : formPad k y s = some r) :
    outside L r.2 = outside L s := by
  obtain ⟨p, _, rfl⟩ := Option.map_eq_some_iff.mp hr
  exact formOn_outside h ..

/-! ## Landing -/

@[simp] theorem catchUp_outside (h : [.fl] ⊆ L) (d b wl cls : Nat) (o : Bool) (s : State) : outside L (catchUp d b wl cls o s) = outside L s :=
  outside_foldl _ (fun _ _ => queueProg_outside h ..) _ _

@[simp] theorem landWork_outside (h : [.fl, .pl] ⊆ L) (id cls : Nat) (mk : Nat → Work) (s : State) :
    outside L (landWork id cls mk s) = outside L s := by
  refine outside_mono h ?_
  unfold landWork
  split
  · rfl
  · dsimp only; split_ifs <;> simp

@[simp] theorem landChunk_outside (h : [.fl, .pl] ⊆ L) (id : Nat) (ps : List (Nat × Nat)) (cls : Nat) (s : State) :
    outside L (landChunk id ps cls s) = outside L s := landWork_outside h ..

theorem landingPen_fresh_outside (h : [.fl, .pl] ⊆ L) {y : Nat} {s : State} {r : Nat × State} (hr : landingPen.fresh y s = some r) :
    outside L r.2 = outside L s := by
  unfold landingPen.fresh at hr
  split at hr
  · cases hr
  · obtain ⟨q, hq, rfl⟩ := Option.map_eq_some_iff.mp hr
    exact (outside_mono h (by simp)).trans (formPad_outside h hq)

theorem landingPen_outside (h : [.fl, .pl] ⊆ L) {y : Nat} {s : State} {r : Nat × State} (hr : landingPen y s = some r) :
    outside L r.2 = outside L s := by
  unfold landingPen at hr
  split at hr
  · split at hr
    · cases hr; rfl
    · exact (landingPen_fresh_outside h hr).trans (outside_mono h (by simp))
  · exact landingPen_fresh_outside h hr

@[simp] theorem landAll_outside (h : [.fl, .pl, .stb] ⊆ L) (y : Nat) : ∀ (fuel : Nat) (ps : List (Nat × Nat)) (s : State),
    outside L (landAll y fuel ps s) = outside L s
  | _, [], s => by unfold landAll; rfl
  | 0, _ :: _, _ => outside_mono h (by simp [landAll])
  | fuel + 1, p :: ps, s => by
    have hl : [.fl, .pl] ⊆ L := List.Subset.trans (by decide) h
    unfold landAll
    split
    · exact outside_mono h (by dsimp only; split_ifs <;> simp)
    · rename_i hp
      exact (landAll_outside h y fuel _ _).trans ((landChunk_outside hl ..).trans (landingPen_outside hl hp))

@[simp] theorem stripeParity_outside (h : [.fl] ⊆ L) (pid : Nat) (p : Pen) (n cls : Nat) (s : State) :
    outside L (stripeParity pid p n cls s) = outside L s := by
  unfold stripeParity
  dsimp only
  split_ifs
  · exact outside_foldl _ (fun _ _ => (queueProg_outside h ..).trans (catchUp_outside h ..)) _ _
  · rfl

@[simp] theorem queueUnit_outside (h : [.fl] ⊆ L) (z k : Nat) (isFold : Bool) (s : State) : outside L (queueUnit z k isFold s) = outside L s := by
  unfold queueUnit
  repeat' split
  all_goals simp [h]

@[simp] theorem withdraw_outside (h : [.fl, .pl] ⊆ L) (ps : List (Nat × Nat)) (s : State) : outside L (withdraw ps s) = outside L s :=
  outside_mono h (by simp [withdraw])

@[simp] theorem directUnits_outside (h : [.fl, .pl] ⊆ L) (z : Nat) : ∀ (fuel : Nat) (s : State), outside L (directUnits z fuel s) = outside L s
  | 0, _ => rfl
  | fuel + 1, s => by
    have hf : [.fl] ⊆ L := List.Subset.trans (by decide) h
    unfold directUnits
    split
    · dsimp only
      split
      · exact (directUnits_outside h z fuel _).trans ((queueUnit_outside hf ..).trans (withdraw_outside h ..))
      · rfl
    · rfl

theorem convPen_pick_outside (h : [.fl, .pl] ⊆ L) {hot : Bool} {s : State} {r : Nat × State} (hr : convPen.pick hot s = some r) :
    outside L r.2 = outside L s := by
  refine outside_mono h ?_
  unfold convPen.pick at hr
  unfold Option.orElse at hr
  split at hr
  · rename_i hm
    obtain ⟨q, _, rfl⟩ := Option.map_eq_some_iff.mp hm
    cases hr
    cases hot <;> simp
  · dsimp only at hr
    split at hr
    · split at hr
      · cases hr; rfl
      · cases hr
    · cases hr

theorem convPen_outside (h : [.fl, .pl] ⊆ L) {hot : Bool} {s : State} {r : Nat × State} (hr : convPen hot s = some r) :
    outside L r.2 = outside L s := by
  unfold convPen at hr
  dsimp only at hr
  split at hr
  · split at hr
    · cases hr; rfl
    · exact convPen_pick_outside h hr
  · exact convPen_pick_outside h hr

@[simp] theorem landUnits_outside (h : [.fl, .pl] ⊆ L) (hot : Bool) : ∀ (fuel : Nat) (us : List (Nat × List (Nat × Nat))) (s : State),
    outside L (landUnits hot fuel us s) = outside L s
  | _, [], s => by unfold landUnits; rfl
  | 0, _ :: _, _ => outside_mono h (by simp [landUnits])
  | fuel + 1, u :: us, s => by
    unfold landUnits
    split
    · exact outside_mono h (by simp)
    · rename_i hp
      exact (landUnits_outside h hot fuel _ _).trans ((landChunk_outside h ..).trans (convPen_outside h hp))

@[simp] theorem landConv_outside (h : [.fl, .pl] ⊆ L) (ps : List (Nat × Nat)) (s : State) : outside L (landConv ps s) = outside L s := by
  simp [landConv, landUnits_outside h]

@[simp] theorem placeWrite_outside (h : [.fl, .pl, .stb] ⊆ L) (id : Nat) (s : State) : outside L (placeWrite id s) = outside L s := by
  refine outside_mono h ?_
  unfold placeWrite
  split
  · rfl
  · dsimp only; split_ifs <;> simp

/-! ## Writes and the Slack's decisions -/

@[simp] theorem returnCharge_outside (h : [.slk, .zn] ⊆ L) (id n : Nat) (s : State) : outside L (returnCharge id n s) = outside L s :=
  outside_mono h (by unfold returnCharge; split <;> simp)

@[simp] theorem postWrite_outside (h : [.slk, .zn, .q, .stb, .ci] ⊆ L) (id wpath : Nat) (isHeld : Bool) (s : State) :
    outside L (postWrite id wpath isHeld s) = outside L s := by
  refine outside_mono h ?_
  unfold postWrite
  repeat' split
  all_goals simp

@[simp] theorem wakeFlushes_outside (h : [.q, .stb, .ci] ⊆ L) (s : State) : outside L (wakeFlushes s) = outside L s :=
  outside_foldl _ (fun s k => by split_ifs <;> simp [ok_outside h]) _ _

@[simp] theorem wrDurable_outside (h : [.slk, .zn, .q, .stb, .ci] ⊆ L) (id : Nat) (s : State) : outside L (wrDurable id s) = outside L s := by
  refine outside_mono h ?_
  unfold wrDurable
  split
  · rfl
  · dsimp only; split <;> simp

@[simp] theorem supersedeBy_outside (h : [.slk, .zn, .q, .stb, .ci] ⊆ L) (older : Wr → Bool) (lo hi : Nat) (s : State) :
    outside L (supersedeBy older lo hi s) = outside L s := by
  refine outside_mono h (outside_foldl _ (fun s w => ?_) _ _)
  dsimp only
  repeat' split
  all_goals simp

@[simp] theorem overtake_outside (h : [.slk, .zn, .q, .stb, .ci] ⊆ L) (w : Wr) (lo hi : Nat) (s : State) :
    outside L (overtake w lo hi s) = outside L s := by unfold overtake; split_ifs <;> simp [supersedeBy_outside h]

@[simp] theorem decideOne_outside (h : [.fl, .pl, .slk, .zn, .q, .stb, .ci] ⊆ L) (id : Nat) (s : State) :
    outside L (decideOne id s) = outside L s := by
  refine outside_mono h ?_
  unfold decideOne
  split
  · rfl
  · split_ifs
    · rfl
    · split
      · simp
      · dsimp only; split_ifs <;> simp
      · simp

@[simp] theorem decideAll_outside (h : [.fl, .pl, .slk, .zn, .q, .stb, .ci] ⊆ L) (s : State) : outside L (decideAll s) = outside L s := by
  unfold decideAll
  split_ifs
  · rfl
  · exact outside_foldl _ (fun _ _ => decideOne_outside h ..) _ _

@[simp] theorem failWrite_outside (h : [.fl, .pl, .slk, .zn, .q, .stb, .ci] ⊆ L) (id : Nat) (s : State) :
    outside L (failWrite id s) = outside L s := outside_mono h (by unfold failWrite; split <;> simp)

@[simp] theorem discardWrite_outside (h : [.pl, .slk, .zn] ⊆ L) (id : Nat) (s : State) : outside L (discardWrite id s) = outside L s :=
  outside_mono h (by unfold discardWrite; split <;> simp)

/-! ## A function's fence -/

@[simp] theorem dropComb_outside (h : [.fl] ⊆ L) (s : State) : outside L (dropComb s) = outside L s :=
  outside_mono h (by unfold dropComb; dsimp only; split_ifs <;> simp)

@[simp] theorem dropPasses_outside (h : [.ecc, .fl] ⊆ L) (gone : Pass → Bool) (s : State) : outside L (dropPasses gone s) = outside L s := by
  refine outside_mono h ?_
  unfold dropPasses
  extract_lets left t
  have ht : outside [.ecc, .fl] t = outside [.ecc, .fl] s := by
    simp only [t]
    repeat' split
    all_goals simp
  simp [ht]

@[simp] theorem fenceGather_outside (h : [.ga, .q, .stb] ⊆ L) (f : Nat) (s : State) : outside L (fenceGather f s) = outside L s :=
  outside_mono h (by unfold fenceGather; dsimp only; split_ifs <;> simp)

@[simp] theorem freeFenced_outside (h : [.q] ⊆ L) (s : State) : outside L (freeFenced s) = outside L s := outside_mono h (by simp [freeFenced])

@[simp] theorem resetWrites_outside (h : [.fl, .pl, .slk, .zn, .q, .stb, .ci] ⊆ L) (f : Nat) (s : State) :
    outside L (resetWrites f s) = outside L s := by
  refine outside_mono h ((outside_foldl _ (fun s w => ?_) _ _).trans (outside_foldl _ (fun s w => ?_) _ _))
  · simp
  · split_ifs <;> simp

@[simp] theorem fenceFn_outside (h : [.fl, .pl, .slk, .zn, .q, .stb, .ci, .ga, .ecc] ⊆ L) (f : Nat) (s : State) :
    outside L (fenceFn f s) = outside L s := outside_mono h (by simp [fenceFn])

@[simp] theorem updGdc_outside (h : [.ga] ⊆ L) (n : Nat) (g : Gdc → Gdc) (s : State) : outside L (updGdc n g s) = outside L s :=
  outside_mono h (by simp [updGdc])

@[simp] theorem laneState_outside (h : [.ga] ⊆ L) (ch st : Nat) (s : State) : outside L (laneState ch st s) = outside L s := by
  unfold laneState; split_ifs <;> simp [updGdc_outside h]

@[simp] theorem releaseLane_outside (h : [.ga] ⊆ L) (ch : Nat) (s : State) : outside L (releaseLane ch s) = outside L s := by
  refine outside_mono h ?_
  unfold releaseLane
  dsimp only
  repeat' split
  all_goals simp

/-! ## The Studbook's records -/

@[simp] theorem placeNew_outside (h : [.stb, .free] ⊆ L) (r : Rec) (us : Option Nat) (s : State) :
    outside L (placeNew r us s) = outside L s := by
  refine outside_mono h ?_
  unfold placeNew
  dsimp only
  repeat' split
  all_goals simp

@[simp] theorem placeEv_outside (h : [.stb, .free] ⊆ L) (e : Ev) (s : State) : outside L (placeEv e s) = outside L s := by
  refine outside_mono h ?_
  unfold placeEv
  dsimp only
  repeat' split
  all_goals simp

@[simp] theorem placeEarly_outside (h : [.stb] ⊆ L) (e : Ev) (s : State) : outside L (placeEarly e s) = outside L s := by
  refine outside_mono h ?_
  unfold placeEarly
  dsimp only
  repeat' split
  all_goals simp

@[simp] theorem appendEarly_outside (h : [.stb, .free] ⊆ L) : ∀ (n : Nat) (s : State), outside L (appendEarly n s) = outside L s
  | 0, _ => rfl
  | n + 1, s => by
    unfold appendEarly
    split
    · rfl
    · split
      · rfl
      · exact (appendEarly_outside h n _).trans ((placeNew_outside h ..).trans (outside_mono h (by simp)))

@[simp] theorem persistNow_outside (h : [.stb, .free] ⊆ L) (s : State) : outside L (persistNow s) = outside L s :=
  outside_mono h (by simp [persistNow])

@[simp] theorem placeFront_outside (h : [.stb, .free] ⊆ L) (s : State) : outside L (placeFront s) = outside L s := by
  refine outside_mono h ?_
  unfold placeFront
  dsimp only
  repeat' split
  all_goals simp

@[simp] theorem drainQueue_outside (h : [.stb, .free] ⊆ L) : ∀ (n : Nat) (s : State), outside L (drainQueue n s) = outside L s
  | 0, _ => rfl
  | n + 1, s => (drainQueue_outside h n _).trans (placeFront_outside h s)

@[simp] theorem persistAll_outside (h : [.stb, .free] ⊆ L) (s : State) : outside L (persistAll s) = outside L s := by
  refine outside_mono h ?_
  unfold persistAll
  dsimp only
  repeat' split
  all_goals simp

end Sys2Proof.Machine

/-! SUPPORT. What the operations of the Slack, the cadence, the ports and the admin commands leave alone (log 71). -/

namespace Sys2Proof.Machine
open Sys2Proof

variable {L : List Comp}

/-! ## The Slack and its proof -/

@[simp] theorem scaleQuotas_outside (h : [.slk, .stb] ⊆ L) (s : State) : outside L (scaleQuotas s) = outside L s :=
  outside_mono h (by unfold scaleQuotas; dsimp only; split <;> simp)

@[simp] theorem restoreQuotas_outside (h : [.slk] ⊆ L) (s : State) : outside L (restoreQuotas s) = outside L s :=
  outside_mono h (by unfold restoreQuotas; split <;> simp)

@[simp] theorem setWt_outside (h : [.m, .q, .stb, .ci] ⊆ L) (fail : Bool) (s : State) : outside L (setWt fail s) = outside L s :=
  outside_mono h (by unfold setWt; dsimp only; split <;> simp)

@[simp] theorem clearWt_outside (h : [.m, .q, .stb, .ci] ⊆ L) (s : State) : outside L (clearWt s) = outside L s :=
  outside_mono h (by simp [clearWt])

@[simp] theorem proofTrigger_outside (h : [.slk] ⊆ L) (soft : Bool) (s : State) : outside L (proofTrigger soft s) = outside L s :=
  outside_mono h (by unfold proofTrigger; dsimp only; split <;> simp)

@[simp] theorem proofDone_outside (h : [.m, .st, .slk, .q, .stb, .ci] ⊆ L) (code : Nat) (s : State) :
    outside L (proofDone code s) = outside L s := by
  refine outside_mono h ?_
  unfold proofDone
  dsimp only
  split_ifs <;> simp

@[simp] theorem proofStamps_outside (h : [.slk] ⊆ L) (s : State) : outside L (proofStamps s) = outside L s :=
  outside_mono h (by simp [proofStamps])

theorem slackReportOn_outside (h : [.slk, .q, .stb, .ci] ⊆ L) (k : Ctx) (s : State) : outside L (slackReportOn k s) = outside L s := by
  have counted : ∀ (fs : List Nat) (s : State), outside [.slk, .q, .stb, .ci] (fs.foldl (fun s f =>
      if (Tbl.get? s.slk.fns f).isSome then updSlk f (fun a => { a with heldSince := 0 }) s else s) s) = outside [.slk, .q, .stb, .ci] s :=
    outside_foldl _ fun s f => by split <;> simp
  refine outside_mono h ?_
  unfold slackReportOn
  dsimp only
  split_ifs <;> simp [counted]

/-! ## SRAM -/

@[simp] theorem sramCorrected_outside (h : [.ecc, .stb] ⊆ L) (die region word syn : Nat) (s : State) :
    outside L (sramCorrected die region word syn s) = outside L s := outside_mono h (by simp [sramCorrected])

@[simp] theorem sramStore_outside (h : [.ecc, .stb] ⊆ L) (die region word : Nat) (s : State) :
    outside L (sramStore die region word s) = outside L s := outside_mono h (by unfold sramStore; split <;> simp)

@[simp] theorem sramFlip_outside (h : [.ecc, .stb] ⊆ L) (die region word : Nat) (s : State) :
    outside L (sramFlip die region word s) = outside L s := by unfold sramFlip; split <;> simp [sramStore_outside h]

@[simp] theorem writeFlipCtl_outside (h : [.ecc] ⊆ L) (v : Nat) (s : State) : outside L (writeFlipCtl v s) = outside L s :=
  outside_mono h (by unfold writeFlipCtl; split <;> simp)

/-! ## The cadence: tokens, headers, turns -/

@[simp] theorem setToken_outside (h : [.stb, .cad, .free] ⊆ L) (lvl : Nat) (s : State) : outside L (setToken lvl s) = outside L s :=
  outside_mono h (by unfold setToken; dsimp only; split <;> simp)

@[simp] theorem headerCmd_outside (h : [.stb, .cad] ⊆ L) (cmd arg seq : Nat) (s : State) : outside L (headerCmd cmd arg seq s) = outside L s := by
  refine outside_mono h ?_
  unfold headerCmd
  dsimp only
  split_ifs <;> simp

@[simp] theorem setVer_outside (h : [.stb, .cad, .free] ⊆ L) (v : Nat) (s : State) : outside L (setVer v s) = outside L s :=
  outside_mono h (by unfold setVer; dsimp only; split_ifs <;> simp)

@[simp] theorem takeSched_outside (h : [.cad] ⊆ L) (s : State) : outside L (takeSched s) = outside L s := by
  refine outside_mono h ?_
  unfold takeSched
  repeat' split
  all_goals simp

@[simp] theorem epochWork_outside (h : [.stb, .cad, .free] ⊆ L) (s : State) : outside L (epochWork s) = outside L s :=
  outside_mono h (by unfold epochWork; dsimp only; split <;> simp)

@[simp] theorem driveTurn_outside (h : [.cad] ⊆ L) (s : State) : outside L (driveTurn s) = outside L s :=
  outside_mono h (by simp [driveTurn])

@[simp] theorem rootTurn_outside (h : [.stb, .cad] ⊆ L) (s : State) : outside L (rootTurn s) = outside L s := by
  refine outside_mono h ?_
  unfold rootTurn
  extract_lets _ s0 _ s1
  have h1 : outside [.stb, .cad] s1 = outside [.stb, .cad] s := by simp [s1, s0]
  split <;> simp [h1]

@[simp] theorem turnEnds_outside (h : [.cad] ⊆ L) (s : State) : outside L (turnEnds s) = outside L s :=
  outside_mono h (by unfold turnEnds; split <;> simp)

@[simp] theorem lockRises_outside (h : [.tm, .stb, .cad] ⊆ L) (s : State) : outside L (lockRises s) = outside L s :=
  outside_mono h (by unfold lockRises; split <;> simp)

@[simp] theorem softTurn_outside (h : [.slk] ⊆ L) (s : State) : outside L (softTurn s) = outside L s := outside_mono h (by simp [softTurn])

@[simp] theorem newTurn_outside (h : [.tm, .slk, .pl, .stb, .cad, .free] ⊆ L) (s : State) : outside L (newTurn s) = outside L s := by
  refine outside_mono h ?_
  unfold newTurn
  extract_lets s1 wrap _ tm _ cad _ _ s2 s3 s4
  have h2 : outside [.tm, .slk, .pl, .stb, .cad, .free] s2 = outside [.tm, .slk, .pl, .stb, .cad, .free] s := by simp [s2, s1]
  have h3 : outside [.tm, .slk, .pl, .stb, .cad, .free] s3 = outside [.tm, .slk, .pl, .stb, .cad, .free] s := by simp [s3, h2]
  have h4 : outside [.tm, .slk, .pl, .stb, .cad, .free] s4 = outside [.tm, .slk, .pl, .stb, .cad, .free] s := by
    simp only [s4]; split <;> simp [h3]
  split <;> simp [h4]

@[simp] theorem dropLock_outside (h : [.tm, .cad] ⊆ L) (s : State) : outside L (dropLock s) = outside L s :=
  outside_mono h (by simp [dropLock])

@[simp] theorem loseLock_outside (h : [.tm, .stb, .cad] ⊆ L) (cause : Nat) (s : State) : outside L (loseLock cause s) = outside L s :=
  outside_mono h (by simp [loseLock])

@[simp] theorem alignCount_outside (h : [.tm, .stb, .cad] ⊆ L) (e t : Nat) (s : State) : outside L (alignCount e t s) = outside L s :=
  outside_mono h (by unfold alignCount; dsimp only; split <;> simp)

@[simp] theorem goodHeader_outside (h : [.tm, .stb, .cad, .free] ⊆ L) (hd : List Byte) (rollcall : Nat) (s : State) :
    outside L (goodHeader hd rollcall s) = outside L s := by
  refine outside_mono h ?_
  unfold goodHeader
  extract_lets ver e t s0 _ s1 _ s2 _ s3 v2 _ s4
  have h1 : outside [.tm, .stb, .cad, .free] s1 = outside [.tm, .stb, .cad, .free] s := by simp [s1, s0]
  have h2 : outside [.tm, .stb, .cad, .free] s2 = outside [.tm, .stb, .cad, .free] s := by simp only [s2]; split_ifs <;> simp [h1]
  have h3 : outside [.tm, .stb, .cad, .free] s3 = outside [.tm, .stb, .cad, .free] s := by simp only [s3]; split_ifs <;> simp [h2]
  have h4 : outside [.tm, .stb, .cad, .free] s4 = outside [.tm, .stb, .cad, .free] s := by simp [s4, h3]
  split_ifs <;> simp [h4]

@[simp] theorem badHeader_outside (h : [.tm, .stb, .cad] ⊆ L) (s : State) : outside L (badHeader s) = outside L s :=
  outside_mono h (by unfold badHeader; dsimp only; split_ifs <;> simp)

@[simp] theorem relockNow_outside (h : [.tm, .cad] ⊆ L) (s : State) : outside L (relockNow s) = outside L s := by
  unfold relockNow; split <;> simp [dropLock_outside h]

@[simp] theorem tokenReleaseNow_outside (h : [.stb, .cad, .free] ⊆ L) (s : State) : outside L (tokenReleaseNow s) = outside L s :=
  outside_mono h (by unfold tokenReleaseNow; split <;> simp)

@[simp] theorem answer_outside (h : [.cad] ⊆ L) (w : Nat) (s : State) : outside L (answer w s) = outside L s :=
  outside_mono h (by simp [answer])

@[simp] theorem forwardTurn_outside (h : [.cad] ⊆ L) (hd : List Byte) (rollcall : Nat) (s : State) :
    outside L (forwardTurn hd rollcall s) = outside L s := outside_mono h (by simp [forwardTurn])

@[simp] theorem rollCall_outside (h : [.cad] ⊆ L) (ups : List (Nat × BitVec 1024)) (s : State) : outside L (rollCall ups s) = outside L s :=
  outside_mono h (by simp [rollCall])

@[simp] theorem writeRootCmd_outside (h : [.cad] ⊆ L) (cmd arg : Nat) (send : Bool) (s : State) :
    outside L (writeRootCmd cmd arg send s) = outside L s := outside_mono h (by unfold writeRootCmd; dsimp only; split <;> simp)

@[simp] theorem writeRootEpoch_outside (h : [.cad] ⊆ L) (v : Nat) (s : State) : outside L (writeRootEpoch v s) = outside L s :=
  outside_mono h (by simp [writeRootEpoch])

/-! ## The cadence: participants and schedules -/

@[simp] theorem updPart_outside (h : [.cad] ⊆ L) (a : Nat) (g : Part13 → Part13) (s : State) : outside L (updPart a g s) = outside L s :=
  outside_mono h (by simp [updPart])

@[simp] theorem commitSched_outside (h : [.stb, .cad] ⊆ L) (l : List Byte) (arg src : Nat) (s : State) :
    outside L (commitSched l arg src s) = outside L s := outside_mono h (by simp [commitSched])

@[simp] theorem failDeliv_outside (h : [.q, .stb, .ci, .cad] ⊆ L) (d : Deliv) (cause : Nat) (s : State) :
    outside L (failDeliv d cause s) = outside L s := by
  refine outside_mono h ?_
  unfold failDeliv
  dsimp only
  repeat' split
  all_goals simp

@[simp] theorem beginDelivs_outside (h : [.q, .stb, .ci, .cad] ⊆ L) : ∀ (fuel : Nat) (s : State), outside L (beginDelivs fuel s) = outside L s
  | 0, _ => rfl
  | fuel + 1, s => by
    unfold beginDelivs
    split
    · rfl
    · split
      · exact (beginDelivs_outside h fuel _).trans (outside_mono h (by simp))
      · exact (beginDelivs_outside h fuel _).trans (failDeliv_outside h ..)

@[simp] theorem delivAnswer_outside (h : [.q, .stb, .ci, .cad] ⊆ L) (d : Deliv) (code reply : Nat) (s : State) :
    outside L (delivAnswer d code reply s) = outside L s := by
  refine outside_mono h ?_
  unfold delivAnswer
  dsimp only
  repeat' split
  all_goals simp

theorem schedLoadOn_outside (h : [.q, .stb, .ci, .cad] ⊆ L) (buf : List Byte) (k : Ctx) (s : State) :
    outside L (schedLoadOn buf k s) = outside L s := by
  refine outside_mono h ?_
  unfold schedLoadOn
  dsimp only
  split_ifs <;> simp

/-! ## Power -/

@[simp] theorem avsStep_outside (h : [.pw, .free] ⊆ L) (s : State) : outside L (avsStep s) = outside L s :=
  outside_mono h (by unfold avsStep; split <;> simp)

/-! ## Keys, check-value units, Gather -/

@[simp] theorem clearSlots_outside (h : [.ci] ⊆ L) (gone : Nat → Bool) (s : State) : outside L (clearSlots gone s) = outside L s :=
  outside_mono h (by simp [clearSlots])

@[simp] theorem commitKey_outside (h : [.stb, .ci] ⊆ L) (f slot : Nat) (key : List Byte) (s : State) :
    outside L (commitKey f slot key s) = outside L s := outside_mono h (by unfold commitKey; dsimp only; split_ifs <;> simp)

@[simp] theorem keyWrite_outside (h : [.stb, .ci] ⊆ L) (f off : Nat) (bytes : List Byte) (s : State) :
    outside L (keyWrite f off bytes s) = outside L s := outside_mono h (by unfold keyWrite; dsimp only; split_ifs <;> simp)

@[simp] theorem cvuCtl_outside (h : [.ci] ⊆ L) (u v : Nat) (s : State) : outside L (cvuCtl u v s) = outside L s := updCvu_outside h ..

@[simp] theorem cvuFeed_outside (h : [.ci] ⊆ L) (u : Nat) (bytes : List Byte) (s : State) : outside L (cvuFeed u bytes s) = outside L s := by
  unfold cvuFeed; split <;> simp [updCvu_outside h]

@[simp] theorem cvuVal_outside (h : [.ci] ⊆ L) (u v : Nat) (s : State) : outside L (cvuVal u v s) = outside L s := updCvu_outside h ..

@[simp] theorem requestLane_outside (h : [.ga] ⊆ L) (ch : Nat) (s : State) : outside L (requestLane ch s) = outside L s := by
  refine outside_mono h ?_
  unfold requestLane
  dsimp only
  repeat' split
  all_goals simp

/-! ## Stalls -/

theorem vmOn_outside (h : [.q, .stb, .ci] ⊆ L) (k : Ctx) (s : State) (f : Nat → State) (hf : ∀ n, outside L (f n) = outside L s) :
    outside L (vmOn k s f) = outside L s := by
  unfold vmOn; split <;> simp [hf, fin_outside h]

theorem vmAssignOn_outside (h : [.q, .stb, .ci] ⊆ L) (k : Ctx) (s : State) : outside L (vmAssignOn k s) = outside L s :=
  outside_mono h (vmOn_outside (List.Subset.refl _) k s _ fun n => by dsimp only; split_ifs <;> simp)

@[simp] theorem lowerKeys_outside (h : [.stb, .ci] ⊆ L) (f n : Nat) (s : State) : outside L (lowerKeys f n s) = outside L s :=
  outside_mono h (outside_foldl _ (fun s i => by dsimp only; split_ifs <;> simp) _ _)

@[simp] theorem srApply_outside (h : [.slk, .stb, .stl, .ci] ⊆ L) (f sel : Nat) (b : List Byte) (s : State) :
    outside L (srApply f sel b s) = outside L s := by
  refine outside_mono h ?_
  unfold srApply
  extract_lets r s1 s2 _ s3 r1 r2
  have h1 : outside [.slk, .stb, .stl, .ci] s1 = outside [.slk, .stb, .stl, .ci] s := by simp only [s1]; split <;> simp
  have h2 : outside [.slk, .stb, .stl, .ci] s2 = outside [.slk, .stb, .stl, .ci] s := by simp only [s2]; split <;> simp [h1]
  have h3 : outside [.slk, .stb, .stl, .ci] s3 = outside [.slk, .stb, .stl, .ci] s := by simp only [s3]; split <;> simp [h2]
  split <;> simp [h3]

theorem srOn_outside (h : [.slk, .q, .stb, .stl, .ci] ⊆ L) (b : List Byte) (k : Ctx) (s : State) : outside L (srOn b k s) = outside L s := by
  refine outside_mono h ?_
  unfold srOn
  dsimp only
  split_ifs <;> simp

theorem thawOn_outside (h : [.q, .stb, .stl, .ci] ⊆ L) (k : Ctx) (s : State) : outside L (thawOn k s) = outside L s :=
  outside_mono h (by unfold thawOn; dsimp only; split_ifs <;> simp)

theorem saveOn_outside (h : [.q, .stb, .stl, .ci] ⊆ L) (k : Ctx) (s : State) : outside L (saveOn k s) = outside L s := by
  refine outside_mono h ?_
  unfold saveOn
  dsimp only
  repeat' split
  all_goals simp

theorem stallSerial_outside (h : [.q] ⊆ L) (b : List Byte) (k : Ctx) (s run : State) (hr : outside L run = outside L s) :
    outside L (stallSerial b k s run) = outside L s := by
  unfold stallSerial; dsimp only; split <;> simp [hr, putCtx_outside h]

/-! ## Controllers and queues -/

@[simp] theorem badDoorbell_outside (h : [.q, .stb, .ci] ⊆ L) (f qid val info : Nat) (s : State) :
    outside L (badDoorbell f qid val info s) = outside L s := outside_mono h (by unfold badDoorbell; dsimp only; split <;> simp)

@[simp] theorem shutNow_outside (h : [.slk, .q, .jn] ⊆ L) (f : Nat) (s : State) : outside L (shutNow f s) = outside L s :=
  outside_mono h (by unfold shutNow; dsimp only; split_ifs <;> simp)

@[simp] theorem holdWr_outside (h : [.q] ⊆ L) (f : Nat) (w : HeldWr) (s : State) : outside L (holdWr f w s) = outside L s :=
  updFn_outside h ..

theorem createSqOn_outside (h : [.q, .stb, .ci] ⊆ L) (k : Ctx) (s : State) : outside L (createSqOn k s) = outside L s := by
  refine outside_mono h ?_
  unfold createSqOn
  dsimp only
  repeat' split
  all_goals simp

theorem createCqOn_outside (h : [.q, .stb, .ci] ⊆ L) (k : Ctx) (s : State) : outside L (createCqOn k s) = outside L s := by
  refine outside_mono h ?_
  unfold createCqOn
  dsimp only
  repeat' split
  all_goals simp

theorem deleteCqOn_outside (h : [.q, .stb, .ci] ⊆ L) (k : Ctx) (s : State) : outside L (deleteCqOn k s) = outside L s :=
  outside_mono h (by unfold deleteCqOn; dsimp only; split_ifs <;> simp)

/-! ## Log pages, Get Features, Firmware Commit -/

@[simp] theorem logReply_outside (h : [.q, .stb, .ci, .free] ⊆ L) (data : List Byte) (k : Ctx) (s : State) :
    outside L (logReply data k s) = outside L s := outside_mono h (by unfold logReply; dsimp only; split_ifs <;> simp)

theorem yardLogOn_outside (h : [.q, .stb, .ci, .free] ⊆ L) (k : Ctx) (s : State) : outside L (yardLogOn k s) = outside L s :=
  logReply_outside h ..

theorem cadLogOn_outside (h : [.q, .stb, .ci, .cad, .free] ⊆ L) (k : Ctx) (s : State) : outside L (cadLogOn k s) = outside L s :=
  outside_mono h (by unfold cadLogOn; dsimp only; split <;> simp)

theorem lifeLogOn_outside (h : [.q, .stb, .ci, .free] ⊆ L) (k : Ctx) (s : State) : outside L (lifeLogOn k s) = outside L s :=
  outside_mono h (by unfold lifeLogOn; split <;> simp)

@[simp] theorem readAck_outside (h : [.q, .stb, .ci] ⊆ L) (k : Ctx) (s : State) : outside L (readAck k s) = outside L s :=
  outside_mono h (by unfold readAck; dsimp only; split_ifs <;> simp)

theorem logOn_outside (h : [.q, .stb, .ci, .cad, .free] ⊆ L) (k : Ctx) (s : State) : outside L (logOn k s) = outside L s := by
  have cad := cadLogOn_outside (List.Subset.refl _) k s
  have yard := yardLogOn_outside (L := [.q, .stb, .ci, .cad, .free]) (by simp) k s
  have life := lifeLogOn_outside (L := [.q, .stb, .ci, .cad, .free]) (by simp) k s
  refine outside_mono h ?_
  unfold logOn
  dsimp only
  split <;> simp [cad, yard, life]

theorem getFeatOn_outside (h : [.q, .stb, .ci] ⊆ L) (k : Ctx) (s : State) : outside L (getFeatOn k s) = outside L s := by
  refine outside_mono h ?_
  unfold getFeatOn
  dsimp only
  repeat' split
  all_goals simp

theorem commitOn_outside (h : [.q, .stb, .ci] ⊆ L) (k : Ctx) (s : State) : outside L (commitOn k s) = outside L s :=
  outside_mono h (by unfold commitOn; dsimp only; split_ifs <;> simp)

/-! ## Register reads -/

@[simp] theorem updWin_outside (h : [.stb] ⊆ L) (view : Nat) (g : StbWin → StbWin) (s : State) : outside L (updWin view g s) = outside L s :=
  outside_mono h (by simp [updWin])

@[simp] theorem latchSlot_outside (h : [.stb] ⊆ L) (view i : Nat) (s : State) : outside L (latchSlot view i s) = outside L s :=
  updWin_outside h ..

@[simp] theorem readOut_outside (h : [.rg] ⊆ L) (v : Nat) (s : State) : outside L (readOut v s) = outside L s :=
  outside_mono h (by simp [readOut])

/-- P_PEAK is all that the clearing of a read touches (R395). -/
@[simp] theorem peakRead_outside (h : [.pw] ⊆ L) (lo hi : Nat) (s : State) : outside L (peakRead lo hi s) = outside L s :=
  outside_mono h (by unfold peakRead; split <;> simp)

@[simp] theorem read32_outside (h : [.pw, .stb, .rg] ⊆ L) (fn off : Nat) (s : State) : outside L (read32 fn off s) = outside L s := by
  refine outside_mono h ?_
  unfold read32
  dsimp only
  repeat' split
  all_goals simp

@[simp] theorem readPlain_outside (h : [.pw, .stb, .rg] ⊆ L) (fn off n : Nat) (s : State) : outside L (readPlain fn off n s) = outside L s := by
  refine outside_mono h ?_
  unfold readPlain
  dsimp only
  split_ifs <;> simp

@[simp] theorem readBar2_outside (h : [.pw, .stb, .rg] ⊆ L) (fn off width : Nat) (s : State) :
    outside L (readBar2 fn off width s) = outside L s := by
  unfold readBar2; split <;> simp [read32_outside h, readPlain_outside h]

/-! ## The test port -/

@[simp] theorem selIr_outside (h : [.ts] ⊆ L) (code drive tdo : Nat) (s : State) : outside L (selIr code drive tdo s) = outside L s :=
  outside_mono h (by simp [selIr])

@[simp] theorem selBypass_outside (h : [.ts] ⊆ L) (s : State) : outside L (selBypass s) = outside L s := selIr_outside h ..

@[simp] theorem mbEnds_outside (h : [.stb, .ts, .free] ⊆ L) (run rep fails first : Nat) (s : State) :
    outside L (mbEnds run rep fails first s) = outside L s := outside_mono h (by unfold mbEnds; dsimp only; split <;> simp)

@[simp] theorem mbClears_outside (h : [.ecc, .q, .stb, .stl, .ci] ⊆ L) (v : Nat) (s : State) : outside L (mbClears v s) = outside L s :=
  outside_mono h (by unfold mbClears; dsimp only; split_ifs <;> simp)

end Sys2Proof.Machine

/-! SUPPORT. O4 and O42: what State.reset holds, and what the admin commands that only report answer. -/

namespace Sys2Proof.Machine
open Sys2Proof

/-! ## Reset -/

/-- Settles O4: each clause is a field of `State.reset`. -/
theorem resetLeaves : Obligations.ResetLeaves := by
  unfold Obligations.ResetLeaves
  exact ⟨rfl, rfl, rfl, rfl, rfl, rfl, rfl, rfl, rfl, rfl, rfl, rfl, rfl⟩

/-! ## A command that reports -/

/-- The context of a command that has been dispatched. -/
def dispatch (k : Ctx) : Ctx := { k with dispatched := true }

@[simp] theorem dispatch_cmd (k : Ctx) : (dispatch k).cmd = k.cmd := rfl

/-- An admin command a sanitize does not stop runs on its context, dispatched. -/
theorem gateAdmin_dispatch {k : Ctx} (hp : plainForm k) (s : State) (f : Ctx → State → State) :
    gateAdmin true true k s f = f (dispatch k) s := gateAdmin_san hp s f

/-- A completion of the dispatched context is one of the context. -/
theorem endsWith_dispatch (k : Ctx) (sct sc dw0 : Nat) (data : List Byte) (u : State) :
    endsWith k sct sc dw0 data u (postFull (dispatch k) sct sc dw0 0 data u) := ⟨dispatch k, rfl, rfl, rfl, rfl⟩

/-- A command whose meaning ends with a completion answers it. -/
theorem ends_of_taken {c : Cmd} {s s1 : State} {k : Ctx} (ht : taken c s = some (k, s1)) {g : Ctx → State → State} {sct sc dw0 : Nat}
    {data : List Byte} (he : endsWith k sct sc dw0 data s1 (g k s1)) :
    ∃ u, done (withCmd c s g) = .next (after u) ∧ endsWith k sct sc dw0 data s1 u :=
  ⟨g k s1, by rw [withCmd_taken ht, done_after], he⟩

/-- An admin command that a sanitize does not stop and whose meaning is one completion ends with it. -/
theorem ends_of_postFull {c : Cmd} {s s1 : State} {k : Ctx} (ht : taken c s = some (k, s1)) (hp : plainForm k) {f : Ctx → State → State}
    {sct sc dw0 : Nat} {data : List Byte} (hf : f (dispatch k) s1 = postFull (dispatch k) sct sc dw0 0 data s1) :
    ∃ u, done (withCmd c s (fun k s => gateAdmin true true k s f)) = .next (after u) ∧ endsWith k sct sc dw0 data s1 u :=
  ends_of_taken ht (by rw [gateAdmin_dispatch hp, hf]; exact endsWith_dispatch ..)

/-! ## Log pages -/

@[simp] theorem leBytes_length : ∀ n v : Nat, (leBytes n v).length = n
  | 0, _ => rfl
  | n + 1, v => by simp [leBytes, leBytes_length n]

/-- The Service Life page has 64 bytes (Table 17.6). -/
theorem lifePage_length (s : State) : (lifePage s).length = 64 := by simp [lifePage, zeroBytes]

/-- An entry of log page 0xD3 has 8 bytes. -/
theorem cadEntry_length (a : Nat) (s : State) : (cadEntry a s).length = 8 := by unfold cadEntry; split <;> simp

/-- The Cadence Domain Status page has 1,024 entries. -/
theorem cadPage_length (s : State) : ((List.range 1024).flatMap (fun a => cadEntry a s)).length = 8192 := by
  simp only [List.length_flatMap, cadEntry_length, List.map_const', List.length_range, List.sum_replicate, smul_eq_mul]

/-- A part of a log page that lies within it is answered as it stands. -/
theorem logReply_within {data : List Byte} {k : Ctx} {s : State} (h4 : logOff k.cmd % 4 = 0) (hmax : logLen k.cmd ≤ 2097152)
    (hin : logOff k.cmd + logLen k.cmd ≤ data.length) :
    logReply data k s = okData k ((data.drop (logOff k.cmd)).take (logLen k.cmd)) s := by
  have hlen : ((data.drop (logOff k.cmd)).take (logLen k.cmd)).length = logLen k.cmd := by
    rw [List.length_take, List.length_drop]; omega
  unfold logReply
  rw [if_neg (by omega)]
  simp only [hlen, Nat.lt_irrefl, if_false, Nat.sub_self]
  simp [freeBytes]

/-- The pages of Get Log Page that are read with an acknowledgement. -/
theorem logOn_page {k : Ctx} {s : State} {p : Nat × List Byte}
    (hp : p ∈ [(0x00, supportPage k.cmd.fn s), (0x01, errPage k.cmd.fn s), (0x02, smartPage k.cmd.fn s), (0x03, fwPage s),
      (0x81, sanitizePage s), (0xBF, changedPage k.cmd.fn k.cmd.nsid s)]) (hl : lidOf k.cmd = p.1) :
    logOn k s = tick (readAck k (logReply p.2 k s)) := by
  simp only [List.mem_cons, List.not_mem_nil, or_false] at hp
  rcases hp with rfl | rfl | rfl | rfl | rfl | rfl <;> simp [logOn, hl]

/-- A page Get Log Page does not support. -/
theorem logOn_unsupported {k : Ctx} {s : State} (hl : lidOf k.cmd ∉ [0x00, 0x01, 0x02, 0x03, 0x04, 0x81, 0xBF, 0xD3, 0xD5, 0xD7]) :
    logOn k s = fin k 1 0x09 s := by
  unfold logOn
  split <;> simp_all

/-! ## Features -/

/-- The current value, or the default for SEL 1 and 2, of a Feature that has one. -/
theorem getFeatOn_value {k : Ctx} {s : State} {r : Nat × List Byte} (hsel : selOf k.cmd < 3)
    (hr : featOf k.cmd (selOf k.cmd == 1 || selOf k.cmd == 2) s = some r) : getFeatOn k s = postFull k 0 0 r.1 0 r.2 s := by
  unfold getFeatOn
  simp only [hr]
  rw [if_neg (by omega), if_neg (by omega)]

/-- The capabilities of a Feature that has a value: changeable, not savable. -/
theorem getFeatOn_capabilities {k : Ctx} {s : State} (hsel : selOf k.cmd = 3) (hr : (featOf k.cmd false s).isSome = true) :
    getFeatOn k s = okDw0 k 4 s := by
  obtain ⟨r, hr⟩ := Option.isSome_iff_exists.1 hr
  simp [getFeatOn, hsel, hr]

/-! ## O42 -/

/-- Settles O42: on a context taken and of a plain form every row's meaning is one completion; the log pages' lengths say that nothing is read
past them. -/
theorem adminAnswers : Obligations.AdminAnswers := by
  unfold Obligations.AdminAnswers
  intro c s s1 k ht hp
  have hk : k.cmd = c := taken_cmd ht
  subst hk
  refine ⟨?_, ?_, ?_, ?_, ?_, ?_, ?_, ?_, ?_, ?_, ?_, ?_, ?_⟩
  · intro d hd
    exact ends_of_postFull ht hp (by simp only [hd]; rfl)
  · intro e he
    exact ends_of_postFull ht hp (by simp only [he]; rfl)
  · intro hcns
    simp [identifyData, hcns]
  · intro p hmem hl h4 hmax hin
    refine ⟨okData (dispatch k) ((p.2.drop (logOff k.cmd)).take (logLen k.cmd)) s1, ?_, endsWith_dispatch ..⟩
    show done _ = _
    rw [withCmd_taken ht, gateAdmin_dispatch hp, logOn_page (k := dispatch k) hmem hl, logReply_within (k := dispatch k) h4 hmax hin, done_after]
    rfl
  · intro hl
    exact ends_of_postFull ht hp (logOn_unsupported hl)
  · intro hpf h4 hin
    refine ends_of_postFull ht hp (f := lifeLogOn) ?_
    have hlen := lifePage_length s1
    rw [lifeLogOn, if_pos (c := isPf (dispatch k).cmd.fn = true) hpf, 
      logReply_within (k := dispatch k) h4 (by simpa using by omega) (by simpa using by omega)]
    rfl
  · intro hpf
    constructor
    · exact ends_of_postFull ht hp (by simp [lifeLogOn, hpf, fin])
    · exact ends_of_postFull ht hp (by simp [cadLogOn, hpf, fin])
  · intro hpf hroot h4 hin
    have hlen := cadPage_length s1
    have hpage : logReply ((List.range 1024).flatMap (fun a => cadEntry a s1)) (dispatch k) s1 = _ :=
      logReply_within (k := dispatch k) h4 (by simpa using by omega) (by rw [hlen]; simpa using by omega)
    refine ⟨cadLogOn (dispatch k) s1, okData (dispatch k) _ s1, ?_, ?_, endsWith_dispatch ..⟩
    · show done _ = _
      rw [withCmd_taken ht, gateAdmin_dispatch hp, done_after]
    · simp only [cadLogOn, hroot, dispatch_cmd, hpf, Bool.and_self, if_true, hpage]
  · intro r hsel hr
    exact ends_of_postFull ht hp (getFeatOn_value (by simpa using by omega) (by simpa [hsel] using hr))
  · intro r hsel hr
    refine ends_of_postFull ht hp (getFeatOn_value (by simpa using by omega) ?_)
    rcases hsel with hsel | hsel <;> simpa [hsel] using hr
  · intro hsel hr
    exact ends_of_postFull ht hp (getFeatOn_capabilities hsel hr)
  · intro hq ho
    refine ends_of_taken ht ?_
    rw [if_pos ⟨hq, ho⟩, gateAdmin_dispatch hp]
    exact endsWith_dispatch ..
  · intro hne
    refine ends_of_taken ht ?_
    rw [if_neg (by tauto), gateForm_denied]
    exact ⟨k, rfl, rfl, rfl, rfl⟩

end Sys2Proof.Machine

/-! SUPPORT. O57: what reads and writes of one register do, once the access itself (R374) is out of the way. -/

namespace Sys2Proof.Machine
open Sys2Proof

/-! ## Reads -/

/-- A read of BAR2 by a function that is present. -/
theorem regRead_bar2 {fn off width : Nat} {s : State} (hf : fnPresent fn s = true) (hw : [1, 2, 4, 8].contains width = true) :
    regRead fn 2 off width s = .next (after (readBar2 fn off width (touch fn s))) := by
  simp only [regRead, hf, hw, Bool.not_true, Bool.or_false, Bool.false_eq_true, if_false, if_true, done_after]
  rfl

/-- A read of the low dword of a 64-bit register returns its low half and keeps the high one (R18). -/
theorem read32_low {fn off : Nat} {t : State} {r : Reg} (h8 : off % 8 = 0) (hr : regAt? fn off t = some r) (ho : r.off = off) (hb : r.bytes = 8) :
    read32 fn off t = readOut (r.val t % 2 ^ 32) { t with rg := { t.rg with shadow := Tbl.put t.rg.shadow (regKey fn off) (r.val t / 2 ^ 32) } } := by
  unfold read32
  rw [if_neg (by omega)]
  simp only [hr, hb, ho, if_true]

/-- A read of the high dword returns the half kept, which is then gone (R18). -/
theorem read32_high {fn off h : Nat} {t : State} {r : Reg} (h8 : off % 8 = 0) (hr : regAt? fn (off + 4) t = some r) (ho : r.off = off)
    (hb : r.bytes = 8) (hh : Tbl.get? t.rg.shadow (regKey fn off) = some h) :
    read32 fn (off + 4) t = readOut h { t with rg := { t.rg with shadow := Tbl.del t.rg.shadow (regKey fn off) } } := by
  unfold read32
  rw [if_neg (by omega)]
  simp only [hr, hb, ho, if_true]
  rw [if_neg (by omega)]
  simp [Tbl.getD, hh]

/-- A narrow read, or a 64-bit one away from the Studbook's window, returns the addressed bytes; no shadow is kept and none dropped. -/
theorem readPlain_rg {fn off n : Nat} {t : State} (hwin : ¬(0x7800 ≤ off ∧ off < 0x8000)) :
    (readPlain fn off n t).rg = { t.rg with reads := t.rg.reads ++ [regBytes fn off n t] } ∧ (readPlain fn off n t).zn = t.zn := by
  unfold readPlain
  simp only [hwin, decide_false, Bool.and_false, Bool.false_eq_true, if_false]
  split
  · exact ⟨keeps_of_outside (x := .rg) (peakRead_outside (List.Subset.refl _) ..) (by decide),
      keeps_of_outside (x := .zn) (peakRead_outside (List.Subset.refl _) ..) (by decide)⟩
  · exact ⟨rfl, rfl⟩

/-- PWR_MEAS stands at 0x4008 of a physical function's BAR2 (Table 14.8). -/
theorem regAt_pwrMeas {fn : Nat} (s : State) (hf : isPf fn = true) :
    regAt? fn 0x4008 s = some (r4 0x4008 (fun s => fld 0 16 s.pw.pWin + fld 16 16 s.pw.pPeak)) := by
  have hfch : fchAbsent 0x4008 s = false := by simp only [fchAbsent, decide_eq_false_iff_not]; omega
  simp [regAt?, hf, hfch, txsBlock, pwrRegs, r4, r8]

/-- A read of PWR_MEAS clears P_PEAK (R395). -/
theorem read32_pwrMeas {fn : Nat} (t : State) (hf : isPf fn = true) :
    ∃ v, read32 fn 0x4008 t = { readOut v t with pw := { t.pw with pPeak := 0 } } := by
  refine ⟨regBytes fn 0x4008 4 t, ?_⟩
  unfold read32
  simp [regAt_pwrMeas t hf, r4, hf, peakRead, readOut]

/-! ## Writes -/

/-- The MSI-X table lies above the controller registers of BAR0. -/
theorem below_msix {off : Nat} (h : off < 0x1000) (f : Nat) (s : State) :
    ¬((msixBase f).1 ≤ off ∧ off < (msixBase f).1 + 16 * vectorsOf f s) := by
  unfold msixBase
  split <;> simp only <;> omega

theorem bar0Write_aqa (f v : Nat) (s : State) :
    bar0Write f 0x24 v s = updFn f (fun n => { n with asqs := bits v 11 0, acqs := bits v 27 16 }) s := by
  simp only [bar0Write, below_msix (show 0x24 < 0x1000 by decide), if_false]

/-- The two dwords of ASQ. -/
theorem bar0Write_asq (f v w : Nat) (s : State) : bar0Write f 0x2C w (bar0Write f 0x28 v s) =
    updFn f (fun n => { n with asq := n.asq % 2 ^ 32 + w * 2 ^ 32 }) (updFn f (fun n => { n with asq := n.asq / 2 ^ 32 * 2 ^ 32 + v }) s) := by
  simp only [bar0Write, below_msix (show 0x28 < 0x1000 by decide), below_msix (show 0x2C < 0x1000 by decide), if_false]

/-- The two dwords of ACQ. -/
theorem bar0Write_acq (f v w : Nat) (s : State) : bar0Write f 0x34 w (bar0Write f 0x30 v s) =
    updFn f (fun n => { n with acq := n.acq % 2 ^ 32 + w * 2 ^ 32 }) (updFn f (fun n => { n with acq := n.acq / 2 ^ 32 * 2 ^ 32 + v }) s) := by
  simp only [bar0Write, below_msix (show 0x30 < 0x1000 by decide), below_msix (show 0x34 < 0x1000 by decide), if_false]

/-- A 64-bit field whose low and then high dword are written holds the value written. -/
theorem two_dwords (a w : Nat) : (a / 2 ^ 32 * 2 ^ 32 + w % 2 ^ 32) % 2 ^ 32 + w / 2 ^ 32 * 2 ^ 32 = w := by omega

/-- An aligned write of a controller register of BAR0, one dword or two. -/
theorem registerWrite_bar0 {fn off width : Nat} {v : BitVec 64} {s : State} (hf : fnPresent fn s = true) (hoff : off < 0x1000)
    (hw : width = 4 ∨ width = 8) (hal : off % width = 0) :
    exec (.registerWrite fn 0 off width v) s = .next (afterIo (
      let s1 := bar0Write fn off (v.toNat % 2 ^ 32) (touch fn s)
      if width = 8 then bar0Write fn (off + 4) (v.toNat / 2 ^ 32) s1 else s1)) := by
  have hdb : doorbell? fn off = none := by unfold doorbell?; rw [if_neg (by omega)]
  show execRegisterWrite fn 0 off width v s = _
  rcases hw with rfl | rfl <;> simp [execRegisterWrite, hf, hal, hdb, doneIo_after]

/-- A write of BAR0 or BAR2 that is neither 4 nor 8 bytes wide is dropped (R17, log 61). -/
theorem registerWrite_narrow {fn off width : Nat} {v : BitVec 64} {s : State} (hf : fnPresent fn s = true) (h4 : width ≠ 4) (h8 : width ≠ 8) :
    exec (.registerWrite fn 0 off width v) s = .next (after (touch fn s)) ∧
      exec (.registerWrite fn 2 off width v) s = .next (afterIo (touch fn s)) := by
  refine ⟨?_, ?_⟩
  · show execRegisterWrite fn 0 off width v s = _
    simp [execRegisterWrite, hf, h4, h8, done_after]
  · show execRegisterWrite fn 2 off width v s = _
    simp [execRegisterWrite, hf, bar2Write, h4, h8, doneIo_after]

/-! ## O57 -/

/-- Settles O57: each row is the access and then one read or write of the register's layer. -/
theorem registersReadAndWrite : Obligations.RegistersReadAndWrite := by
  unfold Obligations.RegistersReadAndWrite
  intro fn s hf
  refine ⟨?_, ?_, ?_, ?_, ?_, ?_⟩
  · intro off r hs h8 hr ho hb
    refine ⟨_, regRead_bar2 hf rfl, ?_⟩
    rw [readBar2, if_pos rfl, read32_low h8 hr ho hb]
    simp [readOut, touch_rg fn hs, touch_zn fn hs, touch_slk fn hs]
  · intro off r h hs h8 hr ho hb hh
    refine ⟨_, regRead_bar2 hf rfl, ?_⟩
    rw [readBar2, if_pos rfl, read32_high h8 hr ho hb (by rw [touch_rg fn hs]; exact hh)]
    simp [readOut, touch_rg fn hs, touch_zn fn hs]
  · intro off width hs hw hwin
    refine ⟨_, regRead_bar2 hf (by rcases hw with rfl | rfl | rfl <;> rfl), ?_⟩
    obtain ⟨hrg, hzn⟩ := readPlain_rg (fn := fn) (n := width) (t := touch fn s) hwin
    rw [readBar2, if_neg (by show width ≠ 4; omega), hrg, hzn, touch_rg fn hs, touch_zn fn hs]
    exact ⟨rfl, rfl, rfl, rfl⟩
  · intro hpf hs
    obtain ⟨v, hv⟩ := read32_pwrMeas (touch fn s) hpf
    refine ⟨read32 fn 0x4008 (touch fn s), ?_, ?_⟩
    · show execPwrMeasRead fn s = _
      simp [execPwrMeasRead, hpf, hf, done_after]
    · rw [hv]
      simp [readOut, touch_zn fn hs, touch_rg fn hs]
  · intro v hs
    refine ⟨⟨_, registerWrite_bar0 hf (by decide) (.inl rfl) rfl, ?_⟩, ⟨_, registerWrite_bar0 hf (by decide) (.inr rfl) rfl, ?_⟩,
      ⟨_, registerWrite_bar0 hf (by decide) (.inr rfl) rfl, ?_⟩, fun off width h4 h8 => registerWrite_narrow hf h4 h8⟩
    · simp [bar0Write_aqa, touch_zn fn hs]
    · rw [if_pos rfl, show 0x28 + 4 = 0x2C from rfl, bar0Write_asq]
      simp only [fnOf_updFn, two_dwords, updFn_zn, touch_zn fn hs, and_self]
    · rw [if_pos rfl, show 0x30 + 4 = 0x34 from rfl, bar0Write_acq]
      simp only [fnOf_updFn, two_dwords, updFn_zn, touch_zn fn hs, and_self]
  · intro g space off width v hg
    show execRegisterWrite g space off width v s = _
    simp [execRegisterWrite, hg]

end Sys2Proof.Machine

/-! O39. Controllers start, reset and shut down: the registers of a function that resetting its writes keeps, then CC and the shutdown (Chapter 8). -/

namespace Sys2Proof.Machine
open Sys2Proof

/-! ## Registers of a function -/

/-- What the posting of completions leaves of a function's record: all but its queues and its vectors' states. -/
def regsOf (n : Fn) : Fn := { n with sqs := [], cqs := [], msix := [], pba := [] }

/-- The registers of every function. -/
def hostRegs (fns : Tbl Fn) (f : Nat) : Fn := regsOf (Tbl.getD fns f Fn.dflt)

theorem updFn_hostRegs {g : Fn → Fn} (hg : ∀ n, regsOf (g n) = regsOf n) (f : Nat) (s : State) :
    hostRegs (updFn f g s).q.fns = hostRegs s.q.fns := by
  funext x
  by_cases hx : x = f
  · subst hx
    simp [hostRegs, updFn, fnOf, hg]
  · simp [hostRegs, updFn, Tbl.getD_put_other _ _ _ _ _ hx]

theorem hostRegs_foldl {α : Type} (f : State → α → State) (h : ∀ s x, hostRegs (f s x).q.fns = hostRegs s.q.fns) :
    ∀ (l : List α) (s : State), hostRegs (l.foldl f s).q.fns = hostRegs s.q.fns
  | [], _ => rfl
  | x :: xs, s => (hostRegs_foldl f h xs (f s x)).trans (h s x)

@[simp] theorem signal_hostRegs (f vec : Nat) (s : State) : hostRegs (signal f vec s).q.fns = hostRegs s.q.fns :=
  updFn_hostRegs (fun n => by split <;> rfl) f s

@[simp] theorem cqPush_hostRegs (f : Nat) (e : Cqe) (s : State) : hostRegs (cqPush f e s).1.q.fns = hostRegs s.q.fns := by
  have push : ∀ (cqid : Nat) (c : Cq), hostRegs (updFn f (fun n => { n with cqs := Tbl.put n.cqs cqid c }) s).q.fns = hostRegs s.q.fns :=
    fun cqid c => updFn_hostRegs (g := fun n => { n with cqs := Tbl.put n.cqs cqid c }) (fun _ => rfl) f s
  unfold cqPush
  dsimp only
  split
  · rfl
  · split
    · exact push ..
    · split
      · rw [signal_hostRegs]; exact push ..
      · exact push ..

@[simp] theorem cvuFold_q (k : Ctx) (good : Bool) (s : State) : (cvuFold k good s).q = s.q := by
  unfold cvuFold
  generalize k.cvus = l
  induction l generalizing s with
  | nil => rfl
  | cons e l ih => exact ih _

@[simp] theorem postFull_hostRegs (k : Ctx) (sct sc dw0 cs1 : Nat) (data : List Byte) (s : State) :
    hostRegs (postFull k sct sc dw0 cs1 data s).q.fns = hostRegs s.q.fns := by
  have logged : (if sct = 7 then logError k sct sc s else s).q.fns = s.q.fns := by split <;> rfl
  have ends : ∀ (b : Bool) (i : Nat) (k : Ctx) (t : State), (if b then dropCtx i t else putCtx k t).q.fns = t.q.fns := by
    intro b; cases b <;> intros <;> rfl
  unfold postFull
  dsimp only
  split
  · rfl
  · split
    · rfl
    · rw [ends, cqPush_hostRegs, cvuFold_q, logged]

@[simp] theorem placeWrite_q (id : Nat) (s : State) : (placeWrite id s).q = s.q :=
  keeps_of_outside (x := .q) (placeWrite_outside (List.Subset.refl _) id s) (by decide)

@[simp] theorem returnCharge_q (id n : Nat) (s : State) : (returnCharge id n s).q = s.q :=
  keeps_of_outside (x := .q) (returnCharge_outside (List.Subset.refl _) id n s) (by decide)

@[simp] theorem postWrite_hostRegs (id wpath : Nat) (isHeld : Bool) (s : State) :
    hostRegs (postWrite id wpath isHeld s).q.fns = hostRegs s.q.fns := by
  unfold postWrite
  repeat' split
  all_goals simp

@[simp] theorem wakeFlushes_hostRegs (s : State) : hostRegs (wakeFlushes s).q.fns = hostRegs s.q.fns :=
  hostRegs_foldl _ (fun s k => by split <;> simp [ok]) _ _

@[simp] theorem wrDurable_hostRegs (id : Nat) (s : State) : hostRegs (wrDurable id s).q.fns = hostRegs s.q.fns := by
  unfold wrDurable
  split
  · rfl
  · dsimp only; split <;> simp [dropWr]

@[simp] theorem overtake_hostRegs (w : Wr) (lo hi : Nat) (s : State) : hostRegs (overtake w lo hi s).q.fns = hostRegs s.q.fns := by
  unfold overtake
  split
  · refine hostRegs_foldl _ (fun s x => ?_) _ _
    dsimp only
    repeat' split
    all_goals simp
  · rfl

@[simp] theorem decideOne_hostRegs (id : Nat) (s : State) : hostRegs (decideOne id s).q.fns = hostRegs s.q.fns := by
  unfold decideOne
  split
  · rfl
  · split
    · rfl
    · split
      · simp
      · dsimp only; split <;> simp
      · simp

@[simp] theorem decideAll_hostRegs (s : State) : hostRegs (decideAll s).q.fns = hostRegs s.q.fns := by
  unfold decideAll
  split
  · rfl
  · exact hostRegs_foldl _ (fun s id => decideOne_hostRegs id s) _ _

@[simp] theorem failWrite_hostRegs (id : Nat) (s : State) : hostRegs (failWrite id s).q.fns = hostRegs s.q.fns := by
  unfold failWrite; split <;> simp

@[simp] theorem discardWrite_hostRegs (id : Nat) (s : State) : hostRegs (discardWrite id s).q.fns = hostRegs s.q.fns := by
  unfold discardWrite; split <;> simp [dropWr]

@[simp] theorem resetWrites_hostRegs (f : Nat) (s : State) : hostRegs (resetWrites f s).q.fns = hostRegs s.q.fns := by
  refine (hostRegs_foldl _ (fun s w => ?_) _ _).trans (hostRegs_foldl _ (fun s w => ?_) _ _)
  · simp
  · split <;> simp

theorem fenceGather_fns (f : Nat) (s : State) : (fenceGather f s).q.fns = s.q.fns := by unfold fenceGather; dsimp only; split <;> rfl

theorem dropPasses_q (gone : Pass → Bool) (s : State) : (dropPasses gone s).q = s.q :=
  keeps_of_outside (x := .q) (dropPasses_outside (List.Subset.refl _) gone s) (by decide)

/-! ## The access of a controller -/

/-- A controller that is not enabled is not touched. -/
theorem touch_of_disabled {f : Nat} {s : State} (h : (fnOf f s).en = false) : touch f s = s := by simp [touch, h]

/-- A wake that does not start the device anew raises nothing. -/
theorem wake_raised (cause : Nat) {s : State} (hs : plainWake s) : (wake cause s).stb.raised = s.stb.raised := by
  have hps : ¬ (s.pw.ps = 4 ∧ s.pw.retLost = true) := by rintro ⟨h4, hr⟩; rcases hs with hs | hs <;> simp_all
  have accrued : ∀ t : State, (accrue t).stb = t.stb := fun t => keeps_of_outside (x := .stb) (accrue_outside (List.Subset.refl _) t) (by decide)
  unfold wake
  dsimp only
  split_ifs <;> simp_all [aonWake]

theorem wake_q (cause : Nat) {s : State} (hs : plainWake s) : (wake cause s).q = s.q :=
  keeps_of_outside (x := .q) (wake_outside (List.Subset.refl _) cause hs) (by decide)

@[simp] theorem repower_q (s : State) : (repower s).q = s.q :=
  keeps_of_outside (x := .q) (repower_outside (List.Subset.refl _) s) (by decide)

theorem repower_raises {code : Nat} {s : State} (h : raises code s) : raises code (repower s) := by
  have accrued : (accrue s).stb = s.stb := keeps_of_outside (x := .stb) (accrue_outside (List.Subset.refl _) s) (by decide)
  unfold repower setPs
  split_ifs
  · exact h
  · exact raises_mono (List.prefix_append _ _) (s := accrue s) (by unfold raises; rw [accrued]; exact h)
  · exact h

/-- An access changes the power state of its function's Features at most. -/
theorem touch_fns (f : Nat) {s : State} (hs : plainWake s) :
    (touch f s).q.fns = s.q.fns ∨ ∃ g : Fn → Feats, (touch f s).q.fns = (updFn f (fun n => { n with feats := g n }) s).q.fns := by
  unfold touch
  split
  · split
    · right
      rw [repower_q, wake_q]
      · exact ⟨_, rfl⟩
      · exact hs
    · left
      rw [repower_q, wake_q 1 hs]
  · exact .inl rfl

/-- The function accessed keeps all of its record but its Features. -/
theorem touch_fnOf (f : Nat) {s : State} (hs : plainWake s) : ∃ x, fnOf f (touch f s) = { fnOf f s with feats := x } := by
  rcases touch_fns f hs with h | ⟨g, h⟩
  · exact ⟨(fnOf f s).feats, by simp [fnOf, h]⟩
  · refine ⟨g (fnOf f s), ?_⟩
    simp [fnOf, h, updFn]

/-! ## Enable -/

/-- The state in which an enable has written the admin queues into the function's record, and raised 0x6001 where a value is refused. -/
def enabling (f : Nat) (s : State) : State :=
  let bad := enableFault (fnOf f s)
  updFn f (fun n => { n with
    en := true, cfgOk := bad.isNone, shst := 0,
    sqs := [(0, ⟨n.asqs + 1, n.asq, 0, 0, 0, 0⟩)], cqs := [(0, ⟨n.acqs + 1, n.acq, 0, 0, true, 0, true, [], 0⟩)] })
    (match bad with | some e => raise 0x6001 1 [h1 f, h1 e] s | none => s)

theorem enabling_plainWake {f : Nat} {s : State} (hs : plainWake s) : plainWake (enabling f s) := by
  unfold enabling; cases enableFault (fnOf f s) <;> exact hs

theorem enabling_zn (f : Nat) (s : State) : (enabling f s).zn = s.zn := by
  unfold enabling; cases enableFault (fnOf f s) <;> rfl

theorem enabling_fnOf (f : Nat) (s : State) : fnOf f (enabling f s) =
    { fnOf f s with en := true, cfgOk := (enableFault (fnOf f s)).isNone, shst := 0,
                    sqs := [(0, ⟨(fnOf f s).asqs + 1, (fnOf f s).asq, 0, 0, 0, 0⟩)],
                    cqs := [(0, ⟨(fnOf f s).acqs + 1, (fnOf f s).acq, 0, 0, true, 0, true, [], 0⟩)] } := by
  unfold enabling
  rw [fnOf_updFn]
  cases enableFault (fnOf f s) <;> rfl

/-- After it an enable wakes the device and lets admission resume: the queues and the zones stay, and events are only added. -/
theorem enableNow_after (f : Nat) {s : State} (hs : plainWake s) :
    (enableNow f s).q = (enabling f s).q ∧ (enableNow f s).zn = s.zn ∧
      ∀ code, raises code (enabling f s) → raises code (enableNow f s) := by
  have hp := enabling_plainWake (f := f) hs
  have woken : ∀ code, raises code (enabling f s) → raises code (repower (wake 1 (enabling f s))) :=
    fun code h => repower_raises (raises_of_eq (wake_raised 1 hp) h)
  have hzn : (repower (wake 1 (enabling f s))).zn = s.zn :=
    (keeps_of_outside (x := .zn) ((repower_outside (List.Subset.refl _) _).trans (wake_outside (List.Subset.refl _) 1 hp)) (by decide)).trans
      (enabling_zn f s)
  have hq : (repower (wake 1 (enabling f s))).q = (enabling f s).q := (repower_q _).trans (wake_q 1 hp)
  have eq : enableNow f s = (let t := repower (wake 1 (enabling f s))
      if t.m.cur.ready && t.m.drain == .none then
        { t with jn := { t.jn with admOff := false }, slk := { t.slk with admissionOff := false } } else t) := rfl
  rw [eq]
  dsimp only
  split
  · exact ⟨hq, hzn, woken⟩
  · exact ⟨hq, hzn, woken⟩

/-- CC's fields as CONTROLLER_ENABLE writes them. -/
def ccTaken (fn v : Nat) (s : State) : State :=
  updFn fn (fun n => let m := putCc v n
                     if n.en && bit v 0 then { m with ams := n.ams, css := n.css, shn := bits v 15 14 } else { m with shn := bits v 15 14 }) s

theorem ccWrite_enable {fn v : Nat} {s : State} (hact : s.m.cur ≠ .fwActivate) (hv : bit v 0 = true) (hshn : bits v 15 14 = 0)
    (hen : (fnOf fn s).en = false) : ccWrite fn v s = enableNow fn (ccTaken fn v s) := by
  unfold ccWrite
  simp [hact, hv, hshn, hen, ccTaken]

theorem ccTaken_fnOf {fn v : Nat} {s : State} (hshn : bits v 15 14 = 0) (hen : (fnOf fn s).en = false) :
    fnOf fn (ccTaken fn v s) = { putCc v (fnOf fn s) with shn := 0 } := by
  simp [ccTaken, hen, hshn]

theorem controllerEnable_now {fn : Nat} {cc : Dword} {s : State} (hf : fnPresent fn s = true) (hact : s.m.cur ≠ .fwActivate)
    (hv : bit cc.toNat 0 = true) (hshn : bits cc.toNat 15 14 = 0) (hen : (fnOf fn s).en = false) :
    exec (.controllerEnable fn cc) s = .next (afterIo (enableNow fn (ccTaken fn cc.toNat s))) := by
  show execControllerEnable fn cc s = _
  simp [execControllerEnable, hf, hv, touch_of_disabled hen, ccWrite_enable hact hv hshn hen, doneIo_after]

/-! ## Reset -/

/-- What a fence makes of a function's record. -/
def fencedFn (n : Fn) : Fn :=
  { n with
    en := false, cfgOk := false, shn := 0, shst := 0, sqs := [], cqs := [], feats := Feats.dflt, lastSq := 0, burst := 0,
    wrr := [0, 0, 0, 0, 0, 0, 0], held := [], masked := [], tmpState := 0, pba := [] }

/-- A fence leaves of the function's record what `fencedFn` keeps. -/
theorem fenceFn_fnOf (f : Nat) (s : State) : ∃ n, regsOf n = regsOf (fnOf f s) ∧ fnOf f (fenceFn f s) = fencedFn n := by
  refine ⟨fnOf f (resetWrites f (fenceGather f s)), ?_, ?_⟩
  · have h := congrFun (resetWrites_hostRegs f (fenceGather f s)) f
    rwa [fenceGather_fns] at h
  · unfold fenceFn
    dsimp only
    rw [show ∀ t, fnOf f (freeFenced t) = fnOf f t from fun _ => rfl, fnOf_updFn]
    show fencedFn _ = fencedFn _
    simp only [fnOf, dropPasses_q]

@[simp] theorem releaseLane_q (ch : Nat) (s : State) : (releaseLane ch s).q = s.q :=
  keeps_of_outside (x := .q) (releaseLane_outside (List.Subset.refl _) ch s) (by decide)

@[simp] theorem releaseLane_stb (ch : Nat) (s : State) : (releaseLane ch s).stb = s.stb :=
  keeps_of_outside (x := .stb) (releaseLane_outside (List.Subset.refl _) ch s) (by decide)

theorem ownerRegs_outside {L : List Comp} (h : [.slk, .fl, .ecc, .ga, .ci, .cad, .pw, .stb] ⊆ L) (s : State) :
    outside L (ownerRegs s) = outside L s := by
  refine outside_mono h ?_
  have lanes : outside [.slk, .fl, .ecc, .ga, .ci, .cad, .pw, .stb] ((List.range 16).foldl (fun s n => releaseLane (48 + n) s) s) = _ :=
    outside_foldl _ (fun s n => releaseLane_outside (by simp) ..) _ _
  exact (by simp [ownerRegs, lanes])

theorem ownerRegs_raises {code : Nat} {s : State} (h : raises code s) : raises code (ownerRegs s) := by
  have lanes : ∀ (l : List Nat) (s : State), (l.foldl (fun s n => releaseLane (48 + n) s) s).stb = s.stb := by
    intro l
    induction l with
    | nil => exact fun _ => rfl
    | cons n l ih => exact fun s => (ih _).trans (releaseLane_stb ..)
  exact raises_of_eq (s := s) (by simp [ownerRegs, lanes]) h

/-- A controller reset: the function's record is fenced, 0x6030 is raised, the SR-IOV registers stay. -/
theorem ctrlReset_after (f : Nat) (s : State) :
    (ctrlReset f s).q = (fenceFn f s).q ∧ (ctrlReset f s).stl = s.stl ∧ raises 0x6030 (ctrlReset f s) := by
  have fenced : (fenceFn f s).stl = s.stl := keeps_of_outside (x := .stl) (fenceFn_outside (List.Subset.refl _) f s) (by decide)
  have hstl : ∀ t, (repower t).stl = t.stl := fun t => keeps_of_outside (x := .stl) (repower_outside (List.Subset.refl _) t) (by decide)
  have hown : ∀ t, (ownerRegs t).stl = t.stl := fun t => keeps_of_outside (x := .stl) (ownerRegs_outside (List.Subset.refl _) t) (by decide)
  have hownq : ∀ t, (ownerRegs t).q = t.q := fun t => keeps_of_outside (x := .q) (ownerRegs_outside (List.Subset.refl _) t) (by decide)
  unfold ctrlReset
  dsimp only
  refine ⟨?_, ?_, repower_raises ?_⟩
  · rw [repower_q]; split <;> simp [hownq]
  · rw [hstl]; split <;> simp [hown, fenced]
  · split
    · exact ownerRegs_raises (raises_raise ..)
    · exact raises_raise ..

/-- The function's record after its controller's reset. -/
theorem ctrlReset_fnOf (f : Nat) (s : State) : ∃ n, regsOf n = regsOf (fnOf f s) ∧ fnOf f (ctrlReset f s) = fencedFn n := by
  obtain ⟨n, hn, h⟩ := fenceFn_fnOf f s
  exact ⟨n, hn, by rw [← h]; simp only [fnOf, (ctrlReset_after f s).1]⟩

theorem removeStalls_vfEnable (cause kind : Nat) (s : State) : (removeStalls cause kind s).stl.vfEnable = false := by
  unfold removeStalls
  dsimp only
  split
  · rename_i h; simpa using h
  · rfl

/-- A function-level reset: the record fenced, then the registers that a controller reset keeps cleared. -/
theorem pfReset_after (f cause : Nat) (s : State) :
    (∃ n, fnOf f (pfReset f cause s) = { fencedFn n with
      ams := 0, css := 0, mps := 0, iosqes := 0, iocqes := 0, asqs := 0, acqs := 0, asq := 0, acq := 0, msixTab := [] }) ∧
      raises 0x6030 (pfReset f cause s) ∧ (f = 0 → (pfReset f cause s).stl.vfEnable = false) := by
  unfold pfReset
  generalize hs : (if f = 0 then removeStalls cause 3 s else s) = s1
  obtain ⟨n, _, hn⟩ := ctrlReset_fnOf f s1
  obtain ⟨_, hstl, hr⟩ := ctrlReset_after f s1
  refine ⟨⟨n, by rw [clearCc, fnOf_updFn, hn]⟩, hr, fun h0 => ?_⟩
  rw [if_pos h0] at hs
  show (ctrlReset f s1).stl.vfEnable = false
  rw [hstl, ← hs, removeStalls_vfEnable]

/-! ## Shutdown -/

/-- The shutdown of a controller that runs. -/
theorem shutNow_after {f : Nat} {s : State} (h : (fnOf f s).shst = 0) :
    (fnOf f (shutNow f s)) = { fnOf f s with shst := 1 } ∧ (shutNow f s).zn = s.zn ∧
      ((∀ p ∈ s.q.fns, p.1 = f ∨ p.2.en = false ∨ p.2.shst = 2) →
        (shutNow f s).slk.admissionOff = true ∧ (shutNow f s).jn.admOff = true) := by
  have others : (∀ p ∈ s.q.fns, p.1 = f ∨ p.2.en = false ∨ p.2.shst = 2) →
      othersShut f (updFn f (fun n => { n with shst := 1 }) s) = true := by
    intro hp
    simp only [othersShut, List.all_eq_true]
    intro p hmem
    rcases Tbl.mem_put hmem with rfl | hmem
    · simp
    · rcases hp p hmem with h | h | h <;> simp [h]
  have written := fnOf_updFn f (fun n => { n with shst := 1 }) s
  unfold shutNow
  simp only [h, ne_eq, not_true, if_false]
  split
  · exact ⟨written, rfl, fun _ => ⟨rfl, rfl⟩⟩
  · exact ⟨written, rfl, fun hp => absurd (others hp) ‹_›⟩

/-- CC.SHN as SHUTDOWN writes it, after the access. -/
def shnTaken (fn shn : Nat) (s : State) : State := updFn fn (fun n => { n with shn := shn % 4 }) (touch fn s)

theorem shnTaken_fnOf (fn shn : Nat) {s : State} (hs : plainWake s) :
    ∃ x, fnOf fn (shnTaken fn shn s) = { fnOf fn s with feats := x, shn := shn % 4 } := by
  obtain ⟨x, hx⟩ := touch_fnOf fn hs
  exact ⟨x, by rw [shnTaken, fnOf_updFn, hx]⟩

/-- The functions of the state in which CC.SHN is written are those of before, the one accessed apart. -/
theorem mem_shnTaken {fn shn : Nat} {s : State} (hs : plainWake s) {p : Nat × Fn} (hp : p ∈ (shnTaken fn shn s).q.fns) :
    p.1 = fn ∨ p ∈ s.q.fns := by
  rcases Tbl.mem_put hp with rfl | hp
  · exact .inl rfl
  · rcases touch_fns fn hs with h | ⟨g, h⟩
    · exact .inr (h ▸ hp)
    · rw [h] at hp
      rcases Tbl.mem_put hp with rfl | hp
      · exact .inl rfl
      · exact .inr hp

theorem shutdown_now {fn shn : Nat} {s : State} (hf : fnPresent fn s = true) (hact : s.m.cur ≠ .fwActivate) (hshn : shn % 4 ≠ 0)
    (hs : plainWake s) : exec (.shutdown fn shn) s = .next (after (shutNow fn (shnTaken fn shn s))) := by
  have hm : (touch fn s).m = s.m := touch_keeps fn hs (x := .m) (by decide)
  show execShutdown fn shn s = _
  simp [execShutdown, hf, hshn, hm, hact, shnTaken, done_after]

/-! ## The clean close -/

theorem cleanClose_after (s : State) :
    (cleanClose s).q = s.q ∧ (cleanClose s).slk = s.slk ∧ (cleanClose s).jn.closing = .clean :=
  have stored : outside [.stb, .free] (persistAll (dropOld s)) = outside [.stb, .free] (dropOld s) := persistAll_outside (List.Subset.refl _) _
  ⟨keeps_of_outside (x := .q) stored (by decide), keeps_of_outside (x := .slk) stored (by decide), rfl⟩

theorem shutdownComplete_other {fn : Nat} {s : State} (hst : (fnOf fn s).shst = 1) (hw : writesDone fn s = true) (ho : othersShut fn s = false) :
    exec (.shutdownComplete fn) s = .next (after (updFn fn (fun n => { n with shst := 2 }) s)) := by
  show execShutdownComplete fn s = _
  simp [execShutdownComplete, hst, hw, ho, done_after]

theorem shutdownComplete_last {fn : Nat} {s : State} (hst : (fnOf fn s).shst = 1) (hw : writesDone fn s = true) (ho : othersShut fn s = true)
    (hu : useBytes s = 0) (ht : s.m.thm ≠ 2) : exec (.shutdownComplete fn) s = .next (after (cleanClose (
      let t := updFn fn (fun n => { n with shst := 2 }) s
      { t with jn := { t.jn with admOff := true }, slk := { t.slk with admissionOff := true } }))) := by
  show execShutdownComplete fn s = _
  simp [execShutdownComplete, hst, hw, ho, hu, ht, done_after]

/-! ## O39 -/

/-- Settles O39: each command is its access, then one operation on its function's record. -/
theorem controllersStartAndStop : Obligations.ControllersStartAndStop := by
  unfold Obligations.ControllersStartAndStop
  intro fn s hf hact
  refine ⟨?_, ?_, ?_, ?_, ?_⟩
  · intro cc hv hshn hen hs
    have hp : plainWake (ccTaken fn cc.toNat s) := hs
    obtain ⟨hq, hzn, hr⟩ := enableNow_after fn hp
    have hrun := controllerEnable_now hf hact hv hshn hen
    have hbad : enableFault (fnOf fn (ccTaken fn cc.toNat s)) = enableFault (putCc cc.toNat (fnOf fn s)) := by
      rw [ccTaken_fnOf hshn hen]; rfl
    have hfn : fnOf fn (enableNow fn (ccTaken fn cc.toNat s)) = fnOf fn (enabling fn (ccTaken fn cc.toNat s)) := by simp only [fnOf, hq]
    rw [enabling_fnOf, hbad, ccTaken_fnOf hshn hen] at hfn
    refine ⟨fun hgood => ⟨_, hrun, ?_⟩, fun e he => ⟨_, hrun, hr _ ?_, ?_, hzn⟩⟩
    · rw [hfn, hgood]
      exact ⟨rfl, rfl, rfl, rfl, rfl, hzn⟩
    · unfold enabling
      rw [hbad, he]
      exact raises_raise ..
    · simp [rdy, hfn, he]
  · intro hen hs
    obtain ⟨x, hx⟩ := touch_fnOf fn hs
    obtain ⟨n, hn, hfn⟩ := ctrlReset_fnOf fn (touch fn s)
    have hm : (touch fn s).m = s.m := touch_keeps fn hs (x := .m) (by decide)
    refine ⟨ctrlReset fn (touch fn s), ?_, ?_⟩
    · show execControllerReset fn s = _
      simp [execControllerReset, hf, hen, hm, hact, doneIo_after]
    · rw [hfn]
      refine ⟨rfl, rfl, rfl, rfl, ?_, (ctrlReset_after fn _).2.2⟩
      have hasq := congrArg Fn.asq hn
      rw [hx] at hasq
      exact hasq
  · intro hpf
    obtain ⟨⟨n, hfn⟩, hr, hvf⟩ := pfReset_after fn 1 s
    refine ⟨pfReset fn 1 s, ?_, ?_⟩
    · show execFunctionLevelResetPf fn s = _
      simp [execFunctionLevelResetPf, hpf, hf, hact, doneIo_after]
    · rw [hfn]
      exact ⟨rfl, rfl, rfl, rfl, rfl, hr, hvf⟩
  · intro shn hshn hs h0
    obtain ⟨x, hx⟩ := shnTaken_fnOf fn shn hs
    obtain ⟨hfn, hzn, hadm⟩ := shutNow_after (f := fn) (s := shnTaken fn shn s) (by rw [hx]; exact h0)
    refine ⟨_, shutdown_now hf hact hshn hs, ?_⟩
    rw [hfn, hx, hzn]
    exact ⟨rfl, rfl, touch_zn fn hs, fun hall => hadm fun p hp => (mem_shnTaken hs hp).elim .inl (hall p)⟩
  · intro hst hw
    refine ⟨fun ho => ⟨_, shutdownComplete_other hst hw ho, by rw [fnOf_updFn], rfl⟩,
      fun ho hu ht => ⟨_, shutdownComplete_last hst hw ho hu ht, ?_⟩⟩
    obtain ⟨hq, hslk, hjn⟩ := cleanClose_after (
      let t := updFn fn (fun n => { n with shst := 2 }) s
      { t with jn := { t.jn with admOff := true }, slk := { t.slk with admissionOff := true } })
    refine ⟨?_, hjn, by rw [hslk]⟩
    simp only [fnOf, hq]
    exact congrArg Fn.shst (fnOf_updFn fn (fun n => { n with shst := 2 }) s)

end Sys2Proof.Machine

/-! O8. Frames: each command that reaches neither zones nor flash leaves the state as it is outside the components `mayChange` names (log 71). -/

namespace Sys2Proof.Machine
open Sys2Proof

/-- An outcome's next state, if it has one, is alike outside `L`. -/
def Frames (L : List Comp) (s : State) (o : Out) : Prop := ∀ t, o = .next t → outside L t = outside L s

section
variable {L : List Comp} {s : State}

/-! ## How meanings end -/

@[simp] theorem frames_next (t : State) : Frames L s (.next t) ↔ outside L t = outside L s :=
  ⟨fun h => h t rfl, fun h _ e => by cases e; exact h⟩

@[simp] theorem frames_done (h : [.q, .stb, .ci] ⊆ L) (u : State) : Frames L s (done u) ↔ outside L u = outside L s := by
  rw [done_after, frames_next, after_outside h]

/-- A command taken from a queue: what it does once its context is made. -/
theorem frames_command (h : [.q, .stb, .jn, .ci] ⊆ L) {c : Cmd} {f : Ctx → State → State} (hf : ∀ k s, outside L (f k s) = outside L s) :
    Frames L s (done (withCmd c s f)) := by
  have hd : [.q, .stb, .ci] ⊆ L := List.Subset.trans (by decide) h
  exact (frames_done hd _).mpr (withCmd_outside h c s f hf)

/-- An admin command: what it does once the gates let it run. -/
theorem frames_admin (h : [.q, .stb, .jn, .ci] ⊆ L) {c : Cmd} {allowed san : Bool} {f : Ctx → State → State}
    (hf : ∀ k s, outside L (f k s) = outside L s) : Frames L s (done (withCmd c s (fun k s => gateAdmin allowed san k s f))) := by
  have hd : [.q, .stb, .ci] ⊆ L := List.Subset.trans (by decide) h
  exact frames_command h fun k s => gateAdmin_outside hd allowed san k s f hf

/-- A write of a register of BAR2 by the Owner PF. -/
theorem frames_txsRow (h : [.pw, .q, .stb, .ci] ⊆ L) (hs : plainWake s) (fn : Nat) {f : State → State}
    (hf : ∀ t, outside L (f t) = outside L t) : Frames L s (txsRow fn f s) := by
  have hd : [.q, .stb, .ci] ⊆ L := List.Subset.trans (by decide) h
  have ht : [.pw, .q, .stb] ⊆ L := List.Subset.trans (by decide) h
  unfold txsRow
  dsimp only
  split
  · rw [frames_done hd]
    split
    · rw [hf, touch_outside ht fn hs]
    · exact touch_outside ht fn hs
  · exact (frames_next s).mpr rfl

/-- A write of a check-value unit. -/
theorem frames_cvuRow (h : [.pw, .q, .stb, .ci] ⊆ L) (hs : plainWake s) (fn unit : Nat) {f : Nat → State → State}
    (hf : ∀ u t, outside L (f u t) = outside L t) : Frames L s (cvuRow fn unit f s) := by
  have hd : [.q, .stb, .ci] ⊆ L := List.Subset.trans (by decide) h
  have ht : [.pw, .q, .stb] ⊆ L := List.Subset.trans (by decide) h
  have row : ∀ t, outside L (match cvuOf? fn unit t with | some u => f u t | none => t) = outside L t := by
    intro t
    split
    · exact hf _ _
    · rfl
  unfold cvuRow
  split
  · split
    · exact (frames_done hd _).mpr ((row _).trans (touch_outside ht fn hs))
    · exact (frames_next s).mpr rfl
  · exact frames_txsRow h hs fn row

/-- A read of a register. -/
theorem frames_regRead (h : [.pw, .q, .stb, .ci, .rg] ⊆ L) (hs : plainWake s) (fn space off width : Nat) :
    Frames L s (regRead fn space off width s) := by
  have hd : [.q, .stb, .ci] ⊆ L := List.Subset.trans (by decide) h
  have ht : [.pw, .q, .stb] ⊆ L := List.Subset.trans (by decide) h
  have hr : [.pw, .stb, .rg] ⊆ L := List.Subset.trans (by decide) h
  have hg : [.rg] ⊆ L := List.Subset.trans (by decide) h
  unfold regRead
  dsimp only
  split_ifs <;> simp [hd, hr, hg, touch_outside ht fn hs]

/-- A command of the cadence, heard. -/
theorem frames_heardCmd (h : [.q, .stb, .ci, .cad] ⊆ L) (cmd arg seq : Nat) : Frames L s (heardCmd cmd arg seq s) := by
  have hd : [.q, .stb, .ci] ⊆ L := List.Subset.trans (by decide) h
  have hc : [.stb, .cad] ⊆ L := List.Subset.trans (by decide) h
  unfold heardCmd
  split <;> simp [hd, hc]

/-- An instruction of the test port that acts in TEST only. -/
theorem frames_testOnly (h : [.q, .stb, .ci, .ts] ⊆ L) {f : State → State} (hf : outside L (f s) = outside L s) :
    Frames L s (testOnly f s) := by
  have hd : [.q, .stb, .ci] ⊆ L := List.Subset.trans (by decide) h
  have ht : [.ts] ⊆ L := List.Subset.trans (by decide) h
  unfold testOnly
  rw [frames_done hd]
  split
  · exact hf
  · exact selBypass_outside ht s

end

/-! ## Commands whose meaning branches -/

theorem interruptCoalescingTimeExpiry_frames (fn vec : Nat) (s : State) :
    Frames [.q, .stb, .ci] s (exec (.interruptCoalescingTimeExpiry fn vec) s) := by
  show Frames _ _ (execInterruptCoalescingTimeExpiry fn vec s)
  unfold execInterruptCoalescingTimeExpiry
  dsimp only
  split_ifs <;> simp

theorem sramCorrectableError_frames (die region word syn : Nat) (s : State) :
    Frames [.ecc, .q, .stb, .ci] s (exec (.sramCorrectableError die region word syn) s) := by
  show Frames _ _ (execSramCorrectableError die region word syn s)
  unfold execSramCorrectableError
  split <;> simp

theorem sqTailDoorbell_frames (fn qid val : Nat) {s : State} (hs : plainWake s) :
    Frames [.pw, .q, .stb, .ci] s (exec (.sqTailDoorbell fn qid val) s) := by
  have ht : outside [.pw, .q, .stb, .ci] (touch fn s) = outside [.pw, .q, .stb, .ci] s := touch_outside (by simp) fn hs
  show Frames _ _ (execSqTailDoorbell fn qid val s)
  unfold execSqTailDoorbell
  dsimp only
  repeat' split
  all_goals simp [ht]

theorem apstIdleExpiry_frames (fn : Nat) (s : State) : Frames [.pw, .q, .stb, .ci] s (exec (.apstIdleExpiry fn) s) := by
  show Frames _ _ (execApstIdleExpiry fn s)
  unfold execApstIdleExpiry
  dsimp only
  split <;> simp

theorem keySlotWrite_frames (fn off : Nat) (bytes : List Byte) {s : State} (hs : plainWake s) :
    Frames [.pw, .q, .stb, .ci] s (exec (.keySlotWrite fn off bytes) s) := by
  have ht : outside [.pw, .q, .stb, .ci] (touch fn s) = outside [.pw, .q, .stb, .ci] s := touch_outside (by simp) fn hs
  show Frames _ _ (execKeySlotWrite fn off bytes s)
  unfold execKeySlotWrite
  dsimp only
  split_ifs <;> simp [ht]

theorem nonopEntryBegin_frames (s : State) : Frames [.pw, .q, .stb, .ci] s (exec .nonopEntryBegin s) := by
  show Frames _ _ (execNonopEntryBegin s)
  unfold execNonopEntryBegin
  dsimp only
  split <;> simp

theorem vddRetLost_frames (s : State) : Frames [.pw] s (exec .vddRetLost s) := by
  show Frames _ _ (execVddRetLost s)
  unfold execVddRetLost
  split <;> simp

theorem oscillator32kStopped_frames (s : State) : Frames [.pw] s (exec .oscillator32kStopped s) := by
  show Frames _ _ (execOscillator32kStopped s)
  unfold execOscillator32kStopped
  split <;> simp

theorem pwrfailNRise_frames (s : State) : Frames [.pins] s (exec .pwrfailNRise s) := by
  show Frames _ _ (execPwrfailNRise s)
  simp [execPwrfailNRise]

theorem sysRstNRise_frames (s : State) : Frames [.pins] s (exec .sysRstNRise s) := by
  show Frames _ _ (execSysRstNRise s)
  simp [execSysRstNRise]

theorem i3cDynamicAddressAssignment_frames (addr : Nat) (s : State) : Frames [.ts] s (exec (.i3cDynamicAddressAssignment addr) s) := by
  show Frames _ _ (execI3cDynamicAddressAssignment addr s)
  simp [execI3cDynamicAddressAssignment]

theorem perstDeassert_frames (port : Nat) (s : State) : Frames [.pins] s (exec (.perstDeassert port) s) := by
  show Frames _ _ (execPerstDeassert port s)
  simp [execPerstDeassert]

theorem numvfsWrite_frames (n : Nat) (s : State) : Frames [.stl] s (exec (.numvfsWrite n) s) := by
  show Frames _ _ (execNumvfsWrite n s)
  unfold execNumvfsWrite
  split <;> simp

theorem vfEnableSet_frames (s : State) : Frames [.q, .stb, .stl, .ci] s (exec .vfEnableSet s) := by
  show Frames _ _ (execVfEnableSet s)
  unfold execVfEnableSet
  split <;> simp

/-! ## The cadence -/

theorem lockAcquired_frames (s : State) : Frames [.q, .stb, .ci, .cad] s (exec .lockAcquired s) := by
  show Frames _ _ (execLockAcquired s)
  unfold execLockAcquired
  split <;> simp

theorem pollStatus_frames (slot : PollAt) (s : State) : Frames [.q, .stb, .ci, .cad] s (exec (.pollStatus slot) s) := by
  show Frames _ _ (execPollStatus slot s)
  unfold execPollStatus
  dsimp only
  split <;> simp

theorem pollIdent_frames (slot : PollAt) (s : State) : Frames [.q, .stb, .ci, .cad] s (exec (.pollIdent slot) s) := by
  show Frames _ _ (execPollIdent slot s)
  unfold execPollIdent
  split <;> simp

theorem pollSchedCommit_frames (slot : PollAt) (arg : Nat) (s : State) : Frames [.q, .stb, .ci, .cad] s (exec (.pollSchedCommit slot arg) s) := by
  show Frames _ _ (execPollSchedCommit slot arg s)
  unfold execPollSchedCommit
  dsimp only
  split_ifs <;> simp

theorem pollSchedData_frames (slot : PollAt) (idx : Nat) (data : Dword) (s : State) :
    Frames [.q, .stb, .ci, .cad] s (exec (.pollSchedData slot idx data) s) := by
  show Frames _ _ (execPollSchedData slot idx data s)
  unfold execPollSchedData
  split <;> simp

theorem pollUnknown_frames (slot : PollAt) (ask : PollAsk) (s : State) : Frames [.q, .stb, .ci, .cad] s (exec (.pollUnknown slot ask) s) := by
  show Frames _ _ (execPollUnknown slot ask s)
  unfold execPollUnknown
  split <;> simp

theorem rootPollAnswer_frames (addr code : Nat) (ports : List Nat) (words : List (BitVec 40)) (s : State) :
    Frames [.q, .stb, .ci, .cad] s (exec (.rootPollAnswer addr code ports words) s) := by
  show Frames _ _ (execRootPollAnswer addr code ports words s)
  unfold execRootPollAnswer
  dsimp only
  repeat' split
  all_goals simp

theorem participantAbsent_frames (addr : Nat) (s : State) : Frames [.q, .stb, .ci, .cad] s (exec (.participantAbsent addr) s) := by
  show Frames _ _ (execParticipantAbsent addr s)
  unfold execParticipantAbsent
  split <;> simp

theorem portTrainingSweepEnd_frames (port : Nat) (steps : List Bool) (s : State) :
    Frames [.q, .stb, .ci, .cad] s (exec (.portTrainingSweepEnd port steps) s) := by
  show Frames _ _ (execPortTrainingSweepEnd port steps s)
  unfold execPortTrainingSweepEnd
  dsimp only
  split_ifs <;> simp

theorem scheduleDeliveryTimeout_frames (s : State) : Frames [.q, .stb, .ci, .cad] s (exec .scheduleDeliveryTimeout s) := by
  have failed : ∀ (l : List Deliv) (s : State),
      outside [.q, .stb, .ci, .cad] (l.foldl (fun s d => failDeliv d 2 s) s) = outside [.q, .stb, .ci, .cad] s :=
    outside_foldl _ fun s d => failDeliv_outside (by simp) d 2 s
  show Frames _ _ (execScheduleDeliveryTimeout s)
  unfold execScheduleDeliveryTimeout
  dsimp only
  split <;> simp [failed]

theorem lockLost_frames (clock : Bool) (s : State) : Frames [.tm, .pw, .q, .stb, .ci, .cad] s (exec (.lockLost clock) s) := by
  show Frames _ _ (execLockLost clock s)
  unfold execLockLost
  split_ifs <;> simp

theorem turnHeader_frames (t : TurnIn) (s : State) : Frames [.tm, .q, .stb, .ci, .cad, .free] s (exec (.turnHeader t) s) := by
  show Frames _ _ (execTurnHeader t s)
  unfold execTurnHeader
  dsimp only
  split_ifs <;> simp

theorem epochBoundary_frames (s : State) : Frames [.tm, .slk, .pl, .q, .stb, .ci, .cad, .free] s (exec .epochBoundary s) := by
  show Frames _ _ (execEpochBoundary s)
  unfold execEpochBoundary
  split <;> simp

theorem allQuietExpiry_frames (s : State) : Frames [.tm, .slk, .pl, .q, .stb, .ci, .cad, .free] s (exec .allQuietExpiry s) := by
  show Frames _ _ (execAllQuietExpiry s)
  unfold execAllQuietExpiry
  split <;> simp

/-! ## The Studbook and Gather -/

theorem studbookPersist_frames (s : State) : Frames [.q, .stb, .ci, .free] s (exec .studbookPersist s) := by
  show Frames _ _ (execStudbookPersist s)
  unfold execStudbookPersist
  split <;> simp

theorem gatherChannelWaitExpiry_frames (fn sqid cid : Nat) (s : State) :
    Frames [.q, .stb, .ci, .ga] s (exec (.gatherChannelWaitExpiry fn sqid cid) s) := by
  show Frames _ _ (execGatherChannelWaitExpiry fn sqid cid s)
  unfold execGatherChannelWaitExpiry
  repeat' split
  all_goals simp

theorem beatLaneAgeing_frames (ch : Nat) (s : State) : Frames [.q, .stb, .ci, .ga] s (exec (.beatLaneAgeing ch) s) := by
  show Frames _ _ (execBeatLaneAgeing ch s)
  unfold execBeatLaneAgeing
  dsimp only
  split_ifs <;> simp

/-! ## The test port -/

theorem samplePreload_frames (inp shift : List Bool) (s : State) : Frames [.q, .stb, .ci, .ts] s (exec (.samplePreload inp shift) s) := by
  show Frames _ _ (execSamplePreload inp shift s)
  simp [execSamplePreload]

theorem bypass_frames (ir : Nat) (s : State) : Frames [.q, .stb, .ci, .ts] s (exec (.bypass ir) s) := by
  show Frames _ _ (execBypass ir s)
  unfold execBypass
  split <;> simp

theorem extest_frames (shift : List Bool) (s : State) : Frames [.q, .stb, .ci, .ts] s (exec (.extest shift) s) := by
  show Frames _ _ (execExtest shift s)
  unfold execExtest
  exact frames_testOnly (by simp) (by simp)

theorem mbistRes_frames (s : State) : Frames [.q, .stb, .ci, .ts] s (exec .mbistRes s) := by
  show Frames _ _ (execMbistRes s)
  unfold execMbistRes
  exact frames_testOnly (by simp) (selIr_outside (by simp) ..)

theorem fpRes_frames (s : State) : Frames [.q, .stb, .ci, .ts] s (exec .fpRes s) := by
  show Frames _ _ (execFpRes s)
  unfold execFpRes
  exact frames_testOnly (by simp) (selIr_outside (by simp) ..)

theorem mbist_frames (v : Nat) (s : State) : Frames [.q, .stb, .ci, .ts, .free] s (exec (.mbist v) s) := by
  show Frames _ _ (execMbist v s)
  unfold execMbist
  refine frames_testOnly (by simp) ?_
  dsimp only
  split_ifs <;> simp

theorem fptest_frames (v : Nat) (s : State) : Frames [.q, .stb, .jn, .ci, .ts, .free] s (exec (.fptest v) s) := by
  show Frames _ _ (execFptest v s)
  unfold execFptest
  refine frames_testOnly (by simp) ?_
  dsimp only
  split_ifs <;> simp [fpEnds]

theorem spiProg_frames (v : Nat) (s : State) : Frames [.st, .q, .stb, .ci, .ts] s (exec (.spiProg v) s) := by
  show Frames _ _ (execSpiProg v s)
  unfold execSpiProg
  refine frames_testOnly (by simp) ?_
  dsimp only
  split_ifs <;> simp

theorem mbistEnd_frames (res : BistRes) (s : State) : Frames [.ecc, .q, .stb, .stl, .ci, .ts, .free] s (exec (.mbistEnd res) s) := by
  show Frames _ _ (execMbistEnd res s)
  unfold execMbistEnd
  dsimp only
  split <;> simp

theorem txsRead_frames (off : Nat) (s : State) : Frames [.pw, .q, .stb, .ci, .ts, .rg] s (exec (.txsRead off) s) := by
  show Frames _ _ (execTxsRead off s)
  simp [execTxsRead]

/-! ## Supplies, the proof, power -/

theorem huOkFall_frames (s : State) : Frames [.m, .pins, .q, .stb, .ci] s (exec .huOkFall s) := by
  show Frames _ _ (execHuOkFall s)
  unfold execHuOkFall
  dsimp only
  split_ifs <;> simp

theorem huOkRise_frames (s : State) : Frames [.pins, .slk, .q, .stb, .ci] s (exec .huOkRise s) := by
  show Frames _ _ (execHuOkRise s)
  unfold execHuOkRise
  dsimp only
  split_ifs <;> simp

theorem proofWindowTimeout_frames (s : State) : Frames [.slk, .q, .stb, .ci] s (exec .proofWindowTimeout s) := by
  show Frames _ _ (execProofWindowTimeout s)
  unfold execProofWindowTimeout
  split <;> simp

theorem proofWindowOpen_frames (s : State) : Frames [.pins, .slk, .q, .stb, .ci] s (exec .proofWindowOpen s) := by
  show Frames _ _ (execProofWindowOpen s)
  unfold execProofWindowOpen
  split <;> simp

theorem proofPulseStart_frames (v0 : Nat) (s : State) : Frames [.pins, .slk, .q, .stb, .ci] s (exec (.proofPulseStart v0) s) := by
  show Frames _ _ (execProofPulseStart v0 s)
  unfold execProofPulseStart
  split <;> simp

theorem proofPulseEnd_frames (v1 : Nat) (v2 : PulseV) (s : State) : Frames [.pins, .slk, .q, .stb, .ci] s (exec (.proofPulseEnd v1 v2) s) := by
  show Frames _ _ (execProofPulseEnd v1 v2 s)
  unfold execProofPulseEnd
  split <;> simp

theorem chgTimeoutExpiry_frames (s : State) : Frames [.m, .st, .slk, .q, .stb, .ci] s (exec .chgTimeoutExpiry s) := by
  show Frames _ _ (execChgTimeoutExpiry s)
  unfold execChgTimeoutExpiry
  split <;> simp

theorem proofLoadEvaluation_frames (s : State) : Frames [.m, .st, .slk, .q, .stb, .ci, .free] s (exec .proofLoadEvaluation s) := by
  show Frames _ _ (execProofLoadEvaluation s)
  unfold execProofLoadEvaluation
  dsimp only
  split <;> simp

theorem powerLoopWindow_frames (pMeas : Nat) (s : State) : Frames [.pw, .q, .stb, .ci, .free] s (exec (.powerLoopWindow pMeas) s) := by
  show Frames _ _ (execPowerLoopWindow pMeas s)
  unfold execPowerLoopWindow
  extract_lets l p f low s1
  have h1 : outside [.pw, .q, .stb, .ci, .free] s1 = outside [.pw, .q, .stb, .ci, .free] s := by simp [s1]
  split_ifs <;> simp [h1]

/-! ## Register accesses -/

theorem eccFlipArm_frames (fn : Nat) (v : Dword) {s : State} (hs : plainWake s) :
    Frames [.pw, .ecc, .q, .stb, .ci] s (exec (.eccFlipArm fn v) s) := by
  show Frames _ _ (execEccFlipArm fn v s)
  unfold execEccFlipArm
  split
  · exact frames_txsRow (by simp) hs fn fun t => by simp
  · simp

theorem eccFlipDisarm_frames (fn : Nat) (v : Dword) {s : State} (hs : plainWake s) :
    Frames [.pw, .ecc, .q, .stb, .ci] s (exec (.eccFlipDisarm fn v) s) := by
  show Frames _ _ (execEccFlipDisarm fn v s)
  unfold execEccFlipDisarm
  split
  · simp
  · exact frames_txsRow (by simp) hs fn fun t => by simp

theorem cadRootCmdSend_frames (fn : Nat) (v : BitVec 64) {s : State} (hs : plainWake s) :
    Frames [.pw, .q, .stb, .ci, .cad] s (exec (.cadRootCmdSend fn v) s) := by
  show Frames _ _ (execCadRootCmdSend fn v s)
  unfold execCadRootCmdSend
  exact frames_txsRow (by simp) hs fn fun t => by split <;> simp

theorem cadRootEpochWrite_frames (fn : Nat) (v : BitVec 64) {s : State} (hs : plainWake s) :
    Frames [.pw, .q, .stb, .ci, .cad] s (exec (.cadRootEpochWrite fn v) s) := by
  show Frames _ _ (execCadRootEpochWrite fn v s)
  unfold execCadRootEpochWrite
  exact frames_txsRow (by simp) hs fn fun t => by split <;> simp

theorem pwrMeasRead_frames (fn : Nat) {s : State} (hs : plainWake s) : Frames [.pw, .q, .stb, .ci, .rg] s (exec (.pwrMeasRead fn) s) := by
  have ht : outside [.pw, .q, .stb, .ci, .rg] (touch fn s) = outside [.pw, .q, .stb, .ci, .rg] s := touch_outside (by simp) fn hs
  show Frames _ _ (execPwrMeasRead fn s)
  unfold execPwrMeasRead
  split <;> simp [ht]

theorem stbSlotFirstDwordRead_frames (view slot : Nat) {s : State} (hs : plainWake s) :
    Frames [.pw, .q, .stb, .ci, .rg] s (exec (.stbSlotFirstDwordRead view slot) s) := by
  have ht : ∀ f, outside [.pw, .q, .stb, .ci, .rg] (touch f s) = outside [.pw, .q, .stb, .ci, .rg] s := fun f => touch_outside (by simp) f hs
  show Frames _ _ (execStbSlotFirstDwordRead view slot s)
  unfold execStbSlotFirstDwordRead
  dsimp only
  split_ifs <;> simp [ht]

theorem nvmeMiCommand_frames (fn : Option Nat) {s : State} (hs : plainWake s) :
    Frames [.pw, .q, .stb, .ci, .ts, .free] s (exec (.nvmeMiCommand fn) s) := by
  show Frames _ _ (execNvmeMiCommand fn s)
  unfold execNvmeMiCommand
  extract_lets _ s1 s2
  have hp : plainWake s2 := by simp only [s2]; repeat' split
                               all_goals exact hs
  have h2 : outside [.pw, .q, .stb, .ci, .ts, .free] s2 = outside [.pw, .q, .stb, .ci, .ts, .free] s := by
    simp only [s2, s1]
    repeat' split
    all_goals simp
  simp [wake_outside (L := [.pw, .q, .stb, .ci, .ts, .free]) (by simp) 2 hp, h2]

theorem shutdown_frames (fn shn : Nat) {s : State} (hs : plainWake s) :
    Frames [.pw, .slk, .q, .stb, .jn, .ci] s (exec (.shutdown fn shn) s) := by
  have ht : outside [.pw, .slk, .q, .stb, .jn, .ci] (touch fn s) = outside [.pw, .slk, .q, .stb, .jn, .ci] s := touch_outside (by simp) fn hs
  show Frames _ _ (execShutdown fn shn s)
  unfold execShutdown
  dsimp only
  split_ifs <;> simp [ht]

/-! ## Commands of the queues -/

theorem fetchSlot_frames (c : Cmd) (s : State) : Frames [.q, .stb, .jn, .ci] s (exec (.fetchSlot c) s) := by
  show Frames _ _ (execFetchSlot c s)
  unfold execFetchSlot
  extract_lets s0
  have h0 : outside [.q, .stb, .jn, .ci] s0 = outside [.q, .stb, .jn, .ci] s := by simp only [s0]; split <;> simp
  split <;> simp [h0]

theorem sanitizeOverwrite_frames (c : Cmd) (s : State) : Frames [.q, .stb, .jn, .ci] s (exec (.sanitizeOverwrite c) s) := by
  show Frames _ _ (execSanitizeOverwrite c s)
  unfold execSanitizeOverwrite
  exact frames_admin (by simp) fun k s => by split <;> simp

theorem identify_frames (c : Cmd) (s : State) : Frames [.q, .stb, .jn, .ci] s (exec (.identify c) s) := by
  show Frames _ _ (execIdentify c s)
  unfold execIdentify
  exact frames_admin (by simp) fun k s => by split <;> simp

theorem asynchronousEventRequest_frames (c : Cmd) (s : State) : Frames [.q, .stb, .jn, .ci] s (exec (.asynchronousEventRequest c) s) := by
  show Frames _ _ (execAsynchronousEventRequest c s)
  unfold execAsynchronousEventRequest
  exact frames_admin (by simp) fun k s => by split <;> simp

theorem firmwareImageDownload_frames (c : Cmd) (s : State) : Frames [.q, .stb, .jn, .ci] s (exec (.firmwareImageDownload c) s) := by
  show Frames _ _ (execFirmwareImageDownload c s)
  unfold execFirmwareImageDownload
  exact frames_admin (by simp) fun k s => by split_ifs <;> simp

/-- Firmware Commit, whatever its action. -/
theorem commitCmd_frames (c : Cmd) (s : State) : Frames [.q, .stb, .jn, .ci] s (commitCmd c s) :=
  frames_admin (by simp) (commitOn_outside (by simp))

theorem virtMgmtSecondaryOnline_frames (c : Cmd) (s : State) : Frames [.q, .stb, .jn, .ci] s (exec (.virtMgmtSecondaryOnline c) s) := by
  show Frames _ _ (execVirtMgmtSecondaryOnline c s)
  unfold execVirtMgmtSecondaryOnline
  exact frames_admin (by simp) fun k s => vmOn_outside (by simp) k s _ fun n => by split <;> simp

theorem studbookRead_frames (c : Cmd) (s : State) : Frames [.q, .stb, .jn, .ci] s (exec (.studbookRead c) s) := by
  show Frames _ _ (execStudbookRead c s)
  unfold execStudbookRead
  exact frames_admin (by simp) fun k s => by split <;> simp

theorem invalidCommandOpcode_frames (c : Cmd) (s : State) : Frames [.q, .stb, .jn, .ci] s (exec (.invalidCommandOpcode c) s) := by
  show Frames _ _ (execInvalidCommandOpcode c s)
  unfold execInvalidCommandOpcode
  exact frames_command (by simp) fun k s => by
    split
    · exact gateAdmin_outside (by simp) _ _ _ _ _ fun k s => by simp
    · exact gateForm_outside (by simp) _ _ _ _ fun k s => rfl

theorem stallThaw_frames (c : Cmd) (s : State) : Frames [.q, .stb, .jn, .stl, .ci] s (exec (.stallThaw c) s) := by
  show Frames _ _ (execStallThaw c s)
  unfold execStallThaw
  exact frames_admin (by simp) fun k s => stallSerial_outside (by simp) _ _ _ _ (thawOn_outside (by simp) k s)

theorem stallSave_frames (c : Cmd) (s : State) : Frames [.q, .stb, .jn, .stl, .ci] s (exec (.stallSave c) s) := by
  show Frames _ _ (execStallSave c s)
  unfold execStallSave
  exact frames_admin (by simp) fun k s => stallSerial_outside (by simp) _ _ _ _ (saveOn_outside (by simp) k s)

theorem stallResourceSet_frames (c : Cmd) (buf : List Byte) (s : State) :
    Frames [.slk, .q, .stb, .jn, .stl, .ci] s (exec (.stallResourceSet c buf) s) := by
  show Frames _ _ (execStallResourceSet c buf s)
  unfold execStallResourceSet
  exact frames_admin (by simp) fun k s => stallSerial_outside (by simp) _ _ _ _ (srOn_outside (by simp) buf k s)

/-! ## O8 -/

/-- A command that may change neither the zones nor the flash leaves the state alike outside what it may change. -/
theorem frames_mayChange (i : Instr) (s : State) (hz : ((mayChange i).contains .zn || (mayChange i).contains .fl) = false)
    (hw : accesses i = true → plainWake s) : Frames (mayChange i) s (exec i s) := by
  cases i with
  | pwrfailNRise => exact pwrfailNRise_frames s
  | sysRstNRise => exact sysRstNRise_frames s
  | perstDeassert _ => exact perstDeassert_frames _ s
  | vddRetLost => exact vddRetLost_frames s
  | oscillator32kStopped => exact oscillator32kStopped_frames s
  | numvfsWrite _ => exact numvfsWrite_frames _ s
  | i3cDynamicAddressAssignment _ => exact i3cDynamicAddressAssignment_frames _ s
  | interruptCoalescingTimeExpiry _ _ => exact interruptCoalescingTimeExpiry_frames _ _ s
  | sramCorrectableError _ _ _ _ => exact sramCorrectableError_frames _ _ _ _ s
  | sqTailDoorbell _ _ _ => exact sqTailDoorbell_frames _ _ _ (hw rfl)
  | apstIdleExpiry _ => exact apstIdleExpiry_frames _ s
  | keySlotWrite _ _ _ => exact keySlotWrite_frames _ _ _ (hw rfl)
  | cvuInit _ _ _ => exact frames_cvuRow (L := [.pw, .q, .stb, .ci]) (by simp) (hw rfl) _ _ fun u => cvuCtl_outside (by simp) u _
  | cvuFeedWrite _ _ _ => exact frames_cvuRow (L := [.pw, .q, .stb, .ci]) (by simp) (hw rfl) _ _ fun u => cvuFeed_outside (by simp) u _
  | cvuValWrite _ _ _ => exact frames_cvuRow (L := [.pw, .q, .stb, .ci]) (by simp) (hw rfl) _ _ fun u => cvuVal_outside (by simp) u _
  | nonopEntryBegin => exact nonopEntryBegin_frames s
  | allQuiet _ _ => exact frames_heardCmd (L := [.q, .stb, .ci, .cad]) (by simp) _ _ _
  | release _ => exact frames_heardCmd (L := [.q, .stb, .ci, .cad]) (by simp) _ _ _
  | resync _ _ => exact frames_heardCmd (L := [.q, .stb, .ci, .cad]) (by simp) _ _ _
  | lockAcquired => exact lockAcquired_frames s
  | pollStatus _ => exact pollStatus_frames _ s
  | pollIdent _ => exact pollIdent_frames _ s
  | pollSchedCommit _ _ => exact pollSchedCommit_frames _ _ s
  | pollSchedData _ _ _ => exact pollSchedData_frames _ _ _ s
  | pollUnknown _ _ => exact pollUnknown_frames _ _ s
  | rootPollAnswer _ _ _ _ => exact rootPollAnswer_frames _ _ _ _ s
  | participantAbsent _ => exact participantAbsent_frames _ s
  | portTrainingSweepEnd _ _ => exact portTrainingSweepEnd_frames _ _ s
  | scheduleDeliveryTimeout => exact scheduleDeliveryTimeout_frames s
  | studbookRecordPlace => exact (frames_done (L := [.q, .stb, .ci, .free]) (by simp) _).mpr (placeFront_outside (by simp) s)
  | studbookPersist => exact studbookPersist_frames s
  | gatherChannelWaitExpiry _ _ _ => exact gatherChannelWaitExpiry_frames _ _ _ s
  | beatLaneAgeing _ => exact beatLaneAgeing_frames _ s
  | tapReset => exact (frames_done (L := [.q, .stb, .ci, .ts]) (by simp) _).mpr (selIr_outside (by simp) ..)
  | samplePreload _ _ => exact samplePreload_frames _ _ s
  | idcode => exact (frames_done (L := [.q, .stb, .ci, .ts]) (by simp) _).mpr (selIr_outside (by simp) ..)
  | extest _ => exact extest_frames _ s
  | clamp => exact frames_testOnly (L := [.q, .stb, .ci, .ts]) (by simp) (selIr_outside (by simp) ..)
  | highz => exact frames_testOnly (L := [.q, .stb, .ci, .ts]) (by simp) (selIr_outside (by simp) ..)
  | extestPulse => exact frames_testOnly (L := [.q, .stb, .ci, .ts]) (by simp) (selIr_outside (by simp) ..)
  | extestTrain => exact frames_testOnly (L := [.q, .stb, .ci, .ts]) (by simp) (selIr_outside (by simp) ..)
  | bypass _ => exact bypass_frames _ s
  | tstat => exact (frames_done (L := [.q, .stb, .ci, .ts]) (by simp) _).mpr (selIr_outside (by simp) ..)
  | mbistRes => exact mbistRes_frames s
  | fpRes => exact fpRes_frames s
  | sanitizeOverwrite _ => exact sanitizeOverwrite_frames _ s
  | fetchSlot _ => exact fetchSlot_frames _ s
  | createIoSq _ => exact frames_admin (L := [.q, .stb, .jn, .ci]) (by simp) (createSqOn_outside (by simp))
  | createIoCq _ => exact frames_admin (L := [.q, .stb, .jn, .ci]) (by simp) (createCqOn_outside (by simp))
  | deleteIoCq _ => exact frames_admin (L := [.q, .stb, .jn, .ci]) (by simp) (deleteCqOn_outside (by simp))
  | identify _ => exact identify_frames _ s
  | getFeatures _ => exact frames_admin (L := [.q, .stb, .jn, .ci]) (by simp) (getFeatOn_outside (by simp))
  | asynchronousEventRequest _ => exact asynchronousEventRequest_frames _ s
  | firmwareImageDownload _ => exact firmwareImageDownload_frames _ s
  | fwCommitReplace _ => exact commitCmd_frames _ s
  | fwCommitReplaceActivateNext _ => exact commitCmd_frames _ s
  | fwCommitActivateNext _ => exact commitCmd_frames _ s
  | fwCommitActivateNow _ => exact commitCmd_frames _ s
  | virtMgmtResourceAssign _ => exact frames_admin (L := [.q, .stb, .jn, .ci]) (by simp) (vmAssignOn_outside (by simp))
  | virtMgmtSecondaryOnline _ => exact virtMgmtSecondaryOnline_frames _ s
  | studbookRead _ => exact studbookRead_frames _ s
  | invalidCommandOpcode _ => exact invalidCommandOpcode_frames _ s
  | vfEnableSet => exact vfEnableSet_frames s
  | proofAgeExpiry => exact (frames_done (L := [.slk, .q, .stb, .ci]) (by simp) _).mpr (proofTrigger_outside (by simp) ..)
  | proofWindowTimeout => exact proofWindowTimeout_frames s
  | huOkFall => exact huOkFall_frames s
  | huOkRise => exact huOkRise_frames s
  | proofWindowOpen => exact proofWindowOpen_frames s
  | proofPulseStart _ => exact proofPulseStart_frames _ s
  | proofPulseEnd _ _ => exact proofPulseEnd_frames _ _ s
  | eccFlipArm _ _ => exact eccFlipArm_frames _ _ (hw rfl)
  | eccFlipDisarm _ _ => exact eccFlipDisarm_frames _ _ (hw rfl)
  | cadRootCmdSend _ _ => exact cadRootCmdSend_frames _ _ (hw rfl)
  | cadRootEpochWrite _ _ => exact cadRootEpochWrite_frames _ _ (hw rfl)
  | powerLoopWindow _ => exact powerLoopWindow_frames _ s
  | pwrMeasRead _ => exact pwrMeasRead_frames _ (hw rfl)
  | stbSlotFirstDwordRead _ _ => exact stbSlotFirstDwordRead_frames _ _ (hw rfl)
  | regReadLowDword _ _ _ => exact frames_regRead (L := [.pw, .q, .stb, .ci, .rg]) (by simp) (hw rfl) _ _ _ _
  | regReadHighDword _ _ _ => exact frames_regRead (L := [.pw, .q, .stb, .ci, .rg]) (by simp) (hw rfl) _ _ _ _
  | proofNow _ => exact frames_txsRow (L := [.pw, .slk, .q, .stb, .ci]) (by simp) (hw rfl) _ (proofTrigger_outside (by simp) _)
  | mbist _ => exact mbist_frames _ s
  | cadenceScheduleLoad _ _ => exact frames_admin (L := [.q, .stb, .jn, .ci, .cad]) (by simp) (schedLoadOn_outside (by simp) _)
  | yardStatusLog _ => exact frames_admin (L := [.q, .stb, .jn, .ci, .free]) (by simp) (yardLogOn_outside (by simp))
  | serviceLifeLog _ => exact frames_admin (L := [.q, .stb, .jn, .ci, .free]) (by simp) (lifeLogOn_outside (by simp))
  | stallThaw _ => exact stallThaw_frames _ s
  | stallSave _ => exact stallSave_frames _ s
  | slackReport _ => exact frames_admin (L := [.slk, .q, .stb, .jn, .ci]) (by simp) (slackReportOn_outside (by simp))
  | spiProg _ => exact spiProg_frames _ s
  | chgTimeoutExpiry => exact chgTimeoutExpiry_frames s
  | tokenRelease _ => exact frames_txsRow (L := [.pw, .q, .stb, .ci, .cad, .free]) (by simp) (hw rfl) _ (tokenReleaseNow_outside (by simp))
  | nvmeMiCommand _ => exact nvmeMiCommand_frames _ (hw rfl)
  | txsRead _ => exact txsRead_frames _ s
  | shutdown _ _ => exact shutdown_frames _ _ (hw rfl)
  | getLogPage _ => exact frames_admin (L := [.q, .stb, .jn, .ci, .cad, .free]) (by simp) (logOn_outside (by simp))
  | cadenceDomainStatusLog _ => exact frames_admin (L := [.q, .stb, .jn, .ci, .cad, .free]) (by simp) (cadLogOn_outside (by simp))
  | fptest _ => exact fptest_frames _ s
  | stallResourceSet _ _ => exact stallResourceSet_frames _ _ s
  | lockLost _ => exact lockLost_frames _ s
  | relock _ => exact frames_txsRow (L := [.tm, .pw, .q, .stb, .ci, .cad]) (by simp) (hw rfl) _ (relockNow_outside (by simp))
  | turnHeader _ => exact turnHeader_frames _ s
  | mbistEnd _ => exact mbistEnd_frames _ s
  | proofLoadEvaluation => exact proofLoadEvaluation_frames s
  | turnStart => exact (frames_done (L := [.tm, .slk, .pl, .q, .stb, .ci, .cad, .free]) (by simp) _).mpr (newTurn_outside (by simp) s)
  | epochBoundary => exact epochBoundary_frames s
  | allQuietExpiry => exact allQuietExpiry_frames s
  | _ => exact Bool.noConfusion hz

/-- Settles O8: alike outside a list of components is to have the others in common. -/
theorem framesOutsideStorage : Obligations.FramesOutsideStorage := by
  unfold Obligations.FramesOutsideStorage
  intro i s t hzn hfl hw he x hx
  have hz : ((mayChange i).contains .zn || (mayChange i).contains .fl) = false := by simp [hzn, hfl]
  exact keeps_of_outside (frames_mayChange i s hz hw t he) hx

end Sys2Proof.Machine

/-! O3, O7. Every command answers a next state, in which the part, the image and the waiting commands stand and the Studbook's bounds hold. -/

namespace Sys2Proof.Machine
open Sys2Proof

/-- An outcome is a next state that keeps what `Stays` says, and no event is left in flight if none was. -/
def Runs (s : State) (o : Out) : Prop := ∃ t, o = .next t ∧ Stays s t ∧ (s.stb.raised = [] → t.stb.raised = [])

section
variable {s : State}

/-! ## How meanings end -/

/-- A command that finds its cause absent. -/
@[simp] theorem runs_same : Runs s (.next s) := ⟨s, rfl, .refl s, id⟩

/-- A command that changes neither what is steady nor the events in flight. -/
@[simp] theorem runs_next {t : State} (h : steady t = steady s) (hr : t.stb.raised = s.stb.raised) : Runs s (.next t) :=
  ⟨t, rfl, .of_steady h, fun h0 => hr.trans h0⟩

@[simp] theorem runs_done {u : State} (h : Ext (steady s) (steady u)) : Runs s (done u) := by
  obtain ⟨t, he, hs, hr⟩ := done_stays u
  exact ⟨t, he, .trans (Ext.iff.mp h) hs, fun _ => hr⟩

@[simp] theorem runs_doneIo {u : State} (h : Ext (steady s) (steady u)) : Runs s (doneIo u) := by
  obtain ⟨t, he, hs, hr⟩ := doneIo_stays u
  exact ⟨t, he, .trans (Ext.iff.mp h) hs, fun _ => hr⟩

/-- A restart that VDD_AON outlasts. -/
theorem runs_restart {keep : Bool} {t : State} (h : Ext (steady s) (steady t)) : Runs s (.next (restart true keep t)) :=
  ⟨_, rfl, Ext.iff.mp (restart_ext keep t h), fun _ => (restart_kept true keep t).2.2.2.1⟩

/-- A start of the device. -/
theorem runs_startNow {t : State} (h : Ext (steady s) (steady t)) : Runs s (.next (startNow t)) :=
  runs_restart (by rw [cutRecovery_steady]; exact h)

/-- A command taken from a queue: what it does once its context is made. -/
theorem command_ext {c : Cmd} {f : Ctx → State → State} (hf : ∀ k s, steady (f k s) = steady s) : Ext (steady s) (steady (withCmd c s f)) := by
  rw [withCmd_steady c s f hf]; exact .refl _

/-- An admin command: what it does once the gates let it run. -/
theorem runs_admin {c : Cmd} {allowed san : Bool} {f : Ctx → State → State} (hf : ∀ k s, steady (f k s) = steady s) :
    Runs s (done (withCmd c s (fun k s => gateAdmin allowed san k s f))) :=
  runs_done (command_ext fun k s => gateAdmin_steady allowed san k s f hf)

/-- An admin command that serves I/O. -/
theorem runs_adminIo {c : Cmd} {allowed san : Bool} {f : Ctx → State → State} (hf : ∀ k s, steady (f k s) = steady s) :
    Runs s (doneIo (withCmd c s (fun k s => gateAdmin allowed san k s f))) :=
  runs_doneIo (command_ext fun k s => gateAdmin_steady allowed san k s f hf)

/-- An I/O command. -/
theorem runs_io {c : Cmd} {f : Ctx → State → State} (hf : ∀ k s, steady (f k s) = steady s) :
    Runs s (doneIo (withCmd c s (fun k s => gateIo k s f))) :=
  runs_doneIo (command_ext fun k s => gateIo_steady k s f hf)

/-- Set Features. -/
theorem runs_setFeat {c : Cmd} {f : Ctx → State → State} (hf : ∀ k s, steady (f k s) = steady s) : Runs s (setFeat c s f) :=
  runs_adminIo fun k s => by split <;> simp [hf]

/-- A register write of a physical function. -/
theorem runs_txsRow {fn : Nat} {f : State → State} (hf : ∀ t, steady (f t) = steady t) : Runs s (txsRow fn f s) := by
  unfold txsRow
  dsimp only
  split
  · refine runs_done ?_
    split <;> simp [hf]
  · exact runs_same

/-- A write of a check-value unit. -/
theorem runs_cvuRow {fn unit : Nat} {f : Nat → State → State} (hf : ∀ u t, steady (f u t) = steady t) : Runs s (cvuRow fn unit f s) := by
  have row : ∀ t, steady (match cvuOf? fn unit t with | some u => f u t | none => t) = steady t := by
    intro t
    split <;> simp [hf]
  unfold cvuRow
  split
  · split
    · exact runs_done ((touch_ext fn s (.refl _)).stays (.of_steady (row (touch fn s))))
    · exact runs_same
  · exact runs_txsRow row

/-- A write of a maintenance channel's control register. -/
theorem runs_gdcRow {fn ch bitNo : Nat} {v : Dword} {moved : Nat} {mem : HostMem} : Runs s (gdcRow fn ch bitNo v moved mem s) := by
  unfold gdcRow
  dsimp only
  split
  · refine runs_doneIo ?_
    split <;> simp
  · exact runs_same

theorem readPlain_steady (fn off n : Nat) (s : State) : steady (readPlain fn off n s) = steady s := by
  unfold readPlain
  dsimp only
  split_ifs <;> simp

theorem readBar2_steady (fn off width : Nat) (s : State) : steady (readBar2 fn off width s) = steady s := by
  unfold readBar2; split
  · exact read32_steady fn off s
  · exact readPlain_steady fn off width s

/-- A read of a register. -/
theorem runs_regRead {fn space off width : Nat} : Runs s (regRead fn space off width s) := by
  have touched : Ext (steady s) (steady (touch fn s)) := touch_ext fn s (.refl _)
  unfold regRead
  dsimp only
  split_ifs
  · exact runs_same
  · exact runs_done (by rw [readOut_steady]; exact touched)
  · exact runs_done (by rw [readBar2_steady]; exact touched)
  · exact runs_same

/-- A command of the cadence, heard. -/
theorem runs_heardCmd {cmd arg seq : Nat} : Runs s (heardCmd cmd arg seq s) := by
  unfold heardCmd
  split <;> simp

@[simp] theorem avsStep_steady (s : State) : steady (avsStep s) = steady s := by unfold avsStep; split <;> simp

/-- An instruction of the test port that acts in TEST only. -/
theorem runs_testOnly {f : State → State} (hf : steady (f s) = steady s) : Runs s (testOnly f s) :=
  runs_done (by split <;> simp [hf])

end

/-! ## Supplies, resets, the start, faults -/

theorem sysRstNLow_runs (ns : Nat) (s : State) : Runs s (exec (.sysRstNLow ns) s) := by
  show Runs s (execSysRstNLow ns s)
  unfold execSysRstNLow
  dsimp only
  split
  · exact runs_next (tick_steady s) rfl
  · split
    · exact runs_next (by simp) rfl
    · exact runs_startNow (by simp)

theorem deviceLevelPerst_runs (s : State) : Runs s (exec .deviceLevelPerst s) := by
  show Runs s (execDeviceLevelPerst s)
  simp [execDeviceLevelPerst]

theorem deviceResetDrainEnd_runs (s : State) : Runs s (exec .deviceResetDrainEnd s) := by
  show Runs s (execDeviceResetDrainEnd s)
  unfold execDeviceResetDrainEnd
  split
  · exact runs_startNow (cleanClose_ext s (.refl _))
  · exact runs_same

theorem portPerst_runs (port : Nat) (s : State) : Runs s (exec (.portPerst port) s) := by
  show Runs s (execPortPerst port s)
  unfold execPortPerst
  dsimp only
  split_ifs <;> simp

theorem dlDown_runs (port : Nat) (s : State) : Runs s (exec (.dlDown port) s) := by
  show Runs s (execDlDown port s)
  unfold execDlDown
  split <;> simp

theorem strapSample_runs (dual test noimg : Strap) (s : State) : Runs s (exec (.strapSample dual test noimg) s) := by
  show Runs s (execStrapSample dual test noimg s)
  unfold execStrapSample
  dsimp only
  split_ifs <;> simp

theorem flashDiscoveryEnd_runs (luns : List LunReport) (chs : List ChTrain) (temps : List (Nat × Nat × Int)) (s : State) :
    Runs s (exec (.flashDiscoveryEnd luns chs temps) s) := by
  show Runs s (execFlashDiscoveryEnd luns chs temps s)
  unfold execFlashDiscoveryEnd
  extract_lets rs onCh _ _ _ broken _ _ _ ex out s0 s1 _ _ _ _ s2 s3 s4 s5 s6 s7 s8 s8' s9 s10
  have h0 : steady s0 = steady s := steady_foldl _ (fun s r => raise_steady _ _ _ s) _ _
  have h1 : steady s1 = steady s := by
    clear_value broken
    simp only [s1]
    split <;> simp [h0]
  have h2 : steady s2 = steady s := by simp [s2, h1]
  have h3 : steady s3 = steady s := by simp [s3, h2]
  have h4 : steady s4 = steady s := (steady_foldl _ (fun s t => trainChannel_steady ..) _ _).trans h3
  have h5 : steady s5 = steady s := (steady_foldl _ (fun s c => updChn_steady ..) _ _).trans h4
  have h6 : steady s6 = steady s := by simp [s6, h5]
  have h7 : steady s7 = steady s := (steady_foldl _ (fun s d => loseDie_steady ..) _ _).trans h6
  have h8 : steady s8 = steady s := (steady_foldl _ (fun s t => failChannel_steady ..) _ _).trans h7
  have h8' : steady s8' = steady s := by
    simp only [s8']
    split
    · exact (steady_foldl _ (fun s c => layCalib_steady ..) _ _).trans h8
    · exact h8
  have h9 : steady s9 = steady s := (steady_foldl _ (fun s d => refillLists_steady ..) _ _).trans h8'
  have h10 : steady s10 = steady s := by simp [s10, h9]
  split
  · exact runs_same
  · exact runs_done (by simp [h10])

theorem flushRehearsalEnd_runs (milliW rate : Nat) (s : State) : Runs s (exec (.flushRehearsalEnd milliW rate) s) := by
  show Runs s (execFlushRehearsalEnd milliW rate s)
  have used : ∀ (l : List Nat) (t : State), steady (l.foldl (fun s k => useCalib k s) t) = steady t :=
    fun l t => steady_foldl _ (fun s k => useCalib_steady k s) l t
  unfold execFlushRehearsalEnd
  dsimp only
  split <;> simp [used]

theorem tableLoadEnd_runs (copy0 copy1 : Bool) (s : State) : Runs s (exec (.tableLoadEnd copy0 copy1) s) := by
  show Runs s (execTableLoadEnd copy0 copy1 s)
  unfold execTableLoadEnd
  extract_lets _ s0 _ s1 _ s2 _ _ _ s3 safe _ _ s4 _ s5 bad _ _ t s6
  have h0 : Ext (steady s) (steady s0) := by simp [s0]
  have h1 : Ext (steady s) (steady s1) := loadRing_ext (by simpa using h0)
  have h2 : Ext (steady s) (steady s2) := by simp only [s2]; split <;> simp [h1]
  have h4 : Ext (steady s) (steady s4) := by simp only [s4, s3]; split <;> simp [h2]
  have h5 : Ext (steady s) (steady s5) := by simp only [s5]; split <;> simp [h4]
  have ht : Ext (steady s) (steady t) := by simp [t, h5]
  have h6 : Ext (steady s) (steady s6) := by
    simp only [s6]
    split_ifs
    · exact h5
    · simpa using ht
    · exact ht
  split
  · exact runs_same
  · split
    · exact runs_done (by simp [h0])
    · exact runs_done (by simp [h6])

theorem proofLoadEnd_runs (s : State) : Runs s (exec .proofLoadEnd s) := by
  show Runs s (execProofLoadEnd s)
  unfold execProofLoadEnd
  split_ifs <;> simp

theorem recoveryEnd_runs (lost : List Lost) (found : RecovFound) (s : State) : Runs s (exec (.recoveryEnd lost found) s) := by
  show Runs s (execRecoveryEnd lost found s)
  unfold execRecoveryEnd
  extract_lets s1 s2 s3 s4 s5 s6 ms _ _ s7
  have h1 : steady s1 = steady s := by simp only [s1]; split <;> simp
  have h2 : steady s2 = steady s := (steady_foldl _ (fun s f => faultWork_steady f s) _ _).trans h1
  have h3 : steady s3 = steady s := by simp [s3, h2]
  have h4 : steady s4 = steady s := by simp only [s4]; split <;> simp [h3]
  have h5 : steady s5 = steady s := by simp only [s5]; split <;> simp [h4]
  have h7 : steady s7 = steady s := by simp [s7, s6, h5]
  split
  · exact runs_same
  · refine runs_doneIo ?_
    rw [startEnds_steady, raise_steady]
    split
    · rw [h7]; exact .refl _
    · exact checkpoint_ext s7 (by rw [h7]; exact .refl _)

theorem startModeOverrun_runs (s : State) : Runs s (exec .startModeOverrun s) := by
  show Runs s (execStartModeOverrun s)
  unfold execStartModeOverrun
  split <;> simp

theorem ostlerWatchdogExpiry_runs (core : Nat) (s : State) : Runs s (exec (.ostlerWatchdogExpiry core) s) := by
  show Runs s (execOstlerWatchdogExpiry core s)
  unfold execOstlerWatchdogExpiry
  dsimp only
  split_ifs <;> simp

theorem spineLinkFault_runs (shed : Nat) (s : State) : Runs s (exec (.spineLinkFault shed) s) := by
  show Runs s (execSpineLinkFault shed s)
  unfold execSpineLinkFault
  split <;> simp

theorem refclk38m4Lost_runs (s : State) : Runs s (exec .refclk38m4Lost s) := by
  show Runs s (execRefclk38m4Lost s)
  unfold execRefclk38m4Lost
  split <;> simp

theorem pwrfailNFall_runs (s : State) : Runs s (exec .pwrfailNFall s) := by
  show Runs s (execPwrfailNFall s)
  unfold execPwrfailNFall
  dsimp only
  split_ifs <;> simp

theorem cadPfAccepted_runs (ns : Nat) (s : State) : Runs s (exec (.cadPfAccepted ns) s) := by
  show Runs s (execCadPfAccepted ns s)
  unfold execCadPfAccepted
  split_ifs <;> simp

theorem emergencyFlushComplete_runs (temp : Int) (us : Nat) (s : State) : Runs s (exec (.emergencyFlushComplete temp us) s) := by
  show Runs s (execEmergencyFlushComplete temp us s)
  unfold execEmergencyFlushComplete
  extract_lets bytes s1 s2 s4
  have h2 : steady s2 = steady s := by simp [s2, s1]
  have h4 : Ext (steady s) (steady s4) := flushFixed_ext bytes _ (by simp [h2])
  split
  · exact runs_same
  · refine runs_done (heldResets_ext _ ?_)
    split <;> simp [h4]

theorem flushRestartDelayExpiry_runs (s : State) : Runs s (exec .flushRestartDelayExpiry s) := by
  show Runs s (execFlushRestartDelayExpiry s)
  unfold execFlushRestartDelayExpiry
  split
  · exact runs_restart (.refl _)
  · exact runs_same

theorem thermalTrip_runs (die : Nat) (temp : Int) (s : State) : Runs s (exec (.thermalTrip die temp) s) := by
  show Runs s (execThermalTrip die temp s)
  unfold execThermalTrip
  repeat' split
  all_goals simp

theorem thermalTripDrainEnd_runs (us : Nat) (s : State) : Runs s (exec (.thermalTripDrainEnd us) s) := by
  show Runs s (execThermalTripDrainEnd us s)
  unfold execThermalTripDrainEnd
  split <;> simp

theorem pwrfailNRise_runs (s : State) : Runs s (exec .pwrfailNRise s) := by
  show Runs s (execPwrfailNRise s)
  simp [execPwrfailNRise]

theorem sysRstNRise_runs (s : State) : Runs s (exec .sysRstNRise s) := by
  show Runs s (execSysRstNRise s)
  simp [execSysRstNRise]

theorem perstDeassert_runs (port : Nat) (s : State) : Runs s (exec (.perstDeassert port) s) := by
  show Runs s (execPerstDeassert port s)
  simp [execPerstDeassert]

/-! ## Power and housekeeping -/

theorem vddRetLost_runs (s : State) : Runs s (exec .vddRetLost s) := by
  show Runs s (execVddRetLost s)
  unfold execVddRetLost
  split <;> simp

theorem powerLoopWindow_runs (pMeas : Nat) (s : State) : Runs s (exec (.powerLoopWindow pMeas) s) := by
  show Runs s (execPowerLoopWindow pMeas s)
  unfold execPowerLoopWindow
  extract_lets l p f low s1
  have h1 : steady s1 = steady s := by simp [s1]
  split
  · exact runs_same
  · refine runs_done ?_
    rw [avsStep_steady]
    split <;> simp [h1]

theorem housekeepingRound_runs (r : HkRound) (s : State) : Runs s (exec (.housekeepingRound r) s) := by
  show Runs s (execHousekeepingRound r s)
  unfold execHousekeepingRound
  extract_lets dt k0 wc cc die _ _ s1 s2 s3 _ s4 s5 s6
  have h1 : steady s1 = steady s := accrue_steady s
  have h3 : steady s3 = steady s := by simp [s3, s2, h1]
  have h4 : steady s4 = steady s := by simp [s4, h3]
  have h5 : steady s5 = steady s := by simp [s5, h4]
  have h6 : steady s6 = steady s := by simp only [s6]; split <;> simp [h5]
  split
  · exact runs_same
  · refine runs_doneIo ?_
    rw [tmpReport_steady]
    split <;> simp [h6]

theorem nonopEntryBegin_runs (s : State) : Runs s (exec .nonopEntryBegin s) := by
  show Runs s (execNonopEntryBegin s)
  unfold execNonopEntryBegin
  dsimp only
  split <;> simp

theorem sleepHandshakeReply_runs (agree : Bool) (s : State) : Runs s (exec (.sleepHandshakeReply agree) s) := by
  show Runs s (execSleepHandshakeReply agree s)
  unfold execSleepHandshakeReply
  dsimp only
  split_ifs <;> simp

theorem nonopExitEnd_runs (hdr : Option (Nat × Nat)) (s : State) : Runs s (exec (.nonopExitEnd hdr) s) := by
  show Runs s (execNonopExitEnd hdr s)
  unfold execNonopExitEnd
  extract_lets from4 s0 us adv aged _ s1 _ _ _ _ s2 n _ s3 s4
  have h0 : steady s0 = steady s := by simp only [s0]; split <;> simp
  have ha : steady aged = steady s := by simp [aged, h0]
  have h1 : steady s1 = steady s := by simp only [s1, accrue_steady]; split <;> simp [ha, h0]
  have h2 : steady s2 = steady s := by simp only [s2]; split <;> simp [h1]
  have h4 : steady s4 = steady s := by simp only [s4, s3]; split <;> simp [h2]
  split
  · exact runs_done (by simp [h4])
  · exact runs_same

theorem oscillator32kStopped_runs (s : State) : Runs s (exec .oscillator32kStopped s) := by
  show Runs s (execOscillator32kStopped s)
  unfold execOscillator32kStopped
  split <;> simp

/-! ## The Slack -/

theorem huOkRise_runs (s : State) : Runs s (exec .huOkRise s) := by
  show Runs s (execHuOkRise s)
  unfold execHuOkRise
  split_ifs <;> simp

theorem huOkFall_runs (s : State) : Runs s (exec .huOkFall s) := by
  show Runs s (execHuOkFall s)
  unfold execHuOkFall
  dsimp only
  split_ifs <;> simp

theorem chgTimeoutExpiry_runs (s : State) : Runs s (exec .chgTimeoutExpiry s) := by
  show Runs s (execChgTimeoutExpiry s)
  unfold execChgTimeoutExpiry
  split <;> simp

theorem proofAgeExpiry_runs (s : State) : Runs s (exec .proofAgeExpiry s) := by
  show Runs s (execProofAgeExpiry s)
  simp [execProofAgeExpiry]

theorem proofWindowOpen_runs (s : State) : Runs s (exec .proofWindowOpen s) := by
  show Runs s (execProofWindowOpen s)
  unfold execProofWindowOpen
  split <;> simp

theorem proofPulseStart_runs (v0 : Nat) (s : State) : Runs s (exec (.proofPulseStart v0) s) := by
  show Runs s (execProofPulseStart v0 s)
  unfold execProofPulseStart
  split <;> simp

theorem proofWindowTimeout_runs (s : State) : Runs s (exec .proofWindowTimeout s) := by
  show Runs s (execProofWindowTimeout s)
  unfold execProofWindowTimeout
  split <;> simp

theorem proofPulseEnd_runs (v1 : Nat) (v2 : PulseV) (s : State) : Runs s (exec (.proofPulseEnd v1 v2) s) := by
  show Runs s (execProofPulseEnd v1 v2 s)
  unfold execProofPulseEnd
  split <;> simp

theorem proofLoadEvaluation_runs (s : State) : Runs s (exec .proofLoadEvaluation s) := by
  show Runs s (execProofLoadEvaluation s)
  unfold execProofLoadEvaluation
  split <;> simp

/-! ## Zones and I/O -/

theorem slackDecision_runs (w : Nat) (rest : List Blk) (s : State) : Runs s (exec (.slackDecision w rest) s) := by
  show Runs s (execSlackDecision w rest s)
  unfold execSlackDecision
  repeat' split
  all_goals simp

theorem writeZeroes_runs (c : Cmd) (s : State) : Runs s (exec (.writeZeroes c) s) := by
  show Runs s (execWriteZeroes c s)
  unfold execWriteZeroes
  refine runs_io fun k s => ?_
  repeat' split
  all_goals simp

theorem flush_runs (c : Cmd) (s : State) : Runs s (exec (.flush c) s) := by
  show Runs s (execFlush c s)
  unfold execFlush
  refine runs_io fun k s => ?_
  repeat' split
  all_goals simp

theorem zoneOfflineAction_runs (c : Cmd) (s : State) : Runs s (exec (.zoneOfflineAction c) s) := by
  show Runs s (execZoneOfflineAction c s)
  unfold execZoneOfflineAction
  exact runs_io fun k s => by simp

theorem setZoneDescriptorExtension_runs (c : Cmd) (s : State) : Runs s (exec (.setZoneDescriptorExtension c) s) := by
  show Runs s (execSetZoneDescriptorExtension c s)
  unfold execSetZoneDescriptorExtension
  refine runs_io fun k s => ?_
  split
  · exact denyPerm_steady k s
  · exact withNs_steady k s _ fun n => by split <;> simp

theorem reportZones_runs (c : Cmd) (s : State) : Runs s (exec (.reportZones c) s) := by
  show Runs s (execReportZones c s)
  unfold execReportZones
  exact runs_io fun k s => by simp

theorem extendedReportZones_runs (c : Cmd) (s : State) : Runs s (exec (.extendedReportZones c) s) := by
  show Runs s (execExtendedReportZones c s)
  unfold execExtendedReportZones
  exact runs_io fun k s => withNs_steady k s _ fun n => by split <;> simp

theorem zoneFinishedByController_runs (z : Nat) (s : State) : Runs s (exec (.zoneFinishedByController z) s) := by
  show Runs s (execZoneFinishedByController z s)
  unfold execZoneFinishedByController
  split
  · exact runs_same
  · dsimp only
    split
    · refine runs_done ?_
      rw [steady_foldl _ (fun s f => by split <;> simp), steady_foldl _ (fun s f => updFn_steady ..)]
      simp
    · exact runs_same

theorem scrubComplete_runs (z : Nat) (s : State) : Runs s (exec (.scrubComplete z) s) := by
  show Runs s (execScrubComplete z s)
  unfold execScrubComplete
  dsimp only
  repeat' split
  all_goals simp

theorem scrubScheduleBreakExpiry_runs (z : Nat) (s : State) : Runs s (exec (.scrubScheduleBreakExpiry z) s) := by
  show Runs s (execScrubScheduleBreakExpiry z s)
  unfold execScrubScheduleBreakExpiry
  repeat' split
  all_goals simp

theorem sanitizeExitFailureMode_runs (c : Cmd) (s : State) : Runs s (exec (.sanitizeExitFailureMode c) s) := by
  show Runs s (execSanitizeExitFailureMode c s)
  unfold execSanitizeExitFailureMode
  refine runs_admin fun k s => ?_
  repeat' split
  all_goals simp

theorem sanitizeOverwrite_runs (c : Cmd) (s : State) : Runs s (exec (.sanitizeOverwrite c) s) := by
  show Runs s (execSanitizeOverwrite c s)
  unfold execSanitizeOverwrite
  refine runs_admin fun k s => ?_
  repeat' split
  all_goals simp

/-! ## Sanitize and the journal -/

theorem sanitizeEnd_runs (failed : Option Nat) (s : State) : Runs s (exec (.sanitizeEnd failed) s) := by
  show Runs s (execSanitizeEnd failed s)
  unfold execSanitizeEnd
  repeat' split
  all_goals simp

theorem journalCheckpoint_runs (s : State) : Runs s (exec .journalCheckpoint s) := by
  show Runs s (execJournalCheckpoint s)
  unfold execJournalCheckpoint
  split <;> simp

/-! ## Placement -/

theorem conventionalGarbageCollection_runs (s : State) : Runs s (exec .conventionalGarbageCollection s) := by
  show Runs s (execConventionalGarbageCollection s)
  unfold execConventionalGarbageCollection
  extract_lets f due _ s1
  have h1 : steady s1 = steady s := by simp only [s1]; split <;> simp
  split
  · exact runs_same
  · split
    · exact runs_same
    · split
      · rename_i t h
        obtain ⟨p, _, hp⟩ := Option.bind_eq_some_iff.mp h
        exact runs_doneIo (by simp [startConvMove_steady hp, h1])
      · exact runs_done (by simp [h1])

theorem fold_runs (zone : Nat) (s : State) : Runs s (exec (.fold zone) s) := by
  show Runs s (execFold zone s)
  unfold execFold
  dsimp only
  repeat' split
  all_goals simp

theorem paddockCompaction_runs (yard : Nat) (s : State) : Runs s (exec (.paddockCompaction yard) s) := by
  show Runs s (execPaddockCompaction yard s)
  unfold execPaddockCompaction
  extract_lets s1 cand marked
  have h1 : steady s1 = steady s := by simp [s1]
  have kept : Runs s (doneIo s1) := runs_doneIo (by simp [h1])
  split
  · split
    · split
      · split
        · rename_i h
          exact runs_doneIo (by simp [startPadMove_steady h, h1])
        · exact kept
      · exact kept
    · exact kept
  · exact runs_same

theorem relocation_runs (pen : Nat) (s : State) : Runs s (exec (.relocation pen) s) := by
  show Runs s (execRelocation pen s)
  unfold execRelocation
  split
  · exact runs_same
  · split
    · exact runs_same
    · split
      · split
        · split
          · rename_i h
            exact runs_doneIo (by simp [startConvMove_steady h])
          · exact runs_same
        · exact runs_same
      · split
        · split
          · exact runs_doneIo (by simp)
          · exact runs_same
        · split
          · split
            · split
              · rename_i h
                exact runs_doneIo (by simp [startPadMove_steady h])
              · exact runs_same
            · exact runs_same
          · split
            · exact runs_same
            · split
              · rename_i h
                exact runs_doneIo (by simp [startMove_steady h])
              · exact runs_same

theorem wearLevelling_runs (yard : Nat) (s : State) : Runs s (exec (.wearLevelling yard) s) := by
  show Runs s (execWearLevelling yard s)
  unfold execWearLevelling
  extract_lets sp c s1
  have h1 : steady s1 = steady s := by simp only [s1]; split <;> simp
  split
  · split
    · exact runs_done (by simp [h1])
    · split
      · split
        · rename_i h
          exact runs_doneIo (by simp [startMove_steady h, h1])
        · exact runs_done (by simp [h1])
      · exact runs_done (by simp [h1])
  · exact runs_same

theorem landingSpaceReturns_runs (yard : Nat) (s : State) : Runs s (exec (.landingSpaceReturns yard) s) := by
  show Runs s (execLandingSpaceReturns yard s)
  unfold execLandingSpaceReturns
  split <;> simp

/-! ## The flash channels -/

theorem arrayOperationStart_runs (ch typ : Nat) (s : State) : Runs s (exec (.arrayOperationStart ch typ) s) := by
  show Runs s (execArrayOperationStart ch typ s)
  unfold execArrayOperationStart
  dsimp only
  split <;> simp

theorem programEnd_runs (ch lun : Nat) (pass : Bool) (s : State) : Runs s (exec (.programEnd ch lun pass) s) := by
  show Runs s (execProgramEnd ch lun pass s)
  unfold execProgramEnd
  dsimp only
  repeat' split
  all_goals simp

theorem eraseEnd_runs (ch lun : Nat) (pass : Bool) (s : State) : Runs s (exec (.eraseEnd ch lun pass) s) := by
  show Runs s (execEraseEnd ch lun pass s)
  unfold execEraseEnd
  dsimp only
  repeat' split
  all_goals simp

theorem readEnd_runs (ch lun ladder corr : Nat) (s : State) : Runs s (exec (.readEnd ch lun ladder corr) s) := by
  show Runs s (execReadEnd ch lun ladder corr s)
  unfold execReadEnd
  dsimp only
  repeat' split
  all_goals simp

theorem preProgramCheckEnd_runs (ch lun zeros : Nat) (s : State) : Runs s (exec (.preProgramCheckEnd ch lun zeros) s) := by
  show Runs s (execPreProgramCheckEnd ch lun zeros s)
  unfold execPreProgramCheckEnd
  dsimp only
  repeat' split
  all_goals simp

theorem suspendArbiterDecision_runs (op : Nat) (s : State) : Runs s (exec (.suspendArbiterDecision op) s) := by
  show Runs s (execSuspendArbiterDecision op s)
  unfold execSuspendArbiterDecision
  split <;> simp

theorem suspendRunMinReached_runs (ch lun : Nat) (s : State) : Runs s (exec (.suspendRunMinReached ch lun) s) := by
  show Runs s (execSuspendRunMinReached ch lun s)
  unfold execSuspendRunMinReached
  dsimp only
  split
  · refine runs_done ?_
    rw [steady_foldl _ (fun s r => arbitrate_steady r s), steady_foldl _ (fun s o => updOp_steady ..)]
    exact .refl _
  · exact runs_same

theorem dieSuspended_runs (ch lun : Nat) (s : State) : Runs s (exec (.dieSuspended ch lun) s) := by
  show Runs s (execDieSuspended ch lun s)
  unfold execDieSuspended
  dsimp only
  split <;> simp

theorem suspendHoldExpiry_runs (ch lun : Nat) (s : State) : Runs s (exec (.suspendHoldExpiry ch lun) s) := by
  show Runs s (execSuspendHoldExpiry ch lun s)
  unfold execSuspendHoldExpiry
  dsimp only
  split <;> simp

theorem continuousReadWaitExpiry_runs (ch lun : Nat) (s : State) : Runs s (exec (.continuousReadWaitExpiry ch lun) s) := by
  show Runs s (execContinuousReadWaitExpiry ch lun s)
  unfold execContinuousReadWaitExpiry
  dsimp only
  split <;> simp

theorem eyePass_runs (ch eye : Nat) (s : State) : Runs s (exec (.eyePass ch eye) s) := by
  show Runs s (execEyePass ch eye s)
  unfold execEyePass
  dsimp only
  split <;> simp

theorem retrainEnd_runs (ch eyeRd eyeWr rate : Nat) (s : State) : Runs s (exec (.retrainEnd ch eyeRd eyeWr rate) s) := by
  show Runs s (execRetrainEnd ch eyeRd eyeWr rate s)
  unfold execRetrainEnd
  dsimp only
  split_ifs <;> simp

theorem lunTimeout_runs (ch lun : Nat) (s : State) : Runs s (exec (.lunTimeout ch lun) s) := by
  show Runs s (execLunTimeout ch lun s)
  unfold execLunTimeout
  dsimp only
  repeat' split
  all_goals simp

theorem tackFirmwareRefresh_runs (shed : Nat) (moved : List (Nat × Nat × Nat)) (s : State) : Runs s (exec (.tackFirmwareRefresh shed moved) s) := by
  show Runs s (execTackFirmwareRefresh shed moved s)
  unfold execTackFirmwareRefresh
  extract_lets due pages s1 s2
  have h1 : steady s1 = steady s := steady_foldl _ (fun s ch => by split <;> simp) _ _
  have h2 : steady s2 = steady s := (steady_foldl _ (fun s m => refreshBlock_steady ..) _ _).trans h1
  split
  · exact runs_done (by simp [h2])
  · exact runs_same

theorem fchDiagDone_runs (ch zeros corr ladder : Nat) (s0 : State) : Runs s0 (exec (.fchDiagDone ch zeros corr ladder) s0) := by
  show Runs s0 (execFchDiagDone ch zeros corr ladder s0)
  unfold execFchDiagDone
  extract_lets mine read _ s c d b bad tack empty lad s1 s2 s3
  have h1 : steady s1 = steady s0 := by simp [s1, s]
  have h2 : steady s2 = steady s0 := by simp only [s2]; split <;> simp [h1]
  have h3 : steady s3 = steady s0 := by simp only [s3]; split <;> simp [h2]
  split
  · refine runs_done ?_
    split <;> simp [h3]
  · exact runs_same

theorem lowWearListRefillEnd_runs (ch lun : Nat) (s : State) : Runs s (exec (.lowWearListRefillEnd ch lun) s) := by
  show Runs s (execLowWearListRefillEnd ch lun s)
  unfold execLowWearListRefillEnd
  dsimp only
  split
  · refine runs_done ?_
    rw [steady_foldl _ (fun s p => bindMember_steady _ p s), refillLists_steady]
    exact .refl _
  · exact runs_same

theorem reconstructionEnd_runs (op ladder : Nat) (s : State) : Runs s (exec (.reconstructionEnd op ladder) s) := by
  show Runs s (execReconstructionEnd op ladder s)
  unfold execReconstructionEnd
  dsimp only
  repeat' split
  all_goals simp

/-! ## Error correction and passes -/

theorem sramCorrectableError_runs (die region word syndrome : Nat) (s : State) :
    Runs s (exec (.sramCorrectableError die region word syndrome) s) := by
  show Runs s (execSramCorrectableError die region word syndrome s)
  unfold execSramCorrectableError
  split <;> simp

theorem sramUncorrectableError_runs (die region word syndrome hit : Nat) (again : Bool) (s : State) :
    Runs s (exec (.sramUncorrectableError die region word syndrome hit again) s) := by
  show Runs s (execSramUncorrectableError die region word syndrome hit again s)
  unfold execSramUncorrectableError
  dsimp only
  repeat' split
  all_goals simp

theorem tableLineRebuildEnd_runs (die region word : Nat) (ok : Bool) (s : State) : Runs s (exec (.tableLineRebuildEnd die region word ok) s) := by
  show Runs s (execTableLineRebuildEnd die region word ok s)
  unfold execTableLineRebuildEnd
  dsimp only
  split_ifs <;> simp

theorem currycombAutoPassStart_runs (s : State) : Runs s (exec .currycombAutoPassStart s) := by
  show Runs s (execCurrycombAutoPassStart s)
  unfold execCurrycombAutoPassStart
  repeat' split
  · exact runs_doneIo (by simp)
  · exact runs_doneIo (by rw [steady_foldl _ (fun s y => queuePass_steady _ s)]; simp)
  · exact runs_doneIo (by rw [steady_foldl _ (fun s d => queuePass_steady _ s)]; simp)
  · exact runs_same
  · exact runs_same

theorem currycombPassEnd_runs (res : PassRes) (s : State) : Runs s (exec (.currycombPassEnd res) s) := by
  show Runs s (execCurrycombPassEnd res s)
  unfold execCurrycombPassEnd
  repeat' split
  all_goals simp

theorem entropyHealthFail_runs (s : State) : Runs s (exec .entropyHealthFail s) := by
  show Runs s (execEntropyHealthFail s)
  simp [execEntropyHealthFail]

/-! ## Controllers and queues -/

theorem sqTailDoorbell_runs (fn qid val : Nat) (s : State) : Runs s (exec (.sqTailDoorbell fn qid val) s) := by
  show Runs s (execSqTailDoorbell fn qid val s)
  unfold execSqTailDoorbell
  dsimp only
  repeat' split
  all_goals simp

theorem cqHeadDoorbell_runs (fn qid val : Nat) (s : State) : Runs s (exec (.cqHeadDoorbell fn qid val) s) := by
  show Runs s (execCqHeadDoorbell fn qid val s)
  unfold execCqHeadDoorbell
  repeat' split
  all_goals simp

theorem fetchSlot_runs (c : Cmd) (s : State) : Runs s (exec (.fetchSlot c) s) := by
  show Runs s (execFetchSlot c s)
  unfold execFetchSlot
  dsimp only
  repeat' split
  all_goals simp

theorem controllerEnable_runs (fn : Nat) (cc : Dword) (s : State) : Runs s (exec (.controllerEnable fn cc) s) := by
  show Runs s (execControllerEnable fn cc s)
  unfold execControllerEnable
  split
  · exact runs_doneIo (ccWrite_ext fn _ _ (touch_ext fn s (.refl _)))
  · exact runs_same

theorem controllerReset_runs (fn : Nat) (s : State) : Runs s (exec (.controllerReset fn) s) := by
  show Runs s (execControllerReset fn s)
  unfold execControllerReset
  dsimp only
  split_ifs <;> simp

theorem functionLevelResetPf_runs (fn : Nat) (s : State) : Runs s (exec (.functionLevelResetPf fn) s) := by
  show Runs s (execFunctionLevelResetPf fn s)
  unfold execFunctionLevelResetPf
  split_ifs
  · exact runs_same
  · exact runs_next (holdWr_steady ..) rfl
  · exact runs_doneIo (by simp)

theorem shutdown_runs (fn shn : Nat) (s : State) : Runs s (exec (.shutdown fn shn) s) := by
  show Runs s (execShutdown fn shn s)
  unfold execShutdown
  dsimp only
  split_ifs <;> simp

theorem shutdownComplete_runs (fn : Nat) (s : State) : Runs s (exec (.shutdownComplete fn) s) := by
  show Runs s (execShutdownComplete fn s)
  unfold execShutdownComplete
  split_ifs <;> simp

theorem interruptCoalescingTimeExpiry_runs (fn vec : Nat) (s : State) : Runs s (exec (.interruptCoalescingTimeExpiry fn vec) s) := by
  show Runs s (execInterruptCoalescingTimeExpiry fn vec s)
  unfold execInterruptCoalescingTimeExpiry
  dsimp only
  split_ifs <;> simp

/-! ## Admin commands -/

theorem identify_runs (c : Cmd) (s : State) : Runs s (exec (.identify c) s) := by
  show Runs s (execIdentify c s)
  unfold execIdentify
  refine runs_admin fun k s => ?_
  repeat' split
  all_goals simp

theorem setFeaturesArbitration_runs (c : Cmd) (s : State) : Runs s (exec (.setFeaturesArbitration c) s) := by
  show Runs s (execSetFeaturesArbitration c s)
  unfold execSetFeaturesArbitration
  exact runs_setFeat fun k s => by simp

theorem setFeaturesVolatileWriteCache_runs (c : Cmd) (s : State) : Runs s (exec (.setFeaturesVolatileWriteCache c) s) := by
  show Runs s (execSetFeaturesVolatileWriteCache c s)
  unfold execSetFeaturesVolatileWriteCache
  refine runs_setFeat fun k s => ?_
  repeat' split
  all_goals simp

theorem setFeaturesNumberOfQueues_runs (c : Cmd) (s : State) : Runs s (exec (.setFeaturesNumberOfQueues c) s) := by
  show Runs s (execSetFeaturesNumberOfQueues c s)
  unfold execSetFeaturesNumberOfQueues
  refine runs_setFeat fun k s => ?_
  repeat' split
  all_goals simp

theorem setFeaturesInterruptCoalescing_runs (c : Cmd) (s : State) : Runs s (exec (.setFeaturesInterruptCoalescing c) s) := by
  show Runs s (execSetFeaturesInterruptCoalescing c s)
  unfold execSetFeaturesInterruptCoalescing
  exact runs_setFeat fun k s => by simp

theorem setFeaturesInterruptVectorConfig_runs (c : Cmd) (s : State) : Runs s (exec (.setFeaturesInterruptVectorConfig c) s) := by
  show Runs s (execSetFeaturesInterruptVectorConfig c s)
  unfold execSetFeaturesInterruptVectorConfig
  refine runs_setFeat fun k s => ?_
  repeat' split
  all_goals simp

theorem setFeaturesWriteAtomicity_runs (c : Cmd) (s : State) : Runs s (exec (.setFeaturesWriteAtomicity c) s) := by
  show Runs s (execSetFeaturesWriteAtomicity c s)
  unfold execSetFeaturesWriteAtomicity
  exact runs_setFeat fun k s => by simp

theorem setFeaturesAsyncEventConfig_runs (c : Cmd) (s : State) : Runs s (exec (.setFeaturesAsyncEventConfig c) s) := by
  show Runs s (execSetFeaturesAsyncEventConfig c s)
  unfold execSetFeaturesAsyncEventConfig
  exact runs_setFeat fun k s => by simp

theorem setFeaturesHostBehaviorSupport_runs (c : Cmd) (buf : List Byte) (s : State) : Runs s (exec (.setFeaturesHostBehaviorSupport c buf) s) := by
  show Runs s (execSetFeaturesHostBehaviorSupport c buf s)
  unfold execSetFeaturesHostBehaviorSupport
  exact runs_setFeat fun k s => by simp

theorem setFeaturesExtensionLevel_runs (c : Cmd) (s : State) : Runs s (exec (.setFeaturesExtensionLevel c) s) := by
  show Runs s (execSetFeaturesExtensionLevel c s)
  unfold execSetFeaturesExtensionLevel
  refine runs_setFeat fun k s => ?_
  repeat' split
  all_goals simp

theorem setFeaturesPowerManagement_runs (c : Cmd) (s : State) : Runs s (exec (.setFeaturesPowerManagement c) s) := by
  show Runs s (execSetFeaturesPowerManagement c s)
  unfold execSetFeaturesPowerManagement
  refine runs_setFeat fun k s => ?_
  repeat' split
  all_goals simp

theorem setFeaturesApst_runs (c : Cmd) (buf : List Byte) (s : State) : Runs s (exec (.setFeaturesApst c buf) s) := by
  show Runs s (execSetFeaturesApst c buf s)
  unfold execSetFeaturesApst
  refine runs_setFeat fun k s => ?_
  repeat' split
  all_goals simp

theorem setFeaturesNopsc_runs (c : Cmd) (s : State) : Runs s (exec (.setFeaturesNopsc c) s) := by
  show Runs s (execSetFeaturesNopsc c s)
  unfold execSetFeaturesNopsc
  exact runs_setFeat fun k s => by simp

theorem setFeaturesTemperatureThreshold_runs (c : Cmd) (s : State) : Runs s (exec (.setFeaturesTemperatureThreshold c) s) := by
  show Runs s (execSetFeaturesTemperatureThreshold c s)
  unfold execSetFeaturesTemperatureThreshold
  refine runs_setFeat fun k s => ?_
  repeat' split
  all_goals simp

theorem apstIdleExpiry_runs (fn : Nat) (s : State) : Runs s (exec (.apstIdleExpiry fn) s) := by
  show Runs s (execApstIdleExpiry fn s)
  unfold execApstIdleExpiry
  dsimp only
  split <;> simp

theorem asynchronousEventRequest_runs (c : Cmd) (s : State) : Runs s (exec (.asynchronousEventRequest c) s) := by
  show Runs s (execAsynchronousEventRequest c s)
  unfold execAsynchronousEventRequest
  refine runs_admin fun k s => ?_
  repeat' split
  all_goals simp

theorem firmwareImageDownload_runs (c : Cmd) (s : State) : Runs s (exec (.firmwareImageDownload c) s) := by
  show Runs s (execFirmwareImageDownload c s)
  unfold execFirmwareImageDownload
  refine runs_admin fun k s => ?_
  repeat' split
  all_goals simp

theorem fwCommitCheckDone_runs (ok : Bool) (rev : Nat) (s : State) : Runs s (exec (.fwCommitCheckDone ok rev) s) := by
  show Runs s (execFwCommitCheckDone ok rev s)
  unfold execFwCommitCheckDone
  dsimp only
  repeat' split
  all_goals simp

theorem fwActivationEnd_runs (ok : Bool) (s : State) : Runs s (exec (.fwActivationEnd ok) s) := by
  show Runs s (execFwActivationEnd ok s)
  unfold execFwActivationEnd
  split
  · exact runs_same
  · rename_i q slot at0 _
    split
    · exact runs_same
    · extract_lets _ rev _ _ s1 s2 s3 s4
      have h1 : steady s1 = steady s := by simp [s1]
      have h2 : steady s2 = steady s := by simp only [s2, setMode_steady]; split <;> simp [h1]
      have h3 : steady s3 = steady s := by simp [s3, h2]
      have h4 : Ext (steady s) (steady s4) :=
        ext_foldl _ (fun s f hs => ext_foldl _ (fun s h => heldNow_ext f h s) _ _ (by simp [hs])) _ _ (by rw [h3]; exact .refl _)
      refine runs_doneIo ?_
      split <;> simp [h4]

theorem hostMemoryError_runs (fn sqid cid : Nat) (s : State) : Runs s (exec (.hostMemoryError fn sqid cid) s) := by
  show Runs s (execHostMemoryError fn sqid cid s)
  unfold execHostMemoryError
  repeat' split
  all_goals simp

theorem invalidCommandOpcode_runs (c : Cmd) (s : State) : Runs s (exec (.invalidCommandOpcode c) s) := by
  show Runs s (execInvalidCommandOpcode c s)
  unfold execInvalidCommandOpcode
  refine runs_done (command_ext fun k s => ?_)
  split
  · exact gateAdmin_steady _ _ _ _ _ fun k s => fin_steady k 0 0x02 s
  · exact gateForm_steady _ _ _ _ fun _ _ => rfl

/-! ## The Gather engine -/

theorem gatherChannelGrant_runs (mem : HostMem) (s : State) : Runs s (exec (.gatherChannelGrant mem) s) := by
  show Runs s (execGatherChannelGrant mem s)
  unfold execGatherChannelGrant
  repeat' split
  all_goals simp

theorem gatherChannelWaitExpiry_runs (fn sqid cid : Nat) (s : State) : Runs s (exec (.gatherChannelWaitExpiry fn sqid cid) s) := by
  show Runs s (execGatherChannelWaitExpiry fn sqid cid s)
  unfold execGatherChannelWaitExpiry
  repeat' split
  all_goals simp

theorem gatherReadComplete_runs (ch : Nat) (badBeat : Option Nat) (s : State) : Runs s (exec (.gatherReadComplete ch badBeat) s) := by
  show Runs s (execGatherReadComplete ch badBeat s)
  unfold execGatherReadComplete
  repeat' split
  all_goals simp

theorem beatLaneAgeing_runs (ch : Nat) (s : State) : Runs s (exec (.beatLaneAgeing ch) s) := by
  show Runs s (execBeatLaneAgeing ch s)
  unfold execBeatLaneAgeing
  split_ifs <;> simp

theorem gdcTransferEnd_runs (ch moved : Nat) (mem : HostMem) (s : State) : Runs s (exec (.gdcTransferEnd ch moved mem) s) := by
  show Runs s (execGdcTransferEnd ch moved mem s)
  unfold execGdcTransferEnd
  dsimp only
  repeat' split
  all_goals simp

/-! ## Half-hitches -/

theorem halfHitchAcceptance_runs (fn sqid cid : Nat) (mapOk : Bool) (s : State) : Runs s (exec (.halfHitchAcceptance fn sqid cid mapOk) s) := by
  show Runs s (execHalfHitchAcceptance fn sqid cid mapOk s)
  unfold execHalfHitchAcceptance
  repeat' split
  all_goals simp

/-! ## Stalls -/

theorem vfEnableSet_runs (s : State) : Runs s (exec .vfEnableSet s) := by
  show Runs s (execVfEnableSet s)
  unfold execVfEnableSet
  split <;> simp

theorem vfEnableClear_runs (s : State) : Runs s (exec .vfEnableClear s) := by
  show Runs s (execVfEnableClear s)
  simp [execVfEnableClear]

theorem numvfsWrite_runs (n : Nat) (s : State) : Runs s (exec (.numvfsWrite n) s) := by
  show Runs s (execNumvfsWrite n s)
  unfold execNumvfsWrite
  split <;> simp

theorem virtMgmtSecondaryOnline_runs (c : Cmd) (s : State) : Runs s (exec (.virtMgmtSecondaryOnline c) s) := by
  show Runs s (execVirtMgmtSecondaryOnline c s)
  unfold execVirtMgmtSecondaryOnline
  exact runs_admin fun k s => vmOn_steady k s _ fun f => by split <;> simp

theorem virtMgmtSecondaryOffline_runs (c : Cmd) (s : State) : Runs s (exec (.virtMgmtSecondaryOffline c) s) := by
  show Runs s (execVirtMgmtSecondaryOffline c s)
  unfold execVirtMgmtSecondaryOffline
  exact runs_adminIo fun k s => vmOn_steady k s _ fun f => by split <;> simp

theorem vfFunctionLevelReset_runs (fn : Nat) (s : State) : Runs s (exec (.vfFunctionLevelReset fn) s) := by
  show Runs s (execVfFunctionLevelReset fn s)
  unfold execVfFunctionLevelReset
  split_ifs
  · exact runs_same
  · exact runs_next (updFn_steady ..) rfl
  · exact runs_doneIo (by simp)

theorem stallResourceSet_runs (c : Cmd) (buf : List Byte) (s : State) : Runs s (exec (.stallResourceSet c buf) s) := by
  show Runs s (execStallResourceSet c buf s)
  unfold execStallResourceSet
  exact runs_admin fun k s => stallSerial_steady _ k s _ (srOn_steady buf k s)

theorem stallFreeze_runs (c : Cmd) (s : State) : Runs s (exec (.stallFreeze c) s) := by
  show Runs s (execStallFreeze c s)
  unfold execStallFreeze
  exact runs_adminIo fun k s => stallSerial_steady _ k s _ (freezeOn_steady k s)

theorem stallThaw_runs (c : Cmd) (s : State) : Runs s (exec (.stallThaw c) s) := by
  show Runs s (execStallThaw c s)
  unfold execStallThaw
  exact runs_admin fun k s => stallSerial_steady _ k s _ (thawOn_steady k s)

theorem stallFreezeQuiet_runs (fn : Nat) (s : State) : Runs s (exec (.stallFreezeQuiet fn) s) := by
  show Runs s (execStallFreezeQuiet fn s)
  simp [execStallFreezeQuiet]

theorem stallFreezeTimeout_runs (fn : Nat) (s : State) : Runs s (exec (.stallFreezeTimeout fn) s) := by
  show Runs s (execStallFreezeTimeout fn s)
  unfold execStallFreezeTimeout
  repeat' split
  all_goals simp

theorem stallSave_runs (c : Cmd) (s : State) : Runs s (exec (.stallSave c) s) := by
  show Runs s (execStallSave c s)
  unfold execStallSave
  exact runs_admin fun k s => stallSerial_steady _ k s _ (saveOn_steady k s)

theorem stallRestore_runs (c : Cmd) (buf : List Byte) (s : State) : Runs s (exec (.stallRestore c buf) s) := by
  show Runs s (execStallRestore c buf s)
  unfold execStallRestore
  exact runs_admin fun k s => stallSerial_steady _ k s _ (restoreOn_steady buf k s)

/-! ## The cadence -/

theorem turnStart_runs (s : State) : Runs s (exec .turnStart s) := by
  show Runs s (execTurnStart s)
  simp [execTurnStart]

theorem epochBoundary_runs (s : State) : Runs s (exec .epochBoundary s) := by
  show Runs s (execEpochBoundary s)
  unfold execEpochBoundary
  split <;> simp

theorem turnHeader_runs (t : TurnIn) (s : State) : Runs s (exec (.turnHeader t) s) := by
  show Runs s (execTurnHeader t s)
  unfold execTurnHeader
  split_ifs <;> simp

theorem allQuietExpiry_runs (s : State) : Runs s (exec .allQuietExpiry s) := by
  show Runs s (execAllQuietExpiry s)
  unfold execAllQuietExpiry
  split <;> simp

theorem lockAcquired_runs (s : State) : Runs s (exec .lockAcquired s) := by
  show Runs s (execLockAcquired s)
  unfold execLockAcquired
  split <;> simp

theorem lockLost_runs (clock : Bool) (s : State) : Runs s (exec (.lockLost clock) s) := by
  show Runs s (execLockLost clock s)
  unfold execLockLost
  split_ifs <;> simp

theorem pollStatus_runs (slot : PollAt) (s : State) : Runs s (exec (.pollStatus slot) s) := by
  show Runs s (execPollStatus slot s)
  unfold execPollStatus
  split <;> simp

theorem pollIdent_runs (slot : PollAt) (s : State) : Runs s (exec (.pollIdent slot) s) := by
  show Runs s (execPollIdent slot s)
  unfold execPollIdent
  split <;> simp

theorem pollSchedCommit_runs (slot : PollAt) (arg : Nat) (s : State) : Runs s (exec (.pollSchedCommit slot arg) s) := by
  show Runs s (execPollSchedCommit slot arg s)
  unfold execPollSchedCommit
  split_ifs <;> simp

theorem pollSchedData_runs (slot : PollAt) (idx : Nat) (data : Dword) (s : State) : Runs s (exec (.pollSchedData slot idx data) s) := by
  show Runs s (execPollSchedData slot idx data s)
  unfold execPollSchedData
  split <;> simp

theorem pollUnknown_runs (slot : PollAt) (ask : PollAsk) (s : State) : Runs s (exec (.pollUnknown slot ask) s) := by
  show Runs s (execPollUnknown slot ask s)
  unfold execPollUnknown
  split <;> simp

theorem rootPollAnswer_runs (addr code : Nat) (ports : List Nat) (words : List (BitVec 40)) (s : State) :
    Runs s (exec (.rootPollAnswer addr code ports words) s) := by
  show Runs s (execRootPollAnswer addr code ports words s)
  unfold execRootPollAnswer
  dsimp only
  repeat' split
  all_goals simp

theorem participantAbsent_runs (addr : Nat) (s : State) : Runs s (exec (.participantAbsent addr) s) := by
  show Runs s (execParticipantAbsent addr s)
  unfold execParticipantAbsent
  split <;> simp

theorem portTrainingSweepEnd_runs (port : Nat) (steps : List Bool) (s : State) : Runs s (exec (.portTrainingSweepEnd port steps) s) := by
  show Runs s (execPortTrainingSweepEnd port steps s)
  unfold execPortTrainingSweepEnd
  dsimp only
  split_ifs <;> simp

theorem scheduleDeliveryTimeout_runs (s : State) : Runs s (exec .scheduleDeliveryTimeout s) := by
  show Runs s (execScheduleDeliveryTimeout s)
  unfold execScheduleDeliveryTimeout
  dsimp only
  split
  · exact runs_same
  · refine runs_done ?_
    rw [beginDelivs_steady, steady_foldl _ (fun s d => failDeliv_steady d 2 s)]
    exact .refl _

/-! ## The Studbook -/

theorem studbookRecordPlace_runs (s : State) : Runs s (exec .studbookRecordPlace s) := by
  show Runs s (execStudbookRecordPlace s)
  simp [execStudbookRecordPlace]

theorem studbookPersist_runs (s : State) : Runs s (exec .studbookPersist s) := by
  show Runs s (execStudbookPersist s)
  unfold execStudbookPersist
  split <;> simp

theorem studbookRead_runs (c : Cmd) (s : State) : Runs s (exec (.studbookRead c) s) := by
  show Runs s (execStudbookRead c s)
  unfold execStudbookRead
  refine runs_admin fun k s => ?_
  repeat' split
  all_goals simp

/-! ## The test port -/

theorem tapReset_runs (s : State) : Runs s (exec .tapReset s) := by
  show Runs s (execTapReset s)
  simp [execTapReset]

theorem samplePreload_runs (inp shift : List Bool) (s : State) : Runs s (exec (.samplePreload inp shift) s) := by
  show Runs s (execSamplePreload inp shift s)
  simp [execSamplePreload]

theorem idcode_runs (s : State) : Runs s (exec .idcode s) := by
  show Runs s (execIdcode s)
  simp [execIdcode]

theorem extest_runs (shift : List Bool) (s : State) : Runs s (exec (.extest shift) s) := by
  show Runs s (execExtest shift s)
  unfold execExtest
  exact runs_testOnly (by simp)

theorem clamp_runs (s : State) : Runs s (exec .clamp s) := by
  show Runs s (execClamp s)
  unfold execClamp
  exact runs_testOnly (selIr_steady ..)

theorem highz_runs (s : State) : Runs s (exec .highz s) := by
  show Runs s (execHighz s)
  unfold execHighz
  exact runs_testOnly (selIr_steady ..)

theorem extestPulse_runs (s : State) : Runs s (exec .extestPulse s) := by
  show Runs s (execExtestPulse s)
  unfold execExtestPulse
  exact runs_testOnly (selIr_steady ..)

theorem extestTrain_runs (s : State) : Runs s (exec .extestTrain s) := by
  show Runs s (execExtestTrain s)
  unfold execExtestTrain
  exact runs_testOnly (selIr_steady ..)

theorem bypass_runs (ir : Nat) (s : State) : Runs s (exec (.bypass ir) s) := by
  show Runs s (execBypass ir s)
  unfold execBypass
  split <;> simp

theorem testEnter_runs (key : Nat) (s : State) : Runs s (exec (.testEnter key) s) := by
  show Runs s (execTestEnter key s)
  unfold execTestEnter
  repeat' split
  all_goals simp

theorem testDrainEnd_runs (s : State) : Runs s (exec .testDrainEnd s) := by
  show Runs s (execTestDrainEnd s)
  unfold execTestDrainEnd
  split <;> simp

theorem tstat_runs (s : State) : Runs s (exec .tstat s) := by
  show Runs s (execTstat s)
  simp [execTstat]

theorem txsRead_runs (off : Nat) (s : State) : Runs s (exec (.txsRead off) s) := by
  show Runs s (execTxsRead off s)
  simp [execTxsRead]

theorem mbist_runs (v : Nat) (s : State) : Runs s (exec (.mbist v) s) := by
  show Runs s (execMbist v s)
  unfold execMbist
  refine runs_testOnly ?_
  dsimp only
  split_ifs <;> simp

theorem mbistRes_runs (s : State) : Runs s (exec .mbistRes s) := by
  show Runs s (execMbistRes s)
  unfold execMbistRes
  exact runs_testOnly (selIr_steady ..)

theorem mbistEnd_runs (res : BistRes) (s : State) : Runs s (exec (.mbistEnd res) s) := by
  show Runs s (execMbistEnd res s)
  unfold execMbistEnd
  split <;> simp

theorem fptest_runs (v : Nat) (s : State) : Runs s (exec (.fptest v) s) := by
  show Runs s (execFptest v s)
  unfold execFptest
  refine runs_testOnly ?_
  dsimp only
  split_ifs <;> simp

theorem fpRes_runs (s : State) : Runs s (exec .fpRes s) := by
  show Runs s (execFpRes s)
  unfold execFpRes
  exact runs_testOnly (selIr_steady ..)

theorem fptestEnd_runs (res : FpRes) (bad : List (Nat × Nat × Nat)) (s : State) : Runs s (exec (.fptestEnd res bad) s) := by
  show Runs s (execFptestEnd res bad s)
  unfold execFptestEnd
  extract_lets stop s1 failed skipped s1' _ _ s2
  have h1 : steady s1 = steady s := steady_foldl _ (fun s b => updBk_steady ..) _ _
  have h1' : steady s1' = steady s := (steady_foldl _ (fun s b => tackRefused_steady ..) _ _).trans h1
  have h2 : steady s2 = steady s := by simp only [s2]; split <;> simp [h1']
  split
  · exact runs_done (by simp [h2])
  · exact runs_same

theorem spiProg_runs (v : Nat) (s : State) : Runs s (exec (.spiProg v) s) := by
  show Runs s (execSpiProg v s)
  unfold execSpiProg
  refine runs_testOnly ?_
  dsimp only
  split_ifs <;> simp [raise]

theorem nvmeMiCommand_runs (fn : Option Nat) (s : State) : Runs s (exec (.nvmeMiCommand fn) s) := by
  show Runs s (execNvmeMiCommand fn s)
  unfold execNvmeMiCommand
  dsimp only
  repeat' split
  all_goals simp

theorem i3cDynamicAddressAssignment_runs (addr : Nat) (s : State) : Runs s (exec (.i3cDynamicAddressAssignment addr) s) := by
  show Runs s (execI3cDynamicAddressAssignment addr s)
  simp [execI3cDynamicAddressAssignment]

/-! ## Registers -/

theorem fchDiagGo_runs (fn ch : Nat) (v : Dword) (s : State) : Runs s (exec (.fchDiagGo fn ch v) s) := by
  show Runs s (execFchDiagGo fn ch v s)
  unfold execFchDiagGo
  exact runs_txsRow fun t => by split <;> simp

theorem eccFlipArm_runs (fn : Nat) (v : Dword) (s : State) : Runs s (exec (.eccFlipArm fn v) s) := by
  show Runs s (execEccFlipArm fn v s)
  unfold execEccFlipArm
  split
  · exact runs_txsRow (writeFlipCtl_steady _)
  · exact runs_same

theorem eccFlipDisarm_runs (fn : Nat) (v : Dword) (s : State) : Runs s (exec (.eccFlipDisarm fn v) s) := by
  show Runs s (execEccFlipDisarm fn v s)
  unfold execEccFlipDisarm
  split
  · exact runs_same
  · exact runs_txsRow (writeFlipCtl_steady _)

theorem keySlotWrite_runs (fn off : Nat) (bytes : List Byte) (s : State) : Runs s (exec (.keySlotWrite fn off bytes) s) := by
  show Runs s (execKeySlotWrite fn off bytes s)
  unfold execKeySlotWrite
  dsimp only
  split_ifs <;> simp

theorem cadRootCmdSend_runs (fn : Nat) (v : BitVec 64) (s : State) : Runs s (exec (.cadRootCmdSend fn v) s) := by
  show Runs s (execCadRootCmdSend fn v s)
  unfold execCadRootCmdSend
  exact runs_txsRow fun t => by split <;> simp

theorem cadRootEpochWrite_runs (fn : Nat) (v : BitVec 64) (s : State) : Runs s (exec (.cadRootEpochWrite fn v) s) := by
  show Runs s (execCadRootEpochWrite fn v s)
  unfold execCadRootEpochWrite
  exact runs_txsRow fun t => by split <;> simp

theorem pwrMeasRead_runs (fn : Nat) (s : State) : Runs s (exec (.pwrMeasRead fn) s) := by
  show Runs s (execPwrMeasRead fn s)
  unfold execPwrMeasRead
  split <;> simp

theorem stbSlotFirstDwordRead_runs (view slot : Nat) (s : State) : Runs s (exec (.stbSlotFirstDwordRead view slot) s) := by
  show Runs s (execStbSlotFirstDwordRead view slot s)
  unfold execStbSlotFirstDwordRead
  dsimp only
  split_ifs <;> simp

theorem registerWrite_runs (fn space off width : Nat) (v : BitVec 64) (s : State) : Runs s (exec (.registerWrite fn space off width v) s) := by
  show Runs s (execRegisterWrite fn space off width v s)
  have touched : Ext (steady s) (steady (touch fn s)) := touch_ext fn s (.refl _)
  unfold execRegisterWrite
  extract_lets w
  split
  · exact runs_same
  · split
    · split
      · exact runs_done touched
      · split
        · split
          · exact runs_done touched
          · split
            · exact cqHeadDoorbell_runs fn _ _ s
            · exact sqTailDoorbell_runs fn _ _ s
        · have h1 := bar0Write_ext fn off (w % 2 ^ 32) _ touched
          refine runs_doneIo ?_
          split
          · exact bar0Write_ext fn _ _ _ h1
          · exact h1
    · split
      · exact runs_doneIo (by rw [bar2Write_steady]; exact touched)
      · exact runs_same

/-! ## All commands -/

/-- The commands after which another image may be in force (R62, log 26). -/
def loadsImage (i : Instr) : Bool :=
  match i with
  | .powerOn | .powerLoss | .imageLoadEnd .. => true
  | _ => false

/-- Every command but those that load an image runs. -/
theorem exec_runs (i : Instr) (s : State) (hi : loadsImage i = false) : Runs s (exec i s) := by
  cases i with
  | sysRstNLow _ => exact sysRstNLow_runs _ s
  | deviceLevelPerst => exact deviceLevelPerst_runs s
  | deviceResetDrainEnd => exact deviceResetDrainEnd_runs s
  | portPerst _ => exact portPerst_runs _ s
  | dlDown _ => exact dlDown_runs _ s
  | strapSample _ _ _ => exact strapSample_runs _ _ _ s
  | flashDiscoveryEnd _ _ _ => exact flashDiscoveryEnd_runs _ _ _ s
  | flushRehearsalEnd _ _ => exact flushRehearsalEnd_runs _ _ s
  | tableLoadEnd _ _ => exact tableLoadEnd_runs _ _ s
  | proofLoadEnd => exact proofLoadEnd_runs s
  | recoveryEnd _ _ => exact recoveryEnd_runs _ _ s
  | startModeOverrun => exact startModeOverrun_runs s
  | ostlerWatchdogExpiry _ => exact ostlerWatchdogExpiry_runs _ s
  | spineLinkFault _ => exact spineLinkFault_runs _ s
  | refclk38m4Lost => exact refclk38m4Lost_runs s
  | vddRetLost => exact vddRetLost_runs s
  | pwrfailNFall => exact pwrfailNFall_runs s
  | cadPfAccepted _ => exact cadPfAccepted_runs _ s
  | emergencyFlushComplete _ _ => exact emergencyFlushComplete_runs _ _ s
  | flushRestartDelayExpiry => exact flushRestartDelayExpiry_runs s
  | thermalTrip _ _ => exact thermalTrip_runs _ _ s
  | thermalTripDrainEnd _ => exact thermalTripDrainEnd_runs _ s
  | huOkRise => exact huOkRise_runs s
  | huOkFall => exact huOkFall_runs s
  | chgTimeoutExpiry => exact chgTimeoutExpiry_runs s
  | proofNow _ => exact runs_txsRow (proofTrigger_steady _)
  | proofAgeExpiry => exact proofAgeExpiry_runs s
  | proofWindowOpen => exact proofWindowOpen_runs s
  | proofPulseStart _ => exact proofPulseStart_runs _ s
  | proofWindowTimeout => exact proofWindowTimeout_runs s
  | proofPulseEnd _ _ => exact proofPulseEnd_runs _ _ s
  | proofLoadEvaluation => exact proofLoadEvaluation_runs s
  | slackDecision _ _ => exact slackDecision_runs _ _ s
  | slackReport _ => exact runs_admin slackReportOn_steady
  | namespaceCreate _ buf => exact runs_adminIo (nsCreateOn_steady buf)
  | namespaceDelete _ => exact runs_admin nsDeleteOn_steady
  | namespaceAttachment _ buf => exact runs_admin (nsAttachOn_steady buf)
  | write _ blks => exact runs_io (writeOn_steady .write blks)
  | writeZeroes _ => exact writeZeroes_runs _ s
  | zoneAppend _ blks => exact runs_io (writeOn_steady .append blks)
  | read _ => exact runs_io readOn_steady
  | datasetManagement _ buf => exact runs_io (dsmOn_steady buf)
  | flush _ => exact flush_runs _ s
  | zoneOpen _ => exact runs_io zoneOpenOn_steady
  | zoneClose _ => exact runs_io zoneCloseOn_steady
  | zoneFinish _ => exact runs_io zoneFinishOn_steady
  | zoneReset _ => exact runs_io zoneResetOn_steady
  | scrubbingReset _ => exact runs_io scrubOn_steady
  | zoneOfflineAction _ => exact zoneOfflineAction_runs _ s
  | setZoneDescriptorExtension _ => exact setZoneDescriptorExtension_runs _ s
  | reportZones _ => exact reportZones_runs _ s
  | extendedReportZones _ => exact extendedReportZones_runs _ s
  | placementOpen _ => exact runs_io placementOpenOn_steady
  | zoneFinishedByController _ => exact zoneFinishedByController_runs _ s
  | scrubComplete _ => exact scrubComplete_runs _ s
  | scrubScheduleBreakExpiry _ => exact scrubScheduleBreakExpiry_runs _ s
  | sanitizeBlockErase _ => exact runs_admin (sanitizeOn_steady 1)
  | sanitizeCryptoErase _ => exact runs_admin (sanitizeOn_steady 2)
  | sanitizeExitFailureMode _ => exact sanitizeExitFailureMode_runs _ s
  | sanitizeOverwrite _ => exact sanitizeOverwrite_runs _ s
  | sanitizeEnd _ => exact sanitizeEnd_runs _ s
  | formatNvm _ => exact runs_admin formatOn_steady
  | conventionalGarbageCollection => exact conventionalGarbageCollection_runs s
  | setFeaturesYardLayout _ buf => exact runs_admin (setLayoutOn_steady buf)
  | fold _ => exact fold_runs _ s
  | paddockCompaction _ => exact paddockCompaction_runs _ s
  | relocation _ => exact relocation_runs _ s
  | wearLevelling _ => exact wearLevelling_runs _ s
  | landingSpaceReturns _ => exact landingSpaceReturns_runs _ s
  | yardStatusLog _ => exact runs_admin yardLogOn_steady
  | arrayOperationStart _ _ => exact arrayOperationStart_runs _ _ s
  | programEnd _ _ _ => exact programEnd_runs _ _ _ s
  | eraseEnd _ _ _ => exact eraseEnd_runs _ _ _ s
  | readEnd _ _ _ _ => exact readEnd_runs _ _ _ _ s
  | preProgramCheckEnd _ _ _ => exact preProgramCheckEnd_runs _ _ _ s
  | suspendArbiterDecision _ => exact suspendArbiterDecision_runs _ s
  | suspendRunMinReached _ _ => exact suspendRunMinReached_runs _ _ s
  | dieSuspended _ _ => exact dieSuspended_runs _ _ s
  | suspendHoldExpiry _ _ => exact suspendHoldExpiry_runs _ _ s
  | continuousReadWaitExpiry _ _ => exact continuousReadWaitExpiry_runs _ _ s
  | eyePass _ _ => exact eyePass_runs _ _ s
  | retrainEnd _ _ _ _ => exact retrainEnd_runs _ _ _ _ s
  | lunTimeout _ _ => exact lunTimeout_runs _ _ s
  | tackFirmwareRefresh _ _ => exact tackFirmwareRefresh_runs _ _ s
  | fchDiagGo _ _ _ => exact fchDiagGo_runs _ _ _ s
  | fchDiagDone _ _ _ _ => exact fchDiagDone_runs _ _ _ _ s
  | lowWearListRefillEnd _ _ => exact lowWearListRefillEnd_runs _ _ s
  | reconstructionEnd _ _ => exact reconstructionEnd_runs _ _ s
  | sramCorrectableError _ _ _ _ => exact sramCorrectableError_runs _ _ _ _ s
  | sramUncorrectableError _ _ _ _ _ _ => exact sramUncorrectableError_runs _ _ _ _ _ _ s
  | tableLineRebuildEnd _ _ _ _ => exact tableLineRebuildEnd_runs _ _ _ _ s
  | eccFlipArm _ _ => exact eccFlipArm_runs _ _ s
  | eccFlipDisarm _ _ => exact eccFlipDisarm_runs _ _ s
  | currycombPass _ => exact runs_adminIo currycombOn_steady
  | currycombAutoPassStart => exact currycombAutoPassStart_runs s
  | currycombPassEnd _ => exact currycombPassEnd_runs _ s
  | entropyHealthFail => exact entropyHealthFail_runs s
  | sqTailDoorbell _ _ _ => exact sqTailDoorbell_runs _ _ _ s
  | cqHeadDoorbell _ _ _ => exact cqHeadDoorbell_runs _ _ _ s
  | fetchSlot _ => exact fetchSlot_runs _ s
  | controllerEnable _ _ => exact controllerEnable_runs _ _ s
  | controllerReset _ => exact controllerReset_runs _ s
  | functionLevelResetPf _ => exact functionLevelResetPf_runs _ s
  | shutdown _ _ => exact shutdown_runs _ _ s
  | shutdownComplete _ => exact shutdownComplete_runs _ s
  | createIoSq _ => exact runs_admin createSqOn_steady
  | createIoCq _ => exact runs_admin createCqOn_steady
  | deleteIoSq _ => exact runs_adminIo deleteSqOn_steady
  | deleteIoCq _ => exact runs_admin deleteCqOn_steady
  | getLogPage _ => exact runs_admin logOn_steady
  | identify _ => exact identify_runs _ s
  | getFeatures _ => exact runs_admin getFeatOn_steady
  | setFeaturesArbitration _ => exact setFeaturesArbitration_runs _ s
  | setFeaturesVolatileWriteCache _ => exact setFeaturesVolatileWriteCache_runs _ s
  | setFeaturesNumberOfQueues _ => exact setFeaturesNumberOfQueues_runs _ s
  | setFeaturesInterruptCoalescing _ => exact setFeaturesInterruptCoalescing_runs _ s
  | setFeaturesInterruptVectorConfig _ => exact setFeaturesInterruptVectorConfig_runs _ s
  | setFeaturesWriteAtomicity _ => exact setFeaturesWriteAtomicity_runs _ s
  | setFeaturesAsyncEventConfig _ => exact setFeaturesAsyncEventConfig_runs _ s
  | setFeaturesHostBehaviorSupport _ _ => exact setFeaturesHostBehaviorSupport_runs _ _ s
  | setFeaturesExtensionLevel _ => exact setFeaturesExtensionLevel_runs _ s
  | setFeaturesPowerManagement _ => exact setFeaturesPowerManagement_runs _ s
  | setFeaturesApst _ _ => exact setFeaturesApst_runs _ _ s
  | setFeaturesNopsc _ => exact setFeaturesNopsc_runs _ s
  | setFeaturesTemperatureThreshold _ => exact setFeaturesTemperatureThreshold_runs _ s
  | apstIdleExpiry _ => exact apstIdleExpiry_runs _ s
  | asynchronousEventRequest _ => exact asynchronousEventRequest_runs _ s
  | abort _ => exact runs_adminIo abortOn_steady
  | firmwareImageDownload _ => exact firmwareImageDownload_runs _ s
  | fwCommitReplace _ => exact runs_admin commitOn_steady
  | fwCommitReplaceActivateNext _ => exact runs_admin commitOn_steady
  | fwCommitActivateNext _ => exact runs_admin commitOn_steady
  | fwCommitActivateNow _ => exact runs_admin commitOn_steady
  | fwCommitCheckDone _ _ => exact fwCommitCheckDone_runs _ _ s
  | fwActivationEnd _ => exact fwActivationEnd_runs _ s
  | interruptCoalescingTimeExpiry _ _ => exact interruptCoalescingTimeExpiry_runs _ _ s
  | hostMemoryError _ _ _ => exact hostMemoryError_runs _ _ _ s
  | gatherRead c => exact runs_io (gatherOn_steady c.sgl)
  | gatherChannelGrant _ => exact gatherChannelGrant_runs _ s
  | gatherChannelWaitExpiry _ _ _ => exact gatherChannelWaitExpiry_runs _ _ _ s
  | gatherReadComplete _ _ => exact gatherReadComplete_runs _ _ s
  | beatLaneAgeing _ => exact beatLaneAgeing_runs _ s
  | gdcStart _ _ _ _ => exact runs_gdcRow
  | gdcStop _ _ _ => exact runs_gdcRow
  | gdcResume _ _ _ _ => exact runs_gdcRow
  | gdcClear _ _ _ => exact runs_gdcRow
  | gdcTransferEnd _ _ _ => exact gdcTransferEnd_runs _ _ _ s
  | halfHitchAppend _ blks => exact runs_io (hhAppendOn_steady blks)
  | halfHitchAcceptance _ _ _ _ => exact halfHitchAcceptance_runs _ _ _ _ s
  | halfHitchRead _ => exact runs_io hhReadOn_steady
  | keySlotWrite _ _ _ => exact keySlotWrite_runs _ _ _ s
  | sealZone _ => exact runs_io sealOn_steady
  | cvuInit _ _ _ => exact runs_cvuRow fun u => cvuCtl_steady u _
  | cvuFeedWrite _ _ _ => exact runs_cvuRow fun u => cvuFeed_steady u _
  | cvuValWrite _ _ _ => exact runs_cvuRow fun u => cvuVal_steady u _
  | vfEnableSet => exact vfEnableSet_runs s
  | vfEnableClear => exact vfEnableClear_runs s
  | numvfsWrite _ => exact numvfsWrite_runs _ s
  | virtMgmtResourceAssign _ => exact runs_admin vmAssignOn_steady
  | virtMgmtSecondaryOnline _ => exact virtMgmtSecondaryOnline_runs _ s
  | virtMgmtSecondaryOffline _ => exact virtMgmtSecondaryOffline_runs _ s
  | vfFunctionLevelReset _ => exact vfFunctionLevelReset_runs _ s
  | stallResourceSet _ _ => exact stallResourceSet_runs _ _ s
  | stallFreeze _ => exact stallFreeze_runs _ s
  | stallThaw _ => exact stallThaw_runs _ s
  | stallFreezeQuiet _ => exact stallFreezeQuiet_runs _ s
  | stallFreezeTimeout _ => exact stallFreezeTimeout_runs _ s
  | stallSave _ => exact stallSave_runs _ s
  | stallRestore _ _ => exact stallRestore_runs _ _ s
  | turnStart => exact turnStart_runs s
  | epochBoundary => exact epochBoundary_runs s
  | turnHeader _ => exact turnHeader_runs _ s
  | allQuiet _ _ => exact runs_heardCmd
  | release _ => exact runs_heardCmd
  | resync _ _ => exact runs_heardCmd
  | allQuietExpiry => exact allQuietExpiry_runs s
  | lockAcquired => exact lockAcquired_runs s
  | lockLost _ => exact lockLost_runs _ s
  | pollStatus _ => exact pollStatus_runs _ s
  | pollIdent _ => exact pollIdent_runs _ s
  | pollSchedCommit _ _ => exact pollSchedCommit_runs _ _ s
  | pollSchedData _ _ _ => exact pollSchedData_runs _ _ _ s
  | pollUnknown _ _ => exact pollUnknown_runs _ _ s
  | rootPollAnswer _ _ _ _ => exact rootPollAnswer_runs _ _ _ _ s
  | participantAbsent _ => exact participantAbsent_runs _ s
  | portTrainingSweepEnd _ _ => exact portTrainingSweepEnd_runs _ _ s
  | cadenceScheduleLoad _ buf => exact runs_admin (schedLoadOn_steady buf)
  | scheduleDeliveryTimeout => exact scheduleDeliveryTimeout_runs s
  | cadPfSend _ => exact runs_txsRow pfSendNow_steady
  | tokenRelease _ => exact runs_txsRow tokenReleaseNow_steady
  | relock _ => exact runs_txsRow relockNow_steady
  | cadRootCmdSend _ _ => exact cadRootCmdSend_runs _ _ s
  | cadRootEpochWrite _ _ => exact cadRootEpochWrite_runs _ _ s
  | cadenceDomainStatusLog _ => exact runs_admin cadLogOn_steady
  | powerLoopWindow _ => exact powerLoopWindow_runs _ s
  | housekeepingRound _ => exact housekeepingRound_runs _ s
  | nonopEntryBegin => exact nonopEntryBegin_runs s
  | sleepHandshakeReply _ => exact sleepHandshakeReply_runs _ s
  | nonopExitEnd _ => exact nonopExitEnd_runs _ s
  | pwrMeasRead _ => exact pwrMeasRead_runs _ s
  | studbookRecordPlace => exact studbookRecordPlace_runs s
  | studbookPersist => exact studbookPersist_runs s
  | studbookRead _ => exact studbookRead_runs _ s
  | stbSlotFirstDwordRead _ _ => exact stbSlotFirstDwordRead_runs _ _ s
  | tapReset => exact tapReset_runs s
  | samplePreload _ _ => exact samplePreload_runs _ _ s
  | idcode => exact idcode_runs s
  | extest _ => exact extest_runs _ s
  | clamp => exact clamp_runs s
  | highz => exact highz_runs s
  | extestPulse => exact extestPulse_runs s
  | extestTrain => exact extestTrain_runs s
  | bypass _ => exact bypass_runs _ s
  | testEnter _ => exact testEnter_runs _ s
  | testDrainEnd => exact testDrainEnd_runs s
  | tstat => exact tstat_runs s
  | txsRead _ => exact txsRead_runs _ s
  | mbist _ => exact mbist_runs _ s
  | mbistRes => exact mbistRes_runs s
  | mbistEnd _ => exact mbistEnd_runs _ s
  | fptest _ => exact fptest_runs _ s
  | fpRes => exact fpRes_runs s
  | fptestEnd _ _ => exact fptestEnd_runs _ _ s
  | spiProg _ => exact spiProg_runs _ s
  | serviceLifeLog _ => exact runs_admin lifeLogOn_steady
  | nvmeMiCommand _ => exact nvmeMiCommand_runs _ s
  | i3cDynamicAddressAssignment _ => exact i3cDynamicAddressAssignment_runs _ s
  | registerWrite _ _ _ _ _ => exact registerWrite_runs _ _ _ _ _ s
  | regReadLowDword _ _ _ => exact runs_regRead
  | regReadHighDword _ _ _ => exact runs_regRead
  | pwrfailNRise => exact pwrfailNRise_runs s
  | sysRstNRise => exact sysRstNRise_runs s
  | perstDeassert _ => exact perstDeassert_runs _ s
  | journalCheckpoint => exact journalCheckpoint_runs s
  | oscillator32kStopped => exact oscillator32kStopped_runs s
  | invalidCommandOpcode _ => exact invalidCommandOpcode_runs _ s
  | _ => exact Bool.noConfusion hi

/-! ## Commands that bring the image -/

/-- An outcome is a next state of the same part and waiting commands that keeps the Studbook's bounds; the image may be another. -/
def Goes (s : State) (o : Out) : Prop :=
  ∃ t, o = .next t ∧ t.part = s.part ∧ t.pending = s.pending ∧ (stbBounds s → stbBounds t) ∧ (s.stb.raised = [] → t.stb.raised = [])

theorem Runs.goes {s : State} {o : Out} (h : Runs s o) : Goes s o := by
  obtain ⟨t, he, ⟨hpart, hpend, -, hb⟩, hr⟩ := h
  exact ⟨t, he, hpart, hpend, hb, hr⟩

/-- A command that puts another image in force and then changes nothing steady. -/
theorem goes_loaded (img : Img) {st : StartS} {s r u : State} (hr : Stays s r) (hu : Ext (steady { r with st := st, img := img }) (steady u)) :
    Goes s (done u) := by
  obtain ⟨t, he, ht, hraised⟩ := done_stays u
  obtain ⟨hpart, hpend, -, hb⟩ := hr
  obtain ⟨hpart', hpend', -, hb'⟩ := (Ext.iff.mp hu).trans ht
  exact ⟨t, he, hpart'.trans hpart, hpend'.trans hpend, fun h => hb' (hb h), fun _ => hraised⟩

theorem powerOn_goes (s : State) : Goes s (exec .powerOn s) := by
  obtain ⟨hpart, hpend, -, hr, hb⟩ := restart_kept false false s
  exact ⟨_, rfl, hpart, hpend, hb, fun _ => hr⟩

theorem powerLoss_goes (s : State) : Goes s (exec .powerLoss s) := by
  have torn : Stays s (tornPage (cutRecovery s)) := .of_steady (by unfold tornPage; dsimp only; split <;> simp)
  obtain ⟨hp, hn, -, hs⟩ := torn
  obtain ⟨hpart, hpend, -, hr, hb⟩ := restart_kept false false (tornPage (cutRecovery s))
  exact ⟨_, rfl, hpart.trans hp, hpend.trans hn, fun h => hb (hs h), fun _ => hr⟩

theorem imageLoadEnd_goes (sfdpOk : Bool) (slotA slotB : List Byte) (fwOk : Bool) (s : State) :
    Goes s (exec (.imageLoadEnd sfdpOk slotA slotB fwOk) s) := by
  show Goes s (execImageLoadEnd sfdpOk slotA slotB fwOk s)
  unfold execImageLoadEnd
  extract_lets no a b none_ useB c s1 s2 s3 s4 _ st s5 _ _ _ _ _ _ s6 s6' s7
  have h2 : steady s2 = steady s := by simp only [s2, s1]; split <;> simp
  have h3 : steady s3 = steady s := by simp only [s3]; split <;> simp [h2]
  have h4 : steady s4 = steady s := by simp only [s4]; split <;> simp [h3]
  have h6 : steady s6 = steady s5 := by simp [s6]
  have h6' : steady s6' = steady s5 := (steady_foldl _ (fun s c => updChn_steady ..) _ _).trans h6
  have h7 : steady s7 = steady { s4 with st := st, img := c.img } := by simp only [s7, setMode_steady, h6', s5, startFw_steady]
  split
  · exact runs_same.goes
  · exact goes_loaded c.img (.of_steady h4) (st := st) (by show Ext _ (steady s7); rw [h7]; exact .refl _)

/-- Every command answers a next state. -/
theorem exec_goes (i : Instr) (s : State) : Goes s (exec i s) := by
  cases hi : loadsImage i with
  | false => exact (exec_runs i s hi).goes
  | true =>
    cases i with
    | powerOn => exact powerOn_goes s
    | powerLoss => exact powerLoss_goes s
    | imageLoadEnd _ _ _ _ => exact imageLoadEnd_goes _ _ _ _ s
    | _ => exact Bool.noConfusion hi

/-! ## O3, O7 -/

/-- Settles O3: the outcome of every command is its next state. -/
theorem everyCommandRuns : Obligations.EveryCommandRuns := by
  unfold Obligations.EveryCommandRuns
  intro i s
  obtain ⟨t, ht, -⟩ := exec_goes i s
  exact ⟨t, ht⟩

/-- Settles O7: the part stands by every command's meaning, the image by those of all that do not load one. -/
theorem partAndImageStand : Obligations.PartAndImageStand := by
  unfold Obligations.PartAndImageStand
  intro i s t ht
  obtain ⟨u, hu, hpart, -⟩ := exec_goes i s
  cases hu.symm.trans ht
  refine ⟨hpart, fun himg => ?_⟩
  cases hi : loadsImage i with
  | false =>
    obtain ⟨v, hv, ⟨-, -, hsame, -⟩, -⟩ := exec_runs i s hi
    cases hv.symm.trans ht
    exact absurd hsame himg
  | true =>
    cases i with
    | powerOn => exact .inl rfl
    | powerLoss => exact .inr (.inl rfl)
    | imageLoadEnd a b c d => exact .inr (.inr ⟨a, b, c, d, rfl⟩)
    | _ => exact Bool.noConfusion hi

end Sys2Proof.Machine

/-! O1, O2. A step and the queue of commands. -/

namespace Sys2Proof.Machine
open Sys2Proof

theorem step_of_empty {s : State} (h : s.pending = []) : step s = .next (passMicrosecond s) := by
  unfold step
  split
  · simp_all
  · rfl

theorem step_of_front {c : Instr} {rest : List Instr} {s : State} (h : s.pending = c :: rest) :
    step s = exec c { s with pending := rest } := by
  unfold step
  split
  · rename_i hp
    obtain ⟨rfl, rfl⟩ := List.cons.inj (hp.symm.trans h)
    rfl
  · simp_all

/-- Settles O1: the front of the queue decides what a step is. -/
theorem stepRunsFrontCommand : Obligations.StepRunsFrontCommand := by
  unfold Obligations.StepRunsFrontCommand
  intro c rest s
  exact ⟨step_of_front (s := { s with pending := c :: rest }) rfl, step_of_empty⟩

/-- Settles O2: no command touches the commands that wait. -/
theorem stepConsumesFrontCommand : Obligations.StepConsumesFrontCommand := by
  unfold Obligations.StepConsumesFrontCommand
  intro s t ht
  cases hp : s.pending with
  | nil =>
    rw [step_of_empty hp] at ht
    cases ht
    exact hp
  | cons c rest =>
    rw [step_of_front hp] at ht
    obtain ⟨u, hu, -, hpend, -⟩ := exec_goes c { s with pending := rest }
    cases hu.symm.trans ht
    exact hpend

end Sys2Proof.Machine

/-! SUPPORT. What the operations on storage and on the host's side leave alone, in the order of the model (log 71): `outside L` of a state is that
of the state the operation found, whenever `L` names the components the operation may change. -/

namespace Sys2Proof.Machine
open Sys2Proof

/-- The components that the end of a command may change when it lets the writes and reads that wait proceed. -/
abbrev ioComps : List Comp := [.m, .slk, .zn, .pl, .fl, .ecc, .q, .stb, .jn, .ci, .ga, .cad, .free]

section
variable {L : List Comp}

theorem outside_ite {p : Prop} [Decidable p] {s a b : State} (ha : outside L a = outside L s) (hb : outside L b = outside L s) :
    outside L (if p then a else b) = outside L s := by
  split
  · exact ha
  · exact hb

/-- A fold of steps on a value and a state. -/
theorem outside_foldl_snd {α β : Type} (f : β × State → α → β × State) (h : ∀ a x, outside L (f a x).2 = outside L a.2) :
    ∀ (l : List α) (a : β × State), outside L (l.foldl f a).2 = outside L a.2
  | [], _ => rfl
  | x :: xs, a => (outside_foldl_snd f h xs (f a x)).trans (h a x)

/-! ## The host interface -/

@[simp] theorem cqPush_outside (h : [.q] ⊆ L) (f : Nat) (e : Cqe) (s : State) : outside L (cqPush f e s).1 = outside L s := by
  refine outside_mono h ?_
  unfold cqPush
  dsimp only
  repeat' split
  all_goals simp

@[simp] theorem parkHalted_outside (h : [.pins, .fl] ⊆ L) (s : State) : outside L (parkHalted s) = outside L s := by
  refine outside_mono h ?_
  unfold parkHalted
  split <;> simp

@[simp] theorem halt_outside (h : [.m, .pins, .pw, .fl, .q, .stb, .ci, .ts] ⊆ L) (s : State) : outside L (halt s) = outside L s := by
  refine outside_mono h ?_
  unfold halt
  split <;> simp

/-! ## Blocks, pens and operations -/

@[simp] theorem updChn_outside (h : [.fl] ⊆ L) (c : Nat) (g : Chn → Chn) (s : State) : outside L (updChn c g s) = outside L s :=
  outside_mono h (by simp [updChn])

@[simp] theorem refillLists_outside (h : [.fl] ⊆ L) (d : Nat) (s : State) : outside L (refillLists d s) = outside L s :=
  outside_mono h (by simp [refillLists])

theorem formQlc_outside (h : [.fl, .pl] ⊆ L) {k : PenKind} {y lcl : Nat} {s : State} {r : Nat × State} (hr : formQlc k y lcl s = some r) :
    outside L r.2 = outside L s := by
  obtain ⟨p, _, rfl⟩ := Option.map_eq_some_iff.mp hr
  exact formOn_outside h ..

theorem formPadShed_outside (h : [.fl, .pl] ⊆ L) {k : PenKind} {sh : Nat} {s : State} {r : Nat × State} (hr : formPadShed k sh s = some r) :
    outside L r.2 = outside L s := by
  obtain ⟨p, _, rfl⟩ := Option.map_eq_some_iff.mp hr
  exact formOn_outside h ..

theorem takeUnits_outside (h : [.fl, .pl] ⊆ L) (y lcl : Nat) : ∀ (fuel n : Nat) (s : State) (r : List (Nat × Nat × Nat) × State),
    takeUnits y lcl fuel n s = some r → outside L r.2 = outside L s
  | _, 0, s, r, hr => by unfold takeUnits at hr; cases hr; rfl
  | 0, _ + 1, _, _, hr => by unfold takeUnits at hr; cases hr
  | fuel + 1, n + 1, s, r, hr => by
    have hp : [.pl] ⊆ L := List.Subset.trans (by decide) h
    unfold takeUnits at hr
    dsimp only at hr
    split at hr
    · split at hr
      · exact (takeUnits_outside h y lcl fuel _ _ _ hr).trans (outside_mono hp (by simp))
      · obtain ⟨q, hq, rfl⟩ := Option.map_eq_some_iff.mp hr
        exact (takeUnits_outside h y lcl fuel _ _ _ hq).trans (updPen_outside hp ..)
    · split at hr
      · cases hr
      · rename_i hf
        exact (takeUnits_outside h y lcl fuel _ _ _ hr).trans ((outside_mono hp (by simp)).trans (formQlc_outside h hf))

theorem reserve_outside (h : [.fl, .pl] ⊆ L) {y lcl n : Nat} {s : State} {r : List (Nat × Nat × Nat) × State} (hr : reserve y lcl n s = some r) :
    outside L r.2 = outside L s := by
  unfold reserve at hr
  split at hr
  · cases hr
  · exact takeUnits_outside h _ _ _ _ _ _ hr

@[simp] theorem queueRead_outside (h : [.fl] ⊆ L) (d b cls wl page : Nat) (onebit : Bool) (w : Work) (s : State) :
    outside L (queueRead d b cls wl page onebit w s) = outside L s := outside_mono h (by simp [queueRead])

@[simp] theorem dropOp_outside (h : [.fl] ⊆ L) (id : Nat) (s : State) : outside L (dropOp id s) = outside L s := outside_mono h (by simp [dropOp])

@[simp] theorem updOp_outside (h : [.fl] ⊆ L) (id : Nat) (g : AOp → AOp) (s : State) : outside L (updOp id g s) = outside L s :=
  outside_mono h (by simp [updOp])

@[simp] theorem resumeIdle_outside (h : [.fl] ⊆ L) (s : State) : outside L (resumeIdle s) = outside L s := by
  refine outside_mono h ?_
  unfold resumeIdle
  dsimp only
  split <;> simp

@[simp] theorem releaseOld_outside (h : [.pl, .fl] ⊆ L) (o : Nat × Nat × Nat) (s : State) : outside L (releaseOld o s) = outside L s := by
  refine outside_mono h ?_
  unfold releaseOld
  split <;> simp

@[simp] theorem retirePen_outside (h : [.zn, .pl, .fl] ⊆ L) (id : Nat) (s : State) : outside L (retirePen id s) = outside L s := by
  refine outside_mono h ?_
  unfold retirePen
  dsimp only
  repeat' split
  all_goals simp [outside_foldl, apply_ite (outside _)]

@[simp] theorem recyclePen_outside (h : [.pl, .fl] ⊆ L) (id : Nat) (s : State) : outside L (recyclePen id s) = outside L s := by
  refine outside_mono h ?_
  unfold recyclePen
  dsimp only
  repeat' split
  all_goals simp [outside_foldl, apply_ite (outside _)]

@[simp] theorem checkSpares_outside (h : [.m, .q, .stb, .jn, .ci] ⊆ L) (s : State) : outside L (checkSpares s) = outside L s := by
  refine outside_mono h ?_
  unfold checkSpares
  repeat' split
  all_goals simp

@[simp] theorem reevalSpares_outside (h : [.m, .q, .stb, .jn, .ci] ⊆ L) (s : State) : outside L (reevalSpares s) = outside L s := by
  refine outside_mono h ?_
  unfold reevalSpares
  repeat' split
  all_goals simp

/-! ## Data and placing -/

@[simp] theorem putPiece_outside (h : [.zn] ⊆ L) (o pos : Nat) (p : Piece) (s : State) : outside L (putPiece o pos p s) = outside L s :=
  outside_mono h (by simp [putPiece])

@[simp] theorem dropPieces_outside (h : [.zn] ⊆ L) (o : Nat) (s : State) : outside L (dropPieces o s) = outside L s :=
  outside_mono h (by simp [dropPieces])

@[simp] theorem mapPieces_outside (h : [.zn] ⊆ L) (o : Nat) (g : Nat → Piece → Piece) (s : State) : outside L (mapPieces o g s) = outside L s :=
  outside_mono h (by simp [mapPieces])

@[simp] theorem sramBroken_outside (h : [.ecc, .stb] ⊆ L) (die region word syn : Nat) (s : State) :
    outside L (sramBroken die region word syn s) = outside L s := outside_mono h (by simp [sramBroken])

@[simp] theorem sramRebuild_outside (h : [.ecc] ⊆ L) (die region word : Nat) (s : State) :
    outside L (sramRebuild die region word s) = outside L s := by
  refine outside_mono h ?_
  unfold sramRebuild
  split <;> simp

@[simp] theorem mapRead_outside (h : [.ecc, .stb, .free] ⊆ L) (u : Nat) (s : State) : outside L (mapRead u s) = outside L s := by
  refine outside_mono h ?_
  unfold mapRead
  dsimp only
  split_ifs <;> simp

@[simp] theorem mapWrite_outside (h : [.ecc, .stb, .free] ⊆ L) (u : Nat) (s : State) : outside L (mapWrite u s) = outside L s := by
  refine outside_mono h ?_
  unfold mapWrite
  dsimp only
  split <;> simp

@[simp] theorem putMap_outside (h : [.zn, .ecc, .stb, .free] ⊆ L) (u : Nat) (e : CMap) (s : State) : outside L (putMap u e s) = outside L s :=
  outside_mono h (by simp [putMap])

@[simp] theorem delMap_outside (h : [.zn, .ecc, .stb, .free] ⊆ L) (u : Nat) (s : State) : outside L (delMap u s) = outside L s :=
  outside_mono h (by simp [delMap])

@[simp] theorem keepOld_outside (h : [.zn] ⊆ L) (u : Nat) (s : State) : outside L (keepOld u s) = outside L s := by
  refine outside_mono h ?_
  unfold keepOld
  split <;> simp

@[simp] theorem dropOld_outside (h : [.zn] ⊆ L) (s : State) : outside L (dropOld s) = outside L s := outside_mono h (by simp [dropOld])

@[simp] theorem restoreOld_outside (h : [.zn, .ecc, .stb, .free] ⊆ L) (u : Nat) (s : State) : outside L (restoreOld u s) = outside L s := by
  refine outside_mono h ?_
  unfold restoreOld
  repeat' split
  all_goals simp

@[simp] theorem convCommit_outside (h : [.zn, .ecc, .stb, .free] ⊆ L) (o pos pen slot : Nat) (s : State) :
    outside L (convCommit o pos pen slot s) = outside L s := by
  refine outside_mono h ?_
  unfold convCommit
  dsimp only
  repeat' split
  all_goals simp

@[simp] theorem lseqNext_outside (h : [.zn] ⊆ L) (p : Nat) (s : State) : outside L (lseqNext p s) = outside L s := outside_mono h (by simp [lseqNext])

@[simp] theorem pieceDurable_outside (h : [.slk, .zn, .ecc, .q, .stb, .ci, .free] ⊆ L) (id pos pen slot : Nat) (s : State) :
    outside L (pieceDurable id pos pen slot s) = outside L s := by
  refine outside_mono h ?_
  unfold pieceDurable
  dsimp only
  repeat' split
  all_goals simp

@[simp] theorem dropParity_outside (h : [.fl] ⊆ L) (pid stripe : Nat) (s : State) : outside L (dropParity pid stripe s) = outside L s :=
  outside_mono h (by simp [dropParity])

@[simp] theorem dropUnits_outside (h : [.fl] ⊆ L) (pick : AOp → Bool) (s : State) : outside L (dropUnits pick s) = outside L s := by
  refine outside_mono h ((outside_foldl _ (fun s o => ?_) _ _).trans (by simp))
  repeat' split
  all_goals simp

@[simp] theorem divertDirect_outside (h : [.pl, .fl, .stb] ⊆ L) (s : State) : outside L (divertDirect s) = outside L s := by
  refine outside_mono h ?_
  unfold divertDirect
  dsimp only
  simp [outside_foldl]

@[simp] theorem placeWaiting_outside (h : [.pl, .fl, .stb] ⊆ L) (y : Nat) (s : State) : outside L (placeWaiting y s) = outside L s :=
  outside_mono h (by simp [placeWaiting])

@[simp] theorem retireDead_outside (h : [.zn, .pl, .fl] ⊆ L) (y : Nat) (s : State) : outside L (retireDead y s) = outside L s :=
  outside_mono h (outside_foldl _ (fun s p => by simp) _ _)

@[simp] theorem freshConv_outside (h : [.pl, .fl] ⊆ L) (src : Nat) (s : State) : outside L (freshConv src s) = outside L s := by
  refine outside_mono h ?_
  unfold freshConv
  split
  · rfl
  · rename_i hp
    exact (outside_mono (L := [.pl]) (by simp) (by simp)).trans (formPad_outside (by simp) hp)

@[simp] theorem moveRow_outside (h : [.zn, .pl, .fl] ⊆ L) (r y : Nat) (s : State) : outside L (moveRow r y s) = outside L s := by
  refine outside_mono h ?_
  unfold moveRow
  dsimp only
  simp [outside_foldl, apply_ite (outside _)]

@[simp] theorem settleRows_outside (h : [.zn, .pl, .fl, .stb] ⊆ L) (s : State) : outside L (settleRows s) = outside L s :=
  outside_mono h (outside_foldl _ (fun s p => by split <;> simp) _ _)

@[simp] theorem loseUnits_outside (h : [.zn] ⊆ L) (pid : Nat) (s : State) : outside L (loseUnits pid s) = outside L s := by
  refine outside_mono h ?_
  unfold loseUnits
  repeat' split
  all_goals simp

@[simp] theorem cutZone_outside (h : [.zn] ⊆ L) (z wp : Nat) (s : State) : outside L (cutZone z wp s) = outside L s := by
  refine outside_mono h ?_
  unfold cutZone
  repeat' split
  all_goals simp

@[simp] theorem cutWrite_outside (h : [.zn] ⊆ L) (w : Wr) (s : State) : outside L (cutWrite w s) = outside L s := by
  refine outside_mono h ?_
  unfold cutWrite
  split
  · rfl
  · split
    · exact outside_foldl _ (fun s p => by simp) _ _
    · split <;> simp

@[simp] theorem cutAll_outside (h : [.zn] ⊆ L) (s : State) : outside L (cutAll s) = outside L s := by
  refine outside_mono h ?_
  unfold cutAll
  dsimp only
  simp [outside_foldl]

/-! ## The cadence -/

@[simp] theorem reportBreak_outside (h : [.pl, .stb, .cad] ⊆ L) (cause : Nat) (y : Option Nat) (s : State) :
    outside L (reportBreak cause y s) = outside L s := by
  refine outside_mono h ?_
  unfold reportBreak
  repeat' split
  all_goals simp

@[simp] theorem endBreak_outside (h : [.stb, .cad] ⊆ L) (cause : Nat) (y : Option Nat) (s : State) :
    outside L (endBreak cause y s) = outside L s := by
  refine outside_mono h ?_
  unfold endBreak
  split <;> simp

@[simp] theorem padWatch_outside (h : [.pl, .stb, .cad] ⊆ L) (y : Nat) (s : State) : outside L (padWatch y s) = outside L s := by
  refine outside_mono h ?_
  unfold padWatch
  dsimp only
  split_ifs <;> simp

/-- A fold that forms the flush reserves of the Shed dies. -/
theorem formReserve_outside (h : [.pl, .fl] ⊆ L) (sh : Nat) (s : State) :
    outside L (match formPadShed .flushRes sh s with
      | some (id, t) => { t with pl := { t.pl with flushRes := Tbl.put t.pl.flushRes sh id } }
      | none => s) = outside L s := by
  refine outside_mono h ?_
  split
  · rename_i hp
    exact (outside_mono (L := [.pl]) (by simp) (by simp)).trans (formPadShed_outside (by simp) hp)
  · rfl

@[simp] theorem keepReserve_outside (h : [.slk, .pl, .fl] ⊆ L) (s : State) : outside L (keepReserve s) = outside L s := by
  refine outside_mono h ?_
  unfold keepReserve
  extract_lets s1
  have h1 : outside [.slk, .pl, .fl] s1 = outside [.slk, .pl, .fl] s := by
    refine outside_foldl _ (fun s sh => ?_) _ _
    split
    · rfl
    · exact formReserve_outside (by simp) sh s
  simp [h1]

@[simp] theorem slackWatch_outside (h : [.slk, .pl, .stb, .cad] ⊆ L) (s : State) : outside L (slackWatch s) = outside L s := by
  refine outside_mono h ?_
  unfold slackWatch
  dsimp only
  split_ifs <;> simp

@[simp] theorem convWatch_outside (h : [.pl, .stb, .cad] ⊆ L) (s : State) : outside L (convWatch s) = outside L s := by
  refine outside_mono h ?_
  unfold convWatch
  split <;> simp

@[simp] theorem landWatch_outside (h : [.m, .slk, .zn, .pl, .fl, .q, .stb, .jn, .ci, .cad] ⊆ L) (s : State) :
    outside L (landWatch s) = outside L s := by
  refine outside_mono h ?_
  unfold landWatch
  dsimp only
  simp [outside_foldl, apply_ite (outside _)]

@[simp] theorem closePass_outside (h : [.ecc, .q, .stb, .ci] ⊆ L) (p : Pass) (x : Summary) (s : State) :
    outside L (closePass p x s) = outside L s := by
  refine outside_mono h ?_
  unfold closePass
  dsimp only
  repeat' split
  all_goals simp

@[simp] theorem endPasses_outside (h : [.fl, .ecc, .q, .stb, .ci] ⊆ L) (s : State) : outside L (endPasses s) = outside L s := by
  refine outside_mono h ?_
  unfold endPasses
  dsimp only
  simp [outside_foldl]

/-! ## The Slack -/

@[simp] theorem proofInterrupt_outside (h : [.m, .pins, .slk, .q, .stb, .ci] ⊆ L) (pf : Bool) (s : State) :
    outside L (proofInterrupt pf s) = outside L s := by
  refine outside_mono h ?_
  unfold proofInterrupt
  split_ifs <;> simp

@[simp] theorem stageRest_outside (h : [.zn] ⊆ L) (id : Nat) (mk : Nat → Nat → Blk → Nat × Piece) (rest : List Blk) (s : State) :
    outside L (stageRest id mk rest s) = outside L s := outside_mono h (by simp [stageRest])

/-! ## Keys and seals -/

@[simp] theorem genKeys_outside (h : [.stb, .ci, .free] ⊆ L) (n cause : Nat) (s : State) : outside L (genKeys n cause s) = outside L s :=
  outside_mono h (by simp [genKeys])

@[simp] theorem dropKeys_outside (h : [.ci] ⊆ L) (n : Nat) (s : State) : outside L (dropKeys n s) = outside L s := outside_mono h (by simp [dropKeys])

@[simp] theorem cryptoErase_outside (h : [.stb, .ci, .free] ⊆ L) (s : State) : outside L (cryptoErase s) = outside L s := by
  refine outside_mono h ?_
  unfold cryptoErase
  dsimp only
  simp [outside_foldl]

@[simp] theorem refuseSeal_outside (h : [.q, .stb, .ci] ⊆ L) (k : Ctx) (z : Nat) (s : State) : outside L (refuseSeal k z s) = outside L s :=
  outside_mono h (by simp [refuseSeal])

@[simp] theorem bindSeal_outside (h : [.ci] ⊆ L) (k : Ctx) (z slot : Nat) (s : State) : outside L (bindSeal k z slot s).2 = outside L s := by
  refine outside_mono h ?_
  unfold bindSeal
  repeat' split
  all_goals simp

@[simp] theorem unbind_outside (h : [.ci] ⊆ L) (z : Nat) (s : State) : outside L (unbind z s) = outside L s := outside_mono h (by simp [unbind])

@[simp] theorem sealAfter_outside (h : [.zn] ⊆ L) (z : Nat) (s : State) : outside L (sealAfter z s) = outside L s := by
  refine outside_mono h ?_
  unfold sealAfter
  split
  · rfl
  · split
    · rfl
    · refine outside_foldl _ (fun s u => ?_) _ _
      repeat' split
      all_goals simp

@[simp] theorem piRecord_outside (h : [.stb] ⊆ L) (f lba kind : Nat) (s : State) : outside L (piRecord f lba kind s) = outside L s :=
  outside_mono h (by simp [piRecord])

/-! ## Reads -/

@[simp] theorem updRd_outside (h : [.q, .ga] ⊆ L) (id : Nat) (g : Rd → Rd) (s : State) : outside L (updRd id g s) = outside L s := by
  refine outside_mono h ?_
  unfold updRd
  repeat' split
  all_goals simp

@[simp] theorem queueMember_outside (h : [.fl] ⊆ L) (rid : Nat) (t : Target) (m : Nat) (s : State) :
    outside L (queueMember rid t m s) = outside L s := outside_mono h (by simp [queueMember])

@[simp] theorem queueRecon_outside (h : [.fl] ⊆ L) (id o q path : Nat) (t : Target) (s : State) :
    outside L (queueRecon id o q path t s) = outside L s := by
  refine outside_mono h ?_
  unfold queueRecon
  dsimp only
  simp [outside_foldl]

@[simp] theorem unrecovered_outside (h : [.zn, .stb] ⊆ L) (pen die o q : Nat) (s : State) : outside L (unrecovered pen die o q s) = outside L s :=
  outside_mono h (by simp [unrecovered])

@[simp] theorem readTarget_outside (h : [.fl] ⊆ L) (id o q : Nat) (t : Target) (s : State) : outside L (readTarget id o q t s).2 = outside L s := by
  refine outside_mono h ?_
  unfold readTarget
  dsimp only
  split_ifs <;> simp

@[simp] theorem startRead_outside (h : [.zn, .fl, .stb] ⊆ L) (id o q : Nat) (p : Piece) (s : State) :
    outside L (startRead id o q p s).2 = outside L s := by
  refine outside_mono h ?_
  unfold startRead
  dsimp only
  repeat' split
  all_goals simp

@[simp] theorem fillPart_outside (h : [.zn, .fl, .stb] ⊆ L) (id : Nat) (fua : Bool) (md : Nat) (p : RPart) (s : State) :
    outside L (fillPart id fua md p s).2 = outside L s := by
  refine outside_mono h ?_
  unfold fillPart
  dsimp only
  split_ifs
  · rfl
  · rfl
  · rfl
  · rfl
  · rfl
  · rfl
  · rfl
  · exact outside_foldl_snd _ (fun a m => by split <;> simp) _ _

@[simp] theorem fillRd_outside (h : [.zn, .fl, .stb] ⊆ L) (id md : Nat) (rd : Rd) (s : State) : outside L (fillRd id md rd s).2 = outside L s :=
  outside_mono h (outside_foldl_snd _ (fun a p => by simp) _ _)

@[simp] theorem sealFailures_outside (h : [.stb, .ci] ⊆ L) (f : Nat) (cs : List ((Nat × Nat) × Nat)) (s : State) :
    outside L (sealFailures f cs s) = outside L s := by
  refine outside_mono h ?_
  unfold sealFailures
  dsimp only
  simp [outside_foldl]

@[simp] theorem guardLost_outside (h : [.zn, .stb] ⊆ L) (p : RPart) (s : State) : outside L (guardLost p s) = outside L s := by
  refine outside_mono h ?_
  unfold guardLost
  split <;> simp

@[simp] theorem piNote_outside (h : [.zn, .stb] ⊆ L) (f lba : Nat) (r : Nat × Option Nat) (p : RPart) (s : State) :
    outside L (piNote f lba r p s) = outside L s := by
  refine outside_mono h ?_
  unfold piNote
  repeat' split
  all_goals simp

@[simp] theorem finishRead_outside (h : [.zn, .q, .stb, .ci, .free] ⊆ L) (k : Ctx) (s : State) : outside L (finishRead k s) = outside L s := by
  refine outside_mono h ?_
  unfold finishRead
  dsimp only
  repeat' split
  all_goals simp [outside_foldl]

@[simp] theorem finishHhRead_outside (h : [.q, .stb, .ci, .free] ⊆ L) (k : Ctx) (s : State) : outside L (finishHhRead k s) = outside L s := by
  refine outside_mono h ?_
  unfold finishHhRead
  extract_lets _ _ _ _ _ _ _ _ _ _ _ _ _ s1 s2
  have h1 : outside [.q, .stb, .ci, .free] s1 = outside [.q, .stb, .ci, .free] s := outside_foldl _ (fun s e => by split <;> simp) _ _
  simp [s2, h1]

@[simp] theorem finishSeal_outside (h : [.q, .stb, .ci, .free] ⊆ L) (z : Nat) (k : Ctx) (s : State) : outside L (finishSeal z k s) = outside L s := by
  refine outside_mono h ?_
  unfold finishSeal
  split_ifs <;> simp

@[simp] theorem updPass_outside (h : [.ecc] ⊆ L) (g : Pass → Pass) (s : State) : outside L (updPass g s) = outside L s :=
  outside_mono h (by simp [updPass])

@[simp] theorem combCount_outside (h : [.ecc] ⊆ L) (g : Summary → Summary) (s : State) : outside L (combCount g s) = outside L s :=
  outside_mono h (by simp [combCount])

@[simp] theorem combPump_outside (h : [.fl, .ecc] ⊆ L) (s : State) : outside L (combPump s) = outside L s := by
  refine outside_mono h ?_
  unfold combPump
  dsimp only
  repeat' split
  all_goals simp

@[simp] theorem readMap_outside (h : [.ecc, .stb, .free] ⊆ L) (k : Ctx) (s : State) : outside L (readMap k s) = outside L s := by
  refine outside_mono h ?_
  unfold readMap
  split
  · split
    · exact outside_foldl _ (fun s u => by simp) _ _
    · rfl
  · rfl

@[simp] theorem pumpCtx_outside (h : [.zn, .fl, .ecc, .q, .stb, .ci, .free] ⊆ L) (q : Nat) (s : State) : outside L (pumpCtx q s) = outside L s := by
  refine outside_mono h ?_
  unfold pumpCtx
  split
  · rfl
  · extract_lets md go
    have hgo : ∀ b st fin_ w s, (∀ k s, outside [.zn, .fl, .ecc, .q, .stb, .ci, .free] (fin_ k s) = outside [.zn, .fl, .ecc, .q, .stb, .ci, .free] s) →
        outside [.zn, .fl, .ecc, .q, .stb, .ci, .free] (go b st fin_ w s) = outside [.zn, .fl, .ecc, .q, .stb, .ci, .free] s := by
      intro b st fin_ w s hfin
      simp only [go]
      generalize (if st = true then _ else b) = o
      cases o with
      | none => rfl
      | some rd => dsimp only; split <;> simp [hfin]
    clear_value go
    split
    · rw [hgo _ _ _ _ _ (fun k s => by simp)]
      split <;> simp
    · exact hgo _ _ _ _ _ (fun k s => by simp)
    · exact (putCtx_outside (by simp) ..).trans (fillRd_outside (by simp) ..)
    · simp
    · rfl

@[simp] theorem pumpReads_outside (h : [.zn, .fl, .ecc, .q, .stb, .ci, .ga, .free] ⊆ L) (s : State) : outside L (pumpReads s) = outside L s := by
  refine outside_mono h ?_
  unfold pumpReads
  extract_lets t s1
  have h1 : outside [.zn, .fl, .ecc, .q, .stb, .ci, .ga, .free] s1 = outside [.zn, .fl, .ecc, .q, .stb, .ci, .ga, .free] s := by
    simp only [s1]
    split
    · simp [t]
    · exact (outside_foldl _ (fun s q => by simp) _ _).trans (by simp [t])
  exact (outside_foldl _ (fun s c => by simp) _ _).trans h1

@[simp] theorem afterIo_outside (h : ioComps ⊆ L) (u : State) :
    outside L (afterIo u) = outside L u := outside_mono h (by simp [afterIo])

/-! ## The gates -/

theorem gateIo_outside (h : [.q, .stb, .ci] ⊆ L) (k : Ctx) (s : State) (f : Ctx → State → State)
    (hf : ∀ k s, outside L (f k s) = outside L s) : outside L (gateIo k s f) = outside L s :=
  gateForm_outside h _ _ _ _ fun k s => by split_ifs <;> simp [hf, fin_outside h]

@[simp] theorem denyPerm_outside (h : [.q, .stb, .ci] ⊆ L) (k : Ctx) (s : State) : outside L (denyPerm k s) = outside L s :=
  outside_mono h (by simp [denyPerm])

theorem withNs_outside (h : [.q, .stb, .ci] ⊆ L) (k : Ctx) (s : State) (f : Ns → State) (hf : ∀ n, outside L (f n) = outside L s) :
    outside L (withNs k s f) = outside L s := by
  unfold withNs
  split
  · exact hf _
  · exact fin_outside h ..

/-! ## Zones and writes -/

@[simp] theorem freeRuns_outside (h : [.pl] ⊆ L) : ∀ (l : List (Nat × Nat × Nat)) (k : Nat) (s : State), outside L (freeRuns l k s) = outside L s
  | [], _, _ => rfl
  | (p, f, c) :: t, k, s => by
    unfold freeRuns
    dsimp only
    split
    · exact (updPen_outside h ..).trans (freeRuns_outside h t ..)
    · exact freeRuns_outside h t ..

@[simp] theorem giveBack_outside (h : [.pl] ⊆ L) (runs : List (Nat × Nat × Nat)) (k : Nat) (s : State) :
    outside L (giveBack runs k s).2 = outside L s := freeRuns_outside h runs k s

@[simp] theorem makeFull_outside (h : [.zn, .pl] ⊆ L) (z : Nat) (s : State) : outside L (makeFull z s) = outside L s :=
  outside_mono h (by unfold makeFull; split <;> simp)

@[simp] theorem finishDiscarded_outside (h : [.slk, .zn, .q, .stb, .ci] ⊆ L) (id : Nat) (s : State) :
    outside L (finishDiscarded id s) = outside L s := outside_mono h (by simp [finishDiscarded])

@[simp] theorem discardZoneWrites_outside (h : [.slk, .zn, .pl, .q, .stb, .ci] ⊆ L) (z : Nat) (s : State) :
    outside L (discardZoneWrites z s) = outside L s := by
  refine outside_mono h ?_
  unfold discardZoneWrites
  dsimp only
  simp [outside_foldl, apply_ite (outside _)]

@[simp] theorem dropUnitOps_outside (h : [.fl] ⊆ L) (z : Nat) (s : State) : outside L (dropUnitOps z s) = outside L s :=
  outside_mono h (by simp [dropUnitOps])

@[simp] theorem addStale_outside (h : [.zn] ⊆ L) (l : List (Nat × Nat)) (s : State) : outside L (addStale l s) = outside L s :=
  outside_mono h (by simp [addStale])

@[simp] theorem discardZone_outside (h : [.slk, .zn, .pl, .fl, .q, .stb, .ci] ⊆ L) (z : Nat) (s : State) :
    outside L (discardZone z s) = outside L s := outside_mono h (by unfold discardZone; split <;> simp)

@[simp] theorem resetZone_outside (h : [.slk, .zn, .pl, .fl, .q, .stb, .ci] ⊆ L) (z : Nat) (s : State) : outside L (resetZone z s) = outside L s := by
  refine outside_mono h ?_
  unfold resetZone
  repeat' split
  all_goals simp

@[simp] theorem makeOffline_outside (h : [.zn, .stb] ⊆ L) (z cause : Nat) (s : State) : outside L (makeOffline z cause s) = outside L s := by
  refine outside_mono h ?_
  unfold makeOffline
  repeat' split
  all_goals simp

theorem openCheck_outside (h : [.zn, .stb] ⊆ L) {f : Nat} {s t : State} (ht : openCheck f s = some t) : outside L t = outside L s := by
  refine outside_mono h ?_
  unfold openCheck at ht
  dsimp only at ht
  repeat' split at ht
  all_goals cases ht
  all_goals simp

/-- What a zone's reservation takes of the media: nothing where it holds enough. -/
theorem reserveOr_outside (h : [.pl, .fl] ⊆ L) {y lcl n : Nat} {p : Prop} [Decidable p] {s : State} {r : List (Nat × Nat × Nat) × State}
    (hr : (if 64 ≤ y then none else if p then some ([], s) else reserve y lcl n s) = some r) : outside L r.2 = outside L s := by
  split_ifs at hr
  · cases hr; rfl
  · exact reserve_outside (List.Subset.trans (by decide) h) hr

@[simp] theorem reserveFor_outside (h : [.zn, .pl, .fl, .stb] ⊆ L) (f z y lcl : Nat) (s : State) :
    outside L (reserveFor f z y lcl s).2 = outside L s := by
  refine outside_mono h ?_
  unfold reserveFor
  extract_lets held need e
  have he : outside [.zn, .pl, .fl, .stb] e = outside [.zn, .pl, .fl, .stb] s := by simp [e]
  clear_value held need e
  split
  · rename_i hr
    have hs := reserveOr_outside (L := [.zn, .pl, .fl, .stb]) (by simp) hr
    simp [hs]
  · dsimp only
    split <;> simp [he]

@[simp] theorem activate_outside (h : [.zn, .pl, .fl, .stb] ⊆ L) (k : Ctx) (z : Nat) (a : Attr) (tgt : ZS) (s : State) :
    outside L (activate k z a tgt s).2 = outside L s := by
  refine outside_mono h ?_
  unfold activate
  split
  · rfl
  · dsimp only
    split
    · rfl
    · rename_i s1 h1
      have hs : outside [.zn, .pl, .fl, .stb] s1 = outside [.zn, .pl, .fl, .stb] s := by
        split at h1
        · cases h1; rfl
        · exact openCheck_outside (by simp) h1
      split_ifs <;> simp [hs]

@[simp] theorem writeModeStatus_outside (h : [.stb] ⊆ L) (y : Nat) (s : State) : outside L (writeModeStatus y s).2 = outside L s := by
  unfold writeModeStatus
  repeat' split
  all_goals simp [h]

@[simp] theorem takeWrite_outside (h : [.zn, .pl, .stb] ⊆ L) (k : Ctx) (o pos len yard gen : Nat) (z : Option Zone) (fua : Bool) (blks : List Blk)
    (s : State) : outside L (takeWrite k o pos len yard gen z fua blks s).2 = outside L s := by
  refine outside_mono h ?_
  unfold takeWrite
  extract_lets id wait st w s1
  have h1 : outside [.zn, .pl, .stb] s1 = outside [.zn, .pl, .stb] s := by simp only [s1]; split <;> simp
  simp [h1]

@[simp] theorem acceptZone_outside (h : [.zn, .pl] ⊆ L) (z len : Nat) (s : State) : outside L (acceptZone z len s) = outside L s := by
  refine outside_mono h ?_
  unfold acceptZone
  dsimp only
  repeat' split
  all_goals simp

@[simp] theorem afterStage_outside (h : [.slk, .zn, .pl, .fl, .q, .stb, .ci] ⊆ L) (k : Ctx) (n : Ns) (id lba : Nat) (blks : List Blk) (s : State) :
    outside L (afterStage k n id lba blks s) = outside L s := by
  refine outside_mono h ?_
  unfold afterStage
  repeat' split
  all_goals simp

@[simp] theorem zoneWrite_outside (h : [.slk, .zn, .pl, .fl, .q, .stb, .ci] ⊆ L) (kind : WKind) (n : Ns) (blks : List Blk) (k : Ctx) (s : State) :
    outside L (zoneWrite kind n blks k s) = outside L s := by
  have hfin : [.q, .stb, .ci] ⊆ L := List.Subset.trans (by decide) h
  have hact : [.zn, .pl, .fl, .stb] ⊆ L := List.Subset.trans (by decide) h
  have hst : [.stb] ⊆ L := List.Subset.trans (by decide) h
  have htake : [.zn, .pl, .stb] ⊆ L := List.Subset.trans (by decide) h
  have hacc : [.zn, .pl] ⊆ L := List.Subset.trans (by decide) h
  have haft : [.slk, .zn, .pl, .fl, .q, .stb, .ci] ⊆ L := List.Subset.trans (by decide) h
  unfold zoneWrite
  extract_lets c lba cnt
  clear_value c lba cnt
  split
  · exact fin_outside hfin ..
  split
  · exact fin_outside hfin ..
  split
  · exact fin_outside hfin ..
  rename_i q hq
  extract_lets m s1 p i r s2
  have hm : outside L m.2 = outside L s := writeModeStatus_outside hst ..
  have hr : outside L r.2 = outside L s := by
    simp only [r]
    split
    · exact hm
    · exact (activate_outside hact ..).trans hm
  have hs1 : outside L s1 = outside L s := hm
  have hs2 : outside L s2 = outside L s := hr
  clear_value s2 r i p s1 m
  split
  · exact (fin_outside hfin ..).trans hm
  split
  · exact (fin_outside hfin ..).trans hs1
  split
  · exact (fin_outside hfin ..).trans hs1
  split
  · exact (fin_outside hfin ..).trans hs1
  split
  · exact (fin_outside hfin ..).trans hs1
  split
  · exact (fin_outside hfin ..).trans hs1
  split
  · exact (refuseSeal_outside hfin ..).trans hs1
  split
  · exact (fin_outside hfin ..).trans hs1
  split
  · exact (fin_outside hfin ..).trans hr
  split
  · exact hs2
  exact (afterStage_outside haft ..).trans ((acceptZone_outside hacc ..).trans ((takeWrite_outside htake ..).trans hs2))

@[simp] theorem supersede_outside (h : [.slk, .zn, .q, .stb, .ci] ⊆ L) (lo hi : Nat) (s : State) : outside L (supersede lo hi s) = outside L s :=
  outside_mono h (by simp [supersede])

@[simp] theorem unmapUnit_outside (h : [.slk, .zn, .ecc, .q, .stb, .ci, .free] ⊆ L) (u : Nat) (s : State) :
    outside L (unmapUnit u s) = outside L s := by
  refine outside_mono h ?_
  unfold unmapUnit
  dsimp only
  split <;> simp

@[simp] theorem convWrite_outside (h : [.slk, .zn, .pl, .fl, .ecc, .q, .stb, .ci, .free] ⊆ L) (kind : WKind) (n : Ns) (blks : List Blk) (k : Ctx)
    (s : State) : outside L (convWrite kind n blks k s) = outside L s := by
  have hfin : [.q, .stb, .ci] ⊆ L := List.Subset.trans (by decide) h
  have haft : [.slk, .zn, .pl, .fl, .q, .stb, .ci] ⊆ L := List.Subset.trans (by decide) h
  have htake : [.zn, .pl, .stb] ⊆ L := List.Subset.trans (by decide) h
  have hwr : [.zn] ⊆ L := List.Subset.trans (by decide) h
  have hunmap : [.slk, .zn, .ecc, .q, .stb, .ci, .free] ⊆ L := List.Subset.trans (by decide) h
  unfold convWrite
  extract_lets c lba cnt us s1 rest t st s2 u
  have h1 : outside L s1 = outside L s := outside_foldl _ (fun s u => unmapUnit_outside hunmap u s) _ _
  have ht : outside L t.2 = outside L s := (takeWrite_outside htake ..).trans h1
  have h2 : outside L s2 = outside L s := (updWr_outside hwr ..).trans ht
  have hu : outside L u.2 = outside L s := takeWrite_outside htake ..
  clear_value u s2 st t rest s1 us cnt lba c
  repeat' split
  · exact fin_outside hfin ..
  · exact fin_outside hfin ..
  · exact fin_outside hfin ..
  · exact (ok_outside hfin ..).trans h1
  · exact (afterStage_outside haft ..).trans h2
  · exact (afterStage_outside haft ..).trans hu

/-! ## I/O and namespace commands -/

theorem formRegion_outside (h : [.fl, .pl] ⊆ L) : ∀ (n : Nat) (s : State) (r : List Nat × State), formRegion n s = some r → outside L r.2 = outside L s
  | 0, s, r, hr => by unfold formRegion at hr; cases hr; rfl
  | n + 1, s, r, hr => by
    unfold formRegion at hr
    split at hr
    · cases hr
    · split at hr
      · cases hr
      · rename_i hf
        obtain ⟨q, hq, rfl⟩ := Option.map_eq_some_iff.mp hr
        exact (formRegion_outside h n _ _ hq).trans (formPad_outside h hf)

@[simp] theorem createZoned_outside (h : [.zn, .q, .stb, .ci, .free] ⊆ L) (k : Ctx) (nsze lbaf pi : Nat) (s : State) :
    outside L (createZoned k nsze lbaf pi s) = outside L s := by
  refine outside_mono h ?_
  unfold createZoned
  dsimp only
  repeat' split
  all_goals simp

@[simp] theorem createConv_outside (h : [.zn, .pl, .fl, .q, .stb, .ci, .free] ⊆ L) (k : Ctx) (nsze lbaf pi : Nat) (s : State) :
    outside L (createConv k nsze lbaf pi s) = outside L s := by
  have hfin : [.q, .stb, .ci] ⊆ L := List.Subset.trans (by decide) h
  have hkeys : [.stb, .ci, .free] ⊆ L := List.Subset.trans (by decide) h
  have hput : [.zn, .pl] ⊆ L := List.Subset.trans (by decide) h
  have hform : [.fl, .pl] ⊆ L := List.Subset.trans (by decide) h
  delta createConv
  generalize ceilDiv (5 * nsze * 4096) (4 * padPenBytes) = n
  generalize freeNsid s = o
  cases o with
  | none => exact fin_outside hfin ..
  | some id =>
    generalize hf : formRegion n s = o2
    cases o2 with
    | none => exact fin_outside hfin ..
    | some r =>
      refine ((okDw0_outside hfin ..).trans (genKeys_outside hkeys ..)).trans (Eq.trans ?_ (formRegion_outside hform _ _ _ hf))
      exact outside_mono hput (by simp)

@[simp] theorem nsCreateOn_outside (h : [.zn, .pl, .fl, .q, .stb, .ci, .free] ⊆ L) (buf : List Byte) (k : Ctx) (s : State) :
    outside L (nsCreateOn buf k s) = outside L s := by
  refine outside_mono h ?_
  unfold nsCreateOn
  dsimp only
  split_ifs <;> simp

@[simp] theorem deleteNs_outside (h : [.slk, .zn, .pl, .fl, .q, .stb, .ci] ⊆ L) (n : Nat) (s : State) : outside L (deleteNs n s) = outside L s := by
  refine outside_mono h ?_
  unfold deleteNs
  dsimp only
  repeat' split
  all_goals simp [outside_foldl]

@[simp] theorem nsDeleteOn_outside (h : [.slk, .zn, .pl, .fl, .q, .stb, .ci] ⊆ L) (k : Ctx) (s : State) :
    outside L (nsDeleteOn k s) = outside L s := by
  refine outside_mono h ?_
  unfold nsDeleteOn
  dsimp only
  simp [outside_foldl, apply_ite (outside _)]

@[simp] theorem nsAttachOn_outside (h : [.zn, .q, .stb, .ci] ⊆ L) (buf : List Byte) (k : Ctx) (s : State) :
    outside L (nsAttachOn buf k s) = outside L s := by
  refine outside_mono h ?_
  unfold nsAttachOn
  dsimp only
  repeat' split
  all_goals simp [outside_foldl, apply_ite (outside _)]

@[simp] theorem writeOn_outside (h : [.slk, .zn, .pl, .fl, .ecc, .q, .stb, .ci, .free] ⊆ L) (kind : WKind) (blks : List Blk) (k : Ctx) (s : State) :
    outside L (writeOn kind blks k s) = outside L s := by
  refine outside_mono h ?_
  unfold writeOn
  split
  · simp
  · split
    · simp
    · exact withNs_outside (by simp) _ _ _ fun n => by split <;> simp

@[simp] theorem stageMore_outside (h : [.slk, .zn, .pl, .fl, .q, .stb, .ci] ⊆ L) (x : Wr) (rest : List Blk) (s : State) :
    outside L (stageMore x rest s) = outside L s := by
  refine outside_mono h ?_
  unfold stageMore
  dsimp only
  repeat' split
  all_goals simp

@[simp] theorem dsmOn_outside (h : [.slk, .zn, .ecc, .q, .stb, .ci, .free] ⊆ L) (buf : List Byte) (k : Ctx) (s : State) :
    outside L (dsmOn buf k s) = outside L s := by
  have unmapped : ∀ (l : List (Nat × Nat)) (s : State), outside [.slk, .zn, .ecc, .q, .stb, .ci, .free]
      (l.foldl (fun s r => (wholeUnits r.1 r.2).foldl (fun s u => unmapUnit u s) s) s) = outside [.slk, .zn, .ecc, .q, .stb, .ci, .free] s :=
    outside_foldl _ fun s r => outside_foldl _ (fun s u => by simp) _ _
  refine outside_mono h ?_
  unfold dsmOn
  dsimp only
  split
  · simp
  · refine withNs_outside (by simp) _ _ _ fun n => ?_
    repeat' split
    all_goals simp [unmapped]

theorem sendOn_outside (h : [.q, .stb, .ci] ⊆ L) (k : Ctx) (s : State) (one : Nat → Zone → State) (all : Ns → State)
    (h1 : ∀ z q, outside L (one z q) = outside L s) (h2 : ∀ n, outside L (all n) = outside L s) : outside L (sendOn k s one all) = outside L s := by
  unfold sendOn
  split
  · exact denyPerm_outside h k s
  · refine withNs_outside h _ _ _ fun n => ?_
    repeat' split
    all_goals simp [h1, h2, fin_outside h]

theorem openOne_openGo_outside (h : [.zn, .pl, .fl, .stb] ⊆ L) (k : Ctx) (z : Nat) (q : Zone) (s : State) :
    outside L (openOne.openGo k z q s).2 = outside L s := by
  refine outside_mono h ?_
  unfold openOne.openGo
  split <;> simp

@[simp] theorem openOne_outside (h : [.zn, .pl, .fl, .stb] ⊆ L) (k : Ctx) (z : Nat) (q : Zone) (s : State) :
    outside L (openOne k z q s).2 = outside L s := by
  unfold openOne
  split
  · split
    · exact openOne_openGo_outside h ..
    · rfl
  · exact openOne_openGo_outside h ..

@[simp] theorem finBy_outside (h : [.q, .stb, .ci] ⊆ L) (k : Ctx) (r : Option (Nat × Nat) × State) : outside L (finBy k r) = outside L r.2 := by
  unfold finBy; split <;> simp [h]

@[simp] theorem openEach_outside (h : [.zn, .pl, .fl, .stb] ⊆ L) (k : Ctx) : ∀ (l : List Nat) (c : Bool) (s : State),
    outside L (openEach k l c s).2 = outside L s
  | [], _, _ => rfl
  | z :: t, c, s => by
    unfold openEach
    split
    · exact openEach_outside h k t c s
    · split
      · rfl
      · dsimp only
        split
        · rfl
        · exact (openEach_outside h k t ..).trans (openOne_outside h ..)

@[simp] theorem zoneOpenOn_outside (h : [.zn, .pl, .fl, .q, .stb, .ci] ⊆ L) (k : Ctx) (s : State) : outside L (zoneOpenOn k s) = outside L s :=
  outside_mono h (sendOn_outside (by simp) _ _ _ _ (fun z q => by simp) fun n => by dsimp only; split <;> simp)

@[simp] theorem zoneCloseOn_outside (h : [.zn, .q, .stb, .ci] ⊆ L) (k : Ctx) (s : State) : outside L (zoneCloseOn k s) = outside L s := by
  have closed : ∀ (l : List Nat) (s : State), outside [.zn, .q, .stb, .ci]
      (l.foldl (fun s z => updZone z (fun q => { q with st := .closed }) s) s) = outside [.zn, .q, .stb, .ci] s := outside_foldl _ fun s z => by simp
  exact outside_mono h (sendOn_outside (by simp) _ _ _ _ (fun z q => by split_ifs <;> simp) fun n => by simp [closed])

@[simp] theorem zoneFinishOn_outside (h : [.zn, .pl, .q, .stb, .ci] ⊆ L) (k : Ctx) (s : State) : outside L (zoneFinishOn k s) = outside L s := by
  have finished : ∀ (l : List Nat) (s : State), outside [.zn, .pl, .q, .stb, .ci] (l.foldl (fun s z => sealAfter z (makeFull z s)) s) =
      outside [.zn, .pl, .q, .stb, .ci] s := outside_foldl _ fun s z => by simp
  exact outside_mono h (sendOn_outside (by simp) _ _ _ _ (fun z q => by split_ifs <;> simp) fun n => by simp [finished])

@[simp] theorem zoneResetOn_outside (h : [.slk, .zn, .pl, .fl, .q, .stb, .ci] ⊆ L) (k : Ctx) (s : State) : outside L (zoneResetOn k s) = outside L s := by
  have wiped : ∀ (l : List Nat) (s : State), outside [.slk, .zn, .pl, .fl, .q, .stb, .ci] (l.foldl (fun s z => resetZone z s) s) =
      outside [.slk, .zn, .pl, .fl, .q, .stb, .ci] s := outside_foldl _ fun s z => by simp
  exact outside_mono h (sendOn_outside (by simp) _ _ _ _ (fun z q => by split_ifs <;> simp) fun n => by simp [wiped])

@[simp] theorem beginScrub_outside (h : [.zn, .pl, .fl] ⊆ L) (z : Nat) (ctx : Option Nat) (s : State) :
    outside L (beginScrub z ctx s) = outside L s := by
  refine outside_mono h ?_
  unfold beginScrub
  dsimp only
  simp [outside_foldl, apply_ite (outside _)]

@[simp] theorem scrubOn_outside (h : [.slk, .zn, .pl, .fl, .q, .stb, .ci] ⊆ L) (k : Ctx) (s : State) : outside L (scrubOn k s) = outside L s := by
  refine outside_mono h ?_
  unfold scrubOn
  split
  · simp
  · split
    · simp
    · exact sendOn_outside (by simp) _ _ _ _ (fun z q => by split <;> simp) fun n => by simp

@[simp] theorem reportOn_outside (h : [.q, .stb, .ci] ⊆ L) (k : Ctx) (s : State) : outside L (reportOn k s) = outside L s :=
  withNs_outside h _ _ _ fun n => by dsimp only; split_ifs <;> simp [h]

@[simp] theorem placementOpenOn_outside (h : [.zn, .pl, .fl, .q, .stb, .ci] ⊆ L) (k : Ctx) (s : State) :
    outside L (placementOpenOn k s) = outside L s := by
  have hfin : [.q, .stb, .ci] ⊆ L := List.Subset.trans (by decide) h
  have hact : [.zn, .pl, .fl, .stb] ⊆ L := List.Subset.trans (by decide) h
  have hci : [.ci] ⊆ L := List.Subset.trans (by decide) h
  unfold placementOpenOn
  extract_lets c
  clear_value c
  split
  · exact denyPerm_outside hfin ..
  refine withNs_outside hfin _ _ _ fun n => ?_
  split
  · exact fin_outside hfin ..
  split
  · exact fin_outside hfin ..
  split
  · exact fin_outside hfin ..
  split
  · exact fin_outside hfin ..
  split
  · exact fin_outside hfin ..
  split
  · exact fin_outside hfin ..
  split
  · exact fin_outside hfin ..
  split
  · exact fin_outside hfin ..
  extract_lets yd b r r'
  have hb : outside L b.2 = outside L s := by
    simp only [b]
    split
    · exact bindSeal_outside hci ..
    · rfl
  have hr : outside L r.2 = outside L s := (activate_outside hact ..).trans hb
  have hr' : outside L r'.2 = outside L s := openOne_outside hact ..
  clear_value r' r b yd
  split
  · exact fin_outside hfin ..
  · exact fin_outside hfin ..
  · split
    · exact okDw0_outside hfin ..
    · exact fin_outside hfin ..
  · split
    · exact (fin_outside hfin ..).trans hb
    · split
      · exact (fin_outside hfin ..).trans ((unbind_outside hci ..).trans hr)
      · exact (okDw0_outside hfin ..).trans hr
  · split
    · exact fin_outside hfin ..
    · split
      · exact (fin_outside hfin ..).trans hr'
      · exact (okDw0_outside hfin ..).trans hr'

@[simp] theorem beginSanitize_outside (h : [.m, .zn, .fl, .ecc, .q, .stb, .jn, .ci] ⊆ L) (kind : Nat) (k : Ctx) (s : State) :
    outside L (beginSanitize kind k s) = outside L s := outside_mono h (by simp [beginSanitize])

@[simp] theorem sanitizeOn_outside (h : [.m, .zn, .fl, .ecc, .q, .stb, .jn, .ci, .free] ⊆ L) (kind : Nat) (k : Ctx) (s : State) :
    outside L (sanitizeOn kind k s) = outside L s := by
  refine outside_mono h ?_
  unfold sanitizeOn
  split_ifs <;> simp

@[simp] theorem wipeData_outside (h : [.slk, .zn, .pl, .fl, .q, .stb, .ci] ⊆ L) (s : State) : outside L (wipeData s) = outside L s := by
  refine outside_mono h ?_
  unfold wipeData
  dsimp only
  simp [outside_foldl]

@[simp] theorem eraseAll_outside (h : [.zn, .pl, .fl] ⊆ L) (s : State) : outside L (eraseAll s) = outside L s := by
  refine outside_mono h ?_
  unfold eraseAll
  extract_lets wipe erased _ fl _ pl _ s1 n _ s2 s3
  have h2 : outside [.zn, .pl, .fl] s2 = outside [.zn, .pl, .fl] s := (outside_foldl _ (fun s d => by simp) _ _).trans (by simp [s1])
  have h3 : outside [.zn, .pl, .fl] s3 = outside [.zn, .pl, .fl] s := by
    simp only [s3]
    split
    · rename_i hr
      exact (outside_mono (L := [.pl]) (by simp) (by simp)).trans ((formRegion_outside (by simp) _ _ _ hr).trans h2)
    · exact h2
  exact (outside_foldl _ (fun s sh => formReserve_outside (by simp) sh s) _ _).trans h3

@[simp] theorem retireAll_outside (h : [.zn, .pl, .fl] ⊆ L) (s : State) : outside L (retireAll s) = outside L s := by
  refine outside_mono h ?_
  unfold retireAll
  dsimp only
  simp [outside_foldl]

@[simp] theorem formatNs_outside (h : [.slk, .zn, .pl, .fl, .q, .stb, .ci, .free] ⊆ L) (lbaf pi n : Nat) (s : State) :
    outside L (formatNs lbaf pi n s) = outside L s := by
  refine outside_mono h ?_
  unfold formatNs
  dsimp only
  repeat' split
  all_goals simp [outside_foldl]

@[simp] theorem formatOn_outside (h : [.slk, .zn, .pl, .fl, .q, .stb, .ci, .free] ⊆ L) (k : Ctx) (s : State) :
    outside L (formatOn k s) = outside L s := by
  refine outside_mono h ?_
  unfold formatOn
  dsimp only
  repeat' split
  all_goals simp [outside_foldl]

/-! ## Reads of the host -/

@[simp] theorem readOn_outside (h : [.q, .stb, .ci] ⊆ L) (k : Ctx) (s : State) : outside L (readOn k s) = outside L s := by
  refine outside_mono h (withNs_outside (by simp) _ _ _ fun n => ?_)
  dsimp only
  repeat' split
  all_goals simp

/-! ## Relocation and placing -/

@[simp] theorem acceptLayout_outside (h : [.m, .zn, .pl, .fl, .q, .stb, .jn, .ci] ⊆ L) (buf : List Byte) (ms : List (Nat × Nat)) (s : State) :
    outside L (acceptLayout buf ms s) = outside L s := by
  refine outside_mono h ?_
  unfold acceptLayout
  dsimp only
  simp [outside_foldl, apply_ite (outside _)]

@[simp] theorem setLayoutOn_outside (h : [.m, .zn, .pl, .fl, .q, .stb, .jn, .ci] ⊆ L) (buf : List Byte) (k : Ctx) (s : State) :
    outside L (setLayoutOn buf k s) = outside L s := by
  refine outside_mono h ?_
  unfold setLayoutOn
  dsimp only
  split_ifs <;> simp

@[simp] theorem loseSource_outside (h : [.pl] ⊆ L) (o q : Nat) (s : State) : outside L (loseSource o q s) = outside L s := by
  refine outside_mono h ?_
  unfold loseSource
  split <;> simp

@[simp] theorem forgetLost_outside (h : [.pl] ⊆ L) (gone : Nat → Nat → Bool) (s : State) : outside L (forgetLost gone s) = outside L s := by
  refine outside_mono h ?_
  unfold forgetLost
  split <;> simp

@[simp] theorem readSources_outside (h : [.zn, .pl, .fl, .stb] ⊆ L) (mine : Work → Bool) (start : Nat) (ps : List (Nat × Nat)) (s : State) :
    outside L (readSources mine start ps s) = outside L s := by
  refine outside_mono h ?_
  unfold readSources
  split
  · rfl
  · refine outside_foldl _ (fun s e => ?_) _ _
    split
    · dsimp only; split <;> simp
    · rfl

theorem takeDst_outside (h : [.fl, .pl] ⊆ L) (src : Nat) (k : PenKind) (y lcl : Nat) : ∀ (fuel n : Nat) (s : State) (r : List (Nat × Nat) × State),
    takeDst src k y lcl fuel n s = some r → outside L r.2 = outside L s
  | _, 0, s, r, hr => by unfold takeDst at hr; cases hr; rfl
  | 0, _ + 1, _, _, hr => by unfold takeDst at hr; cases hr
  | fuel + 1, n + 1, s, r, hr => by
    have hp : [.pl] ⊆ L := List.Subset.trans (by decide) h
    unfold takeDst at hr
    split at hr
    · split at hr
      · obtain ⟨q, hq, rfl⟩ := Option.map_eq_some_iff.mp hr
        exact (takeDst_outside h src k y lcl fuel _ _ _ hq).trans (updPen_outside hp ..)
      · exact (takeDst_outside h src k y lcl fuel _ _ _ hr).trans (outside_mono hp (by simp))
    · split at hr
      · cases hr
      · rename_i hf
        exact (takeDst_outside h src k y lcl fuel _ _ _ hr).trans ((outside_mono hp (by simp)).trans (formQlc_outside h hf))

@[simp] theorem addMove_outside (h : [.pl] ⊆ L) (src y : Nat) (k : PenKind) (its : List MvU) (s : State) :
    outside L (addMove src y k its s) = outside L s := outside_mono h (by simp [addMove])

theorem startMove_outside (h : [.zn, .pl, .fl, .stb] ⊆ L) {src : Nat} {p : Pen} {k : PenKind} {s t : State} (ht : startMove src p k s = some t) :
    outside L t = outside L s := by
  refine outside_mono h ?_
  unfold startMove at ht
  dsimp only at ht
  split at ht
  · cases ht
  · rename_i hd
    have hs := takeDst_outside (L := [.zn, .pl, .fl, .stb]) (by simp) _ _ _ _ _ _ _ _ hd
    cases ht
    refine (outside_foldl _ (fun s i => ?_) _ _).trans (Eq.trans ?_ hs)
    · split <;> simp
    · split <;> simp

theorem copyChunks_outside (h : [.zn, .pl, .fl, .stb] ⊆ L) {α : Type} (seq : Nat) (dst : State → Option (Nat × State)) (room : Nat → Nat)
    (item : Nat → Nat → α → MvU) (srcs : α → List (Nat × Nat)) (hd : ∀ s r, dst s = some r → outside L r.2 = outside L s) :
    ∀ (fuel : Nat) (l : List α) (s : State) (r : List MvU × State), copyChunks seq dst room item srcs fuel l s = some r → outside L r.2 = outside L s
  | _, [], s, r, hr => by unfold copyChunks at hr; cases hr; rfl
  | 0, _ :: _, _, _, hr => by unfold copyChunks at hr; cases hr
  | fuel + 1, u :: us, s, r, hr => by
    unfold copyChunks at hr
    split at hr
    · cases hr
    · rename_i hds
      dsimp only at hr
      obtain ⟨q, hq, rfl⟩ := Option.map_eq_some_iff.mp hr
      rw [copyChunks_outside h seq dst room item srcs hd fuel _ _ _ hq, readSources_outside h, landWork_outside (List.Subset.trans (by decide) h)]
      exact hd _ _ hds

theorem startPadMove_outside (h : [.zn, .pl, .fl, .stb] ⊆ L) {src : Nat} {p : Pen} {s t : State} (ht : startPadMove src p s = some t) :
    outside L t = outside L s := by
  refine outside_mono h ?_
  unfold startPadMove at ht
  extract_lets ps src0 s0 at ht
  have h0 : outside [.zn, .pl, .fl, .stb] s0 = outside [.zn, .pl, .fl, .stb] s := by simp only [s0]; split <;> simp
  clear_value s0
  obtain ⟨q, hq, rfl⟩ := Option.map_eq_some_iff.mp ht
  rw [addMove_outside (by simp), copyChunks_outside (by simp) _ _ _ _ _ (fun s r hr => landingPen_outside (by simp) hr) _ _ _ _ hq, h0]

theorem startConvMove_outside (h : [.zn, .pl, .fl, .stb] ⊆ L) {src : Nat} {s t : State} (ht : startConvMove src s = some t) :
    outside L t = outside L s := by
  refine outside_mono h ?_
  unfold startConvMove at ht
  extract_lets us src0 s0 seq one at ht
  have h0 : outside [.zn, .pl, .fl, .stb] s0 = outside [.zn, .pl, .fl, .stb] s := by simp only [s0]; simp
  have hone : ∀ hot l u r, one hot l u = some r → outside [.zn, .pl, .fl, .stb] r.2 = outside [.zn, .pl, .fl, .stb] u := by
    intro hot l u r hr
    refine copyChunks_outside (by simp) _ _ _ _ _ (fun s r hr => ?_) _ _ _ _ hr
    obtain ⟨a, ha, hb⟩ := Option.bind_eq_some_iff.mp hr
    split at hb
    · cases hb
    · cases hb; exact convPen_outside (by simp) ha
  clear_value one s0
  split at ht
  · cases ht
  · rename_i ha
    obtain ⟨q, hq, rfl⟩ := Option.map_eq_some_iff.mp ht
    rw [addMove_outside (by simp), hone _ _ _ _ hq, hone _ _ _ _ ha, h0]

@[simp] theorem wearEnds_outside (h : [.pl, .stb] ⊆ L) (y : Nat) (s : State) : outside L (wearEnds y s) = outside L s := by
  refine outside_mono h ?_
  unfold wearEnds
  split <;> simp

@[simp] theorem commitItem_outside (h : [.zn, .ecc, .stb, .free] ⊆ L) (src : Nat) (kind : PenKind) (i : MvU) (s : State) :
    outside L (commitItem src kind i s) = outside L s := by
  refine outside_mono h ?_
  unfold commitItem
  dsimp only
  repeat' split
  all_goals simp

@[simp] theorem emptyConv_outside (h : [.zn, .pl, .fl] ⊆ L) (src : Nat) (s : State) : outside L (emptyConv src s) = outside L s := by
  refine outside_mono h ?_
  unfold emptyConv
  dsimp only
  split_ifs <;> simp

@[simp] theorem commitMove_outside (h : [.zn, .pl, .fl, .ecc, .stb, .free] ⊆ L) (seq : Nat) (s : State) :
    outside L (commitMove seq s) = outside L s := by
  refine outside_mono h ?_
  unfold commitMove
  dsimp only
  repeat' split
  all_goals simp [outside_foldl]

@[simp] theorem dropMove_outside (h : [.pl, .fl] ⊆ L) (seq : Nat) (s : State) : outside L (dropMove seq s) = outside L s := by
  refine outside_mono h ?_
  unfold dropMove
  split <;> simp

@[simp] theorem afterStart_outside (h : [.zn, .pl, .fl, .ecc, .stb, .free] ⊆ L) (s : State) : outside L (afterStart s) = outside L s :=
  outside_mono h (outside_foldl _ (fun s q => by simp) _ _)

/-! ## Flash channels -/

@[simp] theorem losePen_outside (h : [.zn, .stb] ⊆ L) (id : Nat) (s : State) : outside L (losePen id s) = outside L s := by
  refine outside_mono h ?_
  unfold losePen
  dsimp only
  repeat' split
  all_goals simp [outside_foldl]

@[simp] theorem loseDie_outside (h : [.m, .zn, .pl, .q, .stb, .jn, .ci] ⊆ L) (d : Nat) (s : State) : outside L (loseDie d s) = outside L s := by
  refine outside_mono h ?_
  unfold loseDie
  dsimp only
  simp [outside_foldl, apply_ite (outside _)]

@[simp] theorem wearOut_outside (h : [.m, .zn, .pl, .fl, .q, .stb, .jn, .ci] ⊆ L) (d : Nat) (s : State) : outside L (wearOut d s) = outside L s :=
  outside_mono h (by simp [wearOut])

@[simp] theorem goBad_outside (h : [.pl, .fl] ⊆ L) (d b : Nat) (s : State) : outside L (goBad d b s) = outside L s := by
  refine outside_mono h ?_
  unfold goBad
  dsimp only
  split <;> simp

@[simp] theorem retarget_outside (h : [.fl] ⊆ L) (d old new : Nat) (s : State) : outside L (retarget d old new s) = outside L s :=
  outside_mono h (by simp [retarget])

@[simp] theorem copyOld_outside (h : [.zn, .pl, .fl, .stb] ⊆ L) (pid m d nb : Nat) (s : State) : outside L (copyOld pid m d nb s) = outside L s := by
  unfold copyOld
  split
  · rfl
  · exact outside_foldl _ (fun s o => readSources_outside h ..) _ _

@[simp] theorem replaceMember_outside (h : [.m, .zn, .pl, .fl, .q, .stb, .jn, .ci] ⊆ L) (d b : Nat) (s : State) :
    outside L (replaceMember d b s) = outside L s := by
  refine outside_mono h ?_
  unfold replaceMember
  dsimp only
  repeat' split
  all_goals simp

@[simp] theorem settleOld_outside (h : [.pl, .fl] ⊆ L) (d b : Nat) (s : State) : outside L (settleOld d b s) = outside L s := by
  refine outside_mono h ?_
  unfold settleOld
  dsimp only
  repeat' split
  all_goals simp [outside_foldl]

@[simp] theorem placeAgain_outside (h : [.pl, .fl, .stb] ⊆ L) (o : AOp) (s0 : State) : outside L (placeAgain o s0) = outside L s0 := by
  refine outside_mono h ?_
  unfold placeAgain
  dsimp only
  repeat' split
  all_goals simp

@[simp] theorem markRefresh_outside (h : [.pl, .stb] ⊆ L) (p ladder : Nat) (s : State) : outside L (markRefresh p ladder s) = outside L s := by
  refine outside_mono h ?_
  unfold markRefresh
  repeat' split
  all_goals simp

@[simp] theorem countLadder_outside (h : [.ecc] ⊆ L) (l : Nat) (s : State) : outside L (countLadder l s) = outside L s :=
  outside_mono h (by simp [countLadder])

@[simp] theorem gotPiece_outside (h : [.q, .ga] ⊆ L) (id o q path ladder : Nat) (s : State) :
    outside L (gotPiece id o q path ladder s) = outside L s := outside_mono h (by simp [gotPiece])

@[simp] theorem lostPiece_outside (h : [.zn, .q, .stb, .ga] ⊆ L) (id o q path : Nat) (s : State) :
    outside L (lostPiece id o q path s) = outside L s := by
  refine outside_mono h ?_
  unfold lostPiece
  repeat' split
  all_goals simp

@[simp] theorem readLost_outside (h : [.zn, .pl, .q, .stb, .ga] ⊆ L) (id o q path : Nat) (s : State) :
    outside L (readLost id o q path s) = outside L s := by
  refine outside_mono h ?_
  unfold readLost
  repeat' split
  all_goals simp

@[simp] theorem learnOffset_outside (h : [.ecc, .free] ⊆ L) (d b : Nat) (s : State) : outside L (learnOffset d b s) = outside L s := by
  refine outside_mono h ?_
  unfold learnOffset
  split <;> simp

@[simp] theorem combEnds_outside (h : [.ecc] ⊆ L) (t : Target) (ladder corr : Nat) (marked : Bool) (s : State) :
    outside L (combEnds t ladder corr marked s) = outside L s := by
  refine outside_mono h ?_
  unfold combEnds
  dsimp only
  split <;> simp

@[simp] theorem readEnds_outside (h : [.zn, .pl, .ecc, .q, .stb, .ga, .free] ⊆ L) (id o q path ladder corr : Nat) (s : State) :
    outside L (readEnds id o q path ladder corr s) = outside L s := by
  refine outside_mono h ?_
  unfold readEnds
  dsimp only
  repeat' split
  all_goals simp

@[simp] theorem stepThree_outside (h : [.zn, .pl, .fl, .ecc, .q, .stb, .ga, .free] ⊆ L) (id o q path : Nat) (s : State) :
    outside L (stepThree id o q path s) = outside L s := by
  refine outside_mono h ?_
  unfold stepThree
  repeat' split
  all_goals simp

@[simp] theorem memberFails_outside (h : [.fl] ⊆ L) (rid m : Nat) (s : State) : outside L (memberFails rid m s) = outside L s := by
  refine outside_mono h ?_
  unfold memberFails
  dsimp only
  repeat' split
  all_goals simp

@[simp] theorem rparTrim_outside (h : [.fl] ⊆ L) (sh : Nat) : ∀ (n : Nat) (s : State), outside L (rparTrim sh n s) = outside L s
  | 0, _ => rfl
  | n + 1, s => by
    unfold rparTrim
    dsimp only
    split
    · split
      · exact (rparTrim_outside h sh n _).trans (outside_mono h (by simp))
      · rfl
    · rfl

@[simp] theorem rparAdd_outside (h : [.fl] ⊆ L) (pid k : Nat) (s : State) : outside L (rparAdd pid k s) = outside L s := by
  refine outside_mono h ?_
  unfold rparAdd
  repeat' split
  all_goals simp

@[simp] theorem parWatch_outside (h : [.fl] ⊆ L) (ch : Nat) (s : State) : outside L (parWatch ch s) = outside L s := by
  have reads : ∀ {p : Pen} {pid k : Nat} (l : List Nat) (s : State), outside [.fl] (l.foldl (fun s m =>
      queueRead (nth p.mem m (0, 8191, true)).1 (memBlk p m k s) 5 k 0 p.kind.oneBit (.par pid k) s) s) = outside [.fl] s :=
    outside_foldl _ fun s m => by simp
  refine outside_mono h (outside_foldl _ (fun s o => ?_) _ _)
  dsimp only
  repeat' split
  all_goals simp [reads]

@[simp] theorem parDone_outside (h : [.fl] ⊆ L) (pid k : Nat) (s : State) : outside L (parDone pid k s) = outside L s := by
  refine outside_mono h ?_
  unfold parDone
  split <;> simp

@[simp] theorem readFailed_outside (h : [.zn, .pl, .fl, .ecc, .q, .stb, .ga, .free] ⊆ L) (o : AOp) (path : Nat) (s : State) :
    outside L (readFailed o path s) = outside L s := by
  refine outside_mono h ?_
  unfold readFailed
  split <;> simp

@[simp] theorem failLun_outside (h : [.m, .zn, .pl, .fl, .ecc, .q, .stb, .jn, .ci, .ga, .free] ⊆ L) (d : Nat) (s : State) :
    outside L (failLun d s) = outside L s := by
  refine outside_mono h ?_
  unfold failLun
  dsimp only
  simp [outside_foldl, apply_ite (outside _)]

@[simp] theorem failChannel_outside (h : [.m, .zn, .pl, .fl, .ecc, .q, .stb, .jn, .ci, .ga, .free] ⊆ L) (ch cause : Nat) (s : State) :
    outside L (failChannel ch cause s) = outside L s := by
  refine outside_mono h ?_
  unfold failChannel
  dsimp only
  simp [outside_foldl, apply_ite (outside _)]

@[simp] theorem failLunCh_outside (h : [.m, .zn, .pl, .fl, .ecc, .q, .stb, .jn, .ci, .ga, .free] ⊆ L) (d : Nat) (s : State) :
    outside L (failLunCh d s) = outside L s := by
  refine outside_mono h ?_
  unfold failLunCh
  dsimp only
  split <;> simp

@[simp] theorem chainStep_outside (h : [.fl] ⊆ L) (o : AOp) (s : State) : outside L (chainStep o s) = outside L s := by
  refine outside_mono h ?_
  unfold chainStep
  dsimp only
  split_ifs <;> simp

@[simp] theorem tackRefused_outside (h : [.fl, .stb] ⊆ L) (who ch blk : Nat) (s : State) : outside L (tackRefused who ch blk s) = outside L s :=
  outside_mono h (by simp [tackRefused])

@[simp] theorem tackRead_outside (h : [.zn, .pl, .ecc, .q, .stb, .ga, .free] ⊆ L) (id o q : Nat) (s : State) :
    outside L (tackRead id o q s) = outside L s := by
  refine outside_mono h ?_
  unfold tackRead
  split <;> simp

@[simp] theorem refuseProgram_outside (h : [.m, .zn, .pl, .fl, .q, .stb, .jn, .ci] ⊆ L) (o : AOp) (r : Nat) (s : State) :
    outside L (refuseProgram o r s) = outside L s := by
  refine outside_mono h ?_
  unfold refuseProgram
  dsimp only
  split_ifs <;> simp

@[simp] theorem startOp_outside (h : [.m, .zn, .pl, .fl, .ecc, .q, .stb, .jn, .ci, .ga, .free] ⊆ L) (o : AOp) (s : State) :
    outside L (startOp o s) = outside L s := by
  refine outside_mono h ?_
  unfold startOp
  dsimp only
  repeat' split
  all_goals simp

@[simp] theorem liveWatch_outside (h : [.fl, .stb] ⊆ L) (ch : Nat) (s : State) : outside L (liveWatch ch s) = outside L s := by
  refine outside_mono h ?_
  unfold liveWatch
  dsimp only
  split_ifs <;> simp

@[simp] theorem innerWake_outside (h : [.pw] ⊆ L) (o : AOp) (s : State) : outside L (innerWake o s) = outside L s := by
  refine outside_mono h ?_
  unfold innerWake
  split <;> simp

@[simp] theorem commitUnit_outside (h : [.slk, .zn, .pl, .fl, .ecc, .q, .stb, .ci, .free] ⊆ L) (z u pen : Nat) (s : State) :
    outside L (commitUnit z u pen s) = outside L s := by
  refine outside_mono h ?_
  unfold commitUnit
  dsimp only
  repeat' split
  all_goals simp [outside_foldl]

@[simp] theorem closeStripe_outside (h : [.pl, .fl] ⊆ L) (pen k m : Nat) (s : State) : outside L (closeStripe pen k m s) = outside L s := by
  refine outside_mono h ?_
  unfold closeStripe
  dsimp only
  repeat' split
  all_goals simp

@[simp] theorem programmed_outside (h : [.slk, .zn, .pl, .fl, .ecc, .q, .stb, .ci, .free] ⊆ L) (o : AOp) (s : State) :
    outside L (programmed o s) = outside L s := by
  refine outside_mono h ?_
  unfold programmed
  dsimp only
  repeat' split
  all_goals simp [outside_foldl]

@[simp] theorem mediaFlip_outside (h : [.fl, .ecc, .stb] ⊆ L) (o : AOp) (s : State) : outside L (mediaFlip o s) = outside L s := by
  refine outside_mono h ?_
  unfold mediaFlip
  split <;> simp

@[simp] theorem programFails_outside (h : [.m, .zn, .pl, .fl, .q, .stb, .jn, .ci] ⊆ L) (o : AOp) (s : State) :
    outside L (programFails o s) = outside L s := by
  refine outside_mono h ?_
  unfold programFails
  dsimp only
  split_ifs <;> simp

@[simp] theorem eraseDone_outside (h : [.zn, .pl, .fl] ⊆ L) (d b : Nat) (s : State) : outside L (eraseDone d b s) = outside L s :=
  outside_mono h (by simp [eraseDone])

@[simp] theorem enterLists_outside (h : [.fl] ⊆ L) (d b : Nat) (s : State) : outside L (enterLists d b s) = outside L s := by
  refine outside_mono h ?_
  unfold enterLists
  dsimp only
  split <;> simp

@[simp] theorem convErased_outside (h : [.pl] ⊆ L) (p : Nat) (s : State) : outside L (convErased p s) = outside L s := by
  refine outside_mono h ?_
  unfold convErased
  repeat' split
  all_goals simp

@[simp] theorem eraseBad_outside (h : [.m, .zn, .pl, .fl, .q, .stb, .jn, .ci] ⊆ L) (ch lun blk : Nat) (s : State) :
    outside L (eraseBad ch lun blk s) = outside L s := outside_mono h (by simp [eraseBad])

@[simp] theorem eraseFails_outside (h : [.m, .zn, .pl, .fl, .q, .stb, .jn, .ci] ⊆ L) (o : AOp) (s : State) :
    outside L (eraseFails o s) = outside L s := outside_mono h (by simp [eraseFails])

@[simp] theorem noToken_outside (h : [.pl, .ecc, .stb] ⊆ L) (y : Nat) (s : State) : outside L (noToken y s) = outside L s := by
  refine outside_mono h ?_
  unfold noToken
  split <;> simp

@[simp] theorem rebuildOrWait_outside (h : [.pl, .fl, .ecc, .stb] ⊆ L) (r : AOp) (s : State) : outside L (rebuildOrWait r s) = outside L s := by
  refine outside_mono h ?_
  unfold rebuildOrWait
  repeat' split
  all_goals simp

@[simp] theorem arbitrate_outside (h : [.pl, .fl, .ecc, .stb] ⊆ L) (r : AOp) (s : State) : outside L (arbitrate r s) = outside L s := by
  refine outside_mono h ?_
  unfold arbitrate
  dsimp only
  repeat' split
  all_goals simp

@[simp] theorem refreshBlock_outside (h : [.fl, .stb] ⊆ L) (ch old new : Nat) (s : State) : outside L (refreshBlock ch old new s) = outside L s := by
  refine outside_mono h ?_
  unfold refreshBlock
  dsimp only
  split <;> simp

@[simp] theorem writeDiagCtl_outside (h : [.fl] ⊆ L) (ch v : Nat) (s : State) : outside L (writeDiagCtl ch v s) = outside L s := by
  refine outside_mono h ?_
  unfold writeDiagCtl
  dsimp only
  split_ifs <;> simp

@[simp] theorem bindMember_outside (h : [.pl, .fl] ⊆ L) (d p : Nat) (s : State) : outside L (bindMember d p s) = outside L s := by
  refine outside_mono h ?_
  unfold bindMember
  dsimp only
  split <;> simp

/-! ## Data integrity -/

@[simp] theorem stagingLost_outside (h : [.m, .slk, .zn, .pl, .fl, .ecc, .q, .stb, .ci, .free] ⊆ L) (id : Nat) (s : State) :
    outside L (stagingLost id s) = outside L s := by
  refine outside_mono h ?_
  unfold stagingLost
  dsimp only
  repeat' split
  all_goals simp [outside_foldl]

@[simp] theorem readFails_outside (h : [.q, .ga] ⊆ L) (id : Nat) (s : State) : outside L (readFails id s) = outside L s :=
  outside_mono h (by simp [readFails])

@[simp] theorem readRepeats_outside (h : [.q, .ga] ⊆ L) (id : Nat) (s : State) : outside L (readRepeats id s) = outside L s :=
  outside_mono h (by simp [readRepeats])

@[simp] theorem hhFails_outside (h : [.q, .ga] ⊆ L) (id : Nat) (s : State) : outside L (hhFails id s) = outside L s :=
  outside_mono h (by simp [hhFails])

@[simp] theorem queuePass_outside (h : [.fl, .ecc] ⊆ L) (p : Pass) (s : State) : outside L (queuePass p s) = outside L s := by
  refine outside_mono h ?_
  unfold queuePass
  repeat' split
  all_goals simp

@[simp] theorem currycombOn_outside (h : [.fl, .ecc, .q, .stb, .ci] ⊆ L) (k : Ctx) (s : State) : outside L (currycombOn k s) = outside L s := by
  refine outside_mono h ?_
  unfold currycombOn
  dsimp only
  repeat' split
  all_goals simp

@[simp] theorem resizePaddock_outside (h : [.pl, .stb] ⊆ L) (s : State) : outside L (resizePaddock s) = outside L s := by
  refine outside_mono h ?_
  unfold resizePaddock
  dsimp only
  split_ifs <;> simp

@[simp] theorem takeSurvey_outside (h : [.ecc] ⊆ L) (p : Pass) (s : State) : outside L (takeSurvey p s) = outside L s := by
  refine outside_mono h ?_
  unfold takeSurvey
  split <;> simp

/-! ## Flushes -/

@[simp] theorem stopArray_outside (h : [.fl] ⊆ L) (s : State) : outside L (stopArray s) = outside L s := outside_mono h (by simp [stopArray])

@[simp] theorem dropUndecided_outside (h : [.slk, .zn, .pl] ⊆ L) (s : State) : outside L (dropUndecided s) = outside L s :=
  outside_mono h (outside_foldl _ (fun s w => by simp) _ _)

@[simp] theorem tripRecord_outside (h : [.stb] ⊆ L) (die : Nat) (temp : Int) (s : State) : outside L (tripRecord die temp s) = outside L s :=
  outside_mono h (by simp [tripRecord])

@[simp] theorem endDrain_outside (h : [.m, .pins, .stb] ⊆ L) (s : State) : outside L (endDrain s) = outside L s := by
  refine outside_mono h ?_
  unfold endDrain
  split <;> simp

@[simp] theorem beginFlush_outside (h : [.m, .pins, .pw, .slk, .zn, .pl, .fl, .ecc, .q, .stb, .ci, .ga] ⊆ L) (src : Nat) (s : State) :
    outside L (beginFlush src s) = outside L s := by
  refine outside_mono h ?_
  unfold beginFlush
  dsimp only
  simp [outside_foldl, apply_ite (outside _)]

@[simp] theorem sendPf_outside (h : [.stb, .cad] ⊆ L) (s : State) : outside L (sendPf s) = outside L s := outside_mono h (by simp [sendPf])

/-! ## The cadence’s turns -/

@[simp] theorem pfSendNow_outside (h : [.m, .pins, .pw, .slk, .zn, .pl, .fl, .ecc, .q, .stb, .ci, .ga, .cad] ⊆ L) (s : State) :
    outside L (pfSendNow s) = outside L s := by
  refine outside_mono h ?_
  unfold pfSendNow
  split <;> simp

/-! ## The Studbook -/

@[simp] theorem flushStudbook_outside (h : [.stb, .free] ⊆ L) (s : State) : outside L (flushStudbook s) = outside L s := by
  refine outside_mono h ?_
  unfold flushStudbook
  dsimp only
  split <;> simp

@[simp] theorem loadRing_outside (h : [.stb, .free] ⊆ L) (s : State) : outside L (loadRing s) = outside L s := by
  refine outside_mono h ?_
  unfold loadRing
  dsimp only
  split <;> simp

/-! ## The start -/

@[simp] theorem persistStampLife_outside (h : [.jn] ⊆ L) (s : State) : outside L (persistStampLife s) = outside L s :=
  outside_mono h (by simp [persistStampLife])

@[simp] theorem checkpoint_outside (h : [.zn, .stb, .jn, .free] ⊆ L) (s : State) : outside L (checkpoint s) = outside L s :=
  outside_mono h (by simp [checkpoint])

@[simp] theorem cleanClose_outside (h : [.zn, .fl, .stb, .jn, .free] ⊆ L) (s : State) : outside L (cleanClose s) = outside L s :=
  outside_mono h (by simp [cleanClose])

@[simp] theorem rebuildCopy_outside (h : [.jn] ⊆ L) (s : State) : outside L (rebuildCopy s) = outside L s := by
  refine outside_mono h ?_
  unfold rebuildCopy
  split <;> simp

/-! ## Power management -/

@[simp] theorem ageBy_outside (h : [.stb, .ts] ⊆ L) (dt : Nat) (tj : Option Int) (s : State) : outside L (ageBy dt tj s) = outside L s := by
  refine outside_mono h ?_
  unfold ageBy
  dsimp only
  split_ifs <;> simp

@[simp] theorem entryDone_outside (h : [.m, .pins, .pw, .q, .stb, .ci] ⊆ L) (t : Nat) (s : State) : outside L (entryDone t s) = outside L s := by
  refine outside_mono h ?_
  unfold entryDone
  dsimp only
  split_ifs <;> simp

@[simp] theorem reconcile_outside (h : [.tm, .stb, .cad] ⊆ L) (hdr : Option (Nat × Nat)) (s : State) : outside L (reconcile hdr s) = outside L s := by
  refine outside_mono h ?_
  unfold reconcile
  repeat' split
  all_goals simp

@[simp] theorem takeFlash_outside (h : [.pw, .stb] ⊆ L) (l : List (Nat × Nat × Option Int)) (s : State) :
    outside L (takeFlash l s) = outside L s := by
  refine outside_mono h ?_
  unfold takeFlash
  dsimp only
  simp [outside_foldl, apply_ite (outside _)]

@[simp] theorem takeRails_outside (h : [.pw, .stb] ⊆ L) (l : List (Nat × Nat)) (s : State) : outside L (takeRails l s) = outside L s := by
  refine outside_mono h ?_
  unfold takeRails
  dsimp only
  simp [outside_foldl, apply_ite (outside _)]

@[simp] theorem takeTherm_outside (h : [.pw, .stb] ⊆ L) (l : List Therm) (s : State) : outside L (takeTherm l s) = outside L s := by
  refine outside_mono h ?_
  unfold takeTherm
  dsimp only
  simp [outside_foldl, apply_ite (outside _)]

@[simp] theorem throttleStep_outside (h : [.pw, .stb] ⊆ L) (s : State) : outside L (throttleStep s) = outside L s := by
  refine outside_mono h ?_
  unfold throttleStep
  dsimp only
  split_ifs <;> simp

@[simp] theorem endHotFlushes_outside (h : [.q, .stb, .ci] ⊆ L) (s : State) : outside L (endHotFlushes s) = outside L s :=
  outside_mono h (outside_foldl _ (fun s k => by split <;> simp) _ _)

@[simp] theorem thmStep_outside (h : [.m, .pl, .fl, .q, .stb, .ci] ⊆ L) (s : State) : outside L (thmStep s) = outside L s := by
  refine outside_mono h ?_
  unfold thmStep
  dsimp only
  repeat' split
  all_goals simp

@[simp] theorem tmpReport_outside (h : [.q, .stb, .ci] ⊆ L) (s : State) : outside L (tmpReport s) = outside L s := by
  refine outside_mono h ?_
  unfold tmpReport
  dsimp only
  simp [outside_foldl, apply_ite (outside _)]

@[simp] theorem sagStep_outside (h : [.slk, .stb] ⊆ L) (hold : Nat) (s : State) : outside L (sagStep hold s) = outside L s := by
  refine outside_mono h ?_
  unfold sagStep
  dsimp only
  split_ifs <;> simp

@[simp] theorem boardStep_outside (h : [.pw, .slk] ⊆ L) (s : State) : outside L (boardStep s) = outside L s := by
  refine outside_mono h ?_
  unfold boardStep
  dsimp only
  repeat' split
  all_goals simp

/-! ## Ciphers and seals -/

@[simp] theorem sealOn_outside (h : [.zn, .pl, .q, .stb, .ci] ⊆ L) (k : Ctx) (s : State) : outside L (sealOn k s) = outside L s := by
  have hfin : [.q, .stb, .ci] ⊆ L := List.Subset.trans (by decide) h
  have hq : [.q] ⊆ L := List.Subset.trans (by decide) h
  have hz : [.zn] ⊆ L := List.Subset.trans (by decide) h
  have hfull : [.zn, .pl] ⊆ L := List.Subset.trans (by decide) h
  have hci : [.ci] ⊆ L := List.Subset.trans (by decide) h
  unfold sealOn
  extract_lets c
  clear_value c
  split
  · exact denyPerm_outside hfin ..
  refine withNs_outside hfin _ _ _ fun n => ?_
  split
  · exact fin_outside hfin ..
  split
  · exact fin_outside hfin ..
  split
  · exact fin_outside hfin ..
  split
  · exact fin_outside hfin ..
  split
  · exact fin_outside hfin ..
  split
  · exact fin_outside hfin ..
  split
  · exact fin_outside hfin ..
  split
  · exact refuseSeal_outside hfin ..
  split
  · exact fin_outside hfin ..
  extract_lets s1 _ s2
  have h1 : outside L s1 = outside L s := by
    simp only [s1]
    split
    · exact (sealAfter_outside hz ..).trans (makeFull_outside hfull ..)
    · rfl
  have h2 : outside L s2 = outside L s := (updZone_outside hz ..).trans (Eq.trans (outside_mono hci (by simp)) h1)
  clear_value s2 s1
  split
  · exact h2
  · exact (putCtx_outside hq ..).trans h2

/-! ## Gathers and the maintenance channels -/

@[simp] theorem noteTack_outside (h : [.fl, .stb] ⊆ L) (n : Ns) (es : List GEnt) (e : Nat × Nat) (s : State) :
    outside L (noteTack n es e s) = outside L s := by
  refine outside_mono h ?_
  unfold noteTack
  repeat' split
  all_goals simp

@[simp] theorem gatherOutcome_outside (h : [.zn, .stb, .ci, .free] ⊆ L) (f nsid : Nat) (n : Ns) (es : List GEnt) (rd : Rd) (s : State) :
    outside L (gatherOutcome f nsid n es rd s).2.2 = outside L s := by
  refine outside_mono h ?_
  unfold gatherOutcome
  extract_lets plan ps cs os s1 s2
  have h1 : outside [.zn, .stb, .ci, .free] s1 = outside [.zn, .stb, .ci, .free] s :=
    outside_foldl _ (fun s e => by dsimp only; split_ifs <;> split <;> simp) _ _
  exact Eq.trans (by simp [s2]) h1

@[simp] theorem gatherOn_outside (h : [.q, .stb, .ci] ⊆ L) (sgl : Option Nat) (k : Ctx) (s : State) : outside L (gatherOn sgl k s) = outside L s := by
  refine outside_mono h ?_
  unfold gatherOn
  split
  · simp
  · exact withNs_outside (by simp) _ _ _ fun n => by split_ifs <;> simp

@[simp] theorem dropChan_outside (h : [.ga] ⊆ L) (ch : Nat) (s : State) : outside L (dropChan ch s) = outside L s :=
  outside_mono h (by simp [dropChan])

@[simp] theorem tableFault_outside (h : [.q, .stb, .ci] ⊆ L) (k : Ctx) (e cause : Nat) (s : State) :
    outside L (tableFault k e cause s) = outside L s := outside_mono h (by simp [tableFault])

@[simp] theorem gatherStart_outside (h : [.fl, .q, .stb, .ci, .ga] ⊆ L) (k : Ctx) (ch : Nat) (mem : HostMem) (s : State) :
    outside L (gatherStart k ch mem s) = outside L s := by
  refine outside_mono h ?_
  unfold gatherStart
  dsimp only
  repeat' split
  all_goals simp

@[simp] theorem gatherEnd_outside (h : [.zn, .q, .stb, .ci, .ga, .free] ⊆ L) (k : Ctx) (ch : Nat) (es : List GEnt) (n : Ns) (badBeat : Option Nat)
    (s : State) : outside L (gatherEnd k ch es n badBeat s) = outside L s := by
  have hfin : [.q, .stb, .ci] ⊆ L := List.Subset.trans (by decide) h
  have hout : [.zn, .stb, .ci, .free] ⊆ L := List.Subset.trans (by decide) h
  have hga : [.ga] ⊆ L := List.Subset.trans (by decide) h
  have hst : [.stb] ⊆ L := List.Subset.trans (by decide) h
  unfold gatherEnd
  extract_lets o bad data parts k1 s1 write s2
  have h1 : outside L s1 = outside L s := (outside_foldl _ (fun s e => raise_outside hst ..) _ _).trans (gatherOutcome_outside hout ..)
  have h2 : outside L s2 = outside L s := (dropChan_outside hga ..).trans h1
  have hw : ∀ m, outside L (write m s2) = outside L s := fun m => Eq.trans (outside_mono hga (by simp [write])) h2
  clear_value write s2 s1 k1 parts data bad o
  split
  · exact (postFull_outside hfin ..).trans (hw _)
  · split
    · exact (postFull_outside hfin ..).trans (hw _)
    · exact (postFull_outside hfin ..).trans (hw _)

@[simp] theorem gdcSignal_outside (h : [.q] ⊆ L) (n : Nat) (s : State) : outside L (gdcSignal n s) = outside L s := by
  refine outside_mono h ?_
  unfold gdcSignal
  dsimp only
  split <;> simp

@[simp] theorem gdcFault_outside (h : [.q, .stb, .ga] ⊆ L) (n code entry : Nat) (s : State) : outside L (gdcFault n code entry s) = outside L s :=
  outside_mono h (by simp [gdcFault])

@[simp] theorem gdcBegin_outside (h : [.fl, .q, .stb, .ci, .ga, .free] ⊆ L) (n : Nat) (mem : HostMem) (s : State) :
    outside L (gdcBegin n mem s).1 = outside L s := by
  refine outside_mono h ?_
  unfold gdcBegin
  extract_lets g run
  have hrun : ∀ es rd s, outside [.fl, .q, .stb, .ci, .ga, .free] (run es rd s) = outside [.fl, .q, .stb, .ci, .ga, .free] s :=
    fun es rd s => by simp [run]
  clear_value run g
  split
  · simp
  split
  · simp
  split
  · exact hrun ..
  split
  · simp
  split
  · simp
  dsimp only
  split
  · simp
  split
  · simp
  split
  · simp
  · exact hrun ..

@[simp] theorem gdcLoad_outside (h : [.fl, .q, .stb, .ci, .ga, .free] ⊆ L) (n : Nat) (mem : HostMem) (s : State) :
    outside L (gdcLoad n mem s).1 = outside L s := by
  refine outside_mono h ?_
  unfold gdcLoad
  split <;> simp

@[simp] theorem gdcLink_outside (h : [.fl, .q, .stb, .ci, .ga, .free] ⊆ L) : ∀ (fuel n : Nat) (mem : HostMem) (s : State),
    outside L (gdcLink fuel n mem s) = outside L s
  | 0, _, _, _ => rfl
  | fuel + 1, n, mem, s => by
    have hga : [.ga] ⊆ L := List.Subset.trans (by decide) h
    have hfault : [.q, .stb, .ga] ⊆ L := List.Subset.trans (by decide) h
    have hq : [.q] ⊆ L := List.Subset.trans (by decide) h
    have ih := gdcLink_outside h fuel
    unfold gdcLink
    extract_lets g r
    clear_value r g
    split
    · exact gdcFault_outside hfault ..
    · dsimp only
      repeat' split
      all_goals simp only [ih, gdcFault_outside hfault, updGdc_outside hga, gdcSignal_outside hq, gdcLoad_outside h, releaseLane_outside hga]

@[simp] theorem gdcNext_outside (h : [.fl, .q, .stb, .ci, .ga, .free] ⊆ L) (n : Nat) (mem : HostMem) (s : State) :
    outside L (gdcNext n mem s) = outside L s := by
  refine outside_mono h ?_
  unfold gdcNext
  dsimp only
  split <;> simp

@[simp] theorem gdcWrite_outside (h : [.ci, .ga] ⊆ L) (n : Nat) (bytes : List Byte) (s : State) : outside L (gdcWrite n bytes s) = outside L s := by
  refine outside_mono h ?_
  unfold gdcWrite
  dsimp only
  simp [outside_foldl]

@[simp] theorem gdcPark_outside (h : [.zn, .stb, .ci, .ga, .free] ⊆ L) (n moved : Nat) (mem : HostMem) (s : State) :
    outside L (gdcPark n moved mem s) = outside L s := by
  refine outside_mono h ?_
  unfold gdcPark
  dsimp only
  repeat' split
  all_goals simp

@[simp] theorem gdcCtl_outside (h : [.zn, .fl, .q, .stb, .ci, .ga, .free] ⊆ L) (n v moved : Nat) (mem : HostMem) (s : State) :
    outside L (gdcCtl n v moved mem s) = outside L s := by
  have hbeg : [.fl, .q, .stb, .ci, .ga, .free] ⊆ L := List.Subset.trans (by decide) h
  have hpark : [.zn, .stb, .ci, .ga, .free] ⊆ L := List.Subset.trans (by decide) h
  have hga : [.ga] ⊆ L := List.Subset.trans (by decide) h
  unfold gdcCtl
  extract_lets g t hh
  have ht : outside L t.1 = outside L s := (gdcBegin_outside hbeg ..).trans (updGdc_outside hga ..)
  clear_value hh t g
  split
  · rfl
  split
  · split
    · split
      · exact (gdcNext_outside hbeg ..).trans ht
      · exact ht
    · rfl
  split
  · split
    · exact gdcPark_outside hpark ..
    · rfl
  split
  · split
    · exact updGdc_outside hga ..
    · split
      · exact (requestLane_outside hga ..).trans (updGdc_outside hga ..)
      · split
        · exact gdcLink_outside hbeg ..
        · rfl
  split
  · split
    · exact updGdc_outside hga ..
    · rfl
  split
  · exact updGdc_outside hga ..
  · rfl

/-! ## Resets of functions -/

@[simp] theorem freezeEnd_outside (h : [.q, .stb, .ci] ⊆ L) (f : Nat) (k : Ctx) (s : State) : outside L (freezeEnd f k s) = outside L s :=
  outside_mono h (by simp [freezeEnd])

@[simp] theorem freezeQuiet_outside (h : [.q, .stb, .ci] ⊆ L) (f : Nat) (s : State) : outside L (freezeQuiet f s) = outside L s := by
  unfold freezeQuiet
  split
  · exact outside_foldl _ (fun s k => freezeEnd_outside h ..) _ _
  · rfl

@[simp] theorem stallReset_outside (h : [.pw, .slk, .zn, .pl, .fl, .ecc, .q, .stb, .ci, .ga] ⊆ L) (f kind : Nat) (s : State) :
    outside L (stallReset f kind s) = outside L s := outside_mono h (by simp [stallReset])

@[simp] theorem stallGone_outside (h : [.slk, .q, .stl] ⊆ L) (f : Nat) (s : State) : outside L (stallGone f s) = outside L s :=
  outside_mono h (by simp [stallGone])

@[simp] theorem removeStalls_outside (h : [.pw, .slk, .zn, .pl, .fl, .ecc, .q, .stb, .stl, .ci, .ga] ⊆ L) (cause kind : Nat) (s : State) :
    outside L (removeStalls cause kind s) = outside L s := by
  refine outside_mono h ?_
  unfold removeStalls
  dsimp only
  simp [outside_foldl, apply_ite (outside _)]

@[simp] theorem ctrlReset_outside (h : [.pw, .slk, .zn, .pl, .fl, .ecc, .q, .stb, .ci, .ga, .cad] ⊆ L) (f : Nat) (s : State) :
    outside L (ctrlReset f s) = outside L s :=
  outside_mono h (by unfold ctrlReset; dsimp only; split <;> simp [ownerRegs_outside])

@[simp] theorem clearCc_outside (h : [.q] ⊆ L) (f : Nat) (s : State) : outside L (clearCc f s) = outside L s := outside_mono h (by simp [clearCc])

@[simp] theorem pfReset_outside (h : [.pw, .slk, .zn, .pl, .fl, .ecc, .q, .stb, .stl, .ci, .ga, .cad] ⊆ L) (f cause : Nat) (s : State) :
    outside L (pfReset f cause s) = outside L s := by
  refine outside_mono h ?_
  unfold pfReset
  split <;> simp

/-! ## Stalls -/

@[simp] theorem freezeOn_outside (h : [.fl, .ecc, .q, .stb, .stl, .ci] ⊆ L) (k : Ctx) (s : State) : outside L (freezeOn k s) = outside L s := by
  refine outside_mono h ?_
  unfold freezeOn
  dsimp only
  simp [outside_foldl, apply_ite (outside _)]

@[simp] theorem blobLoad_outside (h : [.slk, .q, .stb, .ci, .free] ⊆ L) (f : Nat) (b : List Byte) (s : State) :
    outside L (blobLoad f b s) = outside L s := by
  refine outside_mono h ?_
  unfold blobLoad
  dsimp only
  simp [outside_foldl]

@[simp] theorem blobMove_outside (h : [.zn, .ci] ⊆ L) (src f : Nat) (s : State) : outside L (blobMove src f s) = outside L s :=
  outside_mono h (by simp [blobMove])

@[simp] theorem restoreOn_outside (h : [.pw, .slk, .zn, .q, .stb, .ci, .free] ⊆ L) (b : List Byte) (k : Ctx) (s : State) :
    outside L (restoreOn b k s) = outside L s := by
  refine outside_mono h ?_
  unfold restoreOn
  dsimp only
  repeat' split
  all_goals simp

@[simp] theorem stallRun_outside (h : [.pw, .slk, .zn, .fl, .ecc, .q, .stb, .stl, .ci, .free] ⊆ L) (b : List Byte) (k : Ctx) (s : State) :
    outside L (stallRun b k s) = outside L s :=
  outside_mono h (by unfold stallRun; split_ifs <;> simp [srOn_outside, thawOn_outside, saveOn_outside])

@[simp] theorem stallDrain_outside (h : [.pw, .slk, .zn, .fl, .ecc, .q, .stb, .stl, .ci, .free] ⊆ L) (f : Nat) : ∀ (n : Nat) (s : State),
    outside L (stallDrain f n s) = outside L s
  | 0, _ => rfl
  | n + 1, s => by
    unfold stallDrain
    split
    · rfl
    · split
      · exact (stallDrain_outside h f n _).trans (stallRun_outside h ..)
      · rfl

/-! ## Queues -/

@[simp] theorem postHeld_outside (h : [.q] ⊆ L) (f qid : Nat) (s : State) : outside L (postHeld f qid s) = outside L s := by
  unfold postHeld
  split
  · rfl
  · refine (outside_foldl _ (fun s e => ?_) _ _).trans (updFn_outside h ..)
    dsimp only
    split
    · split
      · exact (dropCtx_outside h ..).trans (cqPush_outside h ..)
      · exact cqPush_outside h ..
    · exact cqPush_outside h ..

/-! ### Accesses that follow one another -/

theorem plainWake_of_pw {s t : State} (h : t.pw = s.pw) (hs : plainWake s) : plainWake t := by
  unfold plainWake
  rw [h]
  exact hs

theorem repower_plainWake {s : State} (hs : plainWake s) : plainWake (repower s) := by
  unfold repower
  split
  · rename_i hp
    unfold setPs
    split
    · exact hs
    · exact .inl (Nat.le_succ_of_le hp.2.2)
  · exact hs

theorem accrue_retLost (s : State) : (accrue s).pw.retLost = s.pw.retLost ∧ (accrue s).pw.ps = s.pw.ps := by
  unfold accrue
  extract_lets k dt
  clear_value dt k
  split
  · exact ⟨rfl, rfl⟩
  · exact ⟨rfl, rfl⟩

theorem wake_plainWake (cause : Nat) {s : State} (hs : plainWake s) : plainWake (wake cause s) := by
  have hps : ¬ (s.pw.ps = 4 ∧ s.pw.retLost = true) := by rintro ⟨h4, hr⟩; rcases hs with hs | hs <;> simp_all
  unfold wake
  dsimp only
  split
  · exact hs
  split
  · exact hs
  split
  · exact hs
  split
  · simp_all
  · unfold plainWake
    simp only [accrue_retLost]
    split <;> exact hs

theorem touch_plainWake (f : Nat) {s : State} (hs : plainWake s) : plainWake (touch f s) := by
  unfold touch
  split
  · refine repower_plainWake (wake_plainWake 1 ?_)
    split
    · exact hs
    · exact hs
  · exact hs

theorem ownerRegs_plainWake {s : State} (hs : plainWake s) : plainWake (ownerRegs s) := by
  have lanes : ((List.range 16).foldl (fun s n => releaseLane (48 + n) s) s).pw = s.pw :=
    keeps_of_outside (x := .pw) (L := [.ga]) (outside_foldl _ (fun s n => releaseLane_outside (by simp) ..) _ _) (by decide)
  unfold plainWake ownerRegs
  dsimp only
  rw [lanes]
  exact hs

theorem ctrlReset_plainWake (f : Nat) {s : State} (hs : plainWake s) : plainWake (ctrlReset f s) := by
  have fenced : (fenceFn f s).pw = s.pw := keeps_of_outside (x := .pw) (fenceFn_outside (List.Subset.refl _) f s) (by decide)
  unfold ctrlReset
  refine repower_plainWake ?_
  split
  · exact ownerRegs_plainWake (plainWake_of_pw (show (raise ..).pw = _ from fenced) hs)
  · exact plainWake_of_pw (show (raise ..).pw = _ from fenced) hs

theorem stallReset_plainWake (f kind : Nat) {s : State} (hs : plainWake s) : plainWake (stallReset f kind s) := by
  have fenced : (fenceFn f s).pw = s.pw := keeps_of_outside (x := .pw) (fenceFn_outside (List.Subset.refl _) f s) (by decide)
  unfold stallReset
  extract_lets n s1 _ _ s2 s3
  have h2 : s2.pw = s1.pw := keeps_of_outside (x := .pw) (L := [.zn, .ci]) ((clearSlots_outside (by simp) ..).trans (by simp)) (by decide)
  have h3 : s3.pw = s.pw := h2.trans fenced
  clear_value s3
  exact plainWake_of_pw (keeps_of_outside (x := .pw) (freezeQuiet_outside (List.Subset.refl _) f _) (by decide))
    (repower_plainWake (plainWake_of_pw h3 hs))

theorem clearCc_pw (f : Nat) (s : State) : (clearCc f s).pw = s.pw :=
  keeps_of_outside (x := .pw) (clearCc_outside (List.Subset.refl _) f s) (by decide)

theorem removeStalls_plainWake (cause kind : Nat) {s : State} (hs : plainWake s) : plainWake (removeStalls cause kind s) := by
  have gone : ∀ f s, (stallGone f s).pw = s.pw := fun f s => keeps_of_outside (x := .pw) (stallGone_outside (List.Subset.refl _) f s) (by decide)
  have all : ∀ (l : List Nat) {s : State}, plainWake s → plainWake (l.foldl (fun s f => stallGone f (stallReset f kind s)) s) := by
    intro l
    induction l with
    | nil => exact fun hs => hs
    | cons f l ih => exact fun hs => ih (plainWake_of_pw (gone ..) (stallReset_plainWake f kind hs))
  unfold removeStalls
  split
  · exact hs
  · exact all _ hs

theorem pfReset_plainWake (f cause : Nat) {s : State} (hs : plainWake s) : plainWake (pfReset f cause s) := by
  unfold pfReset
  refine plainWake_of_pw (clearCc_pw ..) (ctrlReset_plainWake f ?_)
  split
  · exact removeStalls_plainWake cause 3 hs
  · exact hs

theorem shutNow_plainWake (f : Nat) {s : State} (hs : plainWake s) : plainWake (shutNow f s) :=
  plainWake_of_pw (keeps_of_outside (x := .pw) (shutNow_outside (List.Subset.refl _) f s) (by decide)) hs

theorem enableNow_outside (h : [.pw, .slk, .q, .stb, .jn] ⊆ L) (f : Nat) {s : State} (hs : plainWake s) :
    outside L (enableNow f s) = outside L s := by
  have hp := enabling_plainWake (f := f) hs
  have hen : outside [.pw, .slk, .q, .stb, .jn] (enabling f s) = outside [.pw, .slk, .q, .stb, .jn] s := by
    unfold enabling
    dsimp only
    split <;> simp
  have hw : outside [.pw, .slk, .q, .stb, .jn] (repower (wake 1 (enabling f s))) = outside [.pw, .slk, .q, .stb, .jn] s := by
    rw [repower_outside (by simp), wake_outside (by simp) 1 hp, hen]
  have eq : enableNow f s = (let t := repower (wake 1 (enabling f s))
      if t.m.cur.ready && t.m.drain == .none then
        { t with jn := { t.jn with admOff := false }, slk := { t.slk with admissionOff := false } } else t) := rfl
  rw [eq]
  refine outside_mono h ?_
  dsimp only
  split
  · exact Eq.trans (by simp) hw
  · exact hw

theorem enableNow_plainWake (f : Nat) {s : State} (hs : plainWake s) : plainWake (enableNow f s) := by
  have eq : enableNow f s = (let t := repower (wake 1 (enabling f s))
      if t.m.cur.ready && t.m.drain == .none then
        { t with jn := { t.jn with admOff := false }, slk := { t.slk with admissionOff := false } } else t) := rfl
  have hw := repower_plainWake (wake_plainWake 1 (enabling_plainWake (f := f) hs))
  rw [eq]
  dsimp only
  split
  · exact hw
  · exact hw

/-- A write of CC: an enable or a reset, and a shutdown. -/
theorem ccWrite_cases (f v : Nat) (s : State) : ∃ t u, t.pw = s.pw ∧ (∀ {L}, [.q] ⊆ L → outside L t = outside L s) ∧
    (u = t ∨ u = holdWr f (.ccEn (bit v 0)) t ∨ u = enableNow f t ∨ u = updFn f (fun n => { n with shn := bits v 15 14 }) (ctrlReset f t)) ∧
    (ccWrite f v s = u ∨ ccWrite f v s = holdWr f (.shn (bits v 15 14)) u ∨ ccWrite f v s = shutNow f u) := by
  unfold ccWrite
  extract_lets n en shn act s1 t s2
  refine ⟨s1, s2, rfl, fun h => updFn_outside h .., ?_, ?_⟩
  · simp only [s2]
    split_ifs
    · exact .inl rfl
    · exact .inr (.inl rfl)
    · exact .inr (.inr (.inl rfl))
    · exact .inr (.inr (.inr rfl))
  · split_ifs
    · exact .inr (.inl rfl)
    · exact .inr (.inr rfl)
    · exact .inl rfl

theorem ccWrite_outside (h : [.pw, .slk, .zn, .pl, .fl, .ecc, .q, .stb, .jn, .ci, .ga, .cad] ⊆ L) (f v : Nat) {s : State} (hs : plainWake s) :
    outside L (ccWrite f v s) = outside L s := by
  have hq : [.q] ⊆ L := List.Subset.trans (by decide) h
  have hen : [.pw, .slk, .q, .stb, .jn] ⊆ L := List.Subset.trans (by decide) h
  have hreset : [.pw, .slk, .zn, .pl, .fl, .ecc, .q, .stb, .ci, .ga, .cad] ⊆ L := List.Subset.trans (by decide) h
  have hshut : [.slk, .q, .jn] ⊆ L := List.Subset.trans (by decide) h
  obtain ⟨t, u, hpw, ht, hu, hv⟩ := ccWrite_cases f v s
  have hu' : outside L u = outside L s := by
    refine Eq.trans ?_ (ht hq)
    rcases hu with rfl | rfl | rfl | rfl
    · rfl
    · exact holdWr_outside hq ..
    · exact enableNow_outside hen f (plainWake_of_pw hpw hs)
    · exact (updFn_outside hq ..).trans (ctrlReset_outside hreset ..)
  rcases hv with hv | hv | hv
  · rw [hv, hu']
  · rw [hv, holdWr_outside hq, hu']
  · rw [hv, shutNow_outside hshut, hu']

theorem ccWrite_plainWake (f v : Nat) {s : State} (hs : plainWake s) : plainWake (ccWrite f v s) := by
  obtain ⟨t, u, hpw, _, hu, hv⟩ := ccWrite_cases f v s
  have ht := plainWake_of_pw hpw hs
  have hu' : plainWake u := by
    rcases hu with rfl | rfl | rfl | rfl
    · exact ht
    · exact ht
    · exact enableNow_plainWake f ht
    · exact ctrlReset_plainWake f ht
  rcases hv with hv | hv | hv
  · rw [hv]; exact hu'
  · rw [hv]; exact hu'
  · rw [hv]; exact shutNow_plainWake f hu'

theorem heldNow_plainWake (f : Nat) (w : HeldWr) {s : State} (hs : plainWake s) : plainWake (heldNow f w s) := by
  unfold heldNow
  repeat' split
  · exact hs
  · exact enableNow_plainWake f hs
  · exact ctrlReset_plainWake f hs
  · exact pfReset_plainWake f 1 hs
  · exact plainWake_of_pw (clearCc_pw ..) (stallReset_plainWake f 0 hs)
  · exact shutNow_plainWake f hs

theorem heldNow_outside (h : [.pw, .slk, .zn, .pl, .fl, .ecc, .q, .stb, .jn, .stl, .ci, .ga, .cad] ⊆ L) (f : Nat) (w : HeldWr) {s : State}
    (hs : plainWake s) : outside L (heldNow f w s) = outside L s := by
  have hq : [.q] ⊆ L := List.Subset.trans (by decide) h
  have hen : [.pw, .slk, .q, .stb, .jn] ⊆ L := List.Subset.trans (by decide) h
  have hreset : [.pw, .slk, .zn, .pl, .fl, .ecc, .q, .stb, .ci, .ga, .cad] ⊆ L := List.Subset.trans (by decide) h
  have hpf : [.pw, .slk, .zn, .pl, .fl, .ecc, .q, .stb, .stl, .ci, .ga, .cad] ⊆ L := List.Subset.trans (by decide) h
  have hstall : [.pw, .slk, .zn, .pl, .fl, .ecc, .q, .stb, .ci, .ga] ⊆ L := List.Subset.trans (by decide) h
  have hshut : [.slk, .q, .jn] ⊆ L := List.Subset.trans (by decide) h
  unfold heldNow
  repeat' split
  · rfl
  · exact enableNow_outside hen f hs
  · exact ctrlReset_outside hreset ..
  · exact pfReset_outside hpf ..
  · exact (clearCc_outside hq ..).trans (stallReset_outside hstall ..)
  · exact shutNow_outside hshut ..

@[simp] theorem deleteSqOn_outside (h : [.q, .stb, .ci] ⊆ L) (k : Ctx) (s : State) : outside L (deleteSqOn k s) = outside L s := by
  refine outside_mono h ?_
  unfold deleteSqOn
  dsimp only
  simp [outside_foldl, apply_ite (outside _)]

/-! ## Administration -/

@[simp] theorem putFeat_outside (h : [.q, .stb, .ci] ⊆ L) (k : Ctx) (g : Feats → Feats) (s : State) : outside L (putFeat k g s) = outside L s :=
  outside_mono h (by simp [putFeat])

@[simp] theorem abortOn_outside (h : [.fl, .ecc, .q, .stb, .ci] ⊆ L) (k : Ctx) (s : State) : outside L (abortOn k s) = outside L s := by
  refine outside_mono h ?_
  unfold abortOn
  dsimp only
  repeat' split
  all_goals simp

@[simp] theorem endFw_outside (h : [.q, .stb, .ci] ⊆ L) (q sct sc : Nat) (s : State) : outside L (endFw q sct sc s) = outside L s := by
  refine outside_mono h ?_
  unfold endFw
  split <;> simp

/-! ## Registers -/

@[simp] theorem writeCadCtl_outside (h : [.m, .pins, .tm, .pw, .slk, .zn, .pl, .fl, .ecc, .q, .stb, .ci, .ga, .cad, .free] ⊆ L) (v : Nat)
    (s : State) : outside L (writeCadCtl v s) = outside L s := by
  refine outside_mono h ?_
  unfold writeCadCtl
  split_ifs <;> simp

@[simp] theorem writeRootCfg_outside (h : [.cad] ⊆ L) (v : Nat) (s : State) : outside L (writeRootCfg v s) = outside L s :=
  outside_mono h (by simp [writeRootCfg])

@[simp] theorem writeEcc_outside (h : [.pl, .ecc] ⊆ L) (off v : Nat) (s : State) : outside L (writeEcc off v s) = outside L s := by
  refine outside_mono h ?_
  unfold writeEcc
  extract_lets e inR y t
  have ht : outside [.pl, .ecc] t = outside [.pl, .ecc] s := by simp [t]
  clear_value t y inR e
  split_ifs
  all_goals simp [ht]

@[simp] theorem writeStl_outside (h : [.stl] ⊆ L) (f o v : Nat) (s : State) : outside L (writeStl f o v s) = outside L s := by
  refine outside_mono h ?_
  unfold writeStl
  split_ifs <;> simp

@[simp] theorem writeCvu_outside (h : [.ci] ⊆ L) (u o v : Nat) (priv : Bool) (s : State) : outside L (writeCvu u o v priv s) = outside L s := by
  refine outside_mono h ?_
  unfold writeCvu
  split_ifs <;> simp

@[simp] theorem writeGdc_outside (h : [.zn, .fl, .q, .stb, .ci, .ga, .free] ⊆ L) (n o v : Nat) (s : State) :
    outside L (writeGdc n o v s) = outside L s := by
  have hga : [.ga] ⊆ L := List.Subset.trans (by decide) h
  unfold writeGdc
  extract_lets g busy put
  have hput : ∀ x, outside L (put x) = outside L s := fun x => by
    simp only [put]
    split
    · rfl
    · exact updGdc_outside hga ..
  clear_value put busy g
  split_ifs <;> simp only [hput, gdcCtl_outside h, updGdc_outside hga]

@[simp] theorem writeFch_outside (h : [.fl] ⊆ L) (c o v : Nat) (s : State) : outside L (writeFch c o v s) = outside L s := by
  refine outside_mono h ?_
  unfold writeFch
  dsimp only
  split_ifs <;> simp

@[simp] theorem writePw_outside (h : [.m, .pins, .tm, .pw, .slk, .zn, .pl, .fl, .ecc, .q, .stb, .stl, .ci, .ga, .cad, .free] ⊆ L) (off v : Nat)
    (s : State) : outside L (writePw off v s) = outside L s := by
  have hslk : [.slk] ⊆ L := List.Subset.trans (by decide) h
  have hcad : [.cad] ⊆ L := List.Subset.trans (by decide) h
  have hpw : [.pw] ⊆ L := List.Subset.trans (by decide) h
  have hctl : [.m, .pins, .tm, .pw, .slk, .zn, .pl, .fl, .ecc, .q, .stb, .ci, .ga, .cad, .free] ⊆ L := List.Subset.trans (by decide) h
  have hci : [.ci] ⊆ L := List.Subset.trans (by decide) h
  have hgdc : [.zn, .fl, .q, .stb, .ci, .ga, .free] ⊆ L := List.Subset.trans (by decide) h
  have hecc : [.pl, .ecc] ⊆ L := List.Subset.trans (by decide) h
  have hstl : [.stl] ⊆ L := List.Subset.trans (by decide) h
  have hfl : [.fl] ⊆ L := List.Subset.trans (by decide) h
  unfold writePw
  extract_lets _ s1
  have h1 : outside L s1 = outside L s := outside_mono hslk (by simp [s1])
  clear_value s1
  exact outside_ite (outside_ite ((proofTrigger_outside hslk ..).trans h1) h1) <|
    outside_ite (writeCadCtl_outside hctl ..) <|
    outside_ite (outside_ite (writeRootCfg_outside hcad ..) rfl) <|
    outside_ite (outside_ite (writeRootEpoch_outside hcad ..) rfl) <|
    outside_ite (outside_ite (writeRootCmd_outside hcad ..) rfl) <|
    outside_ite (outside_ite (outside_mono hcad (by simp)) rfl) <|
    outside_ite (outside_mono hpw (by simp)) <|
    outside_ite (writeCvu_outside hci ..) <|
    outside_ite (writeGdc_outside hgdc ..) <|
    outside_ite (writeEcc_outside hecc ..) <|
    outside_ite (writeStl_outside hstl ..) <|
    outside_ite (writeFch_outside hfl ..) rfl

@[simp] theorem writeW1c_outside (h : [.slk, .fl, .ecc, .ci, .ga] ⊆ L) (off v : Nat) (s : State) : outside L (writeW1c off v s) = outside L s := by
  refine outside_mono h ?_
  unfold writeW1c
  split_ifs <;> simp

@[simp] theorem putTxs_outside (h : [.m, .pins, .tm, .pw, .slk, .zn, .pl, .fl, .ecc, .q, .stb, .stl, .ci, .ga, .cad, .free] ⊆ L) (fn off v : Nat)
    (s : State) : outside L (putTxs fn off v s) = outside L s := by
  refine outside_mono h ?_
  unfold putTxs
  split_ifs <;> simp

@[simp] theorem putPage_outside (h : [.ci] ⊆ L) (f off v : Nat) (s : State) : outside L (putPage f off v s) = outside L s := by
  refine outside_mono h ?_
  unfold putPage
  repeat' split
  all_goals simp

@[simp] theorem putReg_outside (h : [.m, .pins, .tm, .pw, .slk, .zn, .pl, .fl, .ecc, .q, .stb, .stl, .ci, .ga, .cad, .free] ⊆ L) (fn off v : Nat)
    (s : State) : outside L (putReg fn off v s) = outside L s := by
  refine outside_mono h ?_
  unfold putReg
  split <;> simp

@[simp] theorem putDword_outside (h : [.m, .pins, .tm, .pw, .slk, .zn, .pl, .fl, .ecc, .q, .stb, .stl, .ci, .ga, .cad, .rg, .free] ⊆ L) (fn off v : Nat)
    (s : State) : outside L (putDword fn off v s) = outside L s := by
  refine outside_mono h ?_
  unfold putDword
  repeat' split
  all_goals simp

@[simp] theorem bar2Write_outside (h : [.m, .pins, .tm, .pw, .slk, .zn, .pl, .fl, .ecc, .q, .stb, .stl, .ci, .ga, .cad, .rg, .free] ⊆ L) (fn off width v : Nat)
    (s : State) : outside L (bar2Write fn off width v s) = outside L s := by
  refine outside_mono h ?_
  unfold bar2Write
  repeat' split
  all_goals simp

@[simp] theorem msixWrite_outside (h : [.q] ⊆ L) (f i v : Nat) (s : State) : outside L (msixWrite f i v s) = outside L s := by
  refine outside_mono h ?_
  unfold msixWrite
  split <;> simp

theorem bar0Write_outside (h : [.pw, .slk, .zn, .pl, .fl, .ecc, .q, .stb, .jn, .ci, .ga, .cad] ⊆ L) (f off v : Nat) {s : State} (hs : plainWake s) :
    outside L (bar0Write f off v s) = outside L s := by
  have hq : [.q] ⊆ L := List.Subset.trans (by decide) h
  unfold bar0Write
  dsimp only
  split
  · exact msixWrite_outside hq ..
  split
  · exact ccWrite_outside h f v hs
  · exact updFn_outside hq ..
  · exact updFn_outside hq ..
  · exact updFn_outside hq ..
  · exact updFn_outside hq ..
  · exact updFn_outside hq ..
  · rfl

theorem bar0Write_plainWake (f off v : Nat) {s : State} (hs : plainWake s) : plainWake (bar0Write f off v s) := by
  unfold bar0Write
  dsimp only
  split
  · exact plainWake_of_pw (keeps_of_outside (x := .pw) (msixWrite_outside (List.Subset.refl _) ..) (by decide)) hs
  split
  · exact ccWrite_plainWake f v hs
  · exact hs
  · exact hs
  · exact hs
  · exact hs
  · exact hs
  · exact hs

/-! ## The test port -/

@[simp] theorem enterTest_outside (h : [.m, .pins, .tm, .pw, .slk, .zn, .pl, .fl, .ecc, .q, .stb, .ci, .ga, .cad] ⊆ L) (cause : Nat) (s : State) :
    outside L (enterTest cause s) = outside L s := by
  refine outside_mono h ?_
  unfold enterTest
  dsimp only
  split <;> simp

@[simp] theorem beginTestDrain_outside (h : [.m, .pins, .slk, .q, .stb, .ci] ⊆ L) (s : State) : outside L (beginTestDrain s) = outside L s :=
  outside_mono h (by simp [beginTestDrain])

@[simp] theorem fpEnds_outside (h : [.stb, .ts] ⊆ L) (blocks failed worst tack : Nat) (fail : Bool) (s : State) :
    outside L (fpEnds blocks failed worst tack fail s) = outside L s := outside_mono h (by simp [fpEnds])

/-! ## Bring-up -/

@[simp] theorem reErase_outside (h : [.zn, .pl, .fl] ⊆ L) (key : Nat) (s : State) : outside L (reErase key s) = outside L s := by
  refine outside_mono h ?_
  unfold reErase
  dsimp only
  split <;> simp

@[simp] theorem reEraseAll_outside (h : [.m, .zn, .pl, .fl, .q, .stb, .jn, .ci] ⊆ L) (bad : List (Nat × Nat × Nat)) (s : State) :
    outside L (reEraseAll bad s) = outside L s :=
  outside_mono h (outside_foldl _ (fun s k => by split <;> simp) _ _)

@[simp] theorem cutRecovery_outside (h : [.zn, .pl, .fl, .free] ⊆ L) (s : State) : outside L (cutRecovery s) = outside L s := by
  refine outside_mono h ?_
  unfold cutRecovery
  split
  · exact (outside_foldl _ (fun s k => by simp) _ _).trans (by simp)
  · rfl

@[simp] theorem tornPage_outside (h : [.jn, .free] ⊆ L) (s : State) : outside L (tornPage s) = outside L s := by
  refine outside_mono h ?_
  unfold tornPage
  split <;> simp

@[simp] theorem portReset_outside (h : [.pw, .slk, .zn, .pl, .fl, .ecc, .q, .stb, .stl, .ci, .ga, .cad] ⊆ L) (port : Nat) (s : State) :
    outside L (portReset port s) = outside L s := by
  refine outside_mono h ?_
  unfold portReset
  dsimp only
  split_ifs <;> simp

@[simp] theorem slotRecord_outside (h : [.stb] ⊆ L) (noimg : Bool) (slot : Nat) (r : SlotRead) (s : State) :
    outside L (slotRecord noimg slot r s) = outside L s := by
  refine outside_mono h ?_
  unfold slotRecord
  split <;> simp

@[simp] theorem startFw_outside (h : [.q, .stb] ⊆ L) (fwOk : Bool) (s : State) : outside L (startFw fwOk s) = outside L s := by
  refine outside_mono h ?_
  unfold startFw
  dsimp only
  split <;> simp

@[simp] theorem takeLuns_outside (h : [.fl] ⊆ L) (rs : List (Nat × Bool)) (s : State) : outside L (takeLuns rs s) = outside L s :=
  outside_mono h (by simp [takeLuns])

@[simp] theorem trainChannel_outside (h : [.fl, .stb] ⊆ L) (t : ChTrain) (rs : List LunReport) (s : State) :
    outside L (trainChannel t rs s) = outside L s := by
  refine outside_mono h ?_
  unfold trainChannel
  dsimp only
  repeat' split
  all_goals simp

@[simp] theorem setApart_outside (h : [.fl] ⊆ L) (d b : Nat) (r : Role) (st : BSt) (s : State) : outside L (setApart d b r st s) = outside L s :=
  outside_mono h (by simp [setApart])

@[simp] theorem layTack_outside (h : [.fl] ⊆ L) (d : Nat) (s : State) : outside L (layTack d s) = outside L s := by
  refine outside_mono h ?_
  unfold layTack
  dsimp only
  simp [outside_foldl]

@[simp] theorem layCalib_outside (h : [.fl] ⊆ L) (ch : Nat) (s : State) : outside L (layCalib ch s) = outside L s := by
  refine outside_mono h ?_
  unfold layCalib
  dsimp only
  repeat' split
  all_goals simp

@[simp] theorem factoryLayout_outside (h : [.pl, .fl, .jn] ⊆ L) (s : State) : outside L (factoryLayout s) = outside L s := by
  refine outside_mono h ?_
  unfold factoryLayout
  dsimp only
  simp [outside_foldl, apply_ite (outside _)]

@[simp] theorem sizePaddock_outside (h : [.pl, .stb] ⊆ L) (s : State) : outside L (sizePaddock s) = outside L s :=
  outside_mono h (by simp [sizePaddock])

@[simp] theorem tablesMeetFlash_outside (h : [.m, .slk, .pl, .fl, .q, .stb, .jn, .ci] ⊆ L) (s : State) :
    outside L (tablesMeetFlash s) = outside L s := by
  refine outside_mono h ?_
  unfold tablesMeetFlash
  split_ifs <;> simp

@[simp] theorem useCalib_outside (h : [.fl] ⊆ L) (key : Nat) (s : State) : outside L (useCalib key s) = outside L s := by
  refine outside_mono h ?_
  unfold useCalib
  dsimp only
  repeat' split
  all_goals simp

@[simp] theorem resumeParity_outside (h : [.fl] ⊆ L) (id : Nat) (p : Pen) (s : State) : outside L (resumeParity id p s) = outside L s := by
  refine outside_mono h ?_
  unfold resumeParity
  dsimp only
  simp [outside_foldl, apply_ite (outside _)]

@[simp] theorem resumeMedia_outside (h : [.pl, .fl] ⊆ L) (s : State) : outside L (resumeMedia s) = outside L s := by
  have hpl : [.pl] ⊆ L := List.Subset.trans (by decide) h
  have hlp : [.fl, .pl] ⊆ L := List.Subset.trans (by decide) h
  have hfl : [.fl] ⊆ L := List.Subset.trans (by decide) h
  unfold resumeMedia
  extract_lets shut _ s1 s2 s3
  have h1 : outside L s1 = outside L s := outside_mono hpl (by simp [s1])
  have h2 : outside L s2 = outside L s := by
    refine (outside_foldl _ (fun s p => ?_) _ _).trans h1
    split
    · exact outside_foldl _ (fun s m => outside_ite rfl (queueErase_outside hlp ..)) _ _
    · split
      · rfl
      · exact outside_foldl _ (fun s m => readyBlock_outside hlp ..) _ _
  have h3 : outside L s3 = outside L s := by
    refine (outside_foldl _ (fun s k => ?_) _ _).trans ((outside_foldl _ (fun s p => resumeParity_outside hfl ..) _ _).trans h2)
    exact outside_ite rfl (queueErase_outside hlp ..)
  exact (outside_foldl _ (fun s d => refillLists_outside hfl ..) _ _).trans h3

@[simp] theorem startEnds_outside (h : [.m, .st, .slk, .zn, .pl, .fl, .ecc, .q, .stb, .jn, .ci] ⊆ L) (s : State) :
    outside L (startEnds s) = outside L s := by
  refine outside_mono h ?_
  unfold startEnds
  dsimp only
  simp [outside_foldl, apply_ite (outside _)]

@[simp] theorem lostRecords_outside (h : [.stb] ⊆ L) (l : Lost) (s : State) : outside L (lostRecords l s) = outside L s := by
  refine outside_mono h ?_
  unfold lostRecords
  dsimp only
  simp [outside_foldl, apply_ite (outside _)]

@[simp] theorem returnUnits_outside (h : [.zn, .ecc, .stb, .free] ⊆ L) (l : Lost) (s : State) : outside L (returnUnits l s) = outside L s :=
  outside_foldl _ (fun _ _ => restoreOld_outside h ..) _ _

@[simp] theorem flushShortWork_outside (h : [.m, .st, .slk, .zn, .ecc, .q, .stb, .jn, .ci, .free] ⊆ L) (lost : List Lost) (s : State) :
    outside L (flushShortWork lost s) = outside L s := by
  refine outside_mono h ?_
  unfold flushShortWork
  dsimp only
  simp [outside_foldl, apply_ite (outside _)]

@[simp] theorem confirmNext_outside (h : [.zn, .fl] ⊆ L) (dead : List (Nat × Nat × Nat × Nat)) (s : State) :
    outside L (confirmNext dead s) = outside L s := by
  refine outside_mono h ?_
  unfold confirmNext
  dsimp only
  simp [outside_foldl]

@[simp] theorem closeZones_outside (h : [.zn, .pl, .fl, .stb] ⊆ L) (s : State) : outside L (closeZones s) = outside L s := by
  refine outside_mono h ?_
  unfold closeZones
  extract_lets _ s1
  refine (outside_foldl _ (fun s z => ?_) _ _).trans (by simp [s1])
  split
  · dsimp only
    split <;> simp
  · rfl

@[simp] theorem faultWork_outside (h : [.st, .zn, .pl, .fl, .ecc, .stb, .free] ⊆ L) (f : JFault) (s : State) :
    outside L (faultWork f s) = outside L s := by
  refine outside_mono h ?_
  unfold faultWork
  dsimp only
  repeat' split
  all_goals simp [outside_foldl]

@[simp] theorem programNow_outside (h : [.pl, .fl] ⊆ L) (id : Nat) (s : State) : outside L (programNow id s) = outside L s := by
  refine outside_mono h ?_
  unfold programNow
  dsimp only
  repeat' split
  all_goals simp

/-- A unit of the flush reserve moves to its conventional Pen. -/
theorem moveUnit_outside (h : [.zn, .ecc, .stb, .free] ⊆ L) (g : Nat → Piece → Piece) (u : Nat) (c : CMap → CMap) (s : State) :
    outside L (match Tbl.get? (mapPieces convOwner g s).zn.cmap u with
      | some x => putMap u (c x) (mapPieces convOwner g s)
      | none => mapPieces convOwner g s) = outside L s := by
  have hz : [.zn] ⊆ L := List.Subset.trans (by decide) h
  split
  · exact (putMap_outside h ..).trans (mapPieces_outside hz ..)
  · exact mapPieces_outside hz ..

@[simp] theorem mergeUnits_outside (h : [.zn, .pl, .fl, .ecc, .stb, .free] ⊆ L) (hot : Bool) : ∀ (fuel : Nat) (us : List Nat) (s : State),
    outside L (mergeUnits hot fuel us s) = outside L s
  | 0, us, s => by unfold mergeUnits; rfl
  | fuel + 1, [], s => by unfold mergeUnits; rfl
  | fuel + 1, u :: us, s => by
    have hz : [.zn] ⊆ L := List.Subset.trans (by decide) h
    have hm : [.zn, .ecc, .stb, .free] ⊆ L := List.Subset.trans (by decide) h
    have hp : [.pl, .fl] ⊆ L := List.Subset.trans (by decide) h
    have hcp : [.fl, .pl] ⊆ L := List.Subset.trans (by decide) h
    unfold mergeUnits
    split
    · rfl
    · rename_i hc
      extract_lets n base one
      have hone : ∀ s e, outside L (one s e) = outside L s := fun s e => moveUnit_outside hm _ _ _ s
      clear_value one
      rw [mergeUnits_outside h hot fuel, lseqNext_outside hz, programNow_outside hp, outside_foldl _ hone, convPen_outside hcp hc]

@[simp] theorem indexFlush_outside (h : [.zn, .pl, .fl, .ecc, .stb, .free] ⊆ L) (s : State) : outside L (indexFlush s) = outside L s := by
  refine outside_mono h ?_
  unfold indexFlush
  extract_lets res us hot cold s1
  refine (outside_foldl _ (fun s r => ?_) _ _).trans (by simp [s1])
  split
  · split
    · rfl
    · simp
  · rfl

@[simp] theorem stopPattern_outside (h : [.ts] ⊆ L) (s : State) : outside L (stopPattern s) = outside L s := outside_mono h (by simp [stopPattern])

theorem takeReserve_outside (h : [.pl] ⊆ L) {n p u : Nat} {s t : State} (ht : takeReserve n s = some (p, u, t)) : outside L t = outside L s := by
  unfold takeReserve at ht
  obtain ⟨q, _, hq⟩ := Option.map_eq_some_iff.mp ht
  cases hq
  exact updPen_outside h ..

theorem flushPiece_newUnit_outside (h : [.slk, .zn, .pl, .ecc, .q, .stb, .ci, .free] ⊆ L) (e : Nat × Nat) (s : State) :
    outside L (flushPiece.newUnit e s).2 = outside L s := by
  have hp : [.pl] ⊆ L := List.Subset.trans (by decide) h
  have hd : [.slk, .zn, .ecc, .q, .stb, .ci, .free] ⊆ L := List.Subset.trans (by decide) h
  unfold flushPiece.newUnit
  split
  · rename_i ht
    exact (pieceDurable_outside hd ..).trans (takeReserve_outside hp ht)
  · rfl

theorem flushPiece_outside (h : [.slk, .zn, .pl, .ecc, .q, .stb, .ci, .free] ⊆ L) (a : Option (Nat × Nat × Nat) × State) (e : Nat × Nat) :
    outside L (flushPiece a e).2 = outside L a.2 := by
  have hp : [.pl] ⊆ L := List.Subset.trans (by decide) h
  have hd : [.slk, .zn, .ecc, .q, .stb, .ci, .free] ⊆ L := List.Subset.trans (by decide) h
  unfold flushPiece
  split
  · rfl
  · split
    · split
      · rename_i ht
        exact (pieceDurable_outside hd ..).trans (takeReserve_outside hp ht)
      · rfl
    · split
      · split
        · exact pieceDurable_outside hd ..
        · exact flushPiece_newUnit_outside h ..
      · exact flushPiece_newUnit_outside h ..

@[simp] theorem closeReserve_outside (h : [.pl, .fl] ⊆ L) (s : State) : outside L (closeReserve s) = outside L s := by
  have members : ∀ (g : Bk → Bk) (l : List (Nat × Nat × Bool)) (s : State), outside [.pl, .fl]
      (l.foldl (fun s m => if m.2.1 = 8191 then s else updBk m.1 m.2.1 g s) s) = outside [.pl, .fl] s :=
    fun g => outside_foldl _ fun s m => by split <;> simp
  refine outside_mono h (outside_foldl _ (fun s r => ?_) _ _)
  split
  · split
    · rfl
    · exact (outside_foldl _ (fun s m => by split <;> simp) _ _).trans (by simp)
  · rfl

@[simp] theorem flushData_outside (h : [.slk, .zn, .pl, .fl, .ecc, .q, .stb, .ci, .free] ⊆ L) (s : State) : outside L (flushData s) = outside L s := by
  refine outside_mono h ?_
  unfold flushData
  extract_lets ws s1 lost s2 s3
  have h1 : outside [.slk, .zn, .pl, .fl, .ecc, .q, .stb, .ci, .free] s1 = outside [.slk, .zn, .pl, .fl, .ecc, .q, .stb, .ci, .free] s :=
    outside_foldl _ (fun s w => outside_foldl_snd _ (fun a q => flushPiece_outside (by simp) ..) _ _) _ _
  have h2 : outside [.slk, .zn, .pl, .fl, .ecc, .q, .stb, .ci, .free] s2 = outside [.slk, .zn, .pl, .fl, .ecc, .q, .stb, .ci, .free] s :=
    (outside_foldl _ (fun s w => by simp) _ _).trans h1
  have h3 : outside [.slk, .zn, .pl, .fl, .ecc, .q, .stb, .ci, .free] s3 = outside [.slk, .zn, .pl, .fl, .ecc, .q, .stb, .ci, .free] s :=
    Eq.trans (by simp [s3]) h2
  exact Eq.trans (by simp) h3

@[simp] theorem flushFixed_outside (h : [.pins, .zn, .pl, .fl, .stb, .jn, .free] ⊆ L) (bytes : Nat) (s : State) :
    outside L (flushFixed bytes s) = outside L s := by
  refine outside_mono h ?_
  unfold flushFixed
  dsimp only
  split <;> simp

@[simp] theorem hotFlush_outside (h : [.fl, .stb] ⊆ L) (temp : Int) (hot : Bool) (s : State) : outside L (hotFlush temp hot s) = outside L s := by
  refine outside_mono h ?_
  unfold hotFlush
  split <;> simp

@[simp] theorem lastFlush_outside (h : [.jn] ⊆ L) (us bytes : Nat) (s : State) : outside L (lastFlush us bytes s) = outside L s := by
  refine outside_mono h ?_
  unfold lastFlush
  split <;> simp

/-! ## Half-hitch -/

@[simp] theorem hhAppendOn_outside (h : [.zn, .pl, .fl, .q, .stb, .ci] ⊆ L) (blks : List Blk) (k : Ctx) (s : State) :
    outside L (hhAppendOn blks k s) = outside L s := by
  have hfin : [.q, .stb, .ci] ⊆ L := List.Subset.trans (by decide) h
  have hact : [.zn, .pl, .fl, .stb] ⊆ L := List.Subset.trans (by decide) h
  have hst : [.stb] ⊆ L := List.Subset.trans (by decide) h
  have hq : [.q] ⊆ L := List.Subset.trans (by decide) h
  unfold hhAppendOn
  extract_lets c
  clear_value c
  split
  · exact denyPerm_outside hfin ..
  refine withNs_outside hfin _ _ _ fun n => ?_
  split
  · exact fin_outside hfin ..
  split
  · exact fin_outside hfin ..
  split
  · exact fin_outside hfin ..
  split
  · exact fin_outside hfin ..
  split
  · exact fin_outside hfin ..
  extract_lets m s1 r
  have hm : outside L m.2 = outside L s := writeModeStatus_outside hst ..
  have hs1 : outside L s1 = outside L s := hm
  have hr : outside L r.2 = outside L s := by
    simp only [r]
    split
    · exact hs1
    · exact (activate_outside hact ..).trans hs1
  clear_value r s1 m
  split
  · exact (fin_outside hfin ..).trans hm
  split
  · exact (fin_outside hfin ..).trans hs1
  split
  · exact (fin_outside hfin ..).trans hs1
  split
  · exact (fin_outside hfin ..).trans hs1
  split
  · exact (refuseSeal_outside hfin ..).trans hs1
  split
  · exact (fin_outside hfin ..).trans hr
  · exact (putCtx_outside hq ..).trans hr

/-- What a half-hitch write does once its zone takes it. -/
theorem hhPlace_outside (h : [.slk, .zn, .pl, .fl, .q, .stb, .ci] ⊆ L) (f : Bool) (wid z : Nat) (s : State) :
    outside L (if f then placeWrite wid (sealAfter z s) else decideAll (sealAfter z s)) = outside L s :=
  outside_mono h (by split <;> simp)

@[simp] theorem hhAccept_outside (h : [.slk, .zn, .pl, .fl, .q, .stb, .ci, .ga] ⊆ L) (mapOk : Bool) (k : Ctx) (n : Ns) (s : State) :
    outside L (hhAccept mapOk k n s) = outside L s := by
  have hfin : [.q, .stb, .ci] ⊆ L := List.Subset.trans (by decide) h
  have hact : [.zn, .pl, .fl, .stb] ⊆ L := List.Subset.trans (by decide) h
  have hst : [.stb] ⊆ L := List.Subset.trans (by decide) h
  have hq : [.q] ⊆ L := List.Subset.trans (by decide) h
  have hga : [.ga] ⊆ L := List.Subset.trans (by decide) h
  have hz : [.zn] ⊆ L := List.Subset.trans (by decide) h
  have hacc : [.zn, .pl] ⊆ L := List.Subset.trans (by decide) h
  have hput : [.slk, .zn, .pl, .fl, .q, .stb, .ci] ⊆ L := List.Subset.trans (by decide) h
  unfold hhAccept
  extract_lets c raw coded spills u
  clear_value u spills coded raw c
  split
  · exact fin_outside hfin ..
  split
  · exact fin_outside hfin ..
  extract_lets +onlyGivenNames m s1 r s2
  have hm : outside L m.2 = outside L s := writeModeStatus_outside hst ..
  have hs1 : outside L s1 = outside L s := hm
  have hr : outside L r.2 = outside L s := by
    simp only [r]
    split
    · exact hs1
    · exact (activate_outside hact ..).trans hs1
  have hs2 : outside L s2 = outside L s := hr
  clear_value s2 r s1 m
  split
  · exact (fin_outside hfin ..).trans hm
  split
  · refine (fin_outside hfin ..).trans ?_
    split
    · exact (raise_outside hst ..).trans hs1
    · exact hs1
  split
  · exact (fin_outside hfin ..).trans hr
  split
  · exact hs2
  extract_lets wid _ st haddr w t1 k1 _ t2 t3
  have h1 : outside L t1 = outside L s := (acceptZone_outside hacc ..).trans (Eq.trans (outside_mono hz (by simp)) hs2)
  have h2 : outside L t2 = outside L s := by
    simp only [t2]
    split
    · exact (putCtx_outside hq ..).trans h1
    · split
      · exact (putCtx_outside hq ..).trans (Eq.trans (outside_mono hga (by simp)) h1)
      · exact (putCtx_outside hq ..).trans h1
  clear_value t2 w
  exact (hhPlace_outside hput ..).trans h2

@[simp] theorem hhReadOn_outside (h : [.q, .stb, .ci] ⊆ L) (k : Ctx) (s : State) : outside L (hhReadOn k s) = outside L s := by
  refine outside_mono h (withNs_outside (by simp) _ _ _ fun n => ?_)
  repeat' split
  all_goals simp

end

end Sys2Proof.Machine

/-! O9, O10. Frames: each command that reaches the zones or the flash leaves the state as it is outside the components `mayChange` names (log 71). -/

namespace Sys2Proof.Machine
open Sys2Proof

section
variable {L : List Comp} {s : State}

/-! ## How meanings end -/

theorem frames_mono {M : List Comp} {o : Out} (h : L ⊆ M) (hf : Frames L s o) : Frames M s o :=
  fun t ht => outside_mono h (hf t ht)

@[simp] theorem frames_doneIo (h : ioComps ⊆ L) (u : State) :
    Frames L s (doneIo u) ↔ outside L u = outside L s := by
  rw [doneIo_after, frames_next, afterIo_outside h]

/-- A command taken from a queue whose end lets the writes that wait proceed. -/
theorem frames_commandIo (h : ioComps ⊆ L) {c : Cmd} {f : Ctx → State → State}
    (hf : ∀ k s, outside L (f k s) = outside L s) : Frames L s (doneIo (withCmd c s f)) := by
  have hc : [.q, .stb, .jn, .ci] ⊆ L := List.Subset.trans (by decide) h
  exact (frames_doneIo h _).mpr (withCmd_outside hc c s f hf)

/-- An I/O command: what it does once the gates let it run. -/
theorem frames_io (h : ioComps ⊆ L) {c : Cmd} {f : Ctx → State → State}
    (hf : ∀ k s, outside L (f k s) = outside L s) : Frames L s (doneIo (withCmd c s (fun k s => gateIo k s f))) := by
  have hd : [.q, .stb, .ci] ⊆ L := List.Subset.trans (by decide) h
  exact frames_commandIo h fun k s => gateIo_outside hd k s f hf

/-- An admin command whose end lets the writes that wait proceed. -/
theorem frames_adminIo (h : ioComps ⊆ L) {c : Cmd} {allowed san : Bool}
    {f : Ctx → State → State} (hf : ∀ k s, outside L (f k s) = outside L s) :
    Frames L s (doneIo (withCmd c s (fun k s => gateAdmin allowed san k s f))) := by
  have hd : [.q, .stb, .ci] ⊆ L := List.Subset.trans (by decide) h
  exact frames_commandIo h fun k s => gateAdmin_outside hd allowed san k s f hf

/-- Set Features. -/
theorem frames_setFeat (h : ioComps ⊆ L) {c : Cmd} {f : Ctx → State → State}
    (hf : ∀ k s, outside L (f k s) = outside L s) : Frames L s (setFeat c s f) := by
  have hd : [.q, .stb, .ci] ⊆ L := List.Subset.trans (by decide) h
  exact frames_adminIo h fun k s => outside_ite (fin_outside hd ..) (hf k s)

/-- A write of a maintenance channel's control register. -/
theorem frames_gdcRow (h : [.m, .pw, .slk, .zn, .pl, .fl, .ecc, .q, .stb, .jn, .ci, .ga, .cad, .free] ⊆ L) (hs : plainWake s)
    (fn ch bitNo : Nat) (v : Dword) (moved : Nat) (mem : HostMem) : Frames L s (gdcRow fn ch bitNo v moved mem s) := by
  have hio : ioComps ⊆ L := List.Subset.trans (by decide) h
  have ht : outside L (touch fn s) = outside L s := touch_outside (List.Subset.trans (by decide) h) fn hs
  have hg : [.zn, .fl, .q, .stb, .ci, .ga, .free] ⊆ L := List.Subset.trans (by decide) h
  unfold gdcRow
  dsimp only
  split
  · exact (frames_doneIo hio _).mpr (outside_ite ((gdcCtl_outside hg ..).trans ht) ht)
  · exact (frames_next s).mpr rfl

/-- An I/O command. -/
theorem io_frames {c : Cmd} {f : Ctx → State → State} (hf : ∀ k s, outside ioComps (f k s) = outside ioComps s) :
    Frames ioComps s (doneIo (withCmd c s (fun k s => gateIo k s f))) :=
  frames_io (by simp) hf

/-- An admin command whose end lets the writes that wait proceed. -/
theorem adminIo_frames {c : Cmd} {allowed san : Bool} {f : Ctx → State → State}
    (hf : ∀ k s, outside ioComps (f k s) = outside ioComps s) :
    Frames ioComps s (doneIo (withCmd c s (fun k s => gateAdmin allowed san k s f))) :=
  frames_adminIo (by simp) hf

/-- A write of a maintenance channel's control register. -/
theorem gdcRow_frames (hs : plainWake s) (fn ch bitNo : Nat) (v : Dword) (moved : Nat) (mem : HostMem) :
    Frames [.m, .pw, .slk, .zn, .pl, .fl, .ecc, .q, .stb, .jn, .ci, .ga, .cad, .free] s (gdcRow fn ch bitNo v moved mem s) :=
  frames_gdcRow (by simp) hs _ _ _ _ _ _

/-- Every component may change. -/
theorem frames_all (s : State) (o : Out) : Frames [.m, .pins, .st, .img, .tm, .pw, .slk, .zn, .pl, .fl, .ecc, .q, .stb, .jn, .stl, .ci, .ga, .cad,
    .ts, .rg, .free] s o :=
  fun _ _ => outside_of_keeps fun x hx => by cases x <;> simp at hx

end

section
variable {L : List Comp}

/-! ## Commands whose meaning branches -/

theorem dieSuspended_frames (ch lun : Nat) (s : State) :
    Frames [.fl, .q, .stb, .ci] s (exec (.dieSuspended ch lun) s) := by
  show Frames _ _ (execDieSuspended ch lun s)
  unfold execDieSuspended
  dsimp only
  split <;> simp

theorem suspendHoldExpiry_frames (ch lun : Nat) (s : State) :
    Frames [.fl, .q, .stb, .ci] s (exec (.suspendHoldExpiry ch lun) s) := by
  show Frames _ _ (execSuspendHoldExpiry ch lun s)
  unfold execSuspendHoldExpiry
  dsimp only
  split <;> simp

theorem continuousReadWaitExpiry_frames (ch lun : Nat) (s : State) :
    Frames [.fl, .q, .stb, .ci] s (exec (.continuousReadWaitExpiry ch lun) s) := by
  show Frames _ _ (execContinuousReadWaitExpiry ch lun s)
  unfold execContinuousReadWaitExpiry
  dsimp only
  split <;> simp

theorem eyePass_frames (ch eye : Nat) (s : State) :
    Frames [.fl, .q, .stb, .ci] s (exec (.eyePass ch eye) s) := by
  show Frames _ _ (execEyePass ch eye s)
  unfold execEyePass
  dsimp only
  split <;> simp

theorem tackFirmwareRefresh_frames (shed : Nat) (moved : List (Nat × Nat × Nat)) (s : State) :
    Frames [.fl, .q, .stb, .ci] s (exec (.tackFirmwareRefresh shed moved) s) := by
  show Frames _ _ (execTackFirmwareRefresh shed moved s)
  unfold execTackFirmwareRefresh
  dsimp only
  split <;> simp [outside_foldl, apply_ite (outside _)]

theorem lowWearListRefillEnd_frames (ch lun : Nat) (s : State) :
    Frames [.pl, .fl, .q, .stb, .ci] s (exec (.lowWearListRefillEnd ch lun) s) := by
  show Frames _ _ (execLowWearListRefillEnd ch lun s)
  unfold execLowWearListRefillEnd
  dsimp only
  split <;> simp [outside_foldl]

theorem fchDiagGo_frames (fn ch : Nat) (v : Dword) {s : State} (hs : plainWake s) : Frames [.pw, .fl, .q, .stb, .ci] s (exec (.fchDiagGo fn ch v) s) := by
  show Frames _ _ (execFchDiagGo fn ch v s)
  unfold execFchDiagGo
  exact frames_txsRow (by simp) hs _ fun t => by split <;> simp

theorem zoneFinishedByController_frames (z : Nat) (s : State) :
    Frames [.zn, .pl, .q, .stb, .ci] s (exec (.zoneFinishedByController z) s) := by
  show Frames _ _ (execZoneFinishedByController z s)
  unfold execZoneFinishedByController
  dsimp only
  repeat' split
  all_goals simp [outside_foldl, apply_ite (outside _)]

theorem scrubComplete_frames (z : Nat) (s : State) :
    Frames [.zn, .q, .stb, .ci, .cad] s (exec (.scrubComplete z) s) := by
  show Frames _ _ (execScrubComplete z s)
  unfold execScrubComplete
  dsimp only
  repeat' split
  all_goals simp

theorem sanitizeExitFailureMode_frames (c : Cmd) (s : State) : Frames [.zn, .q, .stb, .jn, .ci] s (exec (.sanitizeExitFailureMode c) s) :=
  frames_admin (by simp) fun k s => by split <;> simp

theorem fchDiagDone_frames (ch zeros corr ladder : Nat) (s : State) :
    Frames [.pins, .fl, .ecc, .q, .stb, .ci] s (exec (.fchDiagDone ch zeros corr ladder) s) := by
  show Frames _ _ (execFchDiagDone ch zeros corr ladder s)
  unfold execFchDiagDone
  extract_lets mine read _ s0 c d b bad tack empty lad s1 s2 s3
  have h1 : outside [.pins, .fl, .ecc, .q, .stb, .ci] s1 = outside [.pins, .fl, .ecc, .q, .stb, .ci] s := by simp [s1, s0]
  have h2 : outside [.pins, .fl, .ecc, .q, .stb, .ci] s2 = outside [.pins, .fl, .ecc, .q, .stb, .ci] s := by simp only [s2]; split <;> simp [h1]
  have h3 : outside [.pins, .fl, .ecc, .q, .stb, .ci] s3 = outside [.pins, .fl, .ecc, .q, .stb, .ci] s := by simp only [s3]; split <;> simp [h2]
  clear_value s3 s2 s1 lad empty tack bad b d c s0 read mine
  split
  · rw [frames_done (by simp)]
    split <;> simp [h3]
  · exact (frames_next s).mpr rfl

theorem fptestEnd_frames (res : FpRes) (bad : List (Nat × Nat × Nat)) (s : State) :
    Frames [.pins, .fl, .q, .stb, .ci, .ts] s (exec (.fptestEnd res bad) s) := by
  show Frames _ _ (execFptestEnd res bad s)
  unfold execFptestEnd
  dsimp only
  split <;> simp [outside_foldl, apply_ite (outside _)]

theorem suspendArbiterDecision_frames (op : Nat) (s : State) :
    Frames [.pl, .fl, .ecc, .q, .stb, .ci] s (exec (.suspendArbiterDecision op) s) := by
  show Frames _ _ (execSuspendArbiterDecision op s)
  unfold execSuspendArbiterDecision
  split <;> simp

theorem suspendRunMinReached_frames (ch lun : Nat) (s : State) :
    Frames [.pl, .fl, .ecc, .q, .stb, .ci] s (exec (.suspendRunMinReached ch lun) s) := by
  show Frames _ _ (execSuspendRunMinReached ch lun s)
  unfold execSuspendRunMinReached
  dsimp only
  split <;> simp [outside_foldl]

theorem flushRehearsalEnd_frames (milliW rate : Nat) (s : State) :
    Frames [.slk, .fl, .q, .stb, .ci, .free] s (exec (.flushRehearsalEnd milliW rate) s) := by
  show Frames _ _ (execFlushRehearsalEnd milliW rate s)
  unfold execFlushRehearsalEnd
  dsimp only
  split <;> simp [outside_foldl]

theorem scrubScheduleBreakExpiry_frames (z : Nat) (s : State) :
    Frames [.zn, .pl, .q, .stb, .ci, .cad] s (exec (.scrubScheduleBreakExpiry z) s) := by
  show Frames _ _ (execScrubScheduleBreakExpiry z s)
  unfold execScrubScheduleBreakExpiry
  repeat' split
  all_goals simp

theorem journalCheckpoint_frames (s : State) :
    Frames [.zn, .q, .stb, .jn, .ci, .free] s (exec .journalCheckpoint s) := by
  show Frames _ _ (execJournalCheckpoint s)
  unfold execJournalCheckpoint
  split <;> simp

theorem startModeOverrun_frames (s : State) :
    Frames [.m, .pins, .pw, .fl, .q, .stb, .ci, .ts] s (exec .startModeOverrun s) := by
  show Frames _ _ (execStartModeOverrun s)
  unfold execStartModeOverrun
  split <;> simp

theorem spineLinkFault_frames (shed : Nat) (s : State) :
    Frames [.m, .pins, .pw, .fl, .q, .stb, .ci, .ts] s (exec (.spineLinkFault shed) s) := by
  show Frames _ _ (execSpineLinkFault shed s)
  unfold execSpineLinkFault
  split <;> simp

theorem refclk38m4Lost_frames (s : State) :
    Frames [.m, .pins, .pw, .fl, .q, .stb, .ci, .ts] s (exec .refclk38m4Lost s) := by
  show Frames _ _ (execRefclk38m4Lost s)
  unfold execRefclk38m4Lost
  split <;> simp

theorem entropyHealthFail_frames (s : State) :
    Frames [.m, .pins, .pw, .fl, .q, .stb, .ci, .ts] s (exec .entropyHealthFail s) := by
  show Frames _ _ (execEntropyHealthFail s)
  simp [execEntropyHealthFail]

theorem stallRestore_frames (c : Cmd) (buf : List Byte) (s : State) :
    Frames [.pw, .slk, .zn, .q, .stb, .jn, .ci, .free] s (exec (.stallRestore c buf) s) :=
  frames_admin (by simp) fun k s => stallSerial_outside (by simp) _ k s _ (restoreOn_outside (by simp) ..)

theorem shutdownComplete_frames (fn : Nat) (s : State) :
    Frames [.slk, .zn, .fl, .q, .stb, .jn, .ci, .free] s (exec (.shutdownComplete fn) s) := by
  show Frames _ _ (execShutdownComplete fn s)
  unfold execShutdownComplete
  repeat' split
  all_goals simp

theorem ostlerWatchdogExpiry_frames (core : Nat) (s : State) :
    Frames [.m, .pins, .pw, .fl, .q, .stb, .ci, .ts, .free] s (exec (.ostlerWatchdogExpiry core) s) := by
  show Frames _ _ (execOstlerWatchdogExpiry core s)
  unfold execOstlerWatchdogExpiry
  dsimp only
  repeat' split
  all_goals simp

theorem sleepHandshakeReply_frames (agree : Bool) (s : State) :
    Frames [.m, .pins, .pw, .zn, .fl, .q, .stb, .jn, .ci, .free] s (exec (.sleepHandshakeReply agree) s) := by
  show Frames _ _ (execSleepHandshakeReply agree s)
  unfold execSleepHandshakeReply
  dsimp only
  repeat' split
  all_goals simp

theorem sanitizeEnd_frames (failed : Option Nat) (s : State) :
    Frames [.m, .slk, .zn, .pl, .fl, .q, .stb, .jn, .ci, .free] s (exec (.sanitizeEnd failed) s) := by
  show Frames _ _ (execSanitizeEnd failed s)
  unfold execSanitizeEnd
  repeat' split
  all_goals simp

theorem nonopExitEnd_frames (hdr : Option (Nat × Nat)) (s : State) :
    Frames [.m, .pins, .tm, .pw, .fl, .q, .stb, .jn, .ci, .cad, .ts] s (exec (.nonopExitEnd hdr) s) := by
  show Frames _ _ (execNonopExitEnd hdr s)
  unfold execNonopExitEnd
  dsimp only
  repeat' split
  all_goals simp

theorem proofLoadEnd_frames (s : State) :
    Frames [.m, .st, .slk, .zn, .pl, .fl, .ecc, .q, .stb, .jn, .ci] s (exec .proofLoadEnd s) := by
  show Frames _ _ (execProofLoadEnd s)
  unfold execProofLoadEnd
  repeat' split
  all_goals simp

theorem thermalTrip_frames (die : Nat) (temp : Int) (s : State) :
    Frames [.m, .pins, .pw, .slk, .zn, .pl, .fl, .ecc, .q, .stb, .ci, .ts] s (exec (.thermalTrip die temp) s) := by
  show Frames _ _ (execThermalTrip die temp s)
  unfold execThermalTrip
  repeat' split
  all_goals simp

theorem imageLoadEnd_frames (h : [.m, .pins, .st, .img, .tm, .slk, .pl, .fl, .q, .stb, .ci, .cad] ⊆ L) (sfdpOk : Bool) (slotA slotB : List Byte)
    (fwOk : Bool) (s : State) : Frames L s (exec (.imageLoadEnd sfdpOk slotA slotB fwOk) s) := by
  have hst : [.stb] ⊆ L := List.Subset.trans (by decide) h
  have himg : [.st, .img] ⊆ L := List.Subset.trans (by decide) h
  have hfw : [.q, .stb] ⊆ L := List.Subset.trans (by decide) h
  have h6' : [.pins, .tm, .slk, .pl, .cad] ⊆ L := List.Subset.trans (by decide) h
  have hfl : [.fl] ⊆ L := List.Subset.trans (by decide) h
  have hm : [.m, .q, .stb, .ci] ⊆ L := List.Subset.trans (by decide) h
  have hp : [.pins] ⊆ L := List.Subset.trans (by decide) h
  have hd : [.q, .stb, .ci] ⊆ L := List.Subset.trans (by decide) h
  show Frames _ _ (execImageLoadEnd sfdpOk slotA slotB fwOk s)
  unfold execImageLoadEnd
  extract_lets no a b none_ useB c s1 s2 s3 s4 _ st s5 _ _ _ _ _ _ s6 s6' s7
  have h1 : outside L s1 = outside L s := (slotRecord_outside hst ..).trans (slotRecord_outside hst ..)
  have h2 : outside L s2 = outside L s := outside_ite ((raise_outside hst ..).trans h1) h1
  have h3 : outside L s3 = outside L s := outside_ite ((raise_outside hst ..).trans h2) h2
  have h4 : outside L s4 = outside L s := outside_ite ((raise_outside hst ..).trans h3) h3
  have h5 : outside L s5 = outside L s := (startFw_outside hfw ..).trans (Eq.trans (outside_mono himg (by simp)) h4)
  have h6 : outside L s6 = outside L s := Eq.trans (outside_mono h6' (by simp [s6])) h5
  have h7 : outside L s7 = outside L s := (setMode_outside hm ..).trans ((outside_foldl _ (fun s c => updChn_outside hfl ..) _ _).trans h6)
  clear_value s7
  split
  · exact (frames_next s).mpr rfl
  · exact (frames_done hd _).mpr (Eq.trans (outside_mono hp (by simp)) h7)

theorem cadPfSend_frames (fn : Nat) {s : State} (hs : plainWake s) :
    Frames [.m, .pins, .pw, .slk, .zn, .pl, .fl, .ecc, .q, .stb, .ci, .ga, .cad] s (exec (.cadPfSend fn) s) :=
  frames_txsRow (by simp) hs _ fun t => pfSendNow_outside (by simp) t

theorem slackDecision_frames (w : Nat) (rest : List Blk) (s : State) :
    Frames ioComps s (exec (.slackDecision w rest) s) := by
  show Frames _ _ (execSlackDecision w rest s)
  unfold execSlackDecision
  repeat' split
  all_goals simp

theorem writeZeroes_frames (c : Cmd) (s : State) :
    Frames ioComps s (exec (.writeZeroes c) s) :=
  frames_io (by simp) fun k s => writeOn_outside (by simp) ..

theorem flush_frames (c : Cmd) (s : State) :
    Frames ioComps s (exec (.flush c) s) :=
  frames_io (by simp) fun k s => by split_ifs <;> simp

theorem zoneOfflineAction_frames (c : Cmd) (s : State) :
    Frames ioComps s (exec (.zoneOfflineAction c) s) :=
  frames_io (by simp) fun k s => sendOn_outside (by simp) _ _ _ _ (fun z q => by simp) fun n => by simp

theorem setZoneDescriptorExtension_frames (c : Cmd) (s : State) :
    Frames ioComps s (exec (.setZoneDescriptorExtension c) s) :=
  frames_io (by simp) fun k s => outside_ite (by simp) (withNs_outside (by simp) _ _ _ fun n => by split <;> simp)

theorem reportZones_frames (c : Cmd) (s : State) :
    Frames ioComps s (exec (.reportZones c) s) :=
  frames_io (by simp) fun k s => reportOn_outside (by simp) ..

theorem extendedReportZones_frames (c : Cmd) (s : State) :
    Frames ioComps s (exec (.extendedReportZones c) s) :=
  frames_io (by simp) fun k s => withNs_outside (by simp) _ _ _ fun n => by split <;> simp

theorem conventionalGarbageCollection_frames (h : ioComps ⊆ L) (s : State) :
    Frames L s (exec .conventionalGarbageCollection s) := by
  have hd : [.q, .stb, .ci] ⊆ L := List.Subset.trans (by decide) h
  have hbreak : [.pl, .stb, .cad] ⊆ L := List.Subset.trans (by decide) h
  have hmove : [.zn, .pl, .fl, .stb] ⊆ L := List.Subset.trans (by decide) h
  have hstart : [.zn, .pl, .fl, .ecc, .stb, .free] ⊆ L := List.Subset.trans (by decide) h
  show Frames _ _ (execConventionalGarbageCollection s)
  unfold execConventionalGarbageCollection
  extract_lets f due _ s1
  have h1 : outside L s1 = outside L s := outside_ite (outside_mono hbreak (by simp)) rfl
  clear_value s1
  split
  · exact (frames_next s).mpr rfl
  split
  · exact (frames_next s).mpr rfl
  split
  · rename_i t ht
    obtain ⟨p, _, hp⟩ := Option.bind_eq_some_iff.mp ht
    exact (frames_doneIo h _).mpr ((afterStart_outside hstart ..).trans ((startConvMove_outside hmove hp).trans h1))
  · exact (frames_done hd _).mpr h1

theorem fold_frames (zone : Nat) (s : State) :
    Frames ioComps s (exec (.fold zone) s) := by
  show Frames _ _ (execFold zone s)
  unfold execFold
  dsimp only
  repeat' split
  all_goals simp

theorem paddockCompaction_frames (h : ioComps ⊆ L) (yard : Nat) (s : State) :
    Frames L s (exec (.paddockCompaction yard) s) := by
  have hdead : [.zn, .pl, .fl] ⊆ L := List.Subset.trans (by decide) h
  have hmove : [.zn, .pl, .fl, .stb] ⊆ L := List.Subset.trans (by decide) h
  have hstart : [.zn, .pl, .fl, .ecc, .stb, .free] ⊆ L := List.Subset.trans (by decide) h
  show Frames _ _ (execPaddockCompaction yard s)
  unfold execPaddockCompaction
  extract_lets s1 cand marked
  have h1 : outside L s1 = outside L s := retireDead_outside hdead ..
  clear_value marked cand s1
  split
  · split
    · split
      · split
        · rename_i ht
          exact (frames_doneIo h _).mpr ((afterStart_outside hstart ..).trans ((startPadMove_outside hmove ht).trans h1))
        · exact (frames_doneIo h _).mpr h1
      · exact (frames_doneIo h _).mpr h1
    · exact (frames_doneIo h _).mpr h1
  · exact (frames_next s).mpr rfl

theorem relocation_frames (h : ioComps ⊆ L) (pen : Nat) (s : State) :
    Frames L s (exec (.relocation pen) s) := by
  have hpl : [.pl] ⊆ L := List.Subset.trans (by decide) h
  have hpen : [.zn, .pl, .fl] ⊆ L := List.Subset.trans (by decide) h
  have hmove : [.zn, .pl, .fl, .stb] ⊆ L := List.Subset.trans (by decide) h
  have hstart : [.zn, .pl, .fl, .ecc, .stb, .free] ⊆ L := List.Subset.trans (by decide) h
  have same : Frames L s (.next s) := (frames_next s).mpr rfl
  have started : ∀ {t : State}, outside L t = outside L s → Frames L s (doneIo (afterStart t)) :=
    fun ht => (frames_doneIo h _).mpr ((afterStart_outside hstart _).trans ht)
  show Frames _ _ (execRelocation pen s)
  unfold execRelocation
  split
  · exact same
  split
  · exact same
  split
  · split
    · split
      · rename_i ht
        exact started (startConvMove_outside hmove ht)
      · exact same
    · exact same
  split
  · split
    · exact (frames_doneIo h _).mpr ((settleRows_outside hmove ..).trans (retirePen_outside hpen ..))
    · exact same
  split
  · split
    · split
      · rename_i ht
        exact started (startPadMove_outside hmove ht)
      · exact same
    · exact same
  split
  · exact same
  split
  · rename_i ht
    exact started ((updYard_outside hpl ..).trans (startMove_outside hmove ht))
  · exact same

theorem wearLevelling_frames (h : ioComps ⊆ L) (yard : Nat) (s : State) :
    Frames L s (exec (.wearLevelling yard) s) := by
  have hd : [.q, .stb, .ci] ⊆ L := List.Subset.trans (by decide) h
  have hst : [.stb] ⊆ L := List.Subset.trans (by decide) h
  have hpl : [.pl] ⊆ L := List.Subset.trans (by decide) h
  have hwear : [.pl, .stb] ⊆ L := List.Subset.trans (by decide) h
  have hmove : [.zn, .pl, .fl, .stb] ⊆ L := List.Subset.trans (by decide) h
  have hstart : [.zn, .pl, .fl, .ecc, .stb, .free] ⊆ L := List.Subset.trans (by decide) h
  show Frames _ _ (execWearLevelling yard s)
  unfold execWearLevelling
  extract_lets sp c s1
  have h1 : outside L s1 = outside L s :=
    (wearEnds_outside hwear ..).trans (outside_ite rfl ((raise_outside hst ..).trans (updYard_outside hpl ..)))
  clear_value s1 c sp
  have kept : Frames L s (done s1) := (frames_done hd _).mpr h1
  split
  · split
    · exact kept
    split
    · split
      · rename_i ht
        exact (frames_doneIo h _).mpr ((afterStart_outside hstart ..).trans ((startMove_outside hmove ht).trans h1))
      · exact kept
    · exact kept
  · exact (frames_next s).mpr rfl

theorem landingSpaceReturns_frames (yard : Nat) (s : State) :
    Frames ioComps s (exec (.landingSpaceReturns yard) s) := by
  show Frames _ _ (execLandingSpaceReturns yard s)
  unfold execLandingSpaceReturns
  split <;> simp

theorem retrainEnd_frames (ch eyeRd eyeWr rate : Nat) (s : State) :
    Frames ioComps s (exec (.retrainEnd ch eyeRd eyeWr rate) s) := by
  show Frames _ _ (execRetrainEnd ch eyeRd eyeWr rate s)
  unfold execRetrainEnd
  dsimp only
  repeat' split
  all_goals simp

theorem reconstructionEnd_frames (op ladder : Nat) (s : State) :
    Frames ioComps s (exec (.reconstructionEnd op ladder) s) := by
  show Frames _ _ (execReconstructionEnd op ladder s)
  unfold execReconstructionEnd
  dsimp only
  repeat' split
  all_goals simp

theorem currycombAutoPassStart_frames (s : State) :
    Frames ioComps s (exec .currycombAutoPassStart s) := by
  show Frames _ _ (execCurrycombAutoPassStart s)
  unfold execCurrycombAutoPassStart
  dsimp only
  repeat' split
  all_goals simp [outside_foldl]

theorem currycombPassEnd_frames (res : PassRes) (s : State) :
    Frames ioComps s (exec (.currycombPassEnd res) s) := by
  show Frames _ _ (execCurrycombPassEnd res s)
  unfold execCurrycombPassEnd
  repeat' split
  all_goals simp

theorem cqHeadDoorbell_frames (fn qid val : Nat) (s : State) :
    Frames ioComps s (exec (.cqHeadDoorbell fn qid val) s) := by
  show Frames _ _ (execCqHeadDoorbell fn qid val s)
  unfold execCqHeadDoorbell
  repeat' split
  all_goals simp

theorem setFeaturesArbitration_frames (c : Cmd) (s : State) :
    Frames ioComps s (exec (.setFeaturesArbitration c) s) := by
  show Frames _ _ (execSetFeaturesArbitration c s)
  unfold execSetFeaturesArbitration
  exact frames_setFeat (by simp) fun k s => by simp

theorem setFeaturesVolatileWriteCache_frames (c : Cmd) (s : State) :
    Frames ioComps s (exec (.setFeaturesVolatileWriteCache c) s) := by
  show Frames _ _ (execSetFeaturesVolatileWriteCache c s)
  unfold execSetFeaturesVolatileWriteCache
  exact frames_setFeat (by simp) fun k s => by split_ifs <;> simp

theorem setFeaturesNumberOfQueues_frames (c : Cmd) (s : State) :
    Frames ioComps s (exec (.setFeaturesNumberOfQueues c) s) := by
  show Frames _ _ (execSetFeaturesNumberOfQueues c s)
  unfold execSetFeaturesNumberOfQueues
  exact frames_setFeat (by simp) fun k s => by split_ifs <;> simp

theorem setFeaturesInterruptCoalescing_frames (c : Cmd) (s : State) :
    Frames ioComps s (exec (.setFeaturesInterruptCoalescing c) s) := by
  show Frames _ _ (execSetFeaturesInterruptCoalescing c s)
  unfold execSetFeaturesInterruptCoalescing
  exact frames_setFeat (by simp) fun k s => by simp

theorem setFeaturesInterruptVectorConfig_frames (c : Cmd) (s : State) :
    Frames ioComps s (exec (.setFeaturesInterruptVectorConfig c) s) := by
  show Frames _ _ (execSetFeaturesInterruptVectorConfig c s)
  unfold execSetFeaturesInterruptVectorConfig
  exact frames_setFeat (by simp) fun k s => by split_ifs <;> simp

theorem setFeaturesWriteAtomicity_frames (c : Cmd) (s : State) :
    Frames ioComps s (exec (.setFeaturesWriteAtomicity c) s) := by
  show Frames _ _ (execSetFeaturesWriteAtomicity c s)
  unfold execSetFeaturesWriteAtomicity
  exact frames_setFeat (by simp) fun k s => by simp

theorem setFeaturesAsyncEventConfig_frames (c : Cmd) (s : State) :
    Frames ioComps s (exec (.setFeaturesAsyncEventConfig c) s) := by
  show Frames _ _ (execSetFeaturesAsyncEventConfig c s)
  unfold execSetFeaturesAsyncEventConfig
  exact frames_setFeat (by simp) fun k s => by simp

theorem setFeaturesHostBehaviorSupport_frames (c : Cmd) (buf : List Byte) (s : State) :
    Frames ioComps s (exec (.setFeaturesHostBehaviorSupport c buf) s) := by
  show Frames _ _ (execSetFeaturesHostBehaviorSupport c buf s)
  unfold execSetFeaturesHostBehaviorSupport
  exact frames_setFeat (by simp) fun k s => by simp

theorem setFeaturesExtensionLevel_frames (c : Cmd) (s : State) :
    Frames ioComps s (exec (.setFeaturesExtensionLevel c) s) := by
  show Frames _ _ (execSetFeaturesExtensionLevel c s)
  unfold execSetFeaturesExtensionLevel
  exact frames_setFeat (by simp) fun k s => by split_ifs <;> simp

theorem setFeaturesApst_frames (c : Cmd) (buf : List Byte) (s : State) :
    Frames ioComps s (exec (.setFeaturesApst c buf) s) := by
  show Frames _ _ (execSetFeaturesApst c buf s)
  unfold execSetFeaturesApst
  dsimp only
  exact frames_setFeat (by simp) fun k s => by split_ifs <;> simp

theorem setFeaturesNopsc_frames (c : Cmd) (s : State) :
    Frames ioComps s (exec (.setFeaturesNopsc c) s) := by
  show Frames _ _ (execSetFeaturesNopsc c s)
  unfold execSetFeaturesNopsc
  exact frames_setFeat (by simp) fun k s => by simp

theorem setFeaturesTemperatureThreshold_frames (c : Cmd) (s : State) :
    Frames ioComps s (exec (.setFeaturesTemperatureThreshold c) s) := by
  show Frames _ _ (execSetFeaturesTemperatureThreshold c s)
  unfold execSetFeaturesTemperatureThreshold
  dsimp only
  exact frames_setFeat (by simp) fun k s => by split_ifs <;> simp

theorem fwCommitCheckDone_frames (ok : Bool) (rev : Nat) (s : State) :
    Frames ioComps s (exec (.fwCommitCheckDone ok rev) s) := by
  show Frames _ _ (execFwCommitCheckDone ok rev s)
  unfold execFwCommitCheckDone
  dsimp only
  repeat' split
  all_goals simp

theorem hostMemoryError_frames (fn sqid cid : Nat) (s : State) :
    Frames ioComps s (exec (.hostMemoryError fn sqid cid) s) := by
  show Frames _ _ (execHostMemoryError fn sqid cid s)
  unfold execHostMemoryError
  repeat' split
  all_goals simp

theorem gatherChannelGrant_frames (mem : HostMem) (s : State) :
    Frames ioComps s (exec (.gatherChannelGrant mem) s) := by
  show Frames _ _ (execGatherChannelGrant mem s)
  unfold execGatherChannelGrant
  repeat' split
  all_goals simp

theorem gatherReadComplete_frames (ch : Nat) (badBeat : Option Nat) (s : State) :
    Frames ioComps s (exec (.gatherReadComplete ch badBeat) s) := by
  show Frames _ _ (execGatherReadComplete ch badBeat s)
  unfold execGatherReadComplete
  repeat' split
  all_goals simp

theorem gdcTransferEnd_frames (ch moved : Nat) (mem : HostMem) (s : State) :
    Frames ioComps s (exec (.gdcTransferEnd ch moved mem) s) := by
  show Frames _ _ (execGdcTransferEnd ch moved mem s)
  unfold execGdcTransferEnd
  dsimp only
  repeat' split
  all_goals simp

theorem halfHitchAcceptance_frames (fn sqid cid : Nat) (mapOk : Bool) (s : State) :
    Frames ioComps s (exec (.halfHitchAcceptance fn sqid cid mapOk) s) := by
  show Frames _ _ (execHalfHitchAcceptance fn sqid cid mapOk s)
  unfold execHalfHitchAcceptance
  repeat' split
  all_goals simp

theorem pwrfailNFall_frames (s : State) :
    Frames [.m, .pins, .pw, .slk, .zn, .pl, .fl, .ecc, .q, .stb, .ci, .ga, .cad, .ts] s (exec .pwrfailNFall s) := by
  show Frames _ _ (execPwrfailNFall s)
  unfold execPwrfailNFall
  dsimp only
  repeat' split
  all_goals simp

theorem cadPfAccepted_frames (ns : Nat) (s : State) :
    Frames [.m, .pins, .pw, .slk, .zn, .pl, .fl, .ecc, .q, .stb, .ci, .ga, .cad, .ts] s (exec (.cadPfAccepted ns) s) := by
  show Frames _ _ (execCadPfAccepted ns s)
  unfold execCadPfAccepted
  repeat' split
  all_goals simp

theorem thermalTripDrainEnd_frames (us : Nat) (s : State) :
    Frames [.m, .pins, .pw, .slk, .zn, .pl, .fl, .ecc, .q, .stb, .jn, .ci, .ts, .free] s (exec (.thermalTripDrainEnd us) s) := by
  show Frames _ _ (execThermalTripDrainEnd us s)
  unfold execThermalTripDrainEnd
  split <;> simp

theorem programEnd_frames (ch lun : Nat) (pass : Bool) (s : State) :
    Frames [.m, .pins, .slk, .zn, .pl, .fl, .ecc, .q, .stb, .jn, .ci, .ga, .cad, .free] s (exec (.programEnd ch lun pass) s) := by
  show Frames _ _ (execProgramEnd ch lun pass s)
  unfold execProgramEnd
  dsimp only
  repeat' split
  all_goals simp

theorem eraseEnd_frames (ch lun : Nat) (pass : Bool) (s : State) :
    Frames [.m, .pins, .slk, .zn, .pl, .fl, .ecc, .q, .stb, .jn, .ci, .ga, .cad, .free] s (exec (.eraseEnd ch lun pass) s) := by
  show Frames _ _ (execEraseEnd ch lun pass s)
  unfold execEraseEnd
  dsimp only
  repeat' split
  all_goals simp

theorem readEnd_frames (ch lun ladder corr : Nat) (s : State) :
    Frames [.m, .pins, .slk, .zn, .pl, .fl, .ecc, .q, .stb, .jn, .ci, .ga, .cad, .free] s (exec (.readEnd ch lun ladder corr) s) := by
  show Frames _ _ (execReadEnd ch lun ladder corr s)
  unfold execReadEnd
  dsimp only
  repeat' split
  all_goals simp

theorem preProgramCheckEnd_frames (ch lun zeros : Nat) (s : State) :
    Frames [.m, .pins, .slk, .zn, .pl, .fl, .ecc, .q, .stb, .jn, .ci, .ga, .cad, .free] s (exec (.preProgramCheckEnd ch lun zeros) s) := by
  show Frames _ _ (execPreProgramCheckEnd ch lun zeros s)
  unfold execPreProgramCheckEnd
  dsimp only
  repeat' split
  all_goals simp

theorem lunTimeout_frames (ch lun : Nat) (s : State) :
    Frames [.m, .pins, .slk, .zn, .pl, .fl, .ecc, .q, .stb, .jn, .ci, .ga, .cad, .free] s (exec (.lunTimeout ch lun) s) := by
  show Frames _ _ (execLunTimeout ch lun s)
  unfold execLunTimeout
  dsimp only
  repeat' split
  all_goals simp

theorem arrayOperationStart_frames (ch typ : Nat) (s : State) :
    Frames [.m, .pw, .slk, .zn, .pl, .fl, .ecc, .q, .stb, .jn, .ci, .ga, .cad, .free] s (exec (.arrayOperationStart ch typ) s) := by
  show Frames _ _ (execArrayOperationStart ch typ s)
  unfold execArrayOperationStart
  dsimp only
  split <;> simp

theorem controllerEnable_frames (h : [.m, .pw, .slk, .zn, .pl, .fl, .ecc, .q, .stb, .jn, .ci, .ga, .cad, .free] ⊆ L) (fn : Nat) (cc : Dword) {s : State}
    (hs : plainWake s) : Frames L s (exec (.controllerEnable fn cc) s) := by
  have hio : ioComps ⊆ L := List.Subset.trans (by decide) h
  have ht : outside L (touch fn s) = outside L s := touch_outside (List.Subset.trans (by decide) h) fn hs
  have hcc : [.pw, .slk, .zn, .pl, .fl, .ecc, .q, .stb, .jn, .ci, .ga, .cad] ⊆ L := List.Subset.trans (by decide) h
  show Frames _ _ (execControllerEnable fn cc s)
  unfold execControllerEnable
  split
  · exact (frames_doneIo hio _).mpr ((ccWrite_outside hcc _ _ (touch_plainWake fn hs)).trans ht)
  · exact (frames_next s).mpr rfl

theorem controllerReset_frames (h : [.m, .pw, .slk, .zn, .pl, .fl, .ecc, .q, .stb, .jn, .ci, .ga, .cad, .free] ⊆ L) (fn : Nat) {s : State}
    (hs : plainWake s) : Frames L s (exec (.controllerReset fn) s) := by
  have hio : ioComps ⊆ L := List.Subset.trans (by decide) h
  have hd : [.q, .stb, .ci] ⊆ L := List.Subset.trans (by decide) h
  have hq : [.q] ⊆ L := List.Subset.trans (by decide) h
  have ht : outside L (touch fn s) = outside L s := touch_outside (List.Subset.trans (by decide) h) fn hs
  have hreset : [.pw, .slk, .zn, .pl, .fl, .ecc, .q, .stb, .ci, .ga, .cad] ⊆ L := List.Subset.trans (by decide) h
  show Frames _ _ (execControllerReset fn s)
  unfold execControllerReset
  dsimp only
  split
  · exact (frames_next s).mpr rfl
  split
  · exact (frames_done hd _).mpr ((holdWr_outside hq ..).trans ht)
  · exact (frames_doneIo hio _).mpr ((ctrlReset_outside hreset ..).trans ht)

theorem setFeaturesPowerManagement_frames (c : Cmd) (s : State) :
    Frames [.m, .pw, .slk, .zn, .pl, .fl, .ecc, .q, .stb, .jn, .ci, .ga, .cad, .free] s (exec (.setFeaturesPowerManagement c) s) := by
  show Frames _ _ (execSetFeaturesPowerManagement c s)
  unfold execSetFeaturesPowerManagement
  exact frames_setFeat (by simp) fun k s => by split_ifs <;> simp

theorem virtMgmtSecondaryOffline_frames (h : [.m, .pw, .slk, .zn, .pl, .fl, .ecc, .q, .stb, .jn, .ci, .ga, .cad, .free] ⊆ L) (c : Cmd) (s : State) :
    Frames L s (exec (.virtMgmtSecondaryOffline c) s) := by
  have hio : ioComps ⊆ L := List.Subset.trans (by decide) h
  have hd : [.q, .stb, .ci] ⊆ L := List.Subset.trans (by decide) h
  have hq : [.q] ⊆ L := List.Subset.trans (by decide) h
  have hstall : [.pw, .slk, .zn, .pl, .fl, .ecc, .q, .stb, .ci, .ga] ⊆ L := List.Subset.trans (by decide) h
  exact frames_adminIo hio fun k s => vmOn_outside hd k s _ fun f =>
    (ok_outside hd ..).trans ((updFn_outside hq ..).trans (outside_ite (stallReset_outside hstall ..) rfl))

theorem vfFunctionLevelReset_frames (fn : Nat) (s : State) :
    Frames [.m, .pw, .slk, .zn, .pl, .fl, .ecc, .q, .stb, .jn, .ci, .ga, .cad, .free] s (exec (.vfFunctionLevelReset fn) s) := by
  show Frames _ _ (execVfFunctionLevelReset fn s)
  unfold execVfFunctionLevelReset
  repeat' split
  all_goals simp

theorem stallFreeze_frames (h : [.m, .slk, .zn, .pl, .fl, .ecc, .q, .stb, .jn, .stl, .ci, .ga, .cad, .free] ⊆ L) (c : Cmd) (s : State) :
    Frames L s (exec (.stallFreeze c) s) := by
  have hio : ioComps ⊆ L := List.Subset.trans (by decide) h
  have hq : [.q] ⊆ L := List.Subset.trans (by decide) h
  have hf : [.fl, .ecc, .q, .stb, .stl, .ci] ⊆ L := List.Subset.trans (by decide) h
  exact frames_adminIo hio fun k s => stallSerial_outside hq _ k s _ (freezeOn_outside hf ..)

theorem recoveryEnd_frames (lost : List Lost) (found : RecovFound) (s : State) :
    Frames [.m, .st, .slk, .zn, .pl, .fl, .ecc, .q, .stb, .jn, .ci, .ga, .cad, .free] s (exec (.recoveryEnd lost found) s) := by
  show Frames _ _ (execRecoveryEnd lost found s)
  unfold execRecoveryEnd
  dsimp only
  split <;> simp [outside_foldl, apply_ite (outside _)]

theorem tableLoadEnd_frames (h : [.m, .pins, .st, .pw, .slk, .pl, .fl, .ecc, .q, .stb, .jn, .ci, .cad, .ts, .free] ⊆ L) (copy0 copy1 : Bool) (s : State) :
    Frames L s (exec (.tableLoadEnd copy0 copy1) s) := by
  have hd : [.q, .stb, .ci] ⊆ L := List.Subset.trans (by decide) h
  have hjn : [.jn] ⊆ L := List.Subset.trans (by decide) h
  have hst : [.st] ⊆ L := List.Subset.trans (by decide) h
  have hring : [.stb, .free] ⊆ L := List.Subset.trans (by decide) h
  have hret : [.pw, .stb] ⊆ L := List.Subset.trans (by decide) h
  have hload : [.slk, .ecc, .cad] ⊆ L := List.Subset.trans (by decide) h
  have hunsafe : [.st, .q] ⊆ L := List.Subset.trans (by decide) h
  have hcopy : [.st, .stb, .jn] ⊆ L := List.Subset.trans (by decide) h
  have hhalt : [.m, .pins, .pw, .fl, .q, .stb, .ci, .ts] ⊆ L := List.Subset.trans (by decide) h
  have hmeet : [.m, .slk, .pl, .fl, .q, .stb, .jn, .ci] ⊆ L := List.Subset.trans (by decide) h
  have hraise : [.stb] ⊆ L := List.Subset.trans (by decide) h
  show Frames _ _ (execTableLoadEnd copy0 copy1 s)
  unfold execTableLoadEnd
  extract_lets _ s0 _ s1 _ s2 _ _ _ s3 safe _ _ s4 _ s5 bad _ _ t s6
  have h0 : outside L s0 = outside L s := outside_mono hjn (by simp [s0])
  have h1 : outside L s1 = outside L s := (loadRing_outside hring ..).trans (Eq.trans (outside_mono hst (by simp)) h0)
  have h2 : outside L s2 = outside L s := outside_ite (Eq.trans (outside_mono hret (by simp)) h1) h1
  have h3 : outside L s3 = outside L s := Eq.trans (outside_mono hload (by simp [s3])) h2
  have h4 : outside L s4 = outside L s := outside_ite h3 (Eq.trans (outside_mono hunsafe (by simp)) h3)
  have h5 : outside L s5 = outside L s := outside_ite (Eq.trans (outside_mono hst (by simp)) h4) h4
  have ht : outside L t = outside L s := Eq.trans (outside_mono hcopy (by simp [t])) h5
  have h6 : outside L s6 = outside L s := outside_ite h5 (outside_ite ((rebuildCopy_outside hjn ..).trans ht) ht)
  clear_value s6 t s5 s4 s3 s2 s1 s0
  split
  · exact (frames_next s).mpr rfl
  split
  · exact (frames_done hd _).mpr ((halt_outside hhalt ..).trans ((raise_outside hraise ..).trans h0))
  · exact (frames_done hd _).mpr ((tablesMeetFlash_outside hmeet ..).trans (Eq.trans (outside_mono hst (by simp)) h6))

theorem strapSample_frames (dual test noimg : Strap) (s : State) :
    Frames [.m, .pins, .tm, .pw, .slk, .zn, .pl, .fl, .ecc, .q, .stb, .ci, .ga, .cad, .free] s (exec (.strapSample dual test noimg) s) := by
  show Frames _ _ (execStrapSample dual test noimg s)
  unfold execStrapSample
  dsimp only
  repeat' split
  all_goals simp

theorem testEnter_frames (key : Nat) (s : State) :
    Frames [.m, .pins, .tm, .pw, .slk, .zn, .pl, .fl, .ecc, .q, .stb, .ci, .ga, .cad, .ts] s (exec (.testEnter key) s) := by
  show Frames _ _ (execTestEnter key s)
  unfold execTestEnter
  repeat' split
  all_goals simp

theorem housekeepingRound_frames (h : [.m, .pw, .slk, .zn, .pl, .fl, .ecc, .q, .stb, .jn, .ci, .ga, .cad, .ts, .free] ⊆ L) (r : HkRound) (s : State) :
    Frames L s (exec (.housekeepingRound r) s) := by
  have hio : ioComps ⊆ L := List.Subset.trans (by decide) h
  have hpw : [.pw] ⊆ L := List.Subset.trans (by decide) h
  have hps : [.pw, .slk, .stb] ⊆ L := List.Subset.trans (by decide) h
  have hthm : [.m, .pl, .fl, .q, .stb, .ci] ⊆ L := List.Subset.trans (by decide) h
  have hage : [.stb, .ts] ⊆ L := List.Subset.trans (by decide) h
  have hwarn : [.m, .q, .stb, .ci] ⊆ L := List.Subset.trans (by decide) h
  have hd : [.q, .stb, .ci] ⊆ L := List.Subset.trans (by decide) h
  have hjn : [.jn] ⊆ L := List.Subset.trans (by decide) h
  show Frames _ _ (execHousekeepingRound r s)
  unfold execHousekeepingRound
  extract_lets dt k0 wc cc die t _ s1 s2 s3 _ s4 s5 s6
  have h0 : outside [.pw] s1 = outside [.pw] t := by simp [s1]
  have h1 : outside L s1 = outside L s := (outside_mono hpw h0).trans (accrue_outside hpw s)
  have h2 : outside L s2 = outside L s := Eq.trans (outside_mono hps (by simp [s2])) h1
  have h3 : outside L s3 = outside L s := (thmStep_outside hthm ..).trans (Eq.trans (outside_mono hps (by simp)) h2)
  have h4 : outside L s4 = outside L s := Eq.trans (outside_mono hpw (by simp [s4])) h3
  have h5 : outside L s5 = outside L s := (ageBy_outside hage ..).trans h4
  have h6 : outside L s6 = outside L s := outside_ite ((setWarn_outside hwarn ..).trans h5) h5
  clear_value s6 s5 s4 s3 s2 s1
  split
  · exact (frames_next s).mpr rfl
  · exact (frames_doneIo hio _).mpr ((tmpReport_outside hd ..).trans (outside_ite ((rebuildCopy_outside hjn ..).trans h6) h6))

theorem dlDown_frames (port : Nat) (s : State) :
    Frames [.m, .pw, .slk, .zn, .pl, .fl, .ecc, .q, .stb, .jn, .stl, .ci, .ga, .cad, .free] s (exec (.dlDown port) s) := by
  show Frames _ _ (execDlDown port s)
  unfold execDlDown
  split <;> simp

theorem functionLevelResetPf_frames (fn : Nat) (s : State) :
    Frames [.m, .pw, .slk, .zn, .pl, .fl, .ecc, .q, .stb, .jn, .stl, .ci, .ga, .cad, .free] s (exec (.functionLevelResetPf fn) s) := by
  show Frames _ _ (execFunctionLevelResetPf fn s)
  unfold execFunctionLevelResetPf
  repeat' split
  all_goals simp

theorem vfEnableClear_frames (s : State) :
    Frames [.m, .pw, .slk, .zn, .pl, .fl, .ecc, .q, .stb, .jn, .stl, .ci, .ga, .cad, .free] s (exec .vfEnableClear s) := by
  show Frames _ _ (execVfEnableClear s)
  simp [execVfEnableClear]

theorem stallFreezeQuiet_frames (fn : Nat) (s : State) :
    Frames [.m, .pw, .slk, .zn, .pl, .fl, .ecc, .q, .stb, .jn, .stl, .ci, .ga, .cad, .free] s (exec (.stallFreezeQuiet fn) s) := by
  show Frames _ _ (execStallFreezeQuiet fn s)
  simp [execStallFreezeQuiet]

theorem stallFreezeTimeout_frames (fn : Nat) (s : State) :
    Frames [.m, .pw, .slk, .zn, .pl, .fl, .ecc, .q, .stb, .jn, .stl, .ci, .ga, .cad, .free] s (exec (.stallFreezeTimeout fn) s) := by
  show Frames _ _ (execStallFreezeTimeout fn s)
  unfold execStallFreezeTimeout
  repeat' split
  all_goals simp

theorem flashDiscoveryEnd_frames (h : [.m, .st, .pw, .slk, .zn, .pl, .fl, .ecc, .q, .stb, .jn, .ci, .ga, .ts, .free] ⊆ L) (luns : List LunReport)
    (chs : List ChTrain) (temps : List (Nat × Nat × Int)) (s : State) : Frames L s (exec (.flashDiscoveryEnd luns chs temps) s) := by
  have hraise : [.stb] ⊆ L := List.Subset.trans (by decide) h
  have hfl : [.fl] ⊆ L := List.Subset.trans (by decide) h
  have hgeom : [.st, .fl, .ts, .free] ⊆ L := List.Subset.trans (by decide) h
  have htrain : [.fl, .stb] ⊆ L := List.Subset.trans (by decide) h
  have hfac : [.pl, .fl, .jn] ⊆ L := List.Subset.trans (by decide) h
  have hlose : [.m, .zn, .pl, .q, .stb, .jn, .ci] ⊆ L := List.Subset.trans (by decide) h
  have hfail : [.m, .zn, .pl, .fl, .ecc, .q, .stb, .jn, .ci, .ga, .free] ⊆ L := List.Subset.trans (by decide) h
  have hflash : [.pw, .stb] ⊆ L := List.Subset.trans (by decide) h
  have hthm : [.m, .pl, .fl, .q, .stb, .ci] ⊆ L := List.Subset.trans (by decide) h
  have hst : [.st] ⊆ L := List.Subset.trans (by decide) h
  have hjn : [.jn] ⊆ L := List.Subset.trans (by decide) h
  have hmeet : [.m, .slk, .pl, .fl, .q, .stb, .jn, .ci] ⊆ L := List.Subset.trans (by decide) h
  have hd : [.q, .stb, .ci] ⊆ L := List.Subset.trans (by decide) h
  show Frames _ _ (execFlashDiscoveryEnd luns chs temps s)
  unfold execFlashDiscoveryEnd
  extract_lets rs onCh cnt good ref broken geomOk f g ex out s0 s1 _ _ _ _ s2 s3 s4 s5 s6 s7 s8 s8' s9 s10
  clear_value broken
  have h0 : outside L s0 = outside L s := outside_foldl _ (fun s r => raise_outside hraise ..) _ _
  have h1 : outside L s1 = outside L s := by
    simp only [s1]
    split
    · exact (raise_outside hraise ..).trans h0
    · exact h0
  have h2 : outside L s2 = outside L s := Eq.trans (outside_mono hgeom (by simp [s2])) h1
  have h3 : outside L s3 = outside L s := (takeLuns_outside hfl ..).trans h2
  have h4 : outside L s4 = outside L s := (outside_foldl _ (fun s t => trainChannel_outside htrain ..) _ _).trans h3
  have h5 : outside L s5 = outside L s := (outside_foldl _ (fun s c => updChn_outside hfl ..) _ _).trans h4
  have h6 : outside L s6 = outside L s := (factoryLayout_outside hfac ..).trans h5
  have h7 : outside L s7 = outside L s := (outside_foldl _ (fun s d => loseDie_outside hlose ..) _ _).trans h6
  have h8 : outside L s8 = outside L s := (outside_foldl _ (fun s t => failChannel_outside hfail ..) _ _).trans h7
  have h8' : outside L s8' = outside L s := outside_ite ((outside_foldl _ (fun s c => layCalib_outside hfl ..) _ _).trans h8) h8
  have h9 : outside L s9 = outside L s := (outside_foldl _ (fun s d => refillLists_outside hfl ..) _ _).trans h8'
  have h10 : outside L s10 = outside L s := (thmStep_outside hthm ..).trans ((takeFlash_outside hflash ..).trans h9)
  clear_value s10 s9 s8' s8 s7 s6 s5 s4 s3 s2 s1 s0
  split
  · exact (frames_next s).mpr rfl
  · exact (frames_done hd _).mpr ((tablesMeetFlash_outside hmeet ..).trans ((rebuildCopy_outside hjn ..).trans (Eq.trans (outside_mono hst (by simp)) h10)))

theorem sramUncorrectableError_frames (die region word syndrome hit : Nat) (again : Bool) (s : State) :
    Frames [.m, .pins, .pw, .slk, .zn, .pl, .fl, .ecc, .q, .stb, .jn, .ci, .ga, .cad, .ts, .free] s (exec (.sramUncorrectableError die region word syndrome hit again) s) := by
  show Frames _ _ (execSramUncorrectableError die region word syndrome hit again s)
  unfold execSramUncorrectableError
  dsimp only
  repeat' split
  all_goals simp

theorem tableLineRebuildEnd_frames (die region word : Nat) (ok : Bool) (s : State) :
    Frames [.m, .pins, .pw, .slk, .zn, .pl, .fl, .ecc, .q, .stb, .jn, .ci, .ga, .cad, .ts, .free] s (exec (.tableLineRebuildEnd die region word ok) s) := by
  show Frames _ _ (execTableLineRebuildEnd die region word ok s)
  unfold execTableLineRebuildEnd
  dsimp only
  repeat' split
  all_goals simp

/-- The writes held while an image was activated take effect in their order. -/
theorem heldAll_outside (h : [.pw, .slk, .zn, .pl, .fl, .ecc, .q, .stb, .jn, .stl, .ci, .ga, .cad] ⊆ L) (f : Nat) : ∀ (l : List HeldWr) {s : State},
    plainWake s → outside L (l.foldl (fun s w => heldNow f w s) s) = outside L s ∧ plainWake (l.foldl (fun s w => heldNow f w s) s)
  | [], _, hs => ⟨rfl, hs⟩
  | w :: l, _, hs => by
    obtain ⟨h1, h2⟩ := heldAll_outside h f l (heldNow_plainWake f w hs)
    exact ⟨h1.trans (heldNow_outside h f w hs), h2⟩

theorem heldFns_outside (h : [.pw, .slk, .zn, .pl, .fl, .ecc, .q, .stb, .jn, .stl, .ci, .ga, .cad] ⊆ L) : ∀ (l : List Nat) {s : State}, plainWake s →
    outside L (l.foldl (fun s f => (fnOf f s).held.foldl (fun s w => heldNow f w s) (updFn f (fun n => { n with held := [] }) s)) s) = outside L s
  | [], _, _ => rfl
  | f :: l, s, hs => by
    have hq : [.q] ⊆ L := List.Subset.trans (by decide) h
    obtain ⟨h1, h2⟩ := heldAll_outside h f (fnOf f s).held (s := updFn f (fun n => { n with held := [] }) s) hs
    exact (heldFns_outside h l h2).trans (h1.trans (updFn_outside hq ..))

theorem fwActivationEnd_frames (h : [.m, .pins, .pw, .slk, .zn, .pl, .fl, .ecc, .q, .stb, .jn, .stl, .ci, .ga, .cad, .free] ⊆ L) (ok : Bool) {s : State}
    (hs : plainWake s) : Frames L s (exec (.fwActivationEnd ok) s) := by
  have hio : ioComps ⊆ L := List.Subset.trans (by decide) h
  have hm : [.m, .q, .stb, .ci] ⊆ L := List.Subset.trans (by decide) h
  have hd : [.q, .stb, .ci] ⊆ L := List.Subset.trans (by decide) h
  have hraise : [.stb] ⊆ L := List.Subset.trans (by decide) h
  have hqc : [.q, .cad] ⊆ L := List.Subset.trans (by decide) h
  have hheld : [.pw, .slk, .zn, .pl, .fl, .ecc, .q, .stb, .jn, .stl, .ci, .ga, .cad] ⊆ L := List.Subset.trans (by decide) h
  have hint : [.m, .pins, .slk, .q, .stb, .ci] ⊆ L := List.Subset.trans (by decide) h
  have hms : [.m, .slk] ⊆ L := List.Subset.trans (by decide) h
  show Frames _ _ (execFwActivationEnd ok s)
  unfold execFwActivationEnd
  split
  · exact (frames_next s).mpr rfl
  split
  · exact (frames_next s).mpr rfl
  extract_lets w rev _ _ s1 s2 s3 s4
  have h1 : outside L s1 = outside L s := outside_mono hqc (by simp [s1])
  have h2 : outside L s2 = outside L s := (setMode_outside hm ..).trans (outside_ite h1 ((raise_outside hraise ..).trans h1))
  have h3 : outside L s3 = outside L s := (endFw_outside hd ..).trans ((raise_outside hraise ..).trans h2)
  have hp : plainWake s3 := by
    refine plainWake_of_pw (s := s) ?_ hs
    have e1 : s1.pw = s.pw := rfl
    have e2 : s2.pw = s.pw := (keeps_of_outside (x := .pw) (setMode_outside (List.Subset.refl _) ..) (by decide)).trans (by split <;> exact e1)
    exact (keeps_of_outside (x := .pw) (endFw_outside (List.Subset.refl _) ..) (by decide)).trans e2
  have h4 : outside L s4 = outside L s := (heldFns_outside hheld _ hp).trans h3
  clear_value s4
  exact (frames_doneIo hio _).mpr (outside_ite ((proofInterrupt_outside hint ..).trans (Eq.trans (outside_mono hms (by simp)) h4)) h4)

theorem testDrainEnd_frames (s : State) :
    Frames [.m, .pins, .tm, .pw, .slk, .zn, .pl, .fl, .ecc, .q, .stb, .jn, .ci, .ga, .cad, .free] s (exec .testDrainEnd s) := by
  show Frames _ _ (execTestDrainEnd s)
  unfold execTestDrainEnd
  split <;> simp

theorem registerWrite_frames (h : [.m, .pins, .tm, .pw, .slk, .zn, .pl, .fl, .ecc, .q, .stb, .jn, .stl, .ci, .ga, .cad, .rg, .free] ⊆ L)
    (fn space off width : Nat) (v : BitVec 64) {s : State} (hs : plainWake s) : Frames L s (exec (.registerWrite fn space off width v) s) := by
  have hio : ioComps ⊆ L := List.Subset.trans (by decide) h
  have hd : [.q, .stb, .ci] ⊆ L := List.Subset.trans (by decide) h
  have hsq : [.pw, .q, .stb, .ci] ⊆ L := List.Subset.trans (by decide) h
  have hcc : [.pw, .slk, .zn, .pl, .fl, .ecc, .q, .stb, .jn, .ci, .ga, .cad] ⊆ L := List.Subset.trans (by decide) h
  have hbar : [.m, .pins, .tm, .pw, .slk, .zn, .pl, .fl, .ecc, .q, .stb, .stl, .ci, .ga, .cad, .rg, .free] ⊆ L := List.Subset.trans (by decide) h
  have ht : outside L (touch fn s) = outside L s := touch_outside (List.Subset.trans (by decide) h) fn hs
  have hp := touch_plainWake fn hs
  show Frames _ _ (execRegisterWrite fn space off width v s)
  unfold execRegisterWrite
  extract_lets w s1
  have h1 : outside L s1 = outside L s := (bar0Write_outside hcc _ _ _ hp).trans ht
  have hp1 : plainWake s1 := bar0Write_plainWake _ _ _ hp
  clear_value s1
  split
  · exact (frames_next s).mpr rfl
  split
  · split
    · exact (frames_done hd _).mpr ht
    split
    · split
      · exact (frames_done hd _).mpr ht
      split
      · exact frames_mono hio (cqHeadDoorbell_frames _ _ _ _)
      · exact frames_mono hsq (sqTailDoorbell_frames _ _ _ hs)
    · exact (frames_doneIo hio _).mpr (outside_ite ((bar0Write_outside hcc _ _ _ hp1).trans h1) h1)
  split
  · exact (frames_doneIo hio _).mpr ((bar2Write_outside hbar ..).trans ht)
  · exact (frames_next s).mpr rfl

end

/-! ## Every command of storage -/

/-- A command that reaches the zones or the flash leaves the state as it is outside the components `mayChange` names. -/
theorem frames_mayChange_storage (i : Instr) (s : State) (hz : ((mayChange i).contains .zn || (mayChange i).contains .fl) = true)
    (hw : accesses i = true → plainWake s) : Frames (mayChange i) s (exec i s) := by
  cases i with
  | powerOn => exact frames_all _ _
  | sysRstNLow _ => exact frames_all _ _
  | deviceLevelPerst => exact frames_all _ _
  | deviceResetDrainEnd => exact frames_all _ _
  | portPerst _ => exact frames_all _ _
  | dlDown _ => exact dlDown_frames _ s
  | strapSample _ _ _ => exact strapSample_frames _ _ _ s
  | imageLoadEnd _ _ _ _ => exact imageLoadEnd_frames (List.Subset.refl _) _ _ _ _ s
  | flashDiscoveryEnd _ _ _ => exact flashDiscoveryEnd_frames (List.Subset.refl _) _ _ _ s
  | flushRehearsalEnd _ _ => exact flushRehearsalEnd_frames _ _ s
  | tableLoadEnd _ _ => exact tableLoadEnd_frames (List.Subset.refl _) _ _ s
  | proofLoadEnd => exact proofLoadEnd_frames s
  | recoveryEnd _ _ => exact recoveryEnd_frames _ _ s
  | startModeOverrun => exact startModeOverrun_frames s
  | ostlerWatchdogExpiry _ => exact ostlerWatchdogExpiry_frames _ s
  | spineLinkFault _ => exact spineLinkFault_frames _ s
  | refclk38m4Lost => exact refclk38m4Lost_frames s
  | pwrfailNFall => exact pwrfailNFall_frames s
  | cadPfAccepted _ => exact cadPfAccepted_frames _ s
  | emergencyFlushComplete _ _ => exact frames_all _ _
  | flushRestartDelayExpiry => exact frames_all _ _
  | thermalTrip _ _ => exact thermalTrip_frames _ _ s
  | thermalTripDrainEnd _ => exact thermalTripDrainEnd_frames _ s
  | slackDecision _ _ => exact slackDecision_frames _ _ s
  | namespaceCreate _ _ => exact adminIo_frames fun k s => nsCreateOn_outside (by simp) ..
  | namespaceDelete _ => exact frames_admin (L := [.slk, .zn, .pl, .fl, .q, .stb, .jn, .ci]) (by simp) fun k s => nsDeleteOn_outside (by simp) ..
  | namespaceAttachment _ _ => exact frames_admin (L := [.zn, .q, .stb, .jn, .ci]) (by simp) fun k s => nsAttachOn_outside (by simp) ..
  | write _ _ => exact io_frames fun k s => writeOn_outside (by simp) ..
  | writeZeroes _ => exact writeZeroes_frames _ s
  | zoneAppend _ _ => exact io_frames fun k s => writeOn_outside (by simp) ..
  | read _ => exact io_frames fun k s => readOn_outside (by simp) ..
  | datasetManagement _ _ => exact io_frames fun k s => dsmOn_outside (by simp) ..
  | flush _ => exact flush_frames _ s
  | zoneOpen _ => exact io_frames fun k s => zoneOpenOn_outside (by simp) ..
  | zoneClose _ => exact io_frames fun k s => zoneCloseOn_outside (by simp) ..
  | zoneFinish _ => exact io_frames fun k s => zoneFinishOn_outside (by simp) ..
  | zoneReset _ => exact io_frames fun k s => zoneResetOn_outside (by simp) ..
  | scrubbingReset _ => exact io_frames fun k s => scrubOn_outside (by simp) ..
  | zoneOfflineAction _ => exact zoneOfflineAction_frames _ s
  | setZoneDescriptorExtension _ => exact setZoneDescriptorExtension_frames _ s
  | reportZones _ => exact reportZones_frames _ s
  | extendedReportZones _ => exact extendedReportZones_frames _ s
  | placementOpen _ => exact io_frames fun k s => placementOpenOn_outside (by simp) ..
  | zoneFinishedByController _ => exact zoneFinishedByController_frames _ s
  | scrubComplete _ => exact scrubComplete_frames _ s
  | scrubScheduleBreakExpiry _ => exact scrubScheduleBreakExpiry_frames _ s
  | sanitizeBlockErase _ => exact frames_admin (L := [.m, .zn, .fl, .ecc, .q, .stb, .jn, .ci, .free]) (by simp) fun k s => sanitizeOn_outside (by simp) ..
  | sanitizeCryptoErase _ => exact frames_admin (L := [.m, .zn, .fl, .ecc, .q, .stb, .jn, .ci, .free]) (by simp) fun k s => sanitizeOn_outside (by simp) ..
  | sanitizeExitFailureMode _ => exact sanitizeExitFailureMode_frames _ s
  | sanitizeEnd _ => exact sanitizeEnd_frames _ s
  | formatNvm _ => exact frames_admin (L := [.slk, .zn, .pl, .fl, .q, .stb, .jn, .ci, .free]) (by simp) fun k s => formatOn_outside (by simp) ..
  | conventionalGarbageCollection => exact conventionalGarbageCollection_frames (List.Subset.refl _) s
  | setFeaturesYardLayout _ _ => exact frames_admin (L := [.m, .zn, .pl, .fl, .q, .stb, .jn, .ci]) (by simp) fun k s => setLayoutOn_outside (by simp) ..
  | fold _ => exact fold_frames _ s
  | paddockCompaction _ => exact paddockCompaction_frames (List.Subset.refl _) _ s
  | relocation _ => exact relocation_frames (List.Subset.refl _) _ s
  | wearLevelling _ => exact wearLevelling_frames (List.Subset.refl _) _ s
  | landingSpaceReturns _ => exact landingSpaceReturns_frames _ s
  | arrayOperationStart _ _ => exact arrayOperationStart_frames _ _ s
  | programEnd _ _ _ => exact programEnd_frames _ _ _ s
  | eraseEnd _ _ _ => exact eraseEnd_frames _ _ _ s
  | readEnd _ _ _ _ => exact readEnd_frames _ _ _ _ s
  | preProgramCheckEnd _ _ _ => exact preProgramCheckEnd_frames _ _ _ s
  | suspendArbiterDecision _ => exact suspendArbiterDecision_frames _ s
  | suspendRunMinReached _ _ => exact suspendRunMinReached_frames _ _ s
  | dieSuspended _ _ => exact dieSuspended_frames _ _ s
  | suspendHoldExpiry _ _ => exact suspendHoldExpiry_frames _ _ s
  | continuousReadWaitExpiry _ _ => exact continuousReadWaitExpiry_frames _ _ s
  | eyePass _ _ => exact eyePass_frames _ _ s
  | retrainEnd _ _ _ _ => exact retrainEnd_frames _ _ _ _ s
  | lunTimeout _ _ => exact lunTimeout_frames _ _ s
  | tackFirmwareRefresh _ _ => exact tackFirmwareRefresh_frames _ _ s
  | fchDiagGo _ _ _ => exact fchDiagGo_frames _ _ _ (hw rfl)
  | fchDiagDone _ _ _ _ => exact fchDiagDone_frames _ _ _ _ s
  | lowWearListRefillEnd _ _ => exact lowWearListRefillEnd_frames _ _ s
  | reconstructionEnd _ _ => exact reconstructionEnd_frames _ _ s
  | sramUncorrectableError _ _ _ _ _ _ => exact sramUncorrectableError_frames _ _ _ _ _ _ s
  | tableLineRebuildEnd _ _ _ _ => exact tableLineRebuildEnd_frames _ _ _ _ s
  | currycombPass _ => exact adminIo_frames fun k s => currycombOn_outside (by simp) ..
  | currycombAutoPassStart => exact currycombAutoPassStart_frames s
  | currycombPassEnd _ => exact currycombPassEnd_frames _ s
  | entropyHealthFail => exact entropyHealthFail_frames s
  | cqHeadDoorbell _ _ _ => exact cqHeadDoorbell_frames _ _ _ s
  | controllerEnable _ _ => exact controllerEnable_frames (List.Subset.refl _) _ _ (hw rfl)
  | controllerReset _ => exact controllerReset_frames (List.Subset.refl _) _ (hw rfl)
  | functionLevelResetPf _ => exact functionLevelResetPf_frames _ s
  | shutdownComplete _ => exact shutdownComplete_frames _ s
  | deleteIoSq _ => exact adminIo_frames fun k s => deleteSqOn_outside (by simp) ..
  | setFeaturesArbitration _ => exact setFeaturesArbitration_frames _ s
  | setFeaturesVolatileWriteCache _ => exact setFeaturesVolatileWriteCache_frames _ s
  | setFeaturesNumberOfQueues _ => exact setFeaturesNumberOfQueues_frames _ s
  | setFeaturesInterruptCoalescing _ => exact setFeaturesInterruptCoalescing_frames _ s
  | setFeaturesInterruptVectorConfig _ => exact setFeaturesInterruptVectorConfig_frames _ s
  | setFeaturesWriteAtomicity _ => exact setFeaturesWriteAtomicity_frames _ s
  | setFeaturesAsyncEventConfig _ => exact setFeaturesAsyncEventConfig_frames _ s
  | setFeaturesHostBehaviorSupport _ _ => exact setFeaturesHostBehaviorSupport_frames _ _ s
  | setFeaturesExtensionLevel _ => exact setFeaturesExtensionLevel_frames _ s
  | setFeaturesPowerManagement _ => exact setFeaturesPowerManagement_frames _ s
  | setFeaturesApst _ _ => exact setFeaturesApst_frames _ _ s
  | setFeaturesNopsc _ => exact setFeaturesNopsc_frames _ s
  | setFeaturesTemperatureThreshold _ => exact setFeaturesTemperatureThreshold_frames _ s
  | abort _ => exact adminIo_frames fun k s => abortOn_outside (by simp) ..
  | fwCommitCheckDone _ _ => exact fwCommitCheckDone_frames _ _ s
  | fwActivationEnd _ => exact fwActivationEnd_frames (List.Subset.refl _) _ (hw rfl)
  | hostMemoryError _ _ _ => exact hostMemoryError_frames _ _ _ s
  | gatherRead _ => exact io_frames fun k s => gatherOn_outside (by simp) ..
  | gatherChannelGrant _ => exact gatherChannelGrant_frames _ s
  | gatherReadComplete _ _ => exact gatherReadComplete_frames _ _ s
  | gdcStart _ _ _ _ => exact gdcRow_frames (hw rfl) _ _ _ _ _ _
  | gdcStop _ _ _ => exact gdcRow_frames (hw rfl) _ _ _ _ _ _
  | gdcResume _ _ _ _ => exact gdcRow_frames (hw rfl) _ _ _ _ _ _
  | gdcClear _ _ _ => exact gdcRow_frames (hw rfl) _ _ _ _ _ _
  | gdcTransferEnd _ _ _ => exact gdcTransferEnd_frames _ _ _ s
  | halfHitchAppend _ _ => exact io_frames fun k s => hhAppendOn_outside (by simp) ..
  | halfHitchAcceptance _ _ _ _ => exact halfHitchAcceptance_frames _ _ _ _ s
  | halfHitchRead _ => exact io_frames fun k s => hhReadOn_outside (by simp) ..
  | sealZone _ => exact io_frames fun k s => sealOn_outside (by simp) ..
  | vfEnableClear => exact vfEnableClear_frames s
  | virtMgmtSecondaryOffline _ => exact virtMgmtSecondaryOffline_frames (List.Subset.refl _) _ s
  | vfFunctionLevelReset _ => exact vfFunctionLevelReset_frames _ s
  | stallFreeze _ => exact stallFreeze_frames (List.Subset.refl _) _ s
  | stallFreezeQuiet _ => exact stallFreezeQuiet_frames _ s
  | stallFreezeTimeout _ => exact stallFreezeTimeout_frames _ s
  | stallRestore _ _ => exact stallRestore_frames _ _ s
  | cadPfSend _ => exact cadPfSend_frames _ (hw rfl)
  | housekeepingRound _ => exact housekeepingRound_frames (List.Subset.refl _) _ s
  | sleepHandshakeReply _ => exact sleepHandshakeReply_frames _ s
  | nonopExitEnd _ => exact nonopExitEnd_frames _ s
  | testEnter _ => exact testEnter_frames _ s
  | testDrainEnd => exact testDrainEnd_frames s
  | fptestEnd _ _ => exact fptestEnd_frames _ _ s
  | registerWrite _ _ _ _ _ => exact registerWrite_frames (List.Subset.refl _) _ _ _ _ _ (hw rfl)
  | powerLoss => exact frames_all _ _
  | journalCheckpoint => exact journalCheckpoint_frames s
  | _ => exact Bool.noConfusion hz

/-- Settles O9: alike outside a list of components is to have the others in common. -/
theorem framesOfStorage : Obligations.FramesOfStorage := by
  unfold Obligations.FramesOfStorage
  intro i s t hz _ hw he x hx
  have hz' : ((mayChange i).contains .zn || (mayChange i).contains .fl) = true := by simpa using hz
  exact keeps_of_outside (frames_mayChange_storage i s hz' hw t he) hx

/-- Settles O10: alike outside a list of components is to have the others in common. -/
theorem framesOfModeChanges : Obligations.FramesOfModeChanges := by
  unfold Obligations.FramesOfModeChanges
  intro i s t hz _ hw he x hx
  have hz' : ((mayChange i).contains .zn || (mayChange i).contains .fl) = true := by simpa using hz
  exact keeps_of_outside (frames_mayChange_storage i s hz' hw t he) hx

end Sys2Proof.Machine

/-! O11. The supplies and the reset pins. -/

namespace Sys2Proof.Machine
open Sys2Proof

/-! ## Components that an operation leaves -/

theorem cutAll_keeps {x : Comp} (hx : x ∉ [Comp.zn]) (s : State) : keeps x s (cutAll s) :=
  keeps_of_outside (cutAll_outside (List.Subset.refl _) s) hx

theorem cutRecovery_keeps {x : Comp} (hx : x ∉ [Comp.zn, .pl, .fl, .free]) (s : State) : keeps x s (cutRecovery s) :=
  keeps_of_outside (cutRecovery_outside (List.Subset.refl _) s) hx

theorem tornPage_keeps {x : Comp} (hx : x ∉ [Comp.jn, .free]) (s : State) : keeps x s (tornPage s) :=
  keeps_of_outside (tornPage_outside (List.Subset.refl _) s) hx

/-! ## Restarts -/

/-- What a restart empties, whichever supplies outlast it. -/
theorem restart_empties (aon keep : Bool) (s : State) :
    (restart aon keep s).m.cur = .reset ∧ (restart aon keep s).q.fns = [] ∧ (restart aon keep s).q.ctxs = [] ∧ (restart aon keep s).zn.wrs = [] ∧
      (restart aon keep s).ci.keys = [] ∧ (restart aon keep s).stb.queue = [] ∧ (restart aon keep s).stb.ring = [] :=
  ⟨rfl, rfl, rfl, rfl, rfl, rfl, rfl⟩

/-- What every restart keeps: the SPI NOR's slots, the count of power cycles, the levels of the reset pins and how the service
period closed. -/
theorem restart_stands (aon keep : Bool) (s : State) :
    (restart aon keep s).st.spiA = s.st.spiA ∧ (restart aon keep s).st.spiB = s.st.spiB ∧
      (restart aon keep s).q.powerCycles = s.q.powerCycles ∧ (restart aon keep s).pins.sysRstN = s.pins.sysRstN ∧
      (restart aon keep s).pins.perstA = s.pins.perstA ∧ (restart aon keep s).jn.closing = s.jn.closing := by
  have hst : (cutAll s).st = s.st := cutAll_keeps (x := .st) (by decide) s
  have hq : (cutAll s).q = s.q := cutAll_keeps (x := .q) (by decide) s
  have hpins : (cutAll s).pins = s.pins := cutAll_keeps (x := .pins) (by decide) s
  have hjn : (cutAll s).jn = s.jn := cutAll_keeps (x := .jn) (by decide) s
  refine ⟨?_, ?_, ?_, ?_, ?_, ?_⟩
  · show (cutAll s).st.spiA = _
    rw [hst]
  · show (cutAll s).st.spiB = _
    rw [hst]
  · show (cutAll s).q.powerCycles = _
    rw [hq]
  · show (cutAll s).pins.sysRstN = _
    rw [hpins]
  · show (cutAll s).pins.perstA = _
    rw [hpins]
  · show (cutAll s).jn.closing = _
    rw [hjn]

/-- A start of the device from a state whose supplies stand. -/
theorem startNow_after (s : State) :
    (startNow s).m.cur = .reset ∧ (startNow s).q.fns = [] ∧ (startNow s).q.ctxs = [] ∧ (startNow s).zn.wrs = [] ∧ (startNow s).img = s.img ∧
      (startNow s).q.powerCycles = s.q.powerCycles ∧ (startNow s).pins.sysRstN = s.pins.sysRstN ∧ (startNow s).pins.perstA = s.pins.perstA ∧
      (startNow s).jn.closing = s.jn.closing := by
  obtain ⟨hcur, hfns, hctxs, hwrs, -⟩ := restart_empties true false (cutRecovery s)
  obtain ⟨-, -, hcyc, hsys, hperst, hclose⟩ := restart_stands true false (cutRecovery s)
  have himg : (startNow s).img = (cutRecovery s).img := (restart_kept true false (cutRecovery s)).2.2.1
  have hq : (cutRecovery s).q = s.q := cutRecovery_keeps (x := .q) (by decide) s
  have hpins : (cutRecovery s).pins = s.pins := cutRecovery_keeps (x := .pins) (by decide) s
  exact ⟨hcur, hfns, hctxs, hwrs, himg.trans (cutRecovery_keeps (x := .img) (by decide) s), hcyc.trans (by rw [hq]), hsys.trans (by rw [hpins]),
    hperst.trans (by rw [hpins]), hclose.trans (by rw [show (cutRecovery s).jn = s.jn from cutRecovery_keeps (x := .jn) (by decide) s])⟩

/-- Settles O11: a restart is a restart's emptied components, and what the cut of the writes in flight leaves stands. -/
theorem powerAndResetPins : Obligations.PowerAndResetPins := by
  unfold Obligations.PowerAndResetPins
  refine ⟨fun s => ⟨⟨_, rfl, ?_⟩, ⟨_, rfl, ?_⟩⟩, fun s ns port => ⟨fun hns hm => ?_, fun hns hm hp => ?_, fun hns => ?_, rfl, ?_⟩⟩
  · obtain ⟨hcur, hfns, hctxs, hwrs, hkeys, hqueue, hring⟩ := restart_empties false false s
    obtain ⟨ha, hb, hcyc, -⟩ := restart_stands false false s
    exact ⟨hcur, hfns, hctxs, hwrs, hkeys, rfl, hqueue, hring, (restart_kept false false s).2.2.1, ha, hb, congrArg (· + 1) hcyc, rfl, rfl, rfl, rfl⟩
  · have hst : (tornPage (cutRecovery s)).st = s.st :=
      Eq.trans (tornPage_keeps (x := .st) (by decide) _) (cutRecovery_keeps (x := .st) (by decide) s)
    have hq : (tornPage (cutRecovery s)).q = s.q :=
      Eq.trans (tornPage_keeps (x := .q) (by decide) _) (cutRecovery_keeps (x := .q) (by decide) s)
    have hpart : (tornPage (cutRecovery s)).part = s.part := by
      have torn : ∀ t, (tornPage t).part = t.part := fun t => by unfold tornPage; split <;> rfl
      rw [torn, (Stays.of_steady (cutRecovery_steady s)).1]
    obtain ⟨hcur, hfns, hctxs, hwrs, hkeys, hqueue, hring⟩ := restart_empties false false (tornPage (cutRecovery s))
    obtain ⟨ha, hb, hcyc, -⟩ := restart_stands false false (tornPage (cutRecovery s))
    have himg : (restart false false (tornPage (cutRecovery s))).img = Img.dflt (tornPage (cutRecovery s)).part := (restart_kept false false _).2.2.1
    exact ⟨hcur, hfns, hctxs, hwrs, hkeys, rfl, hqueue, hring, himg.trans (by rw [hpart]), ha.trans (by rw [hst]), hb.trans (by rw [hst]),
      hcyc.trans (by rw [hq])⟩
  · have hrun : ¬ (s.m.cur = .emergencyFlush ∧ (!s.fl.parked) = true) := by
      rintro ⟨h1, h2⟩
      rcases hm with hm | hm
      · exact hm h1
      · simp [hm] at h2
    obtain ⟨hcur, hfns, hctxs, hwrs, himg, hcyc, hsys, -⟩ := startNow_after { tick s with pins := { s.pins with sysRstN := false } }
    refine ⟨startNow { tick s with pins := { s.pins with sysRstN := false } }, ?_, hcur, hsys, hfns, hctxs, hwrs, himg, hcyc⟩
    show execSysRstNLow ns s = _
    simp only [execSysRstNLow, hns, decide_true, Bool.true_or, Bool.not_true, Bool.false_eq_true, if_false, if_neg hrun]
    rfl
  · refine ⟨{ tick s with pins := { s.pins with sysRstN := false, heldReset := 1 } }, ?_, rfl, rfl, rfl, rfl⟩
    show execSysRstNLow ns s = _
    simp [execSysRstNLow, hns, hm, hp, tick]
  · refine ⟨tick s, ?_, rfl, rfl, rfl, rfl, rfl⟩
    show execSysRstNLow ns s = _
    simp [execSysRstNLow, show ¬ 10000 ≤ ns by omega, show ¬ 1000 < ns by omega]
  · refine ⟨_, rfl, rfl, ?_, fun hd => ?_, ?_⟩
    · split <;> rfl
    · split <;> simp [hd]
    · split <;> rfl

end Sys2Proof.Machine

/-! SUPPORT. The mode of the device: what warnings, a change of mode and the break of a proof-load's pulse leave of its record. -/

namespace Sys2Proof.Machine
open Sys2Proof

/-! ## Warnings and changes of mode -/

theorem aenAll_m (bitNo typ info log : Nat) (s : State) : (aenAll bitNo typ info log s).m = s.m :=
  keeps_of_outside (x := .m) (aenAll_outside (List.Subset.refl _) ..) (by decide)

/-- A warning changes the critical warnings of the mode's record and no other field. -/
theorem setWarn_m (b : Nat) (v : Bool) (s : State) : ∃ w : ModeS,
    (setWarn b v s).m = { s.m with warn0 := w.warn0, warn1 := w.warn1, warn2 := w.warn2, warn3 := w.warn3, warn4 := w.warn4 } := by
  refine ⟨(setWarn b v s).m, ?_⟩
  unfold setWarn
  extract_lets old _ m s1
  have hm : (if v && !old then aenAll b 1 (warnInfo b) 2 s1 else s1).m = m := by
    split
    · exact aenAll_m ..
    · rfl
  rw [hm]
  simp only [m]
  split <;> rfl

/-- A change of mode: the record of its entry, its stamps, and the warnings it raises. -/
theorem setMode_m {md : Mode} {s : State} (h : s.m.cur ≠ md) : ∃ w : ModeS, (setMode md s).m = { s.m with
    cur := md, prev := s.m.cur, chgCnt := w.chgCnt, stamp := w.stamp, since := w.since,
    warn0 := w.warn0, warn1 := w.warn1, warn2 := w.warn2, warn3 := w.warn3, warn4 := w.warn4 } := by
  refine ⟨(setMode md s).m, ?_⟩
  unfold setMode
  rw [if_neg h]
  extract_lets old s1 _ s2
  split
  · obtain ⟨w, hw⟩ := setWarn_m 1 true s2
    rw [hw]
    rfl
  · split
    · obtain ⟨w, hw⟩ := setWarn_m 3 true s2
      rw [hw]
      rfl
    · rfl

@[simp] theorem setMode_cur (md : Mode) (s : State) : (setMode md s).m.cur = md := by
  by_cases h : s.m.cur = md
  · simp [setMode, h]
  · obtain ⟨w, hw⟩ := setMode_m h
    rw [hw]

@[simp] theorem setMode_wt (md : Mode) (s : State) : (setMode md s).m.wt = s.m.wt := by
  by_cases h : s.m.cur = md
  · simp [setMode, h]
  · obtain ⟨w, hw⟩ := setMode_m h
    rw [hw]

theorem setMode_keeps {x : Comp} (hx : x ∉ [Comp.m, .q, .stb, .ci]) (md : Mode) (s : State) : keeps x s (setMode md s) :=
  keeps_of_outside (setMode_outside (List.Subset.refl _) md s) hx

theorem reBase_keeps {x : Comp} (hx : x ∉ [Comp.m, .q, .stb, .ci]) (s : State) : keeps x s (reBase s) :=
  keeps_of_outside (reBase_outside (List.Subset.refl _) s) hx

@[simp] theorem reBase_wt (s : State) : (reBase s).m.wt = s.m.wt := by
  unfold reBase
  split
  · exact setMode_wt ..
  · rfl

/-! ## The break of a proof-load's pulse -/

theorem proofInterrupt_keeps {x : Comp} (hx : x ∉ [Comp.m, .pins, .slk, .q, .stb, .ci]) (pf : Bool) (s : State) : keeps x s (proofInterrupt pf s) :=
  keeps_of_outside (proofInterrupt_outside (List.Subset.refl _) pf s) hx

/-- With no pulse under way a proof-load is broken off without a trace. -/
theorem proofInterrupt_quiet {s : State} (h : s.slk.phase ≠ .pulse) (pf : Bool) : proofInterrupt pf s =
    { s with pins := { s.pins with huLoad := false }, slk := { s.slk with window := false, phase := .idle } } := by
  unfold proofInterrupt
  rw [if_neg h]

theorem scaleQuotas_slk (s : State) : (scaleQuotas s).slk = { s.slk with fns := (scaleQuotas s).slk.fns } := by
  unfold scaleQuotas
  dsimp only
  split <;> rfl

/-- A pulse cut off counts as a failed proof-load, with result 7: WT is set and Slack reads 0. -/
theorem proofInterrupt_pulse {s : State} (h : s.slk.phase = .pulse) : (proofInterrupt false s).m.wt = true ∧ (proofInterrupt false s).slk.result = 7 ∧
    (proofInterrupt false s).slk.totalMiB = 0 ∧ (proofInterrupt false s).pins.huLoad = false := by
  unfold proofInterrupt
  rw [if_pos h]
  extract_lets _ s1 s2 _ _ s3
  have hpins : s3.pins.huLoad = false := by
    have hs2 : s2.pins = s1.pins := by
      simp only [s2]
      split
      · rfl
      · exact keeps_of_outside (x := .pins) (setWarn_outside (List.Subset.refl _) ..) (by decide)
    show s2.pins.huLoad = false
    rw [hs2]
    rfl
  have hslk : (noteOver (scaleQuotas s3)).slk.result = 7 ∧ (noteOver (scaleQuotas s3)).slk.totalMiB = 0 := by
    constructor
    · show (scaleQuotas s3).slk.result = 7
      rw [scaleQuotas_slk]
    · show (scaleQuotas s3).slk.totalMiB = 0
      rw [scaleQuotas_slk]
  have hscale : keeps .m s3 (scaleQuotas s3) := keeps_of_outside (scaleQuotas_outside (List.Subset.refl _) s3) (by decide)
  have hscale' : keeps .pins s3 (scaleQuotas s3) := keeps_of_outside (scaleQuotas_outside (List.Subset.refl _) s3) (by decide)
  have hbase : (reBase (noteOver (scaleQuotas s3))).slk = _ := reBase_keeps (x := .slk) (by decide) _
  have hbase' : (reBase (noteOver (scaleQuotas s3))).pins = _ := reBase_keeps (x := .pins) (by decide) _
  refine ⟨?_, ?_, ?_, ?_⟩
  · show (reBase (noteOver (scaleQuotas s3))).m.wt = true
    rw [reBase_wt]
    exact congrArg ModeS.wt hscale
  · exact (congrArg Slk.result hbase).trans hslk.1
  · exact (congrArg Slk.totalMiB hbase).trans hslk.2
  · exact (congrArg Pins.huLoad hbase').trans ((congrArg Pins.huLoad hscale').trans hpins)

end Sys2Proof.Machine

/-! O12. PERST# of the device and of a port. -/

namespace Sys2Proof.Machine
open Sys2Proof

/-! ## What a device-level PERST# does in each kind of mode -/

theorem devicePerst_starts {s : State} (h : s.m.cur.isStart = true ∨ s.m.cur = .retain) : devicePerst s = startNow s := by
  unfold devicePerst
  rcases h with h | h
  · cases hc : s.m.cur <;> simp_all [Mode.isStart]
  · simp [h]

theorem devicePerst_halted {s : State} (h : s.m.cur = .halted) : devicePerst s = s := by simp [devicePerst, h]

theorem devicePerst_drains {s : State} (h : s.m.cur.isBase = true ∨ s.m.cur = .sanitize ∨ s.m.cur = .fwActivate) (hd : s.m.drain = .none) :
    devicePerst s = { proofInterrupt false s with
      m := { (proofInterrupt false s).m with drain := .devReset }, slk := { (proofInterrupt false s).slk with admissionOff := true } } := by
  unfold devicePerst
  rcases h with h | h | h
  · cases hc : s.m.cur <;> simp_all [Mode.isBase, Mode.isStart]
  · simp [h, hd, Mode.isStart]
  · simp [h, hd, Mode.isStart]

/-! ## The reset of a port's functions -/

theorem portReset_keeps {x : Comp} (hx : x ∉ [Comp.pw, .slk, .zn, .pl, .fl, .ecc, .q, .stb, .stl, .ci, .ga, .cad]) (port : Nat) (s : State) :
    keeps x s (portReset port s) :=
  keeps_of_outside (portReset_outside (List.Subset.refl _) port s) hx

/-- In a mode of service the port's physical function, where it is present, has a function-level reset. -/
theorem portReset_base {s : State} {port f : Nat} (hb : s.m.cur.isBase = true) (hf : (if port = 0 then 0 else 1024) = f)
    (hp : fnPresent f s = true) : portReset port s = clearSlots (· == f) (pfReset f 2 s) := by
  have hm : ¬ (s.m.cur = .reset ∨ s.m.cur = .test ∨ s.m.cur = .emergencyFlush) := by
    rintro (h | h | h) <;> simp [h, Mode.isBase] at hb
  unfold portReset
  rw [if_neg hm]
  simp [hf, hp]

theorem clearSlots_fns_stl (p : Nat → Bool) (s : State) : (clearSlots p s).q = s.q ∧ (clearSlots p s).stl = s.stl :=
  ⟨keeps_of_outside (x := .q) (clearSlots_outside (List.Subset.refl _) p s) (by decide),
    keeps_of_outside (x := .stl) (clearSlots_outside (List.Subset.refl _) p s) (by decide)⟩

/-- Port A's reset disables its function and takes the stalls with it. -/
theorem portReset_A {s : State} (hb : s.m.cur.isBase = true) :
    (portReset 0 s).m.cur = s.m.cur ∧ (portReset 0 s).stl.vfEnable = false ∧ (fnOf 0 (portReset 0 s)).en = false := by
  obtain ⟨⟨n, hn⟩, -, hvf⟩ := pfReset_after 0 2 s
  have hm : (portReset 0 s).m = s.m := portReset_keeps (x := .m) (by decide) 0 s
  obtain ⟨hq, hstl⟩ := clearSlots_fns_stl (· == 0) (pfReset 0 2 s)
  refine ⟨by rw [hm], ?_, ?_⟩
  · rw [portReset_base (port := 0) (f := 0) hb rfl rfl, hstl]
    exact hvf rfl
  · rw [portReset_base (port := 0) (f := 0) hb rfl rfl, fnOf, hq, ← fnOf, hn]
    rfl

/-- Port B's reset disables its function and leaves VF Enable as it is. -/
theorem portReset_B {s : State} (hb : s.m.cur.isBase = true) (hp : fnPresent 1024 s = true) :
    (portReset 1 s).m.cur = s.m.cur ∧ (fnOf 1024 (portReset 1 s)).en = false ∧ (portReset 1 s).stl.vfEnable = s.stl.vfEnable := by
  obtain ⟨⟨n, hn⟩, -, -⟩ := pfReset_after 1024 2 s
  have hm : (portReset 1 s).m = s.m := portReset_keeps (x := .m) (by decide) 1 s
  obtain ⟨hq, hstl⟩ := clearSlots_fns_stl (· == 1024) (pfReset 1024 2 s)
  refine ⟨by rw [hm], ?_, ?_⟩
  · rw [portReset_base (port := 1) (f := 1024) hb rfl hp, fnOf, hq, ← fnOf, hn]
    rfl
  · rw [portReset_base (port := 1) (f := 1024) hb rfl hp, hstl]
    exact congrArg Stl.vfEnable (ctrlReset_after 1024 s).2.1

/-- Settles O12: PERST# starts, changes pins or begins a drain by the kind of mode; a port's reset is its physical function's. -/
theorem deviceAndPortResets : Obligations.DeviceAndPortResets := by
  unfold Obligations.DeviceAndPortResets
  refine ⟨fun s => ⟨fun h => ?_, fun h => ?_, fun h hd => ?_, fun hd hu ht => ?_⟩,
    fun s hdual hb => ⟨fun hB => ?_, fun hA hp => ?_, ?_, fun hB hd => ?_⟩⟩
  · let t := { s with pins := { s.pins with perstA := false, perstB := if s.pins.strapDual then false else s.pins.perstB } }
    obtain ⟨hcur, hfns, hctxs, -, -, -, -, hperst, -⟩ := startNow_after t
    refine ⟨devicePerst t, rfl, ?_⟩
    rw [devicePerst_starts (s := t) h]
    exact ⟨hcur, hfns, hctxs, hperst⟩
  · let t := { s with pins := { s.pins with perstA := false, perstB := if s.pins.strapDual then false else s.pins.perstB } }
    refine ⟨devicePerst t, rfl, ?_⟩
    rw [devicePerst_halted (s := t) h]
    exact ⟨rfl, rfl, rfl⟩
  · let t := { s with pins := { s.pins with perstA := false, perstB := if s.pins.strapDual then false else s.pins.perstB } }
    refine ⟨devicePerst t, rfl, ?_⟩
    rw [devicePerst_drains (s := t) h hd]
    refine ⟨rfl, rfl, proofInterrupt_keeps (x := .zn) (by decide) false t, fun hp => ?_, fun hp => ?_⟩
    · simp only [proofInterrupt_quiet (s := t) hp]
      exact ⟨rfl, rfl⟩
    · exact proofInterrupt_pulse (s := t) hp
  · obtain ⟨hcur, hfns, hctxs, -, -, -, -, -, hclose⟩ := startNow_after (cleanClose s)
    refine ⟨startNow (cleanClose s), ?_, hcur, hfns, hctxs, hclose.trans (cleanClose_after s).2.2⟩
    show execDeviceResetDrainEnd s = _
    simp [execDeviceResetDrainEnd, hd, hu, ht]
  · let t := { s with pins := { s.pins with perstA := false } }
    obtain ⟨hcur, hvf, hen⟩ := portReset_A (s := t) hb
    refine ⟨portReset 0 t, ?_, hcur, hvf, hen, congrArg Pins.perstA (portReset_keeps (x := .pins) (by decide) 0 t)⟩
    show execPortPerst 0 s = _
    simp [execPortPerst, hdual, hB, doneIo_after, t]
  · let t := { s with pins := { s.pins with perstB := false } }
    obtain ⟨hcur, hen, hvf⟩ := portReset_B (s := t) hb hp
    refine ⟨portReset 1 t, ?_, hcur, hen, hvf⟩
    show execPortPerst 1 s = _
    simp [execPortPerst, hdual, hA, doneIo_after, t]
  · obtain ⟨hcur, hvf, hen⟩ := portReset_A hb
    refine ⟨portReset 0 s, ?_, hcur, hvf, hen⟩
    show execDlDown 0 s = _
    simp [execDlDown, hdual, doneIo_after]
  · let t := { s with pins := { s.pins with perstA := false } }
    refine ⟨devicePerst t, ?_, ?_, ?_⟩
    · show execPortPerst 0 s = _
      simp [execPortPerst, hdual, hB, done_after, t]
    · rw [devicePerst_drains (s := t) (.inl hb) hd]
    · rw [devicePerst_drains (s := t) (.inl hb) hd]

end Sys2Proof.Machine

/-! SUPPORT. Halts and flushes: what they leave of the queues, the zones, the Slack account and the events raised. -/

namespace Sys2Proof.Machine
open Sys2Proof

/-- What every step of a loop keeps, the loop keeps. -/
theorem foldl_keeps {α β : Type} (p : State → β) (f : State → α → State) (h : ∀ s x, p (f s x) = p s) :
    ∀ (l : List α) (s : State), p (l.foldl f s) = p s
  | [], _ => rfl
  | x :: xs, s => (foldl_keeps p f h xs (f s x)).trans (h s x)

/-! ## Events raised -/

/-- The events raised in a state come first among those of another. -/
def grows (s t : State) : Prop := s.stb.raised <+: t.stb.raised

theorem grows_of_eq {s t : State} (h : t.stb.raised = s.stb.raised) : grows s t := by
  unfold grows
  rw [h]

theorem grows_refl (s : State) : grows s s := grows_of_eq rfl

theorem grows_trans {s t u : State} (h1 : grows s t) (h2 : grows t u) : grows s u := List.IsPrefix.trans h1 h2

theorem grows_raise (code sev : Nat) (args : List (List Nat)) (s : State) : grows s (raise code sev args s) := List.prefix_append ..

theorem grows_keeps {s t : State} (h : keeps .stb s t) : grows s t := grows_of_eq (congrArg Stb.raised h)

theorem grows_foldl {α : Type} (f : State → α → State) (h : ∀ s x, grows s (f s x)) : ∀ (l : List α) (s : State), grows s (l.foldl f s)
  | [], s => grows_refl s
  | x :: xs, s => grows_trans (h s x) (grows_foldl f h xs (f s x))

theorem cvuFold_stb (k : Ctx) (good : Bool) (s : State) : (cvuFold k good s).stb = s.stb := by
  unfold cvuFold
  exact foldl_keeps State.stb _ (fun _ _ => by unfold updCvu; rfl) _ _

/-- A completion raises no event. -/
theorem postFull_stb (k : Ctx) (sct sc dw0 cs1 : Nat) (data : List Byte) (s : State) : (postFull k sct sc dw0 cs1 data s).stb = s.stb := by
  have hlog : (if sct = 7 then logError k sct sc s else s).stb = s.stb := by split <;> rfl
  have hcq : ∀ e t, (cqPush k.cmd.fn e t).1.stb = t.stb := fun e t => keeps_of_outside (x := .stb) (cqPush_outside (List.Subset.refl _) ..) (by decide)
  unfold postFull
  split
  · rfl
  · split
    · rfl
    · extract_lets s1 r
      have hr : r.1.stb = s.stb := (hcq _ _).trans ((cvuFold_stb _ _ _).trans hlog)
      split
      · exact hr
      · exact hr

theorem deliverAen_stb (f : Nat) : ∀ (n : Nat) (s : State), (deliverAen f n s).stb = s.stb
  | 0, _ => rfl
  | n + 1, s => by
    unfold deliverAen
    split
    · exact (deliverAen_stb f n _).trans (postFull_stb ..)
    · rfl

theorem aenAll_stb (bitNo typ info log : Nat) (s : State) : (aenAll bitNo typ info log s).stb = s.stb := by
  refine foldl_keeps State.stb _ (fun t f => ?_) _ _
  split
  · unfold aenFn
    split
    · rfl
    · exact deliverAen_stb ..
  · rfl

theorem setWarn_stb (b : Nat) (v : Bool) (s : State) : (setWarn b v s).stb = s.stb := by
  unfold setWarn
  extract_lets old _ m s1
  split
  · exact aenAll_stb ..
  · rfl

theorem grows_setMode (md : Mode) (s : State) : grows s (setMode md s) := by
  unfold setMode
  split
  · exact grows_refl s
  · extract_lets old s1 _ s2
    have h : grows s s2 := grows_raise ..
    split
    · exact grows_trans h (grows_of_eq (congrArg Stb.raised (setWarn_stb ..)))
    · split
      · exact grows_trans h (grows_of_eq (congrArg Stb.raised (setWarn_stb ..)))
      · exact h

/-! ## Halts -/

theorem parkHalted_keeps {x : Comp} (hx : x ∉ [Comp.pins, .fl]) (s : State) : keeps x s (parkHalted s) :=
  keeps_of_outside (parkHalted_outside (List.Subset.refl _) s) hx

theorem parkHalted_down (s : State) : (parkHalted s).fl.down = s.fl.down := by
  unfold parkHalted
  split <;> rfl

/-- LUNs that are parked stay as they are. -/
theorem parkHalted_parked {s : State} (h : s.fl.parked = true) : parkHalted s = s := by
  simp [parkHalted, h]

/-- A change to a mode without a warning of its own touches the mode's record and raises its event. -/
theorem setMode_quiet {md : Mode} (hh : md ≠ .thermalHold) (hr : md ≠ .readOnly) (s : State) :
    (setMode md s).q = s.q ∧ (setMode md s).ci = s.ci := by
  unfold setMode
  split
  · exact ⟨rfl, rfl⟩
  · exact ⟨rfl, rfl⟩

/-- The record of a halt, before the mode changes. -/
def halting (s : State) : State :=
  { s with m := { s.m with drain := .none, testPend := false }
           pw := { s.pw with entering := 0, block := 0, exiting := false, wakePend := false }
           ts := { s.ts with life := { s.ts.life with halts := satAdd 32 s.ts.life.halts 1 } } }

theorem halt_eq {s : State} (hf : s.m.cur ≠ .emergencyFlush) (hh : s.m.cur ≠ .halted) : halt s = parkHalted (setMode .halted (halting s)) :=
  if_neg (not_or.2 ⟨hf, hh⟩)

/-- A halt, in a mode that can: HALTED, with the queues and the zones as they stood. -/
theorem halt_after {s : State} (hf : s.m.cur ≠ .emergencyFlush) (hh : s.m.cur ≠ .halted) :
    (halt s).m.cur = .halted ∧ (halt s).zn = s.zn ∧ (halt s).q = s.q ∧ grows s (halt s) ∧ (halt s).fl.down = s.fl.down := by
  rw [halt_eq hf hh]
  have hmode : ∀ {x : Comp}, x ∉ [Comp.m, .q, .stb, .ci] → keeps x (halting s) (setMode .halted (halting s)) := fun hx => setMode_keeps hx _ _
  have hpark : ∀ {x : Comp}, x ∉ [Comp.pins, .fl] → keeps x (setMode .halted (halting s)) (parkHalted (setMode .halted (halting s))) :=
    fun hx => parkHalted_keeps hx _
  have hgrow : grows (halting s) (setMode .halted (halting s)) := grows_setMode ..
  refine ⟨?_, ?_, ?_, ?_, ?_⟩
  · exact (congrArg ModeS.cur (hpark (x := .m) (by decide))).trans (setMode_cur ..)
  · exact Eq.trans (hpark (x := .zn) (by decide)) (hmode (x := .zn) (by decide))
  · exact Eq.trans (hpark (x := .q) (by decide)) (setMode_quiet (by decide) (by decide) _).1
  · exact grows_trans hgrow (grows_keeps (hpark (x := .stb) (by decide)))
  · exact (parkHalted_down _).trans (congrArg Fl.down (hmode (x := .fl) (by decide)))

/-- A halt with the LUNs parked finds nothing more to park. -/
theorem halt_parked {s : State} (hf : s.m.cur ≠ .emergencyFlush) (hh : s.m.cur ≠ .halted) (h : s.fl.parked = true) :
    (halt s).fl = s.fl ∧ (halt s).slk = s.slk := by
  have hfl : (setMode .halted (halting s)).fl = s.fl := setMode_keeps (x := .fl) (by decide) _ _
  have hslk : (setMode .halted (halting s)).slk = s.slk := setMode_keeps (x := .slk) (by decide) _ _
  rw [halt_eq hf hh, parkHalted_parked (by rw [hfl]; exact h)]
  exact ⟨hfl, hslk⟩

/-! ## Writes discarded -/

theorem returnCharge_admissionOff (id n : Nat) (s : State) : (returnCharge id n s).slk.admissionOff = s.slk.admissionOff := by
  unfold returnCharge
  split <;> rfl

theorem discardWrite_admissionOff (id : Nat) (s : State) : (discardWrite id s).slk.admissionOff = s.slk.admissionOff := by
  unfold discardWrite
  split
  · rfl
  · exact returnCharge_admissionOff ..

/-- The writes that Slack has not decided are dropped; whether the device admits writes stays. -/
theorem dropUndecided_admissionOff (s : State) : (dropUndecided s).slk.admissionOff = s.slk.admissionOff := by
  refine foldl_keeps (fun t => t.slk.admissionOff) _ (fun t w => ?_) _ _
  have hcut : (cutWrite w t).slk = t.slk := keeps_of_outside (x := .slk) (cutWrite_outside (List.Subset.refl _) w t) (by decide)
  rw [discardWrite_admissionOff, hcut]

/-- The last action of a drain or a flush on the array: what it leaves besides Slack, zones, pens, array and passes. -/
def stopAll (s : State) : State := dropPasses (fun _ => true) (stopArray (dropUndecided s))

theorem stopAll_keeps {x : Comp} (hx : x ∉ [Comp.slk, .zn, .pl, .fl, .ecc]) (s : State) : keeps x s (stopAll s) :=
  keeps_of_outside (L := [Comp.slk, .zn, .pl, .fl, .ecc]) (by simp [stopAll]) hx

theorem stopAll_admissionOff (s : State) : (stopAll s).slk.admissionOff = s.slk.admissionOff := by
  have hpass : ∀ t, (dropPasses (fun _ => true) t).slk = t.slk := fun t =>
    keeps_of_outside (x := .slk) (dropPasses_outside (List.Subset.refl _) _ t) (by decide)
  unfold stopAll
  rw [hpass]
  exact dropUndecided_admissionOff s

/-! ## Flushes -/

theorem sumN_zeros (l : List Nat) (h : ∀ x ∈ l, x = 0) : sumN l = 0 := by
  induction l with
  | nil => rfl
  | cons x xs ih =>
    have hx : x = 0 := h x (by simp)
    subst hx
    exact ih (fun y hy => h y (by simp [hy]))

/-- With every account at 0 nothing acknowledged is in use. -/
theorem useBytes_of_emptied {s : State} {t : Tbl SlkFn} (h : s.slk.fns = Tbl.mapV t (fun _ a => { a with useQ := 0, useP := 0 })) : useBytes s = 0 := by
  refine sumN_zeros _ (fun x hx => ?_)
  rw [h, Tbl.mapV, List.map_map] at hx
  obtain ⟨p, -, rfl⟩ := List.mem_map.1 hx
  rfl

/-- The flush of the data leaves no write in flight, no array operation and nothing acknowledged unwritten. -/
theorem flushData_after (s : State) : (flushData s).zn.wrs = [] ∧ (flushData s).fl.ops = [] ∧ useBytes (flushData s) = 0 := by
  unfold flushData
  extract_lets ws s1 lost s2 s3
  have hzn : s3.zn = (cutAll s2).zn := keeps_of_outside (x := .zn) (closeReserve_outside (List.Subset.refl _) _) (by decide)
  refine ⟨?_, rfl, useBytes_of_emptied rfl⟩
  show s3.zn.wrs = []
  rw [hzn]
  rfl

theorem convErased_stands (p : Nat) (s : State) : (convErased p s).fl = s.fl ∧ (convErased p s).zn = s.zn :=
  ⟨keeps_of_outside (x := .fl) (convErased_outside (List.Subset.refl _) p s) (by decide),
    keeps_of_outside (x := .zn) (convErased_outside (List.Subset.refl _) p s) (by decide)⟩

/-- An erase repeated leaves the writes in flight and the array's operations. -/
theorem reErase_wrs_ops (key : Nat) (s : State) : (reErase key s).zn.wrs = s.zn.wrs ∧ (reErase key s).fl.ops = s.fl.ops := by
  unfold reErase
  dsimp only
  split
  · exact ⟨by rw [(convErased_stands _ _).2]; rfl, by rw [(convErased_stands _ _).1]; rfl⟩
  · exact ⟨rfl, rfl⟩

theorem cutRecovery_wrs_ops (s : State) : (cutRecovery s).zn.wrs = s.zn.wrs ∧ (cutRecovery s).fl.ops = s.fl.ops := by
  unfold cutRecovery
  split
  · exact ⟨foldl_keeps (fun t => t.zn.wrs) _ (fun t k => (reErase_wrs_ops k t).1) _ _,
      foldl_keeps (fun t => t.fl.ops) _ (fun t k => (reErase_wrs_ops k t).2) _ _⟩
  · exact ⟨rfl, rfl⟩

theorem hotFlush_ops (temp : Int) (hot : Bool) (s : State) : (hotFlush temp hot s).fl.ops = s.fl.ops := by
  unfold hotFlush
  dsimp only
  split <;> rfl

theorem flushFixed_keeps {x : Comp} (hx : x ∉ [Comp.pins, .zn, .pl, .fl, .stb, .jn, .free]) (bytes : Nat) (s : State) : keeps x s (flushFixed bytes s) :=
  keeps_of_outside (flushFixed_outside (List.Subset.refl _) bytes s) hx

/-- The fixed part of a flush parks the LUNs with WP low and adds no write and no array operation. -/
theorem flushFixed_after (bytes : Nat) (s : State) :
    (flushFixed bytes s).fl.parked = true ∧ (flushFixed bytes s).pins = { s.pins with wpLow := true } ∧ (flushFixed bytes s).zn.wrs = s.zn.wrs ∧
      (flushFixed bytes s).fl.ops = s.fl.ops := by
  obtain ⟨hwrs, hops⟩ := cutRecovery_wrs_ops s
  unfold flushFixed
  extract_lets s1 s2 _
  have hbook : ∀ {x : Comp}, x ∉ [Comp.stb, .free, .jn] → keeps x (cutRecovery s) s1 := fun hx =>
    keeps_of_outside (L := [Comp.stb, .free, .jn]) (by simp [s1]) hx
  have hzn : s1.zn = (cutRecovery s).zn := hbook (x := .zn) (by decide)
  have hfl : s1.fl = (cutRecovery s).fl := hbook (x := .fl) (by decide)
  have hpins : s1.pins = s.pins := Eq.trans (hbook (x := .pins) (by decide)) (cutRecovery_keeps (x := .pins) (by decide) s)
  have h2 : s2.zn.wrs = s1.zn.wrs ∧ s2.fl = s1.fl ∧ s2.pins = s1.pins := by
    simp only [s2]
    split <;> exact ⟨rfl, rfl, rfl⟩
  obtain ⟨hwrs2, hfl2, hpins2⟩ := h2
  refine ⟨rfl, ?_, ?_, ?_⟩
  · show ({ s2.pins with wpLow := true } : Pins) = _
    rw [hpins2, hpins]
  · show s2.zn.wrs = _
    rw [hwrs2, hzn, hwrs]
  · show s2.fl.ops = _
    rw [hfl2, hfl, hops]

/-- The flush of the data leaves no write in flight, no array operation and nothing acknowledged unwritten; the mode, the pins, the start and
the journal stand. -/
theorem hotFlush_flushData_after (temp : Int) (hot : Bool) (s : State) :
    (hotFlush temp hot (flushData s)).zn.wrs = [] ∧ (hotFlush temp hot (flushData s)).fl.ops = [] ∧ useBytes (hotFlush temp hot (flushData s)) = 0 ∧
      (hotFlush temp hot (flushData s)).m = s.m ∧ (hotFlush temp hot (flushData s)).pins = s.pins ∧ (hotFlush temp hot (flushData s)).st = s.st ∧
      (hotFlush temp hot (flushData s)).jn = s.jn := by
  obtain ⟨hwrs, hops, huse⟩ := flushData_after s
  have hhot : ∀ {x : Comp}, x ∉ [Comp.fl, .stb] → keeps x (flushData s) (hotFlush temp hot (flushData s)) := fun hx =>
    keeps_of_outside (hotFlush_outside (List.Subset.refl _) ..) hx
  have hdata : ∀ {x : Comp}, x ∉ [Comp.slk, .zn, .pl, .fl, .ecc, .q, .stb, .ci, .free] → keeps x s (flushData s) := fun hx =>
    keeps_of_outside (flushData_outside (List.Subset.refl _) s) hx
  refine ⟨?_, (hotFlush_ops ..).trans hops, ?_, Eq.trans (hhot (x := .m) (by decide)) (hdata (x := .m) (by decide)),
    Eq.trans (hhot (x := .pins) (by decide)) (hdata (x := .pins) (by decide)), Eq.trans (hhot (x := .st) (by decide)) (hdata (x := .st) (by decide)),
    Eq.trans (hhot (x := .jn) (by decide)) (hdata (x := .jn) (by decide))⟩
  · exact (congrArg (·.wrs) (hhot (x := .zn) (by decide))).trans hwrs
  · rw [useBytes, show (hotFlush temp hot (flushData s)).slk = _ from hhot (x := .slk) (by decide)]
    exact huse

/-- The rest of a flush: its figures and its fixed part. -/
def flushTail (us bytes : Nat) (s : State) : State := flushFixed bytes (lastFlush us bytes s)

theorem lastFlush_keeps {x : Comp} (hx : x ∉ [Comp.jn]) (us bytes : Nat) (s : State) : keeps x s (lastFlush us bytes s) :=
  keeps_of_outside (lastFlush_outside (List.Subset.refl _) us bytes s) hx

/-- The rest of a flush parks the LUNs with WP low; the mode, Slack and the writes in flight stand. -/
theorem flushTail_after (us bytes : Nat) (s : State) :
    (flushTail us bytes s).m = s.m ∧ (flushTail us bytes s).slk = s.slk ∧ (flushTail us bytes s).fl.parked = true ∧
      (flushTail us bytes s).pins = { s.pins with wpLow := true } ∧ (flushTail us bytes s).zn.wrs = s.zn.wrs ∧
      (flushTail us bytes s).fl.ops = s.fl.ops := by
  obtain ⟨hpark, hpins, hwrs, hops⟩ := flushFixed_after bytes (lastFlush us bytes s)
  have hlast : ∀ {x : Comp}, x ∉ [Comp.jn] → keeps x s (lastFlush us bytes s) := fun hx => lastFlush_keeps hx us bytes s
  refine ⟨Eq.trans (flushFixed_keeps (x := .m) (by decide) _ _) (hlast (x := .m) (by decide)),
    Eq.trans (flushFixed_keeps (x := .slk) (by decide) _ _) (hlast (x := .slk) (by decide)), hpark, ?_,
    hwrs.trans (congrArg (·.wrs) (hlast (x := .zn) (by decide))), hops.trans (congrArg Fl.ops (hlast (x := .fl) (by decide)))⟩
  rw [show (flushTail us bytes s).pins = _ from hpins, show (lastFlush us bytes s).pins = s.pins from hlast (x := .pins) (by decide)]

end Sys2Proof.Machine

/-! O17. Fatal faults and thermal trips. -/

namespace Sys2Proof.Machine
open Sys2Proof

theorem isStart_runs {md : Mode} (h : md.isStart = true) : md ≠ .emergencyFlush ∧ md ≠ .halted := by
  cases md <;> simp_all [Mode.isStart]

/-- A fault that raises its event and halts. -/
theorem halt_raise_after {s : State} (hf : s.m.cur ≠ .emergencyFlush) (hh : s.m.cur ≠ .halted) (code sev : Nat) (args : List (List Nat)) :
    (halt (raise code sev args s)).m.cur = .halted ∧ raises code (halt (raise code sev args s)) ∧
      (halt (raise code sev args s)).zn = s.zn ∧ (halt (raise code sev args s)).q = s.q ∧ (halt (raise code sev args s)).fl.down = s.fl.down := by
  obtain ⟨hcur, hzn, hq, hgrow, hdown⟩ := halt_after (s := raise code sev args s) hf hh
  exact ⟨hcur, raises_mono hgrow (raises_raise ..), hzn, hq, hdown⟩

/-- A trip counted in service life. -/
def tripped (s : State) : State := { s with ts := { s.ts with life := { s.ts.life with trips := satAdd 32 s.ts.life.trips 1 } } }

/-- A thermal trip in a mode of service breaks a proof-load off and begins a drain with admission off. -/
def tripDrain (die : Nat) (temp : Int) (s : State) : State :=
  { proofInterrupt false (tripped s) with
    m := { (proofInterrupt false (tripped s)).m with drain := .thermalTrip die temp, testPend := false }
    pins := { (proofInterrupt false (tripped s)).pins with huChgEn := s.pins.huChgEn, huLoad := false }
    slk := { (proofInterrupt false (tripped s)).slk with admissionOff := true } }

theorem execThermalTrip_drains {s : State} (die : Nat) (temp : Int) (hm : s.m.cur.isBase = true ∨ s.m.cur = .sanitize) (hd : s.m.drain = .none) :
    execThermalTrip die temp s = .next (after (stopAll (tripDrain die temp s))) := by
  have hrun : s.m.cur ≠ .test ∧ s.m.cur ≠ .emergencyFlush ∧ ¬ (s.m.cur = .reset ∨ s.m.cur = .imageLoad) := by
    rcases hm with hm | hm
    · cases hc : s.m.cur <;> simp_all [Mode.isBase]
    · simp [hm]
  obtain ⟨ht, hf, hr⟩ := hrun
  unfold execThermalTrip
  dsimp only
  rw [if_neg ht, if_neg hf, if_neg hr, hd]
  rfl

/-- A thermal trip in a mode of service: the drain begins, admission stops, the trip counts. -/
theorem tripDrain_after (die : Nat) (temp : Int) (s : State) :
    (stopAll (tripDrain die temp s)).m.drain = .thermalTrip die temp ∧ (stopAll (tripDrain die temp s)).slk.admissionOff = true ∧
      (s.slk.phase ≠ .pulse → (stopAll (tripDrain die temp s)).m.cur = s.m.cur) ∧
      (stopAll (tripDrain die temp s)).ts.life.trips = satAdd 32 s.ts.life.trips 1 := by
  rw [show (stopAll (tripDrain die temp s)).m = _ from stopAll_keeps (x := .m) (by decide) _,
    show (stopAll (tripDrain die temp s)).ts = _ from stopAll_keeps (x := .ts) (by decide) _, stopAll_admissionOff]
  refine ⟨rfl, rfl, fun hp => ?_, ?_⟩
  · show (proofInterrupt false (tripped s)).m.cur = s.m.cur
    rw [proofInterrupt_quiet (s := tripped s) hp]
    rfl
  · show (proofInterrupt false (tripped s)).ts.life.trips = _
    rw [show (proofInterrupt false (tripped s)).ts = _ from proofInterrupt_keeps (x := .ts) (by decide) false (tripped s)]
    rfl

/-- A drain that is over. -/
def undrained (s : State) : State := { s with m := { s.m with drain := .none } }

/-- The drain of a thermal trip: the whole flush, then the halt. -/
theorem execThermalTripDrainEnd_eq {s : State} {die : Nat} {temp : Int} (us : Nat) (hd : s.m.drain = .thermalTrip die temp) : ∃ hot t,
    execThermalTripDrainEnd us s = .next (after (tripRecord die temp (halt t))) ∧
      t = undrained (flushTail us (useBytes s) (hotFlush hot (s.m.thm == 2) (flushData s))) := by
  unfold execThermalTripDrainEnd
  rw [hd]
  exact ⟨_, _, rfl, rfl⟩

/-- The drain of a thermal trip ends in HALTED with everything acknowledged written and the LUNs parked. -/
theorem thermalTripDrainEnd_halts {s : State} {die : Nat} {temp : Int} (us : Nat) (hd : s.m.drain = .thermalTrip die temp)
    (hf : s.m.cur ≠ .emergencyFlush) (hh : s.m.cur ≠ .halted) :
    ∃ u, execThermalTripDrainEnd us s = .next (after u) ∧ u.m.cur = .halted ∧ raises 0xB050 u ∧ u.fl.parked = true ∧
      useBytes u = 0 ∧ u.zn.wrs = [] := by
  obtain ⟨hot, t, hend, rfl⟩ := execThermalTripDrainEnd_eq us hd
  obtain ⟨hwrs, -, huse, hm, -⟩ := hotFlush_flushData_after hot (s.m.thm == 2) s
  generalize hotFlush hot (s.m.thm == 2) (flushData s) = d at hwrs huse hm hend
  obtain ⟨hm2, hslk2, hpark, -, hwrs2, -⟩ := flushTail_after us (useBytes s) d
  generalize flushTail us (useBytes s) d = w at hm2 hslk2 hpark hwrs2 hend
  have hcur : (undrained w).m.cur = s.m.cur := by
    rw [← hm, ← hm2]
    rfl
  rw [← hcur] at hf hh
  obtain ⟨hcur3, hzn3, -⟩ := halt_after hf hh
  obtain ⟨hfl3, hslk3⟩ := halt_parked hf hh hpark
  refine ⟨_, hend, hcur3, raises_raise .., ?_, ?_, ?_⟩
  · show (halt (undrained w)).fl.parked = true
    rw [hfl3]
    exact hpark
  · show sumN ((halt (undrained w)).slk.fns.map _) = 0
    rw [hslk3, show (undrained w).slk = d.slk from hslk2]
    exact huse
  · show (halt (undrained w)).zn.wrs = []
    rw [hzn3]
    exact hwrs2.trans hwrs

/-- Settles O17: each fault's event and halt; a trip's drain and what it leaves. -/
theorem faultsAndTripsHalt : Obligations.FaultsAndTripsHalt := by
  unfold Obligations.FaultsAndTripsHalt
  refine ⟨fun s core shed => ⟨fun hs => ?_, fun hr ht hf hh hshed => ?_, fun hr ht hf hh => ?_, fun hf hh => ?_, fun hr hret hcore hcores => ?_⟩,
    fun die us temp s => ⟨fun hm hd => ⟨_, execThermalTrip_drains die temp hm hd, tripDrain_after die temp s⟩, fun hm => ?_,
      fun hd hf hh => thermalTripDrainEnd_halts us hd hf hh⟩⟩
  · obtain ⟨hf, hh⟩ := isStart_runs hs
    obtain ⟨hcur, hev, hzn, hq, -⟩ := halt_raise_after hf hh 0x10E0 3 [h1 s.m.cur.code]
    exact ⟨_, if_pos hs, hcur, hev, hzn, hq⟩
  · obtain ⟨hcur, hev, hzn, hq, hdown⟩ := halt_raise_after
      (s := { s with fl := { s.fl with down := if s.fl.down.contains shed then s.fl.down else s.fl.down ++ [shed] } }) hf hh 0x5050 3 [h1 (shed + 1)]
    refine ⟨_, if_neg (by simp [hr, ht]; omega), hcur, hev, ?_, hzn, hq⟩
    rw [hdown]
    by_cases hc : s.fl.down.contains shed <;> simp_all
  · obtain ⟨hcur, hzn, hq, -⟩ := halt_after hf hh
    exact ⟨_, if_neg (by simp [hr, ht]), hcur, hzn, hq⟩
  · obtain ⟨hcur, hev, hzn, hq, -⟩ := halt_raise_after hf hh 0x8031 3 []
    exact ⟨_, rfl, hcur, hev, hzn, hq⟩
  · refine ⟨raise 0x1050 1 [h1 core] { s with m := { s.m with cores := [core] } }, ?_, rfl, rfl, raises_raise ..⟩
    show execOstlerWatchdogExpiry core s = _
    simp [execOstlerWatchdogExpiry, hr, hret, hcores, done_after, show ¬ 16 ≤ core by omega]
  · have hrun : s.m.cur ≠ .test ∧ s.m.cur ≠ .emergencyFlush ∧ s.m.cur ≠ .halted := by
      rcases hm with hm | hm <;> simp [hm]
    obtain ⟨ht, hf, hh⟩ := hrun
    obtain ⟨hcur, hev, -⟩ := halt_raise_after (s := tripped s) hf hh 0xB050 3 [h1 die, hT temp]
    refine ⟨_, ?_, hcur, hev⟩
    show execThermalTrip die temp s = _
    unfold execThermalTrip
    rw [if_neg ht, if_neg hf, if_pos hm]
    rfl

end Sys2Proof.Machine

/-! O18. Power failures. -/

namespace Sys2Proof.Machine
open Sys2Proof

/-! ## The start of a flush -/

/-- A proof-load broken off by a power failure changes one pin, and adds to the events. -/
theorem proofInterrupt_pf (s : State) : (proofInterrupt true s).pins = { s.pins with huLoad := false } ∧ grows s (proofInterrupt true s) := by
  by_cases hp : s.slk.phase = .pulse
  · unfold proofInterrupt
    rw [if_pos hp]
    extract_lets _ s1 s2 _ _ s3
    have h1 : grows s s1 := grows_raise ..
    have h2 : s2.pins = s1.pins ∧ grows s1 s2 := by
      simp only [s2]
      split
      · exact ⟨rfl, grows_refl _⟩
      · exact ⟨keeps_of_outside (x := .pins) (setWarn_outside (List.Subset.refl _) ..) (by decide),
          grows_of_eq (congrArg Stb.raised (setWarn_stb ..))⟩
    obtain ⟨hpins, hgrow⟩ := h2
    exact ⟨hpins, grows_trans h1 hgrow⟩
  · rw [proofInterrupt_quiet hp]
    exact ⟨rfl, grows_refl s⟩

/-- The end of a drain changes at most the reset held for later, and adds to the events. -/
theorem endDrain_pwrfailN (s : State) : (endDrain s).pins.pwrfailN = s.pins.pwrfailN ∧ grows s (endDrain s) := by
  unfold endDrain
  dsimp only
  split
  · exact ⟨rfl, grows_refl s⟩
  · exact ⟨rfl, grows_raise ..⟩
  · exact ⟨rfl, grows_refl s⟩

theorem fenceGather_grows (f : Nat) (s : State) : grows s (fenceGather f s) := by
  unfold fenceGather
  dsimp only
  split
  · exact grows_refl s
  · exact grows_raise ..

/-- What a power failure breaks off before the mode changes: the proof-load, the drain and the gathers. -/
def breakOff (s : State) : State := (allFns s).foldl (fun s f => fenceGather f s) (endDrain (proofInterrupt true s))

theorem breakOff_after (s : State) : (breakOff s).pins.pwrfailN = s.pins.pwrfailN ∧ grows s (breakOff s) := by
  obtain ⟨hp1, hg1⟩ := proofInterrupt_pf s
  obtain ⟨hp2, hg2⟩ := endDrain_pwrfailN (proofInterrupt true s)
  have hp3 : (breakOff s).pins = (endDrain (proofInterrupt true s)).pins :=
    keeps_of_outside (x := .pins) (outside_foldl (L := [Comp.ga, .q, .stb]) _ (fun t f => fenceGather_outside (List.Subset.refl _) f t) _ _) (by decide)
  refine ⟨?_, grows_trans hg1 (grows_trans hg2 (grows_foldl _ (fun t f => fenceGather_grows f t) _ _))⟩
  rw [hp3, hp2, hp1]

/-- A flush takes the charger and the load off, stops admission and Slack's round, and wakes the device. -/
def flushing (s : State) : State :=
  { s with
    pins := { s.pins with huChgEn := false, huLoad := false }
    slk := { s.slk with admissionOff := true, phase := .idle, window := false }
    fl := { s.fl with parked := s.m.cur == .retain }
    pw := { s.pw with entering := 0, exiting := false, wakeCause := if 3 ≤ s.pw.ps ∨ s.pw.entering ≠ 0 then 4 else s.pw.wakeCause
                      duringEntry := if 3 ≤ s.pw.ps ∨ s.pw.entering ≠ 0 then decide (s.pw.entering ≠ 0) else s.pw.duringEntry } }

theorem beginFlush_eq {s : State} (src : Nat) (h : s.m.cur.flushable = true) :
    beginFlush src s = stopAll (setMode .emergencyFlush (raise 0x2040 2 [h2 (useKiB s), h1 src] (flushing (breakOff s)))) := by
  unfold beginFlush
  rw [if_neg (by simp [h])]
  rfl

/-- A flush begins, in a mode that may flush: the mode, admission off, the charger off, its event among those raised. -/
theorem beginFlush_after {s : State} (src : Nat) (h : s.m.cur.flushable = true) :
    (beginFlush src s).m.cur = .emergencyFlush ∧ (beginFlush src s).slk.admissionOff = true ∧ (beginFlush src s).pins.huChgEn = false ∧
      (beginFlush src s).pins.pwrfailN = s.pins.pwrfailN ∧ raises 0x2040 (beginFlush src s) ∧ grows s (beginFlush src s) := by
  obtain ⟨hp, hg⟩ := breakOff_after s
  rw [beginFlush_eq src h]
  generalize breakOff s = b at hp hg
  have hmode : ∀ {x : Comp}, x ∉ [Comp.m, .q, .stb, .ci] → keeps x (raise 0x2040 2 [h2 (useKiB s), h1 src] (flushing b))
      (setMode .emergencyFlush (raise 0x2040 2 [h2 (useKiB s), h1 src] (flushing b))) := fun hx => setMode_keeps hx _ _
  have hcur := setMode_cur .emergencyFlush (raise 0x2040 2 [h2 (useKiB s), h1 src] (flushing b))
  have hslk := hmode (x := .slk) (by decide)
  have hpins := hmode (x := .pins) (by decide)
  have hgrow := grows_setMode .emergencyFlush (raise 0x2040 2 [h2 (useKiB s), h1 src] (flushing b))
  have hraise : grows s (raise 0x2040 2 [h2 (useKiB s), h1 src] (flushing b)) :=
    grows_trans hg (show grows b _ from grows_raise 0x2040 2 [h2 (useKiB s), h1 src] (flushing b))
  have hev := raises_raise 0x2040 2 [h2 (useKiB s), h1 src] (flushing b)
  generalize setMode .emergencyFlush (raise 0x2040 2 [h2 (useKiB s), h1 src] (flushing b)) = t at hcur hslk hpins hgrow
  have hstop : (stopAll t).pins = t.pins := stopAll_keeps (x := .pins) (by decide) t
  have hstb : grows t (stopAll t) := grows_keeps (stopAll_keeps (by decide) t)
  refine ⟨?_, ?_, ?_, ?_, raises_mono (grows_trans hgrow hstb) hev, grows_trans hraise (grows_trans hgrow hstb)⟩
  · rw [show (stopAll t).m = t.m from stopAll_keeps (x := .m) (by decide) t]
    exact hcur
  · rw [stopAll_admissionOff]
    exact congrArg Slk.admissionOff hslk
  · rw [hstop]
    exact congrArg Pins.huChgEn hpins
  · rw [hstop]
    exact (congrArg Pins.pwrfailN hpins).trans hp

/-! ## The end of a flush -/

theorem cutRecovery_stands (s : State) : (cutRecovery s).st = s.st ∧ (cutRecovery s).jn = s.jn :=
  ⟨cutRecovery_keeps (x := .st) (by decide) s, cutRecovery_keeps (x := .jn) (by decide) s⟩

/-- The fixed part of a flush closes an open service period, after a finished start; a period closed already keeps its own record. -/
theorem flushFixed_jn (bytes : Nat) (s : State) :
    (s.st.up = true → s.jn.opened = true → (flushFixed bytes s).jn.closing = .flush ∧ (flushFixed bytes s).jn.opened = false) ∧
      (s.jn.opened = false → (flushFixed bytes s).jn.closing = s.jn.closing) ∧ (flushFixed bytes s).jn.lastFlush = s.jn.lastFlush := by
  obtain ⟨hst, hjn⟩ := cutRecovery_stands s
  unfold flushFixed
  extract_lets s1 s2 _
  have hst1 : s1.st = s.st := Eq.trans (keeps_of_outside (L := [Comp.stb, .free, .jn]) (x := .st) (by simp [s1]) (by decide)) hst
  have hbook : (flushStudbook (cutRecovery s)).jn = (cutRecovery s).jn :=
    keeps_of_outside (x := .jn) (flushStudbook_outside (List.Subset.refl _) _) (by decide)
  have hjn1 : s1.jn.opened = s.jn.opened ∧ s1.jn.closing = s.jn.closing ∧ s1.jn.lastFlush = s.jn.lastFlush := by
    rw [← hjn, ← hbook]
    exact ⟨rfl, rfl, rfl⟩
  obtain ⟨hopen, hclose, hlast⟩ := hjn1
  have h2 : s2.st = s1.st ∧ s2.jn = s1.jn := by
    simp only [s2]
    split <;> exact ⟨rfl, rfl⟩
  obtain ⟨hst2, hjn2⟩ := h2
  have hlast2 : s2.jn.lastFlush = s.jn.lastFlush := by rw [hjn2, hlast]
  simp only [hst2, hst1, hjn2, hopen]
  refine ⟨fun hu ho => ?_, fun ho => ?_, ?_⟩
  · simp [hu, ho]
  · simp [ho, hclose]
  · split
    · exact hlast2
    · exact hlast

/-- What the journal holds once a flush is done. -/
theorem flushTail_jn (us bytes : Nat) (s : State) :
    (s.st.up = true → s.jn.opened = true → (flushTail us bytes s).jn.closing = .flush ∧ (flushTail us bytes s).jn.opened = false) ∧
      (s.jn.opened = false → (flushTail us bytes s).jn.closing = s.jn.closing) ∧
      (s.st.up = true → (flushTail us bytes s).jn.lastFlush.state = 1) := by
  obtain ⟨hclosed, hkept, hlast⟩ := flushFixed_jn bytes (lastFlush us bytes s)
  have hst : (lastFlush us bytes s).st = s.st := lastFlush_keeps (x := .st) (by decide) us bytes s
  have hjn : (lastFlush us bytes s).jn.opened = s.jn.opened ∧ (lastFlush us bytes s).jn.closing = s.jn.closing := by
    unfold lastFlush
    split <;> exact ⟨rfl, rfl⟩
  obtain ⟨hopen, hclose⟩ := hjn
  rw [hst, hopen] at hclosed
  rw [hopen, hclose] at hkept
  refine ⟨hclosed, hkept, fun hu => ?_⟩
  rw [show (flushTail us bytes s).jn.lastFlush = _ from hlast]
  simp [lastFlush, hu]

theorem heldResets_none {s : State} (h : s.pins.heldReset = 0) : heldResets s = s := by
  simp [heldResets, h]

/-- The end of a flush: the data, the event, the rest, and the mode it goes back to. -/
theorem execEmergencyFlushComplete_eq {s : State} (temp : Int) (us : Nat) (hm : s.m.cur = .emergencyFlush) (hp : s.fl.parked = false) : ∃ hot args w,
    execEmergencyFlushComplete temp us s = .next (after (heldResets (if s.m.prev = .halted then setMode .halted w else w))) ∧
      w = flushTail us (useBytes s) (raise 0x2041 1 args (hotFlush temp hot (flushData s))) := by
  unfold execEmergencyFlushComplete
  rw [if_neg (by simp [hm, hp])]
  exact ⟨_, _, _, rfl, rfl⟩

theorem emergencyFlushComplete_ends {s : State} (temp : Int) (us : Nat) (hm : s.m.cur = .emergencyFlush) (hp : s.fl.parked = false)
    (hr : s.pins.heldReset = 0) :
    ∃ u, execEmergencyFlushComplete temp us s = .next (after u) ∧ u.fl.parked = true ∧ u.pins.wpLow = true ∧ useBytes u = 0 ∧
      u.zn.wrs = [] ∧ u.fl.ops = [] ∧ u.m.cur = (if s.m.prev = .halted then .halted else .emergencyFlush) ∧
      (s.st.up = true → s.jn.opened = true → u.jn.closing = .flush ∧ u.jn.opened = false) ∧
      (s.jn.opened = false → u.jn.closing = s.jn.closing) ∧ (s.st.up = true → u.jn.lastFlush.state = 1) := by
  obtain ⟨hot, args, w, hend, hw⟩ := execEmergencyFlushComplete_eq temp us hm hp
  obtain ⟨hwrs, hops, huse, hm1, hpins1, hst1, hjn1⟩ := hotFlush_flushData_after temp hot s
  generalize hotFlush temp hot (flushData s) = d at hwrs hops huse hm1 hpins1 hst1 hjn1 hw
  obtain ⟨hm2, hslk2, hpark, hpins2, hwrs2, hops2⟩ := flushTail_after us (useBytes s) (raise 0x2041 1 args d)
  obtain ⟨hclosed, hkept, hlast⟩ := flushTail_jn us (useBytes s) (raise 0x2041 1 args d)
  rw [← hw] at hm2 hslk2 hpark hpins2 hwrs2 hops2 hclosed hkept hlast
  have hst2 : (raise 0x2041 1 args d).st = s.st := hst1
  have hjn2 : (raise 0x2041 1 args d).jn = s.jn := hjn1
  rw [hst2, hjn2] at hclosed
  rw [hjn2] at hkept
  rw [hst2] at hlast
  have hmode : ∀ {x : Comp}, x ∉ [Comp.m, .q, .stb, .ci] → keeps x w (if s.m.prev = .halted then setMode .halted w else w) := fun hx => by
    split
    · exact setMode_keeps hx ..
    · exact keeps_of_outside (L := []) rfl (by simp)
  have hcur : (if s.m.prev = .halted then setMode .halted w else w).m.cur = if s.m.prev = .halted then .halted else .emergencyFlush := by
    split
    · exact setMode_cur ..
    · rw [hm2]
      exact (congrArg ModeS.cur hm1).trans hm
  have hfl := hmode (x := .fl) (by decide)
  have hpins := hmode (x := .pins) (by decide)
  have hslk := hmode (x := .slk) (by decide)
  have hzn := hmode (x := .zn) (by decide)
  have hjn := hmode (x := .jn) (by decide)
  generalize (if s.m.prev = .halted then setMode .halted w else w) = v at hend hcur hfl hpins hslk hzn hjn
  have hheld : v.pins.heldReset = 0 := by
    rw [show v.pins = _ from hpins, hpins2]
    exact (congrArg Pins.heldReset hpins1).trans hr
  rw [heldResets_none hheld] at hend
  refine ⟨v, hend, (congrArg Fl.parked hfl).trans hpark, ?_, ?_, (congrArg (·.wrs) hzn).trans (hwrs2.trans hwrs),
    (congrArg Fl.ops hfl).trans (hops2.trans hops),
    hcur, ?_⟩
  · rw [show v.pins = _ from hpins, hpins2]
  · rw [useBytes, show v.slk = _ from hslk, hslk2]
    exact huse
  · rw [show v.jn = _ from hjn]
    exact ⟨hclosed, hkept, hlast⟩

/-- Settles O18: the start of a flush, the restart after it, and the state a complete one leaves. -/
theorem powerFailFlushes : Obligations.PowerFailFlushes := by
  unfold Obligations.PowerFailFlushes
  refine ⟨fun s => ⟨fun hm ht => ?_, rfl, fun hm hp hn => ?_, fun ns hns hc hr hm ht => ?_⟩, fun temp us s hm hp hr =>
    emergencyFlushComplete_ends temp us hm hp hr⟩
  · obtain ⟨v, hv, hcur, hpins⟩ : ∃ v, execPwrfailNFall s = .next (after (beginFlush 0 v)) ∧ v.m = s.m ∧ v.pins.pwrfailN = false := by
      unfold execPwrfailNFall
      rw [if_neg ht]
      simp only [hm, if_true]
      refine ⟨_, rfl, ?_, ?_⟩
      · split <;> rfl
      · split <;> rfl
    obtain ⟨h1, h2, h3, h4, h5, -⟩ := beginFlush_after (s := v) 0 (by rw [hcur]; exact hm)
    exact ⟨_, hv, h1, h2, h3, h4.trans hpins, h5⟩
  · obtain ⟨hcur, hfns, hctxs, -⟩ := restart_empties true true s
    have hslk : (cutAll s).slk = s.slk := cutAll_keeps (x := .slk) (by decide) s
    refine ⟨restart true true s, if_pos ⟨hm, hp, hn⟩, hcur, hfns, hctxs, (restart_kept true true s).2.2.1, ?_, ?_⟩
    · show (cutAll s).slk.result = _
      rw [hslk]
    · show (cutAll s).slk.proofCnt = _
      rw [hslk]
  · obtain ⟨v, hv, hcur, hev⟩ : ∃ v, execCadPfAccepted ns s = .next (after (beginFlush 1 v)) ∧ v.m = s.m ∧ raises 0xA040 v := by
      unfold execCadPfAccepted
      rw [if_neg (by simp [hc, hr]; omega), if_neg ht]
      simp only [hm, if_true]
      refine ⟨_, rfl, ?_, raises_raise ..⟩
      split <;> rfl
    obtain ⟨h1, h2, -, -, h5, h6⟩ := beginFlush_after (s := v) 1 (by rw [hcur]; exact hm)
    exact ⟨_, hv, h1, h2, raises_mono h6 hev, h5⟩

end Sys2Proof.Machine

/-! SUPPORT. The zones under the placement and the decision of writes: only a zone's own write moves its write pointer. -/

namespace Sys2Proof.Machine
open Sys2Proof

/-! ## The zones stand while a write is placed and decided -/

theorem postWrite_zones (id wpath : Nat) (isHeld : Bool) (s : State) : (postWrite id wpath isHeld s).zn.zones = s.zn.zones := by
  unfold postWrite
  split
  · rfl
  · split
    · rfl
    · split
      · rfl
      · extract_lets s1 s2
        have h2 : s2.zn.zones = s.zn.zones :=
          congrArg (·.zones) (keeps_of_outside (x := .zn) (postFull_outside (L := [Comp.q, .stb, .ci]) (List.Subset.refl _) ..) (by decide))
        split
        · exact h2
        · exact h2

theorem returnCharge_zones (id n : Nat) (s : State) : (returnCharge id n s).zn.zones = s.zn.zones := by
  unfold returnCharge
  split <;> rfl

theorem wrDurable_zones (id : Nat) (s : State) : (wrDurable id s).zn.zones = s.zn.zones := by
  unfold wrDurable
  split
  · rfl
  · extract_lets s1
    have h1 : s1.zn.zones = s.zn.zones := by
      simp only [s1]
      split
      · exact postWrite_zones ..
      · exact postWrite_zones ..
      · rfl
    have hwake : ∀ t, (wakeFlushes t).zn = t.zn := fun t => keeps_of_outside (x := .zn) (wakeFlushes_outside (List.Subset.refl _) t) (by decide)
    rw [hwake]
    exact (returnCharge_zones ..).trans h1

theorem overtake_zones (w : Wr) (lo hi : Nat) (s : State) : (overtake w lo hi s).zn.zones = s.zn.zones := by
  unfold overtake
  split
  · refine foldl_keeps (fun t => t.zn.zones) _ (fun t v => ?_) _ _
    extract_lets gone s1 s2
    split
    · rfl
    · split
      · split
        · exact (wrDurable_zones ..).trans (returnCharge_zones ..)
        · exact returnCharge_zones ..
      · exact returnCharge_zones ..
  · rfl

theorem placeWrite_zones (id : Nat) (s : State) : (placeWrite id s).zn.zones = s.zn.zones :=
  congrArg (·.zones) (keeps_of_outside (x := .zn) (placeWrite_outside (List.Subset.refl _) id s) (by decide))

theorem decideOne_zones (id : Nat) (s : State) : (decideOne id s).zn.zones = s.zn.zones := by
  unfold decideOne
  split
  · rfl
  · split
    · rfl
    · split
      · exact (placeWrite_zones ..).trans ((overtake_zones ..).trans (postWrite_zones ..))
      · refine (placeWrite_zones ..).trans ?_
        split <;> rfl
      · exact placeWrite_zones ..

theorem decideAll_zones (s : State) : (decideAll s).zn.zones = s.zn.zones := by
  unfold decideAll
  split
  · rfl
  · exact foldl_keeps (fun t => t.zn.zones) _ (fun t id => decideOne_zones id t) _ _

/-! ## The write pointer of a zone -/

/-- A zone's write pointer, where there is such a zone. -/
def wpAt (z : Nat) (s : State) : Option Nat := (zoneAt? z s).map (·.wp)

theorem wpAt_of_zones {s t : State} (h : t.zn.zones = s.zn.zones) (z : Nat) : wpAt z t = wpAt z s := by
  unfold wpAt zoneAt?
  rw [h]

/-- A change of a zone that leaves its write pointer. -/
theorem wpAt_updZone (z y : Nat) {g : Zone → Zone} (h : ∀ q, (g q).wp = q.wp) (s : State) : wpAt z (updZone y g s) = wpAt z s := by
  unfold wpAt
  by_cases hz : z = y
  · subst hz
    rw [zoneAt_updZone, Option.map_map]
    congr 1
    exact funext h
  · rw [zoneAt_updZone_other _ _ _ _ hz]

theorem makeFull_wpAt (z y : Nat) (s : State) : wpAt z (makeFull y s) = wpAt z s := by
  unfold makeFull
  split
  · rfl
  · extract_lets r
    have hr : r.2.zn = s.zn := keeps_of_outside (x := .zn) (giveBack_outside (List.Subset.refl _) ..) (by decide)
    exact (wpAt_updZone z y (by intro; rfl) r.2).trans (wpAt_of_zones (congrArg (·.zones) hr) z)

theorem sealAfter_wpAt (z y : Nat) (s : State) : wpAt z (sealAfter y s) = wpAt z s := by
  unfold sealAfter
  split
  · rfl
  · split
    · rfl
    · refine foldl_keeps (wpAt z) _ (fun t u => ?_) _ _
      split
      · rfl
      · split
        · exact wpAt_updZone z y (by intro; rfl) t
        · rfl

/-- An accepted write advances its zone's write pointer by its length. -/
theorem acceptZone_wpAt (z len : Nat) (s : State) : wpAt z (acceptZone z len s) = (wpAt z s).map (· + len) := by
  unfold acceptZone
  extract_lets _ s1 s2
  have h2 : wpAt z s2 = (wpAt z s).map (· + len) := by
    simp only [s2, wpAt, zoneAt_updZone, Option.map_map]
    rfl
  split
  · split
    · exact (makeFull_wpAt ..).trans h2
    · exact h2
  · exact h2

/-- A write taken into the staging memory moves no write pointer. -/
theorem takeWrite_wpAt (k : Ctx) (o pos len yard gen : Nat) (zn : Option Zone) (fua : Bool) (blks : List Blk) (s : State) (z : Nat) :
    wpAt z (takeWrite k o pos len yard gen zn fua blks s).2 = wpAt z s := by
  refine wpAt_of_zones ?_ z
  unfold takeWrite
  dsimp only
  split <;> rfl

/-- What follows the staging of a write without protection information: Slack's decision, the seal, the placing. -/
theorem afterStage_wpAt (k : Ctx) {n : Ns} (hn : n.piType = 0) (id lba : Nat) (blks : List Blk) (s : State) (z : Nat) :
    wpAt z (afterStage k n id lba blks s) = wpAt z s := by
  unfold afterStage
  split
  · rfl
  · split
    · rename_i e he
      simp [piWrite, hn] at he
    · extract_lets _ s1 s2
      have h2 : wpAt z s2 = wpAt z s := sealAfter_wpAt ..
      split
      · split
        · exact (wpAt_of_zones (placeWrite_zones ..) z).trans h2
        · exact (wpAt_of_zones (decideAll_zones ..) z).trans h2
      · rfl

end Sys2Proof.Machine

/-! O24. Writes to zones. -/

namespace Sys2Proof.Machine
open Sys2Proof

/-- A zone that takes writes: of the command's namespace, zoned and without protection information, uncompressed and unsealed, in a device
that takes writes. -/
structure Writable (k : Ctx) (s : State) (n : Ns) (z off : Nat) (q : Zone) : Prop where
  perm : k.snap.write = true
  few : nblocks k.cmd ≤ 512
  ns : nsFor? k.cmd.fn k.cmd.nsid s = some n
  zoned : n.conv = false
  plain : n.piType = 0
  last : slbaOf k.cmd + nblocks k.cmd ≤ n.nsze
  first : slbaOf k.cmd < n.nsze
  at_ : zoneOfLba n (slbaOf k.cmd) = some (z, off)
  zone : zoneAt? z s = some q
  awake : s.m.cur ≠ .sanitize
  spares : s.m.sparesOut = false
  cool : s.m.thm = 0
  uncomp : q.comp = false
  unsealed : q.sealF = false

section
variable {k : Ctx} {s : State} {n : Ns} {z off : Nat} {q : Zone}

/-- In such a device check 1 of Table 4.5 finds nothing. -/
theorem writeModeStatus_none (h : Writable k s n z off q) (y : Nat) : writeModeStatus y s = (none, s) := by
  simp [writeModeStatus, modeStatus, h.awake, h.spares, h.cool]

theorem writeOn_zoned (h : Writable k s n z off q) (kind : WKind) (blks : List Blk) : writeOn kind blks k s = zoneWrite kind n blks k s := by
  have hfew := h.few
  unfold writeOn withNs
  rw [h.ns]
  simp [h.perm, h.zoned, show ¬ 512 < nblocks k.cmd by omega]

/-- The checks of Table 4.5 after the mode's. -/
theorem zoneWrite_checks (h : Writable k s n z off q) (kind : WKind) (blks : List Blk) : ∃ w : State, zoneWrite kind n blks k s =
    (if kind = .append ∧ (off ≠ 0 ∨ 512 < nblocks k.cmd) then fin k 0 0x02 s
      else if !(kind == .append && (stateStatus q).isSome) && decide (zcapLbas s.fl.geom < (if kind = .append then q.wp / 2 else off) + nblocks k.cmd) then
        fin k 1 0xB8 s
      else match stateStatus q with
        | some e => fin k e.1 e.2 s
        | none => if kind ≠ .append ∧ 2 * off ≠ q.wp then fin k 1 0xBC s else w) ∧
    (q.st.isOpen = true → wpAt z w = some (q.wp + 2 * nblocks k.cmd)) := by
  have hlast := h.last
  have hfirst := h.first
  unfold zoneWrite
  rw [if_neg (by omega), h.at_]
  dsimp only
  rw [h.zone]
  dsimp only
  rw [writeModeStatus_none h]
  simp only [h.uncomp, Bool.false_eq_true, if_false, sealDenied, h.unsealed, Bool.false_and, piAppendBad, h.plain]
  refine ⟨_, rfl, fun ho => ?_⟩
  rw [if_neg (by simp)]
  simp only [ho, if_true, h.zone]
  rw [afterStage_wpAt _ h.plain, acceptZone_wpAt, takeWrite_wpAt]
  simp [wpAt, h.zone]

theorem stateStatus_open (ho : q.st.isOpen = true) : stateStatus q = none := by
  cases hst : q.st <;> simp_all [stateStatus, ZS.isOpen]

/-- A write at the write pointer of an open zone, within its capacity, moves the write pointer by its blocks. -/
theorem writeOn_wpAt (h : Writable k s n z off q) {kind : WKind} (ho : q.st.isOpen = true)
    (hw : (kind ≠ .append ∧ 2 * off = q.wp ∧ off + nblocks k.cmd ≤ zcapLbas s.fl.geom) ∨
      (kind = .append ∧ off = 0 ∧ q.wp / 2 + nblocks k.cmd ≤ zcapLbas s.fl.geom)) (blks : List Blk) :
    wpAt z (writeOn kind blks k s) = some (q.wp + 2 * nblocks k.cmd) := by
  obtain ⟨w, hz, hwp⟩ := zoneWrite_checks h kind blks
  have hfew := h.few
  have hw' : zoneWrite kind n blks k s = w := by
    rw [hz, stateStatus_open ho]
    rcases hw with ⟨hk, hoff, hcap⟩ | ⟨hk, hoff, hcap⟩
    · simp [hk, hoff, show ¬ zcapLbas s.fl.geom < off + nblocks k.cmd by omega]
    · simp [hk, hoff, show ¬ 512 < nblocks k.cmd by omega, show ¬ zcapLbas s.fl.geom < q.wp / 2 + nblocks k.cmd by omega]
  rw [writeOn_zoned h, hw', hwp ho]

/-- A Write past the zone's capacity. -/
theorem writeOn_past (h : Writable k s n z off q) (hcap : zcapLbas s.fl.geom < off + nblocks k.cmd) (blks : List Blk) :
    writeOn .write blks k s = fin k 1 0xB8 s := by
  obtain ⟨w, hz, -⟩ := zoneWrite_checks h .write blks
  rw [writeOn_zoned h, hz]
  simp [hcap]

/-- A Write within the capacity of a zone whose state takes none. -/
theorem writeOn_state (h : Writable k s n z off q) (hcap : off + nblocks k.cmd ≤ zcapLbas s.fl.geom) {e : Nat × Nat} (he : stateStatus q = some e)
    (blks : List Blk) : writeOn .write blks k s = fin k e.1 e.2 s := by
  obtain ⟨w, hz, -⟩ := zoneWrite_checks h .write blks
  rw [writeOn_zoned h, hz, he]
  simp [show ¬ zcapLbas s.fl.geom < off + nblocks k.cmd by omega]

/-- A Write elsewhere than at the write pointer of an open zone. -/
theorem writeOn_elsewhere (h : Writable k s n z off q) (hcap : off + nblocks k.cmd ≤ zcapLbas s.fl.geom) (ho : q.st.isOpen = true)
    (hoff : 2 * off ≠ q.wp) (blks : List Blk) : writeOn .write blks k s = fin k 1 0xBC s := by
  obtain ⟨w, hz, -⟩ := zoneWrite_checks h .write blks
  rw [writeOn_zoned h, hz, stateStatus_open ho]
  simp [hoff, show ¬ zcapLbas s.fl.geom < off + nblocks k.cmd by omega]

end

/-- An I/O command of a plain form, with no sanitize in the way, ends with what its meaning leaves. -/
theorem doneIo_gateIo {c : Cmd} {s s1 : State} {k : Ctx} (ht : taken c s = some (k, s1)) (hp : plainForm k) (hn : notSanitizing s1)
    (f : Ctx → State → State) : doneIo (withCmd c s (fun k s => gateIo k s f)) = .next (afterIo (f k s1)) := by
  rw [withCmd_taken ht, gateIo_plain hp hn, doneIo_after]

section
variable {c : Cmd} {s s1 : State} {k : Ctx}

theorem exec_write_taken (ht : taken c s = some (k, s1)) (hp : plainForm k) (hn : notSanitizing s1) (blks : List Blk) :
    exec (.write c blks) s = .next (afterIo (writeOn .write blks k s1)) := doneIo_gateIo ht hp hn (writeOn .write blks)

theorem exec_zoneAppend_taken (ht : taken c s = some (k, s1)) (hp : plainForm k) (hn : notSanitizing s1) (blks : List Blk) :
    exec (.zoneAppend c blks) s = .next (afterIo (writeOn .append blks k s1)) := doneIo_gateIo ht hp hn (writeOn .append blks)

theorem exec_writeZeroes_taken (ht : taken c s = some (k, s1)) (hp : plainForm k) (hn : notSanitizing s1) : ∃ blks,
    exec (.writeZeroes c) s = .next (afterIo (writeOn .zeroes blks k s1)) :=
  ⟨_, doneIo_gateIo ht hp hn (fun k s => writeOn .zeroes (match nsAt? c.nsid s with | some n => zeroBlks (nblocks c) n | none => []) k s)⟩

end

/-- Settles O24: the checks of Table 4.5 let a write at an open zone's write pointer through, which then moves by its blocks. -/
theorem zoneWrites : Obligations.ZoneWrites := by
  unfold Obligations.ZoneWrites
  intro c blks s s1 k n z off q ht hp hn hperm hfew hns hconv hpi hlast hfirst hat hzone hspares hthm hcomp hseal
  obtain rfl := taken_cmd ht
  have h : Writable k s1 n z off q := ⟨hperm, hfew, hns, hconv, hpi, hlast, hfirst, hat, hzone, hn.1, hspares, hthm, hcomp, hseal⟩
  have hwrite := exec_write_taken ht hp hn blks
  have happend := exec_zoneAppend_taken ht hp hn blks
  obtain ⟨zeros, hzeroes⟩ := exec_writeZeroes_taken ht hp hn
  have hend : ∀ {sct sc : Nat}, writeOn .write blks k s1 = fin k sct sc s1 →
      ∃ u, exec (.write k.cmd blks) s = .next (afterIo u) ∧ endsWith k sct sc 0 [] s1 u := fun he => ⟨_, hwrite, k, rfl, rfl, rfl, he⟩
  refine ⟨fun ho hoff hcap => ⟨⟨_, hwrite, ?_⟩, ⟨_, hzeroes, ?_⟩⟩, fun ho hoff _ hcap => ⟨_, happend, ?_⟩,
    fun hcap ho hoff => ?_, fun hcap hst => ?_, fun hcap hst => ?_, fun hcap => ?_⟩
  · exact writeOn_wpAt h ho (.inl ⟨by decide, hoff, hcap⟩) blks
  · exact writeOn_wpAt h ho (.inl ⟨by decide, hoff, hcap⟩) zeros
  · exact writeOn_wpAt h ho (.inr ⟨rfl, hoff, hcap⟩) blks
  · exact hend (writeOn_elsewhere h hcap ho hoff blks)
  · exact hend (writeOn_state h hcap (e := (1, 0xB9)) (by simp [stateStatus, hst]) blks)
  · exact hend (writeOn_state h hcap (e := (1, 0xBB)) (by simp [stateStatus, hst]) blks)
  · exact hend (writeOn_past h hcap blks)

end Sys2Proof.Machine

/-! SUPPORT. The firmware's record and the register writes held back, under completions, events and changes of mode. -/

namespace Sys2Proof.Machine
open Sys2Proof

/-- The firmware's record, and what each function's driver wrote while a firmware activation ran. -/
def fwHeld (s : State) : Fw × (Nat → List HeldWr) := (s.q.fw, fun f => (fnOf f s).held)

theorem fwHeld_fw {s t : State} (h : fwHeld t = fwHeld s) : t.q.fw = s.q.fw := congrArg Prod.fst h

theorem fwHeld_held {s t : State} (h : fwHeld t = fwHeld s) (f : Nat) : (fnOf f t).held = (fnOf f s).held := congrFun (congrArg Prod.snd h) f

/-- A change of a function's record that leaves what is held back. -/
theorem fwHeld_updFn {g : Fn → Fn} {f : Nat} {s : State} (h : (g (fnOf f s)).held = (fnOf f s).held) : fwHeld (updFn f g s) = fwHeld s := by
  refine Prod.ext rfl (funext fun x => ?_)
  show (fnOf x (updFn f g s)).held = (fnOf x s).held
  by_cases hx : x = f
  · subst hx
    rw [fnOf_updFn, h]
  · rw [fnOf_updFn_other _ _ _ _ hx]

theorem fwHeld_signal (f vec : Nat) (s : State) : fwHeld (signal f vec s) = fwHeld s :=
  fwHeld_updFn (by split <;> rfl)

theorem fwHeld_cqPush (f : Nat) (e : Cqe) (s : State) : fwHeld (cqPush f e s).1 = fwHeld s := by
  unfold cqPush
  extract_lets n
  split
  · rfl
  · split
    · exact fwHeld_updFn rfl
    · extract_lets wrap now c' s1 _ s2
      have h1 : fwHeld s1 = fwHeld s := fwHeld_updFn rfl
      have h2 : fwHeld s2 = fwHeld s := h1
      show fwHeld (if now && _ then signal f _ s2 else s2) = fwHeld s
      split
      · exact (fwHeld_signal ..).trans h2
      · exact h2

/-- A completion leaves both. -/
theorem fwHeld_postFull (k : Ctx) (sct sc dw0 cs1 : Nat) (data : List Byte) (s : State) : fwHeld (postFull k sct sc dw0 cs1 data s) = fwHeld s := by
  have hlog : fwHeld (if sct = 7 then logError k sct sc s else s) = fwHeld s := by split <;> rfl
  have hcvu : ∀ g t, fwHeld (cvuFold k g t) = fwHeld t := fun g t => by
    unfold cvuFold
    exact foldl_keeps fwHeld _ (fun _ _ => by unfold updCvu; rfl) _ _
  unfold postFull
  split
  · rfl
  · split
    · rfl
    · extract_lets s1 r
      have hr : fwHeld r.1 = fwHeld s := (fwHeld_cqPush ..).trans ((hcvu ..).trans hlog)
      split
      · exact hr
      · exact hr

theorem fwHeld_deliverAen (f : Nat) : ∀ (n : Nat) (s : State), fwHeld (deliverAen f n s) = fwHeld s
  | 0, _ => rfl
  | n + 1, s => by
    unfold deliverAen
    split
    · exact (fwHeld_deliverAen f n _).trans ((fwHeld_postFull ..).trans (fwHeld_updFn rfl))
    · rfl

theorem fwHeld_aenAll (bitNo typ info log : Nat) (s : State) : fwHeld (aenAll bitNo typ info log s) = fwHeld s := by
  refine foldl_keeps fwHeld _ (fun t f => ?_) _ _
  split
  · unfold aenFn
    split
    · rfl
    · exact fwHeld_deliverAen ..
  · rfl

theorem fwHeld_setWarn (b : Nat) (v : Bool) (s : State) : fwHeld (setWarn b v s) = fwHeld s := by
  unfold setWarn
  extract_lets old _ m s1
  split
  · exact fwHeld_aenAll ..
  · rfl

/-- A change of mode leaves both. -/
theorem fwHeld_setMode (md : Mode) (s : State) : fwHeld (setMode md s) = fwHeld s := by
  unfold setMode
  split
  · rfl
  · extract_lets old s1 _ s2
    split
    · exact fwHeld_setWarn ..
    · split
      · exact fwHeld_setWarn ..
      · rfl

@[simp] theorem setMode_testPend (md : Mode) (s : State) : (setMode md s).m.testPend = s.m.testPend := by
  by_cases h : s.m.cur = md
  · simp [setMode, h]
  · obtain ⟨w, hw⟩ := setMode_m h
    rw [hw]

theorem baseMode_isBase (s : State) : (baseMode s).isBase = true := by
  unfold baseMode
  split_ifs <;> rfl

end Sys2Proof.Machine

/-! O44. Firmware download, commit and activation. -/

namespace Sys2Proof.Machine
open Sys2Proof

/-! ## Commands -/

section
variable {c : Cmd} {s s1 : State} {k : Ctx}

/-- An admin command of function 0 of a plain form, with no sanitize in the way, ends with what its meaning leaves. -/
theorem done_gateAdmin (ht : taken c s = some (k, s1)) (hp : plainForm k) (hn : notSanitizing s1) (hf : c.fn = 0) (f : Ctx → State → State) :
    done (withCmd c s (fun k s => gateAdmin (c.fn == 0) false k s f)) = .next (after (f (dispatch k) s1)) := by
  rw [withCmd_taken ht, hf]
  exact congrArg done (gateAdmin_plain hp hn f)

end

/-- What a download does with its part. -/
def downloadOn (c : Cmd) (k : Ctx) (s : State) : State :=
  if (c.cdw10.toNat + 1) * 4 % 32768 ≠ 0 ∨ c.cdw11.toNat * 4 % 32768 ≠ 0 ∨ 16777216 < c.cdw11.toNat * 4 + (c.cdw10.toNat + 1) * 4 then
    fin k 0 0x02 s
  else if s.q.fw.parts.any (fun p => decide (c.cdw11.toNat * 4 < p.1 + p.2 ∧ p.1 < c.cdw11.toNat * 4 + (c.cdw10.toNat + 1) * 4)) then fin k 1 0x14 s
  else ok k { s with q := { s.q with fw := { s.q.fw with parts := s.q.fw.parts ++ [(c.cdw11.toNat * 4, (c.cdw10.toNat + 1) * 4)] } } }

theorem exec_firmwareImageDownload_eq (c : Cmd) (s : State) :
    exec (.firmwareImageDownload c) s = done (withCmd c s (fun k s => gateAdmin (c.fn == 0) false k s (downloadOn c))) := rfl

/-- The slot a Commit names: its field, or the slot that does not run. -/
def slotOf (k : Ctx) (s : State) : Nat := if bits k.cmd.cdw10.toNat 2 0 = 0 then 3 - s.q.fw.running else bits k.cmd.cdw10.toNat 2 0

/-- A Commit that may go on: its slot exists, and no activation without reset is under way or committed. -/
def commitFree (k : Ctx) (s : State) : Prop :=
  bits k.cmd.cdw10.toNat 2 0 ≤ 2 ∧ s.q.fw.act = none ∧ ∀ e ∈ s.q.fw.commit, e.2.2 ≠ 3

section
variable {k : Ctx} {s : State}

theorem commitFree_any (h : commitFree k s) : (s.q.fw.act.isSome || s.q.fw.commit.any (fun e => e.2.2 == 3)) = false := by
  obtain ⟨-, hact, hcommit⟩ := h
  simp only [hact, Option.isSome_none, Bool.false_or, List.any_eq_false, beq_iff_eq]
  exact hcommit

/-- A Commit of a downloaded image that is whole waits for its check. -/
theorem commitOn_whole (h : commitFree k s) {ca : Nat} (hca : bits k.cmd.cdw10.toNat 5 3 = ca) (hlt : ca < 4) (h2 : ca ≠ 2)
    (hw : imageWhole s.q.fw.parts = true) : commitOn k s = putCtx { k with wait := .fwCommit }
      { s with q := { s.q with fw := { s.q.fw with parts := [], commit := s.q.fw.commit ++ [(k.seq, slotOf k s, ca)] } } } := by
  have hany := commitFree_any h
  obtain ⟨hfs, -, -⟩ := h
  simp only [commitOn, hca, hany, hw, if_neg (show ¬ 4 ≤ ca by omega), if_neg (show ¬ 2 < bits k.cmd.cdw10.toNat 2 0 by omega), if_neg h2]
  rfl

/-- A Commit of an image that is not whole. -/
theorem commitOn_parts (h : commitFree k s) {ca : Nat} (hca : bits k.cmd.cdw10.toNat 5 3 = ca) (hlt : ca < 4) (h2 : ca ≠ 2)
    (hw : imageWhole s.q.fw.parts = false) : commitOn k s = fin k 1 0x07 { s with q := { s.q with fw := { s.q.fw with parts := [] } } } := by
  have hany := commitFree_any h
  obtain ⟨hfs, -, -⟩ := h
  simp only [commitOn, hca, hany, hw, if_neg (show ¬ 4 ≤ ca by omega), if_neg (show ¬ 2 < bits k.cmd.cdw10.toNat 2 0 by omega), if_neg h2]
  rfl

/-- A Commit that activates a slot that holds an image. -/
theorem commitOn_slot (h : commitFree k s) (hca : bits k.cmd.cdw10.toNat 5 3 = 2)
    (hh : (nth s.q.fw.slots (slotOf k s - 1) ⟨false, 0⟩).held = true) :
    commitOn k s = fin k 1 0x0B { s with q := { s.q with fw := { s.q.fw with parts := [], next := slotOf k s } } } := by
  have hany := commitFree_any h
  obtain ⟨hfs, -, -⟩ := h
  unfold slotOf at hh
  simp only [commitOn, hca, hany, if_neg (show ¬ 4 ≤ 2 by omega), if_neg (show ¬ 2 < bits k.cmd.cdw10.toNat 2 0 by omega), hh]
  rfl

end

/-- The clause of a Commit's action that replaces an image. -/
theorem commit_replaces {c : Cmd} {s s1 : State} {k : Ctx} (ht : taken c s = some (k, s1)) (hp : plainForm k) (hn : notSanitizing s1) (hf : c.fn = 0)
    (h : commitFree k s1) {ca : Nat} (hlt : ca < 4) (h2 : ca ≠ 2) :
    (bits c.cdw10.toNat 5 3 = ca → imageWhole s1.q.fw.parts = true →
      ∃ u k', commitCmd c s = .next (after u) ∧ k'.cmd = k.cmd ∧ k'.seq = k.seq ∧
      k'.wait = .fwCommit ∧ u.q.ctxs = s1.q.ctxs.map (fun x => if x.seq == k.seq then k' else x) ∧
      u.q.fw.commit = s1.q.fw.commit ++ [(k.seq, slotOf k s1, ca)] ∧ u.q.fw.parts = [] ∧ u.q.fw.slots = s1.q.fw.slots) ∧
    (bits c.cdw10.toNat 5 3 = ca → imageWhole s1.q.fw.parts = false → ∃ u0 u, commitCmd c s = .next (after u) ∧ endsWith k 1 0x07 0 [] u0 u ∧
      u0.q.fw.parts = [] ∧ u0.q.fw.slots = s1.q.fw.slots) := by
  have hend := done_gateAdmin ht hp hn hf commitOn
  obtain rfl := taken_cmd ht
  refine ⟨fun hca hw => ?_, fun hca hw => ?_⟩
  · rw [commitOn_whole (k := dispatch k) h hca hlt h2 hw] at hend
    exact ⟨_, { dispatch k with wait := .fwCommit }, hend, rfl, rfl, rfl, rfl, rfl, rfl, rfl⟩
  · rw [commitOn_parts (k := dispatch k) h hca hlt h2 hw] at hend
    exact ⟨_, _, hend, endsWith_dispatch .., rfl, rfl⟩

/-- The clause of a Commit's action that only activates. -/
theorem commit_names {c : Cmd} {s s1 : State} {k : Ctx} (ht : taken c s = some (k, s1)) (hp : plainForm k) (hn : notSanitizing s1) (hf : c.fn = 0)
    (h : commitFree k s1) (hca : bits c.cdw10.toNat 5 3 = 2) (hh : (nth s1.q.fw.slots (slotOf k s1 - 1) ⟨false, 0⟩).held = true) :
    ∃ u0 u, commitCmd c s = .next (after u) ∧ endsWith k 1 0x0B 0 [] u0 u ∧ u0.q.fw.next = slotOf k s1 ∧ u0.q.fw.running = s1.q.fw.running := by
  have hend := done_gateAdmin ht hp hn hf commitOn
  obtain rfl := taken_cmd ht
  rw [commitOn_slot (k := dispatch k) h hca hh] at hend
  exact ⟨_, _, hend, endsWith_dispatch .., rfl, rfl⟩

/-- A part of whole 32 KiB pieces within the image's 16 MiB that overlaps none is kept. -/
theorem download_collects {c : Cmd} {s s1 : State} {k : Ctx} (ht : taken c s = some (k, s1)) (hp : plainForm k) (hn : notSanitizing s1) (hf : c.fn = 0)
    (hlen : (c.cdw10.toNat + 1) * 4 % 32768 = 0) (hoff : c.cdw11.toNat * 4 % 32768 = 0)
    (hmax : c.cdw11.toNat * 4 + (c.cdw10.toNat + 1) * 4 ≤ 16777216)
    (hfree : ∀ p ∈ s1.q.fw.parts, p.1 + p.2 ≤ c.cdw11.toNat * 4 ∨ c.cdw11.toNat * 4 + (c.cdw10.toNat + 1) * 4 ≤ p.1) :
    ∃ u0 u, exec (.firmwareImageDownload c) s = .next (after u) ∧ endsWith k 0 0 0 [] u0 u ∧
      u0.q.fw.parts = s1.q.fw.parts ++ [(c.cdw11.toNat * 4, (c.cdw10.toNat + 1) * 4)] := by
  have hany : s1.q.fw.parts.any (fun p => decide (c.cdw11.toNat * 4 < p.1 + p.2 ∧ p.1 < c.cdw11.toNat * 4 + (c.cdw10.toNat + 1) * 4)) = false := by
    simp only [List.any_eq_false, decide_eq_true_eq, not_and, not_lt]
    intro p hmem
    have := hfree p hmem
    omega
  have hend := done_gateAdmin ht hp hn hf (downloadOn c)
  rw [← exec_firmwareImageDownload_eq] at hend
  rw [downloadOn, if_neg (by omega), hany] at hend
  exact ⟨_, _, hend, endsWith_dispatch .., rfl⟩

/-- A part that overlaps one that is held. -/
theorem download_overlaps {c : Cmd} {s s1 : State} {k : Ctx} (ht : taken c s = some (k, s1)) (hp : plainForm k) (hn : notSanitizing s1) (hf : c.fn = 0)
    (hlen : (c.cdw10.toNat + 1) * 4 % 32768 = 0) (hoff : c.cdw11.toNat * 4 % 32768 = 0)
    (hmax : c.cdw11.toNat * 4 + (c.cdw10.toNat + 1) * 4 ≤ 16777216) {p : Nat × Nat} (hmem : p ∈ s1.q.fw.parts) (h1 : c.cdw11.toNat * 4 < p.1 + p.2)
    (h2 : p.1 < c.cdw11.toNat * 4 + (c.cdw10.toNat + 1) * 4) :
    ∃ u, exec (.firmwareImageDownload c) s = .next (after u) ∧ endsWith k 1 0x14 0 [] s1 u := by
  have hany : s1.q.fw.parts.any (fun p => decide (c.cdw11.toNat * 4 < p.1 + p.2 ∧ p.1 < c.cdw11.toNat * 4 + (c.cdw10.toNat + 1) * 4)) = true :=
    List.any_eq_true.2 ⟨p, hmem, decide_eq_true ⟨h1, h2⟩⟩
  have hend := done_gateAdmin ht hp hn hf (downloadOn c)
  rw [← exec_firmwareImageDownload_eq] at hend
  rw [downloadOn, if_neg (by omega), hany] at hend
  exact ⟨_, hend, endsWith_dispatch ..⟩

/-! ## The check of an image -/

/-- A Commit taken off the list of those that wait. -/
def committed (rest : List (Nat × Nat × Nat)) (s : State) : State := { s with q := { s.q with fw := { s.q.fw with commit := rest } } }

/-- The image written to its slot; a Commit that activates at the next start names it. -/
def slotted (rest : List (Nat × Nat × Nat)) (slot ca rev : Nat) (s : State) : State :=
  { s with q := { s.q with fw := { s.q.fw with commit := rest, slots := setNth s.q.fw.slots (slot - 1) ⟨true, rev⟩
                                               next := if ca = 1 then slot else s.q.fw.next } } }

/-- A Commit that activates without reset: the activation is under way, and the command waits for it. -/
def activating (q slot : Nat) (at0 : Nat) (s : State) : State :=
  { s with q := { s.q with fw := { s.q.fw with act := some (q, slot, at0) }
                           ctxs := s.q.ctxs.map (fun k => if k.seq = q ∧ k.wait = .fwCommit then { k with wait := .fwActivate } else k) } }

section
variable {s : State} {k : Ctx} {q slot ca : Nat} {rest : List (Nat × Nat × Nat)}

theorem base_or_sanitize (hm : s.m.cur.isBase = true ∨ s.m.cur = .sanitize) : (!(s.m.cur.isBase || s.m.cur == .sanitize)) = false := by
  rcases hm with hm | hm <;> simp [hm]

theorem checkDone_failed (hc : s.q.fw.commit = (q, slot, ca) :: rest) (hk : ctxAt q s = some k) (hm : s.m.cur.isBase = true ∨ s.m.cur = .sanitize)
    (rev : Nat) : exec (.fwCommitCheckDone false rev) s = .next (afterIo (fin k 1 0x07 (committed rest s))) := by
  have hk' : endFw q 1 0x07 (committed rest s) = fin k 1 0x07 (committed rest s) := by
    rw [endFw, show ctxAt q (committed rest s) = some k from hk]
  rw [← hk']
  show execFwCommitCheckDone false rev s = _
  simp only [execFwCommitCheckDone, hc, base_or_sanitize hm]
  rfl

/-- The check of a Commit that does not activate at once. -/
theorem checkDone_written (hc : s.q.fw.commit = (q, slot, ca) :: rest) (hk : ctxAt q s = some k) (hm : s.m.cur.isBase = true ∨ s.m.cur = .sanitize)
    (rev : Nat) (hca : ca = 0 ∨ ca = 1) : exec (.fwCommitCheckDone true rev) s =
      .next (afterIo (fin k (if ca = 0 then 0 else 1) (if ca = 0 then 0 else 0x0B) (slotted rest slot ca rev s))) := by
  have hk' : ∀ sct sc, endFw q sct sc (slotted rest slot ca rev s) = fin k sct sc (slotted rest slot ca rev s) := fun sct sc => by
    rw [endFw, show ctxAt q (slotted rest slot ca rev s) = some k from hk]
  rw [← hk']
  show execFwCommitCheckDone true rev s = _
  simp only [execFwCommitCheckDone, hc, base_or_sanitize hm]
  rcases hca with rfl | rfl
  · rfl
  · rfl

/-- The check of a Commit that activates at once. -/
theorem checkDone_activates (hc : s.q.fw.commit = (q, slot, 3) :: rest) (hm : s.m.cur.isBase = true ∨ s.m.cur = .sanitize) (hs : s.m.cur ≠ .sanitize)
    (rev : Nat) : exec (.fwCommitCheckDone true rev) s = .next (afterIo (raise 0x6040 1 [h1 slot, h4 rev] (setMode .fwActivate
      (activating q slot s.tm.elapsed (aenAll 9 2 1 3 (slotted rest slot 3 rev s)))))) := by
  have hs' : (s.m.cur == .sanitize) = false := by simp [hs]
  have hb : s.m.cur.isBase = true := hm.resolve_right hs
  show execFwCommitCheckDone true rev s = _
  simp only [execFwCommitCheckDone, hc, hb, hs']
  rfl

end

/-! ## The end of an activation -/

theorem endFw_keeps {x : Comp} (hx : x ∉ [Comp.q, .stb, .ci]) (q sct sc : Nat) (s : State) : keeps x s (endFw q sct sc s) := by
  unfold endFw
  split
  · exact keeps_of_outside (postFull_outside (List.Subset.refl _) ..) hx
  · exact keeps_of_outside (L := []) rfl (by simp)

theorem endFw_stb_fwHeld (q sct sc : Nat) (s : State) : (endFw q sct sc s).stb = s.stb ∧ fwHeld (endFw q sct sc s) = fwHeld s := by
  unfold endFw
  split
  · exact ⟨postFull_stb .., fwHeld_postFull ..⟩
  · exact ⟨rfl, rfl⟩

/-- The register writes of one function held back take effect. -/
def releaseFn (s : State) (f : Nat) : State := (fnOf f s).held.foldl (fun s h => heldNow f h s) (updFn f (fun n => { n with held := [] }) s)

/-- With nothing held back the release leaves the mode, the events, the firmware's record and what is held back. -/
theorem releaseFn_none {s : State} (h : ∀ f, (fnOf f s).held = []) : ∀ l : List Nat,
    (l.foldl releaseFn s).m = s.m ∧ (l.foldl releaseFn s).stb = s.stb ∧ fwHeld (l.foldl releaseFn s) = fwHeld s := by
  intro l
  induction l generalizing s with
  | nil => exact ⟨rfl, rfl, rfl⟩
  | cons f fs ih =>
    have hstep : releaseFn s f = updFn f (fun n => { n with held := [] }) s := by
      unfold releaseFn
      rw [h f]
      rfl
    have hheld : fwHeld (releaseFn s f) = fwHeld s := by
      rw [hstep]
      exact fwHeld_updFn (h f).symm
    obtain ⟨hm, hstb, hfw⟩ := ih (s := releaseFn s f) (fun g => (fwHeld_held hheld g).trans (h g))
    exact ⟨hm.trans (by rw [hstep]; rfl), hstb.trans (by rw [hstep]; rfl), hfw.trans hheld⟩

/-- The firmware's record at the end of an activation: the image that ran, or the one before. -/
def activated (ok : Bool) (slot : Nat) (s : State) : State :=
  { s with q := { s.q with fw := if ok then { s.q.fw with act := none, running := slot, next := slot
                                                          rev := (nth s.q.fw.slots (slot - 1) ⟨false, 0⟩).rev }
                                 else { s.q.fw with act := none } }
           cad := { s.cad with absent := true } }

/-- The end of an activation up to the register writes held back. -/
def activationEnd (ok : Bool) (q slot at0 : Nat) (s : State) : State :=
  endFw q (if ok then 0 else 1) (if ok then 0 else 7) (raise 0x6041 1 [h2 ((s.tm.elapsed - at0) / 1000)] (setMode (baseMode (activated ok slot s))
    (if ok then activated ok slot s else raise 0x1060 2 [h4 (nth s.q.fw.slots (slot - 1) ⟨false, 0⟩).rev] (activated ok slot s))))

theorem activationEnd_after (ok : Bool) (q slot at0 : Nat) (s : State) :
    (activationEnd ok q slot at0 s).m.cur.isBase = true ∧ (activationEnd ok q slot at0 s).m.testPend = s.m.testPend ∧
      fwHeld (activationEnd ok q slot at0 s) = fwHeld (activated ok slot s) ∧ raises 0x6041 (activationEnd ok q slot at0 s) ∧
      (ok = false → raises 0x1060 (activationEnd ok q slot at0 s)) := by
  unfold activationEnd
  generalize hb : (if ok then activated ok slot s else raise 0x1060 2 [h4 (nth s.q.fw.slots (slot - 1) ⟨false, 0⟩).rev] (activated ok slot s)) = b
  have hbm : b.m = s.m ∧ fwHeld b = fwHeld (activated ok slot s) ∧ (ok = false → raises 0x1060 b) := by
    subst hb
    cases ok
    · exact ⟨rfl, rfl, fun _ => raises_raise ..⟩
    · exact ⟨rfl, rfl, fun h => absurd h (by decide)⟩
  obtain ⟨hm, hfw, hev⟩ := hbm
  have hmode := baseMode_isBase (activated ok slot s)
  generalize baseMode (activated ok slot s) = md at hmode
  have hgrow := grows_setMode md b
  have hcur := setMode_cur md b
  have htest := setMode_testPend md b
  have hfw2 := fwHeld_setMode md b
  generalize setMode md b = w at hgrow hcur htest hfw2
  generalize hargs : [h2 ((s.tm.elapsed - at0) / 1000)] = args
  have hgrow2 : grows w (raise 0x6041 1 args w) := grows_raise ..
  have hev2 := raises_raise 0x6041 1 args w
  have hm2 : (raise 0x6041 1 args w).m = w.m := rfl
  have hfw3 : fwHeld (raise 0x6041 1 args w) = fwHeld w := rfl
  generalize raise 0x6041 1 args w = v at hgrow2 hev2 hm2 hfw3
  obtain ⟨hstb, hfw4⟩ := endFw_stb_fwHeld q (if ok then 0 else 1) (if ok then 0 else 7) v
  have hm3 := endFw_keeps (x := .m) (by decide) q (if ok then 0 else 1) (if ok then 0 else 7) v
  generalize endFw q (if ok then 0 else 1) (if ok then 0 else 7) v = u at hstb hfw4 hm3
  have hgrow3 : grows v u := grows_of_eq (congrArg Stb.raised hstb)
  have hmu : u.m = w.m := Eq.trans hm3 hm2
  refine ⟨?_, ?_, hfw4.trans (hfw3.trans (hfw2.trans hfw)), raises_mono hgrow3 hev2,
    fun ho => raises_mono (grows_trans hgrow (grows_trans hgrow2 hgrow3)) (hev ho)⟩
  · rw [hmu, hcur]
    exact hmode
  · rw [hmu, htest, hm]

/-- The end of an activation, then the register writes held back; a TEST that waited drains next. -/
theorem exec_fwActivationEnd_eq {s : State} {q slot at0 : Nat} (ok : Bool) (ha : s.q.fw.act = some (q, slot, at0)) (hm : s.m.cur = .fwActivate) : ∃ t,
    exec (.fwActivationEnd ok) s = doneIo (if ((allFns (activationEnd ok q slot at0 s)).foldl releaseFn (activationEnd ok q slot at0 s)).m.testPend then t
      else (allFns (activationEnd ok q slot at0 s)).foldl releaseFn (activationEnd ok q slot at0 s)) := by
  have hexec : exec (.fwActivationEnd ok) s = execFwActivationEnd ok s := rfl
  rw [hexec, execFwActivationEnd, ha]
  simp only [hm]
  exact ⟨_, rfl⟩

/-- With no register write held back and no TEST pending, an activation ends there. -/
theorem fwActivationEnd_ends {s : State} {q slot at0 : Nat} (ok : Bool) (ha : s.q.fw.act = some (q, slot, at0)) (hm : s.m.cur = .fwActivate)
    (ht : s.m.testPend = false) (hh : ∀ f, (fnOf f s).held = []) : ∃ u, exec (.fwActivationEnd ok) s = .next (afterIo u) ∧ u.m.cur.isBase = true ∧
      u.q.fw = (activated ok slot s).q.fw ∧ raises 0x6041 u ∧ (ok = false → raises 0x1060 u) := by
  obtain ⟨hbase, htest, hfw, hev, hev2⟩ := activationEnd_after ok q slot at0 s
  obtain ⟨t, hexec⟩ := exec_fwActivationEnd_eq ok ha hm
  generalize activationEnd ok q slot at0 s = e at hbase htest hfw hev hev2 hexec
  have hnone : ∀ f, (fnOf f e).held = [] := fun f => (fwHeld_held hfw f).trans (hh f)
  obtain ⟨hm2, hstb2, hfw2⟩ := releaseFn_none hnone (allFns e)
  generalize (allFns e).foldl releaseFn e = u at hm2 hstb2 hfw2 hexec
  have hgrow : grows e u := grows_of_eq (congrArg Stb.raised hstb2)
  refine ⟨u, ?_, by rw [hm2]; exact hbase, (fwHeld_fw hfw2).trans (fwHeld_fw hfw), raises_mono hgrow hev, fun ho => raises_mono hgrow (hev2 ho)⟩
  rw [hexec, if_neg (by rw [hm2, htest, ht]; decide), doneIo_after]

/-- Settles O44: download, Commit, its check and the activation, each by the meaning's own branches. -/
theorem firmwareUpdates : Obligations.FirmwareUpdates := by
  unfold Obligations.FirmwareUpdates
  refine fun c s => ⟨fun s1 k ht hp hn hf => ⟨fun hlen hoff hmax => ⟨fun hfree => ?_, fun p hmem h1 h2 => ?_⟩, fun hfs hact hcommit => ?_⟩,
    fun k q slot ca rest rev hc hk hm => ⟨?_, fun hca => ?_, fun hca => ?_, fun hca hs => ?_⟩, fun q slot at0 ha hm ht hh => ⟨?_, ?_⟩⟩
  · exact download_collects ht hp hn hf hlen hoff hmax hfree
  · exact download_overlaps ht hp hn hf hlen hoff hmax hmem h1 h2
  · have hfree : commitFree k s1 := ⟨by rwa [taken_cmd ht], hact, hcommit⟩
    obtain ⟨hwhole0, hparts0⟩ := commit_replaces ht hp hn hf hfree (ca := 0) (by decide) (by decide)
    obtain ⟨hwhole1, hparts1⟩ := commit_replaces ht hp hn hf hfree (ca := 1) (by decide) (by decide)
    obtain ⟨hwhole3, hparts3⟩ := commit_replaces ht hp hn hf hfree (ca := 3) (by decide) (by decide)
    have hnext := commit_names ht hp hn hf hfree
    obtain rfl := taken_cmd ht
    exact ⟨hwhole0, hparts0, hwhole1, hparts1, hwhole3, hparts3, hnext⟩
  · exact ⟨_, _, checkDone_failed hc hk hm rev, ⟨k, rfl, rfl, rfl, rfl⟩, rfl⟩
  · subst hca
    exact ⟨_, _, checkDone_written hc hk hm rev (.inl rfl), ⟨k, rfl, rfl, rfl, rfl⟩, rfl, rfl⟩
  · subst hca
    exact ⟨_, _, checkDone_written hc hk hm rev (.inr rfl), ⟨k, rfl, rfl, rfl, rfl⟩, rfl, rfl⟩
  · subst hca
    refine ⟨_, checkDone_activates hc hm hs rev, setMode_cur .., raises_raise .., ?_⟩
    exact congrArg Fw.act (fwHeld_fw (fwHeld_setMode .fwActivate (activating q slot s.tm.elapsed (aenAll 9 2 1 3 (slotted rest slot 3 rev s)))))
  · obtain ⟨u, hu, hbase, hfw, hev, -⟩ := fwActivationEnd_ends true ha hm ht hh
    exact ⟨u, hu, hbase, by rw [hfw]; rfl, by rw [hfw]; rfl, hev⟩
  · obtain ⟨u, hu, hbase, hfw, hev, hev2⟩ := fwActivationEnd_ends false ha hm ht hh
    exact ⟨u, hu, hbase, by rw [hfw]; rfl, by rw [hfw]; rfl, hev2 rfl, hev⟩

end Sys2Proof.Machine

/-! O5, O6. The Studbook's bounds: they hold of the reset state, and every step keeps them. -/

namespace Sys2Proof.Machine
open Sys2Proof

/-- A command keeps the bounds and leaves no event in flight. -/
theorem exec_keeps_stbInv {i : Instr} {s t : State} (hs : StbInv s) (ht : exec i s = .next t) : StbInv t := by
  obtain ⟨hb, hr⟩ := hs
  obtain ⟨u, hu, -, -, hbounds, hraised⟩ := exec_goes i s
  cases hu.symm.trans ht
  exact ⟨hbounds hb, hraised hr⟩

/-- Settles O5: every buffer of the Studbook is empty at reset. -/
theorem resetMeetsInv : Obligations.ResetMeetsInv := by
  unfold Obligations.ResetMeetsInv
  have bounds : stbBounds State.reset := by
    unfold stbBounds
    decide
  exact ⟨bounds, rfl⟩

/-- Settles O6: a step is its front command's meaning, or a microsecond that leaves the Studbook alone. -/
theorem stepKeepsInv : Obligations.StepKeepsInv := by
  unfold Obligations.StepKeepsInv
  intro s t hs ht
  cases hp : s.pending with
  | nil =>
    rw [step_of_empty hp] at ht
    cases ht
    exact hs
  | cons c rest =>
    rw [step_of_front hp] at ht
    exact exec_keeps_stbInv (s := { s with pending := rest }) hs ht

end Sys2Proof.Machine

/-! SUPPORT. The straps as sampled, and the operations on pins that leave them (R46, R47). What changes no pin at all is known by its frame: the straps
of a state are those of `outside allButPins` of it, so the frames of the layers above carry them. -/

namespace Sys2Proof.Machine
open Sys2Proof

/-- STRAP_DUAL, STRAP_TEST and STRAP_NOIMG as sampled. -/
def straps (s : State) : Bool × Bool × Bool := (s.pins.strapDual, s.pins.strapTest, s.pins.strapNoimg)

/-- Every component but the pins. -/
def allButPins : List Comp := [.m, .st, .img, .tm, .pw, .slk, .zn, .pl, .fl, .ecc, .q, .stb, .jn, .stl, .ci, .ga, .cad, .ts, .rg, .free]

@[simp] theorem mem_allButPins (x : Comp) : x ∈ allButPins ↔ x ≠ .pins := by cases x <;> decide

@[simp] theorem ioComps_subset_allButPins : ioComps ⊆ allButPins := by decide

/-- Straps are pins. -/
theorem straps_outside (s : State) : straps (outside allButPins s) = straps s := rfl

/-- A state with components replaced has the straps of its pins. -/
@[simp] theorem straps_upd {s : State} {m pins st img stb slk q zn pl fl ecc tm stl ci ga cad pw ts jn rg free pending}
    (hd : pins.strapDual = s.pins.strapDual) (ht : pins.strapTest = s.pins.strapTest) (hn : pins.strapNoimg = s.pins.strapNoimg) :
    straps (outside allButPins ⟨s.part, m, pins, st, img, stb, slk, q, zn, pl, fl, ecc, tm, stl, ci, ga, cad, pw, ts, jn, rg, free, pending⟩) =
      straps (outside allButPins s) :=
  Prod.ext hd (Prod.ext ht hn)

theorem straps_foldl {α : Type} (f : State → α → State) (h : ∀ s x, straps (outside allButPins (f s x)) = straps (outside allButPins s)) :
    ∀ (l : List α) (s : State), straps (outside allButPins (l.foldl f s)) = straps (outside allButPins s) :=
  foldl_keeps (fun s => straps (outside allButPins s)) f h

theorem straps_ite {c : Prop} [Decidable c] {s t u : State} (ht : straps (outside allButPins t) = straps (outside allButPins s))
    (hu : straps (outside allButPins u) = straps (outside allButPins s)) :
    straps (outside allButPins (if c then t else u)) = straps (outside allButPins s) := by
  split
  · exact ht
  · exact hu

/-! ## Halts, proof-loads, flushes -/

@[simp] theorem parkHalted_straps (s : State) : straps (outside allButPins (parkHalted s)) = straps (outside allButPins s) := by
  unfold parkHalted
  split <;> simp

@[simp] theorem halt_straps (s : State) : straps (outside allButPins (halt s)) = straps (outside allButPins s) := by
  unfold halt
  split <;> simp

@[simp] theorem proofInterrupt_straps (pf : Bool) (s : State) :
    straps (outside allButPins (proofInterrupt pf s)) = straps (outside allButPins s) := by
  unfold proofInterrupt
  dsimp only
  split_ifs <;> simp

@[simp] theorem endDrain_straps (s : State) : straps (outside allButPins (endDrain s)) = straps (outside allButPins s) := by
  unfold endDrain
  dsimp only
  split <;> simp

@[simp] theorem beginFlush_straps (src : Nat) (s : State) : straps (outside allButPins (beginFlush src s)) = straps (outside allButPins s) := by
  unfold beginFlush
  dsimp only
  split
  · rfl
  · simp [straps_foldl]

@[simp] theorem pfSendNow_straps (s : State) : straps (outside allButPins (pfSendNow s)) = straps (outside allButPins s) := by
  unfold pfSendNow
  split <;> simp

@[simp] theorem flushFixed_straps (bytes : Nat) (s : State) : straps (outside allButPins (flushFixed bytes s)) = straps (outside allButPins s) := by
  unfold flushFixed
  dsimp only
  simp
  split <;> simp

/-! ## Starts -/

@[simp] theorem restart_straps (aon keep : Bool) (s : State) :
    straps (outside allButPins (restart aon keep s)) = straps (outside allButPins s) := by
  have hcut : straps (outside allButPins (cutAll s)) = straps (outside allButPins s) := by simp
  exact hcut

@[simp] theorem startNow_straps (s : State) : straps (outside allButPins (startNow s)) = straps (outside allButPins s) := by
  simp [startNow]

@[simp] theorem devicePerst_straps (s : State) : straps (outside allButPins (devicePerst s)) = straps (outside allButPins s) := by
  unfold devicePerst
  dsimp only
  split_ifs <;> simp

@[simp] theorem heldResets_straps (s : State) : straps (outside allButPins (heldResets s)) = straps (outside allButPins s) := by
  unfold heldResets
  split <;> simp

@[simp] theorem entryDone_straps (t : Nat) (s : State) : straps (outside allButPins (entryDone t s)) = straps (outside allButPins s) := by
  unfold entryDone
  dsimp only
  split_ifs <;> simp

@[simp] theorem enterTest_straps (cause : Nat) (s : State) : straps (outside allButPins (enterTest cause s)) = straps (outside allButPins s) := by
  unfold enterTest
  dsimp only
  split <;> simp

@[simp] theorem beginTestDrain_straps (s : State) : straps (outside allButPins (beginTestDrain s)) = straps (outside allButPins s) := by
  simp [beginTestDrain]

/-! ## Accesses, which may start the device anew (R374, R385) -/

@[simp] theorem wake_straps (cause : Nat) (s : State) : straps (outside allButPins (wake cause s)) = straps (outside allButPins s) := by
  unfold wake enterReset
  dsimp only
  split_ifs <;> simp

@[simp] theorem touch_straps (f : Nat) (s : State) : straps (outside allButPins (touch f s)) = straps (outside allButPins s) := by
  unfold touch
  split_ifs <;> simp

@[simp] theorem enableNow_straps (f : Nat) (s : State) : straps (outside allButPins (enableNow f s)) = straps (outside allButPins s) := by
  unfold enableNow
  extract_lets n bad s1 s2 s3
  have h1 : straps (outside allButPins s1) = straps (outside allButPins s) := by
    cases hbad : bad <;> simp [s1, hbad]
  have h3 : straps (outside allButPins s3) = straps (outside allButPins s) := by simp [s3, s2, h1]
  clear_value s3
  split <;> simp [h3]

@[simp] theorem ccWrite_straps (f v : Nat) (s : State) : straps (outside allButPins (ccWrite f v s)) = straps (outside allButPins s) := by
  obtain ⟨t, u, -, ht, hu, hv⟩ := ccWrite_cases f v s
  have hut : straps (outside allButPins u) = straps (outside allButPins t) := by
    rcases hu with rfl | rfl | rfl | rfl <;> simp
  have hvu : straps (outside allButPins (ccWrite f v s)) = straps (outside allButPins u) := by
    rcases hv with hv | hv | hv <;> simp [hv]
  rw [hvu, hut, ht (by simp)]

@[simp] theorem heldNow_straps (f : Nat) (w : HeldWr) (s : State) : straps (outside allButPins (heldNow f w s)) = straps (outside allButPins s) := by
  unfold heldNow
  repeat' split
  all_goals simp

@[simp] theorem bar0Write_straps (f off v : Nat) (s : State) : straps (outside allButPins (bar0Write f off v s)) = straps (outside allButPins s) := by
  unfold bar0Write
  dsimp only
  repeat' split
  all_goals simp

@[simp] theorem writeCadCtl_straps (v : Nat) (s : State) : straps (outside allButPins (writeCadCtl v s)) = straps (outside allButPins s) := by
  unfold writeCadCtl
  dsimp only
  split_ifs <;> simp

@[simp] theorem writePw_straps (off v : Nat) (s : State) : straps (outside allButPins (writePw off v s)) = straps (outside allButPins s) := by
  unfold writePw
  extract_lets _ s1
  have h1 : straps (outside allButPins s1) = straps (outside allButPins s) := by simp [s1]
  clear_value s1
  exact straps_ite (straps_ite (by simp [h1]) h1) <|
    straps_ite (by simp) <|
    straps_ite (straps_ite (by simp) rfl) <|
    straps_ite (straps_ite (by simp) rfl) <|
    straps_ite (straps_ite (by simp) rfl) <|
    straps_ite (straps_ite (by simp) rfl) <|
    straps_ite (by simp) <|
    straps_ite (by simp) <|
    straps_ite (by simp) <|
    straps_ite (by simp) <|
    straps_ite (by simp) <|
    straps_ite (by simp) rfl

@[simp] theorem putTxs_straps (fn off v : Nat) (s : State) : straps (outside allButPins (putTxs fn off v s)) = straps (outside allButPins s) := by
  unfold putTxs
  dsimp only
  split_ifs <;> simp

@[simp] theorem putReg_straps (fn off v : Nat) (s : State) : straps (outside allButPins (putReg fn off v s)) = straps (outside allButPins s) := by
  unfold putReg
  split <;> simp

@[simp] theorem putDword_straps (fn off v : Nat) (s : State) : straps (outside allButPins (putDword fn off v s)) = straps (outside allButPins s) := by
  unfold putDword
  dsimp only
  repeat' split
  all_goals simp

@[simp] theorem bar2Write_straps (fn off width v : Nat) (s : State) :
    straps (outside allButPins (bar2Write fn off width v s)) = straps (outside allButPins s) := by
  unfold bar2Write
  dsimp only
  repeat' split
  all_goals simp

end Sys2Proof.Machine

/-! O13. The straps stand until the next RESET. -/

namespace Sys2Proof.Machine
open Sys2Proof

/-- An outcome's next state, if it has one, has the straps that the command found. -/
def StrapsStand (s : State) (o : Out) : Prop := ∀ t, o = .next t → straps (outside allButPins t) = straps (outside allButPins s)

section
variable {s : State}

/-! ## How meanings end -/

/-- A command whose frame leaves the pins out. -/
theorem strapsStand_of_frames {L : List Comp} {o : Out} (hL : .pins ∉ L) (h : Frames L s o) : StrapsStand s o := by
  intro t ht
  have hpins : t.pins = s.pins := keeps_of_outside (x := .pins) (h t ht) hL
  show straps t = straps s
  unfold straps
  rw [hpins]

@[simp] theorem strapsStand_next (t : State) : StrapsStand s (.next t) ↔ straps (outside allButPins t) = straps (outside allButPins s) :=
  ⟨fun h => h t rfl, fun h _ e => by cases e; exact h⟩

@[simp] theorem strapsStand_done (u : State) : StrapsStand s (done u) ↔ straps (outside allButPins u) = straps (outside allButPins s) := by
  rw [done_after, strapsStand_next, after_outside (by simp)]

@[simp] theorem strapsStand_doneIo (u : State) : StrapsStand s (doneIo u) ↔ straps (outside allButPins u) = straps (outside allButPins s) := by
  rw [doneIo_after, strapsStand_next, afterIo_outside (by simp)]

/-- A write of a register of BAR2 by the Owner PF. -/
theorem strapsStand_txsRow (fn : Nat) {f : State → State} (hf : ∀ t, straps (outside allButPins (f t)) = straps (outside allButPins t)) :
    StrapsStand s (txsRow fn f s) := by
  unfold txsRow
  dsimp only
  split
  · rw [strapsStand_done]
    split <;> simp [hf]
  · simp

/-- A write of a check-value unit. -/
theorem strapsStand_cvuRow (fn unit : Nat) {f : Nat → State → State}
    (hf : ∀ u t, straps (outside allButPins (f u t)) = straps (outside allButPins t)) : StrapsStand s (cvuRow fn unit f s) := by
  have row : ∀ t, straps (outside allButPins (match cvuOf? fn unit t with | some u => f u t | none => t)) = straps (outside allButPins t) := by
    intro t
    split <;> simp [hf]
  unfold cvuRow
  split
  · split
    · exact (strapsStand_done _).mpr ((row _).trans (touch_straps fn s))
    · simp
  · exact strapsStand_txsRow fn row

/-- A write of a maintenance channel's control register. -/
theorem strapsStand_gdcRow (fn ch bitNo : Nat) (v : Dword) (moved : Nat) (mem : HostMem) : StrapsStand s (gdcRow fn ch bitNo v moved mem s) := by
  unfold gdcRow
  dsimp only
  split
  · rw [strapsStand_doneIo]
    split <;> simp
  · simp

/-- A read of a register. -/
theorem strapsStand_regRead (fn space off width : Nat) : StrapsStand s (regRead fn space off width s) := by
  unfold regRead
  dsimp only
  split_ifs <;> simp

end

section
variable (s : State)

/-! ## Supplies and reset pins -/

theorem sysRstNLow_straps (ns : Nat) : StrapsStand s (exec (.sysRstNLow ns) s) := by
  show StrapsStand s (execSysRstNLow ns s)
  unfold execSysRstNLow
  dsimp only
  split_ifs <;> simp

theorem powerOn_straps : StrapsStand s (exec .powerOn s) := by
  show StrapsStand s (execPowerOn s)
  simp [execPowerOn]

theorem powerLoss_straps : StrapsStand s (exec .powerLoss s) := by
  show StrapsStand s (execPowerLoss s)
  simp [execPowerLoss]

theorem deviceLevelPerst_straps : StrapsStand s (exec .deviceLevelPerst s) := by
  show StrapsStand s (execDeviceLevelPerst s)
  simp [execDeviceLevelPerst]

theorem deviceResetDrainEnd_straps : StrapsStand s (exec .deviceResetDrainEnd s) := by
  show StrapsStand s (execDeviceResetDrainEnd s)
  unfold execDeviceResetDrainEnd
  split <;> simp

theorem portPerst_straps (port : Nat) : StrapsStand s (exec (.portPerst port) s) := by
  show StrapsStand s (execPortPerst port s)
  unfold execPortPerst
  extract_lets _ t
  have ht : straps (outside allButPins t) = straps (outside allButPins s) := by
    simp only [t]
    split <;> exact straps_upd rfl rfl rfl
  clear_value t
  split_ifs <;> simp [ht]

theorem perstDeassert_straps (port : Nat) : StrapsStand s (exec (.perstDeassert port) s) := by
  show StrapsStand s (execPerstDeassert port s)
  unfold execPerstDeassert
  dsimp only
  split <;> simp

theorem sysRstNRise_straps : StrapsStand s (exec .sysRstNRise s) := by
  show StrapsStand s (execSysRstNRise s)
  simp [execSysRstNRise]

theorem pwrfailNRise_straps : StrapsStand s (exec .pwrfailNRise s) := by
  show StrapsStand s (execPwrfailNRise s)
  simp [execPwrfailNRise]

/-! ## The start -/

/-- Outside RESET the sampling of the straps is no event. -/
theorem strapSample_outside_reset {s : State} (h : s.m.cur ≠ .reset) (d t n : Strap) : exec (.strapSample d t n) s = .next s :=
  if_neg fun hc => h hc.1

theorem imageLoadEnd_straps (sfdpOk : Bool) (slotA slotB : List Byte) (fwOk : Bool) :
    StrapsStand s (exec (.imageLoadEnd sfdpOk slotA slotB fwOk) s) := by
  show StrapsStand s (execImageLoadEnd sfdpOk slotA slotB fwOk s)
  unfold execImageLoadEnd
  extract_lets no a b none_ useB c s1 s2 s3 s4 _ st s5 _ _ _ _ _ _ s6 s6' s7
  have h1 : straps (outside allButPins s1) = straps (outside allButPins s) := by simp [s1]
  have h2 : straps (outside allButPins s2) = straps (outside allButPins s) := straps_ite (by simp [h1]) h1
  have h3 : straps (outside allButPins s3) = straps (outside allButPins s) := straps_ite (by simp [h2]) h2
  have h4 : straps (outside allButPins s4) = straps (outside allButPins s) := straps_ite (by simp [h3]) h3
  have h5 : straps (outside allButPins s5) = straps (outside allButPins s) := by simp [s5, h4]
  clear_value s5
  have h6 : straps (outside allButPins s6) = straps (outside allButPins s) := Eq.trans (straps_upd rfl rfl rfl) h5
  have h6' : straps (outside allButPins s6') = straps (outside allButPins s) := (straps_foldl _ (fun _ _ => by simp) _ _).trans h6
  have h7 : straps (outside allButPins s7) = straps (outside allButPins s) := by simp [s7, h6']
  clear_value s7
  split
  · simp
  · exact (strapsStand_done _).mpr (Eq.trans (straps_upd rfl rfl rfl) h7)

theorem tableLoadEnd_straps (copy0 copy1 : Bool) : StrapsStand s (exec (.tableLoadEnd copy0 copy1) s) := by
  show StrapsStand s (execTableLoadEnd copy0 copy1 s)
  unfold execTableLoadEnd
  extract_lets _ s0 _ s1 _ s2 _ _ _ s3 safe _ _ s4 _ s5 bad _ _ t s6
  have h0 : straps (outside allButPins s0) = straps (outside allButPins s) := by simp [s0]
  have h1 : straps (outside allButPins s1) = straps (outside allButPins s) := by simp [s1, h0]
  have h2 : straps (outside allButPins s2) = straps (outside allButPins s) := straps_ite (by simp [h1]) h1
  have h3 : straps (outside allButPins s3) = straps (outside allButPins s) := Eq.trans (straps_upd rfl rfl rfl) h2
  have h4 : straps (outside allButPins s4) = straps (outside allButPins s) := straps_ite h3 (Eq.trans (straps_upd rfl rfl rfl) h3)
  have h5 : straps (outside allButPins s5) = straps (outside allButPins s) := straps_ite (Eq.trans (straps_upd rfl rfl rfl) h4) h4
  have ht : straps (outside allButPins t) = straps (outside allButPins s) := Eq.trans (straps_upd rfl rfl rfl) h5
  have h6 : straps (outside allButPins s6) = straps (outside allButPins s) := straps_ite h5 (straps_ite (by simp [ht]) ht)
  clear_value s6 t s5 s4 s3 s2 s1 s0
  split
  · simp
  split
  · simp [h0]
  · simp [h6]

theorem startModeOverrun_straps : StrapsStand s (exec .startModeOverrun s) := by
  show StrapsStand s (execStartModeOverrun s)
  unfold execStartModeOverrun
  split <;> simp

/-! ## Fatal faults -/

theorem ostlerWatchdogExpiry_straps (core : Nat) : StrapsStand s (exec (.ostlerWatchdogExpiry core) s) := by
  show StrapsStand s (execOstlerWatchdogExpiry core s)
  unfold execOstlerWatchdogExpiry
  dsimp only
  split_ifs <;> simp

theorem spineLinkFault_straps (shed : Nat) : StrapsStand s (exec (.spineLinkFault shed) s) := by
  show StrapsStand s (execSpineLinkFault shed s)
  unfold execSpineLinkFault
  split <;> simp

theorem refclk38m4Lost_straps : StrapsStand s (exec .refclk38m4Lost s) := by
  show StrapsStand s (execRefclk38m4Lost s)
  unfold execRefclk38m4Lost
  split <;> simp

theorem entropyHealthFail_straps : StrapsStand s (exec .entropyHealthFail s) := by
  show StrapsStand s (execEntropyHealthFail s)
  simp [execEntropyHealthFail]

theorem sramUncorrectableError_straps (die region word syndrome hit : Nat) (again : Bool) :
    StrapsStand s (exec (.sramUncorrectableError die region word syndrome hit again) s) := by
  show StrapsStand s (execSramUncorrectableError die region word syndrome hit again s)
  unfold execSramUncorrectableError
  dsimp only
  repeat' split
  all_goals simp

theorem tableLineRebuildEnd_straps (die region word : Nat) (ok : Bool) : StrapsStand s (exec (.tableLineRebuildEnd die region word ok) s) := by
  show StrapsStand s (execTableLineRebuildEnd die region word ok s)
  unfold execTableLineRebuildEnd
  dsimp only
  repeat' split
  all_goals simp

/-! ## Power failure and thermal trips -/

theorem pwrfailNFall_straps : StrapsStand s (exec .pwrfailNFall s) := by
  show StrapsStand s (execPwrfailNFall s)
  unfold execPwrfailNFall
  dsimp only
  split_ifs <;> simp

theorem cadPfAccepted_straps (ns : Nat) : StrapsStand s (exec (.cadPfAccepted ns) s) := by
  show StrapsStand s (execCadPfAccepted ns s)
  unfold execCadPfAccepted
  dsimp only
  split_ifs <;> simp

theorem emergencyFlushComplete_straps (temp : Int) (us : Nat) : StrapsStand s (exec (.emergencyFlushComplete temp us) s) := by
  show StrapsStand s (execEmergencyFlushComplete temp us s)
  unfold execEmergencyFlushComplete
  dsimp only
  split_ifs <;> simp

theorem flushRestartDelayExpiry_straps : StrapsStand s (exec .flushRestartDelayExpiry s) := by
  show StrapsStand s (execFlushRestartDelayExpiry s)
  unfold execFlushRestartDelayExpiry
  split <;> simp

theorem thermalTrip_straps (die : Nat) (temp : Int) : StrapsStand s (exec (.thermalTrip die temp) s) := by
  show StrapsStand s (execThermalTrip die temp s)
  unfold execThermalTrip
  dsimp only
  repeat' split
  all_goals simp

theorem thermalTripDrainEnd_straps (us : Nat) : StrapsStand s (exec (.thermalTripDrainEnd us) s) := by
  show StrapsStand s (execThermalTripDrainEnd us s)
  unfold execThermalTripDrainEnd
  dsimp only
  split <;> simp

/-! ## The bank -/

theorem huOkRise_straps : StrapsStand s (exec .huOkRise s) := by
  show StrapsStand s (execHuOkRise s)
  unfold execHuOkRise
  dsimp only
  split_ifs <;> simp

theorem huOkFall_straps : StrapsStand s (exec .huOkFall s) := by
  show StrapsStand s (execHuOkFall s)
  unfold execHuOkFall
  dsimp only
  split_ifs <;> simp

theorem proofWindowOpen_straps : StrapsStand s (exec .proofWindowOpen s) := by
  show StrapsStand s (execProofWindowOpen s)
  unfold execProofWindowOpen
  split <;> simp

theorem proofPulseStart_straps (v0 : Nat) : StrapsStand s (exec (.proofPulseStart v0) s) := by
  show StrapsStand s (execProofPulseStart v0 s)
  unfold execProofPulseStart
  split <;> simp

theorem proofPulseEnd_straps (v1 : Nat) (v2 : PulseV) : StrapsStand s (exec (.proofPulseEnd v1 v2) s) := by
  show StrapsStand s (execProofPulseEnd v1 v2 s)
  unfold execProofPulseEnd
  split <;> simp

/-! ## The array, whose last operation's end parks the LUNs of a halted device -/

theorem programEnd_straps (ch lun : Nat) (pass : Bool) : StrapsStand s (exec (.programEnd ch lun pass) s) := by
  show StrapsStand s (execProgramEnd ch lun pass s)
  unfold execProgramEnd
  dsimp only
  repeat' split
  all_goals simp

theorem eraseEnd_straps (ch lun : Nat) (pass : Bool) : StrapsStand s (exec (.eraseEnd ch lun pass) s) := by
  show StrapsStand s (execEraseEnd ch lun pass s)
  unfold execEraseEnd
  dsimp only
  repeat' split
  all_goals simp

theorem readEnd_straps (ch lun ladder corr : Nat) : StrapsStand s (exec (.readEnd ch lun ladder corr) s) := by
  show StrapsStand s (execReadEnd ch lun ladder corr s)
  unfold execReadEnd
  dsimp only
  repeat' split
  all_goals simp

theorem preProgramCheckEnd_straps (ch lun zeros : Nat) : StrapsStand s (exec (.preProgramCheckEnd ch lun zeros) s) := by
  show StrapsStand s (execPreProgramCheckEnd ch lun zeros s)
  unfold execPreProgramCheckEnd
  dsimp only
  repeat' split
  all_goals simp

theorem lunTimeout_straps (ch lun : Nat) : StrapsStand s (exec (.lunTimeout ch lun) s) := by
  show StrapsStand s (execLunTimeout ch lun s)
  unfold execLunTimeout
  dsimp only
  repeat' split
  all_goals simp

theorem fchDiagDone_straps (ch zeros corr ladder : Nat) : StrapsStand s (exec (.fchDiagDone ch zeros corr ladder) s) := by
  show StrapsStand s (execFchDiagDone ch zeros corr ladder s)
  unfold execFchDiagDone
  extract_lets mine read _ s0 c d b bad tack empty lad s1 s2 s3
  have h1 : straps (outside allButPins s1) = straps (outside allButPins s) := by simp [s1, s0]
  have h2 : straps (outside allButPins s2) = straps (outside allButPins s) := by simp only [s2]; split <;> simp [h1]
  have h3 : straps (outside allButPins s3) = straps (outside allButPins s) := by simp only [s3]; split <;> simp [h2]
  clear_value s3
  split
  · rw [strapsStand_done]
    split <;> simp [h3]
  · simp

/-! ## Power states -/

theorem sleepHandshakeReply_straps (agree : Bool) : StrapsStand s (exec (.sleepHandshakeReply agree) s) := by
  show StrapsStand s (execSleepHandshakeReply agree s)
  unfold execSleepHandshakeReply
  dsimp only
  repeat' split
  all_goals simp

theorem nonopExitEnd_straps (hdr : Option (Nat × Nat)) : StrapsStand s (exec (.nonopExitEnd hdr) s) := by
  show StrapsStand s (execNonopExitEnd hdr s)
  unfold execNonopExitEnd
  dsimp only
  repeat' split
  all_goals simp

/-! ## The test port -/

theorem testEnter_straps (key : Nat) : StrapsStand s (exec (.testEnter key) s) := by
  show StrapsStand s (execTestEnter key s)
  unfold execTestEnter
  repeat' split
  all_goals simp

theorem testDrainEnd_straps : StrapsStand s (exec .testDrainEnd s) := by
  show StrapsStand s (execTestDrainEnd s)
  unfold execTestDrainEnd
  split <;> simp

theorem fptestEnd_straps (res : FpRes) (bad : List (Nat × Nat × Nat)) : StrapsStand s (exec (.fptestEnd res bad) s) := by
  show StrapsStand s (execFptestEnd res bad s)
  unfold execFptestEnd
  extract_lets stop s1 failed skipped s1' _ _ s2
  have h1 : straps (outside allButPins s1) = straps (outside allButPins s) := straps_foldl _ (fun _ _ => by simp) _ _
  have h1' : straps (outside allButPins s1') = straps (outside allButPins s) := (straps_foldl _ (fun _ _ => by simp) _ _).trans h1
  have h2 : straps (outside allButPins s2) = straps (outside allButPins s) := straps_ite (Eq.trans (straps_upd rfl rfl rfl) h1') h1'
  clear_value s2
  split
  · simp [h2]
  · simp

/-! ## Accesses to registers -/

theorem fchDiagGo_straps (fn ch : Nat) (v : Dword) : StrapsStand s (exec (.fchDiagGo fn ch v) s) := by
  show StrapsStand s (execFchDiagGo fn ch v s)
  unfold execFchDiagGo
  exact strapsStand_txsRow fn fun t => by split <;> simp

theorem eccFlipArm_straps (fn : Nat) (v : Dword) : StrapsStand s (exec (.eccFlipArm fn v) s) := by
  show StrapsStand s (execEccFlipArm fn v s)
  unfold execEccFlipArm
  split
  · exact strapsStand_txsRow fn fun t => by simp
  · simp

theorem eccFlipDisarm_straps (fn : Nat) (v : Dword) : StrapsStand s (exec (.eccFlipDisarm fn v) s) := by
  show StrapsStand s (execEccFlipDisarm fn v s)
  unfold execEccFlipDisarm
  split
  · simp
  · exact strapsStand_txsRow fn fun t => by simp

theorem cadRootCmdSend_straps (fn : Nat) (v : BitVec 64) : StrapsStand s (exec (.cadRootCmdSend fn v) s) := by
  show StrapsStand s (execCadRootCmdSend fn v s)
  exact strapsStand_txsRow fn fun t => by split <;> simp

theorem cadRootEpochWrite_straps (fn : Nat) (v : BitVec 64) : StrapsStand s (exec (.cadRootEpochWrite fn v) s) := by
  show StrapsStand s (execCadRootEpochWrite fn v s)
  exact strapsStand_txsRow fn fun t => by split <;> simp

theorem sqTailDoorbell_straps (fn qid val : Nat) : StrapsStand s (exec (.sqTailDoorbell fn qid val) s) := by
  show StrapsStand s (execSqTailDoorbell fn qid val s)
  unfold execSqTailDoorbell
  dsimp only
  repeat' split
  all_goals simp

theorem controllerEnable_straps (fn : Nat) (cc : Dword) : StrapsStand s (exec (.controllerEnable fn cc) s) := by
  show StrapsStand s (execControllerEnable fn cc s)
  unfold execControllerEnable
  split <;> simp

theorem controllerReset_straps (fn : Nat) : StrapsStand s (exec (.controllerReset fn) s) := by
  show StrapsStand s (execControllerReset fn s)
  unfold execControllerReset
  dsimp only
  split_ifs <;> simp

theorem shutdown_straps (fn shn : Nat) : StrapsStand s (exec (.shutdown fn shn) s) := by
  show StrapsStand s (execShutdown fn shn s)
  unfold execShutdown
  dsimp only
  split_ifs <;> simp

theorem keySlotWrite_straps (fn off : Nat) (bytes : List Byte) : StrapsStand s (exec (.keySlotWrite fn off bytes) s) := by
  show StrapsStand s (execKeySlotWrite fn off bytes s)
  unfold execKeySlotWrite
  dsimp only
  split_ifs <;> simp

theorem pwrMeasRead_straps (fn : Nat) : StrapsStand s (exec (.pwrMeasRead fn) s) := by
  show StrapsStand s (execPwrMeasRead fn s)
  unfold execPwrMeasRead
  split <;> simp

theorem stbSlotFirstDwordRead_straps (view slot : Nat) : StrapsStand s (exec (.stbSlotFirstDwordRead view slot) s) := by
  show StrapsStand s (execStbSlotFirstDwordRead view slot s)
  unfold execStbSlotFirstDwordRead
  dsimp only
  split_ifs <;> simp

theorem nvmeMiCommand_straps (fn : Option Nat) : StrapsStand s (exec (.nvmeMiCommand fn) s) := by
  show StrapsStand s (execNvmeMiCommand fn s)
  unfold execNvmeMiCommand
  dsimp only
  rw [strapsStand_done]
  repeat' split
  all_goals simp

theorem registerWrite_straps (fn space off width : Nat) (v : BitVec 64) : StrapsStand s (exec (.registerWrite fn space off width v) s) := by
  show StrapsStand s (execRegisterWrite fn space off width v s)
  unfold execRegisterWrite
  extract_lets w s1
  have h1 : straps (outside allButPins s1) = straps (outside allButPins s) := by simp [s1]
  clear_value s1
  split
  · simp
  split
  · split
    · simp
    split
    · split
      · simp
      split
      · exact strapsStand_of_frames (by simp) (cqHeadDoorbell_frames _ _ _ _)
      · exact sqTailDoorbell_straps _ _ _ _
    · exact (strapsStand_doneIo _).mpr (straps_ite (by simp [h1]) h1)
  split
  · simp
  · simp

theorem fwActivationEnd_straps (ok : Bool) : StrapsStand s (exec (.fwActivationEnd ok) s) := by
  show StrapsStand s (execFwActivationEnd ok s)
  unfold execFwActivationEnd
  split
  · simp
  split
  · simp
  extract_lets w rev _ _ s1 s2 s3 s4
  have h1 : straps (outside allButPins s1) = straps (outside allButPins s) := straps_upd rfl rfl rfl
  have h2 : straps (outside allButPins s2) = straps (outside allButPins s) := by
    simp only [s2]
    split <;> simp [h1]
  have h3 : straps (outside allButPins s3) = straps (outside allButPins s) := by simp [s3, h2]
  have h4 : straps (outside allButPins s4) = straps (outside allButPins s) :=
    (straps_foldl _ (fun _ _ => (straps_foldl _ (fun _ _ => by simp) _ _).trans (by simp)) _ _).trans h3
  clear_value s4
  split <;> simp [h4]

end

/-! ## Every command -/

/-- A command that changes no pin, and accesses no register that could start the device anew. -/
theorem strapsStand_of_keeping_pins {i : Instr} (s : State) (h : ((mayChange i).contains .pins || accesses i) = false) :
    StrapsStand s (exec i s) := by
  obtain ⟨hpins, hacc⟩ := Bool.or_eq_false_iff.1 h
  have hL : Comp.pins ∉ mayChange i := by simpa using hpins
  have hw : accesses i = true → plainWake s := fun ha => Bool.noConfusion (hacc.symm.trans ha)
  cases hz : ((mayChange i).contains .zn || (mayChange i).contains .fl) with
  | false => exact strapsStand_of_frames hL (frames_mayChange i s hz hw)
  | true => exact strapsStand_of_frames hL (frames_mayChange_storage i s hz hw)

/-- Outside RESET every command leaves the straps. -/
theorem exec_strapsStand (i : Instr) {s : State} (hm : s.m.cur ≠ .reset) : StrapsStand s (exec i s) := by
  cases h : ((mayChange i).contains .pins || accesses i) with
  | false => exact strapsStand_of_keeping_pins s h
  | true =>
    cases i with
    | powerOn => exact powerOn_straps s
    | powerLoss => exact powerLoss_straps s
    | sysRstNLow _ => exact sysRstNLow_straps s _
    | sysRstNRise => exact sysRstNRise_straps s
    | deviceLevelPerst => exact deviceLevelPerst_straps s
    | deviceResetDrainEnd => exact deviceResetDrainEnd_straps s
    | portPerst _ => exact portPerst_straps s _
    | perstDeassert _ => exact perstDeassert_straps s _
    | strapSample _ _ _ => exact strapSample_outside_reset hm _ _ _ ▸ (strapsStand_next s).mpr rfl
    | imageLoadEnd _ _ _ _ => exact imageLoadEnd_straps s _ _ _ _
    | tableLoadEnd _ _ => exact tableLoadEnd_straps s _ _
    | startModeOverrun => exact startModeOverrun_straps s
    | ostlerWatchdogExpiry _ => exact ostlerWatchdogExpiry_straps s _
    | spineLinkFault _ => exact spineLinkFault_straps s _
    | refclk38m4Lost => exact refclk38m4Lost_straps s
    | entropyHealthFail => exact entropyHealthFail_straps s
    | sramUncorrectableError _ _ _ _ _ _ => exact sramUncorrectableError_straps s _ _ _ _ _ _
    | tableLineRebuildEnd _ _ _ _ => exact tableLineRebuildEnd_straps s _ _ _ _
    | pwrfailNFall => exact pwrfailNFall_straps s
    | pwrfailNRise => exact pwrfailNRise_straps s
    | cadPfAccepted _ => exact cadPfAccepted_straps s _
    | emergencyFlushComplete _ _ => exact emergencyFlushComplete_straps s _ _
    | flushRestartDelayExpiry => exact flushRestartDelayExpiry_straps s
    | thermalTrip _ _ => exact thermalTrip_straps s _ _
    | thermalTripDrainEnd _ => exact thermalTripDrainEnd_straps s _
    | huOkRise => exact huOkRise_straps s
    | huOkFall => exact huOkFall_straps s
    | proofWindowOpen => exact proofWindowOpen_straps s
    | proofPulseStart _ => exact proofPulseStart_straps s _
    | proofPulseEnd _ _ => exact proofPulseEnd_straps s _ _
    | programEnd _ _ _ => exact programEnd_straps s _ _ _
    | eraseEnd _ _ _ => exact eraseEnd_straps s _ _ _
    | readEnd _ _ _ _ => exact readEnd_straps s _ _ _ _
    | preProgramCheckEnd _ _ _ => exact preProgramCheckEnd_straps s _ _ _
    | lunTimeout _ _ => exact lunTimeout_straps s _ _
    | fchDiagDone _ _ _ _ => exact fchDiagDone_straps s _ _ _ _
    | sleepHandshakeReply _ => exact sleepHandshakeReply_straps s _
    | nonopExitEnd _ => exact nonopExitEnd_straps s _
    | testEnter _ => exact testEnter_straps s _
    | testDrainEnd => exact testDrainEnd_straps s
    | fptestEnd _ _ => exact fptestEnd_straps s _ _
    | proofNow _ => exact strapsStand_txsRow _ fun t => by simp
    | fchDiagGo _ _ _ => exact fchDiagGo_straps s _ _ _
    | eccFlipArm _ _ => exact eccFlipArm_straps s _ _
    | eccFlipDisarm _ _ => exact eccFlipDisarm_straps s _ _
    | sqTailDoorbell _ _ _ => exact sqTailDoorbell_straps s _ _ _
    | controllerEnable _ _ => exact controllerEnable_straps s _ _
    | controllerReset _ => exact controllerReset_straps s _
    | shutdown _ _ => exact shutdown_straps s _ _
    | fwActivationEnd _ => exact fwActivationEnd_straps s _
    | gdcStart _ _ _ _ => exact strapsStand_gdcRow _ _ _ _ _ _
    | gdcStop _ _ _ => exact strapsStand_gdcRow _ _ _ _ _ _
    | gdcResume _ _ _ _ => exact strapsStand_gdcRow _ _ _ _ _ _
    | gdcClear _ _ _ => exact strapsStand_gdcRow _ _ _ _ _ _
    | keySlotWrite _ _ _ => exact keySlotWrite_straps s _ _ _
    | cvuInit _ _ _ => exact strapsStand_cvuRow _ _ fun u t => by simp
    | cvuFeedWrite _ _ _ => exact strapsStand_cvuRow _ _ fun u t => by simp
    | cvuValWrite _ _ _ => exact strapsStand_cvuRow _ _ fun u t => by simp
    | cadPfSend _ => exact strapsStand_txsRow _ pfSendNow_straps
    | tokenRelease _ => exact strapsStand_txsRow _ fun t => by simp
    | relock _ => exact strapsStand_txsRow _ fun t => by simp
    | cadRootCmdSend _ _ => exact cadRootCmdSend_straps s _ _
    | cadRootEpochWrite _ _ => exact cadRootEpochWrite_straps s _ _
    | pwrMeasRead _ => exact pwrMeasRead_straps s _
    | stbSlotFirstDwordRead _ _ => exact stbSlotFirstDwordRead_straps s _ _
    | nvmeMiCommand _ => exact nvmeMiCommand_straps s _
    | registerWrite _ _ _ _ _ => exact registerWrite_straps s _ _ _ _ _
    | regReadLowDword _ _ _ => exact strapsStand_regRead _ _ _ _
    | regReadHighDword _ _ _ => exact strapsStand_regRead _ _ _ _
    | _ => exact Bool.noConfusion h

/-! ## The registers that show the straps (Tables 2.11 and 1.13) -/

/-- TXS_STRAP in the view of either physical function. -/
theorem regAt_strap {fn : Nat} (h : isPf fn = true) (s : State) : regAt? fn 0x1014 s =
    some (r4 0x1014 (fun s => b2n s.pins.strapDual + fld 1 1 (b2n s.pins.strapTest) + fld 2 1 (b2n s.pins.strapNoimg))) := by
  have habsent : fchAbsent 0x1014 s = false := by
    simp [fchAbsent]
    omega
  unfold regAt?
  rw [h, habsent]
  rfl

/-- TXS_CONFIG in the view of either physical function. -/
theorem regAt_config {fn : Nat} (h : isPf fn = true) (s : State) : regAt? fn 0x0004 s =
    some (r4 0x4 (fun s => s.part.channels + fld 7 3 s.part.sheds + fld 10 1 (b2n s.part.gradeX) + fld 11 1 (b2n s.pins.strapDual))) := by
  have habsent : fchAbsent 0x0004 s = false := by
    simp [fchAbsent]
    omega
  unfold regAt?
  rw [h, habsent]
  rfl

/-- The bits of TXS_STRAP. -/
theorem bit_strap (d t n : Bool) : bit (b2n d + fld 1 1 (b2n t) + fld 2 1 (b2n n)) 0 = d ∧ bit (b2n d + fld 1 1 (b2n t) + fld 2 1 (b2n n)) 1 = t ∧
    bit (b2n d + fld 1 1 (b2n t) + fld 2 1 (b2n n)) 2 = n := by
  revert d t n
  decide

/-- DUAL_PORT stands above the fields of TXS_CONFIG that count channels and Shed dies. -/
theorem bit_dualPort {c h : Nat} (hc : c < 128) (_hh : h < 8) (x d : Bool) :
    bit (c + fld 7 3 h + fld 10 1 (b2n x) + fld 11 1 (b2n d)) 11 = d := by
  have hx : b2n x < 2 := by cases x <;> decide
  have key : (c + fld 7 3 h + fld 10 1 (b2n x) + fld 11 1 (b2n d)) / 2 ^ 11 % 2 = b2n d := by
    have hd : b2n d < 2 := by cases d <;> decide
    unfold fld
    omega
  unfold bit
  rw [key]
  cases d <;> rfl

/-- Settles O13: outside RESET every command leaves the straps, and the two registers read them. -/
theorem strapsStandUntilReset : Obligations.StrapsStandUntilReset := by
  unfold Obligations.StrapsStandUntilReset
  refine ⟨fun i s t ht hm => ?_, fun d t n s hm => strapSample_outside_reset hm d t n, fun fn s hf => ⟨⟨_, regAt_strap hf s, rfl, ?_⟩, fun hc hh => ?_⟩⟩
  · have hs : straps t = straps s := exec_strapsStand i hm t ht
    exact ⟨congrArg (·.1) hs, congrArg (·.2.1) hs, congrArg (·.2.2) hs⟩
  · exact bit_strap ..
  · exact ⟨_, regAt_config hf s, rfl, bit_dualPort hc hh ..⟩

end Sys2Proof.Machine

/-! O16. The end of RECOVERY: the start ends, in SANITIZE or in a base mode. -/

namespace Sys2Proof.Machine
open Sys2Proof

/-- A change of mode leaves the journal's and the start's records. -/
theorem setMode_jn (md : Mode) (s : State) : (setMode md s).jn = s.jn := setMode_keeps (x := .jn) (by decide) md s
theorem setMode_st (md : Mode) (s : State) : (setMode md s).st = s.st := setMode_keeps (x := .st) (by decide) md s

/-- The service period is open, admission with it, and the start has ended (R65). -/
def inService (s : State) : Prop := s.jn.opened = true ∧ s.jn.admOff = false ∧ s.st.up = true

theorem setMode_inService {md : Mode} {s : State} (h : inService s) : inService (setMode md s) := by
  unfold inService at h ⊢
  rw [setMode_jn, setMode_st]
  exact h

theorem resumeMedia_stb (s : State) : (resumeMedia s).stb = s.stb :=
  keeps_of_outside (x := .stb) (resumeMedia_outside (List.Subset.refl _) s) (by decide)

/-- Records of a list, one after the other, leave a device in service. -/
theorem foldl_raise_inService {α : Type} (code sev : Nat) (args : α → List (List Nat)) :
    ∀ (l : List α) {s : State}, inService s → inService (l.foldl (fun s c => raise code sev (args c) s) s)
  | [], _, h => h
  | c :: l, s, h => foldl_raise_inService code sev args l (s := raise code sev (args c) s) h

/-- What the last change of mode of a start leaves. -/
theorem enterMode_after {md : Mode} {s u : State} (hm : md = .sanitize ∨ md.isBase = true) (hs : inService u) (hg : grows s u) :
    ((setMode md u).m.cur = .sanitize ∨ (setMode md u).m.cur.isBase = true) ∧ inService (setMode md u) ∧ grows s (setMode md u) := by
  rw [setMode_cur]
  exact ⟨hm, setMode_inService hs, grows_trans hg (grows_setMode md u)⟩

/-- A start ends in SANITIZE or a base mode, in service, and forgets no event of the step. -/
theorem startEnds_after (s : State) :
    ((startEnds s).m.cur = .sanitize ∨ (startEnds s).m.cur.isBase = true) ∧ inService (startEnds s) ∧ grows s (startEnds s) := by
  unfold startEnds
  extract_lets t _ _ _ _ s1
  have hserv : inService s1 := ⟨rfl, rfl, rfl⟩
  have hstb : s1.stb = s.stb := resumeMedia_stb s
  clear_value s1
  split
  · exact enterMode_after (.inl rfl) hserv (grows_of_eq (congrArg Stb.raised hstb))
  · refine enterMode_after (.inr (baseMode_isBase s1)) (foldl_raise_inService 0x3021 1 (fun c : Scrub => [h2 c.zone]) s1.zn.scrubs hserv) ?_
    exact grows_trans (grows_of_eq (congrArg Stb.raised hstb)) (grows_foldl _ (fun _ _ => grows_raise ..) _ s1)

/-- RECOVERY_END, in RECOVERY: after the eight steps its record is raised and the start ends. -/
theorem recoveryEnd_ends (lost : List Lost) (found : RecovFound) {s : State} (h : s.m.cur = .recovery) :
    ∃ args w, exec (.recoveryEnd lost found) s = .next (afterIo (startEnds (raise 0x1031 1 args w))) :=
  ⟨_, _, if_neg (not_not.2 h)⟩

/-- Settles O16: what the start's end leaves, of which the record of RECOVERY's end is among the events. -/
theorem recoveryEnds : Obligations.RecoveryEnds := by
  unfold Obligations.RecoveryEnds
  intro lost found s h
  obtain ⟨args, w, he⟩ := recoveryEnd_ends lost found h
  obtain ⟨hmode, ⟨hopened, hadm, hup⟩, hgrow⟩ := startEnds_after (raise 0x1031 1 args w)
  exact ⟨_, he, raises_mono hgrow (raises_raise ..), hmode, hopened, hadm, hup⟩

end Sys2Proof.Machine

/-! O14. The start: the straps choose IMAGE_LOAD or TEST, and IMAGE_LOAD takes a slot or the defaults. -/

namespace Sys2Proof.Machine
open Sys2Proof

/-! ## RESET: the straps (R46 to R48, R442) -/

/-- A state with the straps sampled. -/
def sampled (d t n : Bool) (s : State) : State :=
  { s with pins := { s.pins with strapDual := d, strapTest := t, strapNoimg := n }, free := s.free + 3 }

/-- A strap at a stable level. -/
def stable (b : Bool) : Strap := if b then .high else .low

theorem strapLevel_stable (b : Bool) (k : Nat) : strapLevel (stable b) k = b := by cases b <;> rfl

/-- STRAP_SAMPLE in RESET with SYS_RST_N high, the straps stable. -/
theorem strapSample_in_reset {s : State} (hm : s.m.cur = .reset) (hr : s.pins.sysRstN = true) (d t n : Bool) :
    exec (.strapSample (stable d) (stable t) (stable n)) s = done (if t then enterTest 0 (sampled d t n s) else setMode .imageLoad (sampled d t n s)) := by
  show execStrapSample _ _ _ s = _
  unfold execStrapSample
  rw [if_pos ⟨hm, hr⟩]
  simp only [strapLevel_stable]
  rfl

/-- TEST is entered with its record. -/
theorem enterTest_after (cause : Nat) (s : State) : (enterTest cause s).m.cur = .test ∧ raises 0xC001 (enterTest cause s) := by
  unfold enterTest
  extract_lets s0 s1 _ _ _ _ _ _ _ _ s2
  have hraised : raises 0xC001 s2 := raises_raise ..
  have hpasses : (dropPasses (fun _ => true) s2).stb = s2.stb := keeps_of_outside (x := .stb) (dropPasses_outside (List.Subset.refl _) _ s2) (by decide)
  clear_value s2
  exact ⟨setMode_cur .., raises_mono (grows_trans (grows_of_eq (congrArg Stb.raised hpasses)) (grows_setMode ..)) hraised⟩

/-! ## IMAGE_LOAD (R59 to R62) -/

/-- Neither slot reads well. -/
def noSlot (a b : SlotRead) : Bool := decide (a.st ≠ 0 ∧ b.st ≠ 0)

/-- Slot B reads well and slot A does not, or has the lower SEQ. -/
def takesB (a b : SlotRead) : Bool := b.st == 0 && (a.st != 0 || decide (a.seq < b.seq))

/-- The image of the slot taken, or the factory defaults. -/
def imageTaken (p : Part) (a b : SlotRead) : Img := if noSlot a b then Img.dflt p else if takesB a b then b.img else a.img

theorem imageTaken_default {a b : SlotRead} (ha : a.st ≠ 0) (hb : b.st ≠ 0) (p : Part) : imageTaken p a b = Img.dflt p ∧ noSlot a b = true := by
  have h : noSlot a b = true := decide_eq_true ⟨ha, hb⟩
  exact ⟨if_pos h, h⟩

theorem imageTaken_slotA {a b : SlotRead} (ha : a.st = 0) (h : b.st ≠ 0 ∨ b.seq ≤ a.seq) (p : Part) :
    imageTaken p a b = a.img ∧ takesB a b = false ∧ noSlot a b = false := by
  have hn : noSlot a b = false := by simp [noSlot, ha]
  have hB : takesB a b = false := by simpa [takesB, ha, imp_iff_not_or] using h
  exact ⟨by simp [imageTaken, hn, hB], hB, hn⟩

theorem imageTaken_slotB {a b : SlotRead} (hb : b.st = 0) (h : a.st ≠ 0 ∨ a.seq < b.seq) (p : Part) :
    imageTaken p a b = b.img ∧ takesB a b = true ∧ noSlot a b = false := by
  have hn : noSlot a b = false := by simp [noSlot, hb]
  have hB : takesB a b = true := by simpa [takesB, hb] using h
  exact ⟨by simp [imageTaken, hn, hB], hB, hn⟩

/-- A choice between two states that forget no event. -/
theorem grows_ite {c : Prop} [Decidable c] {s t u : State} (ht : grows s t) (hu : grows s u) : grows s (if c then t else u) := by
  split
  · exact ht
  · exact hu

theorem startFw_grows (fwOk : Bool) (s : State) : grows s (startFw fwOk s) := by
  unfold startFw
  extract_lets _ _ _ good _ _ s1
  exact grows_ite (grows_of_eq rfl) (grows_trans (grows_of_eq rfl) (grows_raise ..))

/-- What IMAGE_LOAD_END leaves in IMAGE_LOAD. -/
theorem imageLoadEnd_takes {s : State} (hm : s.m.cur = .imageLoad) (sfdpOk fwOk : Bool) (slotA slotB : List Byte) (a b : SlotRead)
    (ha : a = readSlot s.part (sfdpOk && !s.pins.strapNoimg) slotA) (hb : b = readSlot s.part (sfdpOk && !s.pins.strapNoimg) slotB) :
    ∃ u, exec (.imageLoadEnd sfdpOk slotA slotB fwOk) s = .next (after u) ∧ u.m.cur = .proofLoad ∧ u.img = imageTaken s.part a b ∧
      (u.st.cfgDefaulted = noSlot a b ∧ u.st.slot = b2n (takesB a b) ∧ u.st.slotASt = a.st ∧ u.st.slotBSt = b.st) ∧
      (noSlot a b = true → raises 0x1011 u) ∧ u.pins.wpLow = false ∧ u.pins.huChgEn = true := by
  show ∃ u, execImageLoadEnd sfdpOk slotA slotB fwOk s = .next (after u) ∧ _
  unfold execImageLoadEnd
  rw [if_neg (not_not.2 hm)]
  extract_lets no a' b' none_ useB c s1 s2 s3 s4 _ st s5 _ _ _ _ _ _ s6 s6' s7
  have himg : c.img = imageTaken s.part a b := by
    subst ha hb
    show (if none_ then _ else if useB then _ else _ : SlotRead).img = _
    rw [apply_ite SlotRead.img, apply_ite SlotRead.img]
    rfl
  have h5 : keeps .st { s4 with st := st, img := c.img } s5 ∧ keeps .img { s4 with st := st, img := c.img } s5 :=
    ⟨keeps_of_outside (startFw_outside (List.Subset.refl _) ..) (by decide), keeps_of_outside (startFw_outside (List.Subset.refl _) ..) (by decide)⟩
  have hfold : outside [.fl] s6' = outside [.fl] s6 := outside_foldl _ (fun s c => updChn_outside (List.Subset.refl _) ..) _ _
  have h7 : outside [.m, .q, .stb, .ci] s7 = outside [.m, .q, .stb, .ci] s6' := setMode_outside (List.Subset.refl _) ..
  have hst : s7.st = st := (keeps_of_outside (x := .st) h7 (by decide)).trans ((keeps_of_outside (x := .st) hfold (by decide)).trans h5.1)
  have himg' : s7.img = c.img := (keeps_of_outside (x := .img) h7 (by decide)).trans ((keeps_of_outside (x := .img) hfold (by decide)).trans h5.2)
  have hpins : s7.pins = s6.pins := (keeps_of_outside (x := .pins) h7 (by decide)).trans (keeps_of_outside (x := .pins) hfold (by decide))
  have hgrow : grows s3 s7 := by
    have h4 : grows s3 s4 := grows_ite (grows_raise ..) (grows_refl s3)
    have h6' : grows s6 s6' := grows_keeps (keeps_of_outside hfold (by decide))
    exact grows_trans h4 (grows_trans (startFw_grows fwOk { s4 with st := st, img := c.img }) (grows_trans h6' (grows_setMode .proofLoad s6')))
  have hraised : none_ = true → raises 0x1011 s3 := by
    intro h
    show raises 0x1011 (if none_ then _ else _)
    rw [if_pos h]
    exact raises_raise ..
  refine ⟨_, rfl, setMode_cur .., himg'.trans himg, ?_, ?_, ?_, ?_⟩
  · subst ha hb
    exact ⟨congrArg StartS.cfgDefaulted hst, congrArg StartS.slot hst, congrArg StartS.slotASt hst, congrArg StartS.slotBSt hst⟩
  · subst ha hb
    exact fun h => raises_mono hgrow (hraised h)
  · exact congrArg Pins.wpLow hpins
  · exact congrArg Pins.huChgEn hpins

/-- Settles O14: what the straps choose, and what IMAGE_LOAD's end takes. -/
theorem startBegins : Obligations.StartBegins := by
  unfold Obligations.StartBegins
  refine ⟨fun dual noimg s hm hr => ⟨?_, ?_⟩, fun sfdpOk fwOk slotA slotB s hm => ?_⟩
  · refine ⟨_, strapSample_in_reset hm hr dual false noimg, setMode_cur .., ?_⟩
    have hpins := setMode_keeps (x := .pins) (by decide) .imageLoad (sampled dual false noimg s)
    exact ⟨congrArg Pins.strapDual hpins, congrArg Pins.strapTest hpins, congrArg Pins.strapNoimg hpins,
      setMode_keeps (x := .fl) (by decide) .imageLoad (sampled dual false noimg s), setMode_keeps (x := .zn) (by decide) .imageLoad (sampled dual false noimg s)⟩
  · obtain ⟨hcur, hev⟩ := enterTest_after 0 (sampled dual true noimg s)
    have hs : straps (enterTest 0 (sampled dual true noimg s)) = (dual, true, noimg) := enterTest_straps 0 (sampled dual true noimg s)
    exact ⟨_, strapSample_in_reset hm hr dual true noimg, hcur, congrArg (·.1) hs, congrArg (·.2.1) hs, congrArg (·.2.2) hs, hev⟩
  · obtain ⟨u, hu, hcur, himg, ⟨hdef, hslot, hA, hB⟩, hev, hwp, hchg⟩ := imageLoadEnd_takes hm sfdpOk fwOk slotA slotB _ _ rfl rfl
    refine ⟨u, hu, hcur, ⟨fun ha hb => ?_, fun ha h => ?_, fun hb h => ?_, hA, hB⟩, hwp, hchg⟩
    · obtain ⟨htaken, hnone⟩ := imageTaken_default ha hb s.part
      exact ⟨himg.trans htaken, hdef.trans hnone, hev hnone⟩
    · obtain ⟨htaken, huse, hnone⟩ := imageTaken_slotA ha h s.part
      exact ⟨himg.trans htaken, by rw [hslot, huse]; rfl, hdef.trans hnone⟩
    · obtain ⟨htaken, huse, hnone⟩ := imageTaken_slotB hb h s.part
      exact ⟨himg.trans htaken, by rw [hslot, huse]; rfl, hdef.trans hnone⟩

end Sys2Proof.Machine

/-! O59. The Studbook: placing, persisting and reading records. -/

namespace Sys2Proof.Machine
open Sys2Proof

/-! ## Slots of the ring -/

/-- A key that no entry has. -/
theorem Tbl.get?_eq_none {α : Type} {x : Nat} : ∀ {t : Tbl α}, (∀ p ∈ t, p.1 ≠ x) → Tbl.get? t x = none
  | [], _ => rfl
  | (k, _) :: t, h => by
    have hk : k ≠ x := h _ List.mem_cons_self
    rw [Tbl.get?, if_neg hk]
    exact Tbl.get?_eq_none fun p hp => h p (List.mem_cons_of_mem _ hp)

/-- The free slot looked for from `cur` on is `cur` or later, and free. -/
theorem nthFree_free : ∀ {t : Tbl Rec} {cur : Nat} (n : Nat), t.rising = true → (∀ p ∈ t, cur ≤ p.1) →
    cur ≤ nthFree t cur n ∧ Tbl.get? t (nthFree t cur n) = none
  | [], cur, n, _, _ => ⟨Nat.le_add_right cur n, rfl⟩
  | (k, v) :: t, cur, n, hr, hcur => by
    obtain ⟨habove, hrise⟩ := Tbl.rising_cons.mp hr
    have hk : cur ≤ k := hcur _ List.mem_cons_self
    rw [nthFree]
    split
    · refine ⟨Nat.le_add_right cur n, Tbl.get?_eq_none fun p hp => ?_⟩
      rcases List.mem_cons.mp hp with rfl | hp
      · dsimp only
        omega
      · have := habove p hp
        omega
    · obtain ⟨hge, hnone⟩ := nthFree_free (cur := k + 1) (n - (k - cur)) hrise habove
      exact ⟨by omega, by rw [Tbl.get?, if_neg (by omega)]; exact hnone⟩

@[simp] theorem markDirty_queue (slot : Nat) (b : Stb) : (markDirty slot b).queue = b.queue := by unfold markDirty; split <;> rfl
@[simp] theorem markDirty_ring (slot : Nat) (b : Stb) : (markDirty slot b).ring = b.ring := by unfold markDirty; split <;> rfl
@[simp] theorem markDirty_seqNext (slot : Nat) (b : Stb) : (markDirty slot b).seqNext = b.seqNext := by unfold markDirty; split <;> rfl

/-! ## Placing (R51, R400 to R402) -/

/-- The state with the front event taken off the queue. -/
def frontTaken (es : List Ev) (s : State) : State := { s with stb := { s.stb with queue := es } }

/-- Before the ring is loaded the front event goes to the early buffer. -/
theorem placeFront_early {s : State} {e : Ev} {es : List Ev} (hq : s.stb.queue = e :: es) (hl : s.stb.loaded = false)
    (h64 : s.stb.early.length < 64) :
    placeFront s = { s with stb := { s.stb with queue := es, early := s.stb.early ++ [{ recOf e with early := true }] } } := by
  simp [placeFront, placeEarly, hq, hl, h64]

/-- With the ring loaded, a SEQ reserved and no early record waiting, the front event goes to the ring. -/
theorem placeFront_ring {s : State} {e : Ev} {es : List Ev} (hq : s.stb.queue = e :: es) (hl : s.stb.loaded = true) (hseq : seqLeft s.stb ≠ 0)
    (hearly : s.stb.early = []) : placeFront s = placeEv e (frontTaken es s) := by
  simp [placeFront, frontTaken, hq, hl, hseq, hearly]

/-- A new record takes the next SEQ in a free slot. -/
theorem placeNew_room {s : State} (r : Rec) (us : Option Nat) (hroom : s.stb.ring.length < 32768) (hr : s.stb.ring.rising = true) :
    ∃ slot, (placeNew r us s).stb = writeSlot slot r us s.stb ∧ Tbl.get? s.stb.ring slot = none ∧ (placeNew r us s).zn = s.zn := by
  obtain ⟨-, hfree⟩ := nthFree_free (cur := 0) (Config.freeNat s.free % (ringSize - s.stb.ring.length)) hr fun p _ => Nat.zero_le p.1
  have hplaced : placeNew r us s = tick { s with stb := writeSlot _ r us s.stb } := if_pos hroom
  exact ⟨_, congrArg State.stb hplaced, hfree, by rw [hplaced]; rfl⟩

/-- An event with no newest record to repeat is a new record. -/
theorem placeEv_new {s : State} (e : Ev) (h : newestRec s.stb = none) : placeEv e s = placeNew (recOf e) (some e.us) s := by
  simp only [placeEv, h]

/-- An event identical to the newest record adds one to its repeat count. -/
theorem placeEv_repeat {s : State} {e : Ev} {i : Nat} {r : Rec} (h : newestRec s.stb = some (i, r)) (hid : identicalTo e s.stb r = true) :
    placeEv e s = { s with stb := markDirty i { s.stb with ring := Tbl.put s.stb.ring i { r with rpt := r.rpt + 1 }, lastUs := some e.us } } := by
  simp only [placeEv, h, hid, if_true]

theorem writeSlot_seqNext (slot : Nat) (r : Rec) (us : Option Nat) (b : Stb) : (writeSlot slot r us b).seqNext = wrapAdd 32 b.seqNext 1 :=
  markDirty_seqNext ..

/-! ## Persistence and the checkpoint (R178, R403) -/

/-- With no early record waiting, persistence copies the ring and leaves it as it is. -/
theorem persistNow_ring {s : State} (h : s.stb.early = []) :
    (persistNow s).stb.per.ring = s.stb.ring ∧ (persistNow s).stb.dirty = [] ∧ (persistNow s).stb.ring = s.stb.ring ∧ (persistNow s).zn = s.zn := by
  unfold persistNow
  extract_lets b res t
  rw [show b.early.length = 0 from congrArg List.length h]
  exact ⟨rfl, rfl, rfl, rfl⟩

/-- A checkpoint counts and stamps, keeps the offsets learned, and forgets what the conventional map held before. -/
theorem checkpoint_after (s : State) : (checkpoint s).jn.checkpoints = s.jn.checkpoints + 1 ∧ (checkpoint s).jn.stamp = (s.tm.epoch, s.tm.turn, s.tm.us) ∧
    (checkpoint s).jn.learned = s.ecc.learned ∧ (checkpoint s).zn = { s.zn with convOld := [] } ∧ (checkpoint s).q = s.q := by
  have stored : outside [.stb, .free] (persistAll (dropOld s)) = outside [.stb, .free] (dropOld s) := persistAll_outside (List.Subset.refl _) _
  have hjn : (persistAll (dropOld s)).jn = s.jn := keeps_of_outside (x := .jn) stored (by decide)
  have htm : (persistAll (dropOld s)).tm = s.tm := keeps_of_outside (x := .tm) stored (by decide)
  have hecc : (persistAll (dropOld s)).ecc = s.ecc := keeps_of_outside (x := .ecc) stored (by decide)
  have hzn : (persistAll (dropOld s)).zn = { s.zn with convOld := [] } := keeps_of_outside (x := .zn) stored (by decide)
  have hq : (persistAll (dropOld s)).q = s.q := keeps_of_outside (x := .q) stored (by decide)
  unfold checkpoint persistStampLife
  generalize persistAll (dropOld s) = t at hjn htm hecc hzn hq
  exact ⟨by rw [← hjn], by rw [← htm], by rw [← hecc], hzn, hq⟩

theorem journalCheckpoint_runs_checkpoint {s : State} (hp : mayPersist s = true) (hm : s.m.cur ≠ .emergencyFlush) :
    exec .journalCheckpoint s = .next (after (checkpoint s)) := by
  show execJournalCheckpoint s = _
  simp [execJournalCheckpoint, hp, hm, done_after]

/-! ## The window (R406, R407) -/

/-- The offset lies in the register. -/
def inReg (off : Nat) (r : Reg) : Bool := decide (r.off ≤ off ∧ off < r.off + r.bytes)

theorem inReg_eq_false_iff {off : Nat} {r : Reg} : inReg off r = false ↔ off < r.off ∨ r.off + r.bytes ≤ off := by
  rw [inReg, decide_eq_false_iff_not]
  omega

/-- A slot of a view's window, as a register. -/
def slotReg (view i : Nat) : Reg := ⟨0x7800 + 0x20 * i, 32, fun s => leNat (slotRead view i s)⟩

/-- The Studbook's registers end below its window. -/
theorem stbRegs_window (view : Nat) : ∃ l, stbRegs view = l ++ (List.range 64).map (slotReg view) ∧ ∀ r ∈ l, r.off + r.bytes ≤ 0x7800 :=
  ⟨_, rfl, by simp [r4, r8]⟩

/-- Window slots do not overlap: a slot's first byte lies in its own register and in none before it. -/
theorem find_slotReg (view : Nat) {slot : Nat} (h : slot < 64) :
    ((List.range 64).map (slotReg view)).find? (inReg (0x7800 + 0x20 * slot)) = some (slotReg view slot) := by
  have hself : inReg (0x7800 + 0x20 * slot) (slotReg view slot) = true := decide_eq_true (by dsimp only [slotReg]; omega)
  have hbefore : ∀ j < slot, inReg (0x7800 + 0x20 * slot) (slotReg view j) = false := fun j hj =>
    inReg_eq_false_iff.2 (.inr (by dsimp only [slotReg]; omega))
  have hfirst : (List.range 64).find? (inReg (0x7800 + 0x20 * slot) ∘ slotReg view) = some slot :=
    List.find?_range_eq_some.2 ⟨hself, List.mem_range.2 h, fun j hj => by rw [Function.comp_apply, hbefore j hj]; rfl⟩
  rw [List.find?_map, hfirst]
  rfl

/-- A window slot is one register of 32 bytes. -/
theorem regAt_slot {slot : Nat} (h : slot < 64) (s : State) :
    regAt? 0 (0x7800 + 0x20 * slot) s = some (slotReg 0 slot) := by
  have habsent : fchAbsent (0x7800 + 0x20 * slot) s = false := by
    simp [fchAbsent]
    omega
  have hblock : txsBlock 0 (0x7800 + 0x20 * slot) = stbRegs 0 := by
    unfold txsBlock
    repeat rw [if_neg (by omega)]
    rw [if_pos (by omega)]
    rfl
  obtain ⟨l, hl, hbelow⟩ := stbRegs_window 0
  have hnone : l.find? (inReg (0x7800 + 0x20 * slot)) = none := by
    refine List.find?_eq_none.2 fun r hr => ?_
    have := hbelow r hr
    rw [inReg_eq_false_iff.2 (.inr (by omega))]
    exact Bool.false_ne_true
  have hpf : isPf 0 = true := rfl
  unfold regAt?
  rw [hpf, if_pos rfl, habsent, if_neg Bool.false_ne_true, hblock, hl]
  show List.find? (inReg (0x7800 + 0x20 * slot)) _ = _
  rw [List.find?_append, hnone, find_slotReg 0 h]
  rfl

/-- A read of a window slot's first dword latches the slot. -/
theorem read32_slot {slot : Nat} (h : slot < 64) (t : State) :
    ∃ v, read32 0 (0x7800 + 0x20 * slot) t = readOut v (latchSlot 0 slot t) := by
  have hrange : 0x7800 ≤ 0x7800 + 0x20 * slot ∧ 0x7800 + 0x20 * slot < 0x8000 := by omega
  have h32 : (0x7800 + 0x20 * slot) % 0x20 = 0 := by omega
  refine ⟨regBytes 0 (0x7800 + 0x20 * slot) 4 (latchSlot 0 slot t), ?_⟩
  unfold read32
  rw [if_neg (by omega), regAt_slot h]
  simp [slotReg, isPf, hrange, h32]

theorem stbSlotFirstDwordRead_latches {slot : Nat} (h : slot < 64) {s : State} (hs : plainWake s) :
    ∃ u, exec (.stbSlotFirstDwordRead 0 slot) s = .next (after u) ∧ (winOf 0 u).latch = some (slot, slotBytes 0 slot (touch 0 s)) ∧ u.zn = s.zn := by
  obtain ⟨v, hv⟩ := read32_slot h (touch 0 s)
  refine ⟨readOut v (latchSlot 0 slot (touch 0 s)), ?_, rfl, touch_zn 0 hs⟩
  show execStbSlotFirstDwordRead 0 slot s = _
  simp [execStbSlotFirstDwordRead, h, fnPresent, hv, done_after]

/-! ## Studbook Read (R408) -/

section
variable {c : Cmd} {s s1 : State} {k : Ctx}

/-- A stall may not send Studbook Read. -/
theorem studbookRead_denied (ht : taken c s = some (k, s1)) (hf : isPf c.fn = false) :
    ∃ u, exec (.studbookRead c) s = .next (after u) ∧ endsWith k 0 0x01 0 [] s1 u :=
  ends_of_taken ht (by rw [hf, gateAdmin_denied]; exact ⟨k, rfl, rfl, rfl, rfl⟩)

/-- A reserved field of Studbook Read. -/
theorem studbookRead_reserved (ht : taken c s = some (k, s1)) (hp : plainForm k) (hf : isPf c.fn = true) (hw : bits c.cdw11.toNat 31 22 ≠ 0) :
    ∃ u, exec (.studbookRead c) s = .next (after u) ∧ endsWith k 0 0x02 0 [] s1 u :=
  ends_of_taken ht (by rw [hf, gateAdmin_dispatch hp, if_pos hw]; exact endsWith_dispatch ..)

/-- Studbook Read of a physical function answers the records it selects. -/
theorem studbookRead_answers (ht : taken c s = some (k, s1)) (hp : plainForm k) (hf : isPf c.fn = true) (hw : bits c.cdw11.toNat 31 22 = 0) :
    ∃ u, exec (.studbookRead c) s = .next (after u) ∧ endsWith k 0 0 (studbookPick c s1).length (studbookData c s1) s1 u :=
  ends_of_taken ht (by rw [hf, gateAdmin_dispatch hp, if_neg (not_not.2 hw)]; exact endsWith_dispatch ..)

end

/-- Settles O59, part by part. -/
theorem studbookPlacesAndReads : Obligations.StudbookPlacesAndReads := by
  unfold Obligations.StudbookPlacesAndReads
  intro s
  refine ⟨fun e es hq => ⟨fun hl h64 => ?_, fun hl hseq hearly hnew hroom hr => ?_, fun i r hl hseq hearly hnew hid => ?_⟩, fun hp hearly => ?_,
    fun hp hm => ⟨_, journalCheckpoint_runs_checkpoint hp hm, checkpoint_after s⟩,
    fun c s1 k ht hp => ⟨studbookRead_denied ht, studbookRead_reserved ht hp, studbookRead_answers ht hp⟩,
    fun slot h hs => stbSlotFirstDwordRead_latches h hs⟩
  · refine ⟨_, rfl, ?_⟩
    rw [placeFront_early hq hl h64]
    exact ⟨rfl, rfl, rfl, rfl⟩
  · obtain ⟨slot, hstb, hfree, hzn⟩ := placeNew_room (s := frontTaken es s) (recOf e) (some e.us) hroom hr
    obtain ⟨hqueue, -, -, -, -, -, hring⟩ := writeSlot_frame slot (recOf e) (some e.us) (frontTaken es s).stb
    refine ⟨_, slot, rfl, ?_⟩
    rw [placeFront_ring hq hl hseq hearly, placeEv_new (s := frontTaken es s) e hnew, hstb, hqueue, hring, writeSlot_seqNext]
    exact ⟨rfl, rfl, Tbl.get?_put_same .., hfree, hzn⟩
  · refine ⟨_, rfl, ?_⟩
    rw [placeFront_ring hq hl hseq hearly, placeEv_repeat (s := frontTaken es s) hnew hid]
    simp [frontTaken]
  · exact ⟨_, if_pos hp, persistNow_ring hearly⟩

end Sys2Proof.Machine

/-! SUPPORT. The hold-up qualification: WT and the base mode, the quotas, and what the end of a proof-load leaves. -/

namespace Sys2Proof

/-- What a table has under a key is one of its entries. -/
theorem Tbl.mem_of_get? {α : Type} {x : Nat} {a : α} : ∀ {t : Tbl α}, Tbl.get? t x = some a → (x, a) ∈ t
  | (k, v) :: t, h => by
    unfold Tbl.get? at h
    split at h
    · simp_all
    · exact List.mem_cons_of_mem _ (Tbl.mem_of_get? h)

end Sys2Proof

namespace Sys2Proof.Machine
open Sys2Proof

/-! ## WT and the base mode (R33, R79, R80) -/

theorem setWarn_wt (b : Nat) (v : Bool) (s : State) : (setWarn b v s).m.wt = s.m.wt := by
  obtain ⟨w, hw⟩ := setWarn_m b v s
  rw [hw]

theorem grows_reBase (s : State) : grows s (reBase s) := grows_ite (grows_setMode ..) (grows_refl s)

theorem setWt_keeps {x : Comp} (hx : x ∉ [Comp.m, .q, .stb, .ci]) (fail : Bool) (s : State) : keeps x s (setWt fail s) :=
  keeps_of_outside (setWt_outside (List.Subset.refl _) fail s) hx

@[simp] theorem setWt_wt (fail : Bool) (s : State) : (setWt fail s).m.wt = true := reBase_wt _

theorem grows_setWt (fail : Bool) (s : State) : grows s (setWt fail s) := by
  unfold setWt
  extract_lets s1
  have h1 : grows s s1 := grows_ite (grows_of_eq (congrArg Stb.raised (setWarn_stb 4 true s))) (grows_refl s)
  exact grows_trans (t := { s1 with m := { s1.m with wt := true } }) h1 (grows_reBase _)

theorem clearWt_keeps {x : Comp} (hx : x ∉ [Comp.m, .q, .stb, .ci]) (s : State) : keeps x s (clearWt s) :=
  keeps_of_outside (clearWt_outside (List.Subset.refl _) s) hx

@[simp] theorem clearWt_wt (s : State) : (clearWt s).m.wt = false := (reBase_wt _).trans (setWarn_wt ..)

theorem grows_clearWt (s : State) : grows s (clearWt s) := by
  have h1 : grows s (setWarn 4 false { s with m := { s.m with wt := false } }) := grows_of_eq (congrArg Stb.raised (setWarn_stb ..))
  exact grows_trans h1 (grows_reBase _)

/-! ## Quotas (R87) -/

theorem scaleQuotas_m (s : State) : (scaleQuotas s).m = s.m :=
  keeps_of_outside (x := .m) (scaleQuotas_outside (List.Subset.refl _) s) (by decide)

theorem grows_scaleQuotas (s : State) : grows s (scaleQuotas s) := grows_ite (grows_raise ..) (grows_refl s)

theorem restoreQuotas_slk (s : State) : (restoreQuotas s).slk = { s.slk with fns := (restoreQuotas s).slk.fns } := by
  unfold restoreQuotas
  split <;> rfl

/-- A function with a quota makes the sum of the quotas positive. -/
theorem sumQ_pos {f : Nat} {s : State} (h : (slkOf f s).quotaKiB ≠ 0) : 0 < sumQ s := by
  cases hf : Tbl.get? s.slk.fns f with
  | none => simp [slkOf, Tbl.getD, hf, SlkFn.dflt] at h
  | some a =>
    have hq : a.quotaKiB ≠ 0 := by simpa [slkOf, Tbl.getD, hf] using h
    unfold sumQ sumN
    rw [← List.sum_eq_foldl_nat, List.sum_pos_iff_exists_pos_nat]
    exact ⟨a.quotaKiB, List.mem_map.2 ⟨_, Tbl.mem_of_get? hf, rfl⟩, Nat.pos_of_ne_zero hq⟩

/-- While Slack is 0 a function's quota is scaled to nothing. -/
theorem slkOf_scaleQuotas {f : Nat} {s : State} (hS : sKiB s = 0) (h : (slkOf f s).quotaKiB ≠ 0) :
    slkOf f (scaleQuotas s) = { slkOf f s with effKiB := 0, scaled := true } := by
  have hlt : sKiB s < sumQ s := hS ▸ sumQ_pos h
  have hslk : (scaleQuotas s).slk.fns =
      Tbl.mapV s.slk.fns (fun _ a => { a with effKiB := a.quotaKiB * sKiB s / sumQ s / 4 * 4, scaled := true }) := by
    unfold scaleQuotas
    rw [if_pos hlt]
    rfl
  unfold slkOf at h ⊢
  rw [hslk, hS]
  cases hf : Tbl.get? s.slk.fns f with
  | none => simp [Tbl.getD, hf, SlkFn.dflt] at h
  | some a => simp [Tbl.getD, hf]

/-! ## The end of a proof-load (R76, R79, R87) -/

/-- A result is recorded: its code, its number, and the window closes. -/
def resultTaken (code : Nat) (s : State) : State :=
  { s with slk := { s.slk with result := code, proofCnt := wrapAdd 16 s.slk.proofCnt 1, window := false } }

/-- A proof-load that passes: its record, and WT falls. -/
def proofPasses (s : State) : State := clearWt (raise 0x2001 0 [h2 s.slk.capUf, h2 s.slk.esr, h2 s.slk.totalMiB] (resultTaken 0 s))

/-- A proof-load that fails: its record, WT rises, and Slack reads 0. -/
def proofFails (code : Nat) (s : State) : State :=
  setWt true (raise 0x2002 2 [h1 code] { resultTaken code s with slk := { (resultTaken code s).slk with totalMiB := 0 } })

/-- The quotas follow the Slack a passed proof-load gives. -/
def fitQuotas (s : State) : State := if sumQ s ≤ sKiB s then restoreQuotas s else scaleQuotas s

/-- What follows every result: job (a) of PROOF_LOAD ends, the proof-load is over, and a trigger that came during it is due. -/
def proofOver (s : State) : State :=
  let t := noteOver s
  { t with st := { t.st with jobA := t.st.jobA || t.m.cur == .proofLoad }
           slk := { t.slk with phase := .idle, due := t.slk.again, again := false, dueSoft := t.slk.againSoft, againSoft := false, softOk := false } }

theorem proofDone_zero (s : State) : proofDone 0 s = proofOver (fitQuotas (proofPasses s)) := rfl

theorem proofDone_failed {code : Nat} (h : code ≠ 0) (s : State) : proofDone code s = proofOver (scaleQuotas (proofFails code s)) := by
  unfold proofDone
  dsimp only
  rw [if_neg h]
  rfl

theorem proofPasses_slk (s : State) : (proofPasses s).slk = (resultTaken 0 s).slk := clearWt_keeps (x := .slk) (by decide) _

theorem proofFails_slk (code : Nat) (s : State) : (proofFails code s).slk = { (resultTaken code s).slk with totalMiB := 0 } :=
  setWt_keeps (x := .slk) (by decide) _ _

theorem fitQuotas_slk (s : State) : (fitQuotas s).slk = { s.slk with fns := (fitQuotas s).slk.fns } := by
  unfold fitQuotas
  split
  · exact restoreQuotas_slk s
  · exact scaleQuotas_slk s

theorem fitQuotas_m (s : State) : (fitQuotas s).m = s.m := by
  unfold fitQuotas
  split
  · exact keeps_of_outside (x := .m) (restoreQuotas_outside (List.Subset.refl _) s) (by decide)
  · exact scaleQuotas_m s

theorem grows_fitQuotas (s : State) : grows s (fitQuotas s) :=
  grows_ite (grows_keeps (keeps_of_outside (restoreQuotas_outside (List.Subset.refl _) s) (by decide))) (grows_scaleQuotas s)

/-- The end of a proof-load changes no figure, no result and no quota. -/
theorem proofOver_slk (t : State) : ∃ x : Slk, (proofOver t).slk = { t.slk with
    overS := x.overS, phase := .idle, due := x.due, again := x.again, dueSoft := x.dueSoft, againSoft := x.againSoft, softOk := x.softOk } :=
  ⟨(proofOver t).slk, rfl⟩

theorem proofOver_m (t : State) : (proofOver t).m = t.m := rfl
theorem proofOver_stb (t : State) : (proofOver t).stb = t.stb := rfl
theorem slkOf_proofOver (f : Nat) (t : State) : slkOf f (proofOver t) = slkOf f t := rfl

/-- The Slack account after a proof-load: the figures measured stand, the result is recorded, and Slack reads 0 where it failed. -/
theorem proofDone_slk (code : Nat) (s : State) : ∃ x : Slk, (proofDone code s).slk = { s.slk with
    result := code, proofCnt := wrapAdd 16 s.slk.proofCnt 1, window := false, totalMiB := if code = 0 then s.slk.totalMiB else 0, fns := x.fns,
    overS := x.overS, phase := .idle, due := x.due, again := x.again, dueSoft := x.dueSoft, againSoft := x.againSoft, softOk := x.softOk } := by
  refine ⟨(proofDone code s).slk, ?_⟩
  by_cases h : code = 0
  · subst h
    rw [proofDone_zero]
    obtain ⟨x, hx⟩ := proofOver_slk (fitQuotas (proofPasses s))
    rw [hx, fitQuotas_slk, proofPasses_slk, if_pos rfl]
    rfl
  · rw [proofDone_failed h]
    obtain ⟨x, hx⟩ := proofOver_slk (scaleQuotas (proofFails code s))
    rw [hx, scaleQuotas_slk, proofFails_slk, if_neg h]
    rfl

/-- WT follows the result. -/
theorem proofDone_wt (code : Nat) (s : State) : (proofDone code s).m.wt = decide (code ≠ 0) := by
  by_cases h : code = 0
  · subst h
    rw [proofDone_zero, proofOver_m, fitQuotas_m]
    exact clearWt_wt _
  · rw [proofDone_failed h, proofOver_m, scaleQuotas_m, decide_eq_true h]
    exact setWt_wt ..

theorem proofPasses_raises (s : State) : raises 0x2001 (proofPasses s) := raises_mono (grows_clearWt _) (raises_raise ..)

theorem proofFails_raises (code : Nat) (s : State) : raises 0x2002 (proofFails code s) := raises_mono (grows_setWt ..) (raises_raise ..)

/-- A pass is recorded with 0x2001, a failure with 0x2002. -/
theorem proofDone_raises (code : Nat) (s : State) : raises (if code = 0 then 0x2001 else 0x2002) (proofDone code s) := by
  by_cases h : code = 0
  · subst h
    rw [proofDone_zero, if_pos rfl]
    exact raises_of_eq (congrArg Stb.raised (proofOver_stb _)) (raises_mono (grows_fitQuotas _) (proofPasses_raises s))
  · rw [proofDone_failed h, if_neg h]
    exact raises_of_eq (congrArg Stb.raised (proofOver_stb _)) (raises_mono (grows_scaleQuotas _) (proofFails_raises code s))

/-- After a failure a function's quota is scaled to nothing. -/
theorem proofDone_quota {code : Nat} (h : code ≠ 0) {f : Nat} {s : State} (hq : (slkOf f s).quotaKiB ≠ 0) :
    slkOf f (proofDone code s) = { slkOf f s with effKiB := 0, scaled := true } := by
  have hf : slkOf f (proofFails code s) = slkOf f s := by
    unfold slkOf
    rw [proofFails_slk]
    rfl
  have hS : sKiB (proofFails code s) = 0 := if_pos (setWt_wt ..)
  rw [proofDone_failed h, slkOf_proofOver, slkOf_scaleQuotas hS (hf ▸ hq), hf]

end Sys2Proof.Machine

/-! O19. Proof-loads. -/

namespace Sys2Proof.Machine
open Sys2Proof

/-! ## HU_OK (R76, R77, R80) -/

section
variable {s : State}

theorem huOkRise_after (h : s.pins.huOk = false) : ∃ u, exec .huOkRise s = .next (after u) ∧ u.pins.huOk = true ∧ u.m = s.m ∧
    (s.m.cur = .writeThrough → s.slk.phase = .idle → u.slk.due = true) := by
  let t := { s with pins := { s.pins with huOk := true } }
  have hkeeps : ∀ x, x ∉ [Comp.slk] → keeps x t (proofTrigger false t) := fun x hx =>
    keeps_of_outside (proofTrigger_outside (List.Subset.refl _) false t) hx
  refine ⟨if s.m.cur = .writeThrough then proofTrigger false t else t, ?_, ?_, ?_, fun hm hi => ?_⟩
  · show execHuOkRise s = _
    rw [execHuOkRise, if_neg (by simp [h])]
    rfl
  · split
    · exact congrArg Pins.huOk (hkeeps .pins (by decide))
    · rfl
  · split
    · exact hkeeps .m (by decide)
    · rfl
  · rw [if_pos hm]
    simp [proofTrigger, t, hi]

/-- A fall that is no proof-load's own course. -/
theorem huOkFall_breaks (h : s.pins.huOk = true) (hpf : s.pins.pwrfailN = true) (hi : s.slk.phase = .idle) (ha : s.st.jobA = true)
    (h1 : s.m.cur ≠ .reset) (h2 : s.m.cur ≠ .imageLoad) (h3 : s.m.cur ≠ .test) (h4 : s.m.cur ≠ .emergencyFlush) :
    ∃ u, exec .huOkFall s = .next (after u) ∧ u.pins.huOk = false ∧ u.m.wt = true ∧ raises 0x2030 u := by
  refine ⟨setWt false (raise 0x2030 2 [] { s with pins := { s.pins with huOk := false } }), ?_, ?_, setWt_wt .., ?_⟩
  · show execHuOkFall s = _
    simp [execHuOkFall, h, hpf, hi, ha, h1, h2, h3, h4, done_after]
  · exact congrArg Pins.huOk (setWt_keeps (x := .pins) (by decide) _ _)
  · exact raises_mono (grows_setWt ..) (raises_raise ..)

/-- A fall within the pulse. -/
theorem huOkFall_expected (h : s.pins.huOk = true) (hp : s.slk.phase = .pulse) :
    exec .huOkFall s = .next (after { s with pins := { s.pins with huOk := false } }) := by
  show execHuOkFall s = _
  simp [execHuOkFall, h, hp, done_after]

theorem chgTimeoutExpiry_after (h : s.pins.huOk = false) (hc : s.slk.phase = .charging) :
    exec .chgTimeoutExpiry s = .next (after (proofDone 1 (proofStamps s))) := by
  show execChgTimeoutExpiry s = _
  simp [execChgTimeoutExpiry, h, hc, done_after]

/-! ## Window and pulse (R74, R77, R78) -/

theorem proofAgeExpiry_after (h : s.slk.phase = .idle) :
    exec .proofAgeExpiry s = .next (after { s with slk := { s.slk with dueSoft := true } }) := by
  show done (proofTrigger true s) = _
  simp [proofTrigger, h, done_after]

theorem proofWindowOpen_after (h : windowAllowed s = true) : ∃ u, exec .proofWindowOpen s = .next (after u) ∧ u.slk.window = true ∧
    u.slk.phase = .window ∧ u.pins.huChgEn = true ∧ u.m = s.m ∧ holdAll u = true := by
  refine ⟨_, if_pos h, rfl, rfl, rfl, rfl, ?_⟩
  simp [holdAll]

theorem proofPulseStart_after {v0 : Nat} (hw : s.slk.phase = .window) (hu : useKiB s = 0) (ht : s.m.thm ≠ 2) :
    ∃ u, exec (.proofPulseStart v0) s = .next (after u) ∧ u.slk.phase = .pulse ∧ u.slk.v0 = v0 ∧ u.pins.huLoad = true ∧ u.m = s.m :=
  ⟨_, if_pos (.inr ⟨hw, hu, ht⟩), rfl, rfl, rfl, rfl⟩

theorem proofWindowTimeout_after (h : s.slk.phase = .window) : ∃ u, exec .proofWindowTimeout s = .next (after u) ∧ u.slk.phase = .idle ∧
    u.slk.window = false ∧ (u.slk.due || u.slk.dueSoft) = true ∧ u.slk.result = s.slk.result ∧ u.slk.proofCnt = s.slk.proofCnt ∧
    windowAllowed u = false := by
  refine ⟨_, if_pos h, rfl, rfl, ?_, rfl, rfl, ?_⟩
  · cases s.slk.dueSoft <;> simp
  · simp [windowAllowed]

theorem proofPulseEnd_after {v1 : Nat} {v2 : PulseV} (h : s.slk.phase = .pulse) : ∃ u, exec (.proofPulseEnd v1 v2) s = .next (after u) ∧
    u.slk.phase = .recharge ∧ u.slk.v1 = v1 ∧ u.slk.v2 = v2.v2 ∧ u.slk.back = v2.back ∧ u.pins.huLoad = false :=
  ⟨_, if_pos h, rfl, rfl, rfl, rfl, rfl⟩

/-! ## PROOF_NOW (R77, R449) -/

theorem touch_m (f : Nat) (hs : plainWake s) : (touch f s).m = s.m := touch_keeps f hs (x := .m) (by decide)

theorem proofNow_owner (hs : plainWake s) (hh : s.m.cur ≠ .halted) (hi : s.slk.phase = .idle) :
    ∃ u, exec (.proofNow 0) s = .next (after u) ∧ u.slk = { s.slk with due := true } ∧ u.zn = s.zn ∧ u.m = s.m := by
  have hm := touch_m 0 hs
  have hslk := touch_slk 0 hs
  refine ⟨{ touch 0 s with slk := { s.slk with due := true } }, ?_, rfl, touch_zn 0 hs, hm⟩
  show txsRow 0 (proofTrigger false) s = _
  simp [txsRow, isPf, fnPresent, hm, hh, proofTrigger, hslk, hi, done_after]

theorem proofNow_portB (hs : plainWake s) (hp : fnPresent 1024 s = true) :
    ∃ u, exec (.proofNow 1024) s = .next (after u) ∧ u.slk = s.slk ∧ u.zn = s.zn ∧ u.m = s.m := by
  refine ⟨touch 1024 s, ?_, touch_slk 1024 hs, touch_zn 1024 hs, touch_m 1024 hs⟩
  show txsRow 1024 (proofTrigger false) s = _
  simp [txsRow, isPf, hp, done_after]

/-! ## The evaluation (R74, R76, R78) -/

/-- The figures of a pulse whose V2 lies below V1, and V1 not above V0. -/
def bankFigures (s : State) : State :=
  let c := 100 * (s.slk.v1 + s.slk.v2) / (s.slk.v1 - s.slk.v2)
  let e := (s.slk.v0 - s.slk.v1) * 100000 / s.slk.v1
  let e2 := energy2 c s.slk.v0 s.img.vcut
  { s with
    free := s.free + 2
    slk := { s.slk with
      capUf := min c 65535, esr := min e 65535, euseMj := min (e2 / 2000000000) 65535
      totalMiB := slackMiB e2 s.img.derate s.slk.efixUj s.slk.ebyte } }

/-- An evaluation that neither HU_OK nor the bank's recovery holds back. -/
theorem proofLoadEvaluation_after (hp : s.slk.phase = .recharge) (hu : s.pins.huOk = true)
    (hb : s.slk.window = true → 99 * s.slk.v0 ≤ 100 * s.slk.back) (h21 : s.slk.v2 < s.slk.v1) (h10 : s.slk.v1 ≤ s.slk.v0) :
    let c := 100 * (s.slk.v1 + s.slk.v2) / (s.slk.v1 - s.slk.v2)
    let e := (s.slk.v0 - s.slk.v1) * 100000 / s.slk.v1
    let m := slackMiB (energy2 c s.slk.v0 s.img.vcut) s.img.derate s.slk.efixUj s.slk.ebyte
    exec .proofLoadEvaluation s = .next (after (proofDone
      (proofResult true s.slk.v0 s.slk.v1 s.slk.v2 s.img.vcut c e s.slk.efixUj m) (proofStamps (bankFigures s)))) := by
  have hcap : ∀ i, capUf s.slk.v1 s.slk.v2 i = 100 * (s.slk.v1 + s.slk.v2) / (s.slk.v1 - s.slk.v2) := fun _ => if_pos h21
  have hesr : ∀ i, esrOf s.slk.v0 s.slk.v1 i = (s.slk.v0 - s.slk.v1) * 100000 / s.slk.v1 := fun _ => if_pos ⟨h10, by omega⟩
  show execProofLoadEvaluation s = _
  unfold execProofLoadEvaluation
  rw [if_pos ⟨hp, hu, hb⟩]
  dsimp only
  rw [hcap, hesr, hu, done_after]
  rfl

end

/-- Settles O19: each command's own branch, and what `proofDone` leaves of a result. -/
theorem proofLoads : Obligations.ProofLoads := by
  unfold Obligations.ProofLoads
  refine ⟨fun s v0 v1 v2 => ⟨huOkRise_after, huOkFall_breaks, fun h hp => ⟨_, huOkFall_expected h hp, rfl⟩, fun h hc => ?_,
    fun h => ⟨_, proofAgeExpiry_after h, rfl⟩, proofWindowOpen_after, proofPulseStart_after, proofWindowTimeout_after, proofPulseEnd_after,
    proofNow_owner, proofNow_portB⟩, fun s hp hu hb h21 h10 => ?_⟩
  · obtain ⟨x, hslk⟩ := proofDone_slk 1 (proofStamps s)
    exact ⟨_, chgTimeoutExpiry_after h hc, congrArg Slk.result hslk, congrArg Slk.proofCnt hslk, proofDone_wt .., congrArg Slk.totalMiB hslk,
      congrArg Slk.phase hslk, proofDone_raises ..⟩
  · intro c e m code
    obtain ⟨x, hslk⟩ := proofDone_slk code (proofStamps (bankFigures s))
    refine ⟨_, proofLoadEvaluation_after hp hu hb h21 h10, congrArg Slk.result hslk, congrArg Slk.proofCnt hslk, congrArg Slk.capUf hslk,
      congrArg Slk.esr hslk, proofDone_wt .., congrArg Slk.totalMiB hslk, congrArg Slk.window hslk, proofDone_raises .., fun hc f hq => ?_⟩
    have hf : slkOf f (proofStamps (bankFigures s)) = slkOf f s := rfl
    rw [proofDone_quota hc (hf ▸ hq)]
    exact ⟨rfl, rfl⟩

end Sys2Proof.Machine

/-! O20. The decision on a write, and what an early one is charged. -/

namespace Sys2Proof.Machine
open Sys2Proof

/-! ## Writes in flight -/

/-- No write in flight has a number that is not found. -/
theorem wrAt_none {id : Nat} {s : State} (h : wrAt id s = none) : ∀ x ∈ s.zn.wrs, x.id ≠ id := by
  simpa [wrAt] using h

theorem wakeFlushes_zn (s : State) : (wakeFlushes s).zn = s.zn :=
  keeps_of_outside (x := .zn) (wakeFlushes_outside (List.Subset.refl _) s) (by decide)

/-- A discarded write is no longer in flight. -/
theorem discardWrite_gone (id : Nat) (s : State) : ∀ x ∈ (discardWrite id s).zn.wrs, x.id ≠ id := by
  unfold discardWrite
  split
  case h_1 hnone => exact wrAt_none hnone
  case h_2 w hw =>
    intro x hx
    simpa using (List.mem_filter.1 hx).2

/-! ## An early decision (R83 to R86) -/

/-- What is left of a function's own quota, in bytes. -/
def quotaLeft (f : Nat) (s : State) : Nat := (slkOf f s).effKiB * 1024 - (slkOf f s).useQ

/-- A write decided early: its charge taken from its function's quota first and from the pool for the rest, and counted. -/
def chargeEarly (w : Wr) (s : State) : State :=
  let q := min w.charge (quotaLeft w.fn s)
  let p := w.charge - q
  updWr w.id (fun x => { x with dec := .early, chargeQ := q, chargeP := p })
    (updSlk w.fn (fun a => { a with useQ := a.useQ + q, useP := a.useP + p, holding := false, earlyCnt := satAdd 64 a.earlyCnt 1 })
      { s with slk := { s.slk with poolUse := s.slk.poolUse + p, earlyCnt := satAdd 64 s.slk.earlyCnt 1 } })

theorem slkOf_updWr (f id : Nat) (g : Wr → Wr) (s : State) : slkOf f (updWr id g s) = slkOf f s := rfl

/-- The account of the function whose write is decided early. -/
theorem slkOf_chargeEarly (w : Wr) (s : State) : slkOf w.fn (chargeEarly w s) = { slkOf w.fn s with
    useQ := (slkOf w.fn s).useQ + min w.charge (quotaLeft w.fn s), useP := (slkOf w.fn s).useP + (w.charge - min w.charge (quotaLeft w.fn s)),
    holding := false, earlyCnt := satAdd 64 (slkOf w.fn s).earlyCnt 1 } := by
  unfold chargeEarly
  dsimp only
  rw [slkOf_updWr, slkOf_updSlk]
  rfl

/-- A write that may be decided and fits is charged, posted, and placed over what it overtakes. -/
theorem decideOne_early {w : Wr} {s : State} (hw : wrAt w.id s = some w) (hu : w.dec = .undecided) (hr : w.ready = true)
    (hl : lowerUndecided w s = false) (hd : decision w s = .early) :
    decideOne w.id s = placeWrite w.id (overtake w w.pos (w.pos + w.len) (postWrite w.id 1 false (chargeEarly w s))) := by
  unfold decideOne
  rw [hw]
  dsimp only
  rw [hu, hr, hl, hd]
  rfl

/-! ## SLACK_DECISION (R83, R85, R121) -/

theorem slackDecision_stages {w : Wr} {s : State} (hw : wrAt w.id s = some w) (hd : w.discarded = false) (hx : w.xferWait = false) (rest : List Blk) :
    exec (.slackDecision w.id rest) s = .next (afterIo (decideAll (if w.ready then s else stageMore w rest s))) := by
  show execSlackDecision w.id rest s = _
  simp [execSlackDecision, hw, hd, hx, doneIo_after]

theorem slackDecision_discarded {w : Wr} {s : State} (hw : wrAt w.id s = some w) (hd : w.discarded = true) (rest : List Blk) :
    exec (.slackDecision w.id rest) s = .next (after (wakeFlushes (discardWrite w.id (finishDiscarded w.id s)))) := by
  show execSlackDecision w.id rest s = _
  simp [execSlackDecision, hw, hd, done_after]

/-- Settles O20: the decision is its definition's; an early one is `chargeEarly`, and a discarded write leaves by `discardWrite`. -/
theorem slackDecides : Obligations.SlackDecides := by
  unfold Obligations.SlackDecides
  refine ⟨fun w s hw hu hr hl => ⟨rfl, fun hd => ⟨chargeEarly w s, decideOne_early hw hu hr hl hd, ?_, ?_, rfl, rfl⟩⟩,
    fun w rest s hw => ⟨fun hd hx => slackDecision_stages hw hd hx rest, fun hd => ⟨_, slackDecision_discarded hw hd rest, ?_⟩⟩⟩
  · rw [slkOf_chargeEarly, quotaLeft]
  · rw [slkOf_chargeEarly, quotaLeft]
  · rw [wakeFlushes_zn]
    exact discardWrite_gone w.id _

end Sys2Proof.Machine

/-! O21. Slack Report. -/

namespace Sys2Proof.Machine
open Sys2Proof

/-- A report of the Owner PF clears when the functions it names began to hold (log 35). -/
def clearHeldSince (fs : List Nat) (s : State) : State :=
  fs.foldl (fun s f => if (Tbl.get? s.slk.fns f).isSome then updSlk f (fun a => { a with heldSince := 0 }) s else s) s

/-- That leaves Slack, the pool and the mode. -/
theorem clearHeldSince_keeps (fs : List Nat) (s : State) :
    (clearHeldSince fs s).slk.totalMiB = s.slk.totalMiB ∧ (clearHeldSince fs s).slk.poolUse = s.slk.poolUse ∧ (clearHeldSince fs s).m = s.m := by
  have h : ∀ t f, (fun t : State => (t.slk.totalMiB, t.slk.poolUse, t.m))
      (if (Tbl.get? t.slk.fns f).isSome then updSlk f (fun a => { a with heldSince := 0 }) t else t) = (t.slk.totalMiB, t.slk.poolUse, t.m) := by
    intro t f
    split <;> rfl
  simpa [clearHeldSince] using foldl_keeps (fun t : State => (t.slk.totalMiB, t.slk.poolUse, t.m)) _ h fs s

/-- The functions a Slack Report asks for. -/
def reported (k : Ctx) : List Nat := (List.range (bits k.cmd.cdw11.toNat 10 0)).map (· + bits k.cmd.cdw10.toNat 10 0)

/-- What a physical function's report leaves: the Owner PF's clears. -/
def reportMade (k : Ctx) (s : State) : State := if k.cmd.fn = 0 then clearHeldSince (reported k) s else s

theorem reportMade_keeps (k : Ctx) (s : State) :
    (reportMade k s).slk.totalMiB = s.slk.totalMiB ∧ (reportMade k s).slk.poolUse = s.slk.poolUse ∧ (reportMade k s).m = s.m := by
  unfold reportMade
  split
  · exact clearHeldSince_keeps ..
  · exact ⟨rfl, rfl, rfl⟩

section
variable {c : Cmd} {s s1 : State} {k : Ctx}

/-- Slack Report with no sanitize in the way runs on its context, dispatched. -/
theorem slackReport_taken (ht : taken c s = some (k, s1)) (hp : plainForm k) (hn : notSanitizing s1) :
    exec (.slackReport c) s = .next (after (slackReportOn (dispatch k) s1)) := by
  show done (withCmd c s (fun k s => gateAdmin true false k s slackReportOn)) = _
  rw [withCmd_taken ht, gateAdmin_plain hp hn, done_after]
  rfl

/-- A stall gets its own entry. -/
theorem slackReportOn_stall (h : isStall k.cmd.fn = true) : slackReportOn k s =
    okData k (zeroBytes 32 ++ leBytes 4 (slkVfStat k.cmd.fn s) ++ zeroBytes 28 ++ slkEntry k.cmd.fn s) s := by
  simp [slackReportOn, h]

/-- A range past function 1,024. -/
theorem slackReportOn_past (h : isStall k.cmd.fn = false) (hc : 1025 < bits k.cmd.cdw10.toNat 10 0 + bits k.cmd.cdw11.toNat 10 0) :
    slackReportOn k s = fin k 0 0x02 s := by
  simp [slackReportOn, h, hc]

/-- A physical function gets the header and the entries it asks for, as they stood before the report. -/
theorem slackReportOn_entries (h : isStall k.cmd.fn = false) (hc : bits k.cmd.cdw10.toNat 10 0 + bits k.cmd.cdw11.toNat 10 0 ≤ 1025) :
    slackReportOn k s =
      okData k (slkHeader (bits k.cmd.cdw11.toNat 10 0) s ++ (reported k).flatMap (fun f => slkEntry f s)) (reportMade k s) := by
  unfold slackReportOn
  dsimp only
  rw [if_neg (by simp [h]), if_neg (by omega)]
  rfl

end

/-- Settles O21: a stall's entry, a physical function's header and entries, or a range refused. -/
theorem slackReportAnswers : Obligations.SlackReportAnswers := by
  unfold Obligations.SlackReportAnswers
  intro c s s1 k ht hp hn
  obtain rfl := taken_cmd ht
  have hrun := slackReport_taken ht hp hn
  refine ⟨fun hs => ⟨_, hrun, ?_⟩, fun hs hc => ?_, fun hs hc => ⟨_, hrun, ?_⟩⟩
  · rw [slackReportOn_stall (k := dispatch k) hs]
    exact endsWith_dispatch ..
  · obtain ⟨hmib, hpool, hm⟩ := reportMade_keeps k s1
    refine ⟨reportMade k s1, _, hrun, hmib, hpool, hm, ?_⟩
    rw [slackReportOn_entries (k := dispatch k) hs hc]
    exact endsWith_dispatch ..
  · rw [slackReportOn_past (k := dispatch k) hs hc]
    exact endsWith_dispatch ..

end Sys2Proof.Machine

/-! SUPPORT. The conventional map: which operations on writes in flight leave it, and what unmapping units takes out of it (R131, R134). -/

namespace Sys2Proof.Machine
open Sys2Proof

/-! ## Writes in flight leave the map -/

theorem postWrite_cmap (id wpath : Nat) (isHeld : Bool) (s : State) : (postWrite id wpath isHeld s).zn.cmap = s.zn.cmap := by
  unfold postWrite
  split
  · rfl
  · split
    · rfl
    · split
      · rfl
      · extract_lets s1 s2
        have h2 : s2.zn.cmap = s.zn.cmap :=
          congrArg (·.cmap) (keeps_of_outside (x := .zn) (postFull_outside (L := [Comp.q, .stb, .ci]) (List.Subset.refl _) ..) (by decide))
        split
        · exact h2
        · exact h2

theorem returnCharge_cmap (id n : Nat) (s : State) : (returnCharge id n s).zn.cmap = s.zn.cmap := by
  unfold returnCharge
  split <;> rfl

theorem wrDurable_cmap (id : Nat) (s : State) : (wrDurable id s).zn.cmap = s.zn.cmap := by
  unfold wrDurable
  split
  · rfl
  · extract_lets s1
    have h1 : s1.zn.cmap = s.zn.cmap := by
      simp only [s1]
      split
      · exact postWrite_cmap ..
      · exact postWrite_cmap ..
      · rfl
    rw [wakeFlushes_zn]
    exact (returnCharge_cmap ..).trans h1

/-- Positions taken out of writes in flight leave the conventional map. -/
theorem supersedeBy_cmap (older : Wr → Bool) (lo hi : Nat) (s : State) : (supersedeBy older lo hi s).zn.cmap = s.zn.cmap := by
  refine foldl_keeps (fun t => t.zn.cmap) _ (fun t v => ?_) _ _
  extract_lets gone s1 s2
  split
  · rfl
  · split
    · split
      · exact (wrDurable_cmap ..).trans (returnCharge_cmap ..)
      · exact returnCharge_cmap ..
    · exact returnCharge_cmap ..

/-! ## Unmapping units -/

theorem keepOld_cmap (u : Nat) (s : State) : (keepOld u s).zn.cmap = s.zn.cmap := by
  unfold keepOld
  split <;> rfl

theorem delMap_cmap (u : Nat) (s : State) : (delMap u s).zn.cmap = Tbl.del s.zn.cmap u := by
  unfold delMap
  have h := fun t => keeps_of_outside (x := .zn) (mapWrite_outside (List.Subset.refl _) u t) (by decide)
  exact congrArg (·.cmap) (h _)

/-- Unmapping a unit takes its entry out of the map and no other. -/
theorem get?_unmapUnit (u x : Nat) (s : State) : Tbl.get? (unmapUnit u s).zn.cmap x = if x = u then none else Tbl.get? s.zn.cmap x := by
  unfold unmapUnit
  extract_lets s0 s1
  have h0 : s0.zn.cmap = s.zn.cmap := (keepOld_cmap ..).trans (supersedeBy_cmap ..)
  show Tbl.get? s1.zn.cmap x = _
  rw [← h0]
  simp only [s1]
  by_cases hx : x = u
  · subst hx
    rw [if_pos rfl]
    split
    · rw [delMap_cmap, Tbl.get?_del_same]
    · simpa using ‹¬ (Tbl.get? s0.zn.cmap x).isSome = true›
  · rw [if_neg hx]
    split
    · rw [delMap_cmap, Tbl.get?_del_other _ _ _ hx]
    · rfl

/-- Units unmapped one after the other have no entry in the map. -/
theorem get?_unmapUnits {x : Nat} : ∀ {us : List Nat} (s : State), x ∈ us ∨ Tbl.get? s.zn.cmap x = none →
    Tbl.get? (us.foldl (fun s u => unmapUnit u s) s).zn.cmap x = none
  | [], _, h => h.resolve_left List.not_mem_nil
  | u :: us, s, h => by
    refine get?_unmapUnits (us := us) (unmapUnit u s) ?_
    rw [get?_unmapUnit]
    by_cases hx : x = u
    · exact .inr (if_pos hx)
    · rw [if_neg hx]
      exact h.imp (fun hm => (List.mem_cons.1 hm).resolve_left hx) id

/-- The state in which the whole units of a command's ranges are unmapped. -/
def deallocate (rs : List (Nat × Nat)) (s : State) : State :=
  rs.foldl (fun s r => (wholeUnits r.1 r.2).foldl (fun s u => unmapUnit u s) s) s

theorem deallocate_units (rs : List (Nat × Nat)) (s : State) :
    deallocate rs s = (rs.flatMap (fun r => wholeUnits r.1 r.2)).foldl (fun s u => unmapUnit u s) s := List.foldl_flatMap.symm

theorem deallocate_unmaps {rs : List (Nat × Nat)} {r : Nat × Nat} (hr : r ∈ rs) {x : Nat} (hx : x ∈ wholeUnits r.1 r.2) (s : State) :
    Tbl.get? (deallocate rs s).zn.cmap x = none := by
  rw [deallocate_units]
  exact get?_unmapUnits s (.inl (List.mem_flatMap.2 ⟨r, hr, hx⟩))

end Sys2Proof.Machine

/-! O26. Flush, Read and Dataset Management. -/

namespace Sys2Proof.Machine
open Sys2Proof

/-! ## The three commands on an attached namespace -/

section
variable {k : Ctx} {s : State} {n : Ns}

theorem withNs_attached (hns : nsFor? k.cmd.fn k.cmd.nsid s = some n) (f : Ns → State) : withNs k s f = f n := by
  rw [withNs, hns]

/-- What a Flush of an attached namespace does (R89, R236). -/
def flushOn (k : Ctx) (s : State) : State :=
  if !flushBlocked k s then ok k s else if s.m.thm = 2 then fin k 7 0x82 s else putCtx { k with wait := .flush } s

theorem flush_taken {s0 : State} (ht : taken k.cmd s0 = some (k, s)) (hp : plainForm k) (hn : notSanitizing s)
    (hns : nsFor? k.cmd.fn k.cmd.nsid s = some n) : exec (.flush k.cmd) s0 = .next (afterIo (flushOn k s)) := by
  have h := doneIo_gateIo ht hp hn (fun k' s' =>
    if k.cmd.nsid ≠ 0xFFFFFFFF ∧ (nsFor? k.cmd.fn k.cmd.nsid s').isNone then fin k' 0 0x0B s' else flushOn k' s')
  rw [if_neg (by simp [hns])] at h
  exact h

theorem read_taken {s0 : State} (ht : taken k.cmd s0 = some (k, s)) (hp : plainForm k) (hn : notSanitizing s) :
    exec (.read k.cmd) s0 = .next (afterIo (readOn k s)) := doneIo_gateIo ht hp hn readOn

theorem datasetManagement_taken {s0 : State} (ht : taken k.cmd s0 = some (k, s)) (hp : plainForm k) (hn : notSanitizing s) (buf : List Byte) :
    exec (.datasetManagement k.cmd buf) s0 = .next (afterIo (dsmOn buf k s)) := doneIo_gateIo ht hp hn (dsmOn buf)

/-- The checks of a Read, in their order (R29, R120, R303). -/
theorem readOn_attached (hns : nsFor? k.cmd.fn k.cmd.nsid s = some n) : readOn k s =
    if 512 < nblocks k.cmd then fin k 0 0x02 s
    else if n.nsze < slbaOf k.cmd + nblocks k.cmd then fin k 0 0x80 s
    else if offlineIn (zonesOf n (slbaOf k.cmd) (nblocks k.cmd)) s then fin k 1 0xBB s
    else match sealedOut (zonesOf n (slbaOf k.cmd) (nblocks k.cmd)) s with
      | some z => refuseSeal k z s
      | none => putCtx { k with wait := .read 0, dispatched := true } s := by
  unfold readOn
  exact withNs_attached hns _

/-- Dataset Management without Deallocate. -/
theorem dsmOn_plain (hns : nsFor? k.cmd.fn k.cmd.nsid s = some n) (had : bit k.cmd.cdw11.toNat 2 = false) (buf : List Byte) :
    dsmOn buf k s = ok k s := by
  simp [dsmOn, had, withNs_attached hns]

/-- Deallocate of ranges within the conventional namespace (R134). -/
theorem dsmOn_deallocates (hns : nsFor? k.cmd.fn k.cmd.nsid s = some n) (had : bit k.cmd.cdw11.toNat 2 = true) (hw : k.snap.write = true)
    (hc : n.conv = true) (hm : modeStatus s = none) {buf : List Byte} (hr : ∀ r ∈ dsmRanges k.cmd buf, r.1 + r.2 ≤ n.nsze) :
    dsmOn buf k s = ok k (deallocate (dsmRanges k.cmd buf) s) := by
  have hin : (dsmRanges k.cmd buf).any (fun r => decide (n.nsze < r.1 + r.2)) = false := by
    simpa only [List.any_eq_false, decide_eq_true_eq, not_lt] using hr
  unfold dsmOn
  simp only [withNs_attached hns, had, hw, hc, hm, hin]
  rfl

end

theorem endsWith_self (k : Ctx) (sct sc dw0 : Nat) (data : List Byte) (u : State) :
    endsWith k sct sc dw0 data u (postFull k sct sc dw0 0 data u) := ⟨k, rfl, rfl, rfl, rfl⟩

/-- Settles O26: each clause is one branch of the command's meaning. -/
theorem flushReadDeallocate : Obligations.FlushReadDeallocate := by
  unfold Obligations.FlushReadDeallocate
  intro c buf s s1 k n ht hp hn hns
  obtain rfl := taken_cmd ht
  have hflush := flush_taken ht hp hn hns
  have hread := read_taken ht hp hn
  have hdsm := datasetManagement_taken ht hp hn buf
  rw [readOn_attached hns] at hread
  refine ⟨fun hb => ⟨_, hflush, ?_⟩, fun hb hthm => ⟨_, hflush, ?_⟩, fun hb hthm => ?_,
    fun hl => ⟨_, hread, ?_⟩, fun hl he => ⟨_, hread, ?_⟩, fun hl he ho => ⟨_, hread, ?_⟩, fun hl he ho hs => ?_, fun had => ⟨_, hdsm, ?_⟩,
    fun had hw hc hm hr => ⟨deallocate (dsmRanges k.cmd buf) s1, _, hdsm, ?_, ?_⟩⟩
  · rw [flushOn, hb, Bool.not_false, if_pos rfl]
    exact endsWith_self ..
  · rw [flushOn, hb, Bool.not_true, if_neg Bool.false_ne_true, if_pos hthm]
    exact endsWith_self ..
  · rw [hflush, flushOn, hb, Bool.not_true, if_neg Bool.false_ne_true, if_neg hthm]
  · rw [if_pos hl]
    exact endsWith_self ..
  · rw [if_neg (by omega), if_pos he]
    exact endsWith_self ..
  · rw [if_neg (by omega), if_neg (by omega), if_pos ho]
    exact endsWith_self ..
  · rw [hread, if_neg (by omega), if_neg (by omega), ho, hs]
    rfl
  · rw [dsmOn_plain hns had]
    exact endsWith_self ..
  · rw [dsmOn_deallocates hns had hw hc hm hr]
    exact endsWith_self ..
  · exact fun r hr x hx => deallocate_unmaps hr hx s1

end Sys2Proof.Machine

/-! SUPPORT. The book of zones: what an operation on writes in flight, Pens and rows leaves of the zones, the namespaces and the map. -/

namespace Sys2Proof.Machine
open Sys2Proof

/-! ## The book of zones -/

/-- What the zone manager records, but for the writes in flight and the dead copies that Pens and blocks still hold. -/
def book (s : State) : Zn := { s.zn with wrs := [], stale := [], staleBlks := [] }

theorem book_of_zn {s t : State} (h : t.zn = s.zn) : book t = book s := by unfold book; rw [h]

/-- What is alike outside components other than `zn` has the same book. -/
theorem book_of_outside {L : List Comp} {s t : State} (h : outside L t = outside L s) (hz : Comp.zn ∉ L := by decide) : book t = book s :=
  book_of_zn (keeps_of_outside (x := .zn) h hz)

section
variable {s t : State} (h : book t = book s)
include h

theorem zones_of_book : t.zn.zones = s.zn.zones := congrArg (·.zones) h
theorem nss_of_book : t.zn.nss = s.zn.nss := congrArg (·.nss) h
theorem scrubs_of_book : t.zn.scrubs = s.zn.scrubs := congrArg (·.scrubs) h
theorem cmap_of_book : t.zn.cmap = s.zn.cmap := congrArg (·.cmap) h
theorem store_of_book : t.zn.store = s.zn.store := congrArg (·.store) h
theorem zoneAt_of_book (z : Nat) : zoneAt? z t = zoneAt? z s := by unfold zoneAt?; rw [zones_of_book h]
theorem nsAt_of_book (n : Nat) : nsAt? n t = nsAt? n s := by unfold nsAt?; rw [nss_of_book h]

end

/-! ## Completions, events, events queued -/

theorem after_zn (u : State) : (after u).zn = u.zn := keeps_of_outside (x := .zn) (after_outside (List.Subset.refl _) u) (by decide)

theorem book_postFull (k : Ctx) (sct sc dw0 cs1 : Nat) (data : List Byte) (s : State) : book (postFull k sct sc dw0 cs1 data s) = book s :=
  book_of_outside (postFull_outside (L := [Comp.q, .stb, .ci]) (List.Subset.refl _) ..)

theorem book_raise (code sev : Nat) (args : List (List Nat)) (s : State) : book (raise code sev args s) = book s := rfl

theorem book_wakeFlushes (s : State) : book (wakeFlushes s) = book s := book_of_zn (wakeFlushes_zn s)

/-! ## Writes in flight -/

theorem book_updWr (i : Nat) (g : Wr → Wr) (s : State) : book (updWr i g s) = book s := rfl

theorem book_returnCharge (id n : Nat) (s : State) : book (returnCharge id n s) = book s := by
  unfold returnCharge
  split <;> rfl

theorem book_postWrite (id wpath : Nat) (isHeld : Bool) (s : State) : book (postWrite id wpath isHeld s) = book s := by
  unfold postWrite
  split
  · rfl
  · split
    · rfl
    · split
      · rfl
      · extract_lets s1 s2
        have h2 : book s2 = book s := book_postFull ..
        split
        · exact h2
        · exact h2

theorem book_finishDiscarded (id : Nat) (s : State) : book (finishDiscarded id s) = book s := book_postWrite ..

theorem book_discardWrite (id : Nat) (s : State) : book (discardWrite id s) = book s := by
  unfold discardWrite
  split
  · rfl
  · exact book_returnCharge ..

theorem book_discardZoneWrites (z : Nat) (s : State) : book (discardZoneWrites z s) = book s := by
  refine foldl_keeps book _ (fun t w => ?_) _ _
  split
  · exact (book_wakeFlushes _).trans ((book_discardWrite ..).trans (book_finishDiscarded ..))
  · exact book_returnCharge ..

/-! ## Pens and rows -/

/-- A retired Pen takes its dead copies along, and nothing else of the book. -/
theorem book_retirePen (id : Nat) (s : State) : book (retirePen id s) = book s := by
  unfold retirePen
  split
  · rfl
  · rename_i p hp
    extract_lets s1 zs bs s2 mine s3
    have h1 : book s1 = book s := foldl_keeps book _ (fun t m => book_of_outside (L := [.fl, .pl]) (by
      dsimp only; repeat' split
      all_goals simp)) _ _
    have h2 : book s2 = book s1 := foldl_keeps book _ (fun t o => book_of_outside (L := [.fl, .pl]) (by
      unfold releaseOld; split <;> simp)) _ _
    exact h2.trans h1

theorem book_freshConv (p : Nat) (s : State) : book (freshConv p s) = book s := by
  unfold freshConv
  split
  · rfl
  · rename_i hp
    exact book_of_outside (formPad_outside (L := [.fl, .pl]) (List.Subset.refl _) hp)

theorem book_moveRow (r y : Nat) (s : State) : book (moveRow r y s) = book s := by
  unfold moveRow
  refine (foldl_keeps book _ (fun t p => (book_retirePen ..).trans ?_) _ _).trans rfl
  split
  · exact book_freshConv ..
  · rfl

theorem book_settleRows (s : State) : book (settleRows s) = book s :=
  foldl_keeps book _ (fun t p => by
    split
    · rfl
    · exact book_moveRow ..) _ _

theorem book_recyclePen (id : Nat) (s : State) : book (recyclePen id s) = book s :=
  book_of_outside (recyclePen_outside (L := [.pl, .fl]) (List.Subset.refl _) id s)

/-! ## Zones -/

/-- A zone as a Reset leaves it (R122): Empty, its generation one higher. -/
def Zone.emptied (q : Zone) : Zone := { q with
  st := .empty, zfc := false, wp := 0, activeRes := false, unread := false, sealed := false, comp := false,
  sealF := false, lclass := 0xF, keySlot := 0, actFn := 0xFFFF, resHandle := 0, gen := (q.gen + 1) % 2 ^ 48, runs := [], folded := 0, ahead := [],
  tags := [], sealKey := 0 }

theorem book_updZone {s t : State} (h : book t = book s) (z : Nat) (g : Zone → Zone) : book (updZone z g t) = book (updZone z g s) := by
  show ({ book t with zones := Tbl.upd t.zn.zones z g } : Zn) = { book s with zones := Tbl.upd s.zn.zones z g }
  rw [h, zones_of_book h]

/-- What a discarded zone leaves in the book (R122): the zone emptied, its pieces gone, nothing else changed. -/
theorem book_discardZone {z : Nat} {s : State} {q : Zone} (hq : zoneAt? z s = some q) :
    book (discardZone z s) = book (updZone z Zone.emptied (dropPieces z s)) := by
  unfold discardZone
  split
  case h_1 hn => exact absurd (hq.symm.trans hn) (by simp)
  case h_2 =>
    extract_lets s1 s2 r
    have h1 : book s1 = book s := (book_discardZoneWrites ..).trans rfl
    have h2 : book s2 = book (dropPieces z s1) := (book_of_outside (dropUnitOps_outside (L := [.fl]) (List.Subset.refl _) ..)).trans rfl
    have hr : book r.2 = book s2 := book_of_outside (giveBack_outside (L := [.pl]) (List.Subset.refl _) ..)
    have hd : book (dropPieces z s1) = book (dropPieces z s) := by
      show ({ book s1 with store := Tbl.del s1.zn.store z } : Zn) = { book s with store := Tbl.del s.zn.store z }
      rw [h1, store_of_book h1]
    exact (book_settleRows _).trans (book_updZone (hr.trans (h2.trans hd)) z _)

theorem discardZone_none {z : Nat} {s : State} (hq : zoneAt? z s = none) : discardZone z s = s := by
  unfold discardZone
  rw [hq]

theorem zoneAt_discardZone (z : Nat) (s : State) : zoneAt? z (discardZone z s) = (zoneAt? z s).map Zone.emptied := by
  cases hq : zoneAt? z s with
  | none => rw [discardZone_none hq, hq, Option.map_none]
  | some q =>
    rw [zoneAt_of_book (book_discardZone hq), zoneAt_updZone, ← hq]
    rfl

theorem zoneAt_discardZone_other {z y : Nat} (hy : y ≠ z) (s : State) : zoneAt? y (discardZone z s) = zoneAt? y s := by
  cases hq : zoneAt? z s with
  | none => rw [discardZone_none hq]
  | some q =>
    rw [zoneAt_of_book (book_discardZone hq), zoneAt_updZone_other _ _ _ _ hy]
    rfl

/-- A discarded zone leaves the namespaces and the scrubs that run. -/
theorem discardZone_nss_scrubs (z : Nat) (s : State) : (discardZone z s).zn.nss = s.zn.nss ∧ (discardZone z s).zn.scrubs = s.zn.scrubs := by
  cases hq : zoneAt? z s with
  | none => rw [discardZone_none hq]; exact ⟨rfl, rfl⟩
  | some q =>
    have h := book_discardZone hq
    exact ⟨(nss_of_book h).trans rfl, (scrubs_of_book h).trans rfl⟩

/-! ## Zones that become Full, seal units that close -/

theorem zoneAt_makeFull {z : Nat} {s : State} {q : Zone} (hq : zoneAt? z s = some q) : ∃ runs, zoneAt? z (makeFull z s) =
    some { q with st := .full, runs := runs, activeRes := false, actFn := 0xFFFF, resHandle := 0 } := by
  unfold makeFull
  split
  case h_1 hn => exact absurd (hq.symm.trans hn) (by simp)
  case h_2 =>
    extract_lets r
    have hr : book r.2 = book s := book_of_outside (giveBack_outside (L := [.pl]) (List.Subset.refl _) ..)
    exact ⟨r.1, by rw [zoneAt_updZone, zoneAt_of_book hr, hq]; rfl⟩

theorem zoneAt_makeFull_other {z y : Nat} (hy : y ≠ z) (s : State) : zoneAt? y (makeFull z s) = zoneAt? y s := by
  unfold makeFull
  split
  · rfl
  · extract_lets r
    have hr : book r.2 = book s := book_of_outside (giveBack_outside (L := [.pl]) (List.Subset.refl _) ..)
    rw [zoneAt_updZone_other _ _ _ _ hy, zoneAt_of_book hr]

/-- Closing seal units writes their tags into the zone's record and nothing else. -/
theorem zoneAt_sealAfter (z : Nat) (s : State) {α : Type} (p : Zone → α) (hp : ∀ q t, p { q with tags := t } = p q) :
    (zoneAt? z (sealAfter z s)).map p = (zoneAt? z s).map p := by
  unfold sealAfter
  split
  · rfl
  · split
    · rfl
    · refine foldl_keeps (fun t => (zoneAt? z t).map p) _ (fun t u => ?_) _ _
      split
      · rfl
      · split
        · rw [zoneAt_updZone, Option.map_map]
          exact congrArg (fun f => (zoneAt? z t).map f) (funext fun q => hp q _)
        · rfl

theorem zoneAt_sealAfter_other {z y : Nat} (hy : y ≠ z) (s : State) : zoneAt? y (sealAfter z s) = zoneAt? y s := by
  unfold sealAfter
  split
  · rfl
  · split
    · rfl
    · refine foldl_keeps (zoneAt? y) _ (fun t u => ?_) _ _
      split
      · rfl
      · split
        · exact zoneAt_updZone_other _ _ _ _ hy
        · rfl

end Sys2Proof.Machine

/-! O22. Zone Management Send and Receive. -/

namespace Sys2Proof.Machine
open Sys2Proof

/-! ## Fields of a buffer -/

theorem leNat_leBytes : ∀ n v : Nat, leNat (leBytes n v) = v % 256 ^ n
  | 0, v => by simp [leBytes, leNat, Nat.mod_one]
  | n + 1, v => by
    rw [leBytes, leNat, leNat_leBytes n (v / 256), BitVec.toNat_ofNat, Nat.mod_mod, Nat.pow_succ', Nat.mod_mul]

theorem padTo_length (n : Nat) (l : List Byte) : (padTo n l).length = n := by
  simp only [padTo, zeroBytes, List.length_take, List.length_append, List.length_replicate]
  omega

theorem padTo_append (n : Nat) (a l : List Byte) : padTo (a.length + n) (a ++ l) = a ++ padTo n l := by
  simp [padTo, List.take_append, Nat.add_sub_add_left]

/-- A field that stands between two parts of a buffer. -/
theorem numAt_field (a c : List Byte) (n v : Nat) : numAt (a ++ (leBytes n v ++ c)) a.length n = v % 256 ^ n := by
  have h : sliceB (a ++ (leBytes n v ++ c)) a.length n = leBytes n v := by
    have := padTo_append 0 (leBytes n v) []
    simp_all [sliceB, padTo]
  rw [numAt, h, leNat_leBytes]

/-! ## Actions on one zone -/

/-- An I/O command whose meaning ends with a completion answers it. -/
theorem io_ends {c : Cmd} {s s1 : State} {k : Ctx} (ht : taken c s = some (k, s1)) (hp : plainForm k) (hn : notSanitizing s1)
    {f : Ctx → State → State} {sct sc dw0 : Nat} {data : List Byte} {u0 : State} (he : f k s1 = postFull k sct sc dw0 0 data u0) :
    ∃ u, doneIo (withCmd c s (fun k s => gateIo k s f)) = .next (afterIo u) ∧ endsWith k sct sc dw0 data u0 u :=
  ⟨_, doneIo_gateIo ht hp hn f, k, rfl, rfl, rfl, he⟩

section
variable {k : Ctx} {s : State} {n : Ns} {z : Nat} {q : Zone}

/-- A Send on one zone acts on that zone. -/
theorem sendOn_one (h : sendsTo k s n z q) (one : Nat → Zone → State) (all : Ns → State) : sendOn k s one all = one z q := by
  obtain ⟨hw, hns, hc, hall, hlt, hal, hz, hq⟩ := h
  unfold sendOn
  rw [withNs_attached hns]
  simp only [hw, hc, hall, hal, hz, hq, show ¬ n.nsze ≤ slbaOf k.cmd by omega, ne_eq, not_true, if_false, Bool.not_true, Bool.false_eq_true]

/-- Outside SANITIZE and with spares left only THM = 0b10 speaks against a command, and it does not stop an Open (R106, R392). -/
theorem modeStatus_cases (hn : notSanitizing s) (hsp : s.m.sparesOut = false) : modeStatus s = none ∨ modeStatus s = some (7, 0x82) := by
  unfold modeStatus
  by_cases ht : s.m.thm = 2 <;> simp [hn.1, hsp, ht]

theorem openOne_goes (hn : notSanitizing s) (hsp : s.m.sparesOut = false) : openOne k z q s = openOne.openGo k z q s := by
  unfold openOne
  rcases modeStatus_cases hn hsp with hm | hm <;> rw [hm]
  rfl

/-- A Closed zone that holds its reservation opens within the limits (R108, R110). -/
theorem activate_closed (hq : zoneAt? z s = some q) (hst : q.st = .closed) (hr : q.activeRes = true) (hall : openAll s < 8192)
    (hlim : openCount q.actFn s < openLim q.actFn s) (a : Attr) (tgt : ZS) :
    activate k z a tgt s = (none, updZone z (fun q => { q with st := tgt }) s) := by
  have hcheck : openCheck q.actFn s = some s := by simp [openCheck, hlim, show ¬ 8192 ≤ openAll s by omega]
  unfold activate
  rw [hq]
  simp [hst, hr, hcheck, ZS.isOpen]

/-! ### Open -/

theorem zoneOpenOn_one (h : sendsTo k s n z q) (hn : notSanitizing s) (hsp : s.m.sparesOut = false) :
    zoneOpenOn k s = finBy k (openOne.openGo k z q s) := by
  rw [zoneOpenOn, sendOn_one h, openOne_goes hn hsp]

theorem openGo_impOpen (hst : q.st = .impOpen) :
    openOne.openGo k z q s = (none, updZone z (fun q => { q with st := .expOpen }) s) := by simp [openOne.openGo, hst]

theorem openGo_expOpen (hst : q.st = .expOpen) : openOne.openGo k z q s = (none, s) := by simp [openOne.openGo, hst]

theorem openGo_closed (hst : q.st = .closed) : openOne.openGo k z q s = activate k z Attr.dflt .expOpen s := by
  simp [openOne.openGo, hst]

theorem openGo_refuses (hst : q.st = .full ∨ q.st = .offline) : openOne.openGo k z q s = (some (1, 0xBF), s) := by
  rcases hst with hst | hst <;> simp [openOne.openGo, hst]

/-! ### Close -/

theorem zoneCloseOn_one (h : sendsTo k s n z q) : zoneCloseOn k s =
    if q.st.isOpen then ok k (updZone z (fun q => { q with st := .closed }) s) else if q.st = .closed then ok k s else fin k 1 0xBF s := by
  rw [zoneCloseOn, sendOn_one h]

/-! ### Finish -/

/-- A finished zone: Full already, or made so with its last seal units closed (R125). -/
def finished (z : Nat) (q : Zone) (s : State) : State := if q.st = .full then s else sealAfter z (makeFull z s)

theorem zoneFinishOn_one (h : sendsTo k s n z q) :
    zoneFinishOn k s = if q.st = .offline then fin k 1 0xBF s else ok k (finished z q s) := by
  rw [zoneFinishOn, sendOn_one h, finished]
  split_ifs <;> rfl

theorem finished_zone (hq : zoneAt? z s = some q) {α : Type} (p : Zone → α) (hp : ∀ x t, p { x with tags := t } = p x)
    (hfull : ∀ runs, p { q with st := .full, runs := runs, activeRes := false, actFn := 0xFFFF, resHandle := 0 } = p { q with st := .full }) :
    (zoneAt? z (finished z q s)).map p = some (p { q with st := .full }) := by
  unfold finished
  split
  · next hst => rw [hq, ← hst]; rfl
  · obtain ⟨runs, hr⟩ := zoneAt_makeFull hq
    rw [zoneAt_sealAfter z _ p hp, hr, Option.map_some, hfull]

theorem finished_other {y : Nat} (hy : y ≠ z) : zoneAt? y (finished z q s) = zoneAt? y s := by
  unfold finished
  split
  · rfl
  · rw [zoneAt_sealAfter_other hy, zoneAt_makeFull_other hy]

/-! ### Reset -/

theorem zoneResetOn_one (h : sendsTo k s n z q) :
    zoneResetOn k s = if q.st = .offline then fin k 1 0xBF s else ok k (resetZone z s) := by
  rw [zoneResetOn, sendOn_one h]

theorem resetZone_eq (hq : zoneAt? z s = some q) : resetZone z s = if q.st = .empty then s else discardZone z s := by
  rw [resetZone, hq]

/-! ## Report Zones (R128) -/

/-- The zones a Report of all zones tells of, from its SLBA on. -/
def zonesFrom (k : Ctx) (n : Ns) (s : State) : List (Nat × Zone) :=
  (n.zones.drop (slbaOf k.cmd / 2 ^ 20)).filterMap (fun z => (zoneAt? z s).bind (fun q => some (z, q)))

/-- Those whose descriptors have room after the header of 64 bytes. -/
def zonesShown (k : Ctx) (n : Ns) (s : State) : List (Nat × Zone) := (zonesFrom k n s).take ((numdOf k.cmd * 4 - 64) / 64)

/-- The number of zones a Report tells. -/
def zonesTold (k : Ctx) (n : Ns) (s : State) : Nat := if partialOf k.cmd then (zonesShown k n s).length else (zonesFrom k n s).length

/-- The data of a Report of all zones. -/
def zoneReport (k : Ctx) (n : Ns) (s : State) : List Byte :=
  padTo (numdOf k.cmd * 4) (leBytes 8 (zonesTold k n s) ++ zeroBytes 56 ++
    (zonesShown k n s).flatMap (fun p => zoneDesc p.1 p.2 (fnOf k.cmd.fn s).feats.xlevel s))

theorem reportOn_all (h : sendsTo k s n z q) (hf : zrasfOf k.cmd = 0) (hmax : numdOf k.cmd * 4 ≤ 2097152) :
    reportOn (dispatch k) s = okData (dispatch k) (zoneReport k n s) s := by
  obtain ⟨-, hns, hc, -, hlt, -, -, -⟩ := h
  have hall : ∀ t, filterZs 0 t = true := fun _ => rfl
  unfold reportOn
  rw [withNs_attached (k := dispatch k) hns]
  simp only [dispatch_cmd, hc, hf, hall, if_true, if_neg (show ¬ n.nsze ≤ slbaOf k.cmd by omega), if_neg (show ¬ 2097152 < numdOf k.cmd * 4 by omega)]
  rfl

theorem zonesFrom_length (hz : ∀ z ∈ n.zones, (zoneAt? z s).isSome = true) :
    (zonesFrom k n s).length = n.zones.length - slbaOf k.cmd / 2 ^ 20 := by
  rw [zonesFrom, List.length_filterMap_eq_countP, List.countP_eq_length.2 (fun z hm => ?_), List.length_drop]
  obtain ⟨q, hq⟩ := Option.isSome_iff_exists.1 (hz z (List.mem_of_mem_drop hm))
  simp [hq]

/-- The number a Report tells stands in its first 8 bytes. -/
theorem zoneReport_count (hmin : 64 ≤ numdOf k.cmd * 4) : numAt (zoneReport k n s) 0 8 = zonesTold k n s % 2 ^ 64 := by
  have hsplit : numdOf k.cmd * 4 = (leBytes 8 (zonesTold k n s)).length + (numdOf k.cmd * 4 - 8) := by rw [leBytes_length]; omega
  rw [zoneReport, List.append_assoc, hsplit, padTo_append]
  exact numAt_field [] _ 8 _

end

/-! ## O22 -/

/-- Settles O22: each clause is one branch of an action on one zone. -/
theorem zoneActions : Obligations.ZoneActions := by
  unfold Obligations.ZoneActions
  refine ⟨fun c s s1 k n z q ht hp hn h => ?_, fun c s s1 k n z q ht hp hn h => ?_⟩
  · obtain ⟨-, -, -, -, -, -, -, hq⟩ := id h
    have hopen := zoneOpenOn_one h hn
    have hclose := zoneCloseOn_one h
    have hfinish := zoneFinishOn_one h
    have hreset : zoneResetOn k s1 = _ := zoneResetOn_one h
    rw [resetZone_eq hq] at hreset
    refine ⟨fun hst hsp => ?_, fun hst hr hsp hall hlim => ?_, fun hst hsp => ?_, fun hst hsp => ?_, fun hst => ?_, fun hst => ?_, fun hst => ?_,
      fun hst => ⟨finished z q s1, ?_⟩, fun hst => ?_, fun hst => ?_, fun hst he => ⟨discardZone z s1, ?_⟩, fun hst => ?_⟩
    · exact io_ends ht hp hn (f := zoneOpenOn) (by rw [hopen hsp, openGo_impOpen hst]; rfl)
    · exact io_ends ht hp hn (f := zoneOpenOn) (by rw [hopen hsp, openGo_closed hst, activate_closed hq hst hr hall hlim]; rfl)
    · exact io_ends ht hp hn (f := zoneOpenOn) (by rw [hopen hsp, openGo_expOpen hst]; rfl)
    · exact io_ends ht hp hn (f := zoneOpenOn) (by rw [hopen hsp, openGo_refuses hst]; rfl)
    · exact io_ends ht hp hn (f := zoneCloseOn) (by rw [hclose, if_pos hst]; rfl)
    · exact io_ends ht hp hn (f := zoneCloseOn) (by rw [hclose, hst]; rfl)
    · exact io_ends ht hp hn (f := zoneCloseOn) (by rw [hclose]; rcases hst with hst | hst | hst <;> rw [hst] <;> rfl)
    · obtain ⟨u, hu, he⟩ := io_ends ht hp hn (f := zoneFinishOn) (hfinish.trans (if_neg hst))
      exact ⟨u, hu, he, finished_zone hq (·.st) (fun _ _ => rfl) (fun _ => rfl), finished_zone hq (·.wp) (fun _ _ => rfl) (fun _ => rfl),
        fun y hy => finished_other hy⟩
    · exact io_ends ht hp hn (f := zoneFinishOn) (hfinish.trans (if_pos hst))
    · exact io_ends ht hp hn (f := zoneResetOn) (by rw [hreset, hst]; rfl)
    · obtain ⟨u, hu, hend⟩ := io_ends ht hp hn (f := zoneResetOn) (by rw [hreset, if_neg hst, if_neg he]; rfl)
      exact ⟨u, hu, hend, by rw [zoneAt_discardZone, hq]; rfl, fun y hy => zoneAt_discardZone_other hy s1⟩
    · exact io_ends ht hp hn (f := zoneResetOn) (hreset.trans (if_pos hst))
  · obtain rfl := taken_cmd ht
    obtain ⟨hw, hns, hc, -, -, -, -, -⟩ := id h
    refine ⟨io_ends ht hp hn (sendOn_one h ..), io_ends ht hp hn ?_, io_ends ht hp hn ?_, fun hf hmax hmin hz => ?_⟩
    · rw [hw, withNs_attached hns, hc]
      rfl
    · rw [withNs_attached hns, hc]
      rfl
    · refine ⟨_, zoneReport k n s1, doneIo_gateIo ht hp hn (fun k s => reportOn (dispatch k) s), ?_, padTo_length .., (zoneReport_count hmin).trans ?_⟩
      · rw [reportOn_all h hf hmax]
        exact endsWith_dispatch ..
      · rw [zonesTold, zonesShown, List.length_take, zonesFrom_length hz]

end Sys2Proof.Machine

/-! O23. Placement Open. -/

namespace Sys2Proof.Machine
open Sys2Proof

section
variable {k : Ctx} {s : State} {n : Ns} {z : Nat} {q : Zone}

/-- A Placement Open that its permissions let through (R114, R320). -/
def placeable (k : Ctx) : Prop := (poSeal k.cmd = true → k.snap.sealP = true) ∧ (poComp k.cmd = true → k.snap.comp = true)

/-- The Yard and the class it names are ones it may name (R114). -/
def placesWell (k : Ctx) : Prop :=
  (poYard k.cmd < 64 ∧ bit k.snap.yards (poYard k.cmd) = true ∨ poYard k.cmd = 0xFF) ∧ (poClass k.cmd < 8 ∨ poClass k.cmd = 0xF)

theorem placementOpenOn_permitted (h : sendsTo k s n z q) (hperm : placeable k) :
    (!k.snap.write || (poSeal k.cmd && !k.snap.sealP) || (poComp k.cmd && !k.snap.comp)) = false := by
  obtain ⟨hw, -⟩ := h
  obtain ⟨hseal, hcomp⟩ := hperm
  cases hs : poSeal k.cmd <;> cases hc : poComp k.cmd <;> simp_all

/-- A reserved field that is not zero. -/
theorem placementOpenOn_reserved (h : sendsTo k s n z q) (hperm : placeable k) (hr : poRsvd k.cmd ≠ 0) :
    placementOpenOn k s = fin k 0 0x02 s := by
  have hdeny := placementOpenOn_permitted h hperm
  obtain ⟨-, hns, hc, -⟩ := h
  simp [placementOpenOn, withNs_attached hns, hdeny, hc, hr]

/-- A well-formed Placement Open: the zone's state decides (R114). -/
theorem placementOpenOn_state (h : sendsTo k s n z q) (hn : notSanitizing s) (hsp : s.m.sparesOut = false) (hperm : placeable k)
    (hr : poRsvd k.cmd = 0) (hwell : placesWell k) : ∃ w : State, placementOpenOn k s = match q.st with
      | .full => fin k 1 0xBF s
      | .offline => fin k 1 0xBF s
      | .expOpen => if sameAttr k.cmd q then okDw0 k q.yard s else fin k 0 0x02 s
      | .impOpen => if sameAttr k.cmd q then okDw0 k q.yard (updZone z (fun q => { q with st := .expOpen }) s) else fin k 0 0x02 s
      | _ => w := by
  have hdeny := placementOpenOn_permitted h hperm
  have hgo := openOne_goes (k := k) (z := z) (q := q) hn hsp
  obtain ⟨-, hns, hc, -, hlt, hal, hz, hq⟩ := h
  obtain ⟨hy, hl⟩ := hwell
  have hslba : ¬ (n.nsze ≤ slbaOf k.cmd ∨ slbaOf k.cmd % 2 ^ 20 ≠ 0) := by omega
  have hrange : ¬ ((64 ≤ poYard k.cmd ∧ poYard k.cmd ≠ 0xFF) ∨ (8 ≤ poClass k.cmd ∧ poClass k.cmd ≠ 0xF)) := by omega
  have hmask : ¬ (poYard k.cmd ≠ 0xFF ∧ (!bit k.snap.yards (poYard k.cmd)) = true) := by
    rintro ⟨hne, hb⟩
    obtain ⟨-, hb'⟩ := hy.resolve_right hne
    simp [hb'] at hb
  unfold placementOpenOn
  rcases modeStatus_cases hn hsp with hm | hm
  all_goals
    simp only [withNs_attached hns, hdeny, hc, hr, hslba, hrange, hmask, hz, hq, hgo, hm, Bool.false_eq_true, if_false, if_true, ne_eq, not_true]
    cases hst : q.st
    case impOpen =>
      refine ⟨s, ?_⟩
      rw [openGo_impOpen hst]
      cases sameAttr k.cmd q
      · rfl
      · simp [hq]
    case empty => exact ⟨_, rfl⟩
    case closed => exact ⟨_, rfl⟩
    all_goals exact ⟨s, rfl⟩

end

/-- Settles O23: each clause is one branch of a Placement Open. -/
theorem placementOpens : Obligations.PlacementOpens := by
  unfold Obligations.PlacementOpens
  intro c s s1 k n z q ht hp hn h hsp hseal hcomp
  obtain rfl := taken_cmd ht
  have hends := @io_ends k.cmd s s1 k ht hp hn placementOpenOn
  refine ⟨fun hr => hends (placementOpenOn_reserved h ⟨hseal, hcomp⟩ hr), fun hr hy hl => ?_⟩
  obtain ⟨w, hw⟩ := placementOpenOn_state h hn hsp ⟨hseal, hcomp⟩ hr ⟨hy, hl⟩
  refine ⟨fun hst ha => hends ?_, fun hst ha => hends ?_, fun hst ha => hends ?_, fun hst => hends ?_⟩
  · rw [hw, hst, ha]; rfl
  · rw [hw, hst, ha]; rfl
  · rw [hw, hst, ha]; rfl
  · rw [hw]; rcases hst with hst | hst <;> rw [hst] <;> rfl

end Sys2Proof.Machine

/-! O25. Commands refused before they act. -/

namespace Sys2Proof.Machine
open Sys2Proof

section
variable {k : Ctx} {s : State}

/-- A fused command, or one with a bit bucket (R226). -/
theorem gateIo_malformed (h : k.cmd.fuse ≠ 0 ∨ k.cmd.bitBucket = true) (f : Ctx → State → State) : gateIo k s f = fin k 0 0x02 s := by
  simp [gateIo, gateForm, h]

/-- An I/O command while a sanitize runs (R126). -/
theorem gateIo_sanitizing (hp : plainForm k) (h : s.m.cur = .sanitize) (f : Ctx → State → State) : gateIo k s f = fin k 0 0x1D s := by
  simp [gateIo, gateForm_plain hp, h]

/-! ## Without write permission (R320) -/

theorem writeOn_denied (h : k.snap.write = false) (kind : WKind) (blks : List Blk) : writeOn kind blks k s = denyPerm k s := by
  simp [writeOn, h]

theorem zoneResetOn_denied (h : k.snap.write = false) : zoneResetOn k s = denyPerm k s := by simp [zoneResetOn, sendOn, h]

theorem sealOn_denied (h : k.snap.write = false) : sealOn k s = denyPerm k s := by simp [sealOn, h]

theorem hhAppendOn_denied (h : k.snap.write = false) (blks : List Blk) : hhAppendOn blks k s = denyPerm k s := by simp [hhAppendOn, h]

end

/-- An I/O command that its gates end with a completion answers it. -/
theorem io_stopped {c : Cmd} {s s1 : State} {k : Ctx} (ht : taken c s = some (k, s1)) {f : Ctx → State → State} {sct sc : Nat}
    (he : gateIo k s1 f = fin k sct sc s1) :
    ∃ u, doneIo (withCmd c s (fun k s => gateIo k s f)) = .next (afterIo u) ∧ endsWith k sct sc 0 [] s1 u :=
  ⟨_, by rw [withCmd_taken ht, doneIo_after], k, rfl, rfl, rfl, he⟩

/-- Settles O25: the gates stand before a command's own rules, and write permission is the first of these. -/
theorem refusedBeforeActing : Obligations.RefusedBeforeActing := by
  unfold Obligations.RefusedBeforeActing
  intro c blks sgl s s1 k ht
  obtain rfl := taken_cmd ht
  refine ⟨fun hp hn hw => ⟨?_, ?_, ?_, ?_, ?_⟩, fun hform => ⟨?_, ?_, ?_⟩, fun hp hm => ⟨?_, ?_, ?_⟩⟩
  · exact io_ends ht hp hn (writeOn_denied hw .write blks)
  · exact io_ends ht hp hn (writeOn_denied hw .append blks)
  · exact io_ends ht hp hn (zoneResetOn_denied hw)
  · exact io_ends ht hp hn (sealOn_denied hw)
  · exact io_ends ht hp hn (hhAppendOn_denied hw blks)
  · exact io_stopped ht (gateIo_malformed hform (writeOn .write blks))
  · exact io_stopped ht (gateIo_malformed hform readOn)
  · exact io_stopped ht (gateIo_malformed hform _)
  · exact io_stopped ht (gateIo_sanitizing hp hm (writeOn .write blks))
  · exact io_stopped ht (gateIo_sanitizing hp hm readOn)
  · exact io_stopped ht (gateIo_sanitizing hp hm (gatherOn sgl))

end Sys2Proof.Machine

/-! O30. Identify and the zone limits. -/

namespace Sys2Proof.Machine
open Sys2Proof

theorem idZns_length (f : Nat) (s : State) : (idZns f s).length = 4096 := by
  simp only [idZns, lay, zeroBytes, List.length_append, List.length_replicate, List.length_flatMap, leBytes_length, List.map_const',
    List.length_range, List.sum_replicate, smul_eq_mul, Nat.max_def]
  rfl

/-- MAR and MOR stand at bytes 4 and 8 (R112). -/
theorem idZns_limits (f : Nat) (s : State) : numAt (idZns f s) 4 4 = (activeLim f s - 1) % 2 ^ 32 ∧ numAt (idZns f s) 8 4 = (openLim f s - 1) % 2 ^ 32 := by
  constructor
  · exact numAt_field (leBytes 2 0 ++ leBytes 2 1) _ 4 _
  · exact numAt_field (leBytes 2 0 ++ leBytes 2 1 ++ leBytes 4 (activeLim f s - 1)) _ 4 _

/-- Identify Namespace for the Zoned Namespace Command Set, of an attached zoned namespace. -/
theorem identifyData_zns {c : Cmd} {s : State} {n : Ns} (hcns : cnsOf c = 0x05) (hcsi : bits c.cdw11.toNat 31 24 = 2) (hlo : 1 ≤ c.nsid)
    (hhi : c.nsid ≤ 128) (hns : nsAt? c.nsid s = some n) (hatt : n.attached.contains c.fn = true) (hz : n.conv = false) :
    identifyData c s = .inl (idZns c.fn s) := by
  have hid : ¬ (c.nsid = 0 ∨ 128 < c.nsid) := by omega
  simp only [identifyData, hcns, hcsi, hns, hatt, hz, hid]
  rfl

/-- Settles O30: the two limits stand in the answer of Identify. -/
theorem identifyReportsZoneLimits : Obligations.IdentifyReportsZoneLimits := by
  unfold Obligations.IdentifyReportsZoneLimits
  intro c s s1 k n ht hp hcns hcsi hlo hhi hns hatt hz
  obtain ⟨u, hu, he⟩ := ends_of_postFull ht hp (f := fun k s => match identifyData c s with | .inl d => okData k d s | .inr e => fin k 0 e s)
    (by rw [identifyData_zns hcns hcsi hlo hhi hns hatt hz]; rfl)
  exact ⟨u, _, hu, he, idZns_length .., idZns_limits ..⟩

end Sys2Proof.Machine

/-! O27. Namespace Management and Attachment. -/

namespace Sys2Proof.Machine
open Sys2Proof

/-! ## Create -/

section
variable {k : Ctx} {s : State}

/-- The namespace a Create of zones makes, before its keys: the lowest free zones under its identifier, attached to no controller. -/
def zonedCreated (id nsze lbaf pi : Nat) (s : State) : State :=
  { s with zn := { s.zn with
    nss := Tbl.put s.zn.nss id ⟨false, nsze, lbaf, pi, (freeZones s).take (nsze / 2 ^ 20), []⟩,
    zones := (((freeZones s).take (nsze / 2 ^ 20)).zipIdx).foldl (fun t p => Tbl.put t p.1 (Zone.fresh id p.2 (Tbl.getD s.zn.gens p.1 0))) s.zn.zones } }

theorem nsAt_zonedCreated (id nsze lbaf pi : Nat) (s : State) :
    nsAt? id (zonedCreated id nsze lbaf pi s) = some ⟨false, nsze, lbaf, pi, (freeZones s).take (nsze / 2 ^ 20), []⟩ := Tbl.get?_put_same ..

/-- A Create of whole free zones (R103). -/
theorem nsCreateOn_zoned {buf : List Byte} (hcsi : bits k.cmd.cdw11.toNat 31 24 = 2) (hcap : numAt buf 8 8 = numAt buf 0 8)
    (hne : numAt buf 0 8 ≠ 0) (hal : numAt buf 0 8 % 2 ^ 20 = 0) (hf : numAt buf 26 1 % 16 ≤ 3) (hg : s.fl.geom.ok = true)
    (hroom : numAt buf 0 8 / 2 ^ 20 ≤ (freeZones s).length) {id : Nat} (hid : freeNsid s = some id) :
    nsCreateOn buf k s =
      okDw0 k id (genKeys id 0 (zonedCreated id (numAt buf 0 8) (numAt buf 26 1 % 16) (numAt buf 29 1 % 16) s)) := by
  have htaken : ¬ ((freeZones s).take (numAt buf 0 8 / 2 ^ 20)).length < numAt buf 0 8 / 2 ^ 20 := by rw [List.length_take]; omega
  have hsize : ¬ (numAt buf 8 8 ≠ numAt buf 0 8 ∨ numAt buf 0 8 = 0 ∨ 3 < numAt buf 26 1 % 16) := by omega
  simp only [nsCreateOn, hcsi, hg, hal, hsize]
  simp only [createZoned, htaken, hid]
  rfl

/-! ## Delete -/

/-- No namespace is left under a deleted one's identifier (R103). -/
theorem nsAt_deleteNs (n : Nat) (s : State) : nsAt? n (deleteNs n s) = none := by
  unfold deleteNs
  split
  · assumption
  · exact Tbl.get?_del_same ..

theorem nsDeleteOn_absent (hall : k.cmd.nsid ≠ 0xFFFFFFFF) (hns : nsAt? k.cmd.nsid s = none) : nsDeleteOn k s = fin k 0 0x0B s := by
  simp [nsDeleteOn, hall, hns]

theorem nsDeleteOn_active (hall : k.cmd.nsid ≠ 0xFFFFFFFF) (hns : (nsAt? k.cmd.nsid s).isSome = true) (hact : nsActive k.cmd.nsid s = true) :
    nsDeleteOn k s = fin k 0 0x0C s := by
  simp [nsDeleteOn, hall, Option.isSome_iff_ne_none.1 hns, hact]

theorem nsDeleteOn_idle (hall : k.cmd.nsid ≠ 0xFFFFFFFF) (hns : (nsAt? k.cmd.nsid s).isSome = true) (hact : nsActive k.cmd.nsid s = false) :
    nsDeleteOn k s = ok k (deleteNs k.cmd.nsid s) := by
  simp [nsDeleteOn, hall, Option.isSome_iff_ne_none.1 hns, hact]

/-! ## Attachment -/

/-- A namespace's record replaced. -/
def putNs (n : Nat) (x : Ns) (s : State) : State := { s with zn := { s.zn with nss := Tbl.put s.zn.nss n x } }

/-- The controllers of a list are told of a change of a namespace where they enabled it (R226). -/
def noticeNs (k : Ctx) (fs : List Nat) (s : State) : State :=
  fs.foldl (fun s f => if (fnOf f s).en && bit (fnOf f s).feats.aec 8 then
    aenFn f 2 0 4 (updFn f (fun n => { n with chNs := if n.chNs.contains k.cmd.nsid then n.chNs else n.chNs ++ [k.cmd.nsid] }) s) else s) s

theorem noticeNs_zn (k : Ctx) (fs : List Nat) (s : State) : (noticeNs k fs s).zn = s.zn := by
  refine foldl_keeps State.zn _ (fun t f => ?_) _ _
  split
  · exact keeps_of_outside (x := .zn) (aenFn_outside (L := [.q, .stb, .ci]) (List.Subset.refl _) ..) (by decide)
  · rfl

/-- An Attachment of controllers that are there and not attached yet. -/
theorem nsAttachOn_attaches {buf : List Byte} {x : Ns} (hx : nsAt? k.cmd.nsid s = some x) (hsel : bits k.cmd.cdw10.toNat 3 0 = 0)
    (hne : ctlList buf ≠ []) (hfs : ∀ f ∈ ctlList buf, fnPresent f s = true ∧ x.attached.contains f = false) :
    nsAttachOn buf k s = ok k (noticeNs k (ctlList buf) (putNs k.cmd.nsid { x with attached := x.attached ++ ctlList buf } s)) := by
  have hpres : ((ctlList buf).isEmpty || (ctlList buf).any (fun f => !fnPresent f s)) = false := by
    simpa [hne] using fun f hf => (hfs f hf).1
  have hnew : (ctlList buf).any (fun f => x.attached.contains f) = false := by
    simpa using fun f hf => (hfs f hf).2
  simp only [nsAttachOn, hx, hpres, hsel, hnew]
  rfl

end

/-- An admin command of function 0 whose meaning ends with a completion answers it. -/
theorem owner_ends {c : Cmd} {s s1 : State} {k : Ctx} (ht : taken c s = some (k, s1)) (hp : plainForm k) (hn : notSanitizing s1) (h0 : c.fn = 0)
    {f : Ctx → State → State} {sct sc dw0 : Nat} {data : List Byte} {u0 : State} (he : f (dispatch k) s1 = postFull (dispatch k) sct sc dw0 0 data u0) :
    ∃ u, done (withCmd c s (fun k s => gateAdmin (c.fn == 0) false k s f)) = .next (after u) ∧ endsWith k sct sc dw0 data u0 u :=
  ⟨_, done_gateAdmin ht hp hn h0 f, by rw [he]; exact endsWith_dispatch ..⟩

theorem exec_namespaceCreate_owner {c : Cmd} {s s1 : State} {k : Ctx} (ht : taken c s = some (k, s1)) (hp : plainForm k) (hn : notSanitizing s1)
    (h0 : c.fn = 0) (buf : List Byte) : exec (.namespaceCreate c buf) s = .next (afterIo (nsCreateOn buf (dispatch k) s1)) := by
  show doneIo (withCmd c s (fun k s => gateAdmin (c.fn == 0) false k s (nsCreateOn buf))) = _
  rw [withCmd_taken ht, h0]
  exact congrArg doneIo (gateAdmin_plain hp hn _)

theorem exec_namespaceCreate_denied {c : Cmd} {s s1 : State} {k : Ctx} (ht : taken c s = some (k, s1)) (h0 : c.fn ≠ 0) (buf : List Byte) :
    exec (.namespaceCreate c buf) s = .next (afterIo (fin k 0 0x01 s1)) := by
  show doneIo (withCmd c s (fun k s => gateAdmin (c.fn == 0) false k s (nsCreateOn buf))) = _
  rw [withCmd_taken ht, beq_false_of_ne h0, gateAdmin_denied, doneIo_after]

/-- Settles O27: a Create puts a record under the lowest free identifier, a Delete takes it out, an Attachment lengthens its list. -/
theorem namespaceCommands : Obligations.NamespaceCommands := by
  unfold Obligations.NamespaceCommands
  intro c buf s s1 k ht hp hn
  obtain rfl := taken_cmd ht
  refine ⟨fun h0 hcsi hcap hne hal hf hg hroom hid => ?_, fun h0 => ⟨_, exec_namespaceCreate_denied ht h0 buf, endsWith_self ..⟩,
    fun h0 hall hsome hact => ?_, fun h0 hall hsome hact => ?_, fun h0 hall hnone => ?_, fun x h0 hx hsel hne hfs => ?_⟩
  · obtain ⟨id, hid⟩ := Option.isSome_iff_exists.1 hid
    refine ⟨id, genKeys id 0 (zonedCreated id (numAt buf 0 8) (numAt buf 26 1 % 16) (numAt buf 29 1 % 16) s1), _, _,
      exec_namespaceCreate_owner ht hp hn h0 buf, ?_, hid, nsAt_zonedCreated .., rfl, rfl, rfl, rfl⟩
    rw [nsCreateOn_zoned (k := dispatch k) hcsi hcap hne hal hf hg hroom hid]
    exact endsWith_dispatch ..
  · obtain ⟨u, hu, he⟩ := owner_ends ht hp hn h0 (nsDeleteOn_idle (k := dispatch k) hall hsome hact)
    exact ⟨_, u, hu, he, nsAt_deleteNs ..⟩
  · exact owner_ends ht hp hn h0 (nsDeleteOn_active (k := dispatch k) hall hsome hact)
  · exact owner_ends ht hp hn h0 (nsDeleteOn_absent (k := dispatch k) hall hnone)
  · obtain ⟨u, hu, he⟩ := owner_ends ht hp hn h0 (f := nsAttachOn buf) (nsAttachOn_attaches (k := dispatch k) hx hsel hne hfs)
    exact ⟨_, u, hu, he, by rw [nsAt?, noticeNs_zn]; exact Tbl.get?_put_same ..⟩

end Sys2Proof.Machine

/-! O28. Sanitize and Format NVM. -/

namespace Sys2Proof.Machine
open Sys2Proof

/-! ## Keys and Currycomb passes -/

/-- The keys and the bindings to them: the cipher without its check-value units. -/
def keyStore (s : State) : Ciph := { s.ci with cvus := [] }

/-- A completion moves check-value units and no key. -/
theorem keyStore_postFull (k : Ctx) (sct sc dw0 cs1 : Nat) (data : List Byte) (s : State) :
    keyStore (postFull k sct sc dw0 cs1 data s) = keyStore s := by
  have hlog : keyStore (if sct = 7 then logError k sct sc s else s) = keyStore s := by split <;> rfl
  have hcvu : ∀ g t, keyStore (cvuFold k g t) = keyStore t := fun g t => by
    unfold cvuFold
    exact foldl_keeps keyStore _ (fun _ _ => by unfold updCvu; rfl) _ _
  have hcq : ∀ f e t, keyStore (cqPush f e t).1 = keyStore t := fun f e t =>
    congrArg (fun c : Ciph => { c with cvus := [] }) (keeps_of_outside (x := .ci) (cqPush_outside (List.Subset.refl _) f e t) (by decide))
  unfold postFull
  split
  · rfl
  · split
    · rfl
    · extract_lets s1 r
      have hr : keyStore r.1 = keyStore s := (hcq ..).trans ((hcvu ..).trans hlog)
      split
      · exact hr
      · exact hr

/-- A pass that ends is summed up, and its command completed (R218). -/
theorem closePass_after (p : Pass) (x : Summary) (s : State) :
    keyStore (closePass p x s) = keyStore s ∧ grows s (closePass p x s) := by
  unfold closePass
  extract_lets _ s1
  have h1 : grows s s1 := grows_raise ..
  split
  · split
    · exact ⟨keyStore_postFull .., grows_trans h1 (grows_of_eq (congrArg Stb.raised (postFull_stb ..)))⟩
    · exact ⟨rfl, h1⟩
  · exact ⟨rfl, h1⟩

theorem endPasses_keeps {x : Comp} (hx : x ∉ [Comp.fl, .ecc, .q, .stb, .ci]) (s : State) : keeps x s (endPasses s) :=
  keeps_of_outside (endPasses_outside (List.Subset.refl _) s) hx

theorem endPasses_after (s : State) : keyStore (endPasses s) = keyStore s ∧ grows s (endPasses s) := by
  unfold endPasses
  extract_lets ps
  have hdrop : ∀ t, keyStore (dropComb t) = keyStore t ∧ grows t (dropComb t) := fun t => by
    unfold dropComb
    extract_lets rs
    split
    · exact ⟨rfl, grows_refl t⟩
    · exact ⟨rfl, grows_of_eq rfl⟩
  have hclose : ∀ t, keyStore t = keyStore s → grows s t → keyStore (ps.foldl (fun s p => closePass p (p.summary 2) s) (dropComb t)) = keyStore s ∧
      grows s (ps.foldl (fun s p => closePass p (p.summary 2) s) (dropComb t)) := fun t hk hg =>
    ⟨(foldl_keeps keyStore _ (fun t p => (closePass_after p (p.summary 2) t).1) ps _).trans ((hdrop t).1.trans hk),
      grows_trans hg (grows_trans (hdrop t).2 (grows_foldl _ (fun t p => (closePass_after p (p.summary 2) t).2) ps _))⟩
  exact hclose _ rfl (grows_of_eq rfl)

/-! ## A sanitize begins (R126) -/

/-- The device as a sanitize finds it when its command completes. -/
def sanitizing (kind : Nat) (k : Ctx) (s : State) : State :=
  endPasses (setMode .sanitize { s with zn := { s.zn with sanit := kind, sstat := 2, scdw10 := k.cmd.cdw10.toNat }, jn := { s.jn with sanitize := kind } })

theorem sanitizeOn_begins {k : Ctx} {s : State} (h : s.m.cur ≠ .sanitize) (kind : Nat) :
    sanitizeOn kind k s = ok k (sanitizing kind k (if kind = 2 then cryptoErase s else s)) := by
  simp only [sanitizeOn, beq_false_of_ne h]
  rfl

theorem sanitizeOn_again {k : Ctx} {s : State} (h : s.m.cur = .sanitize) (kind : Nat) : sanitizeOn kind k s = fin k 0 0x1D s := by
  simp [sanitizeOn, h]

theorem sanitizing_after (kind : Nat) (k : Ctx) (s : State) :
    (sanitizing kind k s).m.cur = .sanitize ∧ (sanitizing kind k s).zn.sanit = kind ∧ (sanitizing kind k s).jn.sanitize = kind ∧
      keyStore (sanitizing kind k s) = keyStore s ∧ grows s (sanitizing kind k s) := by
  unfold sanitizing
  generalize hs0 : ({ s with zn := { s.zn with sanit := kind, sstat := 2, scdw10 := k.cmd.cdw10.toNat }, jn := { s.jn with sanitize := kind } } : State) = s0
  have hkeys : keyStore s0 = keyStore s := by rw [← hs0]; rfl
  have hgrows : grows s s0 := by rw [← hs0]; exact grows_of_eq rfl
  have hm : (endPasses (setMode .sanitize s0)).m = (setMode .sanitize s0).m := endPasses_keeps (x := .m) (by decide) _
  have hz : (endPasses (setMode .sanitize s0)).zn = s0.zn :=
    Eq.trans (endPasses_keeps (x := .zn) (by decide) _) (setMode_keeps (x := .zn) (by decide) ..)
  have hj : (endPasses (setMode .sanitize s0)).jn = s0.jn :=
    Eq.trans (endPasses_keeps (x := .jn) (by decide) _) (setMode_jn ..)
  obtain ⟨hk, hg⟩ := endPasses_after (setMode .sanitize s0)
  have hci : keyStore (setMode .sanitize s0) = keyStore s0 :=
    congrArg (fun c : Ciph => { c with cvus := [] }) (setMode_quiet (by decide) (by decide) s0).2
  refine ⟨by rw [hm, setMode_cur], by rw [hz, ← hs0], by rw [hj, ← hs0], hk.trans (hci.trans hkeys), ?_⟩
  exact grows_trans hgrows (grows_trans (grows_setMode ..) hg)

/-- A Crypto Erase leaves no key slot and no binding, and says so (R297, R298). -/
theorem cryptoErase_after (s : State) : (cryptoErase s).ci.keys = [] ∧ (cryptoErase s).ci.bind = [] ∧ raises 0x8030 (cryptoErase s) := by
  unfold cryptoErase
  extract_lets ns _ s1
  have hkeys : ∀ l : List Nat, (l.foldl (fun s n => genKeys n 2 s) s1).ci.keys = s1.ci.keys := fun l =>
    foldl_keeps (fun t => t.ci.keys) _ (fun _ _ => by unfold genKeys; rfl) l s1
  have hbind : ∀ l : List Nat, (l.foldl (fun s n => genKeys n 2 s) s1).ci.bind = s1.ci.bind := fun l =>
    foldl_keeps (fun t => t.ci.bind) _ (fun _ _ => by unfold genKeys; rfl) l s1
  exact ⟨hkeys ns, hbind ns, raises_raise ..⟩

/-! ## Format NVM (R127) -/

/-- Zones discarded one after the other. -/
def discardZones (zs : List Nat) (s : State) : State := zs.foldl (fun s z => discardZone z s) s

theorem discardZones_nss (zs : List Nat) (s : State) : (discardZones zs s).zn.nss = s.zn.nss :=
  foldl_keeps (fun t => t.zn.nss) _ (fun t z => (discardZone_nss_scrubs z t).1) zs s

/-- A zone that is Empty with its write pointer at its start, if it is there at all. -/
def emptyIfThere (z : Nat) (s : State) : Prop := ∀ q, zoneAt? z s = some q → q.st = .empty ∧ q.wp = 0

theorem discardZone_empties (z : Nat) (s : State) : emptyIfThere z (discardZone z s) := by
  intro q hq
  rw [zoneAt_discardZone] at hq
  obtain ⟨x, -, rfl⟩ := Option.map_eq_some_iff.1 hq
  exact ⟨rfl, rfl⟩

theorem discardZone_keeps_empty {z : Nat} {s : State} (h : emptyIfThere z s) (y : Nat) : emptyIfThere z (discardZone y s) := by
  by_cases hz : z = y
  · subst hz
    exact discardZone_empties z s
  · intro q hq
    rw [zoneAt_discardZone_other hz] at hq
    exact h q hq

theorem discardZones_empty {z : Nat} : ∀ {zs : List Nat} {s : State}, z ∈ zs ∨ emptyIfThere z s → emptyIfThere z (discardZones zs s)
  | [], _, h => h.resolve_left List.not_mem_nil
  | y :: ys, s, h => by
    refine discardZones_empty (zs := ys) (s := discardZone y s) ?_
    rcases h with h | h
    · rcases List.mem_cons.1 h with rfl | h
      · exact .inr (discardZone_empties z s)
      · exact .inl h
    · exact .inr (discardZone_keeps_empty h y)

/-- A format written into a namespace's record. -/
def reformat (lbaf pi n : Nat) (s : State) : State :=
  { s with zn := { s.zn with nss := Tbl.upd s.zn.nss n (fun y => { y with lbaf := lbaf, pi := pi }) } }

theorem nsAt_reformat (lbaf pi n : Nat) (s : State) :
    nsAt? n (reformat lbaf pi n s) = (nsAt? n s).map (fun y => { y with lbaf := lbaf, pi := pi }) := by
  simp only [nsAt?, reformat, Tbl.get?_upd_same]

/-- What Format leaves of a zoned namespace: its zones Empty, the format asked for in its record. -/
theorem formatNs_zoned {n : Nat} {s : State} {x : Ns} (hx : nsAt? n s = some x) (hz : x.conv = false) (lbaf pi : Nat) :
    nsAt? n (formatNs lbaf pi n s) = some { x with lbaf := lbaf, pi := pi } ∧ ∀ z ∈ x.zones, emptyIfThere z (formatNs lbaf pi n s) := by
  have heq : formatNs lbaf pi n s = genKeys n 1 (reformat lbaf pi n (discardZones x.zones s)) := by
    simp only [formatNs, hx, hz]
    rfl
  have hkeys : ∀ t, nsAt? n (genKeys n 1 t) = nsAt? n t := fun _ => rfl
  have hsame : nsAt? n (discardZones x.zones s) = nsAt? n s := by rw [nsAt?, discardZones_nss]; rfl
  rw [heq, hkeys, nsAt_reformat, hsame, hx]
  exact ⟨rfl, fun z hm => discardZones_empty (s := s) (.inl hm)⟩

theorem formatOn_one {k : Ctx} {s : State} {x : Ns} (hn : notSanitizing s) (hsp : s.m.sparesOut = false) (hx : nsAt? k.cmd.nsid s = some x)
    (hall : k.cmd.nsid ≠ 0xFFFFFFFF) (hses : bits k.cmd.cdw10.toNat 11 9 = 0)
    (hf : bits k.cmd.cdw10.toNat 3 0 + 16 * bits k.cmd.cdw10.toNat 13 12 ≤ 3) : formatOn k s =
      ok k (formatNs (bits k.cmd.cdw10.toNat 3 0 + 16 * bits k.cmd.cdw10.toNat 13 12)
        (bits k.cmd.cdw10.toNat 7 5 + 8 * bits k.cmd.cdw10.toNat 8 8) k.cmd.nsid s) := by
  have hf' : ¬ 3 < bits k.cmd.cdw10.toNat 3 0 + 16 * bits k.cmd.cdw10.toNat 13 12 := by omega
  rcases modeStatus_cases hn hsp with hm | hm <;> simp [formatOn, hall, hses, hf', hx, hm]

/-! ## A sanitize ends (R126, R127) -/

theorem reevalSpares_keeps {x : Comp} (hx : x ∉ [Comp.m, .q, .stb, .jn, .ci]) (s : State) : keeps x s (reevalSpares s) :=
  keeps_of_outside (reevalSpares_outside (List.Subset.refl _) s) hx

/-- The warnings of THERMAL_HOLD and READ_ONLY leave that of sanitize failure. -/
theorem setWarn_warn2 {b : Nat} (hb : b = 1 ∨ b = 3) (v : Bool) (s : State) : (setWarn b v s).m.warn2 = s.m.warn2 := by
  unfold setWarn
  extract_lets old _ m s1
  have hm : m.warn2 = s.m.warn2 := by rcases hb with rfl | rfl <;> rfl
  split
  · exact (congrArg ModeS.warn2 (aenAll_m ..)).trans hm
  · exact hm

theorem setWarn_clears (s : State) : (setWarn 2 false s).m.warn2 = false := by
  unfold setWarn
  rfl

theorem setMode_warn2 (md : Mode) (s : State) : (setMode md s).m.warn2 = s.m.warn2 := by
  unfold setMode
  split
  · rfl
  · extract_lets old s1 _ s2
    split
    · exact setWarn_warn2 (by decide) ..
    · split
      · exact setWarn_warn2 (by decide) ..
      · rfl

theorem setWarn_jn (b : Nat) (v : Bool) (s : State) : (setWarn b v s).jn = s.jn :=
  keeps_of_outside (x := .jn) (setWarn_outside (L := [.m, .q, .stb, .ci]) (List.Subset.refl _) b v s) (by decide)

theorem setWarn_zn (b : Nat) (v : Bool) (s : State) : (setWarn b v s).zn = s.zn :=
  keeps_of_outside (x := .zn) (setWarn_outside (L := [.m, .q, .stb, .ci]) (List.Subset.refl _) b v s) (by decide)

/-- The evaluation of the spares marks the journal and touches no warning but the third. -/
theorem reevalSpares_after (s : State) : (reevalSpares s).m.warn2 = s.m.warn2 ∧ (reevalSpares s).jn.sanitize = s.jn.sanitize ∧
    (reevalSpares s).jn.checkpoints = s.jn.checkpoints := by
  unfold reevalSpares
  split
  · split
    · exact ⟨setWarn_warn2 (by decide) .., (congrArg Jrn.sanitize (setWarn_jn ..)).trans rfl, (congrArg Jrn.checkpoints (setWarn_jn ..)).trans rfl⟩
    · exact ⟨rfl, rfl, rfl⟩
  · split
    · exact ⟨rfl, rfl, rfl⟩
    · exact ⟨rfl, rfl, rfl⟩

/-! ### What is erased -/

theorem wipeData_after (s : State) : (wipeData s).zn.cmap = [] ∧ (wipeData s).zn.store = [] ∧ (wipeData s).jn = s.jn :=
  ⟨rfl, rfl, keeps_of_outside (x := .jn) (wipeData_outside (List.Subset.refl _) s) (by decide)⟩

theorem book_eraseAll (s : State) : book (eraseAll s) = book { s with zn := { s.zn with scrubs := [] } } := by
  unfold eraseAll
  extract_lets wipe erased _ fl _ pl _ s1 n _ s2 s3
  have h2 : book s2 = book s1 := (foldl_keeps book _ (fun t d => book_of_outside (refillLists_outside (L := [.fl]) (List.Subset.refl _) ..)) _ _).trans rfl
  have h3 : book s3 = book s2 := by
    simp only [s3]
    split
    · rename_i hr
      exact (book_of_outside (formRegion_outside (L := [.fl, .pl]) (List.Subset.refl _) _ _ _ hr)).trans rfl
    · rfl
  exact (foldl_keeps book _ (fun t sh => book_of_outside (formReserve_outside (L := [.pl, .fl]) (List.Subset.refl _) sh t)) _ _).trans (h3.trans h2)

theorem book_retireAll (s : State) : book (retireAll s) = book s := by
  unfold retireAll
  exact (foldl_keeps book _ (fun t p => book_recyclePen p t) _ _).trans (foldl_keeps book _ (fun t p => book_retirePen p t) _ _)

/-- The media and the tables when a sanitize's erasures are done: nothing mapped, nothing stored. -/
def erased (s : State) : State := if s.zn.sanit = 2 then retireAll (wipeData s) else checkpoint (eraseAll (wipeData s))

theorem erased_after (s : State) : (erased s).zn.cmap = [] ∧ (erased s).zn.store = [] ∧
    (s.zn.sanit = 1 → (erased s).jn.checkpoints = s.jn.checkpoints + 1) := by
  obtain ⟨hmap, hstore, hjn⟩ := wipeData_after s
  unfold erased
  split
  · next h2 =>
    have h := book_retireAll (wipeData s)
    exact ⟨(cmap_of_book h).trans hmap, (store_of_book h).trans hstore, fun h1 => absurd (h1.symm.trans h2) (by decide)⟩
  · have h := book_eraseAll (wipeData s)
    obtain ⟨hcp, -, -, hz, -⟩ := checkpoint_after (eraseAll (wipeData s))
    have he : (eraseAll (wipeData s)).jn = (wipeData s).jn := keeps_of_outside (x := .jn) (eraseAll_outside (List.Subset.refl _) _) (by decide)
    exact ⟨by rw [hz]; exact (cmap_of_book h).trans hmap, by rw [hz]; exact (store_of_book h).trans hstore, fun _ => by rw [hcp, he, hjn]⟩

/-! ### The end -/

/-- A sanitize that erased everything, warning bit 2 cleared. -/
def sanitized (s : State) : State :=
  setWarn 2 false { erased s with zn := { (erased s).zn with sanit := 0, sanFail := false, sstat := 1 }, jn := { (erased s).jn with sanitize := 0 } }

/-- A Block Erase that could not show block `b` erased. -/
def failedErase (b : Nat) (s : State) : State :=
  let t := updBk (b / 8192) (b % 8192) (fun x => { x with st := .bad, role := .free }) (erased s)
  { t with zn := { t.zn with sanit := 0, sanFail := true, sstat := 3 }, jn := { t.jn with sanitize := 0 } }

section
variable {s : State} (hm : s.m.cur = .sanitize) (hs : s.zn.sanit ≠ 0) (hthm : ¬(s.zn.sanit = 1 ∧ s.m.thm = 2))
include hm hs hthm

theorem sanitizeEnd_done : exec (.sanitizeEnd none) s =
    .next (after (setMode (baseMode (reevalSpares (sanitized s))) (reevalSpares (sanitized s)))) := by
  show execSanitizeEnd none s = _
  rw [execSanitizeEnd, if_pos ⟨hm, hs, hthm⟩, ite_self]
  rfl

theorem sanitizeEnd_failed (h1 : s.zn.sanit = 1) (b : Nat) : exec (.sanitizeEnd (some b)) s =
    .next (after (setMode (baseMode (failedErase b s)) (reevalSpares (failedErase b s)))) := by
  have h2 : ¬ s.zn.sanit = 2 := by omega
  have he : erased s = checkpoint (eraseAll (wipeData s)) := if_neg h2
  show execSanitizeEnd (some b) s = _
  rw [execSanitizeEnd, if_pos ⟨hm, hs, hthm⟩]
  simp only [failedErase, he, if_neg h2]
  rfl

end

theorem setMode_zn (md : Mode) (s : State) : (setMode md s).zn = s.zn := setMode_keeps (x := .zn) (by decide) md s

theorem reevalSpares_zn (s : State) : (reevalSpares s).zn = s.zn := reevalSpares_keeps (x := .zn) (by decide) s

/-- The device after a sanitize: a base mode, no sanitize on record, its warning cleared. -/
theorem sanitized_after (s : State) : let u := setMode (baseMode (reevalSpares (sanitized s))) (reevalSpares (sanitized s))
    u.m.cur.isBase = true ∧ u.zn = { (erased s).zn with sanit := 0, sanFail := false, sstat := 1 } ∧ u.m.warn2 = false ∧ u.jn.sanitize = 0 ∧
      u.jn.checkpoints = (erased s).jn.checkpoints := by
  intro u
  obtain ⟨hwarn, hsan, hcp⟩ := reevalSpares_after (sanitized s)
  refine ⟨?_, ?_, ?_, ?_, ?_⟩
  · simp only [u, setMode_cur]
    exact baseMode_isBase _
  · exact (setMode_zn ..).trans ((reevalSpares_zn _).trans (setWarn_zn ..))
  · exact (setMode_warn2 ..).trans (hwarn.trans (setWarn_clears _))
  · exact (congrArg Jrn.sanitize (setMode_jn ..)).trans (hsan.trans ((congrArg Jrn.sanitize (setWarn_jn ..)).trans rfl))
  · exact (congrArg Jrn.checkpoints (setMode_jn ..)).trans (hcp.trans ((congrArg Jrn.checkpoints (setWarn_jn ..)).trans rfl))

/-! ## O28 -/

/-- An admin command of a physical function that a sanitize does not stop, ending with a completion. -/
theorem pf_ends {c : Cmd} {s s1 : State} {k : Ctx} (ht : taken c s = some (k, s1)) (hp : plainForm k) (hf : isPf c.fn = true)
    {f : Ctx → State → State} {sct sc dw0 : Nat} {data : List Byte} {u0 : State} (he : f (dispatch k) s1 = postFull (dispatch k) sct sc dw0 0 data u0) :
    ∃ u, done (withCmd c s (fun k s => gateAdmin (isPf c.fn) true k s f)) = .next (after u) ∧ endsWith k sct sc dw0 data u0 u :=
  ⟨f (dispatch k) s1, by rw [withCmd_taken ht, hf, gateAdmin_dispatch hp, done_after], by rw [he]; exact endsWith_dispatch ..⟩

/-- One that a sanitize stops, with none in the way. -/
theorem pf_ends_plain {c : Cmd} {s s1 : State} {k : Ctx} (ht : taken c s = some (k, s1)) (hp : plainForm k) (hn : notSanitizing s1)
    (hf : isPf c.fn = true) {f : Ctx → State → State} {sct sc dw0 : Nat} {data : List Byte} {u0 : State}
    (he : f (dispatch k) s1 = postFull (dispatch k) sct sc dw0 0 data u0) :
    ∃ u, done (withCmd c s (fun k s => gateAdmin (isPf c.fn) false k s f)) = .next (after u) ∧ endsWith k sct sc dw0 data u0 u :=
  ⟨f (dispatch k) s1, by rw [withCmd_taken ht, hf]; exact congrArg done (gateAdmin_plain hp hn f), by rw [he]; exact endsWith_dispatch ..⟩

/-- Settles O28: a sanitize begins by `sanitizing`, ends by `erased`; a Format discards the namespace's zones. -/
theorem sanitizeAndFormat : Obligations.SanitizeAndFormat := by
  unfold Obligations.SanitizeAndFormat
  refine ⟨fun c s s1 k ht hp hf => ?_, fun s hm hs hthm => ⟨?_, fun b h1 => ?_⟩⟩
  · obtain rfl := taken_cmd ht
    refine ⟨fun hm => ⟨?_, ?_, ?_, ?_⟩, fun hm => ⟨?_, ?_, ?_⟩, fun x hn hx hz hall hses hlbaf hsp => ?_⟩
    · obtain ⟨u, hu, he⟩ := pf_ends ht hp hf (sanitizeOn_begins (k := dispatch k) hm 1)
      obtain ⟨hcur, hkind, hjn, hkeys, -⟩ := sanitizing_after 1 (dispatch k) s1
      exact ⟨_, u, hu, he, hcur, hkind, hjn, (congrArg Ciph.nsKeys hkeys).trans rfl⟩
    · obtain ⟨u, hu, he⟩ := pf_ends ht hp hf (sanitizeOn_begins (k := dispatch k) hm 2)
      obtain ⟨hcur, hkind, hjn, hkeys, hgrows⟩ := sanitizing_after 2 (dispatch k) (cryptoErase s1)
      obtain ⟨hslots, hbind, hraised⟩ := cryptoErase_after s1
      exact ⟨_, u, hu, he, hcur, hkind, hjn, (congrArg Ciph.keys hkeys).trans hslots, (congrArg Ciph.bind hkeys).trans hbind, raises_mono hgrows hraised⟩
    · exact pf_ends ht hp hf (by rw [if_neg (by simpa using hm)]; rfl)
    · exact pf_ends ht hp hf (by rw [if_neg (by simpa using hm)]; rfl)
    · exact pf_ends ht hp hf (sanitizeOn_again hm 1)
    · exact pf_ends ht hp hf (sanitizeOn_again hm 2)
    · exact pf_ends ht hp hf (by rw [if_pos (by simpa using hm)]; rfl)
    · obtain ⟨u, hu, he⟩ := pf_ends_plain ht hp hn hf (formatOn_one (k := dispatch k) hn hsp hx hall hses hlbaf)
      obtain ⟨hy, hempty⟩ := formatNs_zoned hx hz _ _
      exact ⟨_, u, _, hu, he, hy, rfl, rfl, rfl, hempty⟩
  · obtain ⟨hcur, hz, hw, hj, hc⟩ := sanitized_after s
    obtain ⟨hmap, hstore, hcp⟩ := erased_after s
    exact ⟨_, sanitizeEnd_done hm hs hthm, hcur, by rw [hz], by rw [hz], hj, by rw [hz]; exact hmap, by rw [hz]; exact hstore, hw,
      fun h1 => hc.trans (hcp h1)⟩
  · have hz : ∀ md, (setMode md (reevalSpares (failedErase b s))).zn = (failedErase b s).zn := fun md => (setMode_zn ..).trans (reevalSpares_zn _)
    obtain ⟨hmap, hstore, -⟩ := erased_after s
    refine ⟨_, sanitizeEnd_failed hm hs hthm h1 b, ?_, by rw [hz]; rfl, by rw [hz]; exact hmap, by rw [hz]; exact hstore⟩
    rw [setMode_cur]
    exact baseMode_isBase _

end Sys2Proof.Machine

/-! O29. What the zone manager does on its own. -/

namespace Sys2Proof.Machine
open Sys2Proof

/-! ## A zone finished by the controller (R119) -/

/-- The functions of a list are shown the zone in their Changed Zone Lists and told of it where they enabled the notice. -/
def noticeZone (nsid zslba : Nat) (fs : List Nat) (s : State) : State :=
  let t := fs.foldl (fun s f => updFn f (fun n => { n with
    changed := if n.changed.contains (nsid, zslba) then n.changed else n.changed ++ [(nsid, zslba)] }) s) s
  fs.foldl (fun s f => if (fnOf f s).en && bit (fnOf f s).feats.aec 27 then aenFn f 2 0xEF 0xBF s else s) t

theorem noticeZone_after (nsid zslba : Nat) (fs : List Nat) (s : State) :
    (noticeZone nsid zslba fs s).zn = s.zn ∧ (noticeZone nsid zslba fs s).stb = s.stb := by
  have haen : ∀ f t, (aenFn f 2 0xEF 0xBF t).stb = t.stb := fun f t => by
    unfold aenFn
    split
    · rfl
    · exact deliverAen_stb ..
  unfold noticeZone
  extract_lets t
  have hz : t.zn = s.zn := foldl_keeps State.zn _ (fun t f => by unfold updFn; rfl) _ _
  have hb : t.stb = s.stb := foldl_keeps State.stb _ (fun t f => by unfold updFn; rfl) _ _
  constructor
  · refine (foldl_keeps State.zn _ (fun t f => ?_) _ _).trans hz
    split
    · exact keeps_of_outside (x := .zn) (aenFn_outside (L := [.q, .stb, .ci]) (List.Subset.refl _) ..) (by decide)
    · rfl
  · refine (foldl_keeps State.stb _ (fun t f => ?_) _ _).trans hb
    split
    · exact haen ..
    · rfl

/-- The zone Full with ZFC, and 0x3001. -/
def finishedShort (z : Nat) (q : Zone) (s : State) : State :=
  raise 0x3001 1 [h2 z, h2 (q.wp / 2)] (updZone z (fun q => { q with zfc := true }) (sealAfter z (makeFull z s)))

theorem zoneFinishedByController_after {z : Nat} {s : State} {q : Zone} (hq : zoneAt? z s = some q) (hst : q.st.active = true)
    (hr : q.activeRes = true) (hleft : unitsLeft q s < zoneUnits s.fl.geom) :
    ∃ fs, exec (.zoneFinishedByController z) s = .next (after (noticeZone q.nsid q.zslba fs (finishedShort z q s))) := by
  refine ⟨match nsAt? q.nsid s with | some n => n.attached | none => [], ?_⟩
  show execZoneFinishedByController z s = _
  simp only [execZoneFinishedByController, hq, hst, hr, hleft]
  rfl

theorem finishedShort_zone {z : Nat} {s : State} {q : Zone} (hq : zoneAt? z s = some q) :
    (zoneAt? z (finishedShort z q s)).map (fun x => (x.st, x.zfc)) = some (.full, true) := by
  obtain ⟨runs, hr⟩ := zoneAt_makeFull hq
  have hst : (zoneAt? z (sealAfter z (makeFull z s))).map (·.st) = some .full := by
    rw [zoneAt_sealAfter z _ (·.st) (fun _ _ => rfl), hr]
    rfl
  show (zoneAt? z (updZone z (fun q => { q with zfc := true }) (sealAfter z (makeFull z s)))).map _ = _
  rw [zoneAt_updZone, Option.map_map]
  obtain ⟨x, hx, hfull⟩ := Option.map_eq_some_iff.1 hst
  rw [hx]
  exact congrArg (fun t => some (t, true)) hfull

/-! ## Scrubs (R123) -/

/-- The state in which a scrub has left the list, its zone's mark and its break with it. -/
def scrubOver (z : Nat) (sc : Scrub) (s : State) : State :=
  let s1 := { s with zn := { s.zn with scrubs := s.zn.scrubs.erase sc } }
  let s2 := if s1.zn.scrubs.any (fun c => c.zone == z) then s1 else updZone z (fun q => { q with scrubPend := false }) s1
  let s3 := if sc.broke && !(s2.zn.scrubs.any (fun c => c.broke && c.yard == sc.yard)) then endBreak 0x3022 (some sc.yard) s2 else s2
  raise 0x3020 0 [h2 z, h2 sc.erased, h2 ((s.tm.elapsed - sc.startUs) / 1000)] s3

theorem scrubOver_scrubs (z : Nat) (sc : Scrub) (s : State) : (scrubOver z sc s).zn.scrubs = s.zn.scrubs.erase sc := by
  unfold scrubOver
  extract_lets _ s1 s2 s3
  have h2 : s2.zn.scrubs = s1.zn.scrubs := by simp only [s2]; split <;> rfl
  have hbreak : ∀ y t, (endBreak 0x3022 y t).zn = t.zn := fun y t =>
    keeps_of_outside (x := .zn) (endBreak_outside (L := [.stb, .cad]) (List.Subset.refl _) ..) (by decide)
  have h3 : s3.zn.scrubs = s2.zn.scrubs := by
    simp only [s3]
    split
    · rw [hbreak]
    · rfl
  exact h3.trans h2

/-- The completion of the command that waits for a scrub, if it is still there. -/
def scrubAnswered (z : Nat) (sc : Scrub) (s : State) : State :=
  match sc.ctx.bind (fun q => ctxAt q s) with
  | some k => if k.wait == .scrub z then ok k s else s
  | none => s

theorem scrubAnswered_after (z : Nat) (sc : Scrub) (s : State) : (scrubAnswered z sc s).zn = s.zn ∧ (scrubAnswered z sc s).stb = s.stb := by
  unfold scrubAnswered
  split
  · split
    · exact ⟨keeps_of_outside (x := .zn) (ok_outside (L := [.q, .stb, .ci]) (List.Subset.refl _) ..) (by decide), postFull_stb ..⟩
    · exact ⟨rfl, rfl⟩
  · exact ⟨rfl, rfl⟩

theorem scrubComplete_after {z : Nat} {s : State} {sc : Scrub} (hsc : s.zn.scrubs.find? (fun c => c.zone == z) = some sc) (hb : sc.blocks = []) :
    exec (.scrubComplete z) s = .next (after (scrubAnswered z sc (scrubOver z sc s))) := by
  show execScrubComplete z s = _
  simp only [execScrubComplete, hsc, hb]
  rfl

/-- The state in which a scrub has broken the schedule. -/
def scrubBroken (z : Nat) (sc : Scrub) (s : State) : State :=
  raise 0x3022 1 [h2 z] { s with zn := { s.zn with scrubs := updWhere (fun c => c == sc) (fun c => { c with broke := true }) s.zn.scrubs } }

theorem scrubScheduleBreakExpiry_after {z : Nat} {s : State} {sc : Scrub} (hsc : s.zn.scrubs.find? (fun c => c.zone == z) = some sc)
    (hb : sc.broke = false) : exec (.scrubScheduleBreakExpiry z) s = .next (after (reportBreak 0x3022 (some sc.yard) (scrubBroken z sc s))) := by
  show execScrubScheduleBreakExpiry z s = _
  simp only [execScrubScheduleBreakExpiry, hsc, hb]
  rfl

/-- A change that leaves what a search asks of an element finds the changed element. -/
theorem find?_updWhere {α : Type} {p w : α → Bool} {g : α → α} (hg : ∀ x, p (g x) = p x) (l : List α) :
    (updWhere w g l).find? p = (l.find? p).map (fun x => if w x then g x else x) := by
  unfold updWhere
  rw [List.find?_map]
  congr 2
  funext x
  by_cases hw : w x = true <;> simp [hw, hg]

theorem scrubBroken_broke {z : Nat} {s : State} {sc : Scrub} (hsc : s.zn.scrubs.find? (fun c => c.zone == z) = some sc) :
    ((scrubBroken z sc s).zn.scrubs.find? (fun c => c.zone == z)).map (·.broke) = some true := by
  show ((updWhere (fun c => c == sc) (fun c => { c with broke := true }) s.zn.scrubs).find? (fun c => c.zone == z)).map (·.broke) = _
  rw [find?_updWhere (by intro x; rfl), hsc]
  simp

theorem grows_reportBreak (cause : Nat) (y : Option Nat) (s : State) : grows s (reportBreak cause y s) := by
  unfold reportBreak
  split
  · exact grows_refl s
  · extract_lets _ s1
    have h1 : grows s s1 := grows_raise ..
    split
    · exact h1
    · exact h1

/-! ## Scrubbing Reset (R123) -/

theorem scrubOn_one {k : Ctx} {s : State} {n : Ns} {z : Nat} {q : Zone} (h : sendsTo k s n z q) (hsc : k.snap.scrub = true) (hst : q.st ≠ .offline) :
    scrubOn k s = beginScrub z (some k.seq) (putCtx { k with wait := .scrub z, dispatched := true } (resetZone z s)) := by
  obtain ⟨hw, -, -, hall, -⟩ := id h
  simp [scrubOn, hw, hsc, hall, sendOn_one h, hst]

theorem resetZone_empty {z : Nat} {s : State} {q : Zone} (hq : zoneAt? z s = some q) : (zoneAt? z (resetZone z s)).map (·.st) = some .empty := by
  rw [resetZone_eq hq]
  split
  · next he => rw [hq, Option.map_some, he]
  · rw [zoneAt_discardZone, hq]
    rfl

/-- A scrub that begins marks its zone and stands in the list. -/
theorem beginScrub_after (z : Nat) (ctx : Option Nat) (s : State) : ∃ sc, sc.zone = z ∧ sc.ctx = ctx ∧
    book (beginScrub z ctx s) = book (updZone z (fun q => { q with scrubPend := true }) { s with zn := { s.zn with scrubs := s.zn.scrubs ++ [sc] } }) := by
  unfold beginScrub
  extract_lets pens bl sc _ s1
  refine ⟨sc, rfl, rfl, (foldl_keeps book _ (fun t p => ?_) _ _).trans rfl⟩
  split
  · exact book_retirePen p t
  · rfl

/-- Settles O29: a zone left short becomes Full, and a scrub enters its list, breaks the schedule and leaves it. -/
theorem zoneEvents : Obligations.ZoneEvents := by
  unfold Obligations.ZoneEvents
  refine fun z s => ⟨fun q hq hst hr hleft => ?_, fun sc hsc => ⟨fun hb => ?_, fun hb => ?_⟩, fun c s1 k n q ht hp hn h hperm hst => ?_⟩
  · obtain ⟨fs, he⟩ := zoneFinishedByController_after hq hst hr hleft
    obtain ⟨hz, hb⟩ := noticeZone_after q.nsid q.zslba fs (finishedShort z q s)
    refine ⟨_, he, ?_, raises_of_eq (congrArg Stb.raised hb) (raises_raise ..)⟩
    rw [zoneAt?, hz]
    exact finishedShort_zone hq
  · obtain ⟨hz, hstb⟩ := scrubAnswered_after z sc (scrubOver z sc s)
    exact ⟨_, scrubComplete_after hsc hb, by rw [hz, scrubOver_scrubs], raises_of_eq (congrArg Stb.raised hstb) (raises_raise ..)⟩
  · have hz : (reportBreak 0x3022 (some sc.yard) (scrubBroken z sc s)).zn = (scrubBroken z sc s).zn :=
      keeps_of_outside (x := .zn) (reportBreak_outside (L := [.pl, .stb, .cad]) (List.Subset.refl _) ..) (by decide)
    exact ⟨_, scrubScheduleBreakExpiry_after hsc hb, raises_mono (grows_reportBreak ..) (raises_raise ..), by rw [hz]; exact scrubBroken_broke hsc⟩
  · obtain ⟨-, -, -, -, -, -, -, hq⟩ := id h
    have hrun := doneIo_gateIo ht hp hn scrubOn
    obtain ⟨sc, hzone, hctx, hbook⟩ := beginScrub_after z (some k.seq) (putCtx { k with wait := .scrub z, dispatched := true } (resetZone z s1))
    rw [scrubOn_one h hperm hst] at hrun
    refine ⟨_, hrun, ?_, sc, ?_, hzone, hctx⟩
    · obtain ⟨x, hx, he⟩ := Option.map_eq_some_iff.1 (resetZone_empty hq)
      rw [zoneAt_of_book hbook, zoneAt_updZone, Option.map_map]
      show Option.map _ (zoneAt? z (resetZone z s1)) = _
      rw [hx]
      exact congrArg (fun t => some (t, true)) he
    · rw [scrubs_of_book hbook]
      exact List.mem_append_right _ (List.mem_singleton.2 rfl)

end Sys2Proof.Machine

/-! O31. Garbage collection and the work of the Yards. -/

namespace Sys2Proof.Machine
open Sys2Proof

/-! ## The turns of background work -/

/-- A busy turn in which background work is allowed is a turn for any cause. -/
theorem turnFor_of_busy {s : State} (cause y : Nat) (ha : bgAllowed s = true) (hb : busyTurn s = true) : turnFor cause y s = true := by
  simp [turnFor, ha, hb]

/-- Neither READ_ONLY nor THM = 0b10 leaves the one-bit Pens background work. -/
theorem bgSlc_stopped {s : State} (h : s.m.sparesOut = true ∨ s.m.thm = 2) : bgSlc s = false := by
  rcases h with h | h <;> simp [bgSlc, h]

/-! ## CONVENTIONAL_GARBAGE_COLLECTION (R133) -/

theorem map_mapIdx_key {α : Type} (f : Nat → α → MvU) (key : α → Nat) (h : ∀ j u, (f j u).k = key u) (l : List α) :
    (l.mapIdx f).map (·.k) = l.map key := by
  apply List.ext_getElem <;> simp [h]

/-- The items of a copy in chunks name the units copied, in their order. -/
theorem copyChunks_keys {α : Type} {seq : Nat} {dst : State → Option (Nat × State)} {room : Nat → Nat} {item : Nat → Nat → α → MvU}
    {srcs : α → List (Nat × Nat)} {key : α → Nat} (hk : ∀ id n u, (item id n u).k = key u) :
    ∀ {fuel : Nat} {us : List α} {s : State} {r : List MvU × State}, copyChunks seq dst room item srcs fuel us s = some r →
      r.1.map (·.k) = us.map key := by
  intro fuel
  induction fuel with
  | zero =>
    intro us s r h
    cases us with
    | nil => obtain rfl : ([], s) = r := by simpa [copyChunks] using h
             rfl
    | cons u us => simp [copyChunks] at h
  | succ fuel ih =>
    intro us s r h
    cases us with
    | nil => obtain rfl : ([], s) = r := by simpa [copyChunks] using h
             rfl
    | cons u us =>
      unfold copyChunks at h
      split at h
      · cases h
      case h_2 id s1 hdst =>
        obtain ⟨q, hq, rfl⟩ := Option.map_eq_some_iff.mp h
        rw [List.map_append, ih hq, map_mapIdx_key _ key (fun _ _ => hk ..), ← List.map_append, List.take_append_drop]

/-- A move of a conventional Pen is one move of all its valid units, the hot ones first. -/
theorem startConvMove_move {p : Nat} {s t : State} (h : startConvMove p s = some t) :
    ∃ m ∈ t.pl.moves, m.src = p ∧ m.kind = .conv ∧
      m.items.map (·.k) = (validUnits p s).filter (fun u => decide (2 ≤ heatMoved u s)) ++
        (validUnits p s).filter (fun u => decide (heatMoved u s < 2)) := by
  unfold startConvMove at h
  extract_lets us s0 seq one at h
  split at h
  · cases h
  case h_2 a s1 ha =>
    obtain ⟨r, hr, rfl⟩ := Option.map_eq_some_iff.mp h
    refine ⟨⟨p, 0, .conv, a ++ r.1, r.2.pl.moveSeq⟩, by simp [addMove], rfl, rfl, ?_⟩
    have hot := copyChunks_keys (key := id) (fun _ _ _ => rfl) ha
    have cold := copyChunks_keys (key := id) (fun _ _ _ => rfl) hr
    rw [List.map_append, hot, cold, List.map_id, List.map_id]

theorem exec_conventionalGarbageCollection_moves {p : Nat} {s t : State} (hbg : bgSlc s = true) (hall : bgAllowed s = true)
    (hpens : s.pl.convPens ≠ []) (hbusy : busyTurn s = true) (hfree : convFree s < 3) (hv : gcVictim s = some p)
    (ht : startConvMove p s = some t) : exec .conventionalGarbageCollection s = .next (afterIo (afterStart t)) := by
  change execConventionalGarbageCollection s = _
  unfold execConventionalGarbageCollection
  simp only [hbg, hbusy, hfree, List.isEmpty_eq_false_iff.mpr hpens, turnFor_of_busy _ _ hall hbusy, hv, ht, decide_true, Bool.not_true,
    Bool.true_or, Bool.or_self, Bool.and_false, Bool.false_and, Bool.false_eq_true, if_false, Option.bind_some]
  rfl

theorem exec_conventionalGarbageCollection_stopped {s : State} (h : bgSlc s = false) : exec .conventionalGarbageCollection s = .next s := by
  change execConventionalGarbageCollection s = _
  simp [execConventionalGarbageCollection, h]

/-- The map-commit of a unit that still stands where the move found it. -/
theorem commitItem_conv {src : Nat} {i : MvU} {e : CMap} {s : State} (he : Tbl.get? s.zn.cmap i.k = some e) (hp : e.pen = src)
    (hs : e.slot = i.gen) :
    Tbl.get? (commitItem src .conv i s).zn.cmap i.k = some ⟨e.heat - 1, i.pen, i.slot / 4, e.lost⟩ := by
  unfold commitItem
  simp only [he, hp, hs, and_self, if_true]
  unfold putMap
  rw [keeps_of_outside (x := .zn) (mapWrite_outside (L := [.ecc, .stb, .free]) (List.Subset.refl _) ..) (by decide)]
  exact Tbl.get?_put_same ..

/-! ## FOLD, PADDOCK_COMPACTION and RELOCATION (R143, R148, R149, R154) -/

/-- FOLD of a zone whose next unit lies whole in the Paddock and staging, in its turn: the unit is queued and its Paddock sources are read. -/
theorem exec_fold_queues {zone : Nat} {q : Zone} {s : State} (hz : zoneAt? zone s = some q) (hbg : bgQlc s = true)
    (hturn : turnFor 0x3044 q.yard s = true) (hU : 0 < unitPos s.fl.geom) (hw : (nextUnit zone q s + 1) * unitPos s.fl.geom ≤ q.wp)
    (hpad : inPaddock zone s = true) (hut : unitTurn zone (nextUnit zone q s) q s = true)
    (hthere : unitThere zone (nextUnit zone q s) q s = true) :
    exec (.fold zone) s = .next (afterIo (readSources
      (fun w => match w with | .unit a b _ true => a == zone && b == nextUnit zone q s | _ => false) s.fl.nextOp
      (((piecesOf zone s).filter (fun e => decide (e.1 / unitPos s.fl.geom = nextUnit zone q s) &&
        (match penOf? e.2.pen s with | some p => p.kind.oneBit | none => false))).map (fun e => (zone, e.1)))
      (queueUnit zone (nextUnit zone q s) true s))) := by
  change execFold zone s = _
  unfold execFold
  simp only [hz, hbg, hturn, hU, hw, hpad, hut, hthere, decide_true, Bool.true_or, Bool.and_self, if_true]
  rfl

theorem exec_fold_stopped {zone : Nat} {s : State} (h : bgQlc s = false) : exec (.fold zone) s = .next s := by
  change execFold zone s = _
  unfold execFold
  cases zoneAt? zone s <;> simp [h]

/-- With landing space enough and no Pen marked for refresh, PADDOCK_COMPACTION only retires what is dead. -/
theorem exec_paddockCompaction_enough {yard : Nat} {s : State} (hbg : bgSlc s = true) (hturn : turnFor 0x3044 yard s = true)
    (hspace : yardShare yard (retireDead yard s) ≤ 2 * freeLanding yard (retireDead yard s))
    (hmark : ∀ p ∈ pensIn yard .landing (retireDead yard s), p.2.refresh = false) :
    exec (.paddockCompaction yard) s = .next (afterIo (retireDead yard s)) := by
  change execPaddockCompaction yard s = _
  unfold execPaddockCompaction
  extract_lets s1 cand marked
  have hm : marked = [] := List.filter_eq_nil_iff.mpr fun p hp => by simp [hmark p (List.mem_filter.mp hp).1]
  simp only [hbg, hturn, hm, Nat.not_lt.mpr hspace, s1, Bool.and_self, if_true, List.isEmpty_nil, Bool.not_true, Bool.false_or,
    decide_false, Bool.false_eq_true, if_false]
  rfl

theorem exec_paddockCompaction_stopped {yard : Nat} {s : State} (h : bgSlc s = false) : exec (.paddockCompaction yard) s = .next s := by
  change execPaddockCompaction yard s = _
  simp [execPaddockCompaction, h]

theorem relocTurn_of_busy {pen : Nat} {p : Pen} {s : State} (ha : bgAllowed s = true) (hb : busyTurn s = true) : relocTurn pen p s = true := by
  simp [relocTurn, ha, hb]

section
variable {pen : Nat} {p : Pen} {s : State} (hp : penOf? pen s = some p) (hidle : penIdle pen s = true) (hkind : p.kind = .host)
  (hturn : relocTurn pen p s = true)
include hp hidle hkind hturn

/-- RELOCATION of a host Pen without live data retires it. -/
theorem exec_relocation_retires (hlive : livePieces pen s = []) (hres : penReserved pen s = 0) (hbase : s.m.cur.isBase = true)
    (hst : p.st ≠ .erased) : exec (.relocation pen) s = .next (afterIo (settleRows (retirePen pen s))) := by
  have hst' : (p.st != .erased) = true := by simpa using hst
  change execRelocation pen s = _
  unfold execRelocation
  simp only [hp, hidle, hkind, hturn, hlive, hres, hbase, hst', List.isEmpty_nil]
  rfl

/-- RELOCATION of a host Pen with live data starts its move. -/
theorem exec_relocation_moves {t : State} (hlive : livePieces pen s ≠ []) (hbg : bgQlc s = true) (hn : (yardOf p.yard s).relocs < 4)
    (hfirst : relocFirst pen p s = true) (ht : startMove pen p .reloc s = some t) :
    exec (.relocation pen) s = .next (afterIo (afterStart (updYard p.yard (fun c => { c with relocs := c.relocs + 1 }) t))) := by
  have hlive' : (livePieces pen s).isEmpty = false := List.isEmpty_eq_false_iff.mpr hlive
  have hn' : decide (4 ≤ (yardOf p.yard s).relocs) = false := decide_eq_false (by omega)
  change execRelocation pen s = _
  unfold execRelocation
  simp only [hp, hidle, hkind, hturn, hlive', hbg, hn', hfirst, ht]
  rfl
end

theorem exec_relocation_unknown {pen : Nat} {s : State} (h : penOf? pen s = none) : exec (.relocation pen) s = .next s := by
  change execRelocation pen s = _
  simp only [execRelocation, h]

/-! ## WEAR_LEVELLING and LANDING_SPACE_RETURNS (R158, R150) -/

/-- A Yard whose wear levelling starts, with the record of it. -/
def wearStart (yard : Nat) (s : State) : State :=
  raise 0x3060 0 [h1 yard, h2 (wearSpread yard s)] (updYard yard (fun c => { c with wlActive := true }) s)

theorem wearSpread_wearStart (yard : Nat) (s : State) : wearSpread yard (wearStart yard s) = wearSpread yard s := rfl

theorem wearSource_wearStart (yard : Nat) (s : State) : wearSource yard (wearStart yard s) = wearSource yard s := rfl

theorem yardOf_wearStart (yard : Nat) (s : State) : yardOf yard (wearStart yard s) = { yardOf yard s with wlActive := true } :=
  yardOf_updYard yard (fun c => { c with wlActive := true }) s

/-- Wear levelling that starts past its bound does not end in the same step. -/
theorem wearEnds_wearStart {yard : Nat} {s : State} (h : (yardOf yard s).wlSpread < wearSpread yard s) :
    wearEnds yard (wearStart yard s) = wearStart yard s := by
  unfold wearEnds
  rw [yardOf_wearStart, wearSpread_wearStart, decide_eq_false (by dsimp only; omega), Bool.and_false]
  rfl

theorem exec_wearLevelling_starts {yard : Nat} {s : State} (hbg : bgQlc s = true) (hall : bgAllowed s = true) (hbusy : busyTurn s = true)
    (hoff : (yardOf yard s).wlActive = false) (hpast : (yardOf yard s).wlSpread < wearSpread yard s) (hmoves : s.pl.moves = [])
    (hsrc : wearSource yard s = none) : exec (.wearLevelling yard) s = .next (after (wearStart yard s)) := by
  have hm : (wearStart yard s).pl.moves = [] := hmoves
  change execWearLevelling yard s = _
  unfold execWearLevelling
  extract_lets sp c s1
  have hs1 : s1 = wearStart yard s := by
    simp only [s1, c, hoff]
    exact wearEnds_wearStart hpast
  rw [hs1]
  simp only [hbg, hall, hbusy, hoff, hpast, hm, c, sp, yardOf_wearStart, wearSource_wearStart, hsrc, decide_true, Bool.or_true, Bool.and_self,
    if_true, Bool.not_true, Bool.false_or, List.any_nil, Option.bind_none]
  split <;> rfl

theorem exec_wearLevelling_stopped {yard : Nat} {s : State} (h : bgQlc s = false) : exec (.wearLevelling yard) s = .next s := by
  change execWearLevelling yard s = _
  simp [execWearLevelling, h]

/-- A Yard with landing space again: the transfers of its waiting writes may start. -/
def landingBack (yard : Nat) (s : State) : State :=
  let s1 := updYard yard (fun c => { c with noLanding := false }) s
  { s1 with zn := { s1.zn with wrs := updWhere (fun w => w.yard == yard) (fun w => { w with xferWait := false }) s1.zn.wrs } }

theorem landingBack_writes {yard : Nat} {s : State} {w : Wr} (hw : w ∈ (landingBack yard s).zn.wrs) (hy : w.yard = yard) :
    w.xferWait = false := by
  obtain ⟨x, -, rfl⟩ := List.mem_map.mp hw
  by_cases hx : x.yard = yard
  · simp [hx]
  · simp [hx] at hy

theorem exec_landingSpaceReturns_places {yard : Nat} {s : State} (hno : (yardOf yard s).noLanding = true)
    (hback : noLandingSpace yard s = false) :
    exec (.landingSpaceReturns yard) s = .next (afterIo (placeWaiting yard (landingBack yard s))) := by
  change execLandingSpaceReturns yard s = _
  unfold execLandingSpaceReturns
  simp only [hno, hback]
  rfl

/-- Settles O31: each row's branch is followed as its guards choose it; a move of a conventional Pen copies the hot units, then the cold
ones, as one list, and wear levelling that starts past WL_SPREAD cannot meet its end, 3/4 of it, in the same step. -/
theorem garbageAndYardWork : Obligations.GarbageAndYardWork := by
  refine ⟨fun s => ⟨?_, ?_, ?_⟩, fun s zone yard pen => ⟨?_, ?_, ?_, ?_, ?_, ?_, ?_, ?_⟩⟩
  · intro p t hbg hall hpens hbusy hfree hv ht
    exact ⟨exec_conventionalGarbageCollection_moves hbg hall hpens hbusy hfree hv ht, startConvMove_move ht⟩
  · exact fun h => exec_conventionalGarbageCollection_stopped (bgSlc_stopped h)
  · exact fun src i e he hp hs => commitItem_conv he hp hs
  · exact fun q hz hbg hturn hU hw hpad hut hthere => exec_fold_queues hz hbg hturn hU hw hpad hut hthere
  · exact fun h => ⟨exec_fold_stopped h, exec_wearLevelling_stopped h⟩
  · exact exec_paddockCompaction_enough
  · exact exec_paddockCompaction_stopped
  · intro p hp hidle hkind hall hbusy
    have hturn := relocTurn_of_busy (pen := pen) (p := p) hall hbusy
    exact ⟨exec_relocation_retires hp hidle hkind hturn, fun t => exec_relocation_moves hp hidle hkind hturn⟩
  · exact exec_relocation_unknown
  · intro hbg hall hbusy hoff hpast hmoves _ hsrc
    exact ⟨wearStart yard s, exec_wearLevelling_starts hbg hall hbusy hoff hpast hmoves hsrc, raises_raise ..,
      by rw [yardOf_wearStart], rfl⟩
  · intro hno hback
    exact ⟨landingBack yard s, exec_landingSpaceReturns_places hno hback, 
      congrArg YardS.noLanding (yardOf_updYard yard (fun c => { c with noLanding := false }) s),
      fun w hw hy => landingBack_writes hw hy⟩

end Sys2Proof.Machine

/-! O40. Queue commands, coalescing and failed host transfers. -/

namespace Sys2Proof.Machine
open Sys2Proof

/-! ## The queue commands (R222, R223, R235, R250) -/

section
variable {k : Ctx} {s : State}

/-- A Create of queue 0, or of one the function has not, names the wrong queue. -/
theorem createFault_absent (used : Bool) (h : qidOf k.cmd = 0 ∨ pairsOf k.cmd.fn s ≤ qidOf k.cmd) : createFault k used s = some (1, 0x01) := by
  rcases h with h | h <;> simp [createFault, h]

/-- A Create of an unused queue the function has, with a size, contiguous and aligned, has no fault in what both Creates check. -/
theorem createFault_none (hq : qidOf k.cmd ≠ 0) (hn : qidOf k.cmd < pairsOf k.cmd.fn s) (hsize : qsizeOf k.cmd ≠ 0)
    (hpc : bit k.cmd.cdw11.toNat 0 = true) (hptr : k.cmd.dptr % 2 ^ (12 + (fnOf k.cmd.fn s).mps) = 0) : createFault k false s = none := by
  simp [createFault, hq, hsize, hpc, hptr, Nat.not_le.mpr hn]

theorem createSqOn_fault {sct sc : Nat} (h : createFault k (Tbl.get? (fnOf k.cmd.fn s).sqs (qidOf k.cmd)).isSome s = some (sct, sc)) :
    createSqOn k s = fin k sct sc s := by
  simp only [createSqOn, h]

theorem createCqOn_fault {sct sc : Nat} (h : createFault k (Tbl.get? (fnOf k.cmd.fn s).cqs (qidOf k.cmd)).isSome s = some (sct, sc)) :
    createCqOn k s = fin k sct sc s := by
  simp only [createCqOn, h]

/-- The function's submission queues with the one a Create names, empty. -/
def sqMade (c : Cmd) (s : State) : State :=
  updFn c.fn (fun n => { n with
    sqs := Tbl.put n.sqs (qidOf c) ⟨qsizeOf c + 1, c.dptr, 0, 0, bits c.cdw11.toNat 31 16, bits c.cdw11.toNat 2 1⟩ }) s

/-- The function's completion queues with the one a Create names, empty. -/
def cqMade (c : Cmd) (s : State) : State :=
  updFn c.fn (fun n => { n with
    cqs := Tbl.put n.cqs (qidOf c) ⟨qsizeOf c + 1, c.dptr, 0, 0, true, bits c.cdw11.toNat 31 16, bit c.cdw11.toNat 1, [], 0⟩ }) s

/-- The function's completion queues without the one a Delete names. -/
def cqGone (c : Cmd) (s : State) : State := updFn c.fn (fun n => { n with cqs := Tbl.del n.cqs (qidOf c) }) s

theorem sqMade_sq (c : Cmd) (s : State) : Tbl.get? (fnOf c.fn (sqMade c s)).sqs (qidOf c) =
    some ⟨qsizeOf c + 1, c.dptr, 0, 0, bits c.cdw11.toNat 31 16, bits c.cdw11.toNat 2 1⟩ := by simp [sqMade]

theorem cqMade_cq (c : Cmd) (s : State) : Tbl.get? (fnOf c.fn (cqMade c s)).cqs (qidOf c) =
    some ⟨qsizeOf c + 1, c.dptr, 0, 0, true, bits c.cdw11.toNat 31 16, bit c.cdw11.toNat 1, [], 0⟩ := by simp [cqMade]

theorem cqGone_cq (c : Cmd) (s : State) : Tbl.get? (fnOf c.fn (cqGone c s)).cqs (qidOf c) = none := by simp [cqGone]

theorem createSqOn_makes (hf : createFault k false s = none) (hnew : Tbl.get? (fnOf k.cmd.fn s).sqs (qidOf k.cmd) = none)
    (hcq : bits k.cmd.cdw11.toNat 31 16 ≠ 0) (hhas : (Tbl.get? (fnOf k.cmd.fn s).cqs (bits k.cmd.cdw11.toNat 31 16)).isSome = true) :
    createSqOn k s = ok k (sqMade k.cmd s) := by
  have hno : (Tbl.get? (fnOf k.cmd.fn s).cqs (bits k.cmd.cdw11.toNat 31 16)).isNone = false := by simpa [← Option.not_isSome] using hhas
  simp only [createSqOn, hnew, Option.isSome_none, hf, hcq, hno, if_false, Bool.false_eq_true]
  rfl

theorem createCqOn_makes (hf : createFault k false s = none) (hnew : Tbl.get? (fnOf k.cmd.fn s).cqs (qidOf k.cmd) = none)
    (hiv : bits k.cmd.cdw11.toNat 31 16 < vectorsOf k.cmd.fn s) : createCqOn k s = ok k (cqMade k.cmd s) := by
  simp only [createCqOn, hnew, Option.isSome_none, hf, Nat.not_le.mpr hiv, if_false]
  rfl

theorem deleteCqOn_removes (hq : qidOf k.cmd ≠ 0) (hhas : (Tbl.get? (fnOf k.cmd.fn s).cqs (qidOf k.cmd)).isSome = true)
    (hfree : ∀ x ∈ (fnOf k.cmd.fn s).sqs, x.1 = 0 ∨ x.2.cq ≠ qidOf k.cmd) : deleteCqOn k s = ok k (cqGone k.cmd s) := by
  have hno : (Tbl.get? (fnOf k.cmd.fn s).cqs (qidOf k.cmd)).isNone = false := by simpa [← Option.not_isSome] using hhas
  have hany : (fnOf k.cmd.fn s).sqs.any (fun x => x.1 != 0 && x.2.cq == qidOf k.cmd) = false := by
    simpa [List.any_eq_false, Decidable.or_iff_not_imp_left] using hfree
  simp only [deleteCqOn, hq, hno, hany, Bool.false_eq_true, or_self, if_false]
  rfl

theorem deleteCqOn_attached {x : Nat × Sq} (hq : qidOf k.cmd ≠ 0) (hhas : (Tbl.get? (fnOf k.cmd.fn s).cqs (qidOf k.cmd)).isSome = true)
    (hx : x ∈ (fnOf k.cmd.fn s).sqs) (hx0 : x.1 ≠ 0) (hxq : x.2.cq = qidOf k.cmd) : deleteCqOn k s = fin k 1 0x0C s := by
  have hno : (Tbl.get? (fnOf k.cmd.fn s).cqs (qidOf k.cmd)).isNone = false := by simpa [← Option.not_isSome] using hhas
  have hany : (fnOf k.cmd.fn s).sqs.any (fun x => x.1 != 0 && x.2.cq == qidOf k.cmd) = true :=
    List.any_eq_true.mpr ⟨x, hx, by simp [hx0, hxq]⟩
  simp only [deleteCqOn, hq, hno, hany, Bool.false_eq_true, or_self, if_false, if_true]

theorem deleteSqOn_refuses (h : qidOf k.cmd = 0 ∨ sqLive k.cmd.fn (qidOf k.cmd) s = false) : deleteSqOn k s = fin k 1 0x01 s := by
  rcases h with h | h <;> simp [deleteSqOn, h]

/-- A Delete of a live submission queue none of whose commands is undispatched waits for them. -/
theorem deleteSqOn_waits (hq : qidOf k.cmd ≠ 0) (hlive : sqLive k.cmd.fn (qidOf k.cmd) s = true)
    (hnone : (ctxsOf k.cmd.fn s).filter (fun x => x.cmd.sqid == qidOf k.cmd && undispatched x s) = []) :
    deleteSqOn k s = putCtx { k with wait := .sqDelete (qidOf k.cmd) }
      (updFn k.cmd.fn (fun n => { n with sqs := Tbl.upd n.sqs (qidOf k.cmd) (fun x => { x with tail := x.head }) }) s) := by
  simp only [deleteSqOn, hq, hlive, hnone, Bool.not_true, Bool.false_eq_true, or_self, if_false, List.foldl_nil]
end

/-- An admin command that a sanitize does not stop and whose meaning is one completion on a later state ends with it. -/
theorem ends_after_of_postFull {c : Cmd} {s s1 t : State} {k : Ctx} (ht : taken c s = some (k, s1)) (hp : plainForm k)
    {f : Ctx → State → State} {sct sc dw0 : Nat} {data : List Byte} (hf : f (dispatch k) s1 = postFull (dispatch k) sct sc dw0 0 data t) :
    ∃ u, done (withCmd c s (fun k s => gateAdmin true true k s f)) = .next (after u) ∧ endsWith k sct sc dw0 data t u :=
  ⟨_, by rw [withCmd_taken ht, gateAdmin_dispatch hp, hf, done_after], endsWith_dispatch ..⟩

section
variable {c : Cmd} {s s1 : State} {k : Ctx} (ht : taken c s = some (k, s1)) (hp : plainForm k)
include ht hp

/-- Both Creates of a queue the function has not. -/
theorem creates_refuse (h : qidOf c = 0 ∨ pairsOf c.fn s1 ≤ qidOf c) :
    (∃ u, exec (.createIoSq c) s = .next (after u) ∧ endsWith k 1 0x01 0 [] s1 u) ∧
    (∃ u, exec (.createIoCq c) s = .next (after u) ∧ endsWith k 1 0x01 0 [] s1 u) := by
  obtain rfl := taken_cmd ht
  exact ⟨ends_of_postFull ht hp (f := createSqOn) (createSqOn_fault (k := dispatch k) (createFault_absent _ h)),
    ends_of_postFull ht hp (f := createCqOn) (createCqOn_fault (k := dispatch k) (createFault_absent _ h))⟩

/-- A Delete of a submission queue none of whose commands is undispatched. -/
theorem deleteIoSq_waits (hq : qidOf c ≠ 0) (hlive : sqLive c.fn (qidOf c) s1 = true)
    (hnone : (ctxsOf c.fn s1).filter (fun x => x.cmd.sqid == qidOf c && undispatched x s1) = []) :
    ∃ u, exec (.deleteIoSq c) s = .next (afterIo u) ∧ u.zn = s1.zn ∧ ∃ k', k'.cmd = k.cmd ∧ k'.seq = k.seq ∧ k'.wait = .sqDelete (qidOf c) ∧
      u.q.ctxs = s1.q.ctxs.map (fun x => if x.seq == k.seq then k' else x) := by
  obtain rfl := taken_cmd ht
  refine ⟨deleteSqOn (dispatch k) s1, ?_, ?_⟩
  · change doneIo _ = _
    rw [withCmd_taken ht, gateAdmin_dispatch hp, doneIo_after]
  · rw [deleteSqOn_waits (k := dispatch k) hq hlive hnone]
    exact ⟨rfl, { dispatch k with wait := .sqDelete (qidOf k.cmd) }, rfl, rfl, rfl, rfl⟩

theorem deleteIoSq_refuses (h : qidOf c = 0 ∨ sqLive c.fn (qidOf c) s1 = false) :
    ∃ u, exec (.deleteIoSq c) s = .next (afterIo u) ∧ endsWith k 1 0x01 0 [] s1 u := by
  obtain rfl := taken_cmd ht
  refine ⟨deleteSqOn (dispatch k) s1, ?_, ?_⟩
  · change doneIo _ = _
    rw [withCmd_taken ht, gateAdmin_dispatch hp, doneIo_after]
  · rw [deleteSqOn_refuses (k := dispatch k) h]
    exact endsWith_dispatch ..
end

/-! ## Coalescing (R228) -/

/-- An I/O queue on a vector with entries posted and not signalled. -/
def coalescing (vec : Nat) (q : Nat × Cq) : Bool := q.1 != 0 && q.2.iv == vec && decide (0 < q.2.coal)

/-- The queues of a vector have nothing left to signal. -/
def coalesced (fn vec : Nat) (s : State) : State :=
  updFn fn (fun n => { n with cqs := Tbl.mapV n.cqs (fun i c => if coalescing vec (i, c) then { c with coal := 0 } else c) }) s

theorem coalesced_coal {fn vec : Nat} {s : State} {q : Nat × Cq} (hq : q ∈ (fnOf fn (coalesced fn vec s)).cqs) (h0 : q.1 ≠ 0)
    (hv : q.2.iv = vec) : q.2.coal = 0 := by
  obtain ⟨x, -, rfl⟩ : ∃ x ∈ (fnOf fn s).cqs, (x.1, if coalescing vec x then { x.2 with coal := 0 } else x.2) = q := by
    simpa [coalesced, Tbl.mapV] using hq
  by_cases hx : coalescing vec x = true
  · simp [hx]
  · simp only [hx, Bool.false_eq_true, if_false] at h0 hv ⊢
    simpa [coalescing, h0, hv] using hx

/-- A signal of a vector that is not masked: one message more, nothing else of the function. -/
theorem fnOf_signal {fn vec : Nat} {s : State} (h : vecMasked (fnOf fn s) vec = false) :
    fnOf fn (signal fn vec s) = { fnOf fn s with msix := Tbl.put (fnOf fn s).msix vec (Tbl.getD (fnOf fn s).msix vec 0 + 1) } := by
  simp [signal, h]

theorem exec_coalescing_signals {fn vec : Nat} {s : State}
    (h : (fnOf fn s).cqs.any (fun q => q.1 != 0 && q.2.iv == vec && decide (0 < q.2.coal) && q.2.ien) = true) :
    exec (.interruptCoalescingTimeExpiry fn vec) s = .next (after (signal fn vec (coalesced fn vec s))) := by
  have hmine : (fnOf fn s).cqs.any (coalescing vec) = true := by
    obtain ⟨q, hq, hm⟩ := List.any_eq_true.mp h
    exact List.any_eq_true.mpr ⟨q, hq, (Bool.and_eq_true_iff.mp hm).1⟩
  change execInterruptCoalescingTimeExpiry fn vec s = _
  unfold execInterruptCoalescingTimeExpiry
  extract_lets mine ien t
  have hm : (fnOf fn s).cqs.any mine = true := hmine
  have hi : ien = true := h
  rw [if_pos hm, if_pos hi]
  exact done_after _

/-! ## A failed host transfer (R118, R261) -/

theorem grows_landAll (y : Nat) : ∀ (fuel : Nat) (ps : List (Nat × Nat)) (s : State), grows s (landAll y fuel ps s)
  | _, [], s => by unfold landAll; exact grows_refl s
  | 0, _ :: _, s => grows_of_eq rfl
  | fuel + 1, p :: ps, s => by
    unfold landAll
    split
    · extract_lets s1
      have h1 : grows s s1 := grows_ite (grows_refl s) (grows_raise ..)
      exact h1
    case h_2 id t ht =>
      have h1 : grows s t := grows_keeps (keeps_of_outside (x := .stb) (landingPen_outside (List.Subset.refl _) ht) (by decide))
      have h2 : grows t (landChunk id ((p :: ps).take (wlRoom id t)) 3 t) :=
        grows_keeps (keeps_of_outside (x := .stb) (landChunk_outside (List.Subset.refl _) ..) (by decide))
      exact grows_trans h1 (grows_trans h2 (grows_landAll y fuel _ _))

theorem grows_placeWrite (id : Nat) (s : State) : grows s (placeWrite id s) := by
  unfold placeWrite
  split
  · exact grows_refl s
  · split
    · exact grows_keeps (keeps_of_outside (x := .stb) (landConv_outside (List.Subset.refl _) ..) (by decide))
    · exact grows_trans (grows_keeps (keeps_of_outside (x := .stb) (directUnits_outside (List.Subset.refl _) ..) (by decide)))
        (grows_landAll ..)

theorem returnCharge_stb (id n : Nat) (s : State) : (returnCharge id n s).stb = s.stb :=
  keeps_of_outside (x := .stb) (returnCharge_outside (List.Subset.refl _) ..) (by decide)

/-- The completion of a write raises no event. -/
theorem postWrite_stb (id wpath : Nat) (isHeld : Bool) (s : State) : (postWrite id wpath isHeld s).stb = s.stb := by
  unfold postWrite
  split
  · rfl
  · split
    · rfl
    · split
      · rfl
      · extract_lets s1 s2
        have h2 : s2.stb = s.stb := postFull_stb ..
        split
        · exact h2
        · exact h2

theorem wakeFlushes_stb (s : State) : (wakeFlushes s).stb = s.stb := by
  refine foldl_keeps State.stb _ (fun t k => ?_) _ _
  split
  · exact postFull_stb ..
  · rfl

theorem wrDurable_stb (id : Nat) (s : State) : (wrDurable id s).stb = s.stb := by
  unfold wrDurable
  split
  · rfl
  · extract_lets s1
    have h1 : s1.stb = s.stb := by
      simp only [s1]
      split
      · exact postWrite_stb ..
      · exact postWrite_stb ..
      · rfl
    rw [wakeFlushes_stb]
    exact (returnCharge_stb ..).trans h1

theorem supersedeBy_stb (older : Wr → Bool) (lo hi : Nat) (s : State) : (supersedeBy older lo hi s).stb = s.stb := by
  refine foldl_keeps State.stb _ (fun t w => ?_) _ _
  extract_lets gone s1 s2
  have h2 : s2.stb = t.stb := returnCharge_stb ..
  split
  · rfl
  · split
    · split
      · exact (wrDurable_stb ..).trans h2
      · exact h2
    · exact h2

theorem overtake_stb (w : Wr) (lo hi : Nat) (s : State) : (overtake w lo hi s).stb = s.stb := by
  unfold overtake
  split
  · exact supersedeBy_stb ..
  · rfl

theorem grows_decideOne (id : Nat) (s : State) : grows s (decideOne id s) := by
  unfold decideOne
  split
  · exact grows_refl s
  · split
    · exact grows_refl s
    · split
      · refine grows_trans (grows_of_eq (congrArg Stb.raised ?_)) (grows_placeWrite ..)
        rw [overtake_stb, postWrite_stb]
        rfl
      · extract_lets _ rec_ s1
        have h1 : grows s s1 := grows_ite (grows_raise ..) (grows_refl s)
        exact grows_trans (t := updWr id _ (updSlk _ _ s1)) h1 (grows_placeWrite ..)
      · exact grows_trans (t := updWr id _ s) (grows_of_eq rfl) (grows_placeWrite ..)

theorem grows_decideAll (s : State) : grows s (decideAll s) := by
  unfold decideAll
  split
  · exact grows_refl s
  · exact grows_foldl _ (fun t id => grows_decideOne id t) _ _

/-- A write that fails in its host transfer is recorded. -/
theorem failWrite_raises {id : Nat} {w : Wr} {s : State} (hw : wrAt id s = some w) : raises 0x3031 (failWrite id s) := by
  unfold failWrite
  simp only [hw]
  exact raises_mono (grows_trans (grows_placeWrite ..) (grows_decideAll _)) (raises_raise ..)

/-- HOST_MEMORY_ERROR by what the command waits for. -/
theorem exec_hostMemoryError_ends {fn sqid cid : Nat} {k : Ctx} {s t : State} (hk : ctxNamed fn sqid cid s = some k)
    (ht : (k.wait = .halfHitch ∨ (∃ i, k.wait = .read i) ∨ k.wait = .hhRead) ∧ t = s ∨ (∃ ch, k.wait = .gather ch ∧ t = dropChan ch s) ∨
      (∃ id w, k.wait = .write id ∧ wrAt id s = some w ∧ w.ready = false ∧ t = if w.discarded then discardWrite id s else failWrite id s)) :
    exec (.hostMemoryError fn sqid cid) s = .next (afterIo (fin k 0 0x04 t)) := by
  change execHostMemoryError fn sqid cid s = _
  unfold execHostMemoryError
  obtain ⟨h | ⟨i, h⟩ | h, rfl⟩ | ⟨ch, h, rfl⟩ | ⟨id, w, h, hw, hr, rfl⟩ := ht
  · simp only [hk, h]; exact doneIo_after _
  · simp only [hk, h]; exact doneIo_after _
  · simp only [hk, h]; exact doneIo_after _
  · simp only [hk, h]; exact doneIo_after _
  · simp only [hk, h, hw, hr, Bool.false_eq_true, if_false]; exact doneIo_after _

theorem endsWith_fin (k : Ctx) (sct sc : Nat) (s : State) : endsWith k sct sc 0 [] s (fin k sct sc s) := ⟨k, rfl, rfl, rfl, rfl⟩

/-- Settles O40: what a queue command does follows the checks of its Create or Delete in their order; a failed host transfer ends by what
the command waits for, and an accepted write's 0x3031 stays raised through the decisions that follow. -/
theorem queueCommands : Obligations.QueueCommands := by
  refine ⟨fun c s s1 k ht hp hptr => ⟨?_, creates_refuse ht hp, ?_, deleteIoSq_waits ht hp, deleteIoSq_refuses ht hp⟩,
    fun fn s => ⟨?_, fun sqid cid k hk => ⟨?_, ?_, ?_, ?_, ?_⟩⟩⟩
  · intro hq hn hsize hpc
    obtain rfl := taken_cmd ht
    have hf := createFault_none (k := dispatch k) hq hn hsize hpc hptr
    constructor
    · intro hnew hcq hhas
      obtain ⟨u, hu, he⟩ := ends_after_of_postFull ht hp (f := createSqOn) (createSqOn_makes hf hnew hcq hhas)
      exact ⟨sqMade k.cmd s1, u, hu, he, rfl, sqMade_sq ..⟩
    · intro hnew hiv
      obtain ⟨u, hu, he⟩ := ends_after_of_postFull ht hp (f := createCqOn) (createCqOn_makes hf hnew hiv)
      exact ⟨cqMade k.cmd s1, u, hu, he, rfl, cqMade_cq ..⟩
  · intro hq hhas
    obtain rfl := taken_cmd ht
    constructor
    · intro hfree
      obtain ⟨u, hu, he⟩ := ends_after_of_postFull ht hp (f := deleteCqOn) (deleteCqOn_removes (k := dispatch k) hq hhas hfree)
      exact ⟨cqGone k.cmd s1, u, hu, he, cqGone_cq ..⟩
    · intro x hx hx0 hxq
      exact ends_of_postFull ht hp (f := deleteCqOn) (deleteCqOn_attached (k := dispatch k) hq hhas hx hx0 hxq)
  · intro vec hany hmask
    have hm : vecMasked (fnOf fn (coalesced fn vec s)) vec = false := by simpa [coalesced, vecMasked] using hmask
    refine ⟨_, exec_coalescing_signals hany, ?_, ?_, rfl⟩
    · rw [fnOf_signal hm, Tbl.getD_put_same]
      simp [coalesced]
    · intro q hq
      rw [fnOf_signal hm] at hq
      exact coalesced_coal hq
  · exact fun h => ⟨_, exec_hostMemoryError_ends hk (.inl ⟨.inl h, rfl⟩), endsWith_fin ..⟩
  · exact fun i h => ⟨_, exec_hostMemoryError_ends hk (.inl ⟨.inr (.inl ⟨i, h⟩), rfl⟩), endsWith_fin ..⟩
  · exact fun h => ⟨_, exec_hostMemoryError_ends hk (.inl ⟨.inr (.inr h), rfl⟩), endsWith_fin ..⟩
  · exact fun ch h => ⟨_, exec_hostMemoryError_ends hk (.inr (.inl ⟨ch, h, rfl⟩)), endsWith_fin ..⟩
  · intro id w h hw hr
    have hx := exec_hostMemoryError_ends hk (.inr (.inr ⟨id, w, h, hw, hr, rfl⟩))
    constructor
    · intro hd
      rw [if_pos hd] at hx
      exact ⟨_, hx, endsWith_fin ..⟩
    · intro hd
      rw [if_neg (by simp [hd])] at hx
      exact ⟨_, hx, endsWith_fin .., raises_of_eq (congrArg Stb.raised (postFull_stb ..)) (failWrite_raises hw)⟩

end Sys2Proof.Machine

/-! O32. The Yard layout and the Yard Status page. -/

namespace Sys2Proof.Machine
open Sys2Proof

/-! ## A Set of the Yard layout -/

/-- Every field of a Yard Layout buffer is in its range (Table 5.1). -/
def layoutInRange (buf : List Byte) (s : State) : Prop :=
  (∀ r ∈ rows s, numAt buf r 1 < 64 ∨ numAt buf r 1 = 0xFF) ∧
  ∀ y < 64, numAt buf (0x100 + 4 * y) 1 ≤ 2 ∧
    (numAt buf (0x102 + 4 * y) 2 = 0 ∨ 100 ≤ numAt buf (0x102 + 4 * y) 2 ∧ numAt buf (0x102 + 4 * y) 2 ≤ 4000)

section
variable {buf : List Byte} {k : Ctx} {s : State}

/-- The layout is the Owner PF's to set (R137). -/
theorem setLayoutOn_otherFn (h : k.cmd.fn ≠ 0) : setLayoutOn buf k s = fin k 0 0x02 s := by
  unfold setLayoutOn
  exact if_pos h

/-- The layout is not a savable Feature. -/
theorem setLayoutOn_save (h0 : k.cmd.fn = 0) (hsv : svOf k.cmd = true) : setLayoutOn buf k s = fin k 0 0x0D s := by
  unfold setLayoutOn
  extract_lets
  rw [if_neg (not_not.2 h0), if_pos hsv]

/-- A layout in range under which no row changes its Yard passes the checks of R138, for no Yard loses a row. -/
theorem setLayoutOn_rowsStay (h0 : k.cmd.fn = 0) (hsv : svOf k.cmd = false) (hin : layoutInRange buf s)
    (hstay : ∀ r ∈ rows s, numAt buf r 1 = yardOfRow r s) : setLayoutOn buf k s = ok k (acceptLayout buf (layoutMoves buf s) s) := by
  obtain ⟨hrow, hcfg⟩ := hin
  unfold setLayoutOn
  extract_lets bad ms asked pl trial losers conv left0 need0
  have hbad : bad = false := by
    simp only [bad, Bool.or_eq_false_iff, List.any_eq_false, List.mem_range, Bool.or_eq_true, Bool.and_eq_true, decide_eq_true_eq, bne_iff_ne]
    exact ⟨fun r hr => by have := hrow r hr; omega, fun y hy => by have := hcfg y hy; omega⟩
  have hlosers : losers = [] := by
    have hnone : asked.filter (fun m => m.2 != yardOfRow m.1 s) = [] := by
      simp only [asked, List.filter_eq_nil_iff, List.forall_mem_map, bne_iff_ne, not_not]
      exact hstay
    simp only [losers, hnone, List.map_nil, List.dedup_nil, List.filter_nil]
  simp [h0, hsv, hbad, hlosers, ms]

end

theorem grows_checkSpares (s : State) : grows s (checkSpares s) := by
  unfold checkSpares
  split
  · exact grows_refl s
  · split
    · exact grows_refl s
    · refine grows_trans ?_ (grows_reBase _)
      exact List.prefix_append ..

/-- An accepted layout is on record (R138). -/
theorem acceptLayout_raises (buf : List Byte) (ms : List (Nat × Nat)) (s : State) : raises 0x3012 (acceptLayout buf ms s) :=
  raises_mono (grows_checkSpares _) (raises_raise ..)

/-- A Set of the Yard layout, with no sanitize in the way, ends with its meaning's completion. -/
theorem setFeaturesYardLayout_ends {c : Cmd} {buf : List Byte} {s s1 t : State} {k : Ctx} (ht : taken c s = some (k, s1)) (hp : plainForm k)
    (hn : notSanitizing s1) {sct sc : Nat} (hf : setLayoutOn buf (dispatch k) s1 = fin (dispatch k) sct sc t) :
    ∃ u, exec (.setFeaturesYardLayout c buf) s = .next (after u) ∧ endsWith k sct sc 0 [] t u := by
  refine ⟨fin (dispatch k) sct sc t, ?_, endsWith_dispatch ..⟩
  show done (withCmd c s (fun k s => gateAdmin true false k s (setLayoutOn buf))) = _
  rw [withCmd_taken ht, gateAdmin_plain hp hn, done_after]
  exact congrArg (fun u => Host.Outcome.next (after u)) hf

/-! ## The Yard Status page -/

/-- A Yard Status entry has 64 bytes (Table 5.4). -/
theorem yardEntry_length (y : Nat) (s : State) : (yardEntry y s).length = 64 := by
  unfold yardEntry
  split <;> simp [zeroBytes]

/-- What the page shows a function: an entry for each Yard, zeros for one it may not use (R164). -/
def yardPage (k : Ctx) (s : State) : List Byte :=
  (List.range 64).flatMap (fun y => if isPf k.cmd.fn || bit k.snap.yards y then yardEntry y s else zeroBytes 64)

/-- The Yard Status page has 64 entries. -/
theorem yardPage_length (k : Ctx) (s : State) : (yardPage k s).length = 4096 := by
  have hentry : ∀ y, (if isPf k.cmd.fn || bit k.snap.yards y then yardEntry y s else zeroBytes 64).length = 64 := fun y => by
    split
    · exact yardEntry_length y s
    · exact List.length_replicate
  simp only [yardPage, List.length_flatMap, hentry, List.map_const', List.length_range, List.sum_replicate, smul_eq_mul]

/-- A part of the Yard Status page that lies within it is answered as it stands. -/
theorem yardLogOn_within {k : Ctx} {s : State} (h4 : logOff k.cmd % 4 = 0) (hin : logOff k.cmd + logLen k.cmd ≤ 4096) :
    yardLogOn k s = okData k (((yardPage k s).drop (logOff k.cmd)).take (logLen k.cmd)) s :=
  logReply_within (data := yardPage k s) h4 (by omega) (by rw [yardPage_length]; exact hin)

/-! ## O32 -/

/-- Settles O32: who sets the layout, what is not saved, a layout under which no Yard loses a row; and the page of 64 entries of 64 bytes. -/
theorem yardLayoutAndStatus : Obligations.YardLayoutAndStatus := by
  unfold Obligations.YardLayoutAndStatus
  intro c buf s s1 k ht hp
  obtain rfl := taken_cmd ht
  refine ⟨?_, ?_, ?_, ?_⟩
  · intro hn hfn
    exact setFeaturesYardLayout_ends ht hp hn (setLayoutOn_otherFn (k := dispatch k) hfn)
  · intro hn h0 hsv
    exact setFeaturesYardLayout_ends ht hp hn (setLayoutOn_save (k := dispatch k) h0 hsv)
  · intro hn h0 hsv hrow hcfg hstay
    obtain ⟨u, hu, he⟩ := setFeaturesYardLayout_ends ht hp hn (setLayoutOn_rowsStay (k := dispatch k) h0 hsv ⟨hrow, hcfg⟩ hstay)
    exact ⟨u, hu, he, acceptLayout_raises ..⟩
  · intro h4 hin
    exact ends_of_postFull ht hp (yardLogOn_within (k := dispatch k) h4 hin)

end Sys2Proof.Machine

/-! SUPPORT. The array's operations: what an update of one leaves to be read of the others, of the blocks and of the channels (R167, R172). -/

namespace Sys2Proof.Machine
open Sys2Proof

/-! ## Lists of operations -/

/-- An update that a test does not see moves past a filter by that test. -/
theorem filter_updWhere {α : Type} {p q : α → Bool} {g : α → α} (hq : ∀ x, q (g x) = q x) (l : List α) :
    (updWhere p g l).filter q = updWhere p g (l.filter q) := by
  have h : ∀ x, q (if p x then g x else x) = q x := fun x => by split <;> simp [hq]
  simp only [updWhere, List.filter_map, Function.comp_def, h]

/-- An update of an operation that stays on its die. -/
theorem dieOps_updOp {g : AOp → AOp} (hc : ∀ x, (g x).ch = x.ch) (hl : ∀ x, (g x).lun = x.lun) (d id : Nat) (s : State) :
    dieOps d (updOp id g s) = updWhere (fun o => o.id == id) g (dieOps d s) :=
  filter_updWhere (fun x => by rw [hc, hl]) s.fl.ops

/-! ## Blocks -/

/-- A block's update leaves the other blocks of its die. -/
theorem bkOf_updBk_other {b c : Nat} (h : c ≠ b) (d : Nat) (g : Bk → Bk) (s : State) : bkOf d c (updBk d b g s) = bkOf d c s := by
  have hk : blkKey d c ≠ blkKey d b := fun e => h (Nat.add_left_cancel e)
  have key : ∀ x : Bk, Tbl.getD (if x = Bk.dflt then Tbl.del s.fl.blks (blkKey d b) else Tbl.put s.fl.blks (blkKey d b) x) (blkKey d c) Bk.dflt =
      bkOf d c s := by
    intro x
    split
    · simp only [Tbl.getD, Tbl.get?_del_other _ _ _ hk, bkOf]
    · simp only [Tbl.getD_put_other _ _ _ _ _ hk, bkOf]
  exact key _

/-! ## LUNs -/

theorem lunOf_of_get {d : Nat} {l : Lun} {s : State} (hl : Tbl.get? s.fl.luns d = some l) : lunOf d s = l := by
  simp only [lunOf, Tbl.getD, hl, Option.getD_some]

/-- The update of a LUN that has a die-table entry. -/
theorem get_updLun {d : Nat} {l : Lun} {s : State} (hl : Tbl.get? s.fl.luns d = some l) (g : Lun → Lun) :
    Tbl.get? (updLun d g s).fl.luns d = some (g l) := by
  simp only [updLun, Tbl.get?_upd_same, hl, Option.map_some]

/-! ## Channels -/

@[simp] theorem chnOf_raise (c code sev : Nat) (args : List (List Nat)) (s : State) : chnOf c (raise code sev args s) = chnOf c s := rfl

/-! ## The LUNs of a halted device are parked -/

theorem parkHalted_fl (s : State) : ∃ p, (parkHalted s).fl = { s.fl with parked := p } := by
  unfold parkHalted
  split
  · exact ⟨_, rfl⟩
  · exact ⟨_, rfl⟩

section
variable (s : State)

@[simp] theorem parkHalted_ops : (parkHalted s).fl.ops = s.fl.ops := by
  obtain ⟨p, h⟩ := parkHalted_fl s
  rw [h]

@[simp] theorem chnOf_parkHalted (c : Nat) : chnOf c (parkHalted s) = chnOf c s := by
  obtain ⟨p, h⟩ := parkHalted_fl s
  simp only [chnOf, h]

@[simp] theorem lunOf_parkHalted (d : Nat) : lunOf d (parkHalted s) = lunOf d s := by
  obtain ⟨p, h⟩ := parkHalted_fl s
  simp only [lunOf, h]

@[simp] theorem bkOf_parkHalted (d b : Nat) : bkOf d b (parkHalted s) = bkOf d b s := by
  obtain ⟨p, h⟩ := parkHalted_fl s
  simp only [bkOf, h]

@[simp] theorem parkHalted_zn : (parkHalted s).zn = s.zn := parkHalted_keeps (x := .zn) (by decide) s
@[simp] theorem parkHalted_pl : (parkHalted s).pl = s.pl := parkHalted_keeps (x := .pl) (by decide) s

theorem grows_parkHalted : grows s (parkHalted s) := grows_keeps (parkHalted_keeps (x := .stb) (by decide) s)
end

end Sys2Proof.Machine

/-! O33. Operations start and end. The statement speaks of every state, also of one in which two operations share a number, which `queueOp` gives
to one operation alone: starting the one sets both running, each with the suspensions its own kind is allowed (R196), where the statement has both
take those of the one that starts. -/

namespace Sys2Proof.Machine
open Sys2Proof

/-! ## Suspensions allowed -/

/-- No operation works with this number of suspensions allowed (R189). -/
def noneAllows (n : Nat) (s : State) : Prop := ∀ o ∈ s.fl.ops, o.lim.2.1 ≠ n

theorem noneAllows_of_fl {n : Nat} {s t : State} (h : t.fl = s.fl) (hs : noneAllows n s) : noneAllows n t := by
  unfold noneAllows
  rwa [h]

/-! An operation allows none until it starts, so what queues operations brings no number of suspensions but 0. -/

section
variable {n : Nat} (hn : n ≠ 0)
include hn

theorem queueRead_noneAllows {s : State} (hs : noneAllows n s) {d b cls wl page : Nat} {onebit : Bool} {w : Work} :
    noneAllows n (queueRead d b cls wl page onebit w s) := by
  intro o ho
  simp only [queueRead, queueOp, updWhere, List.mem_map, List.mem_append, List.mem_singleton] at ho
  obtain ⟨x, hx, rfl⟩ := ho
  have hlim : x.lim.2.1 ≠ n := by
    rcases hx with hx | rfl
    · exact hs x hx
    · exact hn.symm
  split
  · exact hlim
  · exact hlim

theorem queueRecon_noneAllows {s : State} (hs : noneAllows n s) {id o q path : Nat} {t : Target} : noneAllows n (queueRecon id o q path t s) := by
  unfold queueRecon
  extract_lets rid ms op
  refine List.foldlRecOn ms _ ?_ (fun t ht m _ => queueRead_noneAllows hn ht)
  intro x hx
  rcases List.mem_append.mp hx with hx | hx
  · exact hs x hx
  · rw [List.mem_singleton.mp hx]
    exact hn.symm

theorem readTarget_noneAllows {s : State} (hs : noneAllows n s) {id o q : Nat} {t : Target} : noneAllows n (readTarget id o q t s).2 := by
  unfold readTarget
  extract_lets e
  split_ifs
  · exact queueRead_noneAllows hn hs
  · exact queueRecon_noneAllows hn hs
  · exact hs

theorem startRead_noneAllows {s : State} (hs : noneAllows n s) {id o q : Nat} {p : Piece} : noneAllows n (startRead id o q p s).2 := by
  unfold startRead
  split
  · exact hs
  · extract_lets r
    split_ifs
    · exact readTarget_noneAllows hn hs
    · exact hs

theorem fillPart_noneAllows {s : State} (hs : noneAllows n s) {id : Nat} {fua : Bool} {md : Nat} {p : RPart} :
    noneAllows n (fillPart id fua md p s).2 := by
  unfold fillPart
  extract_lets p vs ms part whole b
  split_ifs
  iterate 6 exact hs
  refine List.foldlRecOn (motive := fun (a : RPart × State) => noneAllows n a.2) ms _ hs (fun a ha m _ => ?_)
  split
  · exact ha
  · exact startRead_noneAllows hn ha

theorem fillRd_noneAllows {s : State} (hs : noneAllows n s) {id md : Nat} {rd : Rd} : noneAllows n (fillRd id md rd s).2 :=
  List.foldlRecOn (motive := fun (a : List RPart × State) => noneAllows n a.2) rd.parts _ hs (fun _ ha _ _ => fillPart_noneAllows hn ha)

/-- In EMERGENCY_FLUSH only the maintenance channels read on. -/
theorem pumpReads_noneAllows {s : State} (hm : s.m.cur = .emergencyFlush) (hs : noneAllows n s) : noneAllows n (pumpReads s) := by
  unfold pumpReads
  extract_lets t s1
  have h1 : s1 = t := if_pos (by simp [t, freeFenced, hm])
  refine List.foldlRecOn _ _ (h1 ▸ noneAllows_of_fl (s := s) rfl hs) (fun u hu c _ => ?_)
  exact noneAllows_of_fl (keeps_of_outside (x := .fl) (updRd_outside (List.Subset.refl _) ..) (by decide)) (fillRd_noneAllows hn hu)
end

theorem resumeIdle_noneAllows {n : Nat} {s : State} (hs : noneAllows n s) : noneAllows n (resumeIdle s) := by
  unfold resumeIdle
  extract_lets ds l
  split
  · exact hs
  · intro o ho
    obtain ⟨x, hx, rfl⟩ := List.mem_map.mp ho
    have hlim := hs x hx
    split
    · exact hlim
    · exact hlim

/-- A pass of the Currycomb reads in the base modes only. -/
theorem combPump_noBase {s : State} (h : s.m.cur.isBase = false) : combPump s = s := by
  unfold combPump
  split
  · rfl
  · exact if_pos (by simp [h])

/-- Before the start has ended there is no landing space to watch. -/
theorem landWatch_starting {s : State} (h : s.st.up = false) : landWatch s = s := by
  unfold landWatch
  exact if_pos (by simp [h])

theorem afterIo_st (u : State) : (afterIo u).st = u.st :=
  keeps_of_outside (x := .st) (afterIo_outside (List.Subset.refl _) u) (by decide)

section
variable {u : State} (hup : u.st.up = false)
include hup

theorem afterIo_starting : afterIo u = after (resumeIdle (combPump (pumpReads u))) := by
  have hst : (resumeIdle (combPump (pumpReads u))).st = u.st :=
    keeps_of_outside (x := .st) (L := [.zn, .fl, .ecc, .q, .stb, .ci, .ga, .free]) (by simp) (by decide)
  exact congrArg after (landWatch_starting ((congrArg StartS.up hst).trans hup))

theorem afterIo_starting_m : (afterIo u).m = u.m := by
  rw [afterIo_starting hup]
  exact keeps_of_outside (x := .m) (L := [.zn, .fl, .ecc, .q, .stb, .ci, .ga, .free]) (by simp) (by decide)

/-- A flush before the start has ended: what follows a meaning brings no other number of suspensions. -/
theorem afterIo_noneAllows {n : Nat} (hn : n ≠ 0) (hm : u.m.cur = .emergencyFlush) (hu : noneAllows n u) : noneAllows n (afterIo u) := by
  have hbase : (pumpReads u).m.cur.isBase = false := by
    rw [show (pumpReads u).m = u.m from keeps_of_outside (x := .m) (pumpReads_outside (List.Subset.refl _) u) (by decide), hm]
    rfl
  rw [afterIo_starting hup, combPump_noBase hbase]
  exact noneAllows_of_fl (keeps_of_outside (x := .fl) (after_outside (List.Subset.refl _) _) (by decide))
    (resumeIdle_noneAllows (pumpReads_noneAllows hn hm hu))
end

/-! ## Two operations of one number -/

/-- A program of the flush to the Tack Room. -/
def flushProgram : AOp := ⟨1, 0, 0, 1, .program, 5, 0, true, 0, .queued, 0, 0, 0, false, false, false, 0, (0, 0, 0, 0), .journal⟩

/-- A flush with an erase of another channel under the program's number, and FCH_SUSP at its Reset values: 4 suspensions for a program, 8 for an
erase. -/
def sharedNumber : State :=
  { State.reset with
      m := { ModeS.dflt with cur := .emergencyFlush }
      fl := { Fl.dflt with
        ops := [flushProgram, { flushProgram with ch := 1, kind := .erase, work := .background }]
        chs := [(0, { Chn.dflt with state := 2, luns := 1 })]
        blks := [(5, { Bk.dflt with role := .tack })] } }

/-- Channel 0 may start the program. -/
theorem sharedNumber_starts : nextOp? 0 0 (parWatch 0 (liveWatch 0 sharedNumber)) = some flushProgram ∧
    programRefused flushProgram (parWatch 0 (liveWatch 0 sharedNumber)) = none := by decide

/-- With the program's start the erase works with its own settings: 8 suspensions. -/
theorem sharedNumber_started : ∃ t, exec (.arrayOperationStart 0 0) sharedNumber = .next t ∧ t.m.cur = .emergencyFlush ∧ t.st.up = false ∧
    ∃ o ∈ t.fl.ops, o.lim.2.1 = 8 :=
  ⟨_, rfl, by decide, by decide +kernel, by decide +kernel⟩

/-- Refutes O33: where an erase has the number of the program that starts, it keeps the suspensions an erase is allowed, and the statement would have
it take the program's. -/
theorem not_operationsStartAndEnd : ¬ Obligations.OperationsStartAndEnd := by
  unfold Obligations.OperationsStartAndEnd
  rintro ⟨hstart, -⟩
  obtain ⟨hnext, hok⟩ := sharedNumber_starts
  obtain ⟨u, hu, hops, -⟩ := (hstart 0 0 flushProgram sharedNumber hnext).1 rfl hok
  obtain ⟨t, ht, hm, hup, o, ho, h8⟩ := sharedNumber_started
  obtain rfl : t = afterIo u := Host.Outcome.next.inj (ht.symm.trans hu)
  rw [afterIo_st] at hup
  rw [afterIo_starting_m hup] at hm
  have hnone : noneAllows 8 u := by
    unfold noneAllows
    rw [hops]
    decide
  exact afterIo_noneAllows hup (by decide) hm hnone o ho h8

end Sys2Proof.Machine

/-! O34. Reads, reconstructions and time-outs end (R195, R204 to R206, R210). -/

namespace Sys2Proof.Machine
open Sys2Proof

/-! ## The end of a codeword's read (R205, R206) -/

/-- What the end of a read may count: codewords by their ladder code, and rebuilds that failed. -/
def readCounts (s : State) : Tbl Nat × Nat := (s.ecc.ladder, s.ecc.reconFail)

theorem readCounts_of_ecc {s t : State} (h : t.ecc = s.ecc) : readCounts t = readCounts s := by simp only [readCounts, h]

theorem learnOffset_counts (d b : Nat) (s : State) : readCounts (learnOffset d b s) = readCounts s := by
  unfold learnOffset
  split
  · rfl
  · rfl

theorem combEnds_counts (t : Target) (ladder corr : Nat) (marked : Bool) (s : State) : readCounts (combEnds t ladder corr marked s) = readCounts s := by
  unfold combEnds
  extract_lets c e n s1
  split
  · rfl
  · rfl

/-- Every outcome counts its ladder code, and nothing else of these. -/
theorem readEnds_counts (id o q path ladder corr : Nat) (s : State) :
    readCounts (readEnds id o q path ladder corr s) = readCounts (countLadder ladder s) := by
  have hgot : ∀ t, readCounts (gotPiece id o q path ladder t) = readCounts t := fun t =>
    readCounts_of_ecc (keeps_of_outside (x := .ecc) (gotPiece_outside (List.Subset.refl _) ..) (by decide))
  have hlost : ∀ t, readCounts (readLost id o q path t) = readCounts t := fun t =>
    readCounts_of_ecc (keeps_of_outside (x := .ecc) (readLost_outside (List.Subset.refl _) ..) (by decide))
  have hmark : ∀ p t, readCounts (markRefresh p ladder t) = readCounts t := fun p t =>
    readCounts_of_ecc (keeps_of_outside (x := .ecc) (markRefresh_outside (List.Subset.refl _) ..) (by decide))
  unfold readEnds
  split
  · exact hgot _
  · extract_lets e s1 s2 due s3 s4 s5
    have h2 : readCounts s2 = readCounts s1 := by simp only [s2]; split <;> rfl
    have h3 : readCounts s3 = readCounts s2 := by simp only [s3]; split <;> simp only [hmark]
    have h4 : readCounts s4 = readCounts s3 := by simp only [s4]; split <;> simp only [learnOffset_counts]
    have h5 : readCounts s5 = readCounts s4 := by simp only [s5]; split <;> simp only [combEnds_counts]
    have hall : readCounts s5 = readCounts s1 := h5.trans (h4.trans (h3.trans h2))
    split
    · rw [hlost, hall]
    · rw [hgot, hall]

theorem penOf_updPen (p : Nat) (g : Pen → Pen) (s : State) : penOf? p (updPen p g s) = (penOf? p s).map g := Tbl.get?_upd_same ..

theorem penOf_of_pl {s t : State} (h : t.pl = s.pl) (p : Nat) : penOf? p t = penOf? p s := by simp only [penOf?, h]

/-- A Pen there is marked for refresh. -/
theorem markRefresh_marks {p : Nat} {x : Pen} {s : State} (hp : penOf? p s = some x) (ladder : Nat) :
    (penOf? p (markRefresh p ladder s)).map (·.refresh) = some true := by
  unfold markRefresh
  simp only [hp]
  split
  · next h => simp [hp, h]
  · rw [penOf_of_pl (raise_pl ..), penOf_updPen, hp]
    rfl

/-- More corrected bits than the class's threshold mark the codeword's Pen. -/
theorem readEnds_marks {id o q ladder corr : Nat} {t : Target} {s : State} (ht : targetOf id o q s = some t) (hp : penOf? t.pid s = some t.pen)
    (hid : id ≠ combReader) (hl : ladder ≠ 7) (hc : refThr (cwClass t s) s < corr) (path : Nat) :
    (penOf? t.pid (readEnds id o q path ladder corr s)).map (·.refresh) = some true := by
  unfold readEnds
  split
  · next h => exact absurd (ht.symm.trans h) nofun
  next t' h =>
  obtain rfl := Option.some.inj (ht.symm.trans h)
  extract_lets e s1 s2 due s3 s4 s5
  have hp2 : penOf? t.pid s2 = some t.pen := by simp only [s2]; split <;> exact hp
  have h3 : s3 = markRefresh t.pid ladder s2 := if_pos (by simp [due, hid, hc])
  have h4 : s4.pl = s3.pl := by
    simp only [s4]
    split
    · exact keeps_of_outside (x := .pl) (learnOffset_outside (List.Subset.refl _) ..) (by decide)
    · rfl
  have h5 : s5 = s4 := if_neg hid
  have hgot : (gotPiece id o q path ladder s5).pl = s5.pl := keeps_of_outside (x := .pl) (gotPiece_outside (List.Subset.refl _) ..) (by decide)
  rw [if_neg hl, penOf_of_pl (hgot.trans (h5 ▸ h4)), h3]
  exact markRefresh_marks hp2 ladder

/-! ## READ_END (R204, R205) -/

section
variable {ch lun id ow q : Nat} {o : AOp} {s : State}
  (ho : (dieOps (dieKey ch lun) s).find? (fun o => o.kind == .read && o.st == .running && o.work != .prechk && o.work != .diag) = some o)
  (hw : o.work = .host id ow q)
include ho hw

/-- A codeword that no flip mask has marred is decoded on its die. -/
theorem exec_readEnd_decodes {ladder : Nat} (hl : ladder ≤ 2) (hm : s.fl.marred = []) (corr : Nat) : exec (.readEnd ch lun ladder corr) s =
    .next (afterIo (parkHalted (readEnds id ow q (pathOf o s) ladder corr (dropOp o.id s)))) := by
  show execReadEnd ch lun ladder corr s = _
  unfold execReadEnd
  simp only [ho, hw]
  cases targetOf id ow q s <;> simp [marredBits, hm, hl, doneIo_after]

theorem exec_readEnd_rebuilds (corr : Nat) : exec (.readEnd ch lun 3 corr) s =
    .next (afterIo (parkHalted (stepThree id ow q (pathOf o s) (dropOp o.id s)))) := by
  show execReadEnd ch lun 3 corr s = _
  unfold execReadEnd
  simp only [ho, hw]
  simp [doneIo_after]

theorem exec_readEnd_loses {ladder : Nat} (hl : 3 < ladder) (corr : Nat) : exec (.readEnd ch lun ladder corr) s =
    .next (afterIo (parkHalted (readEnds id ow q (pathOf o s) 7 0 (dropOp o.id s)))) := by
  show execReadEnd ch lun ladder corr s = _
  unfold execReadEnd
  simp only [ho, hw]
  simp [doneIo_after, show ¬ ladder ≤ 2 by omega, show ladder ≠ 3 by omega]
end

/-! ## RECONSTRUCTION_END (R208, R210) -/

/-- A read whose rebuild has failed after the arbiter handed it over: back to its die, without a second rebuild. -/
def readReturned (id ow q : Nat) (t : Target) (s : State) : State :=
  let r := queueRead (t.place s).1 (t.place s).2.1 2 t.wl (pageIn t.pen.kind.oneBit t.cw s.fl.geom) t.pen.kind.oneBit (.host id ow q) s
  { r with fl := { r.fl with ops := updWhere (fun x => x.id == s.fl.nextOp) (fun x => { x with reconDone := true }) r.fl.ops } }

/-- The read is queued in class 2. -/
theorem readReturned_queued (id ow q : Nat) (t : Target) (s : State) :
    ∃ x ∈ (readReturned id ow q t s).fl.ops, x.work = .host id ow q ∧ x.cls = 2 ∧ x.reconDone = true := by
  simp [readReturned, queueRead, queueOp, updWhere]

/-- A rebuild that has failed after a handover is counted. -/
def reconFailed (s : State) : State := { s with ecc := { s.ecc with reconFail := satAdd 64 s.ecc.reconFail 1 } }

/-- Members enough have been read for a codeword to be rebuilt, and it decodes. -/
def rebuilds (lad : Nat) (t : Target) (used bad : List Nat) : Bool :=
  lad != 7 && decide (t.pen.mem.length - t.pen.parity ≤ (used.filter (fun m => !bad.contains m)).length)

section
variable {op id ow q path : Nat} {used bad : List Nat} {o : AOp} {t : Target} {s : State}
  (ho : s.fl.ops.find? (fun o => o.id == op && o.ch == 64) = some o) (hw : o.work = .recon id ow q path used bad)
  (hm : s.fl.ops.any (fun x => match x.work with | .member r _ => r == op | _ => false) = false) (ht : targetOf id ow q (dropOp op s) = some t)
include ho hw hm ht

/-- Once its member reads have ended, a rebuild ends by whether they were enough, and by whether the arbiter had handed the read over. -/
theorem exec_reconstructionEnd_cases (lad : Nat) :
    exec (.reconstructionEnd op lad) s =
      if path ≠ 4 then doneIo (readEnds id ow q path (if rebuilds lad t used bad then 3 else 7) 0 (dropOp op s))
      else if rebuilds lad t used bad then doneIo (readEnds id ow q 4 4 0 (dropOp op s))
      else if (t.place (reconFailed (dropOp op s))).2.2 then doneIo (readEnds id ow q 4 7 0 (reconFailed (dropOp op s)))
      else doneIo (readReturned id ow q t (reconFailed (dropOp op s))) := by
  show execReconstructionEnd op lad s = _
  unfold execReconstructionEnd
  simp only [ho, hw]
  split
  · next hc => exact absurd (hc.symm.trans hm) Bool.noConfusion
  · simp only [ht]
    rfl

theorem exec_reconstructionEnd_rebuilt {lad : Nat} (hl : lad ≠ 7)
    (hn : t.pen.mem.length - t.pen.parity ≤ (used.filter (fun m => !bad.contains m)).length) :
    exec (.reconstructionEnd op lad) s = .next (afterIo (readEnds id ow q path (if path = 4 then 4 else 3) 0 (dropOp op s))) := by
  have hok : rebuilds lad t used bad = true := by
    rw [rebuilds, decide_eq_true hn, Bool.and_true]
    exact bne_iff_ne.mpr hl
  rw [exec_reconstructionEnd_cases ho hw hm ht, ← doneIo_after, if_pos hok, if_pos hok]
  by_cases hp : path = 4
  · simp [hp]
  · simp [hp]

theorem exec_reconstructionEnd_fails (hp : path ≠ 4) :
    exec (.reconstructionEnd op 7) s = .next (afterIo (readEnds id ow q path 7 0 (dropOp op s))) := by
  rw [exec_reconstructionEnd_cases ho hw hm ht, ← doneIo_after, if_pos hp]
  rfl

theorem exec_reconstructionEnd_returns (hp : path = 4) : ∃ u, exec (.reconstructionEnd op 7) s = .next (afterIo u) ∧
    u.ecc.reconFail = satAdd 64 s.ecc.reconFail 1 ∧
    ((t.place (dropOp op s)).2.2 = false → ∃ x ∈ u.fl.ops, x.work = .host id ow q ∧ x.cls = 2 ∧ x.reconDone = true) := by
  have hplace : t.place (reconFailed (dropOp op s)) = t.place (dropOp op s) := rfl
  rw [exec_reconstructionEnd_cases ho hw hm ht, if_neg (not_not.mpr hp), if_neg (by simp [rebuilds]), hplace]
  cases h : (t.place (dropOp op s)).2.2 with
  | true => exact ⟨_, rfl, congrArg Prod.snd (readEnds_counts ..), nofun⟩
  | false => exact ⟨_, rfl, rfl, fun _ => readReturned_queued ..⟩
end

/-! ## LUN_TIMEOUT (R195) -/

/-- A time-out counts on its channel and in its LUN's epoch. -/
def timedOut (ch lun : Nat) (s : State) : State :=
  updLun (dieKey ch lun) (fun l => { l with timeouts := if l.toEpoch = s.tm.epoch then l.timeouts + 1 else 1, toEpoch := s.tm.epoch })
    (updChn ch (fun c => { c with fTo := satAdd 16 c.fTo 1 }) s)

/-- Its read is queued once more. -/
def readRetried (ch lun : Nat) (o : AOp) (s : State) : State :=
  updOp o.id (fun o => { o with st := .queued, retried := true }) (timedOut ch lun s)

section
variable {ch lun : Nat} {o : AOp} {s : State}

theorem timedOut_fTo : (chnOf ch (timedOut ch lun s)).fTo = satAdd 16 (chnOf ch s).fTo 1 :=
  congrArg Chn.fTo (chnOf_updChn ch (fun c => { c with fTo := satAdd 16 c.fTo 1 }) s)

theorem timedOut_timeouts (hl : Tbl.get? s.fl.luns (dieKey ch lun) = some (lunOf (dieKey ch lun) s)) :
    (lunOf (dieKey ch lun) (timedOut ch lun s)).timeouts =
      if (lunOf (dieKey ch lun) s).toEpoch = s.tm.epoch then (lunOf (dieKey ch lun) s).timeouts + 1 else 1 := by
  have hget : Tbl.get? (updChn ch (fun c => { c with fTo := satAdd 16 c.fTo 1 }) s).fl.luns (dieKey ch lun) = some (lunOf (dieKey ch lun) s) := hl
  exact congrArg Lun.timeouts (lunOf_of_get (get_updLun hget _))

theorem exec_lunTimeout_retries (ho : (dieOps (dieKey ch lun) s).find? (fun o => o.st == .running || o.st == .suspending) = some o)
    (hk : o.kind = .read) (hr : o.retried = false) (hl : Tbl.get? s.fl.luns (dieKey ch lun) = some (lunOf (dieKey ch lun) s))
    (hfew : s.tm.epoch ≠ (lunOf (dieKey ch lun) s).toEpoch ∨ (lunOf (dieKey ch lun) s).timeouts < 2) :
    exec (.lunTimeout ch lun) s = .next (afterIo (parkHalted (readRetried ch lun o s))) := by
  have h3 : ¬ 3 ≤ (lunOf (dieKey ch lun) (readRetried ch lun o s)).timeouts := by
    change ¬ 3 ≤ (lunOf (dieKey ch lun) (timedOut ch lun s)).timeouts
    rw [timedOut_timeouts hl]
    split
    · next he => have := hfew.resolve_left (not_not.mpr he.symm); omega
    · omega
  show execLunTimeout ch lun s = _
  unfold execLunTimeout
  simp only [ho, Option.isSome_some, if_true, hk, hr, Bool.not_false]
  exact (congrArg (fun t => doneIo (parkHalted t)) (if_neg h3)).trans (doneIo_after _)
end

/-! ## O34 -/

/-- Settles O34: the outcome of a read follows its ladder code, that of a rebuild its members; both end in `readEnds`, which counts and marks. -/
theorem readsEnd : Obligations.ReadsEnd := by
  unfold Obligations.ReadsEnd
  refine ⟨fun ch lun o s => ⟨fun ladder corr id ow q ho hw => ?_, fun op lad id ow q path used bad t ho hw hm ht => ?_, fun ho hk hr hl hfew => ?_⟩,
    fun id ow q path ladder corr t s => ⟨?_, fun ht hp hid hl hc => readEnds_marks ht hp hid hl hc path⟩⟩
  · exact ⟨fun hl hm => exec_readEnd_decodes ho hw hl hm corr, exec_readEnd_rebuilds ho hw corr, fun hl => exec_readEnd_loses ho hw hl corr⟩
  · exact ⟨exec_reconstructionEnd_rebuilt ho hw hm ht, exec_reconstructionEnd_fails ho hw hm ht, exec_reconstructionEnd_returns ho hw hm ht⟩
  · refine ⟨_, exec_lunTimeout_retries ho hk hr hl hfew, ?_, ?_, ?_, ?_⟩
    · rw [chnOf_parkHalted]
      exact timedOut_fTo (lun := lun)
    · rw [lunOf_parkHalted]
      exact timedOut_timeouts hl
    · rw [parkHalted_ops]
      rfl
    · rw [parkHalted_zn]
      rfl
  · rw [show (readEnds id ow q path ladder corr s).ecc.ladder = (countLadder ladder s).ecc.ladder from congrArg Prod.fst (readEnds_counts ..)]
    exact Tbl.getD_put_same ..

end Sys2Proof.Machine

/-! O35. Suspending and resuming an array operation (R187 to R191). -/

namespace Sys2Proof.Machine
open Sys2Proof

/-- The arbiter decides on the class-2 read that waits. -/
theorem exec_suspendArbiterDecision {op : Nat} {r : AOp} {s : State}
    (hr : s.fl.ops.find? (fun o => o.id == op && o.kind == .read && o.cls == 2 && o.st == .queued) = some r) :
    exec (.suspendArbiterDecision op) s = .next (after (arbitrate r s)) := by
  show execSuspendArbiterDecision op s = _
  simp only [execSuspendArbiterDecision, hr, done_after]

/-- A read that meets an operation that may be suspended suspends it, on a channel that does not retrain (R187 step 1). -/
theorem arbitrate_suspends {r b : AOp} {s : State} (hb : (dieOps (dieKey r.ch r.lun) s).find? (fun o => o.kind != .read && o.st == .running) = some b)
    (hm : maySuspend b s = true) (ht : (chnOf r.ch s).retraining = false) :
    arbitrate r s = updChn r.ch (fun c => { c with suspCnt := satAdd 64 c.suspCnt 1 })
      (updOp b.id (fun o => { o with st := .suspending, susp := o.susp + 1 }) s) := by
  simp only [arbitrate, hb, hm, ht, Bool.not_false, Bool.and_self, if_true]

/-- An operation that has run its minimum by now counts as running since no later than that. -/
def minimumRun (now : Nat) (o : AOp) : AOp := { o with since := min o.since (now - o.lim.1) }

/-- Nothing is decided again on a die where no read waits. -/
theorem exec_suspendRunMinReached_alone {ch lun : Nat} {o : AOp} {s : State}
    (hrun : (dieOps (dieKey ch lun) s).filter (fun o => o.kind != .read && o.st == .running) = [o])
    (hwait : (dieOps (dieKey ch lun) s).filter (fun o => o.kind == .read && o.cls == 2 && o.st == .queued && o.waited) = []) :
    exec (.suspendRunMinReached ch lun) s = .next (after (updOp o.id (minimumRun s.tm.elapsed) s)) := by
  have hnone : (dieOps (dieKey ch lun) (updOp o.id (minimumRun s.tm.elapsed) s)).filter
      (fun o => o.kind == .read && o.cls == 2 && o.st == .queued && o.waited) = [] := by
    rw [dieOps_updOp (g := minimumRun _) (fun _ => rfl) (fun _ => rfl), filter_updWhere (g := minimumRun _) (fun _ => rfl), hwait]
    rfl
  show execSuspendRunMinReached ch lun s = _
  unfold execSuspendRunMinReached
  simp only [hrun, List.isEmpty_cons, Bool.not_false, if_true, List.foldl_cons, List.foldl_nil]
  change done (List.foldl (fun s r => arbitrate r s) (updOp o.id (minimumRun s.tm.elapsed) s)
    (List.filter _ (dieOps _ (updOp o.id (minimumRun s.tm.elapsed) s)))) = _
  rw [hnone]
  exact done_after _

/-- Settles O35: each command of the arbiter is one update of one operation, and of what its LUN or channel counts. -/
theorem suspension : Obligations.Suspension := by
  unfold Obligations.Suspension
  intro ch lun o s
  refine ⟨fun r b hr hb hm ht => ?_, fun hrun hwait => ?_, fun ho => ?_, fun ho => ?_, fun l hl hc hw => ?_⟩
  · have hx := exec_suspendArbiterDecision hr
    rw [arbitrate_suspends hb hm ht] at hx
    exact ⟨_, hx, rfl, congrArg Chn.suspCnt (chnOf_updChn ..), rfl, rfl⟩
  · exact ⟨_, exec_suspendRunMinReached_alone hrun hwait, rfl, rfl, rfl⟩
  · refine ⟨updLun (dieKey ch lun) (fun l => { l with suspAt := s.tm.elapsed }) (updOp o.id (fun o => { o with st := .suspended }) s),
      ?_, rfl, rfl, rfl⟩
    show execDieSuspended ch lun s = _
    simp only [execDieSuspended, ho, done_after]
  · refine ⟨updOp o.id (fun o => { o with st := .running, since := s.tm.elapsed }) s, ?_, rfl, rfl, rfl⟩
    show execSuspendHoldExpiry ch lun s = _
    simp only [execSuspendHoldExpiry, ho, done_after]
  · have hlun := lunOf_of_get hl
    refine ⟨updLun (dieKey ch lun) (fun l => { l with chainEnd := true }) s, ?_, ?_, rfl, rfl⟩
    · show execContinuousReadWaitExpiry ch lun s = _
      simp only [execContinuousReadWaitExpiry, hlun, hc, hw, decide_true, Bool.and_self, if_true, done_after]
    · exact get_updLun hl _

end Sys2Proof.Machine

/-! O36. Channels, eyes, the firmware area, diagnostics and lists (R168 to R170, R179, R194, R197). -/

namespace Sys2Proof.Machine
open Sys2Proof

/-! ## Eyes and retrains (R168, R170) -/

section
variable {ch : Nat} {s : State}

/-- A channel's eye, as a pass that is due takes it. -/
def eyeTaken (eye : Nat) (s : State) (c : Chn) : Chn :=
  let n := if eye < 77 then c.narrow + 1 else 0
  let due := c.retrainDue || decide (2 ≤ n) || decide (eye < 64)
  { c with eyeRd := min eye 255, eyeAt := s.tm.turns, narrow := n, retrainDue := due, retraining := due && (busyTurn s || decide (eye < 64)) }

theorem exec_eyePass_due (hup : (chnOf ch s).state = 2) (hdue : (chnOf ch s).eyeAt + (chnOf ch s).eyePeriod ≤ s.tm.turns) (eye : Nat) :
    exec (.eyePass ch eye) s = .next (after (updChn ch (eyeTaken eye s) s)) := by
  show execEyePass ch eye s = _
  exact (if_pos ⟨hup, hdue⟩).trans (done_after _)

/-- A narrow eye calls a full retrain at once. -/
theorem eyeTaken_narrow {eye : Nat} (h : eye < 64) (c : Chn) : (eyeTaken eye s c).retrainDue = true ∧ (eyeTaken eye s c).retraining = true := by
  simp [eyeTaken, h]

/-- A wide eye calls none. -/
theorem eyeTaken_wide {eye : Nat} (h : 77 ≤ eye) {c : Chn} (hc : c.retrainDue = false) : (eyeTaken eye s c).retrainDue = false := by
  simp [eyeTaken, hc, Nat.not_lt.mpr h, show ¬ eye < 64 by omega]

/-- A channel whose retrain has ended, with the eyes it found. -/
def retrained (ch rd wr : Nat) (s : State) : State :=
  updChn ch (fun c => { c with retraining := false, retrainDue := false, narrow := 0, retrainCnt := satAdd 8 c.retrainCnt 1, eyeRd := min rd 255, eyeWr := min wr 255 }) s

/-- The channel gives up its full rate (R168). -/
def rateDropped (ch rd wr rate : Nat) (s : State) : State :=
  raise 0x4012 2 [h1 ch, h2 (min rd wr)] (updChn ch (fun c => { c with xdrop := true, rate := min rate 3600 }) (retrained ch rd wr s))

variable (hup : (chnOf ch s).state = 2) (hre : (chnOf ch s).retraining = true) (hfull : (chnOf ch s).rate = 4800)
include hup hre hfull

theorem exec_retrainEnd_keeps {rd wr : Nat} (h : 90 ≤ min rd wr) (rate : Nat) :
    exec (.retrainEnd ch rd wr rate) s = .next (after (retrained ch rd wr s)) := by
  show execRetrainEnd ch rd wr rate s = _
  unfold execRetrainEnd
  extract_lets c s1 s2
  rw [if_pos ⟨hup, .inl hre⟩, if_pos hfull, if_pos h]
  exact done_after _

theorem exec_retrainEnd_drops {rd wr rate : Nat} (h : min rd wr < 90) (hr : rate ≠ 0) :
    exec (.retrainEnd ch rd wr rate) s = .next (after (rateDropped ch rd wr rate s)) := by
  show execRetrainEnd ch rd wr rate s = _
  unfold execRetrainEnd
  extract_lets c s1 s2
  rw [if_pos ⟨hup, .inl hre⟩, if_pos hfull, if_neg (Nat.not_le.mpr h), if_neg hr]
  exact done_after _
end

/-! ## The firmware area (R194) -/

/-- A firmware block above the threshold gives way to a fresh Tack Room block of its LUN. -/
theorem refreshBlock_moves {ch old new : Nat} {s : State} (hne : old ≠ new) (hold : (bkOf (dieKey ch 0) old s).role = .fw)
    (hnew : (bkOf (dieKey ch 0) new s).role.inTack = true) (her : (bkOf (dieKey ch 0) new s).st = .erased) :
    raises 0x4041 (refreshBlock ch old new s) ∧ (bkOf (dieKey ch 0) new (refreshBlock ch old new s)).role = .fw ∧
      (bkOf (dieKey ch 0) new (refreshBlock ch old new s)).st = .full ∧ (bkOf (dieKey ch 0) old (refreshBlock ch old new s)).st = .erased := by
  unfold refreshBlock
  extract_lets d w other s1 s2
  rw [if_pos (by simp [d, hold, hnew, her])]
  have h1 : (bkOf d new s1).role = .fw ∧ (bkOf d new s1).st = .full := by simp [s1]
  have h2 : (bkOf d old s2).st = .erased := by simp [s2]
  have h12 : bkOf d new s2 = bkOf d new s1 := bkOf_updBk_other hne.symm ..
  rw [← h12] at h1
  exact ⟨raises_raise .., h1.1, h1.2, h2⟩

/-- The round is noted: when it was, and that the Shed die's firmware is fresh. -/
def refreshNoted (shed : Nat) (s : State) : State :=
  { s with fl := { s.fl with refreshAt := Tbl.put s.fl.refreshAt shed s.tm.elapsed, fwFresh := s.fl.fwFresh ++ [shed] } }

/-- Every firmware page of the Shed die is read, then the blocks named are refreshed, in their order. -/
theorem exec_tackFirmwareRefresh_due {shed : Nat} {s : State} (hs : shed < s.part.sheds)
    (hdue : Tbl.getD s.fl.refreshAt shed 0 + 2592000000000 ≤ s.tm.elapsed ∨ (s.fl.flushHot = true ∧ s.fl.fwFresh.contains shed = false))
    (moved : List (Nat × Nat × Nat)) : ∃ s1, s1.fl.blks = s.fl.blks ∧ s1.fl.refreshAt = s.fl.refreshAt ∧ s1.zn = s.zn ∧ s1.tm = s.tm ∧
      exec (.tackFirmwareRefresh shed moved) s = .next (after (refreshNoted shed
        ((moved.filter (fun m => m.1 / 16 == shed)).foldl (fun s m => refreshBlock m.1 m.2.1 m.2.2 s) s1))) := by
  show ∃ s1, _ ∧ _ ∧ _ ∧ _ ∧ execTackFirmwareRefresh shed moved s = _
  unfold execTackFirmwareRefresh
  extract_lets due pages s1 s2
  have hd : due = true := by simpa [due] using hdue
  have reads : ∀ {β : Type} (p : State → β), (∀ c g t, p (updChn c g t) = p t) → p s1 = p s := fun p hp =>
    foldl_keeps p _ (fun t c => by split <;> simp only [hp]) _ _
  have htm : s2.tm = s.tm := (foldl_keeps State.tm _ (fun t m => keeps_of_outside (x := .tm) (refreshBlock_outside (List.Subset.refl _) ..) (by decide)) _ _).trans
    (reads State.tm fun _ _ _ => rfl)
  refine ⟨s1, reads (·.fl.blks) fun _ _ _ => rfl, reads (·.fl.refreshAt) fun _ _ _ => rfl, reads State.zn fun _ _ _ => rfl,
    reads State.tm fun _ _ _ => rfl, ?_⟩
  rw [if_pos ⟨hs, hd⟩, done_after, ← htm]
  rfl

/-! ## Diagnostics (R197) -/

/-- GO is accepted in a base mode while the access is idle. -/
theorem writeDiagCtl_goes {ch v : Nat} {s : State} (hbase : s.m.cur.isBase = true) (hidle : (chnOf ch s).dBusy = false) (hgo : bit v 0 = true)
    (hmode : bits v 2 1 ≠ 3) : (chnOf ch (writeDiagCtl ch v s)).dBusy = true ∧ (chnOf ch (writeDiagCtl ch v s)).dMode = bits v 2 1 := by
  unfold writeDiagCtl
  extract_lets md s1 s2 c
  rw [if_pos (by simp [hbase, hidle, hgo, md, hmode])]
  have h2 : (chnOf ch s2).dBusy = true ∧ (chnOf ch s2).dMode = md := by simp [s2, s1]
  split
  · exact h2
  · exact h2

/-- A write of the Owner PF to a row of the TXS takes effect on the state its access leaves. -/
theorem txsRow_owner {s : State} (hs : plainWake s) (hm : s.m.cur ≠ .halted) (f : State → State) :
    txsRow 0 f s = .next (after (f (touch 0 s))) := by
  simp [txsRow, isPf, fnPresent, touch_m 0 hs, hm, done_after]

theorem exec_fchDiagGo_owner {ch : Nat} {v : Dword} {s : State} (hs : plainWake s) (hch : ch < s.part.channels) (hm : s.m.cur ≠ .halted) :
    exec (.fchDiagGo 0 ch v) s = .next (after (writeDiagCtl ch v.toNat (touch 0 s))) := by
  have hpart : (touch 0 s).part = s.part := (touch_ext 0 s (.refl _)).1
  show txsRow 0 _ s = _
  rw [txsRow_owner hs hm, hpart, if_pos hch]

/-- The access ends once its page is read: it is idle, and done. -/
theorem exec_fchDiagDone_ends {ch : Nat} {s : State} (hbusy : (chnOf ch s).dBusy = true)
    (hread : ∀ o ∈ s.fl.ops, o.work = .diag → o.ch = ch → o.st ≠ .queued) (zeros corr ladder : Nat) :
    ∃ u, exec (.fchDiagDone ch zeros corr ladder) s = .next (after u) ∧ (chnOf ch u).dBusy = false ∧ (chnOf ch u).dDone = true ∧ u.zn = s.zn := by
  show ∃ u, execFchDiagDone ch zeros corr ladder s = _ ∧ _
  unfold execFchDiagDone
  extract_lets mine read fl t c d b bad tack empty lad s1 s2 s3
  have hnone : s.fl.ops.any (fun o => mine o && o.st == .queued) = false := by
    simp only [List.any_eq_false, mine, Bool.and_eq_true, beq_iff_eq, not_and]
    exact fun o ho ⟨hw, hc⟩ => hread o ho hw hc
  rw [if_pos (by simp [hbusy, hnone])]
  have h1 : ((chnOf ch s1).dBusy = false ∧ (chnOf ch s1).dDone = true) ∧ s1.zn = s.zn := ⟨by simp [s1], rfl⟩
  have h2 : ((chnOf ch s2).dBusy = false ∧ (chnOf ch s2).dDone = true) ∧ s2.zn = s.zn := by
    simp only [s2]
    split
    · exact ⟨by rw [tackRefused, chnOf_raise, chnOf_updChn]; exact h1.1, h1.2⟩
    · exact h1
  have h3 : ((chnOf ch s3).dBusy = false ∧ (chnOf ch s3).dDone = true) ∧ s3.zn = s.zn := by
    simp only [s3]
    split
    · exact h2
    · exact h2
  refine ⟨_, done_after _, ?_⟩
  rw [chnOf_parkHalted, parkHalted_zn, ← and_assoc]
  split
  · exact h3
  · exact h3

/-! ## Lists (R179) -/

/-- A short list is refilled; where no member waits for a block of the die, none is bound. -/
theorem exec_lowWearListRefillEnd_short {ch lun : Nat} {l : Lun} {s : State} (hl : Tbl.get? s.fl.luns (dieKey ch lun) = some l)
    (hshort : l.low.length ≤ 5)
    (hnone : ∀ p ∈ (refillLists (dieKey ch lun) s).pl.pens, ∀ m ∈ p.2.mem, ¬(m.1 = dieKey ch lun ∧ m.2.1 = 8191)) :
    exec (.lowWearListRefillEnd ch lun) s = .next (after (refillLists (dieKey ch lun) s)) := by
  have hlun := lunOf_of_get hl
  show execLowWearListRefillEnd ch lun s = _
  unfold execLowWearListRefillEnd
  extract_lets d s1 ps
  have hps : ps = [] := by
    simp only [ps, List.map_eq_nil_iff, List.filter_eq_nil_iff, List.any_eq_true, Bool.and_eq_true, beq_iff_eq, not_exists, not_and]
    exact fun p hp m hm hd h8 => hnone p hp m hm ⟨hd, h8⟩
  rw [if_pos (by simp [d, hl, hlun, hshort]), hps]
  exact done_after _

/-! ## O36 -/

/-- Settles O36: each command writes its channel's record, its Shed die's firmware blocks or its die's lists, once what it needs is there. -/
theorem channelsAndLists : Obligations.ChannelsAndLists := by
  unfold Obligations.ChannelsAndLists
  intro ch s
  refine ⟨fun eye hup hdue => ?_, fun rd wr rate hup hre hfull => ⟨fun h => ?_, fun h hr => ?_⟩, fun shed old new hs hdue => ⟨?_, ?_⟩,
    fun v hch hbase hw hidle hgo hmode => ?_, fun zeros corr ladder hbusy hread => exec_fchDiagDone_ends hbusy hread zeros corr ladder,
    fun lun l hl hshort hnone => exec_lowWearListRefillEnd_short hl hshort hnone⟩
  · refine ⟨_, exec_eyePass_due hup hdue eye, ?_⟩
    rw [chnOf_updChn]
    exact ⟨rfl, rfl, fun h => eyeTaken_narrow h _, fun h hc => eyeTaken_wide h hc, rfl, rfl⟩
  · refine ⟨_, exec_retrainEnd_keeps hup hre hfull h rate, ?_⟩
    rw [retrained, chnOf_updChn]
    exact ⟨hfull, rfl, rfl⟩
  · refine ⟨_, exec_retrainEnd_drops hup hre hfull h hr, raises_raise .., ?_⟩
    rw [rateDropped, chnOf_raise, chnOf_updChn]
    exact ⟨rfl, rfl⟩
  · obtain ⟨s1, hblks, hat, hzn, htm, hx⟩ := exec_tackFirmwareRefresh_due hs hdue []
    exact ⟨_, hx, by simp [refreshNoted, hat, htm], hblks, hzn⟩
  · intro hne hold hnew her
    obtain ⟨s1, hblks, -, -, -, hx⟩ := exec_tackFirmwareRefresh_due hs hdue [(16 * shed, old, new)]
    have hbk : ∀ b, bkOf (dieKey (16 * shed) 0) b s1 = bkOf (dieKey (16 * shed) 0) b s := fun b => by simp only [bkOf, hblks]
    rw [← hbk] at hold hnew her
    rw [List.filter_cons_of_pos (by simp), List.filter_nil, List.foldl_cons, List.foldl_nil] at hx
    exact ⟨_, hx, refreshBlock_moves hne hold (hbk new ▸ hnew) her⟩
  · have hm : s.m.cur ≠ .halted := fun h => by simp [h, Mode.isBase] at hbase
    have hfl : (touch 0 s).fl = s.fl := touch_keeps 0 hw (x := .fl) (by decide)
    obtain ⟨hb, hd⟩ := writeDiagCtl_goes (s := touch 0 s) (ch := ch) (by rwa [touch_m 0 hw]) (by simpa only [chnOf, hfl] using hidle) hgo hmode
    exact ⟨_, exec_fchDiagGo_owner hw hch hm, hb, hd,
      (keeps_of_outside (x := .zn) (writeDiagCtl_outside (List.Subset.refl _) ..) (by decide)).trans (touch_zn 0 hw)⟩

end Sys2Proof.Machine

/-! O37. SRAM words, fault injection and the Currycomb (R213 to R218). -/

namespace Sys2Proof.Machine
open Sys2Proof

/-! ## SRAM words (R213, R214) -/

/-- A halt outside EMERGENCY_FLUSH leaves the device in HALTED, where it may stand already. -/
theorem halt_cur {s : State} (hf : s.m.cur ≠ .emergencyFlush) : (halt s).m.cur = .halted := by
  by_cases hh : s.m.cur = .halted
  · rw [halt, if_pos (.inr hh), hh]
  · exact (halt_after hf hh).1

theorem halt_ecc (s : State) : (halt s).ecc = s.ecc := keeps_of_outside (x := .ecc) (halt_outside (List.Subset.refl _) s) (by decide)

theorem grows_halt (s : State) : grows s (halt s) := by
  by_cases h : s.m.cur = .emergencyFlush ∨ s.m.cur = .halted
  · rw [halt, if_pos h]
    exact grows_refl s
  · obtain ⟨hf, hh⟩ := not_or.mp h
    obtain ⟨-, -, -, hgrow, -⟩ := halt_after hf hh
    exact hgrow

section
variable (die region word syn : Nat) (s : State)

/-- The mask stored with a word is a matter of the injection's record. -/
theorem sramStore_ecc : ∃ arm applied flips, (sramStore die region word s).ecc = { s.ecc with arm := arm, applied := applied, flips := flips } := by
  unfold sramStore
  split
  · exact ⟨_, _, _, rfl⟩
  · exact ⟨_, _, _, rfl⟩

/-- It changes neither count of words found with errors. -/
theorem sramFlip_counts : (sramFlip die region word s).ecc.sramCe = s.ecc.sramCe ∧ (sramFlip die region word s).ecc.sramUe = s.ecc.sramUe := by
  unfold sramFlip
  split
  · exact ⟨rfl, rfl⟩
  · obtain ⟨arm, applied, flips, h⟩ := sramStore_ecc die region word s
    rw [h]
    exact ⟨rfl, rfl⟩

theorem sramFlip_keeps {x : Comp} (hx : x ∉ [Comp.ecc, .stb]) : keeps x s (sramFlip die region word s) :=
  keeps_of_outside (sramFlip_outside (List.Subset.refl _) ..) hx

/-- A word with an error that cannot be corrected has been found, and is on record. -/
def wordLost : State := sramBroken die region word syn (sramFlip die region word s)

theorem wordLost_m : (wordLost die region word syn s).m = s.m := sramFlip_keeps die region word s (x := .m) (by decide)

theorem wordLost_zn : (wordLost die region word syn s).zn = s.zn := sramFlip_keeps die region word s (x := .zn) (by decide)

theorem wordLost_raises : raises 0x5002 (wordLost die region word syn s) := raises_raise ..

theorem wordLost_counts : (wordLost die region word syn s).ecc.sramUe = satAdd 32 s.ecc.sramUe 1 ∧ (wordLost die region word syn s).ecc.lastUe = true :=
  ⟨congrArg (satAdd 32 · 1) (sramFlip_counts die region word s).2, rfl⟩

theorem mem_sramRebuild : (die, region, word) ∈ (sramRebuild die region word s).ecc.rebuild := by
  unfold sramRebuild
  split
  next h => exact List.contains_iff_mem.mp h
  next => exact List.mem_append_right _ (List.mem_singleton_self _)

theorem sramRebuild_keeps {x : Comp} (hx : x ∉ [Comp.ecc]) : keeps x s (sramRebuild die region word s) :=
  keeps_of_outside (sramRebuild_outside (List.Subset.refl _) ..) hx

theorem grows_sramRebuild : grows s (sramRebuild die region word s) := grows_ite (grows_refl s) (grows_of_eq rfl)
end

theorem readRepeats_keeps {x : Comp} (hx : x ∉ [Comp.q, .ga]) (id : Nat) (s : State) : keeps x s (readRepeats id s) :=
  keeps_of_outside (readRepeats_outside (List.Subset.refl _) ..) hx

theorem readFails_keeps {x : Comp} (hx : x ∉ [Comp.q, .ga]) (id : Nat) (s : State) : keeps x s (readFails id s) :=
  keeps_of_outside (readFails_outside (List.Subset.refl _) ..) hx

/-- What a reader loses with a word: the first time it reads again, the second its missing blocks have failed (Table 7.7, region 1). -/
def readerLoses (hit : Nat) (again : Bool) (s : State) : State := if again then readFails hit s else readRepeats hit s

theorem readerLoses_keeps {x : Comp} (hx : x ∉ [Comp.q, .ga]) (hit : Nat) (again : Bool) (s : State) : keeps x s (readerLoses hit again s) := by
  cases again
  · exact readRepeats_keeps hx hit s
  · exact readFails_keeps hx hit s

section
variable {die word : Nat} {s : State}

theorem exec_sramCorrectableError_found {region : Nat} (h : sramFinds die region word false s = true) (syn : Nat) :
    exec (.sramCorrectableError die region word syn) s = .next (after (sramCorrected die region word syn (sramFlip die region word s))) := if_pos h

theorem exec_sramUncorrectableError_code (h : sramFinds die 4 word true s = true) (syn hit : Nat) (again : Bool) :
    exec (.sramUncorrectableError die 4 word syn hit again) s = .next (afterIo (halt (wordLost die 4 word syn s))) := if_pos h

theorem exec_sramUncorrectableError_table {region : Nat} (hr : region = 2 ∨ region = 3) (h : sramFinds die region word true s = true)
    (syn hit : Nat) (again : Bool) : exec (.sramUncorrectableError die region word syn hit again) s =
      .next (afterIo (sramRebuild die region word (wordLost die region word syn s))) := by
  rcases hr with rfl | rfl
  · exact if_pos h
  · exact if_pos h

theorem exec_sramUncorrectableError_reader (h : sramFinds die 1 word true s = true) (syn hit : Nat) (again : Bool) :
    exec (.sramUncorrectableError die 1 word syn hit again) s = .next (afterIo (readerLoses hit again (wordLost die 1 word syn s))) := if_pos h
end

/-! ## Lines rebuilt (R214) -/

/-- A line waits no longer for its rebuild, and holds no word with an error. -/
def lineRebuilt (die region word : Nat) (s : State) : State :=
  { s with ecc := { s.ecc with
    rebuild := s.ecc.rebuild.erase (die, region, word)
    flips := s.ecc.flips.filter (fun e => !decide (region = 3 ∧ e.1 / 8 = wordKey die word / 8)) } }

section
variable {die region word : Nat} {s : State} (h : (die, region, word) ∈ s.ecc.rebuild)
include h

theorem exec_tableLineRebuildEnd_done : exec (.tableLineRebuildEnd die region word true) s =
    .next (afterIo (raise 0x5003 2 [h1 die, h1 region, h2 word] (lineRebuilt die region word s))) := if_pos (List.contains_iff_mem.mpr h)

theorem exec_tableLineRebuildEnd_failed : exec (.tableLineRebuildEnd die region word false) s =
    .next (afterIo (halt (lineRebuilt die region word s))) := if_pos (List.contains_iff_mem.mpr h)
end

/-! ## Fault injection (R215) -/

theorem writeFlipCtl_armed {v : Nat} {s : State} (ha : s.ecc.arm = true) (hv : bit v 0 = true) : writeFlipCtl v s = s := by
  simp [writeFlipCtl, ha, hv]

/-- A write that is not one of ARM = 1 onto an armed mask is taken whole. -/
theorem writeFlipCtl_taken {v : Nat} {s : State} (h : s.ecc.arm = false ∨ bit v 0 = false) : writeFlipCtl v s = { s with ecc := { s.ecc with
    arm := bit v 0, target := bit v 1, fDie := bits v 4 2, fRegion := bits v 7 5, fChannel := bits v 13 8, fCount := bits v 24 14 } } := by
  refine if_neg ?_
  rcases h with h | h <;> simp [h]

theorem touch_ecc (f : Nat) {s : State} (hw : plainWake s) : (touch f s).ecc = s.ecc := touch_keeps f hw (x := .ecc) (by decide)

section
variable {v : Dword} {s : State} (hw : plainWake s) (hm : s.m.cur ≠ .halted)
include hw hm

theorem exec_eccFlipArm_owner (hv : bit v.toNat 0 = true) : exec (.eccFlipArm 0 v) s = .next (after (writeFlipCtl v.toNat (touch 0 s))) :=
  (if_pos hv).trans (txsRow_owner hw hm _)

theorem exec_eccFlipDisarm_owner (hv : bit v.toNat 0 = false) : exec (.eccFlipDisarm 0 v) s = .next (after (writeFlipCtl v.toNat (touch 0 s))) :=
  (if_neg (Bool.eq_false_iff.mp hv)).trans (txsRow_owner hw hm _)
end

/-! ## Passes queued (R216) -/

/-- Where no pass runs, one that is queued runs at once. -/
theorem queuePass_idle (p : Pass) {s : State} (h : s.ecc.running = none) :
    queuePass p s = { s with ecc := { s.ecc with running := some p, progress := 0 } } := by
  simp only [queuePass, h]

/-- An automatic pass stops none. -/
theorem queuePass_running {p : Pass} (hp : p.ctx = none) (s : State) : (queuePass p s).ecc.running = s.ecc.running.or (some p) := by
  unfold queuePass
  split
  next h => rw [h, Option.none_or]
  next r h => simp [hp, h]

theorem dropComb_ecc (s : State) : (dropComb s).ecc = s.ecc := keeps_of_outside (x := .ecc) (dropComb_outside (List.Subset.refl _) s) (by decide)

/-- When the next automatic rounds are due is not the queue's matter. -/
theorem queuePass_rounds (p : Pass) (s : State) :
    (queuePass p s).ecc.mediaAt = s.ecc.mediaAt ∧ (queuePass p s).ecc.sramAt = s.ecc.sramAt := by
  unfold queuePass
  split
  next => exact ⟨rfl, rfl⟩
  next =>
    dsimp only
    split_ifs
    · simp only [dropComb_ecc, and_self]
    · exact ⟨rfl, rfl⟩
    · exact ⟨rfl, rfl⟩

theorem queuePass_zn (p : Pass) (s : State) : (queuePass p s).zn = s.zn :=
  keeps_of_outside (x := .zn) (queuePass_outside (List.Subset.refl _) p s) (by decide)

/-- A round of automatic passes: one for each target, in their order. -/
def queueRound (pass : Nat → Pass) (targets : List Nat) (s : State) : State := targets.foldl (fun s x => queuePass (pass x) s) s

theorem queueRound_rounds (pass : Nat → Pass) (targets : List Nat) (s : State) :
    (queueRound pass targets s).ecc.mediaAt = s.ecc.mediaAt ∧ (queueRound pass targets s).ecc.sramAt = s.ecc.sramAt :=
  ⟨foldl_keeps (·.ecc.mediaAt) _ (fun t x => (queuePass_rounds (pass x) t).1) ..,
    foldl_keeps (·.ecc.sramAt) _ (fun t x => (queuePass_rounds (pass x) t).2) ..⟩

theorem queueRound_zn (pass : Nat → Pass) (targets : List Nat) (s : State) : (queueRound pass targets s).zn = s.zn :=
  foldl_keeps State.zn _ (fun t x => queuePass_zn (pass x) t) ..

/-- The first pass of a round runs, unless one runs already. -/
theorem queueRound_running {pass : Nat → Pass} (hp : ∀ x, (pass x).ctx = none) :
    ∀ (targets : List Nat) (s : State), (queueRound pass targets s).ecc.running = s.ecc.running.or (targets.head?.map pass)
  | [], s => (Option.or_none ..).symm
  | x :: xs, s => calc
      (queueRound pass xs (queuePass (pass x) s)).ecc.running
        = (queuePass (pass x) s).ecc.running.or (xs.head?.map pass) := queueRound_running hp xs _
      _ = (s.ecc.running.or (some (pass x))).or (xs.head?.map pass) := by rw [queuePass_running (hp x)]
      _ = s.ecc.running.or (some (pass x)) := by rw [Option.or_assoc, Option.some_or]

/-! ## Passes asked for (R216, Table 7.8) -/

section
variable {k : Ctx} {s : State}

/-- With four passes outstanding none is taken, whatever its scope. -/
theorem currycombOn_full (h : 4 ≤ askedPasses s) : currycombOn k s = fin k 0 0x02 s :=
  (if_congr Iff.rfl rfl (if_pos h)).trans (ite_self _)

variable (hscope : bits k.cmd.cdw10.toNat 1 0 = 1)
include hscope

theorem currycombOn_noRows (hy : yardRows (bits k.cmd.cdw10.toNat 13 8) s = []) : currycombOn k s = fin k 0 0x02 s := by
  simp [currycombOn, hscope, hy]

/-- A pass over a Yard that has rows runs where none does, and its command waits for it. -/
theorem currycombOn_yard (hfew : askedPasses s < 4) (hy : yardRows (bits k.cmd.cdw10.toNat 13 8) s ≠ []) (hr : s.ecc.running = none) :
    currycombOn k s = { putCtx { k with wait := .ccb } s with ecc := { s.ecc with
      running := some (newPass (some k.seq) 1 (bit k.cmd.cdw10.toNat 2) (bits k.cmd.cdw10.toNat 13 8) 0 0 0 false), progress := 0 } } := by
  have hq : currycombOn k s = queuePass (newPass (some k.seq) 1 (bit k.cmd.cdw10.toNat 2) (bits k.cmd.cdw10.toNat 13 8) 0 0 0 false)
      (putCtx { k with wait := .ccb } s) := by simp [currycombOn, hscope, hy, Nat.not_le.mpr hfew]
  exact hq.trans (queuePass_idle _ hr)
end

section
variable {c : Cmd} {s s1 : State} {k : Ctx} (ht : taken c s = some (k, s1)) (hp : plainForm k) (hn : notSanitizing s1)
include ht

theorem exec_currycombPass_stall (hf : isPf c.fn = false) : exec (.currycombPass c) s = .next (afterIo (fin k 0 0x01 s1)) := by
  show execCurrycombPass c s = _
  rw [execCurrycombPass, withCmd_taken ht, hf, gateAdmin_denied, doneIo_after]

include hp hn

theorem exec_currycombPass_pf (hf : isPf c.fn = true) : exec (.currycombPass c) s = .next (afterIo (currycombOn (dispatch k) s1)) := by
  show execCurrycombPass c s = _
  rw [execCurrycombPass, withCmd_taken ht, hf, gateAdmin_plain hp hn, doneIo_after]
  rfl

/-- A pass that the checks of Table 7.8 refuse. -/
theorem currycombPass_refuses (hf : isPf c.fn = true) {sct sc : Nat} (h : currycombOn (dispatch k) s1 = fin (dispatch k) sct sc s1) :
    ∃ u, exec (.currycombPass c) s = .next (afterIo u) ∧ endsWith k sct sc 0 [] s1 u :=
  ⟨_, (exec_currycombPass_pf ht hp hn hf).trans (congrArg (fun u => Host.Outcome.next (afterIo u)) h), endsWith_dispatch ..⟩
end

/-! ## Automatic rounds (R216) -/

/-- The Paddock's round begins. -/
def paddockRound (s : State) : State := queuePass (newPass none 3 true 0 0 0 0 false) { s with ecc := { s.ecc with paddockDue := false } }

theorem paddockRound_idle {s : State} (h : s.ecc.running = none) : paddockRound s =
    { s with ecc := { s.ecc with paddockDue := false, running := some (newPass none 3 true 0 0 0 0 false), progress := 0 } } := queuePass_idle _ h

/-- The round over every Yard with rows begins. -/
def mediaRound (s : State) : State :=
  queueRound (fun y => newPass none 1 true y 0 0 0 false) ((List.range 64).filter (fun y => !(yardRows y s).isEmpty))
    { s with ecc := { s.ecc with mediaAt := s.tm.elapsed } }

/-- The round over every SRAM region begins: one pass for each die fitted. -/
def sramRound (s : State) : State :=
  queueRound (fun d => newPass none 2 false (d * 8 + 7) 0 0 0 false) (List.range (s.part.sheds + 1))
    { s with ecc := { s.ecc with sramAt := s.tm.elapsed } }

/-- It begins on the Core die. -/
theorem sramRound_running {s : State} (h : s.ecc.running = none) : (sramRound s).ecc.running = some (newPass none 2 false 7 0 0 0 false) := by
  rw [sramRound, queueRound_running fun _ => rfl, h, Option.none_or, List.head?_range]
  rfl

section
variable {s : State} (ha : s.ecc.auto = true) (hr : s.ecc.running = none) (hb : s.m.cur.isBase = true)
include ha hr hb

theorem exec_currycombAutoPassStart_paddock (hp : s.ecc.paddockDue = true) :
    exec .currycombAutoPassStart s = .next (afterIo (paddockRound s)) := by
  show execCurrycombAutoPassStart s = _
  rw [execCurrycombAutoPassStart, if_pos (by simp [ha, hr, hb]), if_pos hp, doneIo_after]
  rfl

variable (hp : s.ecc.paddockDue = false)
include hp

theorem exec_currycombAutoPassStart_media (hmedia : s.ecc.mediaAt + s.ecc.mediaDays * 86400000000 ≤ s.tm.elapsed) :
    exec .currycombAutoPassStart s = .next (afterIo (mediaRound s)) := by
  show execCurrycombAutoPassStart s = _
  rw [execCurrycombAutoPassStart, if_pos (by simp [ha, hr, hb]), if_neg (Bool.eq_false_iff.mp hp), if_pos hmedia]
  exact doneIo_after _

theorem exec_currycombAutoPassStart_sram (hmedia : s.tm.elapsed < s.ecc.mediaAt + s.ecc.mediaDays * 86400000000)
    (hsram : s.ecc.sramAt + s.ecc.sramMin * 60000000 ≤ s.tm.elapsed) : exec .currycombAutoPassStart s = .next (afterIo (sramRound s)) := by
  show execCurrycombAutoPassStart s = _
  rw [execCurrycombAutoPassStart, if_pos (by simp [ha, hr, hb]), if_neg (Bool.eq_false_iff.mp hp), if_neg (Nat.not_le.mpr hmedia), if_pos hsram]
  exact doneIo_after _
end

/-! ## A pass that has read everything (R217) -/

/-- The summary a pass ends with: an SRAM pass's counts are what the command found. -/
def passSummary (p : Pass) (res : PassRes) (s : State) : Summary :=
  if p.scope = 2 then { p.summary 1 with words := sramWords p res.words s, c1 := res.c1, uncorr := res.uncorr, durMs := res.durMs } else p.summary 1

/-- The pass has left its figures, and the next one queued runs. -/
def nextPass (p : Pass) (s : State) : State :=
  { takeSurvey p s with ecc := { (takeSurvey p s).ecc with
    running := (takeSurvey p s).ecc.queued.head?, queued := (takeSurvey p s).ecc.queued.drop 1
    progress := match (takeSurvey p s).ecc.queued.head? with | some q => q.sum.words | none => 0 } }

theorem takeSurvey_ecc (p : Pass) (s : State) : ∃ t, (takeSurvey p s).ecc = { s.ecc with survey := t } := by
  unfold takeSurvey
  split
  · exact ⟨_, rfl⟩
  · exact ⟨_, rfl⟩

theorem nextPass_ecc (p : Pass) (s : State) : (nextPass p s).ecc.running = s.ecc.queued.head? ∧ (nextPass p s).ecc.queued = s.ecc.queued.drop 1 ∧
    (nextPass p s).ecc.passCnt = s.ecc.passCnt := by
  obtain ⟨t, ht⟩ := takeSurvey_ecc p s
  simp only [nextPass, ht, and_self]

theorem postFull_ecc (s : State) (k : Ctx) (sct sc dw0 cs1 : Nat) (data : List Byte) : (postFull k sct sc dw0 cs1 data s).ecc = s.ecc :=
  keeps_of_outside (x := .ecc) (postFull_outside (List.Subset.refl _) ..) (by decide)

section
variable (p : Pass) (x : Summary) (s : State)

/-- A pass that ends is the last one, and counted; its command's completion adds nothing to the record. -/
theorem closePass_ecc : (closePass p x s).ecc = { s.ecc with last := x, passCnt := wrapAdd 16 s.ecc.passCnt 1 } := by
  unfold closePass
  extract_lets _ s1
  split
  · split
    · exact postFull_ecc s1 ..
    · rfl
  · rfl

theorem closePass_raises : raises 0x5020 (closePass p x s) := by
  unfold closePass
  extract_lets _ s1
  have h1 : raises 0x5020 s1 := raises_raise ..
  split
  · split
    · exact raises_of_eq (congrArg Stb.raised (postFull_stb ..)) h1
    · exact h1
  · exact h1
end

theorem resizePaddock_ecc (s : State) : (resizePaddock s).ecc = s.ecc :=
  keeps_of_outside (x := .ecc) (resizePaddock_outside (List.Subset.refl _) s) (by decide)

/-- What P is, and the fill it was set from, are no events. -/
theorem grows_setPaddock {s t : State} (h : grows s t) (size : Nat) (fill : Nat × Nat) :
    grows s { t with pl := { t.pl with p := size, fillSet := fill } } := h

/-- The values are cleared so that the kernel does not compute P to compare the events. -/
theorem grows_resizePaddock (s : State) : grows s (resizePaddock s) := by
  unfold resizePaddock
  split
  · exact grows_refl s
  · extract_lets f p s1
    have h1 : grows s s1 := grows_ite (grows_refl s) (grows_raise ..)
    clear_value s1 p f
    exact grows_ite (grows_refl s) (grows_setPaddock h1 p f)

theorem exec_currycombPassEnd_done {p : Pass} {s : State} (hr : s.ecc.running = some p) (hd : passDone p s = true) (res : PassRes) :
    exec (.currycombPassEnd res) s = .next (afterIo (resizePaddock (closePass p (passSummary p res s) (nextPass p s)))) := by
  show execCurrycombPassEnd res s = _
  rw [execCurrycombPassEnd, hr]
  exact (if_neg (by simp [hd])).trans (doneIo_after (resizePaddock (closePass p (passSummary p res s) (nextPass p s))))

/-! ## O37 -/

/-- Settles O37: each command of the SRAM, the injection and the Currycomb answers one state, whose record the lemmas above read. -/
theorem sramAndCurrycomb : Obligations.SramAndCurrycomb := by
  unfold Obligations.SramAndCurrycomb
  refine ⟨fun die region word syn s => ⟨fun h => ?_, fun h hit again => ⟨fun hr hf hh => ?_, fun hr => ?_, fun k hr _ => ?_⟩,
    fun h => ⟨?_, fun hf => ?_⟩, fun v hw hm => ⟨fun hv ha => ?_, fun hv ha => ?_, fun hv => ?_⟩⟩,
    fun s => ⟨fun c s1 k ht hp hn => ⟨fun hf => ?_, fun hf h4 => ?_, fun hf h4 hs hy => ?_, fun hf h4 hs hy hr => ?_⟩,
      fun ha hr hb hp => ?_, fun ha hr hb hp hm => ?_, fun ha hr hb hp hm hs => ?_, fun p res hr hd => ?_⟩⟩
  · exact ⟨_, exec_sramCorrectableError_found h syn, raises_raise .., congrArg (satAdd 64 · 1) (sramFlip_counts die region word s).1, rfl, rfl, rfl,
      sramFlip_keeps die region word s (x := .zn) (by decide), sramFlip_keeps die region word s (x := .m) (by decide)⟩
  · subst hr
    obtain ⟨hue, hlast⟩ := wordLost_counts die 4 word syn s
    refine ⟨_, exec_sramUncorrectableError_code h syn hit again, raises_mono (grows_halt _) (wordLost_raises ..), halt_cur ?_, ?_, ?_⟩
    · rwa [wordLost_m]
    · rw [halt_ecc, hue]
    · rw [halt_ecc, hlast]
  · exact ⟨_, exec_sramUncorrectableError_table hr h syn hit again, raises_mono (grows_sramRebuild ..) (wordLost_raises ..), mem_sramRebuild ..,
      (sramRebuild_keeps die region word _ (x := .m) (by decide)).trans (wordLost_m ..),
      (sramRebuild_keeps die region word _ (x := .zn) (by decide)).trans (wordLost_zn ..)⟩
  · subst hr
    exact ⟨_, exec_sramUncorrectableError_reader h syn hit again,
      raises_of_eq (congrArg Stb.raised (readerLoses_keeps (x := .stb) (by decide) ..)) (wordLost_raises ..),
      (readerLoses_keeps (x := .zn) (by decide) ..).trans (wordLost_zn ..), (readerLoses_keeps (x := .m) (by decide) ..).trans (wordLost_m ..)⟩
  · exact ⟨_, exec_tableLineRebuildEnd_done h, raises_raise .., rfl, rfl⟩
  · exact ⟨_, exec_tableLineRebuildEnd_failed h, halt_cur hf⟩
  · have hecc := touch_ecc 0 hw
    refine ⟨_, exec_eccFlipArm_owner hw hm hv, ?_⟩
    rw [writeFlipCtl_taken (.inl (by rw [hecc, ha]))]
    exact ⟨hv, rfl, rfl, rfl, rfl, rfl, touch_zn 0 hw⟩
  · have hecc := touch_ecc 0 hw
    refine ⟨_, exec_eccFlipArm_owner hw hm hv, ?_⟩
    rw [writeFlipCtl_armed (by rw [hecc, ha]) hv, hecc]
  · refine ⟨_, exec_eccFlipDisarm_owner hw hm hv, ?_⟩
    rw [writeFlipCtl_taken (.inr hv)]
    exact ⟨hv, touch_zn 0 hw⟩
  · exact ⟨_, exec_currycombPass_stall ht hf, endsWith_fin ..⟩
  · exact currycombPass_refuses ht hp hn hf (currycombOn_full h4)
  · obtain rfl := taken_cmd ht
    exact currycombPass_refuses ht hp hn hf (currycombOn_noRows (k := dispatch k) hs hy)
  · obtain rfl := taken_cmd ht
    refine ⟨_, { dispatch k with wait := .ccb }, exec_currycombPass_pf ht hp hn hf, rfl, rfl, rfl, ?_⟩
    rw [currycombOn_yard (k := dispatch k) hs h4 hy hr]
    exact ⟨rfl, rfl, rfl⟩
  · refine ⟨_, exec_currycombAutoPassStart_paddock ha hr hb hp, ?_⟩
    rw [paddockRound_idle hr]
    exact ⟨rfl, rfl, rfl⟩
  · exact ⟨_, exec_currycombAutoPassStart_media ha hr hb hp hm, (queueRound_rounds ..).1, (queueRound_rounds ..).2, queueRound_zn ..⟩
  · refine ⟨_, exec_currycombAutoPassStart_sram ha hr hb hp hm hs, (queueRound_rounds ..).2, ?_, queueRound_zn ..⟩
    rw [sramRound_running hr]
    rfl
  · obtain ⟨hrun, hq, hcnt⟩ := nextPass_ecc p s
    refine ⟨_, exec_currycombPassEnd_done hr hd res, raises_mono (grows_resizePaddock _) (closePass_raises ..), ?_⟩
    rw [resizePaddock_ecc, closePass_ecc]
    refine ⟨hrun, hq, congrArg (wrapAdd 16 · 1) hcnt, fun h2 => if_neg h2, fun h2 => ?_⟩
    rw [passSummary, if_pos h2]
    exact ⟨rfl, rfl⟩

end Sys2Proof.Machine

/-! O38. Doorbells and fetching. -/

namespace Sys2Proof.Machine
open Sys2Proof

/-! ## Submission queues under completions and asynchronous events -/

/-- The submission queues of every function. -/
def sqsOf (s : State) : Nat → Tbl Sq := fun f => (fnOf f s).sqs

/-- A change of a function's record that leaves its submission queues. -/
theorem sqsOf_updFn {g : Fn → Fn} {f : Nat} {s : State} (h : (g (fnOf f s)).sqs = (fnOf f s).sqs) : sqsOf (updFn f g s) = sqsOf s := by
  funext x
  show (fnOf x (updFn f g s)).sqs = (fnOf x s).sqs
  by_cases hx : x = f
  · subst hx
    rw [fnOf_updFn, h]
  · rw [fnOf_updFn_other _ _ _ _ hx]

theorem sqsOf_signal (f vec : Nat) (s : State) : sqsOf (signal f vec s) = sqsOf s := sqsOf_updFn (by split <;> rfl)

theorem sqsOf_cqPush (f : Nat) (e : Cqe) (s : State) : sqsOf (cqPush f e s).1 = sqsOf s := by
  unfold cqPush
  extract_lets n
  split
  · rfl
  · split
    · exact sqsOf_updFn rfl
    · extract_lets wrap now c' s1 _ s2
      have h2 : sqsOf s2 = sqsOf s := sqsOf_updFn (f := f) (s := s) (g := fun n => { n with cqs := Tbl.put n.cqs e.cqid c' }) rfl
      show sqsOf (if now && _ then signal f _ s2 else s2) = sqsOf s
      split
      · exact (sqsOf_signal ..).trans h2
      · exact h2

/-- A completion leaves the submission queues. -/
theorem sqsOf_postFull (k : Ctx) (sct sc dw0 cs1 : Nat) (data : List Byte) (s : State) : sqsOf (postFull k sct sc dw0 cs1 data s) = sqsOf s := by
  have hlog : sqsOf (if sct = 7 then logError k sct sc s else s) = sqsOf s := by split <;> rfl
  have hcvu : ∀ g t, sqsOf (cvuFold k g t) = sqsOf t := fun g t => by unfold sqsOf fnOf; rw [cvuFold_q]
  unfold postFull
  split
  · rfl
  · split
    · rfl
    · extract_lets s1 r
      have hr : sqsOf r.1 = sqsOf s := (sqsOf_cqPush ..).trans ((hcvu ..).trans hlog)
      split
      · exact hr
      · exact hr

theorem sqsOf_deliverAen (f : Nat) : ∀ (n : Nat) (s : State), sqsOf (deliverAen f n s) = sqsOf s
  | 0, _ => rfl
  | n + 1, s => by
    unfold deliverAen
    split
    · exact (sqsOf_deliverAen f n _).trans ((sqsOf_postFull ..).trans (sqsOf_updFn rfl))
    · rfl

/-- An asynchronous event leaves the submission queues, and raises nothing. -/
theorem aenFn_leaves (f typ info log : Nat) (s : State) : sqsOf (aenFn f typ info log s) = sqsOf s ∧ (aenFn f typ info log s).stb = s.stb := by
  unfold aenFn
  split
  · exact ⟨rfl, rfl⟩
  · exact ⟨sqsOf_deliverAen .., deliverAen_stb ..⟩

/-! ## Doorbells (R223) -/

/-- An invalid doorbell write is on record and leaves the submission queues. -/
theorem badDoorbell_leaves (f qid val info : Nat) (s : State) :
    raises 0x6020 (badDoorbell f qid val info s) ∧ sqsOf (badDoorbell f qid val info s) = sqsOf s := by
  unfold badDoorbell
  extract_lets s1
  have hr : raises 0x6020 s1 := raises_raise ..
  split
  · obtain ⟨hsqs, hstb⟩ := aenFn_leaves f 0 info 1 s1
    exact ⟨raises_of_eq (congrArg Stb.raised hstb) hr, hsqs⟩
  · exact ⟨hr, rfl⟩

/-- An access leaves the contexts. -/
theorem touch_ctxs (f : Nat) {s : State} (hs : plainWake s) : (touch f s).q.ctxs = s.q.ctxs := by
  unfold touch
  split
  · rw [repower_q]
    split
    · rw [wake_q (s := setFnPs f _ s) 1 hs]; rfl
    · rw [wake_q 1 hs]
  · rfl

/-- An access leaves the submission queues of the function accessed. -/
theorem touch_sqs (f : Nat) {s : State} (hs : plainWake s) : (fnOf f (touch f s)).sqs = (fnOf f s).sqs := by
  obtain ⟨x, hx⟩ := touch_fnOf f hs
  rw [hx]

section
variable {fn qid val : Nat} {s : State} (hf : fnPresent fn s = true)
include hf

section
variable (hs : plainWake s)
include hs

theorem exec_sqTailDoorbell_valid {q : Sq} (hq : Tbl.get? (fnOf fn s).sqs qid = some q) (hv : val < q.size) :
    exec (.sqTailDoorbell fn qid val) s =
      .next (after (updFn fn (fun n => { n with sqs := Tbl.put n.sqs qid { q with tail := val } }) (touch fn s))) := by
  rw [← touch_sqs fn hs] at hq
  show execSqTailDoorbell fn qid val s = _
  simp [execSqTailDoorbell, hf, hq, Nat.not_le.2 hv, done_after]

theorem exec_sqTailDoorbell_invalid {q : Sq} (hq : Tbl.get? (fnOf fn s).sqs qid = some q) (hv : q.size ≤ val) :
    exec (.sqTailDoorbell fn qid val) s = .next (after (badDoorbell fn qid val 1 (touch fn s))) := by
  rw [← touch_sqs fn hs] at hq
  show execSqTailDoorbell fn qid val s = _
  simp [execSqTailDoorbell, hf, hq, hv, done_after]

theorem exec_sqTailDoorbell_absent (hq : Tbl.get? (fnOf fn s).sqs qid = none) :
    exec (.sqTailDoorbell fn qid val) s = .next (after (badDoorbell fn qid val 0 (touch fn s))) := by
  rw [← touch_sqs fn hs] at hq
  show execSqTailDoorbell fn qid val s = _
  simp [execSqTailDoorbell, hf, hq, done_after]
end

/-- A function's completion queue with a new head, and what it held posted. -/
theorem exec_cqHeadDoorbell_valid {q : Cq} (hq : Tbl.get? (fnOf fn s).cqs qid = some q) (hv : val < q.size) :
    exec (.cqHeadDoorbell fn qid val) s =
      .next (afterIo (postHeld fn qid (updFn fn (fun n => { n with cqs := Tbl.put n.cqs qid { q with head := val } }) s))) := by
  show execCqHeadDoorbell fn qid val s = _
  simp [execCqHeadDoorbell, hf, hq, Nat.not_le.2 hv, doneIo_after]

theorem exec_cqHeadDoorbell_invalid {q : Cq} (hq : Tbl.get? (fnOf fn s).cqs qid = some q) (hv : q.size ≤ val) :
    exec (.cqHeadDoorbell fn qid val) s = .next (after (badDoorbell fn qid val 1 s)) := by
  show execCqHeadDoorbell fn qid val s = _
  simp [execCqHeadDoorbell, hf, hq, hv, done_after]
end

/-- A completion queue that holds nothing back posts nothing: it is put as it stands. -/
theorem postHeld_empty {f qid : Nat} {s : State} {q : Cq} (hq : Tbl.get? (fnOf f s).cqs qid = some q) (hh : q.held = []) :
    postHeld f qid s = updFn f (fun n => { n with cqs := Tbl.put n.cqs qid q }) s := by
  have hput : { q with held := [] } = q := by rw [← hh]
  simp only [postHeld, hq, hh, List.foldl_nil, hput]

/-! ## Fetching (R229 to R231) -/

/-- The resume record is the journal's. -/
theorem resumeRecord_q (s : State) : (resumeRecord s).q = s.q := by
  unfold resumeRecord
  split <;> rfl

/-- The captures of check-value units are none of the queues'. -/
theorem captures_q (l : List Nat) (s : State) :
    (l.foldl (fun s e => updCvu (e / 8) (fun c => { c with took := c.took || c.one }) s) s).q = s.q :=
  foldl_keeps State.q _ (fun _ _ => by unfold updCvu; rfl) l s

/-- The queues with a context more. -/
def withCtx (k : Ctx) (q : Qs) : Qs := { q with seq := k.seq, ctxs := q.ctxs ++ [k] }

/-- A fetch advances the head of the SQ and takes a new context; of the queues it changes nothing else. -/
theorem fetchNow_q (c : Cmd) (s : State) : (fetchNow c s).2.q = withCtx (newCtx c s) (popSq c.fn c.sqid s).q := by
  have popped : ∀ t : State, t.q = s.q → (resumeRecord (popSq c.fn c.sqid t)).q = (popSq c.fn c.sqid s).q := by
    intro t h
    rw [resumeRecord_q]
    simp only [popSq, updFn, fnOf, h]
  exact congrArg (withCtx (newCtx c s)) (popped _ (captures_q ..))

theorem fetchNow_zn (c : Cmd) (s : State) : (fetchNow c s).2.zn = s.zn :=
  keeps_of_outside (x := .zn) (fetchNow_outside (List.Subset.refl _) c s) (by decide)

/-- The head of an SQ that is not empty moves on by one, and its tail stays. -/
theorem popSq_sq {f qid : Nat} {s : State} {x : Sq} (hx : Tbl.get? (fnOf f s).sqs qid = some x) (h0 : x.size ≠ 0) (hne : x.head ≠ x.tail) :
    Tbl.get? (fnOf f (popSq f qid s)).sqs qid = some { x with head := (x.head + 1) % x.size } := by
  simp [popSq, hx, h0, hne]

/-- The state in which the arbiter has granted an SQ of a function. -/
def granted (f : Nat) (n : Fn) (s : State) : State :=
  let t := updFn f (fun _ => n) s
  { t with q := { t.q with lastFn := f } }

theorem fnOf_granted (f : Nat) (n : Fn) (s : State) : fnOf f (granted f n s) = n := fnOf_updFn f (fun _ => n) s

section
variable {s : State} (hw : (allFns s).any (fun f => waiting f s && !ctxFree f s) = false)
include hw

theorem exec_fetchSlot_granted (c : Cmd) {f q : Nat} {n : Fn} (hp : slotPick s = some (f, q, n)) :
    exec (.fetchSlot c) s = .next (after (fetchNow { c with fn := f, sqid := q } (granted f n s)).2) := by
  change execFetchSlot c s = _
  unfold execFetchSlot
  extract_lets s0
  have h0 : s0 = s := if_neg (by rw [hw]; exact Bool.false_ne_true)
  rw [h0, hp]
  exact done_after _

theorem exec_fetchSlot_nothing (c : Cmd) (hp : slotPick s = none) : exec (.fetchSlot c) s = .next (after s) := by
  change execFetchSlot c s = _
  unfold execFetchSlot
  extract_lets s0
  have h0 : s0 = s := if_neg (by rw [hw]; exact Bool.false_ne_true)
  rw [h0, hp]
  exact done_after _
end

/-! ## O38 -/

/-- Settles O38: a doorbell is an access, then its record or an invalid write; a fetch slot is the arbiter's grant, then a fetch. -/
theorem doorbellsAndFetch : Obligations.DoorbellsAndFetch := by
  unfold Obligations.DoorbellsAndFetch
  intro fn qid val s hf
  refine ⟨fun q hs hq => ⟨fun hv => ?_, fun hv => ?_⟩, fun hs hq => ?_, fun q hq => ⟨fun hv hh => ?_, fun hv => ?_⟩,
    fun c f q n x hw hp hx h0 hne => ?_, fun c hw hp => exec_fetchSlot_nothing hw c hp⟩
  · refine ⟨_, exec_sqTailDoorbell_valid hf hs hq hv, ?_, touch_zn fn hs, touch_ctxs fn hs⟩
    rw [fnOf_updFn, Tbl.get?_put_same]
  · obtain ⟨hr, hsqs⟩ := badDoorbell_leaves fn qid val 1 (touch fn s)
    refine ⟨_, exec_sqTailDoorbell_invalid hf hs hq hv, hr, ?_⟩
    rw [show (fnOf fn (badDoorbell fn qid val 1 (touch fn s))).sqs = _ from congrFun hsqs fn]
    exact (congrArg (Tbl.get? · qid) (touch_sqs fn hs)).trans hq
  · exact ⟨_, exec_sqTailDoorbell_absent hf hs hq, (badDoorbell_leaves ..).1⟩
  · refine ⟨_, exec_cqHeadDoorbell_valid hf hq hv, ?_⟩
    rw [postHeld_empty (q := { q with head := val }) (by rw [fnOf_updFn, Tbl.get?_put_same]) hh]
    exact ⟨by rw [fnOf_updFn, Tbl.get?_put_same], rfl, rfl, rfl⟩
  · exact ⟨_, exec_cqHeadDoorbell_invalid hf hq hv, (badDoorbell_leaves ..).1⟩
  · have hfq := fetchNow_q { c with fn := f, sqid := q } (granted f n s)
    refine ⟨_, newCtx { c with fn := f, sqid := q } (granted f n s), exec_fetchSlot_granted hw c hp, ?_, rfl, rfl, rfl, ?_, ?_, ?_, fetchNow_zn ..⟩
    · rw [hfq]
      exact List.mem_append_right _ (List.mem_singleton.2 rfl)
    · rw [hfq]; rfl
    · rw [hfq]; rfl
    · rw [fnOf, hfq]
      exact popSq_sq (by rw [fnOf_granted]; exact hx) h0 hne

end Sys2Proof.Machine

/-! O41. Set Features. -/

namespace Sys2Proof.Machine
open Sys2Proof

/-! ## The rows are one Set Features each (R228) -/

/-- Every row sets one Feature of its function. -/
theorem exec_eq_setFeat (c : Cmd) (buf : List Byte) (s : State) :
    ∀ i ∈ [Instr.setFeaturesArbitration c, .setFeaturesVolatileWriteCache c, .setFeaturesNumberOfQueues c, .setFeaturesInterruptCoalescing c,
      .setFeaturesInterruptVectorConfig c, .setFeaturesWriteAtomicity c, .setFeaturesAsyncEventConfig c, .setFeaturesHostBehaviorSupport c buf,
      .setFeaturesExtensionLevel c, .setFeaturesPowerManagement c, .setFeaturesApst c buf, .setFeaturesNopsc c,
      .setFeaturesTemperatureThreshold c], ∃ f, exec i s = setFeat c s f := by
  simp only [List.forall_mem_cons, List.not_mem_nil, false_imp_iff, implies_true, and_true]
  exact ⟨⟨_, rfl⟩, ⟨_, rfl⟩, ⟨_, rfl⟩, ⟨_, rfl⟩, ⟨_, rfl⟩, ⟨_, rfl⟩, ⟨_, rfl⟩, ⟨_, rfl⟩, ⟨_, rfl⟩, ⟨_, rfl⟩, ⟨_, rfl⟩, ⟨_, rfl⟩, ⟨_, rfl⟩⟩

section
variable {c : Cmd} {s s1 : State} {k : Ctx} (ht : taken c s = some (k, s1)) (hp : plainForm k)
include ht hp

/-- A request to save is refused, whatever the Feature. -/
theorem setFeat_saved (hsv : svOf c = true) (f : Ctx → State → State) :
    ∃ u, setFeat c s f = .next (afterIo u) ∧ endsWith k 0 0x0D 0 [] s1 u := by
  obtain rfl := taken_cmd ht
  refine ⟨fin (dispatch k) 0 0x0D s1, ?_, endsWith_dispatch ..⟩
  rw [setFeat, withCmd_taken ht, gateAdmin_dispatch hp, if_pos (c := svOf (dispatch k).cmd = true) hsv, doneIo_after]

/-- Any other request is the Feature's own check and change. -/
theorem setFeat_current (hsv : svOf c = false) (f : Ctx → State → State) : setFeat c s f = .next (afterIo (f (dispatch k) s1)) := by
  obtain rfl := taken_cmd ht
  rw [setFeat, withCmd_taken ht, gateAdmin_dispatch hp, if_neg (c := svOf (dispatch k).cmd = true) (by simp [hsv]), doneIo_after]

/-- A Feature whose meaning is one completion ends with it. -/
theorem setFeat_ends (hsv : svOf c = false) {f : Ctx → State → State} {sct sc dw0 : Nat} {data : List Byte}
    (hf : f (dispatch k) s1 = postFull (dispatch k) sct sc dw0 0 data s1) :
    ∃ u, setFeat c s f = .next (afterIo u) ∧ endsWith k sct sc dw0 data s1 u :=
  ⟨_, (setFeat_current ht hp hsv f).trans (by rw [hf]), endsWith_dispatch ..⟩

/-- A Feature that takes its fields on a state `t` in which zones, Slack and mode stand as they did changes the function's Features and
succeeds. -/
theorem setFeat_puts (hsv : svOf c = false) {f : Ctx → State → State} {g : Feats → Feats} {t : State} {x : Feats}
    (hf : f (dispatch k) s1 = putFeat (dispatch k) g t) (hsame : t.zn = s1.zn ∧ t.slk = s1.slk ∧ t.m = s1.m)
    (hx : g (fnOf c.fn t).feats = x) :
    ∃ u0 u, setFeat c s f = .next (afterIo u) ∧ endsWith k 0 0 0 [] u0 u ∧ (u0.zn = s1.zn ∧ u0.slk = s1.slk ∧ u0.m = s1.m) ∧
      (fnOf c.fn u0).feats = x := by
  obtain rfl := taken_cmd ht
  refine ⟨updFn k.cmd.fn (fun n => { n with feats := g n.feats }) t, putFeat (dispatch k) g t, ?_, endsWith_dispatch .., hsame, ?_⟩
  · rw [setFeat_current ht hp hsv f, hf]
  · rw [fnOf_updFn, ← hx]

/-- A Feature that does nothing but take its fields. -/
theorem setFeat_takes (hsv : svOf c = false) {f : Ctx → State → State} {g : Feats → Feats} {x : Feats}
    (hf : f (dispatch k) s1 = putFeat (dispatch k) g s1) (hx : g (fnOf c.fn s1).feats = x) :
    ∃ u0 u, setFeat c s f = .next (afterIo u) ∧ endsWith k 0 0 0 [] u0 u ∧ (u0.zn = s1.zn ∧ u0.slk = s1.slk ∧ u0.m = s1.m) ∧
      (fnOf c.fn u0).feats = x :=
  setFeat_puts ht hp hsv hf ⟨rfl, rfl, rfl⟩ hx
end

/-! ## Power states (R372, R373) -/

/-- A controller's new state chooses the device's, and leaves zones, Slack and mode. -/
theorem repower_setFnPs_same (f n : Nat) (s : State) :
    (repower (setFnPs f n s)).zn = s.zn ∧ (repower (setFnPs f n s)).slk = s.slk ∧ (repower (setFnPs f n s)).m = s.m := by
  have kept : ∀ {x : Comp}, x ∉ [Comp.pw, .stb] → keeps x (setFnPs f n s) (repower (setFnPs f n s)) :=
    fun hx => keeps_of_outside (repower_outside (List.Subset.refl _) _) hx
  exact ⟨kept (x := .zn) (by decide), kept (x := .slk) (by decide), kept (x := .m) (by decide)⟩

theorem repower_setFnPs_feats (f n : Nat) (s : State) :
    (fnOf f (repower (setFnPs f n s))).feats = { (fnOf f s).feats with ps := n, opPs := if n ≤ 2 then n else (fnOf f s).feats.opPs } := by
  have hfn : fnOf f (repower (setFnPs f n s)) = fnOf f (setFnPs f n s) := by rw [fnOf, repower_q]; rfl
  rw [hfn, setFnPs, fnOf_updFn]

/-! ## APST (R372) -/

/-- An APST entry's state, read back from its fields. -/
theorem bits_apstEntry {ps : Nat} (h : ps < 32) (time : Nat) : bits (fld 3 5 ps + fld 8 24 time) 7 3 = ps := by
  simp only [bits, fld]
  omega

/-- APST entries that name states that exist pass the check. -/
theorem apst_any_false {buf : List Byte} (h : ∀ i < 32, bits (numAt buf (8 * i) 8) 7 3 ≤ 4) :
    ((List.range 32).map (fun i => fld 3 5 (bits (numAt buf (8 * i) 8) 7 3) + fld 8 24 (bits (numAt buf (8 * i) 8) 31 8))).any
      (fun e => decide (4 < bits e 7 3)) = false := by
  simp only [List.any_eq_false, List.mem_map, List.mem_range, decide_eq_true_eq, Nat.not_lt]
  rintro e ⟨i, hi, rfl⟩
  have hps := h i hi
  rw [bits_apstEntry (by omega)]
  exact hps

/-! ## Temperature thresholds (R394) -/

/-- The thresholds that CDW11 names: one sensor's, or every sensor's. -/
def thKeys (v : Nat) : List Nat :=
  if bits v 19 16 = 15 ∧ bits v 21 20 ≤ 1 then (List.range 9).map (fun n => 2 * n + bits v 21 20) else (thKey v).toList

theorem thKeys_sensor {v : Nat} (hs : bits v 19 16 ≤ 8) (ht : bits v 21 20 ≤ 1) : thKeys v = [2 * bits v 19 16 + bits v 21 20] := by
  have hkey : thKey v = some (2 * bits v 19 16 + bits v 21 20) := if_neg (by omega)
  rw [thKeys, if_neg (by omega), hkey, Option.toList_some]

theorem thKeys_all {v : Nat} (hs : bits v 19 16 = 15) (ht : bits v 21 20 ≤ 1) :
    thKeys v = (List.range 9).map (fun n => 2 * n + bits v 21 20) := if_pos ⟨hs, ht⟩

/-! ## O41 -/

/-- Settles O41: every row is one Set Features, which refuses to save and else runs the Feature's own check and change. -/
theorem setFeatures : Obligations.SetFeatures := by
  unfold Obligations.SetFeatures
  intro c buf s s1 k ht hp
  refine ⟨fun hsv i hi => ?_, fun hsv => ?_⟩
  · obtain ⟨f, hf⟩ := exec_eq_setFeat c buf s i hi
    rw [hf]
    exact setFeat_saved ht hp hsv f
  obtain rfl := taken_cmd ht
  intro v x same
  refine ⟨?_, fun hwt => ?_, fun hwt hv => ?_, fun hq => ?_, fun hq => ?_, ?_, fun hiv => ?_, fun hiv => ?_, ?_, ?_, ?_, fun hlo hhi hsqs => ?_,
    fun hl => ?_, fun hps => ?_, fun hps => ?_, fun hes => ?_, ?_, fun hsel hty => ?_, fun hsel hty => ?_⟩
  · exact setFeat_takes ht hp hsv rfl rfl
  · exact setFeat_takes ht hp hsv (if_neg hwt) rfl
  · exact setFeat_ends ht hp hsv (if_pos ⟨hwt, hv⟩)
  · exact setFeat_ends ht hp hsv (if_neg (by simp [hq]))
  · exact setFeat_ends ht hp hsv (if_pos hq)
  · exact setFeat_takes ht hp hsv rfl rfl
  · exact setFeat_takes ht hp hsv (if_neg (Nat.not_le.2 hiv)) rfl
  · exact setFeat_ends ht hp hsv (if_pos hiv)
  · exact setFeat_takes ht hp hsv rfl rfl
  · exact setFeat_takes ht hp hsv rfl rfl
  · exact setFeat_takes ht hp hsv rfl rfl
  · have hio : (fnOf k.cmd.fn s1).sqs.any (fun q => q.1 != 0) = false := by simpa [List.any_eq_false] using hsqs
    have hl : ¬ (bits v 7 0 = 0 ∨ 3 < bits v 7 0) := by omega
    exact setFeat_puts ht hp hsv ((if_neg hl).trans (if_neg (by simp [hio]))) ⟨rfl, rfl, rfl⟩ rfl
  · exact setFeat_ends ht hp hsv (if_pos hl)
  · refine setFeat_puts ht hp hsv (if_neg (Nat.not_lt.2 hps)) (repower_setFnPs_same ..) ?_
    rw [repower_setFnPs_feats]
  · exact setFeat_ends ht hp hsv (if_pos hps)
  · exact setFeat_takes ht hp hsv (if_neg (by simp [apst_any_false hes])) rfl
  · exact setFeat_takes ht hp hsv rfl rfl
  · have hkeys := thKeys_sensor hsel hty
    refine setFeat_takes ht hp hsv (if_neg (c := (thKeys v).isEmpty = true) (by simp [hkeys])) ?_
    exact congrArg (fun l => { x with tmpth := l.foldl (fun m q => Tbl.put m q (v % 65536)) x.tmpth }) hkeys
  · have hkeys := thKeys_all hsel hty
    refine setFeat_takes ht hp hsv (if_neg (c := (thKeys v).isEmpty = true) (by simp [hkeys])) ?_
    exact congrArg (fun l => { x with tmpth := l.foldl (fun m q => Tbl.put m q (v % 65536)) x.tmpth }) hkeys

end Sys2Proof.Machine

/-! O43. Asynchronous Event Requests and Aborts. -/

namespace Sys2Proof.Machine
open Sys2Proof

/-! ## Asynchronous Event Requests (R246) -/

/-- Where no event waits for a function, none is delivered. -/
theorem deliverAen_nothing {f : Nat} {s : State} (h : ∀ p ∈ s.q.pendAen, p.1 ≠ f) (n : Nat) : deliverAen f n s = s := by
  have hnone : s.q.pendAen.find? (fun p => p.1 == f && !(fnOf f s).masked.contains p.2.2.2) = none :=
    List.find?_eq_none.2 fun p hp => by simp [h p hp]
  cases n with
  | zero => rfl
  | succ n =>
    unfold deliverAen
    rw [hnone]
    split
    case h_1 _ hsome => cases hsome
    case h_2 => rfl

/-- What an Asynchronous Event Request does on its context. -/
def aerOn (k : Ctx) (s : State) : State :=
  if 8 ≤ ((ctxsOf k.cmd.fn s).filter (fun x => x.wait == .aer)).length then fin k 1 0x05 s
  else deliverAen k.cmd.fn 1 (putCtx { k with wait := .aer } s)

section
variable {k : Ctx} {s : State}

/-- The ninth request of a function is refused. -/
theorem aerOn_full (h : 8 ≤ ((ctxsOf k.cmd.fn s).filter (fun x => x.wait == .aer)).length) : aerOn k s = fin k 1 0x05 s := if_pos h

/-- A request within the limit waits, where no event waits for it. -/
theorem aerOn_waits (h : ((ctxsOf k.cmd.fn s).filter (fun x => x.wait == .aer)).length < 8) (hp : ∀ p ∈ s.q.pendAen, p.1 ≠ k.cmd.fn) :
    aerOn k s = putCtx { k with wait := .aer } s :=
  (if_neg (Nat.not_le.2 h)).trans (deliverAen_nothing (s := putCtx { k with wait := .aer } s) hp 1)

/-! ## Aborts (R238, R239) -/

/-- The first command that an Abort names and that is not dispatched. -/
def abortAim (k : Ctx) (s : State) : Option Ctx :=
  (s.q.ctxs.filter (fun x => x.seq != k.seq && ctxKey x 0 (bits k.cmd.cdw10.toNat 15 0) (bits k.cmd.cdw10.toNat 31 16))).find?
    (fun x => undispatched x s)

theorem abortOn_full (h : 4 ≤ abortsOut k s) : abortOn k s = fin k 1 0x03 s := if_pos h

theorem abortOn_notOwner (h : abortsOut k s < 4) (hf : k.cmd.fn ≠ 0) : abortOn k s = okDw0 k 1 s :=
  (if_neg (Nat.not_le.2 h)).trans (if_pos hf)

/-- The Owner PF's Abort of a command not dispatched ends that command, then itself. -/
theorem abortOn_aims {x : Ctx} (h : abortsOut k s < 4) (hf : k.cmd.fn = 0) (hx : abortAim k s = some x) :
    abortOn k s = okDw0 k 0 (raise 0x6010 0 [h1 0, h1 (bits k.cmd.cdw10.toNat 15 0), h1 (bits k.cmd.cdw10.toNat 31 16)]
      (fin x 0 0x07 (dropPasses (fun p => p.ctx == some x.seq) s))) := by
  unfold abortAim at hx
  simp only [abortOn, if_neg (Nat.not_le.2 h), hf, ne_eq, not_true_eq_false, if_false, hx]

theorem abortOn_misses (h : abortsOut k s < 4) (hf : k.cmd.fn = 0) (hx : abortAim k s = none) : abortOn k s = okDw0 k 1 s := by
  unfold abortAim at hx
  simp only [abortOn, if_neg (Nat.not_le.2 h), hf, ne_eq, not_true_eq_false, if_false, hx]
end

section
variable {c : Cmd} {s s1 : State} {k : Ctx} (ht : taken c s = some (k, s1)) (hp : plainForm k)
include ht hp

theorem exec_asynchronousEventRequest_taken : exec (.asynchronousEventRequest c) s = .next (after (aerOn (dispatch k) s1)) := by
  obtain rfl := taken_cmd ht
  show done (withCmd k.cmd s (fun x t => gateAdmin true true x t _)) = _
  rw [withCmd_taken ht, gateAdmin_dispatch hp, done_after]
  rfl

theorem exec_abort_taken : exec (.abort c) s = .next (afterIo (abortOn (dispatch k) s1)) := by
  show doneIo (withCmd c s (fun x t => gateAdmin true true x t abortOn)) = _
  rw [withCmd_taken ht, gateAdmin_dispatch hp, doneIo_after]

end

/-! ## O43 -/

/-- Settles O43: an Asynchronous Event Request and an Abort each answer one state, which the cases of their meanings give. -/
theorem eventsAndAborts : Obligations.EventsAndAborts := by
  unfold Obligations.EventsAndAborts
  intro c s s1 k ht hp
  have haer := exec_asynchronousEventRequest_taken ht hp
  have habort := exec_abort_taken ht hp
  obtain rfl := taken_cmd ht
  refine ⟨fun hfew hnone => ?_, fun hfull => ?_, fun hfull => ?_, fun hfew hf => ?_, fun hfew hf => ⟨fun x hx => ?_, fun hx => ?_⟩⟩
  · rw [aerOn_waits (k := dispatch k) hfew hnone] at haer
    exact ⟨_, { dispatch k with wait := .aer }, haer, rfl, rfl, rfl, rfl, rfl⟩
  · rw [aerOn_full (k := dispatch k) hfull] at haer
    exact ⟨_, haer, endsWith_dispatch ..⟩
  · rw [abortOn_full (k := dispatch k) hfull] at habort
    exact ⟨_, habort, endsWith_dispatch ..⟩
  · rw [abortOn_notOwner (k := dispatch k) hfew hf] at habort
    exact ⟨_, habort, endsWith_dispatch ..⟩
  · rw [abortOn_aims (k := dispatch k) hfew hf hx] at habort
    exact ⟨dropPasses (fun p => p.ctx == some x.seq) s1, _, _, _, habort, dropPasses_q .., endsWith_fin .., raise_q .., raises_raise ..,
      endsWith_dispatch ..⟩
  · rw [abortOn_misses (k := dispatch k) hfew hf hx] at habort
    exact ⟨_, habort, endsWith_dispatch ..⟩

end Sys2Proof.Machine

/-! SUPPORT. The Gather engine: what asking for a beat lane and giving one back leave of the channels, of the bytes written and of every other component
(R253, R254). -/

namespace Sys2Proof.Machine
open Sys2Proof

/-! ## Lanes: everything but a maintenance channel's state and ageing -/

/-- A fold that keeps what it has or takes the next element ends with what it began with or an element of its list. -/
theorem foldl_choice {α : Type} {f : Option α → α → Option α} (hf : ∀ o x, f o x = o ∨ f o x = some x) {v : α} :
    ∀ {l : List α} {o : Option α}, l.foldl f o = some v → o = some v ∨ v ∈ l
  | [], _, h => .inl h
  | x :: xs, o, h => by
    rcases foldl_choice hf (l := xs) h with hv | hv
    · rcases hf o x with ho | ho
      · exact .inl (ho ▸ hv)
      · exact .inr (by simp [Option.some.inj (ho.symm.trans hv)])
    · exact .inr (List.mem_cons_of_mem _ hv)

@[simp] theorem laneState_chs (ch st : Nat) (s : State) : (laneState ch st s).ga.chs = s.ga.chs := by unfold laneState; split <;> rfl

@[simp] theorem laneState_wr (ch st : Nat) (s : State) : (laneState ch st s).ga.wr = s.ga.wr := by unfold laneState; split <;> rfl

/-- A channel that gets a lane or loses one shows it in its state alone. -/
theorem gdcAt_laneState (n ch st : Nat) (s : State) : ∃ x, gdcAt n (laneState ch st s) = { gdcAt n s with state := x } := by
  unfold laneState
  split
  · exact ⟨_, rfl⟩
  · by_cases hn : n = ch - 48
    · subst hn
      rw [gdcAt_updGdc]
      split
      · exact ⟨_, rfl⟩
      · exact ⟨_, rfl⟩
    · exact ⟨_, gdcAt_updGdc_other _ _ _ _ hn⟩

/-- The lane of another channel says nothing of a maintenance channel. -/
theorem gdcAt_laneState_other {n ch : Nat} (h : ch ≠ 48 + n) (st : Nat) (s : State) : gdcAt n (laneState ch st s) = gdcAt n s := by
  unfold laneState
  split
  · rfl
  · exact gdcAt_updGdc_other _ _ _ _ (by omega)

/-- What a request for a lane can do: the lanes and those who wait change, and where a burst gives way its channel's state says so. -/
theorem requestLane_cases (ch : Nat) (s : State) : ∃ lanes wait, requestLane ch s = { s with ga := { s.ga with lanes := lanes, laneWait := wait } } ∨
    ∃ v ∈ s.ga.lanes, requestLane ch s = laneState v.1 2 { s with ga := { s.ga with lanes := lanes, laneWait := wait } } := by
  unfold requestLane
  extract_lets e _ put
  split
  · exact ⟨_, _, .inl rfl⟩
  · split
    case h_1 v hv =>
      have hmem := foldl_choice (fun o x => by cases o with | none => exact .inr rfl | some m => exact (ite_eq_or_eq ..).symm) hv
      exact ⟨_, _, .inr ⟨v, List.mem_of_mem_filter (hmem.resolve_left (by simp)), rfl⟩⟩
    case h_2 =>
      split
      · exact ⟨_, _, .inl rfl⟩
      · exact ⟨_, _, .inl rfl⟩

@[simp] theorem requestLane_chs (ch : Nat) (s : State) : (requestLane ch s).ga.chs = s.ga.chs := by
  obtain ⟨_, _, h | ⟨_, _, h⟩⟩ := requestLane_cases ch s <;> simp [h]

@[simp] theorem requestLane_q (ch : Nat) (s : State) : (requestLane ch s).q = s.q :=
  keeps_of_outside (x := .q) (requestLane_outside (List.Subset.refl _) ch s) (by decide)

@[simp] theorem requestLane_zn (ch : Nat) (s : State) : (requestLane ch s).zn = s.zn :=
  keeps_of_outside (x := .zn) (requestLane_outside (List.Subset.refl _) ch s) (by decide)

/-- A maintenance channel without a lane is as it was after any request. -/
theorem gdcAt_requestLane {n : Nat} {s : State} (h : ∀ l ∈ s.ga.lanes, l.1 ≠ 48 + n) (ch : Nat) : gdcAt n (requestLane ch s) = gdcAt n s := by
  obtain ⟨_, _, hr | ⟨v, hv, hr⟩⟩ := requestLane_cases ch s
  · rw [hr]
    rfl
  · rw [hr, gdcAt_laneState_other (h v hv)]
    rfl

/-- A channel's lane and its ageing have ended; the lane is not yet given on. -/
def laneLeft (ch : Nat) (s : State) : State :=
  let s1 := { s with ga := { s.ga with lanes := s.ga.lanes.filter (fun l => l.1 != ch), laneWait := s.ga.laneWait.filter (· != ch),
                                       chs := Tbl.upd s.ga.chs ch (fun c => { c with aged := false }) } }
  if ch < 48 then s1 else updGdc (ch - 48) (fun g => { g with aged := false }) s1

/-- What giving a lane back can do: a channel that waited may run in its place. -/
theorem releaseLane_cases (ch : Nat) (s : State) : releaseLane ch s = laneLeft ch s ∨ ∃ w lanes wait,
    releaseLane ch s = laneState w 1 { laneLeft ch s with ga := { (laneLeft ch s).ga with lanes := lanes, laneWait := wait } } := by
  unfold releaseLane
  extract_lets _ s1 s2
  split
  · exact .inl rfl
  · split
    · exact .inr ⟨_, _, _, rfl⟩
    · exact .inl rfl

@[simp] theorem laneLeft_wr (ch : Nat) (s : State) : (laneLeft ch s).ga.wr = s.ga.wr := by unfold laneLeft; split <;> rfl

theorem gdcAt_laneLeft (n : Nat) (s : State) : gdcAt n (laneLeft (48 + n) s) = { gdcAt n s with aged := false } := by
  unfold laneLeft
  extract_lets _ s1
  rw [if_neg (by omega), Nat.add_sub_cancel_left, gdcAt_updGdc]
  rfl

@[simp] theorem releaseLane_wr (ch : Nat) (s : State) : (releaseLane ch s).ga.wr = s.ga.wr := by
  obtain h | ⟨_, _, _, h⟩ := releaseLane_cases ch s <;> simp [h]

@[simp] theorem releaseLane_zn (ch : Nat) (s : State) : (releaseLane ch s).zn = s.zn :=
  keeps_of_outside (x := .zn) (releaseLane_outside (List.Subset.refl _) ch s) (by decide)

/-- A maintenance channel that gives its lane back ages no longer. -/
theorem gdcAt_releaseLane (n : Nat) (s : State) : ∃ x, gdcAt n (releaseLane (48 + n) s) = { gdcAt n s with aged := false, state := x } := by
  obtain h | ⟨w, lanes, wait, h⟩ := releaseLane_cases (48 + n) s
  · exact ⟨_, (congrArg (gdcAt n) h).trans (gdcAt_laneLeft n s)⟩
  · obtain ⟨x, hx⟩ := gdcAt_laneState n w 1 { laneLeft (48 + n) s with ga := { (laneLeft (48 + n) s).ga with lanes := lanes, laneWait := wait } }
    exact ⟨x, (congrArg (gdcAt n) h).trans (hx.trans (congrArg (fun g => { g with state := x }) (gdcAt_laneLeft n s)))⟩

/-- A state written after a lane is given back is the one that stands. -/
theorem gdcAt_updGdc_releaseLane {n : Nat} {f : Gdc → Gdc} (hf : ∀ g x, f { g with state := x } = f g) (s : State) :
    gdcAt n (updGdc n f (releaseLane (48 + n) s)) = f { gdcAt n s with aged := false } := by
  obtain ⟨x, hx⟩ := gdcAt_releaseLane n s
  rw [gdcAt_updGdc, hx]
  exact hf { gdcAt n s with aged := false } x

end Sys2Proof.Machine

/-! O46. Maintenance channels: the commands of the control register and the end of a transfer (R263 to R270). -/

namespace Sys2Proof.Machine
open Sys2Proof

/-! ## A transfer's bytes, its fault, its link word -/

/-- Bytes written move a channel's destination and count. -/
@[simp] theorem gdcAt_gdcWrite (n : Nat) (bytes : List Byte) (s : State) : gdcAt n (gdcWrite n bytes s) =
    { gdcAt n s with dst := ((gdcAt n s).dst + bytes.length) % 2 ^ 64, cnt := (gdcAt n s).cnt - bytes.length } := by
  unfold gdcWrite
  extract_lets g us _ s1
  have h1 : gdcAt n s1 = g := foldl_keeps (gdcAt n) _ (fun _ _ => by unfold updCvu; rfl) us _
  rw [gdcAt_updGdc, h1]

theorem gdcWrite_wr (n : Nat) (bytes : List Byte) (s : State) :
    (gdcWrite n bytes s).ga.wr = if bytes.isEmpty then s.ga.wr else s.ga.wr ++ [((gdcAt n s).dst, bytes)] := by
  unfold gdcWrite
  extract_lets g us _ s1
  exact foldl_keeps (fun t => t.ga.wr) _ (fun _ _ => by unfold updCvu; rfl) us _

@[simp] theorem gdcWrite_zn (n : Nat) (bytes : List Byte) (s : State) : (gdcWrite n bytes s).zn = s.zn :=
  keeps_of_outside (x := .zn) (gdcWrite_outside (List.Subset.refl _) n bytes s) (by decide)

@[simp] theorem gdcAt_gdcSignal (n m : Nat) (s : State) : gdcAt n (gdcSignal m s) = gdcAt n s := by
  have hga : (gdcSignal m s).ga = s.ga := keeps_of_outside (x := .ga) (gdcSignal_outside (List.Subset.refl _) m s) (by decide)
  rw [gdcAt, gdcAt, hga]

@[simp] theorem gdcAt_raise (n code sev : Nat) (args : List (List Nat)) (s : State) : gdcAt n (raise code sev args s) = gdcAt n s := rfl

/-- A channel that has faulted (R265). -/
theorem gdcAt_gdcFault (n code entry : Nat) (s : State) : gdcAt n (gdcFault n code entry s) =
    { gdcAt n s with aged := false, state := 5, fault := true, fcode := code, entry := entry, rd := Rd.none, ents := [], sent := 0, held := [], buf := 0 } := by
  unfold gdcFault
  rw [gdcAt_raise, gdcAt_gdcSignal]
  exact gdcAt_updGdc_releaseLane (fun _ _ => rfl) s

@[simp] theorem gdcFault_state (n code entry : Nat) (s : State) : (gdcAt n (gdcFault n code entry s)).state = 5 :=
  congrArg Gdc.state (gdcAt_gdcFault n code entry s)

@[simp] theorem gdcFault_fcode (n code entry : Nat) (s : State) : (gdcAt n (gdcFault n code entry s)).fcode = code :=
  congrArg Gdc.fcode (gdcAt_gdcFault n code entry s)

theorem gdcFault_raises (n code entry : Nat) (s : State) : raises 0x7010 (gdcFault n code entry s) := raises_raise ..

/-- A channel that has reached the tail of its list: its registers as the last transfer left them. -/
def gdcTail (n : Nat) (s : State) : State := updGdc n (fun g => { g with state := 4, done := true }) (releaseLane (48 + n) (updGdc n id s))

/-- A transfer that no descriptor follows (R267). -/
theorem gdcNext_tail {n : Nat} {s : State} (hd : (gdcAt n s).desc = 0) (he : (gdcAt n s).linkEnd = true) (hr : (gdcAt n s).resumePend = false)
    (hi : (gdcAt n s).int = false) (mem : HostMem) : gdcNext n mem s = gdcTail n s := by
  unfold gdcNext
  extract_lets g s1
  have h1 : s1 = s := if_neg (by simp [g, hi])
  rw [h1]
  unfold gdcLink
  simp only [hd, he, hr, if_true, Bool.not_true, Bool.false_eq_true, if_false]
  rfl

theorem gdcAt_gdcTail (n : Nat) (s : State) : gdcAt n (gdcTail n s) = { gdcAt n s with aged := false, state := 4, done := true } := by
  unfold gdcTail
  rw [gdcAt_updGdc_releaseLane (fun _ _ => rfl), gdcAt_updGdc]
  rfl

@[simp] theorem gdcTail_wr (n : Nat) (s : State) : (gdcTail n s).ga.wr = s.ga.wr := releaseLane_wr ..

/-! ## The start of a transfer (R265) -/

/-- A channel as a START takes it: without a descriptor, its fault forgotten. -/
def startOf (n : Nat) (s : State) : State := updGdc n (fun g => { g with desc := 0, fcode := 0 }) s

@[simp] theorem gdcAt_startOf (n : Nat) (s : State) : gdcAt n (startOf n s) = { gdcAt n s with desc := 0, fcode := 0 } := gdcAt_updGdc ..

/-- A COPY that has begun. -/
def copyRuns (n : Nat) (s : State) : State := requestLane (48 + n)
  (updGdc n (fun g => { g with state := 1, entry := 0, buf := 0, ents := [], rd := Rd.none, sent := 0, held := [] }) s)

section
variable {n : Nat} {s : State} (mem : HostMem)

theorem gdcBegin_copy (hm : (gdcAt n s).mode = 0) (hc : (gdcAt n s).cnt ≤ (gdcAt n s).dlen) : gdcBegin n mem s = (copyRuns n s, mem) := by
  unfold gdcBegin
  simp only [hm, Nat.not_lt.2 hc]
  rfl

theorem gdcBegin_badMode (hm : 2 ≤ (gdcAt n s).mode) : gdcBegin n mem s = (gdcFault n 6 0 s, mem) := by
  unfold gdcBegin
  exact if_pos hm

theorem gdcBegin_short (hm : (gdcAt n s).mode < 2) (hc : (gdcAt n s).dlen < (gdcAt n s).cnt) : gdcBegin n mem s = (gdcFault n 4 0 s, mem) := by
  unfold gdcBegin
  exact (if_neg (Nat.not_le.2 hm)).trans (if_pos hc)

theorem gdcAt_copyRuns (hl : ∀ l ∈ s.ga.lanes, l.1 ≠ 48 + n) : gdcAt n (copyRuns n s) =
    { gdcAt n s with state := 1, entry := 0, buf := 0, ents := [], rd := Rd.none, sent := 0, held := [] } := by
  unfold copyRuns
  rw [gdcAt_requestLane (by exact hl), gdcAt_updGdc]

end

/-! ## STOP (R270) -/

/-- What a STOP does: what the transfer has is written in `t`, then the channel is paused with its record. -/
theorem gdcPark_cases (n moved : Nat) (mem : HostMem) (s : State) : ∃ t,
    gdcAt n (gdcPark n moved mem s) = { gdcAt n t with aged := false, state := 3 } ∧ raises 0x7011 (gdcPark n moved mem s) ∧
      (gdcPark n moved mem s).zn = s.zn ∧
      ∀ d rest, (gdcAt n s).mode = 0 → copyRead (gdcAt n s) moved mem = some (d, rest) →
        t = updGdc n (fun h => { h with src := ((gdcAt n s).src + (d.length - (gdcAt n s).held.length)) % 2 ^ 64,
                                        held := d.drop (beatBytes (gdcAt n s).dst d.length),
                                        buf := (d.drop (beatBytes (gdcAt n s).dst d.length)).length })
          (gdcWrite n (d.take (beatBytes (gdcAt n s).dst d.length)) s) := by
  unfold gdcPark
  extract_lets g s1 h
  have hzn : s1.zn = s.zn := by
    simp only [s1]
    split_ifs <;> split <;> simp
  refine ⟨s1, ?_, raises_raise .., ?_, fun d rest hm hd => ?_⟩
  · rw [gdcAt_raise]
    exact gdcAt_updGdc_releaseLane (fun _ _ => rfl) s1
  · rw [raise_zn, updGdc_zn, releaseLane_zn, hzn]
  · simp only [s1, g, hm, if_true, hd]

/-- Whole beats are no more than all bytes. -/
theorem beatBytes_le (dst t : Nat) : beatBytes dst t ≤ t := by
  unfold beatBytes
  split <;> omega

theorem length_take_beatBytes (dst : Nat) (d : List Byte) : (d.take (beatBytes dst d.length)).length = beatBytes dst d.length :=
  List.length_take_of_le (beatBytes_le ..)

/-! ## Writes of the control register (R264, R269): of a write with one command bit, the other three are 0 -/

theorem touch_ga (f : Nat) {s : State} (hs : plainWake s) : (touch f s).ga = s.ga := touch_keeps f hs (x := .ga) (by decide)

theorem gdcAt_touch (n f : Nat) {s : State} (hs : plainWake s) : gdcAt n (touch f s) = gdcAt n s := by rw [gdcAt, gdcAt, touch_ga f hs]

/-- A channel that CLEAR has returned to state 0. -/
def gdcCleared (n : Nat) (s : State) : State :=
  updGdc n (fun g => { g with state := 0, fcode := if g.state = 5 then 0 else g.fcode, buf := 0, ents := [], rd := Rd.none, sent := 0, held := [] }) s

theorem b2n_eq_zero (b : Bool) : b2n b = 0 ↔ b = false := by cases b <;> simp [b2n]

section
variable {v : Nat} (hv : gdcBits v = 1)
include hv

theorem bits_of_stop (hb : bit v 1 = true) : bit v 0 = false := by
  rw [gdcBits, hb, show b2n true = 1 from rfl] at hv
  exact (b2n_eq_zero _).1 (by omega)

theorem bits_of_resume (hb : bit v 2 = true) : bit v 0 = false ∧ bit v 1 = false := by
  rw [gdcBits, hb, show b2n true = 1 from rfl] at hv
  exact ⟨(b2n_eq_zero _).1 (by omega), (b2n_eq_zero _).1 (by omega)⟩

theorem bits_of_clear (hb : bit v 3 = true) : bit v 0 = false ∧ bit v 1 = false ∧ bit v 2 = false := by
  rw [gdcBits, hb, show b2n true = 1 from rfl] at hv
  exact ⟨(b2n_eq_zero _).1 (by omega), (b2n_eq_zero _).1 (by omega), (b2n_eq_zero _).1 (by omega)⟩

end

section
variable {n v : Nat} {s : State} (hv : gdcBits v = 1) (hr : gdcRuns s = true) (moved : Nat) (mem : HostMem)
include hv hr

/-- START of an idle channel whose transfer faults, or has bytes to move. -/
theorem gdcCtl_start {t : State} {rest : HostMem} (hb : bit v 0 = true) (hst : (gdcAt n s).state = 0 ∨ (gdcAt n s).state = 4 ∨ (gdcAt n s).state = 5)
    (ht : gdcBegin n mem (startOf n s) = (t, rest)) (hgo : (gdcAt n t).state ≠ 1 ∨ (gdcAt n t).cnt ≠ 0) :
    gdcCtl n v moved mem s = t := by
  unfold startOf at ht
  unfold gdcCtl
  simp only [hv, hr, hb, hst, ht, if_true]
  rw [if_neg (by simp)]
  exact if_neg (fun h => hgo.elim (· h.1) (· h.2))

theorem gdcCtl_stop (hb : bit v 1 = true) :
    gdcCtl n v moved mem s = if (gdcAt n s).state = 1 ∨ (gdcAt n s).state = 2 then gdcPark n moved mem s else s := by
  unfold gdcCtl
  simp [hv, hr, hb, bits_of_stop hv hb]

theorem gdcCtl_resume_paused (hb : bit v 2 = true) (hst : (gdcAt n s).state = 3) :
    gdcCtl n v moved mem s = requestLane (48 + n) (updGdc n (fun g => { g with state := 1 }) s) := by
  unfold gdcCtl
  simp [hv, hr, hb, bits_of_resume hv hb, hst]

theorem gdcCtl_resume_running (hb : bit v 2 = true) (hst : (gdcAt n s).state = 1 ∨ (gdcAt n s).state = 2) :
    gdcCtl n v moved mem s = updGdc n (fun g => { g with resumePend := true }) s := by
  unfold gdcCtl
  simp [hv, hr, hb, bits_of_resume hv hb, hst]

theorem gdcCtl_clear_stopped (hb : bit v 3 = true) (hst : (gdcAt n s).state = 3 ∨ (gdcAt n s).state = 4 ∨ (gdcAt n s).state = 5) :
    gdcCtl n v moved mem s = gdcCleared n s := by
  unfold gdcCleared gdcCtl
  simp [hv, hr, hb, bits_of_clear hv hb, hst]

end

section
variable {ch : Nat} {v : Dword} {s : State} (hch : ch < 16) (hs : plainWake s) (hh : s.m.cur ≠ .halted)
include hs hh

theorem gdcRuns_touch (hf : s.m.cur ≠ .emergencyFlush) : gdcRuns (touch 0 s) = true := by simp [gdcRuns, touch_m 0 hs, hf, hh]

include hch

/-- A command of the Owner PF acts on the state its access leaves. -/
theorem gdcRow_owner {bitNo : Nat} (hb : bit v.toNat bitNo = true) (moved : Nat) (mem : HostMem) :
    gdcRow 0 ch bitNo v moved mem s = .next (afterIo (gdcCtl ch v.toNat moved mem (touch 0 s))) := by
  simp [gdcRow, hch, hb, isPf, fnPresent, touch_m 0 hs, hh, doneIo_after]

variable (hf : s.m.cur ≠ .emergencyFlush) (hv : gdcBits v.toNat = 1)
include hf hv

theorem exec_gdcStart_begins {t : State} {mem rest : HostMem} (hb : bit v.toNat 0 = true)
    (hst : (gdcAt ch s).state = 0 ∨ (gdcAt ch s).state = 4 ∨ (gdcAt ch s).state = 5) (ht : gdcBegin ch mem (startOf ch (touch 0 s)) = (t, rest))
    (hgo : (gdcAt ch t).state ≠ 1 ∨ (gdcAt ch t).cnt ≠ 0) : exec (.gdcStart 0 ch v mem) s = .next (afterIo t) := by
  show gdcRow 0 ch 0 v 0 mem s = _
  rw [gdcRow_owner hch hs hh hb, gdcCtl_start hv (gdcRuns_touch hs hh hf) 0 mem hb (by rwa [gdcAt_touch ch 0 hs]) ht hgo]

theorem exec_gdcStop_owner (hb : bit v.toNat 1 = true) (moved : Nat) (mem : HostMem) : exec (.gdcStop 0 ch ⟨v, moved, mem⟩) s =
    .next (afterIo (if (gdcAt ch s).state = 1 ∨ (gdcAt ch s).state = 2 then gdcPark ch moved mem (touch 0 s) else touch 0 s)) := by
  show gdcRow 0 ch 1 v moved mem s = _
  rw [gdcRow_owner hch hs hh hb, gdcCtl_stop hv (gdcRuns_touch hs hh hf) moved mem hb, gdcAt_touch ch 0 hs]

theorem exec_gdcResume_paused (hb : bit v.toNat 2 = true) (hst : (gdcAt ch s).state = 3) (mem : HostMem) : exec (.gdcResume 0 ch v mem) s =
    .next (afterIo (requestLane (48 + ch) (updGdc ch (fun g => { g with state := 1 }) (touch 0 s)))) := by
  show gdcRow 0 ch 2 v 0 mem s = _
  rw [gdcRow_owner hch hs hh hb, gdcCtl_resume_paused hv (gdcRuns_touch hs hh hf) 0 mem hb (by rwa [gdcAt_touch ch 0 hs])]

theorem exec_gdcResume_running (hb : bit v.toNat 2 = true) (hst : (gdcAt ch s).state = 1 ∨ (gdcAt ch s).state = 2) (mem : HostMem) :
    exec (.gdcResume 0 ch v mem) s = .next (afterIo (updGdc ch (fun g => { g with resumePend := true }) (touch 0 s))) := by
  show gdcRow 0 ch 2 v 0 mem s = _
  rw [gdcRow_owner hch hs hh hb, gdcCtl_resume_running hv (gdcRuns_touch hs hh hf) 0 mem hb (by rwa [gdcAt_touch ch 0 hs])]

theorem exec_gdcClear_stopped (hb : bit v.toNat 3 = true) (hst : (gdcAt ch s).state = 3 ∨ (gdcAt ch s).state = 4 ∨ (gdcAt ch s).state = 5) :
    exec (.gdcClear 0 ch v) s = .next (afterIo (gdcCleared ch (touch 0 s))) := by
  show gdcRow 0 ch 3 v 0 [] s = _
  rw [gdcRow_owner hch hs hh hb, gdcCtl_clear_stopped hv (gdcRuns_touch hs hh hf) 0 [] hb (by rwa [gdcAt_touch ch 0 hs])]

end

/-! ## The end of a COPY (R267, R268) -/

/-- A COPY that has written the bytes `out` of the `d` it has read. -/
def copyMoved (n : Nat) (d out : List Byte) (s : State) : State :=
  updGdc n (fun h => { h with src := ((gdcAt n s).src + (d.length - (gdcAt n s).held.length)) % 2 ^ 64, held := [], buf := 0 }) (gdcWrite n out s)

theorem gdcAt_copyMoved (n : Nat) (d out : List Byte) (s : State) : gdcAt n (copyMoved n d out s) =
    { gdcAt n s with dst := ((gdcAt n s).dst + out.length) % 2 ^ 64, cnt := (gdcAt n s).cnt - out.length,
                     src := ((gdcAt n s).src + (d.length - (gdcAt n s).held.length)) % 2 ^ 64, held := [], buf := 0 } := by
  unfold copyMoved
  rw [gdcAt_updGdc, gdcAt_gdcWrite]

theorem copyMoved_wr (n : Nat) (d out : List Byte) (s : State) :
    (copyMoved n d out s).ga.wr = if out.isEmpty then s.ga.wr else s.ga.wr ++ [((gdcAt n s).dst, out)] := gdcWrite_wr ..

section
variable {ch moved : Nat} {mem rest : HostMem} {d : List Byte} {s : State} (hch : ch < 16) (hst : (gdcAt ch s).state = 1) (hr : gdcRuns s = true)
  (hm : (gdcAt ch s).mode = 0) (hd : copyRead (gdcAt ch s) moved mem = some (d, rest))
include hch hst hr hm hd

/-- A host memory error on the source: the whole beats before it are written. -/
theorem gdcTransferEnd_short (hlt : d.length < (gdcAt ch s).cnt) : exec (.gdcTransferEnd ch moved mem) s =
    .next (afterIo (gdcFault ch 0xD 0 (copyMoved ch d (d.take (beatBytes (gdcAt ch s).dst d.length)) s))) := by
  show execGdcTransferEnd ch moved mem s = _
  unfold execGdcTransferEnd
  simp only [hst, hr, hm, hd, hlt, Nat.not_le.2 hch, if_true]
  rfl

theorem gdcTransferEnd_whole (hall : d.length = (gdcAt ch s).cnt) : exec (.gdcTransferEnd ch moved mem) s =
    .next (afterIo (gdcNext ch rest (copyMoved ch d d s))) := by
  show execGdcTransferEnd ch moved mem s = _
  unfold execGdcTransferEnd
  simp only [hst, hr, hm, hd, Nat.not_le.2 hch, hall.not_lt, if_true, if_false]
  rfl

end

/-! ## O46 -/

/-- Settles O46: each command of the control register is its access, then one change of its channel; a COPY's end writes what it has read. -/
theorem maintenanceChannels : Obligations.MaintenanceChannels := by
  unfold Obligations.MaintenanceChannels
  intro ch v mem s hch hw hf hh g
  have hg : gdcAt ch (touch 0 s) = g := gdcAt_touch ch 0 hw
  have hlanes : (touch 0 s).ga.lanes = s.ga.lanes := congrArg Gath.lanes (touch_ga 0 hw)
  have hstart : gdcAt ch (startOf ch (touch 0 s)) = { g with desc := 0, fcode := 0 } := by rw [gdcAt_startOf, hg]
  have hrun : gdcRuns s = true := by simp [gdcRuns, hf, hh]
  refine ⟨fun hb hv hst => ⟨fun hm hc h0 hl => ?_, fun hm => ?_, fun hm hc => ?_⟩, fun hb hv => ⟨fun hst moved => ?_, fun h1 h2 moved => ?_⟩,
    fun hb hv => ⟨fun hst hl => ?_, fun hst => ?_⟩, fun hb hv hst => ?_,
    fun moved d rest hst hm hd => ⟨fun hlt => ?_, fun hall hdesc hend hres hint => ?_⟩⟩
  · have hcopy : gdcAt ch (copyRuns ch (startOf ch (touch 0 s))) = _ := gdcAt_copyRuns (by rw [← hlanes] at hl; exact hl)
    rw [hstart] at hcopy
    have hbegin := gdcBegin_copy mem (by rw [hstart]; exact hm) (by rw [hstart]; exact hc)
    exact ⟨_, exec_gdcStart_begins hch hw hh hf hv hb hst hbegin (.inr (by rw [hcopy]; exact h0)), congrArg Gdc.state hcopy, congrArg Gdc.fcode hcopy,
      congrArg Gdc.desc hcopy, by rw [copyRuns, requestLane_zn, updGdc_zn, startOf, updGdc_zn, touch_zn 0 hw]⟩
  · have hbegin := gdcBegin_badMode mem (by rw [hstart]; exact hm)
    exact ⟨_, exec_gdcStart_begins hch hw hh hf hv hb hst hbegin (.inl (by simp)), gdcFault_state .., gdcFault_fcode .., gdcFault_raises ..⟩
  · have hbegin := gdcBegin_short mem (by rw [hstart]; exact hm) (by rw [hstart]; exact hc)
    exact ⟨_, exec_gdcStart_begins hch hw hh hf hv hb hst hbegin (.inl (by simp)), gdcFault_state .., gdcFault_fcode .., gdcFault_raises ..⟩
  · have hx := exec_gdcStop_owner hch hw hh hf hv hb moved mem
    obtain ⟨t, hat, hr, hzn, hcopy⟩ := gdcPark_cases ch moved mem (touch 0 s)
    rw [if_pos hst] at hx
    rw [hg] at hcopy
    refine ⟨⟨_, hx, congrArg Gdc.state hat, hr, hzn.trans (touch_zn 0 hw)⟩, fun d rest hm hd hle => ⟨_, hx, ?_⟩⟩
    have ht := congrArg (gdcAt ch) (hcopy d rest hm hd)
    rw [gdcAt_updGdc, gdcAt_gdcWrite, hg, length_take_beatBytes] at ht
    rw [ht] at hat
    exact ⟨congrArg Gdc.cnt hat, (congrArg Gdc.buf hat).trans List.length_drop, congrArg Gdc.dst hat⟩
  · have hx := exec_gdcStop_owner hch hw hh hf hv hb moved mem
    rw [if_neg (not_or.2 ⟨h1, h2⟩)] at hx
    exact ⟨_, hx, touch_ga 0 hw⟩
  · have hat := gdcAt_requestLane (n := ch) (s := updGdc ch (fun g => { g with state := 1 }) (touch 0 s)) (by rw [← hlanes] at hl; exact hl) (48 + ch)
    rw [gdcAt_updGdc, hg] at hat
    exact ⟨_, exec_gdcResume_paused hch hw hh hf hv hb hst mem, congrArg Gdc.state hat, by rw [hat]⟩
  · exact ⟨_, exec_gdcResume_running hch hw hh hf hv hb hst mem, by rw [gdcAt_updGdc, hg]⟩
  · refine ⟨_, exec_gdcClear_stopped hch hw hh hf hv hb hst, ?_⟩
    rw [gdcCleared, gdcAt_updGdc, hg]
    exact ⟨rfl, rfl, rfl⟩
  · have hcnt := congrArg Gdc.cnt (gdcAt_copyMoved ch d (d.take (beatBytes g.dst d.length)) s)
    rw [length_take_beatBytes] at hcnt
    exact ⟨_, gdcTransferEnd_short hch hst hrun hm hd hlt, gdcFault_state .., gdcFault_fcode .., (congrArg Gdc.cnt (gdcAt_gdcFault ..)).trans hcnt,
      gdcFault_raises ..⟩
  · have hat := gdcAt_copyMoved ch d d s
    have hx := gdcTransferEnd_whole hch hst hrun hm hd hall
    rw [gdcNext_tail (by rw [hat]; exact hdesc) (by rw [hat]; exact hend) (by rw [hat]; exact hres) (by rw [hat]; exact hint)] at hx
    have htail := gdcAt_gdcTail ch (copyMoved ch d d s)
    rw [hat] at htail
    refine ⟨_, hx, ?_, ?_, ?_, ?_⟩
    · rw [htail]
    · rw [htail]
      exact Nat.sub_eq_zero_of_le hall.ge
    · rw [htail]
    · rw [gdcTail_wr, copyMoved_wr]

end Sys2Proof.Machine

/-! O45. Gather Read: its own fields, the grant of a channel and what its table holds, the wait, the lane, the end (R253 to R261). -/

namespace Sys2Proof.Machine
open Sys2Proof

/-! ## The command (R255, R256, R320) -/

section
variable {k : Ctx} {s : State} {n : Ns} {sgl : Option Nat}

theorem gatherOn_denied (h : k.snap.gather = false) : gatherOn sgl k s = denyPerm k s := by simp [gatherOn, h]

/-- The checks of a Gather Read that its function may send, in their order. -/
theorem gatherOn_attached (h : k.snap.gather = true) (hns : nsFor? k.cmd.fn k.cmd.nsid s = some n) : gatherOn sgl k s =
    if itabOf k.cmd % 16 ≠ 0 ∨ bits k.cmd.cdw12.toNat 29 18 ≠ 0 ∨ bit k.cmd.cdw12.toNat 31 = true then fin k 0 0x02 s
    else if sgl.any (fun n => decide (n < k.cmd.cdw13.toNat)) = true then fin k 0 0x0F s
    else putCtx { k with wait := .gatherWait } s := by
  unfold gatherOn
  rw [h]
  exact withNs_attached hns _

theorem gatherRead_taken {s0 : State} (ht : taken k.cmd s0 = some (k, s)) (hp : plainForm k) (hn : notSanitizing s) :
    exec (.gatherRead ⟨k.cmd, sgl⟩) s0 = .next (afterIo (gatherOn sgl k s)) := doneIo_gateIo ht hp hn (gatherOn sgl)

end

/-! ## The grant of a channel (R257, R258) -/

/-- The record of a wait ends with it. -/
def waitEnded (k : Ctx) (s : State) : State := { s with ga := { s.ga with waited := Tbl.del s.ga.waited k.seq } }

theorem exec_gatherChannelGrant_granted {mem : HostMem} {s : State} {k : Ctx} {ch : Nat} (hf : s.m.cur ≠ .emergencyFlush) (hh : s.m.cur ≠ .halted)
    (hk : s.q.ctxs.find? (fun k => k.wait == .gatherWait && chanCap k s) = some k) (hch : freeChan s = some ch) :
    exec (.gatherChannelGrant mem) s = .next (afterIo (gatherStart k ch mem (waitEnded k s))) := by
  show execGatherChannelGrant mem s = _
  unfold execGatherChannelGrant
  rw [if_neg (by simp [hf, hh])]
  simp only [hk, hch]
  exact doneIo_after _

section
variable {k : Ctx} {ch : Nat} {mem rest : HostMem} {tab : List Byte} {n : Ns} {s : State}
  (hread : hostRead (itabOf k.cmd) (16 * nblocks k.cmd) mem = some (tab, rest)) (hns : nsAt? k.cmd.nsid s = some n)
include hread hns

theorem gatherStart_badEntry {e cause : Nat} (he : entsFault n (parseEnts (nblocks k.cmd) tab) s = some (e, cause)) (hc : cause ≠ 5) :
    gatherStart k ch mem s = tableFault k e cause s := by
  unfold gatherStart
  simp only [hread, hns, he]
  rw [noteTack, if_pos hc]

variable (hgood : entsFault n (parseEnts (nblocks k.cmd) tab) s = none)
include hgood

theorem gatherStart_tooLong (hl : k.cmd.cdw13.toNat < entTotal (parseEnts (nblocks k.cmd) tab)) :
    gatherStart k ch mem s = tableFault k (nblocks k.cmd - 1) 3 s := by
  unfold gatherStart
  simp only [hread, hns, hgood, hl, if_true]

theorem gatherStart_nothing (h0 : entTotal (parseEnts (nblocks k.cmd) tab) = 0) : gatherStart k ch mem s = ok k s := by
  unfold gatherStart
  simp only [hread, hns, hgood, h0, Nat.not_lt_zero, if_true, if_false]

/-- A Gather Read that takes its channel. -/
theorem gatherStart_runs (h0 : entTotal (parseEnts (nblocks k.cmd) tab) ≠ 0) (hl : entTotal (parseEnts (nblocks k.cmd) tab) ≤ k.cmd.cdw13.toNat)
    (hs : sealedOut ((parseEnts (nblocks k.cmd) tab).flatMap (entZones n)) s = none) : ∃ k',
    gatherStart k ch mem s = requestLane ch (putCtx k' { s with ga := { s.ga with
      chs := Tbl.put s.ga.chs ch ⟨k.seq, parseEnts (nblocks k.cmd) tab, gatherLevel k.cmd, false⟩ } }) := by
  unfold gatherStart
  simp only [hread, hns, hgood, h0, Nat.not_lt.2 hl, hs, if_false]
  exact ⟨_, rfl⟩

end

/-- A failing check ends its command with the entry and the cause (Tables 9.3, 9.5). -/
theorem tableFault_ends (k : Ctx) (e : Nat) {cause : Nat} (hc : cause ≠ 5) (s : State) : ∃ u0, raises 0x7001 u0 ∧ u0.q = s.q ∧
    endsWith k 7 0x83 (e % 65536 + 65536 * cause) [] u0 (tableFault k e cause s) := by
  refine ⟨_, raises_raise 0x7001 1 [h1 k.cmd.fn, h1 k.cmd.cid, h1 e, h1 cause] s, rfl, ?_⟩
  unfold tableFault
  simp only [hc, if_false]
  exact endsWith_self ..

/-! ## Waits and lanes (R254, R257) -/

theorem exec_gatherChannelWaitExpiry_waits {fn sqid cid : Nat} {k : Ctx} {s : State} (hk : ctxNamed fn sqid cid s = some k) (hw : k.wait = .gatherWait) :
    exec (.gatherChannelWaitExpiry fn sqid cid) s =
      .next (after (raise 0x7030 0 [h1 fn] { s with ga := { s.ga with waited := Tbl.put s.ga.waited k.seq s.tm.turns } })) := by
  show execGatherChannelWaitExpiry fn sqid cid s = _
  unfold execGatherChannelWaitExpiry
  simp only [hk, hw]
  exact done_after _

/-- A Gather Read's channel that has waited 100 µs asks again, a level higher. -/
theorem exec_beatLaneAgeing_waits {ch : Nat} {s : State} (hch : ch < 48) (hw : ch ∈ s.ga.laneWait) : exec (.beatLaneAgeing ch) s =
    .next (after (requestLane ch { s with ga := { s.ga with chs := Tbl.upd s.ga.chs ch (fun c => { c with aged := true }) } })) := by
  show execBeatLaneAgeing ch s = _
  unfold execBeatLaneAgeing
  simp only [List.contains_iff_mem.2 hw, hch, if_true]
  exact done_after _

/-! ## The end (R259 to R261) -/

@[simp] theorem dropChan_chs (ch : Nat) (s : State) : Tbl.get? (dropChan ch s).ga.chs ch = none := Tbl.get?_del_same ..

@[simp] theorem dropChan_wr (ch : Nat) (s : State) : (dropChan ch s).ga.wr = s.ga.wr := releaseLane_wr ch s

theorem gatherOutcome_ga (f nsid : Nat) (n : Ns) (es : List GEnt) (rd : Rd) (s : State) : (gatherOutcome f nsid n es rd s).2.2.ga = s.ga :=
  keeps_of_outside (x := .ga) (gatherOutcome_outside (List.Subset.refl _) f nsid n es rd s) (by decide)

/-- Every element good: the channel is free, the bytes are at the destination, the command ends with success. -/
theorem gatherEnd_good {k : Ctx} {es : List GEnt} {n : Ns} {s : State} (hall : ∀ e ∈ (gatherOutcome k.cmd.fn k.cmd.nsid n es k.rd s).1, e.2 = 0)
    (ch : Nat) : ∃ u0 k', gatherEnd k ch es n none s = postFull k' 0 0 0 0 [] u0 ∧ (k'.cmd = k.cmd ∧ k'.seq = k.seq ∧ k'.wait = k.wait) ∧
      Tbl.get? u0.ga.chs ch = none ∧
      u0.ga.wr = s.ga.wr ++ [(k.cmd.dptr, (gatherOutcome k.cmd.fn k.cmd.nsid n es k.rd s).1.flatMap (·.1))] := by
  unfold gatherEnd
  extract_lets o bad data parts k1 s1 write s2
  have hbad : bad = [] := by
    refine List.filter_eq_nil_iff.2 fun e he => ?_
    simp [hall e.1 (List.fst_mem_of_mem_zipIdx he)]
  have hs1 : s1 = o.2.2 := by simp only [s1, hbad, List.foldl_nil]
  have hwr : s2.ga.wr = s.ga.wr := by rw [dropChan_wr, hs1, gatherOutcome_ga]
  refine ⟨write data.length s2, k1, ?_, ⟨rfl, rfl, rfl⟩, dropChan_chs ch s1, ?_⟩
  · rw [hbad]
  · simp only [write, hwr, List.take_length]
    rfl

theorem exec_gatherReadComplete_ends {ch : Nat} {c : GCh} {k : Ctx} {n : Ns} {s : State} (hc : Tbl.get? s.ga.chs ch = some c)
    (hk : ctxAt c.seq s = some k) (hrd : k.rd.complete = true) (hh : s.m.cur ≠ .halted) (hf : s.m.cur ≠ .emergencyFlush)
    (hns : nsAt? k.cmd.nsid s = some n) (badBeat : Option Nat) :
    exec (.gatherReadComplete ch badBeat) s = .next (afterIo (gatherEnd k ch c.ents n badBeat s)) := by
  show execGatherReadComplete ch badBeat s = _
  unfold execGatherReadComplete
  simp only [hc, hk]
  rw [if_neg (by simp [hrd, hh, hf])]
  simp only [hns]
  exact doneIo_after _

/-! ## O45 -/

/-- Settles O45: the command's checks and those of its table each end it or let it go on; the wait, the lane and the end act on its channel. -/
theorem gatherReads : Obligations.GatherReads := by
  unfold Obligations.GatherReads
  intro s
  refine ⟨fun c sgl s1 k ht hp hn => ?_, fun mem k ch n tab rest hf hh hk hch hread hns => ?_, fun fn sqid cid k hk hw => ?_,
    fun ch c hch hw hc => ?_, fun ch c k n hc hk hrd hh hf hns hall => ?_⟩
  · obtain rfl := taken_cmd ht
    have hx := gatherRead_taken (sgl := sgl) ht hp hn
    refine ⟨fun hg => ?_, fun hg hsome => ?_⟩
    · rw [gatherOn_denied hg] at hx
      exact ⟨_, _, hx, raises_raise .., rfl, endsWith_fin ..⟩
    · obtain ⟨n, hns⟩ := Option.isSome_iff_exists.1 hsome
      rw [gatherOn_attached hg hns] at hx
      refine ⟨fun hbad => ⟨_, hx, ?_⟩, fun ha hr hb => ?_⟩
      · rw [if_pos hbad]
        exact endsWith_fin ..
      · rw [if_neg (by simp [ha, hr, hb])] at hx
        refine ⟨fun m hm hlt => ⟨_, hx, ?_⟩, fun hfits => ⟨_, { k with wait := .gatherWait }, hx, rfl, rfl, rfl, ?_⟩⟩
        · rw [if_pos (by simp [hm, hlt])]
          exact endsWith_fin ..
        · rw [hfits, if_neg Bool.false_ne_true]
          exact ⟨rfl, rfl, rfl⟩
  · intro es s0
    have hx : exec (.gatherChannelGrant mem) s = .next (afterIo (gatherStart k ch mem s0)) := exec_gatherChannelGrant_granted hf hh hk hch
    have hns0 : nsAt? k.cmd.nsid s0 = some n := hns
    refine ⟨fun e cause he hc => ?_, fun hgood hl => ?_, fun hgood h0 => ?_, fun hgood h0 hl hs => ?_⟩
    · obtain ⟨u0, hr, hq, hend⟩ := tableFault_ends k e hc s0
      rw [gatherStart_badEntry hread hns0 he hc] at hx
      exact ⟨u0, _, hx, hr, hq, hend⟩
    · obtain ⟨u0, hr, -, hend⟩ := tableFault_ends k (nblocks k.cmd - 1) (by decide : 3 ≠ 5) s0
      rw [gatherStart_tooLong hread hns0 hgood hl] at hx
      exact ⟨u0, _, hx, hr, hend⟩
    · rw [gatherStart_nothing hread hns0 hgood h0] at hx
      exact ⟨_, hx, endsWith_fin ..⟩
    · obtain ⟨k', hrun⟩ := gatherStart_runs (ch := ch) hread hns0 hgood h0 hl hs
      rw [hrun] at hx
      exact ⟨_, hx, by rw [requestLane_chs]; exact Tbl.get?_put_same .., requestLane_zn ..⟩
  · exact ⟨_, exec_gatherChannelWaitExpiry_waits hk hw, raises_raise .., Tbl.get?_put_same .., rfl, rfl⟩
  · refine ⟨_, exec_beatLaneAgeing_waits hch hw, ?_, requestLane_q .., requestLane_zn ..⟩
    rw [requestLane_chs, Tbl.get?_upd_same, hc]
    rfl
  · obtain ⟨u0, k', hend, ⟨hcmd, hseq, hwait⟩, hchs, hwr⟩ := gatherEnd_good hall ch
    exact ⟨u0, _, exec_gatherReadComplete_ends hc hk hrd hh hf hns none, hchs, hwr, k', hcmd, hseq, hwait, hend⟩

end Sys2Proof.Machine

/-! O47. Half-hitch Append and Half-hitch Read: the checks in their order, the wait for the coding, the acceptance (R276 to R281). -/

namespace Sys2Proof.Machine
open Sys2Proof

/-! ## The device's mode, the zone's room (R116, R277) -/

/-- Check 1 finds nothing in a device that no sanitize, spare or temperature keeps from writing. -/
theorem writeModeStatus_clear {s : State} (hm : s.m.cur ≠ .sanitize) (hspares : s.m.sparesOut = false) (hthm : s.m.thm = 0) (y : Nat) :
    writeModeStatus y s = (none, s) := by
  simp [writeModeStatus, modeStatus, hm, hspares, hthm]

section
variable {q : Zone} {u : Nat} {s : State}

/-- Units that an open zone has room for pass checks 3 and 4. -/
theorem hhRoom_fits (ho : q.st.isOpen = true) (hcap : q.wp + u ≤ 2 * zcapLbas s.fl.geom) : hhRoom q u s = none := by
  simp [hhRoom, stateStatus_open ho, hcap]

/-- Units past the end of an open zone do not fit at acceptance. -/
theorem hhFit_past (ho : q.st.isOpen = true) (hcap : 2 * zcapLbas s.fl.geom < q.wp + u) : hhFit q u s = some (1, 0xB8) := by
  simp [hhFit, hhRoom, stateStatus_open ho, hcap]

end

/-! ## Half-hitch Append: its checks (R276, R277) -/

/-- A Half-hitch Append that checks 1 to 4 let through: a permitted one without a reserved bit, at the first block of an open zone with room
for its half-hitches, in a device that takes writes. -/
structure HhAppendable (k : Ctx) (s : State) (n : Ns) (z : Nat) (q : Zone) : Prop where
  perm : k.snap.write = true
  ns : nsFor? k.cmd.fn k.cmd.nsid s = some n
  zoned : n.conv = false
  fields : hhAppendBad k.cmd = false
  inside : slbaOf k.cmd < n.nsze
  at_ : zoneOfLba n (slbaOf k.cmd) = some (z, 0)
  zone : zoneAt? z s = some q
  isOpen : q.st.isOpen = true
  awake : s.m.cur ≠ .sanitize
  spares : s.m.sparesOut = false
  cool : s.m.thm = 0
  few : nblocks k.cmd ≤ 512
  room : q.wp + nblocks k.cmd ≤ 2 * zcapLbas s.fl.geom

/-- A Half-hitch Append's context while its blocks are coded. -/
def hhCoding (k : Ctx) (blks : List Blk) : Ctx :=
  { k with wait := .halfHitch, data := padTo (4096 * nblocks k.cmd) ((blks.take (nblocks k.cmd)).flatMap (·.data)) }

section
variable {k : Ctx} {s : State} {n : Ns} {z : Nat} {q : Zone}

/-- What is left to check of such a command: that its zone is compressed, and the zone's key. -/
theorem hhAppendOn_appendable (h : HhAppendable k s n z q) (blks : List Blk) : hhAppendOn blks k s =
    if !q.comp then fin k 1 0xBC s else if sealDenied z q s then refuseSeal k z s else putCtx (hhCoding k blks) s := by
  have hmode := writeModeStatus_clear h.awake h.spares h.cool
  have hroom := hhRoom_fits h.isOpen h.room
  unfold hhAppendOn
  simp only [withNs_attached h.ns, h.perm, h.zoned, h.fields, Nat.not_le.2 h.inside, h.at_, h.zone, hmode, Nat.not_lt.2 h.few, hroom, h.isOpen]
  rfl

theorem halfHitchAppend_taken {s0 : State} (ht : taken k.cmd s0 = some (k, s)) (hp : plainForm k) (hn : notSanitizing s) (blks : List Blk) :
    exec (.halfHitchAppend k.cmd blks) s0 = .next (afterIo (hhAppendOn blks k s)) := doneIo_gateIo ht hp hn (hhAppendOn blks)

end

/-! ## Half-hitch Append: its acceptance (R277, R278) -/

theorem exec_halfHitchAcceptance_coded {fn sqid cid : Nat} {k : Ctx} {n : Ns} {s : State} (hk : ctxNamed fn sqid cid s = some k)
    (hw : k.wait = .halfHitch) (hf : s.m.cur ≠ .emergencyFlush) (hh : s.m.cur ≠ .halted) (hns : nsAt? k.cmd.nsid s = some n) (mapOk : Bool) :
    exec (.halfHitchAcceptance fn sqid cid mapOk) s = .next (afterIo (hhAccept mapOk k n s)) := by
  show execHalfHitchAcceptance fn sqid cid mapOk s = _
  unfold execHalfHitchAcceptance
  simp only [hk]
  rw [if_neg (by simp [hw, hf, hh])]
  simp only [hns]
  exact doneIo_after _

/-- The units a Half-hitch Append takes: one for a block that its half-hitch holds, two for one that spills (R275, R287). -/
def hhUnits (k : Ctx) : Nat := sumN ((cut4k (nblocks k.cmd) k.data).map (fun b => 1 + b2n (hhEncode b).isNone))

/-- Coded blocks that do not fit an open zone: 0x3032 is recorded and the command ends with 1h/0xB8. -/
theorem hhAccept_past {k : Ctx} {n : Ns} {s : State} {z off : Nat} {q : Zone} (hat : zoneOfLba n (slbaOf k.cmd) = some (z, off))
    (hzone : zoneAt? z s = some q) (ho : q.st.isOpen = true) (hm : s.m.cur ≠ .sanitize) (hspares : s.m.sparesOut = false) (hthm : s.m.thm = 0)
    (hcap : 2 * zcapLbas s.fl.geom < q.wp + hhUnits k) (mapOk : Bool) : hhAccept mapOk k n s =
      fin k 1 0xB8 (raise 0x3032 1 [h2 z, h2 (hhUnits k), h2 (2 * zcapLbas s.fl.geom - q.wp)] s) := by
  have hmode := writeModeStatus_clear hm hspares hthm
  unfold hhAccept
  extract_lets c raw coded spills u
  have hu : u = hhUnits k := by
    simp only [u, spills, coded, raw, c, List.map_map, hhUnits]
    rfl
  clear_value u
  subst hu
  simp only [c, hat, hzone, hmode, hhFit_past ho hcap]
  rfl

/-! ## Half-hitch Read (R279) -/

/-- A Half-hitch Read without a reserved bit, of no more blocks than it may, from a unit of a zone. -/
structure HhReadable (k : Ctx) (s : State) (n : Ns) (z : Nat) (q : Zone) : Prop where
  ns : nsFor? k.cmd.fn k.cmd.nsid s = some n
  zoned : n.conv = false
  fields : hhReadBad k.cmd = false
  few : nblocks k.cmd ≤ 512
  inside : slbaOf k.cmd / 2 < n.nsze
  at_ : n.zones[slbaOf k.cmd / 2 ^ 21]? = some z
  zone : zoneAt? z s = some q

section
variable {k : Ctx} {s : State} {n : Ns} {z : Nat} {q : Zone}

/-- What is left to check of such a command: its zone's kind, state and key. -/
theorem hhReadOn_readable (h : HhReadable k s n z q) : hhReadOn k s =
    if !q.comp then fin k 0 0x02 s
    else if q.st = .offline then fin k 1 0xBB s
    else if sealDenied z q s then refuseSeal k z s
    else putCtx { k with wait := .hhRead } s := by
  unfold hhReadOn
  simp only [withNs_attached h.ns, h.zoned, h.fields, Nat.not_lt.2 h.few, Nat.not_le.2 h.inside, h.at_, h.zone]
  rfl

theorem halfHitchRead_taken {s0 : State} (ht : taken k.cmd s0 = some (k, s)) (hp : plainForm k) (hn : notSanitizing s) :
    exec (.halfHitchRead k.cmd) s0 = .next (afterIo (hhReadOn k s)) := doneIo_gateIo ht hp hn hhReadOn

end

/-! ## O47 -/

/-- Settles O47: each command's checks leave its zone's kind, state and key to choose between an end and a wait; coded blocks that do not fit
end it at acceptance. -/
theorem halfHitches : Obligations.HalfHitches := by
  unfold Obligations.HalfHitches
  intro s
  refine ⟨fun c blks s1 k n z q ht hp hn hns hconv => ⟨fun hperm hbad hin hat hzone ho hspares hthm hfew hroom => ?_,
      fun hbad hfew hin hat hzone => ?_⟩,
    fun fn sqid cid mapOk k n hk hw hf hh hns => exec_halfHitchAcceptance_coded hk hw hf hh hns mapOk,
    fun mapOk k n z q hat hzone ho hm hspares hthm hcap => ?_⟩
  · obtain rfl := taken_cmd ht
    have hx := halfHitchAppend_taken ht hp hn blks
    rw [hhAppendOn_appendable ⟨hperm, hns, hconv, hbad, hin, hat, hzone, ho, hn.1, hspares, hthm, hfew, hroom⟩ blks] at hx
    refine ⟨fun hcomp => ⟨_, hx, ?_⟩, fun hcomp hseal => ⟨_, hhCoding k blks, hx, rfl, rfl, rfl, ?_⟩⟩
    · simp only [hcomp]
      exact endsWith_fin ..
    · simp only [hcomp, hseal]
      exact ⟨rfl, rfl⟩
  · obtain rfl := taken_cmd ht
    have hx := halfHitchRead_taken ht hp hn
    rw [hhReadOn_readable ⟨hns, hconv, hbad, hfew, hin, hat, hzone⟩] at hx
    refine ⟨fun hcomp => ⟨_, hx, ?_⟩, fun hcomp hoff => ⟨_, hx, ?_⟩,
      fun hcomp hoff hseal => ⟨_, { k with wait := .hhRead }, hx, rfl, rfl, rfl, ?_⟩⟩
    · simp only [hcomp]
      exact endsWith_fin ..
    · simp only [hcomp, if_pos hoff]
      exact endsWith_fin ..
    · simp only [hcomp, if_neg hoff, hseal]
      exact ⟨rfl, rfl⟩
  · exact ⟨_, hhAccept_past hat hzone ho hm hspares hthm hcap mapOk, raises_raise ..⟩

end Sys2Proof.Machine

/-! O58. The events of one step: the order they are queued in, and what the queue and the always-on buffer take of them (R400, R405). -/

namespace Sys2Proof.Machine
open Sys2Proof

/-! ## The order (R400) -/

/-- The codes of a list of events never fall. -/
def codesRise (l : List Ev) : Prop := l.Pairwise (fun a b => a.code ≤ b.code)

theorem insertEv_perm (e : Ev) : ∀ l : List Ev, (insertEv e l).Perm (e :: l)
  | [] => .refl _
  | x :: xs => by
    unfold insertEv
    split
    · exact .refl _
    · exact ((insertEv_perm e xs).cons x).trans (.swap e x xs)

theorem insertEv_codesRise (e : Ev) : ∀ {l : List Ev}, codesRise l → codesRise (insertEv e l)
  | [], _ => List.pairwise_singleton ..
  | x :: xs, h => by
    obtain ⟨hx, hxs⟩ := List.pairwise_cons.1 h
    unfold insertEv
    split
    · next hlt =>
      refine List.pairwise_cons.2 ⟨fun y hy => ?_, h⟩
      rcases List.mem_cons.1 hy with rfl | hy
      · exact hlt.le
      · exact hlt.le.trans (hx y hy)
    · next hle =>
      refine List.pairwise_cons.2 ⟨fun y hy => ?_, insertEv_codesRise e hxs⟩
      rcases List.mem_cons.1 ((insertEv_perm e xs).subset hy) with rfl | hy
      · exact Nat.le_of_not_lt hle
      · exact hx y hy

/-- Where codes rise, an event is inserted behind those of its own code, and disturbs no other code's. -/
theorem filter_insertEv (e : Ev) (c : Nat) : ∀ {l : List Ev}, codesRise l →
    (insertEv e l).filter (fun x => x.code == c) = (l ++ [e]).filter (fun x => x.code == c)
  | [], _ => rfl
  | x :: xs, h => by
    obtain ⟨hx, hxs⟩ := List.pairwise_cons.1 h
    unfold insertEv
    split
    · next hlt =>
      by_cases hc : e.code = c
      · have none_left : (x :: xs).filter (fun y => y.code == c) = [] := by
          refine List.filter_eq_nil_iff.2 fun y hy => ?_
          have : e.code < y.code := by
            rcases List.mem_cons.1 hy with rfl | hy
            · exact hlt
            · exact hlt.trans_le (hx y hy)
          simp only [beq_iff_eq]
          omega
        rw [List.filter_append, none_left, List.filter_cons, none_left, List.nil_append, List.filter_cons, List.filter_nil]
      · simp [List.filter_append, List.filter_cons, hc]
    · simp only [List.cons_append, List.filter_cons, filter_insertEv e c hxs]

/-- What the sort holds while it takes the events one by one. -/
theorem foldl_insertEv (c : Nat) : ∀ (l acc : List Ev), codesRise acc →
    codesRise (l.foldl (fun acc e => insertEv e acc) acc) ∧ (l.foldl (fun acc e => insertEv e acc) acc).Perm (acc ++ l) ∧
      (l.foldl (fun acc e => insertEv e acc) acc).filter (fun e => e.code == c) = (acc ++ l).filter (fun e => e.code == c)
  | [], acc, h => by simpa using h
  | e :: es, acc, h => by
    obtain ⟨hrise, hperm, hfilter⟩ := foldl_insertEv c es (insertEv e acc) (insertEv_codesRise e h)
    refine ⟨hrise, hperm.trans ?_, hfilter.trans ?_⟩
    · exact ((insertEv_perm e acc).append_right es).trans List.perm_middle.symm
    · rw [List.filter_append, filter_insertEv e c h, ← List.filter_append, List.append_assoc]
      rfl

theorem sortEvs_perm (l : List Ev) : (sortEvs l).Perm l := (foldl_insertEv 0 l [] .nil).2.1

/-! ## The queue and the always-on buffer (R400, R405) -/

/-- Events of the queue: as many as have room are taken, in their order. -/
theorem foldl_enqueueEv_queue : ∀ {l : List Ev} (b : Stb), (∀ e ∈ l, e.aon = false) →
    (l.foldl enqueueEv b).queue = b.queue ++ l.take (256 - b.queue.length) ∧ (l.foldl enqueueEv b).aon = b.aon
  | [], b, _ => by simp
  | e :: es, b, h => by
    obtain ⟨he, hes⟩ := List.forall_mem_cons.1 h
    obtain ⟨hq, ha⟩ := foldl_enqueueEv_queue (enqueueEv b e) hes
    rw [List.foldl_cons, hq, ha]
    by_cases hroom : b.queue.length < 256
    · obtain ⟨n, hn⟩ : ∃ n, 256 - b.queue.length = n + 1 := ⟨255 - b.queue.length, by omega⟩
      have hn' : 256 - (b.queue.length + 1) = n := by omega
      simp [enqueueEv, he, hroom, hn, hn']
    · simp [enqueueEv, he, hroom, Nat.sub_eq_zero_of_le (Nat.le_of_not_lt hroom)]

/-- Those without room are counted. -/
theorem foldl_enqueueEv_dropQueue : ∀ {l : List Ev} (b : Stb), (∀ e ∈ l, e.aon = false) → b.dropQueue < 2 ^ 32 →
    (l.foldl enqueueEv b).dropQueue = satAdd 32 b.dropQueue (l.length - (256 - b.queue.length))
  | [], b, _, hd => by
    simp only [List.foldl_nil, satAdd, List.length_nil]
    omega
  | e :: es, b, h, hd => by
    obtain ⟨he, hes⟩ := List.forall_mem_cons.1 h
    by_cases hroom : b.queue.length < 256
    · have hb : enqueueEv b e = { b with queue := b.queue ++ [e] } := by simp [enqueueEv, he, hroom]
      rw [List.foldl_cons, foldl_enqueueEv_dropQueue _ hes (by rw [hb]; exact hd), hb]
      simp only [satAdd, List.length_append, List.length_cons, List.length_nil]
      omega
    · have hb : enqueueEv b e = { b with dropQueue := satAdd 32 b.dropQueue 1 } := by simp [enqueueEv, he, hroom]
      rw [List.foldl_cons, foldl_enqueueEv_dropQueue _ hes (by rw [hb]; simp only [satAdd]; omega), hb]
      simp only [satAdd, List.length_cons]
      omega

/-- Events of RETAIN go to the always-on buffer, as many as have room. -/
theorem foldl_enqueueEv_aon : ∀ {l : List Ev} (b : Stb), (∀ e ∈ l, e.aon = true) →
    (l.foldl enqueueEv b).aon = b.aon ++ l.take (16 - b.aon.length) ∧ (l.foldl enqueueEv b).queue = b.queue
  | [], b, _ => by simp
  | e :: es, b, h => by
    obtain ⟨he, hes⟩ := List.forall_mem_cons.1 h
    obtain ⟨ha, hq⟩ := foldl_enqueueEv_aon (enqueueEv b e) hes
    rw [List.foldl_cons, hq, ha]
    by_cases hroom : b.aon.length < 16
    · obtain ⟨n, hn⟩ : ∃ n, 16 - b.aon.length = n + 1 := ⟨15 - b.aon.length, by omega⟩
      have hn' : 16 - (b.aon.length + 1) = n := by omega
      simp [enqueueEv, he, hroom, hn, hn']
    · simp [enqueueEv, he, hroom, Nat.sub_eq_zero_of_le (Nat.le_of_not_lt hroom)]

/-- One event reaches the queue only as itself. -/
theorem mem_enqueueEv_queue {b : Stb} {e x : Ev} (h : x ∈ (enqueueEv b e).queue) : x ∈ b.queue ∨ x = e ∧ x.aon = false := by
  unfold enqueueEv at h
  split at h
  · split at h <;> exact .inl h
  · next he =>
    split at h
    · rcases List.mem_append.1 h with h | h
      · exact .inl h
      · obtain rfl := List.mem_singleton.1 h
        exact .inr ⟨rfl, by simpa using he⟩
    · exact .inl h

theorem mem_foldl_enqueueEv_queue {x : Ev} : ∀ {l : List Ev} {b : Stb}, x ∈ (l.foldl enqueueEv b).queue →
    x ∈ b.queue ∨ x ∈ l ∧ x.aon = false
  | [], _, h => .inl h
  | e :: es, b, h => by
    rcases mem_foldl_enqueueEv_queue (l := es) h with h | ⟨hm, ha⟩
    · rcases mem_enqueueEv_queue h with h | ⟨rfl, ha⟩
      · exact .inl h
      · exact .inr ⟨List.mem_cons_self .., ha⟩
    · exact .inr ⟨List.mem_cons_of_mem _ hm, ha⟩

/-! ## O58 -/

/-- Settles O58: the sort is a stable one, and what it gives is queued one by one. -/
theorem eventsAreQueuedInCodeOrder : Obligations.EventsAreQueuedInCodeOrder := by
  unfold Obligations.EventsAreQueuedInCodeOrder
  intro s
  have hsorted := fun c => foldl_insertEv c s.stb.raised [] .nil
  have hperm : (sortEvs s.stb.raised).Perm s.stb.raised := sortEvs_perm _
  refine ⟨(hsorted 0).1, hperm, fun c => (hsorted c).2.2, fun hq => ?_, fun ha => ?_, fun x hx => ?_, settle_raised s, rfl⟩
  · have hq' : ∀ e ∈ sortEvs s.stb.raised, e.aon = false := fun e he => hq e (hperm.subset he)
    obtain ⟨hqueue, haon⟩ := foldl_enqueueEv_queue { s.stb with raised := [] } hq'
    refine ⟨hqueue, haon, fun hd => ?_⟩
    rw [← hperm.length_eq]
    exact foldl_enqueueEv_dropQueue { s.stb with raised := [] } hq' hd
  · exact foldl_enqueueEv_aon { s.stb with raised := [] } fun e he => ha e (hperm.subset he)
  · exact (mem_foldl_enqueueEv_queue hx).imp_right fun ⟨hm, ha⟩ => ⟨hperm.subset hm, ha⟩

end Sys2Proof.Machine

/-! O55. The power loop: the rate factor, and the floor with its record (R376). -/

namespace Sys2Proof.Machine
open Sys2Proof

/-! ## A window -/

/-- The rate factor that a window's mean leaves. -/
def rateFactor (p : Nat) (s : State) : Nat :=
  if pLim s < s.pw.limSeen then max 8 (min s.pw.f (if p = 0 then s.pw.f else 640 * pLim s / p))
  else if 10 * pLim s < p then max 8 (s.pw.f - 4)
  else if p < 9 * pLim s then min 64 (s.pw.f + 1)
  else s.pw.f

/-- The mean is above the limit with the factor at its lowest. -/
def atFloor (p : Nat) (s : State) : Bool := rateFactor p s == 8 && decide (10 * pLim s < p)

/-- What a window shows. -/
def windowShown (p : Nat) (s : State) : State :=
  { s with pw := { s.pw with
      f := rateFactor p s, limSeen := pLim s, pWin := min p 65535, pPeak := max s.pw.pPeak (min p 65535), floor := atFloor p s } }

/-- The floor is recorded as it is reached. -/
def windowNoted (p : Nat) (s : State) : State :=
  if atFloor p s && !s.pw.floor then raise 0xB021 1 [h1 (pLim s), h1 p] (windowShown p s) else windowShown p s

theorem windowNoted_pw (p : Nat) (s : State) : (windowNoted p s).pw = (windowShown p s).pw := by unfold windowNoted; split <;> rfl
theorem windowNoted_zn (p : Nat) (s : State) : (windowNoted p s).zn = s.zn := by unfold windowNoted; split <;> rfl

theorem avsStep_pw (s : State) : ∃ v, (avsStep s).pw = { s.pw with vcore := v } := by
  unfold avsStep
  split
  · exact ⟨_, rfl⟩
  · exact ⟨_, rfl⟩

/-- In a mode with power a window's end shows it, notes the floor and moves the core's supply, which alters nothing it showed. -/
theorem exec_powerLoopWindow_shows {s : State} (hr : s.m.cur ≠ .reset) (ht : s.m.cur ≠ .retain) (p : Nat) :
    ∃ u v, exec (.powerLoopWindow p) s = .next (after u) ∧ u.pw = { (windowShown p s).pw with vcore := v } ∧ u.stb = (windowNoted p s).stb ∧
      u.zn = s.zn := by
  obtain ⟨v, hv⟩ := avsStep_pw (windowNoted p s)
  have kept : ∀ {x : Comp}, x ∉ [Comp.pw, .free] → keeps x (windowNoted p s) (avsStep (windowNoted p s)) :=
    fun hx => keeps_of_outside (avsStep_outside (List.Subset.refl _) _) hx
  exact ⟨avsStep (windowNoted p s), v, if_neg (not_or_intro hr ht), hv.trans (by rw [windowNoted_pw]), kept (x := .stb) (by decide),
    (kept (x := .zn) (by decide)).trans (windowNoted_zn p s)⟩

/-! ## O55 -/

theorem rateFactor_bounds {s : State} (h8 : 8 ≤ s.pw.f) (h64 : s.pw.f ≤ 64) (p : Nat) : 8 ≤ rateFactor p s ∧ rateFactor p s ≤ 64 := by
  unfold rateFactor
  split
  · omega
  · split
    · omega
    · split <;> omega

/-- Settles O55: the factor in its four cases, and the floor's record only as the floor is reached. -/
theorem powerLoop : Obligations.PowerLoop := by
  unfold Obligations.PowerLoop
  intro p s hr ht h8 h64 hp
  obtain ⟨u, v, hx, hpw, hstb, -⟩ := exec_powerLoopWindow_shows hr ht p
  have hf : u.pw.f = rateFactor p s := by rw [hpw]; rfl
  have hfloor : u.pw.floor = atFloor p s := by rw [hpw]; rfl
  have hlow : 10 * p < 9 * (10 * pLim s) ↔ p < 9 * pLim s := by omega
  obtain ⟨hlo, hhi⟩ := rateFactor_bounds h8 h64 p
  refine ⟨u, hx, ?_, hf ▸ hlo, hf ▸ hhi, by rw [hpw]; rfl, ?_, fun hu hs => ?_, fun hno => ?_⟩
  · simp only [hf, rateFactor, if_neg hp.ne', hlow]
  · simp only [hfloor, hf, atFloor, Bool.and_eq_true, beq_iff_eq, decide_eq_true_eq]
  · refine raises_of_eq (congrArg Stb.raised hstb) ?_
    rw [windowNoted, ← hfloor, hu, hs]
    exact raises_raise ..
  · have hquiet : (atFloor p s && !s.pw.floor) = false := by
      rcases hno with hu | hs
      · rw [← hfloor, hu, Bool.false_and]
      · rw [hs, Bool.not_true, Bool.and_false]
    rw [hstb, windowNoted, hquiet]
    rfl

end Sys2Proof.Machine

/-! SUPPORT. The cadence link: what versions, tokens, commands and schedules leave of its state; a turn and a good header, each in its parts. -/

namespace Sys2Proof.Machine
open Sys2Proof

/-! ## Header commands in their parts (R341) -/

/-- A command heard for the first time: its record and its count. -/
def commandHeard (cmd arg seq : Nat) (s : State) : State :=
  raise 0xA060 0 [h1 cmd, h2 arg] { s with cad := { s.cad with lastSeq := some seq, cmdDone := wrapAdd 16 s.cad.cmdDone 1 } }

/-- What a command of a break does once heard: the turns of quiet it asks for. -/
def quietAsked (cmd arg : Nat) (s : State) : State :=
  if cmd = 1 then { s with cad := { s.cad with quietNext := some (arg % 65536) } }
  else if cmd = 2 then { s with cad := { s.cad with quietNext := some 0 } }
  else s

/-- A command under a new sequence number that does nothing: only its number is kept, and an unknown one is counted. -/
def commandPassed (cmd seq : Nat) (s : State) : State :=
  if 3 < cmd then { s with cad := { s.cad with lastSeq := some seq, cmdUnknown := satAdd 16 s.cad.cmdUnknown 1 } }
  else { s with cad := { s.cad with lastSeq := some seq } }

theorem headerCmd_parts (cmd arg seq : Nat) (s : State) : headerCmd cmd arg seq s =
    if cmd = 0 ∨ s.cad.lastSeq = some seq then s
    else if 3 < cmd ∨ cmd = 1 ∧ arg % 65536 = 0 then commandPassed cmd seq s
    else quietAsked cmd arg (commandHeard cmd arg seq s) := by
  unfold headerCmd commandPassed
  by_cases h : cmd = 0 ∨ s.cad.lastSeq = some seq
  · rw [if_pos h, if_pos h]
  by_cases h3 : 3 < cmd
  · rw [if_neg h, if_neg h, if_pos (Or.inl h3)]
    simp only [if_pos h3]
  by_cases h1 : cmd = 1 ∧ arg % 65536 = 0
  · rw [if_neg h, if_neg h, if_pos (Or.inr h1)]
    simp only [if_neg h3, if_pos h1]
  · rw [if_neg h, if_neg h, if_neg (not_or_intro h3 h1)]
    simp only [if_neg h3, if_neg h1]
    rfl

/-! ## The link's state -/

/-- The state of the link without what versions, tokens, header commands, schedules and the search for lock change. -/
def link (s : State) : Cad :=
  { s.cad with
    ver := 0, nextVer := 0, overEpoch := none, token := 0, tokNext := 0, lockReady := false, good := none, sched := [], loaded := false,
    pendSched := none, lastSeq := none, cmdUnknown := 0, cmdDone := 0, quietNext := none, map := 0, maxDepth := 0 }

theorem link_setToken (lvl : Nat) (s : State) : link (setToken lvl s) = link s := by unfold setToken; split <;> rfl

theorem link_setVer (v : Nat) (s : State) : link (setVer v s) = link s := by
  unfold setVer
  split
  · rfl
  · dsimp only
    split
    · exact (link_setToken ..).trans rfl
    · rfl

theorem link_headerCmd (cmd arg seq : Nat) (s : State) : link (headerCmd cmd arg seq s) = link s := by
  have asked : ∀ t, link (quietAsked cmd arg t) = link t := fun t => by unfold quietAsked; split_ifs <;> rfl
  have passed : link (commandPassed cmd seq s) = link s := by unfold commandPassed; split <;> rfl
  rw [headerCmd_parts]
  split
  · rfl
  · split
    · exact passed
    · exact asked _

theorem link_takeSched (s : State) : link (takeSched s) = link s := by
  unfold takeSched
  split
  · split <;> rfl
  · rfl

/-! ## Events they raise -/

theorem grows_setToken (lvl : Nat) (s : State) : grows s (setToken lvl s) := by
  unfold setToken
  split
  · exact grows_refl s
  · exact grows_trans (grows_of_eq rfl) (grows_raise ..)

theorem grows_setVer (v : Nat) (s : State) : grows s (setVer v s) := by
  have noted : grows s (raise 0xA010 0 [h1 s.cad.ver, h1 v, h4 s.tm.epoch] s) := grows_raise ..
  have lifted : ∀ t, grows t (setToken 0xFF { t with cad := { t.cad with tokNext := 0xFF } }) := fun t =>
    grows_trans (t := { t with cad := { t.cad with tokNext := 0xFF } }) (grows_of_eq rfl) (grows_setToken ..)
  refine grows_ite (grows_refl s) (grows_ite ?_ ?_)
  · exact grows_trans (t := raise 0xA010 0 [h1 s.cad.ver, h1 v, h4 s.tm.epoch] { s with cad := { s.cad with ver := v } }) noted (lifted _)
  · exact noted

theorem grows_takeSched (s : State) : grows s (takeSched s) :=
  grows_keeps (keeps_of_outside (x := .stb) (takeSched_outside (List.Subset.refl _) s) (by decide))

theorem grows_quietAsked (cmd arg : Nat) (s : State) : grows s (quietAsked cmd arg s) :=
  grows_ite (grows_of_eq rfl) (grows_ite (grows_of_eq rfl) (grows_refl s))

theorem grows_headerCmd (cmd arg seq : Nat) (s : State) : grows s (headerCmd cmd arg seq s) := by
  have heard : grows s (commandHeard cmd arg seq s) := grows_trans (grows_of_eq rfl) (grows_raise ..)
  have passed : grows s (commandPassed cmd seq s) := grows_ite (grows_of_eq rfl) (grows_of_eq rfl)
  rw [headerCmd_parts]
  exact grows_ite (grows_refl s) (grows_ite passed (grows_trans heard (grows_quietAsked ..)))

/-! ## Header commands (R341) -/

theorem headerCmd_heard {cmd arg seq : Nat} {s : State} (h : s.cad.lastSeq ≠ some seq) (h0 : cmd ≠ 0) (h3 : cmd ≤ 3)
    (h1 : cmd = 1 → arg % 65536 ≠ 0) : headerCmd cmd arg seq s = quietAsked cmd arg (commandHeard cmd arg seq s) := by
  rw [headerCmd_parts, if_neg (not_or_intro h0 h), if_neg (not_or_intro (Nat.not_lt.2 h3) fun hc => h1 hc.1 hc.2)]

/-! ## A turn (R342) -/

/-- A turn's count and what takes effect with it, before LOCK rises. -/
def turnCounted (s : State) : State :=
  let t := turnEnds s
  let wrap := t.tm.turn == 999
  { t with
    tm := { t.tm with
      turn := if wrap then 0 else t.tm.turn + 1, us := 0, elapsed := t.tm.elapsed + (1000 - t.tm.us), turns := t.tm.turns + 1,
      epoch := if wrap then (t.cad.epochReq.getD (t.tm.epoch + 1)) % 2 ^ 40 else t.tm.epoch,
      resync := if wrap then t.cad.epochReq.isSome else t.tm.resync }
    cad := { t.cad with
      quiet := match t.cad.quietNext with | some n => n | none => t.cad.quiet - 1,
      quietNext := none, absent := false, epochReq := if wrap then none else t.cad.epochReq }
    slk := { t.slk with holdTurn := false }
    pl := { t.pl with yards := Tbl.mapV t.pl.yards (fun y x => { x with exhTurn := false, tokens := Tbl.getD t.ecc.tokens y 256 }) } }

theorem turnEnds_tm (s : State) : (turnEnds s).tm = s.tm := by unfold turnEnds; split <;> rfl

theorem turnCounted_cad (s : State) : (turnCounted s).cad.absent = false ∧ (turnCounted s).cad.lockPend = s.cad.lockPend ∧
    (turnCounted s).cad.quiet = (match s.cad.quietNext with | some n => n | none => s.cad.quiet - 1) := by
  unfold turnCounted turnEnds
  dsimp only
  split <;> exact ⟨rfl, rfl, rfl⟩

theorem turnCounted_epoch (s : State) : (turnCounted s).tm.epoch =
    if s.tm.turn = 999 then (s.cad.epochReq.getD (s.tm.epoch + 1)) % 2 ^ 40 else s.tm.epoch := by
  have hreq : (turnEnds s).cad.epochReq = s.cad.epochReq := by unfold turnEnds; split <;> rfl
  simp only [turnCounted, turnEnds_tm, hreq, beq_iff_eq]

theorem lockRises_tm (s : State) : ∃ tsrc est, (lockRises s).tm = { s.tm with tsrc := tsrc, est := est } := by
  unfold lockRises
  split
  · exact ⟨_, _, rfl⟩
  · exact ⟨_, _, rfl⟩

theorem lockRises_kept (s : State) : (lockRises s).cad.absent = s.cad.absent ∧ (lockRises s).cad.quiet = s.cad.quiet := by
  unfold lockRises
  split <;> exact ⟨rfl, rfl⟩

/-- Presence, lock and the turns of quiet left. -/
def beat (s : State) : Bool × Bool × Nat := (s.cad.absent, s.cad.lock, s.cad.quiet)

theorem beat_of_link {s t : State} (h : link t = link s) : beat t = beat s := by
  have hbeat := congrArg (fun c : Cad => (c.absent, c.lock, c.quiet)) h
  exact hbeat

/-- What a root drives in a turn, before the command it sends is heard by itself. -/
def rootDriven (s : State) : State :=
  let s0 := { s with cad := { s.cad with
    parts := Tbl.mapV s.cad.parts (fun _ p => { p with since := satAdd 16 p.since 1 }),
    dels := s.cad.dels.map (fun (d : Deliv) => if d.begun then { d with since := d.since + 1 } else d),
    tokNext := if 2 ≤ s.cad.ver then s.cad.rootTok else 0xFF } }
  driveTurn { s0 with cad := { s0.cad with epochMin := min s0.cad.epochMin (verMin s0) } }

/-- A root acts on the command it sends, and has one turn less to send it. -/
def rootSends (s : State) : State :=
  headerCmd s.cad.sendCmd s.cad.sendArg s.cad.sendSeq { s with cad := { s.cad with sendLeft := s.cad.sendLeft - 1 } }

theorem rootTurn_parts (s : State) : rootTurn s = if 0 < s.cad.sendLeft then rootSends (rootDriven s) else rootDriven s := rfl

/-- What an epoch brings at a root: depth and version (R364, R367). -/
def rootEpoch (s : State) : State :=
  let t := setVer (verNext s) { s with cad := { s.cad with rootDepth := s.cad.rootDepthNext, maxDepth := s.cad.rootDepthNext } }
  { t with cad := { t.cad with epochMin := verMin t } }

theorem epochWork_parts (s : State) : epochWork s = if isRoot (takeSched s) then rootEpoch (takeSched s) else takeSched s := rfl

theorem rootTurn_beat (s : State) : beat (rootTurn s) = beat s := by
  rw [rootTurn_parts]
  split
  · exact (beat_of_link (link_headerCmd ..)).trans rfl
  · rfl

theorem epochWork_beat (s : State) : beat (epochWork s) = beat s := by
  have hs : beat (takeSched s) = beat s := beat_of_link (link_takeSched s)
  rw [epochWork_parts]
  split
  · exact Eq.trans (beat_of_link (link_setVer ..) : beat (setVer _ _) = _) hs
  · exact hs

theorem grows_rootTurn (s : State) : grows s (rootTurn s) := by
  rw [rootTurn_parts]
  refine grows_ite (grows_trans (t := rootDriven s) (grows_of_eq rfl) ?_) (grows_of_eq rfl)
  exact grows_trans (t := { rootDriven s with cad := { (rootDriven s).cad with sendLeft := (rootDriven s).cad.sendLeft - 1 } })
    (grows_of_eq rfl) (grows_headerCmd ..)

theorem grows_rootEpoch (s : State) : grows s (rootEpoch s) := by
  have moved : grows s (setVer (verNext s) { s with cad := { s.cad with rootDepth := s.cad.rootDepthNext, maxDepth := s.cad.rootDepthNext } }) :=
    grows_trans (t := { s with cad := { s.cad with rootDepth := s.cad.rootDepthNext, maxDepth := s.cad.rootDepthNext } })
      (grows_of_eq rfl) (grows_setVer ..)
  exact grows_trans moved (grows_of_eq rfl)

theorem grows_epochWork (s : State) : grows s (epochWork s) := by
  rw [epochWork_parts]
  exact grows_ite (grows_trans (grows_takeSched s) (grows_rootEpoch _)) (grows_takeSched s)

/-- What a turn brings at its end: the epoch's work, and whether a proof window may open. -/
def turnBegun (wrap : Bool) (s : State) : State := softTurn (if wrap then epochWork s else s)

theorem turnBegun_beat (wrap : Bool) (s : State) : beat (turnBegun wrap s) = beat s := by
  cases wrap
  · rfl
  · exact epochWork_beat s

theorem grows_turnBegun (wrap : Bool) (s : State) : grows s (turnBegun wrap s) :=
  grows_trans (grows_ite (grows_epochWork s) (grows_refl s)) (grows_of_eq rfl)

/-- The token in force in the turn that begins (R360). -/
def turnToken (s : State) : State := setToken (if !s.cad.lock then s.cad.token else if 2 ≤ s.cad.ver then s.cad.tokNext else 0xFF) s

/-- What follows in the turn: token, epoch, proof window, the root's own header. -/
def turnWorked (wrap : Bool) (s : State) : State :=
  if isRoot (turnBegun wrap (turnToken s)) && (turnBegun wrap (turnToken s)).m.cur != .test then rootTurn (turnBegun wrap (turnToken s))
  else turnBegun wrap (turnToken s)

theorem newTurn_parts (s : State) : newTurn s = turnWorked ((turnEnds s).tm.turn == 999) (lockRises (turnCounted s)) := rfl

theorem turnWorked_beat (wrap : Bool) (s : State) : beat (turnWorked wrap s) = beat s := by
  have hu : ∀ lvl, beat (turnBegun wrap (setToken lvl s)) = beat s := fun lvl =>
    (turnBegun_beat wrap _).trans (beat_of_link (link_setToken lvl s))
  unfold turnWorked
  split
  · exact (rootTurn_beat _).trans (hu _)
  · exact hu _

theorem grows_turnWorked (wrap : Bool) (s : State) : grows s (turnWorked wrap s) := by
  have hu : ∀ lvl, grows s (turnBegun wrap (setToken lvl s)) := fun lvl => grows_trans (grows_setToken lvl s) (grows_turnBegun wrap _)
  unfold turnWorked
  exact grows_trans (hu _) (grows_ite (grows_rootTurn _) (grows_refl _))

theorem turnWorked_outside {L : List Comp} (h : [.slk, .stb, .cad, .free] ⊆ L) (wrap : Bool) (s : State) :
    outside L (turnWorked wrap s) = outside L s := by
  refine outside_mono h ?_
  have hv : outside [.slk, .stb, .cad, .free] (turnBegun wrap (turnToken s)) = outside [.slk, .stb, .cad, .free] s := by
    cases wrap <;> simp [turnBegun, turnToken]
  unfold turnWorked
  split <;> simp [hv]

/-! ## A good header (R340 to R343) -/

/-- The count is the header's, and so are depth and versions. -/
def headerTaken (h : List Byte) (s : State) : State :=
  let t := alignCount (numAt h 4 5) (numAt h 9 2 % 1024) s
  { t with cad := { t.cad with nextVer := numAt h 2 1 / 16, depth := numAt h 3 1 % 4, maxDepth := numAt h 3 1 / 4 % 4, badRow := 0 } }

/-- In lock the version follows the header; out of it two headers in turn make the participant ready for lock (R349). -/
def lockSought (ver e t : Nat) (s : State) : State :=
  if s.cad.lock then setVer ver s
  else if s.cad.lockPend then s
  else if (match s.cad.good with | some c => nextCount c == (e, t) | none => false) && inDepth s then
    { s with cad := { s.cad with lockReady := true, ver := ver, good := some (e, t) } }
  else { s with cad := { s.cad with good := some (e, t), lockReady := false } }

/-- A version above the participant's own is recorded once an epoch (R363). -/
def versionNoted (ver e : Nat) (s : State) : State :=
  if verSupp s < ver ∧ s.cad.overEpoch ≠ some e then raise 0xA011 1 [h1 ver] { s with cad := { s.cad with overEpoch := some e } } else s

/-- Token and roll-call map of the header. -/
def tokenTaken (h : List Byte) (ver rollcall : Nat) (s : State) : State :=
  let v2 := decide (2 ≤ min ver (verSupp s))
  { s with cad := { s.cad with
    tokNext := if v2 then numAt h 13 1 else if s.cad.lock then 0xFF else s.cad.tokNext, map := if v2 then rollcall else s.cad.map } }

/-- A participant in lock acts on the header's command. -/
def commandTaken (h : List Byte) (s : State) : State :=
  if s.cad.lock && inDepth s then headerCmd (numAt h 11 1) (numAt h 14 4) (numAt h 12 1) s else s

/-- What a good header brings once its count is taken. -/
def headerWorked (h : List Byte) (rollcall : Nat) (s : State) : State :=
  commandTaken h (tokenTaken h (numAt h 2 1 % 16) rollcall (versionNoted (numAt h 2 1 % 16) (numAt h 4 5)
    (lockSought (numAt h 2 1 % 16) (numAt h 4 5) (numAt h 9 2 % 1024) s)))

theorem goodHeader_parts (h : List Byte) (rollcall : Nat) (s : State) : goodHeader h rollcall s = headerWorked h rollcall (headerTaken h s) := rfl

theorem headerWorked_link (h : List Byte) (rollcall : Nat) (s : State) : link (headerWorked h rollcall s) = link s := by
  have hlock : ∀ ver e t s, link (lockSought ver e t s) = link s := fun ver e t s => by
    unfold lockSought
    split
    · exact link_setVer ver s
    · split_ifs <;> rfl
  have hver : ∀ ver e s, link (versionNoted ver e s) = link s := fun ver e s => by unfold versionNoted; split <;> rfl
  have htok : ∀ ver s, link (tokenTaken h ver rollcall s) = link s := fun _ _ => rfl
  have hcmd : ∀ s, link (commandTaken h s) = link s := fun s => by
    unfold commandTaken
    split
    · exact link_headerCmd ..
    · rfl
  exact (hcmd _).trans ((htok _ _).trans ((hver _ _ _).trans (hlock _ _ _ _)))

theorem grows_headerWorked (h : List Byte) (rollcall : Nat) (s : State) : grows s (headerWorked h rollcall s) := by
  have hlock : ∀ ver e t s, grows s (lockSought ver e t s) := fun ver e t s =>
    grows_ite (grows_setVer ver s) (grows_ite (grows_refl s) (grows_ite (grows_of_eq rfl) (grows_of_eq rfl)))
  have hver : ∀ ver e s, grows s (versionNoted ver e s) := fun ver e s =>
    grows_ite (grows_trans (grows_of_eq rfl) (grows_raise ..)) (grows_refl s)
  have htok : ∀ ver s, grows s (tokenTaken h ver rollcall s) := fun _ _ => grows_of_eq rfl
  have hcmd : ∀ s, grows s (commandTaken h s) := fun s => grows_ite (grows_headerCmd ..) (grows_refl s)
  exact grows_trans (grows_trans (hlock _ _ _ _) (hver _ _ _)) (grows_trans (htok _ _) (hcmd _))

theorem headerWorked_outside {L : List Comp} (hL : [.stb, .cad, .free] ⊆ L) (h : List Byte) (rollcall : Nat) (s : State) :
    outside L (headerWorked h rollcall s) = outside L s := by
  refine outside_mono hL ?_
  have hlock : ∀ ver e t s, outside [.stb, .cad, .free] (lockSought ver e t s) = outside [.stb, .cad, .free] s := fun ver e t s => by
    unfold lockSought
    split_ifs <;> simp
  have hver : ∀ ver e s, outside [.stb, .cad, .free] (versionNoted ver e s) = outside [.stb, .cad, .free] s := fun ver e s => by
    unfold versionNoted
    split <;> simp
  have htok : ∀ ver s, outside [.stb, .cad, .free] (tokenTaken h ver rollcall s) = outside [.stb, .cad, .free] s := fun ver s => by
    simp [tokenTaken]
  have hcmd : ∀ s, outside [.stb, .cad, .free] (commandTaken h s) = outside [.stb, .cad, .free] s := fun s => by
    unfold commandTaken
    split <;> simp
  rw [headerWorked, hcmd, htok, hver, hlock]

theorem headerWorked_tm (h : List Byte) (rollcall : Nat) (s : State) : (headerWorked h rollcall s).tm = s.tm :=
  keeps_of_outside (x := .tm) (headerWorked_outside (List.Subset.refl _) h rollcall s) (by decide)

theorem takeSched_tm (s : State) : (takeSched s).tm = s.tm :=
  keeps_of_outside (x := .tm) (takeSched_outside (List.Subset.refl _) s) (by decide)

/-- The count of a participant is the header's, whatever it was (R351). -/
theorem alignCount_tm (e t : Nat) (s : State) : (alignCount e t s).tm.epoch = e ∧ (alignCount e t s).tm.turn = t := by
  unfold alignCount
  split
  · next h => exact ⟨h.1.symm, h.2.symm⟩
  · dsimp only
    rw [takeSched_tm]
    exact ⟨rfl, rfl⟩

theorem alignCount_link (e t : Nat) (s : State) : ∃ n, link (alignCount e t s) = { link s with resyncs := n } := by
  unfold alignCount
  split
  · exact ⟨_, rfl⟩
  · exact ⟨_, (link_takeSched _).trans rfl⟩

/-- After a good header: its count and depth, no bad one in a row; what the device forwards and its ports stand. -/
theorem goodHeader_after (h : List Byte) (rollcall : Nat) (s : State) :
    (goodHeader h rollcall s).tm.epoch = numAt h 4 5 ∧ (goodHeader h rollcall s).tm.turn = numAt h 9 2 % 1024 ∧
      (goodHeader h rollcall s).cad.badRow = 0 ∧ (goodHeader h rollcall s).cad.depth = numAt h 3 1 % 4 ∧
      (goodHeader h rollcall s).cad.dn = s.cad.dn ∧ (goodHeader h rollcall s).cad.downLink = s.cad.downLink := by
  obtain ⟨hepoch, hturn⟩ := alignCount_tm (numAt h 4 5) (numAt h 9 2 % 1024) s
  obtain ⟨n, hlink⟩ := alignCount_link (numAt h 4 5) (numAt h 9 2 % 1024) s
  have hw := headerWorked_link h rollcall (headerTaken h s)
  have hbad := congrArg Cad.badRow hw
  have hdepth := congrArg Cad.depth hw
  have hdn := congrArg Cad.dn hw
  have hdown := congrArg Cad.downLink hw
  have hdn' := congrArg Cad.dn hlink
  have hdown' := congrArg Cad.downLink hlink
  rw [goodHeader_parts, headerWorked_tm]
  exact ⟨hepoch, hturn, hbad, hdepth, hdn.trans hdn', hdown.trans hdown'⟩

end Sys2Proof.Machine

/-! O51 and O52. The beat of a participant: turns, headers, lock and commands (R339 to R353, R359, R360, R368). -/

namespace Sys2Proof.Machine
open Sys2Proof

/-! ## Turns -/

theorem newTurn_counts (s : State) : (newTurn s).tm.us = 0 ∧ (newTurn s).tm.turns = s.tm.turns + 1 ∧
    (newTurn s).tm.elapsed = s.tm.elapsed + (1000 - s.tm.us) ∧ (newTurn s).tm.turn = (if s.tm.turn = 999 then 0 else s.tm.turn + 1) ∧
    (newTurn s).tm.epoch = (if s.tm.turn = 999 then (s.cad.epochReq.getD (s.tm.epoch + 1)) % 2 ^ 40 else s.tm.epoch) := by
  have hw : (newTurn s).tm = (lockRises (turnCounted s)).tm :=
    keeps_of_outside (x := .tm) (turnWorked_outside (List.Subset.refl _) _ _) (by decide)
  obtain ⟨tsrc, est, hl⟩ := lockRises_tm (turnCounted s)
  rw [hw, hl]
  refine ⟨rfl, ?_, ?_, ?_, turnCounted_epoch s⟩ <;> simp [turnCounted, turnEnds_tm]

theorem newTurn_kept {x : Comp} (hx : x ∉ [Comp.tm, .slk, .pl, .stb, .cad, .free]) (s : State) : keeps x s (newTurn s) :=
  keeps_of_outside (newTurn_outside (List.Subset.refl _) s) hx

theorem newTurn_present (s : State) : (newTurn s).cad.absent = false :=
  (congrArg Prod.fst (turnWorked_beat _ _)).trans ((lockRises_kept _).1.trans (turnCounted_cad s).1)

theorem newTurn_quiet (s : State) : (newTurn s).cad.quiet = (match s.cad.quietNext with | some n => n | none => s.cad.quiet - 1) :=
  (congrArg (fun b => b.2.2) (turnWorked_beat _ _)).trans ((lockRises_kept _).2.trans (turnCounted_cad s).2.2)

/-- A participant whose lock is due is in lock from the turn's start. -/
theorem newTurn_locks {s : State} (h : s.cad.lockPend = true) :
    (newTurn s).cad.lock = true ∧ (newTurn s).tm.tsrc = true ∧ raises 0xA001 (newTurn s) := by
  have hp : (turnCounted s).cad.lockPend = true := (turnCounted_cad s).2.1.trans h
  have hl : lockRises (turnCounted s) = raise 0xA001 0 [h1 (turnCounted s).cad.depth, h1 (turnCounted s).cad.ver]
      { turnCounted s with cad := { (turnCounted s).cad with lock := true, lockPend := false, lockReady := false, badRow := 0 },
                           tm := { (turnCounted s).tm with tsrc := true, est := false } } := if_pos hp
  have hw : (newTurn s).tm = (lockRises (turnCounted s)).tm :=
    keeps_of_outside (x := .tm) (turnWorked_outside (List.Subset.refl _) _ _) (by decide)
  have hlock : (newTurn s).cad.lock = (lockRises (turnCounted s)).cad.lock := congrArg (fun b => b.2.1) (turnWorked_beat _ _)
  have hev : raises 0xA001 (lockRises (turnCounted s)) := hl ▸ raises_raise ..
  refine ⟨hlock.trans ?_, (congrArg Tm.tsrc hw).trans ?_, raises_mono (grows_turnWorked _ _) hev⟩
  · rw [hl]; rfl
  · rw [hl]; rfl

/-! ## Headers -/

theorem isRoot_of_listens {s : State} (h : listens s = true) : isRoot s = false := by
  simp only [listens, Bool.and_eq_true, Bool.not_eq_true'] at h
  simp [isRoot, h.1.2]

section
variable {s : State} (hl : listens s = true)
include hl

theorem exec_turnHeader_good {hdr : List Byte} (hok : headerOk hdr = true) (rc : BitVec 1024) (ups : List (Nat × BitVec 1024)) :
    exec (.turnHeader ⟨hdr, rc, ups⟩) s =
      .next (after (rollCall ups (goodHeader hdr rc.toNat (forwardTurn hdr rc.toNat s)))) := by
  show execTurnHeader _ s = _
  simp only [execTurnHeader, isRoot_of_listens hl, hl, hok, if_true, Bool.false_eq_true, if_false, done_after]

theorem exec_turnHeader_bad {hdr : List Byte} (hbad : headerOk hdr = false) (rc : BitVec 1024) (ups : List (Nat × BitVec 1024)) :
    exec (.turnHeader ⟨hdr, rc, ups⟩) s = .next (after (rollCall ups (badHeader (forwardTurn hdr rc.toNat s)))) := by
  show execTurnHeader _ s = _
  simp only [execTurnHeader, isRoot_of_listens hl, hl, hbad, if_true, Bool.false_eq_true, if_false, done_after]

end

theorem portWord_of_ports {n : Nat} (caps : List (Nat × BitVec n)) {s t : State} (hi : t.img = s.img) (hd : t.cad.downLink = s.cad.downLink) :
    portWord caps t = portWord caps s := by
  unfold portWord
  rw [hi, hd]

theorem rollCall_up (ups : List (Nat × BitVec 1024)) (s : State) : (rollCall ups s).cad.up =
    portWord ups s ||| (if s.cad.lock && inDepth s && busyNext s then 2 ^ (s.img.addr % 1024) else 0) := rfl

theorem goodHeader_kept {x : Comp} (hx : x ∉ [Comp.tm, .stb, .cad, .free]) (hdr : List Byte) (rc : Nat) (s : State) :
    keeps x s (goodHeader hdr rc (forwardTurn hdr rc s)) :=
  keeps_of_outside ((goodHeader_outside (List.Subset.refl _) hdr rc _).trans (forwardTurn_outside (by decide) hdr rc s)) hx

/-- The third bad header in a row takes the lock, an earlier one counts. -/
theorem badHeader_locked {s : State} (h : s.cad.lock = true) :
    (s.cad.badRow < 2 → (badHeader s).cad.lock = true ∧ (badHeader s).cad.badRow = s.cad.badRow + 1) ∧
    (2 ≤ s.cad.badRow → (badHeader s).cad.lock = false ∧ (badHeader s).tm.tsrc = false ∧ raises 0xA002 (badHeader s)) ∧
    (badHeader s).cad.token = s.cad.token := by
  unfold badHeader
  rw [if_pos h]
  dsimp only
  refine ⟨fun hb => ?_, fun hb => ?_, ?_⟩
  · rw [if_neg (by omega)]
    exact ⟨h, rfl⟩
  · rw [if_pos (by omega)]
    exact ⟨rfl, rfl, raises_raise ..⟩
  · split <;> rfl

/-! ## Header commands -/

theorem heardCmd_locked {cmd arg seq : Nat} {s : State} (hl : listens s = true) (hk : s.cad.lock = true) (hd : inDepth s = true) :
    heardCmd cmd arg seq s = .next (after (headerCmd cmd arg (seq % 256) s)) := by
  simp only [heardCmd, hl, hk, hd, Bool.and_self, if_true, done_after]

/-- The first of its sequence number is heard, and asks for its turns of quiet. -/
theorem heardCmd_first {cmd arg seq : Nat} {s : State} (hl : listens s = true) (hk : s.cad.lock = true) (hd : inDepth s = true)
    (hseq : s.cad.lastSeq ≠ some (seq % 256)) (h0 : cmd ≠ 0) (h3 : cmd ≤ 3) (h1 : cmd = 1 → arg % 65536 ≠ 0) :
    heardCmd cmd arg seq s = .next (after (quietAsked cmd arg (commandHeard cmd arg (seq % 256) s))) :=
  (heardCmd_locked hl hk hd).trans (congrArg (fun t => Host.Outcome.next (after t)) (headerCmd_heard hseq h0 h3 h1))

theorem raises_heard (cmd arg seq : Nat) (s : State) : raises 0xA060 (quietAsked cmd arg (commandHeard cmd arg seq s)) :=
  raises_mono (grows_quietAsked ..) (raises_raise ..)

theorem headerCmd_again {cmd arg seq : Nat} {s : State} (h : s.cad.lastSeq = some seq) : headerCmd cmd arg seq s = s := if_pos (.inr h)

/-! ## Lock -/

theorem loseLock_after (cause : Nat) (s : State) : (loseLock cause s).cad.lock = false ∧ (loseLock cause s).tm.tsrc = false ∧
    (loseLock cause s).tm.est = true ∧ (loseLock cause s).cad.stage = [] ∧ (loseLock cause s).cad.losses = satAdd 16 s.cad.losses 1 ∧
    (loseLock cause s).cad.token = s.cad.token ∧ raises 0xA002 (loseLock cause s) ∧ (loseLock cause s).zn = s.zn :=
  ⟨rfl, rfl, rfl, rfl, rfl, rfl, raises_raise .., rfl⟩

theorem txsRow_acts {f : State → State} {s u : State} (hs : plainWake s) (hm : s.m.cur ≠ .halted) (h : f (touch 0 s) = u) :
    txsRow 0 f s = .next (after u) := h ▸ txsRow_owner hs hm f

theorem touch_cad (f : Nat) {s : State} (hs : plainWake s) : (touch f s).cad = s.cad := touch_keeps f hs (x := .cad) (by decide)
theorem touch_img (f : Nat) {s : State} (hs : plainWake s) : (touch f s).img = s.img := touch_keeps f hs (x := .img) (by decide)

theorem listens_touch (f : Nat) {s : State} (hs : plainWake s) : listens (touch f s) = listens s := by
  simp only [listens, touch_img f hs, touch_m f hs]

/-- The token of a device out of lock lifted, with its record. -/
def tokenLifted (s : State) : State :=
  tick (raise 0xA070 1 [h1 0xFF, h1 (Config.freeNat s.free % 65536)] { s with cad := { s.cad with tokNext := 0xFF, token := 0xFF } })

/-! ## O51 -/

/-- Settles O51: turns and headers by their parts, commands by their equations, lock by its gain and loss. -/
theorem beatOfAParticipant : Obligations.BeatOfAParticipant := by
  unfold Obligations.BeatOfAParticipant
  intro s
  obtain ⟨hus, hturns, helapsed, hturn, hepoch⟩ := newTurn_counts s
  have hzn : (newTurn s).zn = s.zn := newTurn_kept (x := .zn) (by decide) s
  refine ⟨⟨newTurn s, rfl, hus, hturns, helapsed, hturn, fun h => hepoch.trans (if_neg h), newTurn_present s, newTurn_locks, hzn,
      newTurn_kept (x := .fl) (by decide) s⟩, fun h999 hreq => ⟨newTurn s, if_pos h999, hturn.trans (if_pos h999), ?_, hzn⟩,
    fun hl => ⟨fun hdr rc ups hok => ?_, fun hdr rc ups hbad hk => ?_, fun n seq epoch hk hd hseq => ⟨fun hn => ?_, ?_, ?_⟩, fun n seq hk hd hseq => ?_,
      fun hready hk => ?_, fun hk hm => ?_, fun hk hw hh => ?_⟩, fun hq hnext => ⟨newTurn s, if_pos hq, ?_, hus, hzn⟩,
    fun hk htok hw hh => ?_⟩
  · rw [hepoch, if_pos h999, hreq]
    rfl
  · obtain ⟨he, ht, hbad, hdep, hdn, hports⟩ := goodHeader_after hdr rc.toNat (forwardTurn hdr rc.toNat s)
    refine ⟨_, exec_turnHeader_good hl hok rc ups, he, ht, hbad, hdep, goodHeader_kept (x := .zn) (by decide) .., hdn, ?_⟩
    have himg : (goodHeader hdr rc.toNat (forwardTurn hdr rc.toNat s)).img = s.img := goodHeader_kept (x := .img) (by decide) ..
    rw [rollCall_up, portWord_of_ports ups himg hports, himg]
    rfl
  · obtain ⟨hearly, hthird, htok⟩ := badHeader_locked (s := forwardTurn hdr rc.toNat s) hk
    exact ⟨_, exec_turnHeader_bad hl hbad rc ups, hearly, hthird, htok,
      keeps_of_outside (x := .zn) (badHeader_outside (List.Subset.refl _) (forwardTurn hdr rc.toNat s)) (by decide)⟩
  · exact ⟨_, heardCmd_first hl hk hd hseq (by decide) (by decide) fun _ => hn, raises_heard .., rfl, rfl, rfl, rfl⟩
  · exact ⟨_, heardCmd_first hl hk hd hseq (by decide) (by decide) (by decide), raises_heard .., rfl, rfl⟩
  · exact ⟨_, heardCmd_first hl hk hd hseq (by decide) (by decide) (fun h => absurd h (by decide)), raises_heard .., rfl, rfl⟩
  · exact (heardCmd_locked hl hk hd).trans (by rw [headerCmd_again hseq])
  · show execLockAcquired s = _
    simp only [execLockAcquired, hl, hready, hk, Bool.not_false, Bool.and_self, if_true, done_after]
  · have hx : exec (.lockLost true) s = .next (after (loseLock 1 s)) := by
      show execLockLost true s = _
      simp [execLockLost, hl, hk, hm, done_after]
    exact ⟨_, hx, loseLock_after 1 s⟩
  · have hx : relockNow (touch 0 s) = dropLock (touch 0 s) := by
      simp only [relockNow, listens_touch 0 hw, hl, touch_cad 0 hw, hk, Bool.and_self, if_true]
    have hloss := congrArg Cad.losses (touch_cad 0 hw)
    exact ⟨dropLock (touch 0 s), txsRow_acts hw hh hx, rfl, hloss, touch_zn 0 hw⟩
  · rw [newTurn_quiet, hnext, hq]
  · have hc := touch_cad 0 hw
    have hx : tokenReleaseNow (touch 0 s) = tokenLifted (touch 0 s) := by
      simp [tokenReleaseNow, tokenLifted, setToken, hc, hk, Ne.symm htok]
    exact ⟨tokenLifted (touch 0 s), txsRow_acts hw hh hx, rfl, raises_mono (grows_of_eq rfl) (raises_raise ..), touch_zn 0 hw⟩

/-! ## O52 -/

/-- The count set to the header's where it differs, with its record. -/
def countSet (e t : Nat) (s : State) : State :=
  raise 0xA003 1 [h2 (e * 1000 + t - (s.tm.epoch * 1000 + s.tm.turn) + (s.tm.epoch * 1000 + s.tm.turn - (e * 1000 + t)))]
    { s with tm := { s.tm with epoch := e, turn := t, resync := true }, cad := { s.cad with resyncs := satAdd 16 s.cad.resyncs 1 } }

theorem alignCount_differs {e t : Nat} {s : State} (h : (e, t) ≠ (s.tm.epoch, s.tm.turn)) : alignCount e t s = takeSched (countSet e t s) :=
  if_neg fun hc => h (Prod.ext hc.1 hc.2)

/-- Settles O52: what follows the count in a good header leaves the resyncs and adds to the records. -/
theorem countFollowsTheHeader : Obligations.CountFollowsTheHeader := by
  unfold Obligations.CountFollowsTheHeader
  intro hdr rc ups s hl hok hne a b
  obtain ⟨he, ht, -, -, -, -⟩ := goodHeader_after hdr rc.toNat (forwardTurn hdr rc.toNat s)
  have hcount := alignCount_differs (s := forwardTurn hdr rc.toNat s) hne
  refine ⟨_, exec_turnHeader_good hl hok rc ups, he, ht, ?_, ?_⟩
  · have hw := headerWorked_link hdr rc.toNat (headerTaken hdr (forwardTurn hdr rc.toNat s))
    refine (congrArg Cad.resyncs hw).trans ?_
    show (alignCount _ _ _).cad.resyncs = _
    rw [hcount]
    exact congrArg Cad.resyncs (link_takeSched _)
  · have hgrow : grows (countSet (numAt hdr 4 5) (numAt hdr 9 2 % 1024) (forwardTurn hdr rc.toNat s))
        (goodHeader hdr rc.toNat (forwardTurn hdr rc.toNat s)) := by
      refine grows_trans (t := headerTaken hdr (forwardTurn hdr rc.toNat s)) ?_ (grows_headerWorked ..)
      refine grows_trans (t := alignCount _ _ _) ?_ (grows_of_eq rfl)
      rw [hcount]
      exact grows_takeSched _
    have hdiff : a - b + (b - a) = max a b - min a b := by omega
    refine ⟨_, hgrow.subset (List.mem_append_right _ (List.mem_singleton.2 rfl)), rfl, rfl, ?_⟩
    rw [← hdiff]
    rfl

end Sys2Proof.Machine

/-! O53. Polls and the training of downstream ports (R343 to R348, R355 to R357). -/

namespace Sys2Proof.Machine
open Sys2Proof

/-! ## Polls that this device answers -/

/-- STATUS answered: the break flag and its turns are cleared with it. -/
def statusAnswered (s : State) : State :=
  { answer (statusWord s) s with cad := { (answer (statusWord s) s).cad with brkFlag := false, brkTurns := 0 } }

section
variable {s : State} {slot : PollAt}

theorem exec_pollStatus_polled (h : polled slot.addr 0 0 slot.crc s = true) : exec (.pollStatus slot) s = .next (after (statusAnswered s)) :=
  if_pos h

theorem exec_pollIdent_polled (h : polled slot.addr 1 0 slot.crc s = true) : exec (.pollIdent slot) s = .next (after
    (answer (replyHead 0 s + fld 8 2 (if s.img.cadHub then 1 else 0) + fld 10 2 s.cad.depth + fld 16 16 s.part.part) s)) := if_pos h

theorem exec_pollSchedData_polled {idx : Nat} {data : Dword} (hi : idx < 32)
    (h : polled slot.addr (0x20 + idx) data.toNat slot.crc s = true) : exec (.pollSchedData slot idx data) s = .next (after
      (answer (replyHead 0 s) { s with cad := { s.cad with stage := Tbl.put s.cad.stage idx data.toNat } })) :=
  if_pos (by rw [h, decide_eq_true hi, Bool.and_self])

/-- A commit with all 32 chunks: their schedule waits for its epoch, and the buffer is free. -/
def schedCommitted (arg : Nat) (s : State) : State :=
  let l := s.cad.stage.flatMap (fun p => leBytes 4 p.2)
  let t := commitSched l (arg % 2 ^ 32) 1 s
  answer (replyHead 0 s + fld 8 10 (busyTurns l)) { t with cad := { t.cad with stage := [] } }

theorem exec_pollSchedCommit_whole {arg : Nat} (h : polled slot.addr 2 arg slot.crc s = true) (hall : s.cad.stage.length = 32) :
    exec (.pollSchedCommit slot arg) s = .next (after (schedCommitted arg s)) := (if_pos h).trans (if_pos hall)

theorem exec_pollSchedCommit_short {arg : Nat} (h : polled slot.addr 2 arg slot.crc s = true) (hall : s.cad.stage.length ≠ 32) :
    exec (.pollSchedCommit slot arg) s = .next (after (answer (replyHead 2 s) s)) := (if_pos h).trans (if_neg hall)

theorem exec_pollUnknown_polled {code arg : Nat} (h3 : 3 ≤ code) (h20 : code < 0x20) (h : polled slot.addr code arg slot.crc s = true) :
    exec (.pollUnknown slot ⟨code, arg⟩) s = .next (after (answer (replyHead 1 s) s)) := by
  have unlisted : ([0, 1, 2].contains code) = false := by simp; omega
  have below : decide (0x20 ≤ code ∧ code ≤ 0x3F) = false := decide_eq_false (by omega)
  exact if_pos (by rw [h, unlisted, below]; rfl)

/-- A slot for another address, or one whose CRC-8 does not match it, is not this device's to answer. -/
theorem polled_other {addr code arg crc : Nat} (h : addr ≠ s.img.addr ∨ crc ≠ crc8 (pollSlot addr code arg)) : polled addr code arg crc s = false := by
  unfold polled
  rcases h with h | h
  · rw [beq_false_of_ne h, Bool.and_false, Bool.false_and]
  · rw [beq_false_of_ne h, Bool.and_false]

end

/-- A hub sends upward what its ports captured of another's answer (R347). -/
theorem exec_rootPollAnswer_hub {addr code : Nat} {ports : List Nat} {words : List (BitVec 40)} {s : State} (ha : addr < 1024) (hr : isRoot s = false)
    (hhub : s.img.cadHub = true) (hl : listens s = true) (hk : s.cad.lock = true) (hd : inDepth s = true) (h3 : s.cad.depth < 3)
    (ho : addr ≠ s.img.addr) : exec (.rootPollAnswer addr code ports words) s =
      .next (after { s with cad := { s.cad with answers := s.cad.answers ++ [portWord (ports.zip words) s] } }) := by
  show execRootPollAnswer addr code ports words s = _
  simp [execRootPollAnswer, Nat.not_le.2 ha, hr, hhub, hl, hk, hd, h3, ho, done_after]

/-! ## Port training (R348) -/

section
variable {port : Nat} {steps : List Bool} {s : State}

/-- The port whose sweep found a run: the middle of it is its phase. -/
def portTrained (port : Nat) (r : Nat × Nat) (s : State) : State :=
  { s with cad := { s.cad with
    sweepFail := Tbl.del s.cad.sweepFail port, phases := Tbl.put s.cad.phases port (r.1 + (r.2 - 1) / 2),
    downLink := if bit s.cad.downLink port then s.cad.downLink else s.cad.downLink + 2 ^ port } }

/-- The port whose second sweep in turn found none: it is recorded and carries nothing. -/
def portLost (port : Nat) (s : State) : State :=
  raise 0xA050 1 [h1 port] { s with cad := { s.cad with
    sweepFail := Tbl.put s.cad.sweepFail port 2,
    downLink := if bit s.cad.downLink port then s.cad.downLink - 2 ^ port else s.cad.downLink } }

variable (hdown : (s.img.cadEnable && s.img.cadHub && decide (port < 32) && bit s.img.downMask port) = true)
include hdown

theorem exec_portTraining_found (hr : (widestRun (steps.take 16)).2 ≠ 0) :
    exec (.portTrainingSweepEnd port steps) s = .next (after (portTrained port (widestRun (steps.take 16)) s)) := (if_pos hdown).trans (if_neg hr)

theorem exec_portTraining_lost (hr : (widestRun (steps.take 16)).2 = 0) (hfail : Tbl.getD s.cad.sweepFail port 0 = 1) :
    exec (.portTrainingSweepEnd port steps) s = .next (after (portLost port s)) := by
  refine (if_pos hdown).trans ((if_pos hr).trans ?_)
  simp only [hfail, if_true, Nat.reduceAdd, Nat.min_self]
  rfl

end

/-! ## O53 -/

/-- Settles O53: each poll by the state its answer leaves. -/
theorem pollsAndTraining : Obligations.PollsAndTraining := by
  unfold Obligations.PollsAndTraining
  intro s
  refine ⟨fun crc h => ⟨_, exec_pollStatus_polled h, rfl, rfl, rfl, rfl, rfl⟩, fun crc h => ⟨_, exec_pollIdent_polled h, rfl, rfl⟩,
    fun idx data crc hi h => ⟨_, exec_pollSchedData_polled hi h, rfl, Tbl.get?_put_same .., rfl⟩, fun arg crc h => ⟨fun hall => ?_, fun hall => ?_⟩,
    fun code arg crc h3 h20 h => ⟨_, exec_pollUnknown_polled h3 h20 h, rfl, rfl⟩, fun addr crc h => ?_,
    fun addr code ports words ha hr hhub hl hk hd h3 ho => ⟨_, exec_rootPollAnswer_hub ha hr hhub hl hk hd h3 ho, rfl, rfl⟩,
    fun port steps he hhub hp hm => ?_⟩
  · exact ⟨_, exec_pollSchedCommit_whole h hall, raises_raise .., rfl, rfl, rfl⟩
  · exact ⟨_, exec_pollSchedCommit_short h hall, rfl, rfl, rfl⟩
  · exact if_neg (by rw [polled_other h]; exact Bool.false_ne_true)
  · have hdown : (s.img.cadEnable && s.img.cadHub && decide (port < 32) && bit s.img.downMask port) = true := by simp [he, hhub, hp, hm]
    refine ⟨fun hr => ⟨_, exec_portTraining_found hdown hr, Tbl.get?_put_same .., rfl⟩, fun hr hfail => ?_⟩
    exact ⟨_, exec_portTraining_lost hdown hr hfail, raises_raise .., rfl⟩

end Sys2Proof.Machine

/-! O54. The root of a domain: answers, deliveries and what it sends (R345, R347, R358, R361, R362, R366, R367). -/

namespace Sys2Proof.Machine
open Sys2Proof

/-! ## Deliveries -/

theorem beginDelivs_nil {s : State} (h : s.cad.dels = []) (fuel : Nat) : beginDelivs fuel s = s := by
  cases fuel with
  | zero => rfl
  | succ n => simp [beginDelivs, h]

theorem postFull_cad (k : Ctx) (sct sc dw0 dw1 : Nat) (data : List Byte) (s : State) : (postFull k sct sc dw0 dw1 data s).cad = s.cad :=
  keeps_of_outside (x := .cad) (postFull_outside (List.Subset.refl _) ..) (by decide)

/-- A delivery recorded as failed, its command still to end. -/
def delivFailed (d : Deliv) (cause : Nat) (s : State) : State :=
  raise 0xA021 1 [h1 d.target, h1 cause] { s with cad := { s.cad with dels := s.cad.dels.filter (fun x => x.seq != d.seq) } }

theorem failDeliv_ends {d : Deliv} {k : Ctx} {s : State} (cause : Nat) (hk : ctxAt d.seq s = some k) (hw : k.wait = .sched) :
    failDeliv d cause s = postFull k 0 0x06 cause 0 [] (delivFailed d cause s) := by
  have hk' : ctxAt d.seq (delivFailed d cause s) = some k := hk
  show (match ctxAt d.seq (delivFailed d cause s) with | some k => _ | none => _) = _
  rw [hk']
  exact if_pos (by rw [hw]; rfl)

/-- The only delivery, overdue: it fails, and its command ends. -/
theorem exec_scheduleDeliveryTimeout_one {d : Deliv} {k : Ctx} {s : State} (hd : s.cad.dels = [d]) (hb : d.begun = true) (hs : 1000 ≤ d.since)
    (hk : ctxAt d.seq s = some k) (hw : k.wait = .sched) :
    (delivFailed d 2 s).cad.dels = [] ∧ exec .scheduleDeliveryTimeout s = .next (after (postFull k 0 0x06 2 0 [] (delivFailed d 2 s))) := by
  have hempty : (delivFailed d 2 s).cad.dels = [] := by
    show s.cad.dels.filter _ = []
    simp [hd]
  have hnone : (postFull k 0 0x06 2 0 [] (delivFailed d 2 s)).cad.dels = [] := by rw [postFull_cad, hempty]
  refine ⟨hempty, ?_⟩
  show execScheduleDeliveryTimeout s = _
  simp only [execScheduleDeliveryTimeout, hd, List.filter_cons, List.filter_nil, hb, decide_eq_true hs, Bool.and_self, if_true,
    List.isEmpty_cons, Bool.false_eq_true, if_false, List.foldl_cons, List.foldl_nil, failDeliv_ends 2 hk hw, beginDelivs_nil hnone, done_after]

/-! ## Answers (R345, R347) -/

section
variable {addr code : Nat} {ports : List Nat} {words : List (BitVec 40)} {s : State} (hr : isRoot s = true) (ha : addr < 1024)
include hr ha

theorem exec_rootPollAnswer_crcFails (hcrc : upWord ((portWord (ports.zip words) s ||| ownWord addr code s) % 2 ^ 32) ≠
      portWord (ports.zip words) s ||| ownWord addr code s) :
    exec (.rootPollAnswer addr code ports words) s = .next (after (updPart addr (fun p => { p with crcFail := true }) s)) := by
  show execRootPollAnswer addr code ports words s = _
  simp only [execRootPollAnswer, if_neg (Nat.not_le.2 ha), hr, Bool.not_true, Bool.false_eq_true, if_false, if_pos hcrc, done_after]

/-- A root that answers its own STATUS poll clears its break flag. -/
def ownStatusRead (addr code : Nat) (s : State) : State :=
  if code = 0 ∧ addr = s.img.addr then { s with cad := { s.cad with brkFlag := false, brkTurns := 0 } } else s

omit hr ha in
theorem ownStatusRead_kept (addr code : Nat) (s : State) :
    (ownStatusRead addr code s).zn = s.zn ∧ (ownStatusRead addr code s).cad.dels = s.cad.dels := by
  unfold ownStatusRead
  split <;> exact ⟨rfl, rfl⟩

/-- A good answer kept at its address: present, just heard, its version and, of a STATUS poll, its word. -/
def answerKept (addr code r : Nat) (s : State) : State :=
  updPart addr (fun p => { p with since := 0, present := true, ver := bits r 7 4, word := if code = 0 then r else p.word }) s

theorem exec_rootPollAnswer_heard (hcrc : upWord ((portWord (ports.zip words) s ||| ownWord addr code s) % 2 ^ 32) =
      portWord (ports.zip words) s ||| ownWord addr code s)
    (hack : bit (portWord (ports.zip words) s ||| ownWord addr code s) 0 = true) (hd : s.cad.dels = []) :
    exec (.rootPollAnswer addr code ports words) s = .next (after
      (answerKept addr code ((portWord (ports.zip words) s ||| ownWord addr code s) % 2 ^ 32) (ownStatusRead addr code s))) := by
  show execRootPollAnswer addr code ports words s = _
  generalize hw : portWord (ports.zip words) s ||| ownWord addr code s = w at hcrc hack ⊢
  have hbit : bit (w % 2 ^ 32) 0 = true := by
    simp only [bit, beq_iff_eq] at hack ⊢
    omega
  have hnone : (answerKept addr code (w % 2 ^ 32) (ownStatusRead addr code s)).cad.dels = [] := (ownStatusRead_kept addr code s).2.trans hd
  have hx : execRootPollAnswer addr code ports words s = done (beginDelivs 2048
      (match (answerKept addr code (w % 2 ^ 32) (ownStatusRead addr code s)).cad.dels.find? (fun (d : Deliv) => d.begun && d.target == addr) with
        | some d => delivAnswer d code (w % 2 ^ 32) (answerKept addr code (w % 2 ^ 32) (ownStatusRead addr code s))
        | none => answerKept addr code (w % 2 ^ 32) (ownStatusRead addr code s))) := by
    simp only [execRootPollAnswer, if_neg (Nat.not_le.2 ha), hr, Bool.not_true, Bool.false_eq_true, if_false, hw, hcrc, ne_eq, not_true_eq_false, hbit]
    rfl
  rw [hx, hnone]
  exact congrArg done (beginDelivs_nil hnone 2048)

end

theorem bits_low32 (w : Nat) : bits (w % 2 ^ 32) 7 4 = bits w 7 4 := by
  simp only [bits]
  omega

/-! ## What a root sends -/

theorem isRoot_touch (f : Nat) {s : State} (hs : plainWake s) : isRoot (touch f s) = isRoot s := by simp only [isRoot, touch_img f hs]

section
variable {s : State} (hr : isRoot s = true) (hs : plainWake s) (hm : s.m.cur ≠ .halted)
include hr hs hm

theorem exec_cadPfSend_root (ht : s.m.cur ≠ .test) : exec (.cadPfSend 0) s = .next (after (beginFlush 1 (sendPf (touch 0 s)))) := by
  refine txsRow_acts hs hm ?_
  simp only [pfSendNow, isRoot_touch 0 hs, hr, touch_m 0 hs, Bool.true_and, bne_iff_ne, ne_eq, ht, not_false_eq_true, if_true]

theorem exec_cadRootCmdSend_root (v : BitVec 64) : exec (.cadRootCmdSend 0 v) s =
    .next (after (writeRootCmd (v.toNat % 256) (v.toNat / 2 ^ 32) (bit v.toNat 8) (touch 0 s))) :=
  txsRow_acts hs hm (if_pos ((isRoot_touch 0 hs).trans hr))

theorem exec_cadRootEpochWrite_root (v : BitVec 64) : exec (.cadRootEpochWrite 0 v) s = .next (after (writeRootEpoch v.toNat (touch 0 s))) :=
  txsRow_acts hs hm (if_pos ((isRoot_touch 0 hs).trans hr))

end

/-- A command written while none is being sent is sent for four turns, under the next number. -/
def rootCmdBegun (cmd arg : Nat) (s : State) : State :=
  { s with cad := { s.cad with
    rootCmd := cmd, rootArg := arg, sendLeft := 4, sendCmd := cmd, sendArg := arg, sendSeq := (s.cad.sendSeq + 1) % 256 } }

theorem writeRootCmd_free {s : State} (h : s.cad.sendLeft = 0) (cmd arg : Nat) : writeRootCmd cmd arg true s = rootCmdBegun cmd arg s := by
  simp [writeRootCmd, rootCmdBegun, h]

theorem writeRootCmd_busy {s : State} (h : s.cad.sendLeft ≠ 0) (cmd arg : Nat) (send : Bool) :
    writeRootCmd cmd arg send s = { s with cad := { s.cad with rootCmd := cmd, rootArg := arg } } := by simp [writeRootCmd, h]

/-! ## O54 -/

/-- Settles O54: answers kept or failed, one overdue delivery, and the root's own writes. -/
theorem theRoot : Obligations.TheRoot := by
  unfold Obligations.TheRoot
  intro s hr
  refine ⟨fun addr code ports words ha => ⟨fun hcrc => ?_, fun hcrc hack hd => ?_⟩, fun hdr rc ups => if_pos hr, fun addr hp h600 => ?_,
    fun d k hd hb hs hk hw => ?_, fun c buf s1 k ht hp hn => ⟨fun hf => ?_, fun hf hres => ?_, fun hf hres hloc => ?_⟩,
    fun hs hm => ⟨fun hflush htest => ?_, fun v hv => ⟨fun hfree => ?_, fun hbusy => ?_⟩, fun v => ?_⟩⟩
  · exact ⟨_, exec_rootPollAnswer_crcFails hr ha hcrc, by rw [partOf_updPart], by rw [partOf_updPart], rfl⟩
  · refine ⟨_, exec_rootPollAnswer_heard hr ha hcrc hack hd, ?_, ?_, ?_, (ownStatusRead_kept addr code s).1⟩
    · rw [answerKept, partOf_updPart]
    · rw [answerKept, partOf_updPart]
    · rw [answerKept, partOf_updPart]
      exact bits_low32 _
  · refine ⟨_, if_pos (by rw [hr, hp, decide_eq_true h600]; rfl), raises_raise .., ?_, rfl⟩
    have hgone := congrArg Part13.present (partOf_updPart addr (fun p => { p with present := false }) s)
    exact hgone
  · obtain ⟨hempty, hx⟩ := exec_scheduleDeliveryTimeout_one hd hb hs hk hw
    exact ⟨delivFailed d 2 s, _, hx, hempty, raises_raise .., endsWith_self ..⟩
  · refine ends_of_taken ht ?_
    rw [beq_false_of_ne hf, gateAdmin_denied]
    exact endsWith_fin ..
  · obtain rfl := taken_cmd ht
    have hload : schedLoadOn buf (dispatch k) s1 = fin (dispatch k) 0 0x02 s1 := if_pos hres
    refine ends_of_taken ht ?_
    rw [hf, beq_self_eq_true, gateAdmin_plain hp hn]
    exact hload ▸ endsWith_dispatch ..
  · obtain rfl := taken_cmd ht
    have hload : schedLoadOn buf (dispatch k) s1 = ok (dispatch k) (commitSched (padTo 128 buf) k.cmd.cdw11.toNat 0 s1) :=
      (if_neg (not_not.2 hres)).trans (if_pos (Bool.or_eq_true_iff.2 (.inl hloc)))
    have hx : exec (.cadenceScheduleLoad k.cmd buf) s = .next (after (schedLoadOn buf (dispatch k) s1)) := by
      show done (withCmd k.cmd s _) = _
      rw [withCmd_taken ht, hf, beq_self_eq_true, gateAdmin_plain hp hn]
      rfl
    rw [hload] at hx
    exact ⟨_, _, hx, endsWith_dispatch .., raises_raise .., rfl, rfl⟩
  · have hcur : (sendPf (touch 0 s)).m.cur = s.m.cur := congrArg ModeS.cur (touch_m 0 hs)
    obtain ⟨hmode, hoff, -, -, hflushed, hgrow⟩ := beginFlush_after (s := sendPf (touch 0 s)) 1 (by rw [hcur]; exact hflush)
    exact ⟨_, exec_cadPfSend_root hr hs hm htest, hmode, raises_mono hgrow (raises_raise ..), hflushed, hoff⟩
  · have hcad := touch_cad 0 hs
    have hseq := congrArg (fun c : Cad => (c.sendSeq + 1) % 256) hcad
    have hx := exec_cadRootCmdSend_root hr hs hm v
    rw [hv, writeRootCmd_free (by rw [hcad]; exact hfree)] at hx
    exact ⟨_, hx, rfl, rfl, rfl, hseq, touch_zn 0 hs⟩
  · have hcad := touch_cad 0 hs
    refine ⟨_, exec_cadRootCmdSend_root hr hs hm v, ?_⟩
    rw [writeRootCmd_busy (by rw [hcad]; exact hbusy)]
    have hleft := congrArg Cad.sendLeft hcad
    have hcmd := congrArg Cad.sendCmd hcad
    have hseq := congrArg Cad.sendSeq hcad
    exact ⟨hleft, hcmd, hseq⟩
  · exact ⟨_, exec_cadRootEpochWrite_root hr hs hm v, rfl, rfl, rfl, touch_zn 0 hs⟩

end Sys2Proof.Machine

/-! O60. The test access port, and TEST (R414, R442 to R448). -/

namespace Sys2Proof.Machine
open Sys2Proof

/-! ## The balls of a channel's block (R414) -/

section
variable {c d w : Nat} (hd1 : 1 ≤ d) (hd : d ≤ 16) (hw1 : 1 ≤ w) (hw : w ≤ 2)
include hd1 hd hw1 hw

/-- Channels 0 to 15 lie along the first rows. -/
theorem ballNet_top (hc : c / 16 = 0) : ballNet d (19 + 2 * (c % 16) + (w - 1)) = chNet c d w := by
  simp only [ballNet, Bool.and_eq_true, decide_eq_true_eq]
  rw [if_pos (by omega)]
  congr 1 <;> omega

/-- Channels 16 to 31 lie along the last columns. -/
theorem ballNet_right (hc : c / 16 = 1) : ballNet (19 + 2 * (c % 16) + (w - 1)) (69 - d) = chNet c d w := by
  simp only [ballNet, Bool.and_eq_true, decide_eq_true_eq]
  rw [if_neg (by omega), if_pos (by omega)]
  congr 1 <;> omega

/-- Channels 32 to 47 lie along the last rows, from the right. -/
theorem ballNet_bottom (hc : c / 16 = 2) : ballNet (69 - d) (50 - 2 * (c % 16) - (w - 1)) = chNet c d w := by
  simp only [ballNet, Bool.and_eq_true, decide_eq_true_eq]
  rw [if_neg (by omega), if_neg (by omega), if_pos (by omega)]
  congr 1 <;> omega

/-- Channels 48 to 63 lie along the first columns, from below. -/
theorem ballNet_left (hc : c / 16 = 3) : ballNet (50 - 2 * (c % 16) - (w - 1)) d = chNet c d w := by
  simp only [ballNet, Bool.and_eq_true, decide_eq_true_eq]
  rw [if_neg (by omega), if_neg (by omega), if_neg (by omega), if_pos (by omega)]
  congr 1 <;> omega

theorem ballNet_chPlace (hc : c < 64) : ballNet (chPlace c d w).1 (chPlace c d w).2 = chNet c d w := by
  have side : c / 16 = 0 ∨ c / 16 = 1 ∨ c / 16 = 2 ∨ c / 16 = 3 := by omega
  unfold chPlace
  rcases side with h | h | h | h <;> rw [h]
  · exact ballNet_top hd1 hd hw1 hw h
  · exact ballNet_right hd1 hd hw1 hw h
  · exact ballNet_bottom hd1 hd hw1 hw h
  · exact ballNet_left hd1 hd hw1 hw h

end

/-! ## Instructions of the port (R445, R446) -/

theorem fitCells_length (l : List Bool) (s : State) : (fitCells l s).length = 345 + 39 * s.part.channels := by
  simp only [fitCells, List.length_take, List.length_append, List.length_replicate, boundaryCells]
  omega

theorem testOnly_test {s : State} (h : s.m.cur = .test) (f : State → State) : testOnly f s = .next (after (f s)) := by
  rw [testOnly, if_pos h, done_after]

theorem testOnly_elsewhere {s : State} (h : s.m.cur ≠ .test) (f : State → State) : testOnly f s = .next (after (selBypass s)) := by
  rw [testOnly, if_neg h, done_after]

/-- Outside TEST each instruction of TEST only selects bypass. -/
theorem exec_testOnly_bypass {s : State} (h : s.m.cur ≠ .test) (shift : List Bool) :
    ∀ i ∈ [Instr.extest shift, .clamp, .highz, .extestPulse, .extestTrain, .mbist 0x40, .mbistRes, .fptest 0x10000, .fpRes, .spiProg 1, .bypass 0x03],
      exec i s = .next (after (selBypass s)) := by
  have hextest : execExtest shift s = .next (after (selBypass s)) := testOnly_elsewhere h _
  have hmbist : execMbist 0x40 s = .next (after (selBypass s)) := testOnly_elsewhere h _
  have hfptest : execFptest 0x10000 s = .next (after (selBypass s)) := testOnly_elsewhere h _
  have hspi : execSpiProg 1 s = .next (after (selBypass s)) := testOnly_elsewhere h _
  have hbypass : execBypass 0x03 s = .next (after (selBypass s)) := by simp [execBypass, listedIr, testIr, h, done_after]
  have hplain : ∀ code drive tdo, testOnly (selIr code drive tdo) s = .next (after (selBypass s)) := fun _ _ _ => testOnly_elsewhere h _
  have hres : execMbistRes s = .next (after (selBypass s)) := testOnly_elsewhere h _
  have hfp : execFpRes s = .next (after (selBypass s)) := testOnly_elsewhere h _
  intro i hi
  simp only [List.mem_cons, List.not_mem_nil, or_false] at hi
  rcases hi with rfl | rfl | rfl | rfl | rfl | rfl | rfl | rfl | rfl | rfl | rfl
  · exact hextest
  · exact hplain 0x04 1 0
  · exact hplain 0x05 2 0
  · exact hplain 0x06 3 0
  · exact hplain 0x07 4 0
  · exact hmbist
  · exact hres
  · exact hfptest
  · exact hfp
  · exact hspi
  · exact hbypass

theorem exec_bypass_unlisted {ir : Nat} {s : State} (h : ir % 256 ∉ listedIr) : exec (.bypass ir) s = .next (after (selBypass s)) :=
  if_neg (by simp [h])

theorem read32_zn (fn off : Nat) (s : State) : (read32 fn off s).zn = s.zn :=
  keeps_of_outside (x := .zn) (read32_outside (List.Subset.refl _) fn off s) (by decide)

/-! ## Entry to TEST (R442, R443) -/

@[simp] theorem setMode_drain (md : Mode) (s : State) : (setMode md s).m.drain = s.m.drain := by
  by_cases h : s.m.cur = md
  · simp [setMode, h]
  · obtain ⟨w, hw⟩ := setMode_m h
    rw [hw]

theorem dropComb_ops {s : State} (h : s.fl.ops = []) : dropComb s = s := by simp [dropComb, h]

theorem dropPasses_ops {s : State} (gone : Pass → Bool) (h : s.fl.ops = []) : (dropPasses gone s).fl.ops = [] := by
  unfold dropPasses
  dsimp only
  split
  · split
    · rw [dropComb_ops h]; exact h
    · exact h
  · exact h

/-- TEST holds the host side in reset, leaves the flash alone and keeps the hold-up switches open; the drain that led to it is over. -/
theorem enterTest_empties (cause : Nat) (s : State) : (enterTest cause s).q.fns = [] ∧ (enterTest cause s).q.ctxs = [] ∧
    (enterTest cause s).fl.ops = [] ∧ (enterTest cause s).pins.huChgEn = false ∧ (enterTest cause s).pins.huLoad = false ∧
      (enterTest cause s).m.drain = .none := by
  unfold enterTest
  extract_lets s0 s1 _ _ _ _ _ _ _ _ s2
  have hpass : ∀ {x : Comp}, x ∉ [Comp.ecc, .fl] → keeps x s2 (dropPasses (fun _ => true) s2) := fun hx =>
    keeps_of_outside (dropPasses_outside (List.Subset.refl _) _ s2) hx
  have hmode : ∀ {x : Comp}, x ∉ [Comp.m, .q, .stb, .ci] → keeps x _ (setMode .test (dropPasses (fun _ => true) s2)) := fun hx =>
    setMode_keeps hx .test _
  have hq : (setMode .test (dropPasses (fun _ => true) s2)).q = s2.q :=
    (setMode_quiet (by decide) (by decide) _).1.trans (hpass (x := .q) (by decide))
  have hpins : (setMode .test (dropPasses (fun _ => true) s2)).pins = s2.pins := (hmode (x := .pins) (by decide)).trans (hpass (x := .pins) (by decide))
  have hops : (setMode .test (dropPasses (fun _ => true) s2)).fl.ops = [] := by
    rw [show (setMode .test (dropPasses (fun _ => true) s2)).fl = _ from hmode (x := .fl) (by decide)]
    exact dropPasses_ops _ rfl
  have hm : (dropPasses (fun _ => true) s2).m = s2.m := hpass (x := .m) (by decide)
  rw [hq, hpins, hops, setMode_drain, hm]
  exact ⟨rfl, rfl, rfl, rfl, rfl, rfl⟩

theorem enterTest_jn (cause : Nat) (s : State) : (enterTest cause s).jn = s.jn :=
  keeps_of_outside (x := .jn) (enterTest_outside (List.Subset.refl _) cause s) (by decide)

theorem Mode.of_isBase (md : Mode) : md.isBase = true →
    md ≠ .test ∧ md ≠ .emergencyFlush ∧ md ≠ .halted ∧ md.isStart = false ∧ md ≠ .fwActivate := by cases md <;> decide

theorem Mode.of_isStart (md : Mode) : md.isStart = true → md ≠ .test ∧ md ≠ .emergencyFlush ∧ md ≠ .halted := by cases md <;> decide

section
variable {s : State}

/-- TEST_ENTER as the port takes it, the balls no longer driven by the port. -/
def testAsked (s : State) : State := selIr 0x20 0 0 s

/-- TEST_ENTER refused: recorded, and read from TSTAT. -/
def testRefused (s : State) : State :=
  raise 0xC002 1 [h1 s.m.cur.code, h1 s.m.thm] { testAsked s with ts := { (testAsked s).ts with entryRef := true } }

theorem exec_testEnter_keyless {key : Nat} (h : key % 65536 ≠ 0x7E57) : exec (.testEnter key) s = .next (after (testAsked s)) := if_pos (.inl h)

theorem exec_testEnter_refused (h : s.m.cur = .halted ∨ s.m.cur = .emergencyFlush) : exec (.testEnter 0x7E57) s = .next (after (testRefused s)) := by
  show execTestEnter 0x7E57 s = _
  rcases h with h | h <;> simp [execTestEnter, testRefused, testAsked, h, done_after]

theorem exec_testEnter_start (h : s.m.cur.isStart = true) (ht : s.m.thm ≠ 2) : exec (.testEnter 0x7E57) s = .next (after (enterTest 1 (testAsked s))) := by
  obtain ⟨h1, h2, h3⟩ := Mode.of_isStart _ h
  show execTestEnter 0x7E57 s = _
  simp [execTestEnter, testAsked, h, ht, h1, h2, h3, done_after]

theorem exec_testEnter_base (h : s.m.cur.isBase = true) (ht : s.m.thm ≠ 2) (hd : s.m.drain = .none) :
    exec (.testEnter 0x7E57) s = .next (after (beginTestDrain (testAsked s))) := by
  obtain ⟨h1, h2, h3, h4, h5⟩ := Mode.of_isBase _ h
  show execTestEnter 0x7E57 s = _
  simp [execTestEnter, testAsked, ht, h1, h2, h3, h4, h5, hd, done_after]

theorem exec_testEnter_activating (h : s.m.cur = .fwActivate) (ht : s.m.thm ≠ 2) : exec (.testEnter 0x7E57) s =
    .next (after { testAsked s with m := { s.m with testPend := true } }) := by
  show execTestEnter 0x7E57 s = _
  simp [execTestEnter, testAsked, h, ht, Mode.isStart, done_after]

end

/-! ## Instructions in TEST (R445) -/

/-- The balls are driven from what is shifted in. -/
def extestDriven (shift : List Bool) (s : State) : State :=
  { selIr 0x03 1 0 s with ts := { (selIr 0x03 1 0 s).ts with boundary := fitCells shift s } }

theorem exec_extest_test {s : State} (h : s.m.cur = .test) (shift : List Bool) : exec (.extest shift) s = .next (after (extestDriven shift s)) := by
  show execExtest shift s = _
  exact testOnly_test h _

theorem exec_mbistRes_test {s : State} (h : s.m.cur = .test) : exec .mbistRes s = .next (after (selIr 0x31 0 (mbistRes s) s)) := by
  show execMbistRes s = _
  exact testOnly_test h _

theorem exec_fpRes_test {s : State} (h : s.m.cur = .test) : exec .fpRes s = .next (after (selIr 0x39 0 (fpResOf s) s)) := by
  show execFpRes s = _
  exact testOnly_test h _

/-! ## Tests of memory and flash (R447, R448), the image slots (R445) -/

section
variable {s : State} (hm : s.m.cur = .test)
include hm

/-- A memory test begun. -/
def bistBegun (v : Nat) (s : State) : State :=
  let t := selIr 0x30 0 s.ts.mbReg { s with ts := { s.ts with mbReg := v % 2 ^ 32, mbStart := true } }
  { t with ts := { t.ts with mbBusy := true, mbDone := false, mbFail := false, mbStop := false } }

theorem exec_mbist_begins {v : Nat} (hv : bit v 6 = true) (hs : s.ts.mbStart = false) (hb : s.ts.mbBusy = false) (halg : bits v 8 7 ≠ 3)
    (hdie : bits v 2 0 ≤ s.part.sheds ∨ bits v 2 0 = 7) : exec (.mbist v) s = .next (after (bistBegun v s)) := by
  have present : ¬(bits v 2 0 ≠ 7 ∧ s.part.sheds < bits v 2 0) := by omega
  show execMbist v s = _
  rw [execMbist, testOnly_test hm]
  simp only [hv, hs, hb, beq_false_of_ne halg, Bool.not_true, Bool.or_self, Bool.false_eq_true, if_false]
  exact congrArg (fun t => Host.Outcome.next (after t)) (if_neg present)

/-- A flash test begun. -/
def fptestBegun (v : Nat) (s : State) : State :=
  let t := selIr 0x38 0 s.ts.fpReg { s with ts := { s.ts with fpReg := v % 2 ^ 64, fpStart := true } }
  { t with ts := { t.ts with fpBusy := true, fpDone := false, fpFail := false, fpStop := false } }

theorem exec_fptest_begins {v : Nat} (hv : bit v 16 = true) (hs : s.ts.fpStart = false) (hb : s.ts.fpBusy = false) (hmd : bits v 15 14 = 0)
    (hch : bit v 6 = true ∨ bits v 5 0 < s.part.channels) : exec (.fptest v) s = .next (after (fptestBegun v s)) := by
  have present : (!bit v 6 && decide (s.part.channels ≤ bits v 5 0)) = false := by
    rcases hch with h | h
    · rw [h]; rfl
    · rw [decide_eq_false (Nat.not_le.2 h), Bool.and_false]
  have low : decide (2 ≤ 0) = false := rfl
  show execFptest v s = _
  rw [execFptest, testOnly_test hm]
  simp only [hv, hs, hb, hmd, low, Bool.not_true, Bool.or_self, Bool.false_eq_true, if_false, if_true]
  exact congrArg (fun t => Host.Outcome.next (after t)) (if_neg (by rw [← Bool.not_eq_true] at present; exact present))

/-- Slot A erased. -/
def spiErased (s : State) : State :=
  raise 0xC030 1 [h1 (b2n false)] { selIr 0x40 0 0 s with st := { s.st with spiA := [] } }

theorem exec_spiProg_erases : exec (.spiProg 1) s = .next (after (spiErased s)) := by
  show execSpiProg 1 s = _
  rw [execSpiProg, testOnly_test hm]
  rfl

/-- A word appended to slot A. -/
def spiAppended (w : Nat) (s : State) : State := { selIr 0x40 0 0 s with st := { s.st with spiA := s.st.spiA ++ leBytes 4 w } }

theorem exec_spiProg_appends {w : Nat} (hw : w < 2 ^ 32) : exec (.spiProg (4 + w * 2 ^ 32)) s = .next (after (spiAppended w s)) := by
  have hbits : bit (4 + w * 2 ^ 32) 0 = false ∧ bit (4 + w * 2 ^ 32) 1 = false ∧ bit (4 + w * 2 ^ 32) 2 = true ∧ bits (4 + w * 2 ^ 32) 63 32 = w := by
    simp only [bit, bits, beq_eq_false_iff_ne, beq_iff_eq]
    omega
  obtain ⟨h0, h1, h2, hword⟩ := hbits
  show execSpiProg _ s = _
  rw [execSpiProg, testOnly_test hm]
  simp only [h0, h1, h2, hword, Bool.false_eq_true, if_false, if_true]
  rfl

end

/-- A memory test's end: its results, and its records. -/
theorem mbEnds_after (run rep fails first : Nat) (s : State) : (mbEnds run rep fails first s).ts.mbBusy = false ∧
    (mbEnds run rep fails first s).ts.mbDone = true ∧ (mbEnds run rep fails first s).ts.mbFail = decide (fails ≠ 0) ∧
      (mbEnds run rep fails first s).ts.mbRun = min run 65535 ∧ raises 0xC010 (mbEnds run rep fails first s) ∧
        (fails ≠ 0 → raises 0xC011 (mbEnds run rep fails first s)) := by
  unfold mbEnds
  dsimp only
  split
  · next h => exact ⟨rfl, rfl, rfl, rfl, raises_raise .., fun hf => absurd h hf⟩
  · exact ⟨rfl, rfl, rfl, rfl, raises_mono (grows_raise ..) (raises_raise ..), fun _ => raises_raise ..⟩

/-- A run that was told to stop reads FAIL. -/
def bistEnded (res : BistRes) (s : State) : State :=
  let t := mbEnds res.run res.repaired res.fails res.first (mbClears s.ts.mbReg s)
  { t with ts := { t.ts with mbFail := t.ts.mbFail || s.ts.mbStop } }

theorem exec_mbistEnd_busy {s : State} (h : s.ts.mbBusy = true) (res : BistRes) : exec (.mbistEnd res) s = .next (after (bistEnded res s)) := if_pos h

theorem exec_fptestEnd_busy {s : State} (h : s.ts.fpBusy = true) (res : FpRes) (bad : List (Nat × Nat × Nat)) : ∃ tack fail t,
    exec (.fptestEnd res bad) s = .next (after (fpEnds res.blocks (fpFails res.failed bad s) res.worst tack fail t)) := ⟨_, _, _, if_pos h⟩

/-! ## O60 -/

/-- Settles O60: the port's instructions one by one, entry by mode, and the ends of the tests. -/
theorem testPort : Obligations.TestPort := by
  unfold Obligations.TestPort
  refine ⟨fun c d w hc hd1 hd hw1 hw => ballNet_chPlace hd1 hd hw1 hw hc,
    fun inp shift s => ⟨⟨_, rfl, rfl, rfl, rfl, rfl⟩, ⟨_, rfl, rfl, rfl, rfl⟩, ⟨_, rfl, rfl, rfl, fitCells_length .., rfl, rfl⟩, ⟨_, rfl, rfl, rfl, rfl⟩,
      fun off => ⟨_, rfl, rfl, rfl, rfl, read32_zn ..⟩, fun hm => ?_, fun hm i hi => ⟨_, exec_testOnly_bypass hm shift i hi, rfl, rfl, rfl, rfl⟩,
      fun ir hir => ⟨_, exec_bypass_unlisted hir, rfl, rfl, rfl⟩⟩,
    fun s => ⟨fun key hkey => ⟨_, exec_testEnter_keyless hkey, rfl, rfl, rfl⟩, fun h => ⟨_, exec_testEnter_refused h, rfl, raises_raise .., rfl, rfl⟩,
      fun h ht => ?_, fun h ht hd hp => ?_, fun h ht => ⟨_, exec_testEnter_activating h ht, rfl, rfl⟩, fun hd hu ht hm => ?_, fun hm => ?_,
      fun res hb => ?_, fun res bad hb => ?_⟩⟩
  · have hplain : ∀ code drive tdo, testOnly (selIr code drive tdo) s = .next (after (selIr code drive tdo s)) := fun _ _ _ => testOnly_test hm _
    exact ⟨⟨_, exec_extest_test hm shift, rfl, rfl, rfl, rfl⟩, ⟨_, hplain 0x04 1 0, rfl, rfl, rfl, rfl⟩, ⟨_, hplain 0x05 2 0, rfl, rfl, rfl⟩,
      ⟨_, hplain 0x06 3 0, rfl, rfl, rfl⟩, ⟨_, hplain 0x07 4 0, rfl, rfl, rfl⟩, ⟨_, exec_mbistRes_test hm, rfl, rfl, rfl⟩,
      ⟨_, exec_fpRes_test hm, rfl, rfl, rfl⟩⟩
  · obtain ⟨hcur, hev⟩ := enterTest_after 1 (testAsked s)
    obtain ⟨hfns, hctxs, hops, hchg, hload, -⟩ := enterTest_empties 1 (testAsked s)
    exact ⟨_, exec_testEnter_start h ht, hcur, hev, hfns, hctxs, hops, hchg, hload⟩
  · refine ⟨_, exec_testEnter_base h ht hd, ?_⟩
    rw [beginTestDrain, proofInterrupt_quiet (s := testAsked s) hp]
    exact ⟨rfl, rfl, rfl, rfl⟩
  · obtain ⟨hcur, hev⟩ := enterTest_after 1 (cleanClose s)
    obtain ⟨-, -, -, -, -, hdrain⟩ := enterTest_empties 1 (cleanClose s)
    obtain ⟨-, -, hclean⟩ := cleanClose_after s
    exact ⟨_, if_pos ⟨hd, hu, ht⟩, hcur, hdrain, hev, (congrArg Jrn.closing (enterTest_jn 1 _)).trans hclean⟩
  · exact ⟨fun v hv hs hb halg hdie => ⟨_, exec_mbist_begins hm hv hs hb halg hdie, rfl, rfl, rfl, rfl⟩,
      fun v hv hs hb hmd hch => ⟨_, exec_fptest_begins hm hv hs hb hmd hch, rfl, rfl, rfl, rfl⟩,
      ⟨_, exec_spiProg_erases hm, raises_raise .., rfl, rfl⟩, fun w hw => ⟨_, exec_spiProg_appends hm hw, rfl, rfl⟩⟩
  · obtain ⟨hbusy, hdone, hfail, hrun, hev, hfailed⟩ := mbEnds_after res.run res.repaired res.fails res.first (mbClears s.ts.mbReg s)
    exact ⟨_, exec_mbistEnd_busy hb res, hbusy, hdone, hev, congrArg (· || s.ts.mbStop) hfail, hfailed, hrun⟩
  · obtain ⟨tack, fail, t, hx⟩ := exec_fptestEnd_busy hb res bad
    exact ⟨_, hx, rfl, rfl, raises_raise .., rfl⟩

end Sys2Proof.Machine

/-! O48. Key slots, check-value units and Seal Zone (R293, R294, R303 to R309). -/

namespace Sys2Proof.Machine
open Sys2Proof

/-! ## What an access leaves -/

section
variable (f : Nat) {s : State} (hs : plainWake s)
include hs

theorem touch_stl : (touch f s).stl = s.stl := touch_keeps f hs (x := .stl) (by decide)
theorem touch_ci : (touch f s).ci = s.ci := touch_keeps f hs (x := .ci) (by decide)
theorem touch_pins : (touch f s).pins = s.pins := touch_keeps f hs (x := .pins) (by decide)

theorem fnPresent_touch (g : Nat) : fnPresent g (touch f s) = fnPresent g s := by simp only [fnPresent, touch_stl f hs, touch_pins f hs, touch_img f hs]
theorem resOf_touch (g : Nat) : resOf g (touch f s) = resOf g s := by simp only [resOf, touch_stl f hs]
theorem keySlots_touch (g : Nat) : keySlots g (touch f s) = keySlots g s := by simp only [keySlots, resOf_touch f hs]
theorem keyAt_touch (g slot : Nat) : keyAt? g slot (touch f s) = keyAt? g slot s := by simp only [keyAt?, touch_ci f hs]
theorem cvuAt_touch (x : Nat) : cvuAt x (touch f s) = cvuAt x s := by simp only [cvuAt, touch_ci f hs]
theorem cvuSrc_touch (x : Nat) : cvuSrc x (touch f s) = cvuSrc x s := by simp only [cvuSrc, cvuAt_touch f hs]
theorem cvuOf_touch (g unit : Nat) : cvuOf? g unit (touch f s) = cvuOf? g unit s := by
  simp only [cvuOf?, fnPresent_touch f hs, resOf_touch f hs]

end

/-! ## Key slots (R293, R294) -/

/-- The bytes a slot has collected with a write's. -/
def keyGathered (fn slot o : Nat) (bytes : List Byte) (s : State) : Tbl Byte :=
  (bytes.zipIdx).foldl (fun t b => Tbl.put t (o + b.2) b.1) (Tbl.getD s.ci.kbuf (fn * 8 + slot) [])

/-- The key that a slot's collected bytes are. -/
def keyHeld (fn slot o : Nat) (bytes : List Byte) (s : State) : List Byte :=
  (List.range 32).map (fun j => Tbl.getD (keyGathered fn slot o bytes s) j 0)

/-- A write that leaves the slot's last bytes to come: its bytes are kept. -/
def keyKept (fn slot o : Nat) (bytes : List Byte) (s : State) : State :=
  { s with ci := { s.ci with kbuf := Tbl.put s.ci.kbuf (fn * 8 + slot) (keyGathered fn slot o bytes s) } }

/-- A slot whose bytes are all there, its buffer free. -/
def keyWhole (fn slot : Nat) (s : State) : State := { s with ci := { s.ci with kbuf := Tbl.del s.ci.kbuf (fn * 8 + slot) } }

section
variable {fn slot o : Nat} {bytes : List Byte} {s : State} (hf : fnPresent fn s = true) (hslot : slot < keySlots fn s)
  (ho : o + bytes.length ≤ 32) (hl : bytes.length = 4 ∨ bytes.length = 8) (ha : o % bytes.length = 0)
include hf hslot ho hl ha

theorem keyWrite_at : keyWrite fn (32 * slot + o) bytes s =
    if o + bytes.length = 32 then commitKey fn slot (keyHeld fn slot o bytes s) (keyWhole fn slot s) else keyKept fn slot o bytes s := by
  have hdiv : (32 * slot + o) / 32 = slot := by omega
  have hmod : (32 * slot + o) % 32 = o := by omega
  have aligned : (32 * slot + o) % bytes.length = 0 := by
    rcases hl with h | h <;> rw [h] at ha ⊢ <;> omega
  have taken : (!fnPresent fn s || decide (keySlots fn s ≤ slot) || !(bytes.length == 4 || bytes.length == 8) ||
      (32 * slot + o) % bytes.length != 0) = false := by
    rw [hf, aligned, decide_eq_false (Nat.not_le.2 hslot)]
    rcases hl with h | h <;> rw [h] <;> rfl
  simp only [keyWrite, hdiv, hmod, taken, Bool.false_eq_true, if_false]
  rfl

end

section
variable {fn slot : Nat} {key : List Byte} {s : State}

theorem commitKey_loads (h : key ≠ zeroBytes 32) : keyAt? fn slot (commitKey fn slot key s) = some key ∧
    raises 0x8001 (commitKey fn slot key s) ∧ (commitKey fn slot key s).zn = s.zn := by
  unfold commitKey
  rw [if_neg h]
  exact ⟨Tbl.get?_put_same .., raises_raise .., rfl⟩

theorem commitKey_clears (h : key = zeroBytes 32) : keyAt? fn slot (commitKey fn slot key s) = none ∧ (commitKey fn slot key s).zn = s.zn ∧
    ((keyAt? fn slot s).isSome = true → raises 0x8002 (commitKey fn slot key s)) := by
  unfold commitKey
  rw [if_pos h]
  dsimp only
  split
  · exact ⟨Tbl.get?_del_same .., rfl, fun _ => raises_raise ..⟩
  · next hno => exact ⟨Tbl.get?_del_same .., rfl, fun hk => absurd hk hno⟩

end

theorem exec_keySlotWrite_present {fn off : Nat} {bytes : List Byte} {s : State} (hs : plainWake s) (hf : fnPresent fn s = true) (hm : s.m.cur ≠ .halted) :
    exec (.keySlotWrite fn off bytes) s = .next (after (keyWrite fn off bytes (touch fn s))) := by
  show execKeySlotWrite fn off bytes s = _
  simp [execKeySlotWrite, hf, touch_m fn hs, hm, done_after]

/-! ## Check-value units (R307 to R309) -/

theorem cvuRow_unit {fn unit x : Nat} {s : State} (hs : plainWake s) (hx : cvuOf? fn unit s = some x) (hm : s.m.cur ≠ .halted)
    (f : Nat → State → State) : cvuRow fn unit f s = .next (after (f x (touch fn s))) := by
  have hx' : cvuOf? fn unit (touch fn s) = some x := (cvuOf_touch fn hs fn unit).trans hx
  by_cases h0 : fn = 0
  · subst h0
    rw [cvuRow, if_neg (by decide), txsRow_owner hs hm, hx']
  · have hstall : isStall fn = true ∧ fnPresent fn s = true := by
      rw [cvuOf?, if_neg h0] at hx
      split at hx
      · next h =>
        simp only [Bool.and_eq_true] at h
        exact h.1
      · exact absurd hx (by simp)
    simp only [cvuRow, hstall.1, hstall.2, if_true, hx', done_after]

/-- INIT clears a unit's value and counts. -/
theorem cvuAt_cvuCtl {v : Nat} (h : bit v 5 = true) (x : Nat) (s : State) : cvuAt x (cvuCtl x v s) =
    { cvuAt x s with src := bits v 2 0, poly := bits v 4 3, one := bit v 6, sqid := bits v 31 16, val := 0, cnt := 0, skip := 0,
                     done := false, took := false } := by
  simp only [cvuCtl, h, Bool.true_or, if_true, cvuAt_updCvu]

theorem cvuFeed_taken {x : Nat} {bytes : List Byte} {s : State} (hsrc : cvuSrc x s = 5) (hl : bytes.length = 4 ∨ bytes.length = 8) :
    cvuFeed x bytes s = updCvu x (fun c => { c with val := crcOn c.poly c.val bytes, cnt := satAdd 64 c.cnt bytes.length }) s := if_pos ⟨hsrc, hl⟩

theorem cvuFeed_ignored {x : Nat} {bytes : List Byte} {s : State} (hsrc : cvuSrc x s ≠ 5) : cvuFeed x bytes s = s := if_neg fun h => hsrc h.1

/-! ## Seal Zone (R305) -/

/-- The command names one zone of a zoned namespace attached to it, with permission and no reserved field. -/
structure SealNames (k : Ctx) (n : Ns) (z : Nat) (q : Zone) (s : State) : Prop where
  permitted : k.snap.write = true ∧ k.snap.sealP = true
  attached : nsFor? k.cmd.fn k.cmd.nsid s = some n
  zoned : n.conv = false
  reserved : k.cmd.cdw12.toNat + k.cmd.cdw13.toNat + k.cmd.cdw14.toNat + k.cmd.cdw15.toNat = 0
  first : slbaOf k.cmd < n.nsze ∧ slbaOf k.cmd % 2 ^ 20 = 0
  at_ : zoneOfLba n (slbaOf k.cmd) = some (z, 0) ∧ zoneAt? z s = some q

/-- A Full zone sealed, at a time that its binding keeps unless it has one. -/
def zoneSealed (z now : Nat) (s : State) : State :=
  updZone z (fun q => { q with sealed := true })
    { s with ci := { s.ci with bind := Tbl.upd s.ci.bind z (fun b => { b with stamp := some (b.stamp.getD now) }) } }

/-- The command waits for the sealed zone's data. -/
def sealWaits (k : Ctx) (z : Nat) (q : Zone) (s : State) : Ctx :=
  { k with wait := .sealZ z, dispatched := true, data := sealRecord z { q with sealed := true } s,
           dw0 := sealUnitsOf q + 2 ^ 32 * b2n (!q.sealed), sealF := if q.st.active then 6 else 1 }

/-- A zone that passed the checks is sealed, and its command waits. -/
def sealFrom (k : Ctx) (z now : Nat) (q : Zone) (s : State) : State :=
  match zoneAt? z (zoneSealed z now s) with
  | none => zoneSealed z now s
  | some r => putCtx { k with wait := .sealZ z, dispatched := true, data := sealRecord z r (zoneSealed z now s),
                              dw0 := sealUnitsOf r + 2 ^ 32 * b2n (!q.sealed), sealF := if q.st.active then 6 else 1 } (zoneSealed z now s)

theorem zoneAt_zoneSealed {z now : Nat} {q : Zone} {s : State} (h : zoneAt? z s = some q) : zoneAt? z (zoneSealed z now s) = some { q with sealed := true } := by
  rw [zoneSealed, zoneAt_updZone]
  exact congrArg (Option.map _) h

theorem sealFrom_at {k : Ctx} {z now : Nat} {q : Zone} {s : State} (h : zoneAt? z s = some q) :
    sealFrom k z now q s = putCtx (sealWaits k z q (zoneSealed z now s)) (zoneSealed z now s) := by
  rw [sealFrom, zoneAt_zoneSealed h]
  rfl

section
variable {k : Ctx} {n : Ns} {z : Nat} {q : Zone} {s : State} (h : SealNames k n z q s)
include h

theorem sealOn_at : sealOn k s =
    if !q.sealF then fin k 0 0x02 s
    else if q.st = .empty ∨ q.st = .offline then fin k 1 0xBF s
    else if sealDenied z q s then refuseSeal k z s
    else if s.m.thm = 2 ∧ !q.sealed then fin k 7 0x82 s
    else sealFrom k z (stampNow s) q (if q.st.active then sealAfter z (makeFull z s) else s) := by
  obtain ⟨⟨hw, hp⟩, hns, hconv, hres, ⟨hlt, hfirst⟩, hz, hq⟩ := h
  have hwhere : ¬(n.nsze ≤ slbaOf k.cmd ∨ slbaOf k.cmd % 2 ^ 20 ≠ 0) := by omega
  unfold sealOn
  simp only [hw, hp, Bool.not_true, Bool.or_self, Bool.false_eq_true, if_false, withNs_attached hns, hconv, if_neg (not_not.2 hres),
    if_neg hwhere, hz, hq]
  rfl

theorem sealOn_full (hf : q.sealF = true) (hst : q.st = .full) (hk : sealDenied z q s = false) (ht : s.m.thm ≠ 2) :
    sealOn k s = putCtx (sealWaits k z q (zoneSealed z (stampNow s) s)) (zoneSealed z (stampNow s) s) := by
  have hopen : ¬(q.st = .empty ∨ q.st = .offline) := by rw [hst]; decide
  have hidle : q.st.active = false := by rw [hst]; rfl
  have hsealF : (!q.sealF) ≠ true := by rw [hf]; decide
  have hkey : sealDenied z q s ≠ true := by rw [hk]; decide
  refine (sealOn_at h).trans ((if_neg hsealF).trans ((if_neg hopen).trans ((if_neg hkey).trans ((if_neg fun hc => ht hc.1).trans ?_))))
  rw [hidle, if_neg Bool.false_ne_true]
  exact sealFrom_at h.at_.2

end

/-- The context a command waits on stands where its own stood. -/
theorem putCtx_mem {k w : Ctx} {s : State} (h : k ∈ s.q.ctxs) (hw : w.seq = k.seq) : w ∈ (putCtx w s).q.ctxs.filter (fun x => x.seq == k.seq) := by
  refine List.mem_filter.2 ⟨List.mem_map.2 ⟨k, h, ?_⟩, by simp [hw]⟩
  simp [hw]

/-! ## O48 -/

/-- Settles O48: a key write by what it covers, a unit's registers by the unit they reach, Seal Zone by its zone's state. -/
theorem keysAndCheckValues : Obligations.KeysAndCheckValues := by
  unfold Obligations.KeysAndCheckValues
  intro s hs
  refine ⟨fun fn slot o bytes hf hm hslot ho hl ha => ?_, fun fn unit x hx hm => ⟨fun v hv => ?_, fun bytes hsrc hl => ?_, fun bytes hsrc => ?_, fun v => ?_⟩,
    fun c s1 k n z q ht hp hn hw hseal hns hconv hres hlt hfirst hz hq => ?_⟩
  · have hrun := exec_keySlotWrite_present (off := 32 * slot + o) (bytes := bytes) hs hf hm
    have hat := keyWrite_at (s := touch fn s) ((fnPresent_touch fn hs fn).trans hf) ((keySlots_touch fn hs fn).symm ▸ hslot) ho hl ha
    have hci : (touch fn s).ci = s.ci := touch_ci fn hs
    have hzn : (touch fn s).zn = s.zn := touch_zn fn hs
    have hkey : keyHeld fn slot o bytes (touch fn s) = keyHeld fn slot o bytes s := by simp only [keyHeld, keyGathered, hci]
    refine ⟨fun hpart => ?_, fun hall hne => ?_, fun hall hz => ?_⟩
    · rw [if_neg hpart.ne] at hat
      have hkeys := congrArg Ciph.keys hci
      rw [hat] at hrun
      exact ⟨_, hrun, hkeys, hzn⟩
    · rw [if_pos hall, hkey] at hat
      obtain ⟨hload, hev, hkept⟩ := commitKey_loads (fn := fn) (slot := slot) (s := keyWhole fn slot (touch fn s)) hne
      exact ⟨_, hat ▸ hrun, hload, hev, hkept.trans hzn⟩
    · rw [if_pos hall, hkey] at hat
      obtain ⟨hload, hkept, hev⟩ := commitKey_clears (fn := fn) (slot := slot) (s := keyWhole fn slot (touch fn s)) hz
      exact ⟨_, hat ▸ hrun, hload, hkept.trans hzn, fun hk => hev ((keyAt_touch fn hs fn slot).symm ▸ hk)⟩
  · have hc := cvuAt_cvuCtl hv x (touch fn s)
    refine ⟨_, cvuRow_unit hs hx hm _, ?_⟩
    rw [hc]
    exact ⟨rfl, rfl, rfl, rfl, rfl, rfl, rfl, rfl, touch_zn fn hs⟩
  · have hfeed := cvuFeed_taken ((cvuSrc_touch fn hs x).trans hsrc) hl
    refine ⟨_, cvuRow_unit hs hx hm _, ?_⟩
    rw [hfeed, cvuAt_updCvu, cvuAt_touch fn hs]
    exact ⟨rfl, rfl, touch_zn fn hs⟩
  · have hfeed := cvuFeed_ignored (bytes := bytes) (fun h => hsrc ((cvuSrc_touch fn hs x).symm.trans h))
    exact ⟨_, cvuRow_unit hs hx hm _, by rw [hfeed, cvuAt_touch fn hs]⟩
  · exact ⟨_, cvuRow_unit hs hx hm _, by rw [cvuVal, cvuAt_updCvu, cvuAt_touch fn hs]⟩
  · obtain rfl := taken_cmd ht
    have hnames : SealNames k n z q s1 := ⟨⟨hw, hseal⟩, hns, hconv, hres, ⟨hlt, hfirst⟩, hz, hq⟩
    have hat := sealOn_at hnames
    refine ⟨fun hf => ?_, fun hf hst => ?_, fun hf hst hk hthm => ?_⟩
    · rw [hf] at hat
      exact io_ends ht hp hn hat
    · rw [hf] at hat
      exact io_ends ht hp hn (hat.trans (if_pos hst))
    · have hfull := sealOn_full hnames hf hst hk hthm
      have hzone : zoneAt? z (putCtx (sealWaits k z q (zoneSealed z (stampNow s1) s1)) (zoneSealed z (stampNow s1) s1)) = some { q with sealed := true } := zoneAt_zoneSealed hq
      have hin : k ∈ s1.q.ctxs := taken_mem ht
      have hmem : k ∈ (zoneSealed z (stampNow s1) s1).q.ctxs := hin
      have hctx := putCtx_mem (w := sealWaits k z q (zoneSealed z (stampNow s1) s1)) hmem rfl
      refine ⟨_, (doneIo_gateIo ht hp hn sealOn).trans (by rw [hfull]), ?_, ?_, _, hctx, rfl⟩
      · rw [hzone]; rfl
      · rw [hzone]; exact congrArg some hst

end Sys2Proof.Machine

/-! O49. Stalls appear and go; their resources (R313, R314, R316, R317, R320, R321). -/

namespace Sys2Proof.Machine
open Sys2Proof

/-! ## A stall's reset (R321) -/

/-- The end of a Freeze leaves every function's submission queues and registers, and adds to the events raised. -/
theorem freezeEnd_leaves (f : Nat) (k : Ctx) (s : State) : sqsOf (freezeEnd f k s) = sqsOf s ∧
    hostRegs (freezeEnd f k s).q.fns = hostRegs s.q.fns ∧ grows s (freezeEnd f k s) :=
  ⟨sqsOf_postFull .., postFull_hostRegs .., grows_trans (grows_raise ..) (grows_of_eq (congrArg Stb.raised (postFull_stb ..)))⟩

theorem freezeEnds_leave (f : Nat) : ∀ (l : List Ctx) (s : State), sqsOf (l.foldl (fun s k => freezeEnd f k s) s) = sqsOf s ∧
    hostRegs (l.foldl (fun s k => freezeEnd f k s) s).q.fns = hostRegs s.q.fns ∧ grows s (l.foldl (fun s k => freezeEnd f k s) s)
  | [], s => ⟨rfl, rfl, grows_refl s⟩
  | k :: l, s => by
    obtain ⟨hsqs, hregs, hgrow⟩ := freezeEnd_leaves f k s
    obtain ⟨hsqs', hregs', hgrow'⟩ := freezeEnds_leave f l (freezeEnd f k s)
    exact ⟨hsqs'.trans hsqs, hregs'.trans hregs, grows_trans hgrow hgrow'⟩

theorem freezeQuiet_leaves (f : Nat) (s : State) : sqsOf (freezeQuiet f s) = sqsOf s ∧
    hostRegs (freezeQuiet f s).q.fns = hostRegs s.q.fns ∧ grows s (freezeQuiet f s) := by
  unfold freezeQuiet
  split
  · exact freezeEnds_leave f _ s
  · exact ⟨rfl, rfl, grows_refl s⟩

/-- A stall's work fenced, and its reset on record. -/
def stallNoted (f kind : Nat) (s : State) : State :=
  raise 0x9020 1 [h1 f, h1 kind, h2 ((ctxsOf f s).filter Ctx.live).length, h2 (lostBytes f s)] (fenceFn f s)

/-- A stall's reset up to the Freezes that it lets end. -/
def stallFenced (f kind : Nat) (s : State) : State :=
  let t := stallNoted f kind s
  let u := clearSlots (· == f) { t with
    zn := { t.zn with zones := Tbl.mapV t.zn.zones (fun _ z => if z.st.isOpen && z.actFn == f then { z with st := .closed } else z) },
    ci := { t.ci with cvus := t.ci.cvus.filter (fun u => decide (u.1 < 16) || (u.1 - 16) / 2 != f) } }
  updSlk f (fun a => { a with holding := false, earlyCnt := 0, heldCnt := 0, pageFrom := u.zn.nextWr }) u

theorem stallReset_parts (f kind : Nat) (s : State) : stallReset f kind s = freezeQuiet f (repower (stallFenced f kind s)) := rfl

theorem stallFenced_q (f kind : Nat) (s : State) : (stallFenced f kind s).q = (fenceFn f s).q := rfl

theorem stallFenced_raises (f kind : Nat) (s : State) : raises 0x9020 (stallFenced f kind s) :=
  raises_of_eq (s := stallNoted f kind s) rfl (raises_raise ..)

theorem en_of_regsOf {n m : Fn} (h : regsOf n = regsOf m) : n.en = m.en := by
  have hen := congrArg Fn.en h
  exact hen

/-- After a stall's reset its controller is disabled without queues. -/
theorem stallReset_fn (f kind : Nat) (s : State) : (fnOf f (stallReset f kind s)).en = false ∧ (fnOf f (stallReset f kind s)).sqs = [] := by
  obtain ⟨n, -, hfence⟩ := fenceFn_fnOf f s
  obtain ⟨hsqs, hregs, -⟩ := freezeQuiet_leaves f (repower (stallFenced f kind s))
  rw [← stallReset_parts] at hsqs hregs
  have hfn : fnOf f (repower (stallFenced f kind s)) = fencedFn n := by rw [← hfence, fnOf, fnOf, repower_q, stallFenced_q]
  generalize stallReset f kind s = u at *
  generalize repower (stallFenced f kind s) = t at *
  have hregs' : regsOf (fnOf f u) = regsOf (fnOf f t) := congrFun hregs f
  have hq : (fnOf f u).sqs = (fnOf f t).sqs := congrFun hsqs f
  rw [hfn] at hregs' hq
  exact ⟨en_of_regsOf hregs', hq⟩

theorem stallReset_raises (f kind : Nat) (s : State) : raises 0x9020 (stallReset f kind s) := by
  rw [stallReset_parts]
  exact raises_mono (freezeQuiet_leaves ..).2.2 (repower_raises (stallFenced_raises ..))

theorem stallReset_stl (f kind : Nat) (s : State) : (stallReset f kind s).stl = s.stl :=
  keeps_of_outside (x := .stl) (stallReset_outside (List.Subset.refl _) f kind s) (by decide)

/-! ## VF Enable (R314) -/

/-- Clearing VF Enable leaves no stall's resources and no protection entry. -/
theorem removeStalls_after {s : State} (h : s.stl.vfEnable = true) (cause kind : Nat) : (removeStalls cause kind s).stl.vfEnable = false ∧
    (removeStalls cause kind s).stl.res = [] ∧ (removeStalls cause kind s).stl.ents = [] ∧ raises 0x9002 (removeStalls cause kind s) := by
  unfold removeStalls
  rw [h, Bool.not_true, if_neg Bool.false_ne_true]
  exact ⟨rfl, rfl, rfl, raises_raise ..⟩

/-- What a function-level reset clears beside what a controller reset does. -/
theorem clearCc_fn (f : Nat) (s : State) : (fnOf f (clearCc f s)).en = (fnOf f s).en ∧ (fnOf f (clearCc f s)).asq = 0 ∧
    (fnOf f (clearCc f s)).sqs = (fnOf f s).sqs := by
  rw [clearCc, fnOf_updFn]
  exact ⟨rfl, rfl, rfl⟩

theorem exec_vfFlr_now {fn : Nat} {s : State} (hst : isStall fn = true) (hf : fnPresent fn s = true) (hm : s.m.cur ≠ .fwActivate) :
    exec (.vfFunctionLevelReset fn) s = .next (afterIo (clearCc fn (stallReset fn 0 s))) := by
  show execVfFunctionLevelReset fn s = _
  simp [execVfFunctionLevelReset, hst, hf, hm, doneIo_after]

theorem vfFlr_resets {fn : Nat} {s : State} (hst : isStall fn = true) (hf : fnPresent fn s = true) (hm : s.m.cur ≠ .fwActivate) :
    ∃ u, exec (.vfFunctionLevelReset fn) s = .next (afterIo u) ∧ (fnOf fn u).en = false ∧ (fnOf fn u).asq = 0 ∧ (fnOf fn u).sqs = [] ∧
      raises 0x9020 u ∧ u.stl = s.stl := by
  obtain ⟨hen, hsqs⟩ := stallReset_fn fn 0 s
  obtain ⟨hen', hasq, hsqs'⟩ := clearCc_fn fn (stallReset fn 0 s)
  have hev := stallReset_raises fn 0 s
  have hstl := stallReset_stl fn 0 s
  have hx := exec_vfFlr_now hst hf hm
  generalize stallReset fn 0 s = t at *
  exact ⟨clearCc fn t, hx, hen'.trans hen, hasq, hsqs'.trans hsqs, raises_mono (grows_of_eq rfl) hev, hstl⟩

/-! ## Virtualization Management (R314) -/

/-- An admin command of the sender it is for, with no sanitize in the way, ends as its meaning does. -/
theorem sender_ends {c : Cmd} {s s1 : State} {k : Ctx} (ht : taken c s = some (k, s1)) (hp : plainForm k) (hn : notSanitizing s1) {b : Bool}
    (hb : b = true) {f : Ctx → State → State} {sct sc dw0 : Nat} {data : List Byte} {u0 : State}
    (he : f (dispatch k) s1 = postFull (dispatch k) sct sc dw0 0 data u0) :
    ∃ u, done (withCmd c s (fun k s => gateAdmin b false k s f)) = .next (after u) ∧ endsWith k sct sc dw0 data u0 u :=
  ⟨f (dispatch k) s1, by rw [withCmd_taken ht, hb]; exact congrArg done (gateAdmin_plain hp hn f), by rw [he]; exact endsWith_dispatch ..⟩

/-- The same of one that touches the flash. -/
theorem sender_endsIo {c : Cmd} {s s1 : State} {k : Ctx} (ht : taken c s = some (k, s1)) (hp : plainForm k) (hn : notSanitizing s1) {b : Bool}
    (hb : b = true) {f : Ctx → State → State} {sct sc dw0 : Nat} {data : List Byte} {u0 : State}
    (he : f (dispatch k) s1 = postFull (dispatch k) sct sc dw0 0 data u0) :
    ∃ u, doneIo (withCmd c s (fun k s => gateAdmin b false k s f)) = .next (afterIo u) ∧ endsWith k sct sc dw0 data u0 u :=
  ⟨f (dispatch k) s1, by rw [withCmd_taken ht, hb]; exact congrArg doneIo (gateAdmin_plain hp hn f), by rw [he]; exact endsWith_dispatch ..⟩

/-- Sent by another function, it is denied. -/
theorem sender_denied {c : Cmd} {s s1 : State} {k : Ctx} (ht : taken c s = some (k, s1)) {b : Bool} (hb : b = false) (f : Ctx → State → State) :
    ∃ u, done (withCmd c s (fun k s => gateAdmin b false k s f)) = .next (after u) ∧ endsWith k 0 0x01 0 [] s1 u := by
  subst hb
  exact ends_of_taken ht (endsWith_fin ..)

section
variable {k : Ctx} {s : State} (hid : bits k.cmd.cdw10.toNat 31 16 ≠ 0) (hst : isStall (vmFn k.cmd) = true) (hf : fnPresent (vmFn k.cmd) s = true)
include hid hst hf

theorem vmOn_present (f : Nat → State) : vmOn k s f = f (vmFn k.cmd) := if_neg (by simp [hid, hst, hf])

theorem vmAssignOn_assigns {rt nr : Nat} (hrt : bits k.cmd.cdw10.toNat 10 8 = rt) (hnr : bits k.cmd.cdw11.toNat 15 0 = nr) (h2 : rt < 2)
    (hoff : (fnOf (vmFn k.cmd) s).online = false) (h513 : nr ≤ 513) (hone : ¬(rt = 0 ∧ nr = 1)) (hleft : nr ≤ flexLeft (vmFn k.cmd) (rt == 1) s) :
    vmAssignOn k s = okDw0 k nr (updFn (vmFn k.cmd) (fun n => if rt = 1 then { n with vi := nr } else { n with vq := nr }) s) := by
  have fits : ¬(513 < nr ∨ (rt = 0 ∧ nr = 1) ∨ flexLeft (vmFn k.cmd) (rt == 1) s < nr) := by
    rintro (h | h | h)
    · omega
    · exact hone h
    · omega
  unfold vmAssignOn
  rw [vmOn_present hid hst hf, hrt, hnr]
  simp only [if_neg (Nat.not_le.2 h2), hoff, Bool.false_eq_true, if_false, if_neg fits]

end

/-! ## Stall Resource Set (R316, R317) -/

theorem isStall_notPf {f : Nat} (h : isStall f = true) : isPf f = false := by
  simp only [isStall, isPf, decide_eq_true_eq, Bool.or_eq_false_iff, beq_eq_false_iff_ne] at h ⊢
  omega

theorem stallBusy_dispatch (f : Nat) (k : Ctx) (s : State) : stallBusy f (dispatch k) s = stallBusy f k s := rfl

theorem stallSerial_free {b : List Byte} {k : Ctx} {s : State} (h : stallBusy (stlFn k.cmd) k s = false) (run : State) : stallSerial b k s run = run :=
  if_neg (by rw [h]; exact Bool.false_ne_true)

/-- The quota set where it is selected. -/
def srQuota (f sel : Nat) (b : List Byte) (s : State) : State :=
  if bit sel 0 then updSlk f (fun a => { a with quotaKiB := numAt b 0 4, effKiB := numAt b 0 4, scaled := false }) s else s

/-- The key slots and units at or above the counts selected, cleared. -/
def srTrimmed (f sel : Nat) (b : List Byte) (s : State) : State :=
  let t := if bit sel 3 then lowerKeys f (numAt b 16 1) s else s
  if bit sel 4 then { t with ci := { t.ci with cvus := t.ci.cvus.filter (fun u =>
    decide (u.1 < 16) || (u.1 - 16) / 2 != f || decide ((u.1 - 16) % 2 < numAt b 17 1)) } } else t

theorem srTrimmed_keeps {x : Comp} (hx : x ∉ [Comp.stb, .ci]) (f sel : Nat) (b : List Byte) (s : State) : keeps x s (srTrimmed f sel b s) := by
  refine keeps_of_outside (L := [.stb, .ci]) ?_ hx
  unfold srTrimmed
  dsimp only
  split_ifs <;> simp

/-- A stall's resources with the groups selected. -/
def srRes (sel : Nat) (b : List Byte) (r : StlRes) : StlRes :=
  let t := if bit sel 1 then { r with actLim := numAt b 4 2, openLim := numAt b 6 2 } else r
  { t with keySlots := if bit sel 3 then numAt b 16 1 else r.keySlots, cvus := if bit sel 4 then numAt b 17 1 else r.cvus }

/-- Its protection entry, the yards set where they are selected. -/
def srEnts (f sel : Nat) (b : List Byte) (t : Tbl StlEnt) : Tbl StlEnt :=
  if bit sel 2 then Tbl.put t f { Tbl.getD t f StlEnt.dflt with yards := numAt b 8 8 } else t

theorem srApply_stall {f : Nat} (hst : isStall f = true) (sel : Nat) (b : List Byte) (s : State) : srApply f sel b s =
    { srTrimmed f sel b (srQuota f sel b s) with stl := { (srTrimmed f sel b (srQuota f sel b s)).stl with
      res := Tbl.put (srTrimmed f sel b (srQuota f sel b s)).stl.res f (srRes sel b (resOf f s)),
      ents := srEnts f sel b (srTrimmed f sel b (srQuota f sel b s)).stl.ents } } := by
  unfold srApply
  rw [isStall_notPf hst, if_neg Bool.false_ne_true]
  rfl

/-- What the selected groups become. -/
theorem srApply_after {f : Nat} (hst : isStall f = true) (sel : Nat) (b : List Byte) (s : State) :
    (bit sel 0 = true → (slkOf f (srApply f sel b s)).quotaKiB = numAt b 0 4 ∧ (slkOf f (srApply f sel b s)).effKiB = numAt b 0 4) ∧
    (bit sel 0 = false → (srApply f sel b s).slk = s.slk) ∧ resOf f (srApply f sel b s) = srRes sel b (resOf f s) ∧
    (bit sel 2 = true → (entOf f (srApply f sel b s)).yards = numAt b 8 8) ∧ (srApply f sel b s).zn = s.zn := by
  have hslk : (srApply f sel b s).slk = (srQuota f sel b s).slk := by
    rw [srApply_stall hst]
    exact srTrimmed_keeps (x := .slk) (by decide) ..
  have hzn : (srApply f sel b s).zn = (srQuota f sel b s).zn := by
    rw [srApply_stall hst]
    exact srTrimmed_keeps (x := .zn) (by decide) ..
  refine ⟨fun h => ?_, fun h => ?_, ?_, fun h => ?_, hzn.trans ?_⟩
  · have hof : slkOf f (srApply f sel b s) = slkOf f (srQuota f sel b s) := by simp only [slkOf, hslk]
    rw [hof, srQuota, if_pos h, slkOf_updSlk]
    exact ⟨rfl, rfl⟩
  · rw [hslk, srQuota, h, if_neg Bool.false_ne_true]
  · rw [srApply_stall hst]
    exact Tbl.getD_put_same ..
  · rw [srApply_stall hst, entOf, isStall_notPf hst, if_neg Bool.false_ne_true]
    simp only [srEnts, h, if_true, Tbl.getD_put_same]
  · unfold srQuota
    split <;> rfl

section
variable {b : List Byte} {k : Ctx} {s : State} (h10 : bits k.cmd.cdw10.toNat 31 11 = 0) (h11 : bits k.cmd.cdw11.toNat 31 5 = 0)
  (hf : fnPresent (stlFn k.cmd) s = true) (hst : isStall (stlFn k.cmd) = true)
include h10 h11 hf hst

theorem srOn_stall : srOn b k s =
    if !srRanges (bits k.cmd.cdw11.toNat 4 0) b then fin k 0 0x02 s
    else if (bit (bits k.cmd.cdw11.toNat 4 0) 3 || bit (bits k.cmd.cdw11.toNat 4 0) 4) && stallState (stlFn k.cmd) s != 1 then fin k 0 0x0C s
    else if bit (bits k.cmd.cdw11.toNat 4 0) 0 && decide (sKiB s < sumQ s - (slkOf (stlFn k.cmd) s).quotaKiB + numAt b 0 4) then fin k 0 0x02 s
    else okDw0 k ((slkOf (stlFn k.cmd) (raise 0x9011 0 [h1 (stlFn k.cmd), h1 (bits k.cmd.cdw11.toNat 4 0)]
        (srApply (stlFn k.cmd) (bits k.cmd.cdw11.toNat 4 0) b s))).effKiB % 2 ^ 17)
      (raise 0x9011 0 [h1 (stlFn k.cmd), h1 (bits k.cmd.cdw11.toNat 4 0)] (srApply (stlFn k.cmd) (bits k.cmd.cdw11.toNat 4 0) b s)) := by
  have hreserved : ¬(bits k.cmd.cdw10.toNat 31 11 ≠ 0 ∨ bits k.cmd.cdw11.toNat 31 5 ≠ 0) := by omega
  have hlow : ¬1024 < stlFn k.cmd := by
    simp only [isStall, decide_eq_true_eq] at hst
    omega
  have hnamed : ¬((!fnPresent (stlFn k.cmd) s || decide (1024 < stlFn k.cmd) ||
      (isPf (stlFn k.cmd) && bits k.cmd.cdw11.toNat 4 0 != 1)) = true) := by
    simp [hf, hlow, isStall_notPf hst]
  exact (if_neg hreserved).trans (if_neg hnamed)

end

theorem stallState_present {f : Nat} {s : State} (hst : isStall f = true) (hf : fnPresent f s = true) :
    stallState f s = if (fnOf f s).online then 2 else 1 := by
  simp [stallState, hf, isStall_notPf hst]

/-! ## The commands -/

section
variable {k : Ctx} {s s1 : State} (ht : taken k.cmd s = some (k, s1)) (hp : plainForm k) (hn : notSanitizing s1)

theorem virtMgmt_denied (ht : taken k.cmd s = some (k, s1)) (hf0 : k.cmd.fn ≠ 0) :
    ∀ i ∈ [Instr.virtMgmtResourceAssign k.cmd, .virtMgmtSecondaryOnline k.cmd],
      ∃ u, exec i s = .next (after u) ∧ endsWith k 0 0x01 0 [] s1 u := by
  intro i hi
  simp only [List.mem_cons, List.not_mem_nil, or_false] at hi
  rcases hi with rfl | rfl
  · exact sender_denied ht (beq_false_of_ne hf0) _
  · exact sender_denied ht (beq_false_of_ne hf0) _

section
variable (hf0 : k.cmd.fn = 0) (hid : bits k.cmd.cdw10.toNat 31 16 ≠ 0) (hst : isStall (vmFn k.cmd) = true) (hf : fnPresent (vmFn k.cmd) s1 = true)
include ht hp hn hf0 hid hst hf

theorem virtMgmt_assigns {rt nr : Nat} (hrt : bits k.cmd.cdw10.toNat 10 8 = rt) (hnr : bits k.cmd.cdw11.toNat 15 0 = nr) (h2 : rt < 2)
    (hoff : (fnOf (vmFn k.cmd) s1).online = false) (h513 : nr ≤ 513) (hone : ¬(rt = 0 ∧ nr = 1)) (hleft : nr ≤ flexLeft (vmFn k.cmd) (rt == 1) s1) :
    ∃ u0 u, exec (.virtMgmtResourceAssign k.cmd) s = .next (after u) ∧ endsWith k 0 0 nr [] u0 u ∧ u0.zn = s1.zn ∧
      (if rt = 1 then (fnOf (vmFn k.cmd) u0).vi else (fnOf (vmFn k.cmd) u0).vq) = nr := by
  have hassign := vmAssignOn_assigns (k := dispatch k) hid hst hf hrt hnr h2 hoff h513 hone hleft
  obtain ⟨u, hx, he⟩ := sender_ends ht hp hn (beq_iff_eq.2 hf0) hassign
  refine ⟨updFn (vmFn k.cmd) (fun n => if rt = 1 then { n with vi := nr } else { n with vq := nr }) s1, u, hx, he, rfl, ?_⟩
  rw [fnOf_updFn]
  by_cases h : rt = 1
  · rw [if_pos h, if_pos h]
  · rw [if_neg h, if_neg h]

/-- What Secondary Online does with a stall. -/
def onlineOn (k : Ctx) (s : State) : State :=
  vmOn k s (fun f => if (fnOf f s).vq < 2 ∨ (fnOf f s).vi < 1 then fin k 1 0x20 s else ok k (updFn f (fun n => { n with online := true }) s))

theorem virtMgmt_onlines (hvq : 2 ≤ (fnOf (vmFn k.cmd) s1).vq) (hvi : 1 ≤ (fnOf (vmFn k.cmd) s1).vi) :
    ∃ u0 u, exec (.virtMgmtSecondaryOnline k.cmd) s = .next (after u) ∧ endsWith k 0 0 0 [] u0 u ∧ (fnOf (vmFn k.cmd) u0).online = true := by
  have henough : ¬((fnOf (vmFn k.cmd) s1).vq < 2 ∨ (fnOf (vmFn k.cmd) s1).vi < 1) := by omega
  have honline : onlineOn (dispatch k) s1 = ok (dispatch k) (updFn (vmFn k.cmd) (fun n => { n with online := true }) s1) :=
    (vmOn_present (k := dispatch k) hid hst hf _).trans (if_neg henough)
  obtain ⟨u, hx, he⟩ := sender_ends ht hp hn (beq_iff_eq.2 hf0) honline
  exact ⟨updFn (vmFn k.cmd) (fun n => { n with online := true }) s1, u, hx, he, by rw [fnOf_updFn]⟩

theorem virtMgmt_online_short (hvq : (fnOf (vmFn k.cmd) s1).vq < 2) :
    ∃ u, exec (.virtMgmtSecondaryOnline k.cmd) s = .next (after u) ∧ endsWith k 1 0x20 0 [] s1 u := by
  have honline : onlineOn (dispatch k) s1 = fin (dispatch k) 1 0x20 s1 := (vmOn_present (k := dispatch k) hid hst hf _).trans (if_pos (.inl hvq))
  exact sender_ends ht hp hn (beq_iff_eq.2 hf0) honline

/-- A stall taken Offline: reset first where its controller is enabled. -/
def offlined (f : Nat) (s : State) : State := updFn f (fun n => { n with online := false }) (if (fnOf f s).en then stallReset f 1 s else s)

omit ht hp hn hf0 hid hst hf in
theorem offlined_fn (f : Nat) (s : State) : (fnOf f (offlined f s)).online = false ∧ (fnOf f (offlined f s)).en = false := by
  have hen : (fnOf f (if (fnOf f s).en then stallReset f 1 s else s)).en = false := by
    split
    · exact (stallReset_fn ..).1
    · next h => exact Bool.eq_false_iff.2 h
  rw [offlined, fnOf_updFn]
  exact ⟨rfl, hen⟩

theorem virtMgmt_offlines : ∃ u0 u, exec (.virtMgmtSecondaryOffline k.cmd) s = .next (afterIo u) ∧ endsWith k 0 0 0 [] u0 u ∧
    (fnOf (vmFn k.cmd) u0).online = false ∧ (fnOf (vmFn k.cmd) u0).en = false := by
  have hoffline := vmOn_present (k := dispatch k) hid hst hf (fun f => ok (dispatch k) (offlined f s1))
  obtain ⟨u, hx, he⟩ := sender_endsIo ht hp hn (beq_iff_eq.2 hf0) (f := fun k s => vmOn k s fun f => ok k (offlined f s)) hoffline
  obtain ⟨hon, hen⟩ := offlined_fn (vmFn k.cmd) s1
  exact ⟨offlined (vmFn k.cmd) s1, u, hx, he, hon, hen⟩

end

section
variable (hf0 : k.cmd.fn = 0) (hbusy : stallBusy (stlFn k.cmd) k s1 = false) (h10 : bits k.cmd.cdw10.toNat 31 11 = 0)
  (h11 : bits k.cmd.cdw11.toNat 31 5 = 0) (hf : fnPresent (stlFn k.cmd) s1 = true) (hst : isStall (stlFn k.cmd) = true) {buf : List Byte}
include ht hp hn hf0 hbusy h10 h11 hf hst

theorem stallResourceSet_badRange (hr : srRanges (bits k.cmd.cdw11.toNat 4 0) buf = false) :
    ∃ u, exec (.stallResourceSet k.cmd buf) s = .next (after u) ∧ endsWith k 0 0x02 0 [] s1 u := by
  have hranges : (!srRanges (bits k.cmd.cdw11.toNat 4 0) buf) = true := by rw [hr]; rfl
  have hbad : srOn buf (dispatch k) s1 = fin (dispatch k) 0 0x02 s1 := (srOn_stall (k := dispatch k) h10 h11 hf hst).trans (if_pos hranges)
  exact sender_ends ht hp hn (beq_iff_eq.2 hf0) ((stallSerial_free (k := dispatch k) hbusy _).trans hbad)

theorem stallResourceSet_online (hr : srRanges (bits k.cmd.cdw11.toNat 4 0) buf = true)
    (hsel : (bit (bits k.cmd.cdw11.toNat 4 0) 3 || bit (bits k.cmd.cdw11.toNat 4 0) 4) = true) (hon : (fnOf (stlFn k.cmd) s1).online = true) :
    ∃ u, exec (.stallResourceSet k.cmd buf) s = .next (after u) ∧ endsWith k 0 0x0C 0 [] s1 u := by
  have hranges : (!srRanges (bits k.cmd.cdw11.toNat 4 0) buf) ≠ true := by rw [hr]; exact Bool.false_ne_true
  have hout : ((bit (bits k.cmd.cdw11.toNat 4 0) 3 || bit (bits k.cmd.cdw11.toNat 4 0) 4) && stallState (stlFn k.cmd) s1 != 1) = true := by
    rw [hsel, stallState_present hst hf, if_pos hon]; rfl
  have hbad : srOn buf (dispatch k) s1 = fin (dispatch k) 0 0x0C s1 :=
    (srOn_stall (k := dispatch k) h10 h11 hf hst).trans ((if_neg hranges).trans (if_pos hout))
  exact sender_ends ht hp hn (beq_iff_eq.2 hf0) ((stallSerial_free (k := dispatch k) hbusy _).trans hbad)

/-- The selected groups set, with their record. -/
def srSet (f sel : Nat) (b : List Byte) (s : State) : State := raise 0x9011 0 [h1 f, h1 sel] (srApply f sel b s)

theorem stallResourceSet_sets (hr : srRanges (bits k.cmd.cdw11.toNat 4 0) buf = true)
    (hoff : (bit (bits k.cmd.cdw11.toNat 4 0) 3 || bit (bits k.cmd.cdw11.toNat 4 0) 4) = true → (fnOf (stlFn k.cmd) s1).online = false)
    (hq : bit (bits k.cmd.cdw11.toNat 4 0) 0 = true → sumQ s1 - (slkOf (stlFn k.cmd) s1).quotaKiB + numAt buf 0 4 ≤ sKiB s1) :
    ∃ u, exec (.stallResourceSet k.cmd buf) s = .next (after u) ∧
      endsWith k 0 0 ((slkOf (stlFn k.cmd) (srSet (stlFn k.cmd) (bits k.cmd.cdw11.toNat 4 0) buf s1)).effKiB % 2 ^ 17) []
        (srSet (stlFn k.cmd) (bits k.cmd.cdw11.toNat 4 0) buf s1) u := by
  have hranges : (!srRanges (bits k.cmd.cdw11.toNat 4 0) buf) ≠ true := by rw [hr]; exact Bool.false_ne_true
  have hin : ((bit (bits k.cmd.cdw11.toNat 4 0) 3 || bit (bits k.cmd.cdw11.toNat 4 0) 4) && stallState (stlFn k.cmd) s1 != 1) ≠ true := by
    intro h
    obtain ⟨hsel, hne⟩ := Bool.and_eq_true_iff.1 h
    rw [stallState_present hst hf, hoff hsel] at hne
    exact absurd hne (by decide)
  have hroom : (bit (bits k.cmd.cdw11.toNat 4 0) 0 &&
      decide (sKiB s1 < sumQ s1 - (slkOf (stlFn k.cmd) s1).quotaKiB + numAt buf 0 4)) ≠ true := by
    intro h
    obtain ⟨hsel, hlt⟩ := Bool.and_eq_true_iff.1 h
    exact absurd (of_decide_eq_true hlt) (Nat.not_lt.2 (hq hsel))
  have hset := (srOn_stall (b := buf) (k := dispatch k) h10 h11 hf hst).trans ((if_neg hranges).trans ((if_neg hin).trans (if_neg hroom)))
  exact sender_ends ht hp hn (beq_iff_eq.2 hf0) ((stallSerial_free (k := dispatch k) hbusy _).trans hset)

end
end

/-- What Stall Resource Set leaves of the groups. -/
theorem srRes_fields (sel : Nat) (b : List Byte) (r : StlRes) :
    (srRes sel b r).actLim = (if bit sel 1 then numAt b 4 2 else r.actLim) ∧ (srRes sel b r).openLim = (if bit sel 1 then numAt b 6 2 else r.openLim) ∧
    (srRes sel b r).keySlots = (if bit sel 3 then numAt b 16 1 else r.keySlots) ∧ (srRes sel b r).cvus = (if bit sel 4 then numAt b 17 1 else r.cvus) := by
  unfold srRes
  dsimp only
  refine ⟨?_, ?_, rfl, rfl⟩ <;> split <;> rfl

/-! ## O49 -/

/-- Settles O49: stalls by VF Enable and their reset, then Virtualization Management and Stall Resource Set by their checks. -/
theorem stallsAppearAndResources : Obligations.StallsAppearAndResources := by
  unfold Obligations.StallsAppearAndResources
  refine ⟨fun s => ⟨fun hv => ⟨⟨_, if_neg (by rw [hv]; exact Bool.false_ne_true), rfl, raises_raise .., rfl, rfl⟩,
      fun n => if_neg (by rw [hv]; exact Bool.false_ne_true)⟩, fun hv => ⟨?_, fun n => if_pos hv⟩, fun fn hst hf hm => vfFlr_resets hst hf hm,
      fun c s1 k ht hp hn => ?_⟩, fun c buf s s1 k ht hp hn => ⟨fun hf0 => ?_, fun hf0 hbusy h10 h11 hf hst => ?_⟩⟩
  · obtain ⟨hgone, hres, hents, hev⟩ := removeStalls_after hv 0 2
    exact ⟨_, rfl, hgone, hres, hents, hev⟩
  · obtain rfl := taken_cmd ht
    refine ⟨virtMgmt_denied ht, fun hf0 hid hst hf => ⟨fun rt nr hrt hnr h2 hoff h513 hone hleft => ?_, fun hvq hvi => ?_, fun hvq => ?_, ?_⟩⟩
    · exact virtMgmt_assigns ht hp hn hf0 hid hst hf hrt hnr h2 hoff h513 hone hleft
    · exact virtMgmt_onlines ht hp hn hf0 hid hst hf hvq hvi
    · exact virtMgmt_online_short ht hp hn hf0 hid hst hf hvq
    · exact virtMgmt_offlines ht hp hn hf0 hid hst hf
  · exact sender_denied ht (beq_false_of_ne hf0) _
  · obtain rfl := taken_cmd ht
    refine ⟨stallResourceSet_badRange ht hp hn hf0 hbusy h10 h11 hf hst, stallResourceSet_online ht hp hn hf0 hbusy h10 h11 hf hst, fun hr hon hq => ?_⟩
    obtain ⟨u, hx, he⟩ := stallResourceSet_sets ht hp hn hf0 hbusy h10 h11 hf hst hr hon hq
    obtain ⟨hquota, hslk, hres, hyards, hzn⟩ := srApply_after hst (bits k.cmd.cdw11.toNat 4 0) buf s1
    obtain ⟨hact, hopen, hslots, hcvus⟩ := srRes_fields (bits k.cmd.cdw11.toNat 4 0) buf (resOf (stlFn k.cmd) s1)
    rw [← hres] at hact hopen hslots hcvus
    exact ⟨_, u, hx, he, raises_raise .., hquota, hslk, hact, hopen, hslots, hcvus, hyards, hzn⟩

end Sys2Proof.Machine

/-! O50. Stall Freeze, Thaw, Save and Restore (R323 to R331). -/

namespace Sys2Proof.Machine
open Sys2Proof

/-! ## What a completion leaves of the contexts -/

theorem cqPush_ctxs (f : Nat) (e : Cqe) (s : State) : (cqPush f e s).1.q.ctxs = s.q.ctxs := by
  unfold cqPush
  dsimp only
  split
  · rfl
  · split
    · rfl
    · split <;> rfl

/-- After a completion a context waits as one did before, or its completion is posted. -/
theorem postFull_waits (k : Ctx) (sct sc dw0 cs1 : Nat) (data : List Byte) (s : State) :
    ∀ x ∈ (postFull k sct sc dw0 cs1 data s).q.ctxs, x.wait = .posted ∨ ∃ y ∈ s.q.ctxs, y.wait = x.wait := by
  have hlog : (if sct = 7 then logError k sct sc s else s).q.ctxs = s.q.ctxs := by split <;> rfl
  unfold postFull
  split
  · exact fun x hx => .inr ⟨x, hx, rfl⟩
  · split
    · exact fun x hx => .inr ⟨x, (List.mem_filter.1 hx).1, rfl⟩
    · extract_lets t r
      have hr : r.1.q.ctxs = s.q.ctxs := (cqPush_ctxs ..).trans ((congrArg Qs.ctxs (cvuFold_q ..)).trans hlog)
      split
      · intro x hx
        exact .inr ⟨x, hr ▸ (List.mem_filter.1 hx).1, rfl⟩
      · intro x hx
        obtain ⟨y, hy, rfl⟩ := List.mem_map.1 hx
        split
        · exact .inl rfl
        · exact .inr ⟨y, hr ▸ hy, rfl⟩

/-- With no command waiting for the stall's Freeze, none runs after it. -/
theorem stallDrain_none {f : Nat} {s : State} (h : ∀ x ∈ s.q.ctxs, x.wait ≠ .stallQ f) : ∀ n, stallDrain f n s = s
  | 0 => rfl
  | n + 1 => by
    have hnone : s.q.ctxs.find? (fun x => x.wait == .stallQ f) = none := List.find?_eq_none.2 fun x hx => by simpa using h x hx
    rw [stallDrain, hnone]
    split <;> rfl

theorem stallDrain_postFull {f : Nat} {s : State} (h : ∀ x ∈ s.q.ctxs, x.wait ≠ .stallQ f) (k : Ctx) (sct sc dw0 : Nat) (data : List Byte) (n : Nat) :
    stallDrain f n (postFull k sct sc dw0 0 data s) = postFull k sct sc dw0 0 data s := by
  refine stallDrain_none (fun x hx => ?_) n
  rcases postFull_waits k sct sc dw0 0 data s x hx with hw | ⟨y, hy, hw⟩
  · rw [hw]
    exact fun hc => nomatch hc
  · rw [← hw]
    exact h y hy

/-! ## Freeze and Thaw (R323, R324) -/

/-- The stall marked frozen, or no longer. -/
def frzSet (f : Nat) (on : Bool) (s : State) : State :=
  { s with stl := { s.stl with res := Tbl.put s.stl.res f { resOf f s with frz := on } } }

theorem resOf_frzSet (f : Nat) (on : Bool) (s : State) : resOf f (frzSet f on s) = { resOf f s with frz := on } := Tbl.getD_put_same ..

/-- A Freeze as it waits, with no command ended by it. -/
def freezeWaits (k : Ctx) : Ctx := { k with wait := .freeze (stlFn k.cmd), dw0 := 0 }

/-- A quiet stall's commands are fenced, and none of them is undispatched. -/
theorem quiet_undispatched {f : Nat} {s : State} (h : quiet f s = true) : (ctxsOf f s).filter (fun x => undispatched x s) = [] := by
  refine List.filter_eq_nil_iff.2 fun x hx => ?_
  have hw : x.wait = .fenced := by simpa using List.all_eq_true.1 h x hx
  have hl : x.live = false := by rw [Ctx.live, hw]; rfl
  rw [undispatched, hl, Bool.false_and]
  exact Bool.false_ne_true

theorem freezeOn_idle {k : Ctx} {s : State} (hst : isStall (stlFn k.cmd) = true) (hf : fnPresent (stlFn k.cmd) s = true)
    (hgone : (ctxsOf (stlFn k.cmd) s).filter (fun x => undispatched x s) = []) :
    freezeOn k s = if quiet (stlFn k.cmd) s then freezeEnd (stlFn k.cmd) (freezeWaits k) (frzSet (stlFn k.cmd) true s)
      else putCtx (freezeWaits k) (frzSet (stlFn k.cmd) true s) := by
  have hnamed : ¬((!(isStall (stlFn k.cmd) && fnPresent (stlFn k.cmd) s)) = true) := by simp [hst, hf]
  have hnone : (ctxsOf (stlFn k.cmd) (frzSet (stlFn k.cmd) true s)).filter (fun x => undispatched x (frzSet (stlFn k.cmd) true s)) = [] := hgone
  have hq : quiet (stlFn k.cmd) (frzSet (stlFn k.cmd) true s) = quiet (stlFn k.cmd) s := rfl
  unfold freezeOn
  rw [if_neg hnamed]
  show (let s1 := frzSet (stlFn k.cmd) true s
        let gone := (ctxsOf (stlFn k.cmd) s1).filter (fun x => undispatched x s1)
        let s2 := gone.foldl (fun s x => fin x 7 0x87 (dropPasses (fun p => p.ctx == some x.seq) s)) s1
        let k1 := { k with wait := .freeze (stlFn k.cmd), dw0 := gone.length }
        if quiet (stlFn k.cmd) s2 then freezeEnd (stlFn k.cmd) k1 s2 else putCtx k1 s2) = _
  simp only [hnone, List.foldl_nil, List.length_nil, hq]
  rfl

theorem thawOn_frozen {k : Ctx} {s : State} (hst : isStall (stlFn k.cmd) = true) (hf : fnPresent (stlFn k.cmd) s = true)
    (h : frozen (stlFn k.cmd) s = true) : thawOn k s = ok k (raise 0x9031 0 [h1 (stlFn k.cmd)] (frzSet (stlFn k.cmd) false s)) :=
  (if_neg (by simp [hst, hf])).trans (if_neg (by simp [h]))

theorem thawOn_running {k : Ctx} {s : State} (hst : isStall (stlFn k.cmd) = true) (hf : fnPresent (stlFn k.cmd) s = true)
    (h : frozen (stlFn k.cmd) s = false) : thawOn k s = ok k s := (if_neg (by simp [hst, hf])).trans (if_pos (by simp [h]))

section
variable {fn : Nat} {s : State} {k : Ctx} (hnone : ∀ x ∈ s.q.ctxs, x.wait ≠ .stallQ fn)
  (hone : s.q.ctxs.filter (fun x => x.wait == .freeze fn) = [k])
include hnone hone

/-- The only Freeze of a stall that is quiet ends with success. -/
theorem exec_stallFreezeQuiet_one (hq : quiet fn s = true) : exec (.stallFreezeQuiet fn) s = .next (afterIo (freezeEnd fn k s)) := by
  have hend : freezeQuiet fn s = freezeEnd fn k s := by rw [freezeQuiet, if_pos hq, hone, List.foldl_cons, List.foldl_nil]
  have hdrain : ∀ n, stallDrain fn n (freezeEnd fn k s) = freezeEnd fn k s := fun n =>
    stallDrain_postFull (s := raise 0x9030 0 [h1 fn, h2 k.dw0] s) hnone k 0 0 (min 0xFFFF k.dw0) [] n
  show doneIo (stallDrain fn (freezeQuiet fn s).q.ctxs.length (freezeQuiet fn s)) = _
  rw [hend, hdrain, doneIo_after]

/-- A Freeze out of time, its record written. -/
def freezeLate (fn : Nat) (s : State) : State :=
  raise 0x9032 1 [h1 fn, h2 ((ctxsOf fn s).filter (fun x => x.wait != .fenced)).length] s

theorem exec_stallFreezeTimeout_one (hq : quiet fn s = false) (ht : bits k.cmd.cdw11.toNat 15 0 ≠ 0) :
    exec (.stallFreezeTimeout fn) s = .next (afterIo (fin k 7 0x87 (freezeLate fn s))) := by
  have hfind : s.q.ctxs.find? (fun x => x.wait == .freeze fn && bits x.cmd.cdw11.toNat 15 0 != 0) = some k := by
    have hfilter := List.find?_filter (xs := s.q.ctxs) (p := fun x => x.wait == .freeze fn) (q := fun x => bits x.cmd.cdw11.toNat 15 0 != 0)
    rw [hone, List.find?_cons_of_pos (by simpa using ht)] at hfilter
    simp only [Bool.decide_and, Bool.decide_eq_true] at hfilter
    exact hfilter.symm
  have hdrain : ∀ n, stallDrain fn n (fin k 7 0x87 (freezeLate fn s)) = fin k 7 0x87 (freezeLate fn s) := fun n =>
    stallDrain_postFull (s := freezeLate fn s) hnone k 7 0x87 0 [] n
  show execStallFreezeTimeout fn s = _
  rw [execStallFreezeTimeout, hfind]
  simp only [hq, Bool.false_eq_true, if_false]
  exact congrArg doneIo (hdrain _)

end

/-! ## Save (R325 to R327) -/

/-- A blob's length. -/
def blobLen (f : Nat) (s : State) : Nat := 336 + 48 * blobNq (fnOf f s)

/-- A Save counted, with its record. -/
def saveCounted (f : Nat) (s : State) : State :=
  raise 0x9040 0 [h1 f, h2 (blobLen f s), h2 (satAdd 64 s.stl.saveSeq 1)] { s with stl := { s.stl with saveSeq := satAdd 64 s.stl.saveSeq 1 } }

section
variable {k : Ctx} {s : State} (hst : isStall (stlFn k.cmd) = true) (hf : fnPresent (stlFn k.cmd) s = true)
include hst hf

theorem saveOn_unfrozen (h : frozen (stlFn k.cmd) s = false) : saveOn k s = fin k 0 0x0C s :=
  (if_neg (by simp [hst, hf])).trans (if_pos (by simp [h]))

theorem saveOn_frozen {key : List Byte} (h : frozen (stlFn k.cmd) s = true) (hq : quiet (stlFn k.cmd) s = true)
    (hk : keyAt? k.cmd.fn (bits k.cmd.cdw11.toNat 2 0) s = some key) :
    saveOn k s = if k.cmd.cdw12.toNat < blobLen (stlFn k.cmd) s then postFull k 0 0x02 (blobLen (stlFn k.cmd) s) 0 [] s
      else postFull k 0 0 (blobLen (stlFn k.cmd) s) 0 (blobBody (stlFn k.cmd) key (satAdd 64 s.stl.saveSeq 1) s ++
        cmac (migKey key) (blobBody (stlFn k.cmd) key (satAdd 64 s.stl.saveSeq 1) s)) (saveCounted (stlFn k.cmd) s) := by
  refine (if_neg (by simp [hst, hf])).trans ((if_neg (by simp [h, hq])).trans ?_)
  rw [hk]
  rfl

end

/-! ## Restore (R328 to R330) -/

/-- What a blob's load leaves of the stall: an enabled controller, its features and counters. -/
theorem blobLoad_fn (f : Nat) (b : List Byte) (s : State) : (fnOf f (blobLoad f b s)).en = true ∧
    (fnOf f (blobLoad f b s)).feats.xlevel = numAt b 88 1 ∧ (slkOf f (blobLoad f b s)).earlyCnt = numAt b 152 8 := by
  unfold blobLoad
  extract_lets rs flags sqs cqs arb _ x r0 s1 s2 s3 ts held
  have hx : x.xlevel = numAt b 88 1 := rfl
  have hfn : (fnOf f s1).en = true ∧ (fnOf f s1).feats = x := by
    rw [show fnOf f s1 = _ from fnOf_updFn f _ s]
    exact ⟨rfl, rfl⟩
  have hq2 : s2.q = s1.q := keeps_of_outside (x := .q) (L := [.ci]) (outside_foldl _ (fun t m => by simp) _ _) (by decide)
  have hslk : slkOf f s3 = { slkOf f s2 with earlyCnt := numAt b 152 8, heldCnt := numAt b 160 8 } := slkOf_updSlk ..
  have hfn3 : fnOf f s3 = fnOf f s1 := by
    show Tbl.getD s2.q.fns f _ = _
    rw [hq2]
    rfl
  clear_value s1 s2 s3 x
  refine ⟨(congrArg Fn.en hfn3).trans hfn.1, ?_, congrArg SlkFn.earlyCnt hslk⟩
  show (fnOf f s3).feats.xlevel = _
  rw [hfn3, hfn.2, hx]

/-- A stall loaded from a blob; a blob of another stall of this device takes what that one owned with it. -/
def blobTaken (f : Nat) (b : List Byte) (s : State) : State :=
  if numAt b 16 8 = Config.devId ∧ numAt b 12 2 ≠ f then blobMove (numAt b 12 2) f (blobLoad f b s) else blobLoad f b s

theorem blobTaken_kept (f : Nat) (b : List Byte) (s : State) : (blobTaken f b s).q = (blobLoad f b s).q ∧ (blobTaken f b s).slk = (blobLoad f b s).slk := by
  unfold blobTaken
  split <;> exact ⟨rfl, rfl⟩

/-- A stall restored, with its record. -/
def stallRestored (f : Nat) (b : List Byte) (s : State) : State :=
  repower (raise 0x9041 1 [h1 f, h1 (numAt b 12 2), h4 (numAt b 16 8)] (blobTaken f b s))

theorem stallRestored_after (f : Nat) (b : List Byte) (s : State) : raises 0x9041 (stallRestored f b s) ∧ (fnOf f (stallRestored f b s)).en = true ∧
    (fnOf f (stallRestored f b s)).feats.xlevel = numAt b 88 1 ∧ (slkOf f (stallRestored f b s)).earlyCnt = numAt b 152 8 := by
  obtain ⟨hen, hx, hcnt⟩ := blobLoad_fn f b s
  obtain ⟨hq, hslk⟩ := blobTaken_kept f b s
  have hq' : (stallRestored f b s).q = (blobLoad f b s).q := (repower_q _).trans hq
  have hslk' : (stallRestored f b s).slk = (blobLoad f b s).slk :=
    (keeps_of_outside (x := .slk) (repower_outside (List.Subset.refl _) _) (by decide) : keeps .slk _ (repower _)).trans hslk
  refine ⟨repower_raises (raises_raise ..), ?_, ?_, ?_⟩
  · rw [fnOf, hq']; exact hen
  · rw [fnOf, hq']; exact hx
  · rw [slkOf, hslk']; exact hcnt

section
variable {k : Ctx} {s : State} {b : List Byte} (hst : isStall (stlFn k.cmd) = true) (hf : fnPresent (stlFn k.cmd) s = true)
include hst hf

theorem restoreOn_offline (h : (fnOf (stlFn k.cmd) s).online = false) : restoreOn b k s = fin k 0 0x0C s := by
  refine (if_neg (by simp [hst, hf])).trans (if_pos (.inl ?_))
  rw [stallState_present hst hf, h]
  decide

theorem restoreOn_ready {key : List Byte} (hz : frozen (stlFn k.cmd) s = true) (hon : (fnOf (stlFn k.cmd) s).online = true)
    (hen : (fnOf (stlFn k.cmd) s).en = false) (hsq : ∀ q ∈ (fnOf (stlFn k.cmd) s).sqs, q.1 = 0) (hcq : ∀ q ∈ (fnOf (stlFn k.cmd) s).cqs, q.1 = 0)
    (hk : keyAt? k.cmd.fn (bits k.cmd.cdw11.toNat 2 0) s = some key) :
    restoreOn b k s = match blobFault (stlFn k.cmd) key k.cmd.cdw12.toNat b s with
      | some e => postFull k 0 0x02 e 0 [] (raise 0x9042 1 [h1 (stlFn k.cmd), h1 e] s)
      | none => ok k (stallRestored (stlFn k.cmd) b s) := by
  have hstate : stallState (stlFn k.cmd) s = 2 := by rw [stallState_present hst hf, hon]; rfl
  have hsqs : (fnOf (stlFn k.cmd) s).sqs.any (fun q => q.1 != 0) = false := by
    rw [List.any_eq_false]
    intro q hq
    simp [hsq q hq]
  have hcqs : (fnOf (stlFn k.cmd) s).cqs.any (fun q => q.1 != 0) = false := by
    rw [List.any_eq_false]
    intro q hq
    simp [hcq q hq]
  have hready : ¬(stallState (stlFn k.cmd) s ≠ 2 ∨ (!frozen (stlFn k.cmd) s) = true ∨ (fnOf (stlFn k.cmd) s).en = true ∨
      (fnOf (stlFn k.cmd) s).sqs.any (fun q => q.1 != 0) = true ∨ (fnOf (stlFn k.cmd) s).cqs.any (fun q => q.1 != 0) = true) := by
    simp [hstate, hz, hen, hsqs, hcqs]
  refine (if_neg (by simp [hst, hf])).trans ((if_neg hready).trans ?_)
  rw [hk]
  rfl

end

/-! ## The commands -/

section
variable {k : Ctx} {s s1 : State} {buf : List Byte} (ht : taken k.cmd s = some (k, s1)) (hp : plainForm k) (hn : notSanitizing s1)
  (hpf : isPf k.cmd.fn = true) (hbusy : stallBusy (stlFn k.cmd) k s1 = false)
include ht hp hn hpf hbusy

/-- A stall command that needs not wait for a Freeze ends as its meaning does. -/
theorem stall_ends {f : List Byte → Ctx → State → State} {sct sc dw0 : Nat} {data : List Byte} {u0 : State}
    (he : f buf (dispatch k) s1 = postFull (dispatch k) sct sc dw0 0 data u0) :
    ∃ u, done (withCmd k.cmd s (fun k' s => gateAdmin (isPf k.cmd.fn) false k' s (fun k s => stallSerial buf k s (f buf k s)))) = .next (after u) ∧
      endsWith k sct sc dw0 data u0 u :=
  sender_ends ht hp hn hpf ((stallSerial_free (k := dispatch k) hbusy _).trans he)

theorem exec_stallFreeze_runs : exec (.stallFreeze k.cmd) s = .next (afterIo (freezeOn (dispatch k) s1)) := by
  show doneIo (withCmd k.cmd s _) = _
  rw [withCmd_taken ht, hpf]
  exact congrArg doneIo ((gateAdmin_plain hp hn _).trans (stallSerial_free (k := dispatch k) hbusy _))

end

/-! ## O50 -/

/-- Settles O50: freezes by the commands the stall still holds, Save and Restore by their checks in order. -/
theorem stallFreezesAndMoves : Obligations.StallFreezesAndMoves := by
  unfold Obligations.StallFreezesAndMoves
  refine ⟨fun s => ⟨fun c s1 k ht hp hn hpf hbusy hst hf => ?_, fun fn k hnone hone => ⟨fun hq => ?_, fun hq hto => ?_⟩⟩,
    fun c buf s s1 k ht hp hn hpf hbusy hst hf => ?_⟩
  · obtain rfl := taken_cmd ht
    have hx := exec_stallFreeze_runs ht hp hn hpf hbusy
    refine ⟨fun hq => ?_, fun hq hgone => ?_, fun hz => ?_, fun hz => ?_⟩
    · have hfrz := (freezeOn_idle (k := dispatch k) hst hf (quiet_undispatched hq)).trans (if_pos hq)
      rw [hfrz] at hx
      exact ⟨raise 0x9030 0 [h1 (stlFn k.cmd), h2 0] (frzSet (stlFn k.cmd) true s1), _, hx, ⟨freezeWaits (dispatch k), rfl, rfl, rfl, rfl⟩,
        congrArg StlRes.frz (resOf_frzSet ..), raises_raise .., rfl⟩
    · have hbusy' : ¬(quiet (stlFn k.cmd) s1 = true) := Bool.eq_false_iff.1 hq
      have hfrz := (freezeOn_idle (k := dispatch k) hst hf hgone).trans (if_neg hbusy')
      rw [hfrz] at hx
      exact ⟨_, freezeWaits (dispatch k), hx, congrArg StlRes.frz (resOf_frzSet ..), rfl, rfl, rfl, rfl⟩
    · have hthaw := thawOn_frozen (k := dispatch k) hst hf hz
      obtain ⟨u, hu, he⟩ := stall_ends (buf := []) ht hp hn hpf hbusy (f := fun _ => thawOn) hthaw
      refine ⟨_, u, hu, he, ?_, raises_raise ..⟩
      have hres := congrArg StlRes.frz (resOf_frzSet (stlFn k.cmd) false s1)
      exact (congrArg (isStall (stlFn k.cmd) && ·) hres).trans (Bool.and_false _)
    · exact stall_ends (buf := []) ht hp hn hpf hbusy (f := fun _ => thawOn) (thawOn_running (k := dispatch k) hst hf hz)
  · exact ⟨raise 0x9030 0 [h1 fn, h2 k.dw0] s, _, exec_stallFreezeQuiet_one hnone hone hq, raises_raise .., rfl, endsWith_self ..⟩
  · exact ⟨freezeLate fn s, _, exec_stallFreezeTimeout_one hnone hone hq hto, raises_raise .., rfl, endsWith_fin ..⟩
  · obtain rfl := taken_cmd ht
    refine ⟨fun hz => ?_, fun key hz hq hk => ⟨fun hlen => ?_, fun hlen => ?_⟩, fun key hz hon hen hsq hcq hk => ⟨fun hgood => ?_, fun e hbad => ?_⟩,
      fun hoff => ?_⟩
    · exact stall_ends (buf := []) ht hp hn hpf hbusy (f := fun _ => saveOn) (saveOn_unfrozen (k := dispatch k) hst hf hz)
    · have hsave := (saveOn_frozen (k := dispatch k) hst hf hz hq hk).trans (if_neg (Nat.not_lt.2 hlen))
      obtain ⟨u, hu, he⟩ := stall_ends (buf := []) ht hp hn hpf hbusy (f := fun _ => saveOn) hsave
      exact ⟨saveCounted (stlFn k.cmd) s1, u, hu, raises_raise .., rfl, he⟩
    · exact stall_ends (buf := []) ht hp hn hpf hbusy (f := fun _ => saveOn)
        ((saveOn_frozen (k := dispatch k) hst hf hz hq hk).trans (if_pos hlen))
    · have hrestore := restoreOn_ready (k := dispatch k) (b := buf) hst hf hz hon hen hsq hcq hk
      rw [show blobFault (stlFn (dispatch k).cmd) key (dispatch k).cmd.cdw12.toNat buf s1 = none from hgood] at hrestore
      obtain ⟨u, hu, he⟩ := stall_ends ht hp hn hpf hbusy (f := restoreOn) hrestore
      obtain ⟨hev, hen', hx, hcnt⟩ := stallRestored_after (stlFn k.cmd) buf s1
      exact ⟨stallRestored (stlFn k.cmd) buf s1, u, hu, he, hev, hen', hx, hcnt⟩
    · have hrestore := restoreOn_ready (k := dispatch k) (b := buf) hst hf hz hon hen hsq hcq hk
      rw [show blobFault (stlFn (dispatch k).cmd) key (dispatch k).cmd.cdw12.toNat buf s1 = some e from hbad] at hrestore
      obtain ⟨u, hu, he⟩ := stall_ends ht hp hn hpf hbusy (f := restoreOn) hrestore
      exact ⟨_, u, hu, he, raises_raise .., rfl, rfl⟩
    · exact stall_ends ht hp hn hpf hbusy (f := restoreOn) (restoreOn_offline (k := dispatch k) hst hf hoff)

end Sys2Proof.Machine

/-! O56. Housekeeping, sleep and wake (R372, R374, R378 to R388, R451). -/

namespace Sys2Proof.Machine
open Sys2Proof

/-! ## A housekeeping round (R387, R451) -/

/-- The count of rounds, and when the last one ended. -/
def roundMark (s : State) : Nat × Nat := (s.pw.round, s.pw.roundAt)

theorem roundMark_foldl {α : Type} {f : State → α → State} (h : ∀ s x, roundMark (f s x) = roundMark s) :
    ∀ (l : List α) (s : State), roundMark (l.foldl f s) = roundMark s
  | [], _ => rfl
  | x :: l, s => (roundMark_foldl h l (f s x)).trans (h s x)

theorem roundMark_keeps {s t : State} (h : keeps .pw s t) : roundMark t = roundMark s := by
  have hmark := congrArg (fun p : Pwr => (p.round, p.roundAt)) h
  exact hmark

/-- A record written or not leaves all but the records. -/
theorem noted_keeps {x : Comp} (hx : x ∉ [Comp.stb]) (c : Prop) [Decidable c] (code sev : Nat) (args : List (List Nat)) (s : State) :
    keeps x s (if c then raise code sev args s else s) := by
  refine keeps_of_outside (L := [.stb]) ?_ hx
  split <;> simp

theorem noted_roundMark (c : Prop) [Decidable c] (code sev : Nat) (args : List (List Nat)) (s : State) :
    roundMark (if c then raise code sev args s else s) = roundMark s := roundMark_keeps (noted_keeps (by decide) ..)

theorem takeTherm_roundMark (l : List Therm) (s : State) : roundMark (takeTherm l s) = roundMark s := by
  unfold takeTherm
  refine roundMark_foldl (fun t e => ?_) _ s
  exact (noted_roundMark ..).trans rfl

theorem takeRails_roundMark (l : List (Nat × Nat)) (s : State) : roundMark (takeRails l s) = roundMark s := by
  unfold takeRails
  refine roundMark_foldl (fun t e => ?_) _ s
  exact (noted_roundMark ..).trans rfl

theorem takeFlash_roundMark (l : List (Nat × Nat × Option Int)) (s : State) : roundMark (takeFlash l s) = roundMark s := by
  unfold takeFlash
  refine roundMark_foldl (fun t e => ?_) _ s
  exact (noted_roundMark ..).trans rfl

/-- A proof trigger moves neither the power state nor the HOLD reading. -/
theorem proofTrigger_kept (soft : Bool) (s : State) : (proofTrigger soft s).pw = s.pw ∧ (proofTrigger soft s).slk.holdMv = s.slk.holdMv := by
  unfold proofTrigger
  cases s.slk.phase <;> cases soft <;> exact ⟨rfl, rfl⟩

/-- The board's temperature taken, with the trigger it may be. -/
def boardTaken (d : Int) (s : State) : State :=
  let t := { s with pw := { s.pw with boardTemp := d } }
  if s.slk.proofCnt ≠ 0 ∧ (15 ≤ d - s.slk.proofTemp ∨ 15 ≤ s.slk.proofTemp - d) then proofTrigger true t else t

theorem boardTaken_after (d : Int) (s : State) : roundMark (boardTaken d s) = roundMark s ∧ (boardTaken d s).slk.holdMv = s.slk.holdMv := by
  unfold boardTaken
  dsimp only
  split
  · obtain ⟨hpw, hmv⟩ := proofTrigger_kept true { s with pw := { s.pw with boardTemp := d } }
    exact ⟨(roundMark_keeps hpw).trans rfl, hmv⟩
  · exact ⟨rfl, rfl⟩

theorem boardStep_cases (s : State) : boardStep s = s ∨ ∃ d, boardStep s = boardTaken d s := by
  unfold boardStep
  extract_lets t
  cases t with
  | none => exact .inl rfl
  | some d => exact .inr ⟨d, rfl⟩

theorem boardStep_after (s : State) : roundMark (boardStep s) = roundMark s ∧ (boardStep s).slk.holdMv = s.slk.holdMv := by
  rcases boardStep_cases s with h | ⟨d, h⟩ <;> rw [h]
  · exact ⟨rfl, rfl⟩
  · exact boardTaken_after d s

theorem throttleStep_roundMark (s : State) : roundMark (throttleStep s) = roundMark s := (noted_roundMark ..).trans rfl

theorem sagStep_holdMv (hold : Nat) (s : State) : (sagStep hold s).slk.holdMv = hold := by
  have hscale : ∀ t, (noteOver (scaleQuotas t)).slk.holdMv = t.slk.holdMv := fun t => by
    have hslk := congrArg Slk.holdMv (scaleQuotas_slk t)
    exact hslk
  unfold sagStep
  dsimp only
  split
  · rfl
  · split
    · exact hscale _
    · rfl

/-- Ageing counts the time. -/
theorem ageBy_powerUs (dt : Nat) (tj : Option Int) (s : State) : (ageBy dt tj s).ts.life.powerUs = s.ts.life.powerUs + dt := by
  unfold ageBy
  extract_lets l a hot l1 _ s1 cross
  have hcross : ∀ n t, (cross n t).ts = t.ts := fun n t => noted_keeps (x := .ts) (by decide) ..
  have hlife := congrArg (fun x : Tst => x.life.powerUs) ((hcross 10000 (cross 8000 s1)).trans (hcross 8000 s1))
  exact hlife

/-- A round begun: it is counted, the dies are read. -/
def roundBegun (r : HkRound) (s : State) : State :=
  let dt := s.tm.elapsed - s.pw.roundAt
  let k0 := sensorK 0 s
  let wc := if (s.img.qlcHi + 273).toNat < k0 then dt else 0
  let cc := if (s.img.slcHi + 273).toNat < k0 then dt else 0
  let die := (List.range 5).map (fun i => if i ≤ s.part.sheds then nth r.die i none else none)
  { accrue s with pw := { (accrue s).pw with
    round := wrapAdd 32 s.pw.round 1, die := die, waitRound := false, roundAt := s.tm.elapsed, wcUs := s.pw.wcUs + wc, ccUs := s.pw.ccUs + cc } }

/-- The round's readings taken. -/
def roundRead (r : HkRound) (s : State) : State := sagStep r.hold (takeFlash r.flash (takeRails r.rails (takeTherm r.therm s)))

/-- The rounds of each value of THM counted. -/
def thmCounted (s : State) : State :=
  { s with pw := { s.pw with thmQlc := if s.m.thm = 1 then satAdd 32 s.pw.thmQlc 1 else s.pw.thmQlc,
                             thmAll := if s.m.thm = 2 then satAdd 32 s.pw.thmAll 1 else s.pw.thmAll } }

/-- The round's readings acted on: board, throttling, THM and its counts. -/
def roundActed (s : State) : State := thmCounted (thmStep (throttleStep (boardStep s)))

/-- The part aged, and what the round reports. -/
def roundEnded (dt : Nat) (s : State) : State :=
  let t := ageBy dt (tjMax16 s) s
  let u := if t.fl.geom.ok then setWarn 0 (decide (availSpare t < 10)) t else t
  tmpReport (if u.m.cur.isBase || u.m.cur == .sanitize || u.m.cur == .fwActivate || u.m.cur == .proofLoad then rebuildCopy u else u)

theorem roundBegun_after (r : HkRound) (s : State) :
    roundMark (roundBegun r s) = (wrapAdd 32 s.pw.round 1, s.tm.elapsed) ∧ (roundBegun r s).ts = s.ts :=
  ⟨rfl, (keeps_of_outside (x := .ts) (accrue_outside (List.Subset.refl _) s) (by decide) : keeps .ts s (accrue s))⟩

theorem roundRead_after (r : HkRound) (s : State) : roundMark (roundRead r s) = roundMark s ∧ (roundRead r s).slk.holdMv = r.hold ∧
    (roundRead r s).ts = s.ts := by
  have hsag := roundMark_keeps (keeps_of_outside (x := .pw)
    (sagStep_outside (List.Subset.refl _) r.hold (takeFlash r.flash (takeRails r.rails (takeTherm r.therm s)))) (by decide))
  refine ⟨?_, sagStep_holdMv .., keeps_of_outside (x := .ts) (L := [.pw, .slk, .stb]) (by simp [roundRead]) (by decide)⟩
  rw [roundRead, hsag, takeFlash_roundMark, takeRails_roundMark, takeTherm_roundMark]

theorem thmCounted_after (s : State) : roundMark (thmCounted s) = roundMark s ∧ (thmCounted s).slk = s.slk ∧ (thmCounted s).ts = s.ts := ⟨rfl, rfl, rfl⟩

theorem roundActed_after (s : State) : roundMark (roundActed s) = roundMark s ∧ (roundActed s).slk.holdMv = s.slk.holdMv ∧ (roundActed s).ts = s.ts := by
  obtain ⟨hmark, hmv⟩ := boardStep_after s
  have hthm : ∀ {x : Comp}, x ∉ [Comp.m, .pl, .fl, .q, .stb, .ci] → ∀ t, keeps x t (thmStep t) := fun hx t =>
    keeps_of_outside (thmStep_outside (List.Subset.refl _) t) hx
  have hthr : ∀ {x : Comp}, x ∉ [Comp.pw, .stb] → ∀ t, keeps x t (throttleStep t) := fun hx t =>
    keeps_of_outside (throttleStep_outside (List.Subset.refl _) t) hx
  have hboard : (boardStep s).ts = s.ts := keeps_of_outside (x := .ts) (boardStep_outside (List.Subset.refl _) s) (by decide)
  obtain ⟨cmark, cslk, cts⟩ := thmCounted_after (thmStep (throttleStep (boardStep s)))
  have hslk : (thmStep (throttleStep (boardStep s))).slk = (boardStep s).slk := (hthm (x := .slk) (by decide) _).trans (hthr (x := .slk) (by decide) _)
  have hts : (thmStep (throttleStep (boardStep s))).ts = (boardStep s).ts := (hthm (x := .ts) (by decide) _).trans (hthr (x := .ts) (by decide) _)
  refine ⟨?_, ?_, cts.trans (hts.trans hboard)⟩
  · rw [roundActed, cmark, roundMark_keeps (hthm (x := .pw) (by decide) _), throttleStep_roundMark, hmark]
  · rw [roundActed, cslk, hslk, hmv]

theorem roundEnded_after (dt : Nat) (s : State) : roundMark (roundEnded dt s) = roundMark s ∧ (roundEnded dt s).slk = s.slk ∧
    (roundEnded dt s).ts.life.powerUs = s.ts.life.powerUs + dt := by
  have hage : ∀ {x : Comp}, x ∉ [Comp.stb, .ts] → keeps x s (ageBy dt (tjMax16 s) s) := fun hx =>
    keeps_of_outside (ageBy_outside (List.Subset.refl _) dt (tjMax16 s) s) hx
  have hus := ageBy_powerUs dt (tjMax16 s) s
  unfold roundEnded
  extract_lets t u
  have hend : ∀ {x : Comp}, x ∉ [Comp.m, .q, .stb, .ci, .jn] → keeps x t
      (tmpReport (if u.m.cur.isBase || u.m.cur == .sanitize || u.m.cur == .fwActivate || u.m.cur == .proofLoad then rebuildCopy u else u)) :=
    fun hx => by
      have hu : outside [.m, .q, .stb, .ci, .jn] u = outside [.m, .q, .stb, .ci, .jn] t := by simp only [u]; split <;> simp
      refine keeps_of_outside (L := [.m, .q, .stb, .ci, .jn]) ?_ hx
      rw [tmpReport_outside (by simp)]
      split
      · rw [rebuildCopy_outside (by simp), hu]
      · exact hu
  have hlife := congrArg (fun x : Tst => x.life.powerUs) (hend (x := .ts) (by decide))
  exact ⟨(roundMark_keeps (hend (x := .pw) (by decide))).trans (roundMark_keeps (hage (x := .pw) (by decide))),
    (hend (x := .slk) (by decide)).trans (hage (x := .slk) (by decide)), hlife.trans hus⟩

/-- A round in a mode that has them. -/
theorem exec_housekeepingRound_runs {s : State} (hm : s.m.cur.isBase = true ∨ s.m.cur = .sanitize ∨ s.m.cur = .halted) (hp : s.pw.ps ≠ 4) (r : HkRound) :
    exec (.housekeepingRound r) s = .next (afterIo (roundEnded (s.tm.elapsed - s.pw.roundAt) (roundActed (roundRead r (roundBegun r s))))) := by
  have hmode : [Mode.reset, .imageLoad, .test, .retain].contains s.m.cur = false := by
    generalize s.m.cur = md at hm
    rcases hm with h | rfl | rfl
    · revert h
      cases md <;> decide
    · rfl
    · rfl
  exact if_neg (by rw [hmode, beq_false_of_ne hp]; exact Bool.false_ne_true)

/-! ## The device state (R373, R386) -/

/-- Residency counted: nothing else of the power state moves. -/
theorem accrue_pw (s : State) : ∃ res at_, accrue s = { s with pw := { s.pw with res := res, resAt := at_ } } := by
  unfold accrue
  extract_lets k dt
  clear_value k
  split <;> exact ⟨_, _, rfl⟩

/-- A new device state is taken with its record. -/
theorem setPs_new {n : Nat} {s : State} (h : n ≠ s.pw.ps) : (∃ res at_, (setPs n s).pw = { s.pw with res := res, resAt := at_, ps := n }) ∧
    raises 0xB001 (setPs n s) ∧ (setPs n s).m = s.m := by
  obtain ⟨res, at_, hacc⟩ := accrue_pw s
  unfold setPs
  rw [if_neg h, hacc]
  exact ⟨⟨res, at_, rfl⟩, raises_raise .., rfl⟩

/-! ## The management port (R374, R420) -/

/-- A command of the management port counted, and answered with the health status. -/
def miTaken (s : State) : State := { s with ts := { s.ts with mi := s.ts.mi + 1, health := healthStatus s }, free := s.free + 2 }

theorem exec_nvmeMiCommand_none (s : State) : exec (.nvmeMiCommand none) s = .next (after (repower (wake 2 (miTaken s)))) := rfl

theorem repower_kept {x : Comp} (hx : x ∉ [Comp.pw, .stb]) (s : State) : keeps x s (repower s) := keeps_of_outside (repower_outside (List.Subset.refl _) s) hx

/-- The exit begun. -/
def exitBegun (s : State) : State := { accrue s with pw := { (accrue s).pw with exiting := true, beganUs := s.tm.elapsed } }

theorem exitBegun_after (s : State) : (exitBegun s).pw.exiting = true ∧ (exitBegun s).pw.wakeCause = s.pw.wakeCause ∧ (exitBegun s).pw.ps = s.pw.ps := by
  obtain ⟨res, at_, hacc⟩ := accrue_pw s
  rw [exitBegun, hacc]
  exact ⟨rfl, rfl, rfl⟩

/-- An access in state 3 begins the exit. -/
theorem wake_asleep {cause : Nat} {s : State} (hm : s.m.cur.wakes = true) (h3 : s.pw.ps = 3) (hx : s.pw.exiting = false) (he : s.pw.entering = 0) :
    wake cause s = exitBegun { s with pw := { s.pw with wakeCause := cause, duringEntry := false } } := by
  have hlow : ¬(s.pw.ps < 3 ∨ s.pw.exiting = true) := by simp [h3, hx]
  have h4 : ¬(s.pw.ps = 4) := by omega
  unfold wake
  rw [hm, Bool.not_true, if_neg Bool.false_ne_true, if_neg (not_not.2 he), if_neg hlow]
  exact (if_neg (by simp [h4])).trans (congrArg exitBegun (if_neg h4))

theorem repower_asleep {s : State} (h : s.pw.ps = 3) : repower s = s := if_neg (by omega)

/-- After VDD_RET was lost in RETAIN a wake starts the device anew. -/
theorem wake_anew {cause : Nat} {s : State} (hm : s.m.cur.wakes = true) (h4 : s.pw.ps = 4) (hr : s.pw.retLost = true) (hx : s.pw.exiting = false)
    (he : s.pw.entering = 0) : wake cause s = enterReset { s with pw := { s.pw with wakeCause := cause, duringEntry := false } } := by
  have hlow : ¬(s.pw.ps < 3 ∨ s.pw.exiting = true) := by simp [h4, hx]
  unfold wake
  rw [hm, Bool.not_true, if_neg Bool.false_ne_true, if_neg (not_not.2 he), if_neg hlow]
  exact if_pos (by simp [h4, hr])

/-! ## Entry (R372, R378 to R381) -/

theorem exec_apstIdleExpiry_idle {fn : Nat} {s : State} (hen : (fnOf fn s).en = true) (ha : (fnOf fn s).feats.apste = true)
    (hctx : ∀ k ∈ ctxsOf fn s, k.wait = .aer) (hsq : ∀ q ∈ (fnOf fn s).sqs, q.2.head = q.2.tail)
    (ht : bits (nth (fnOf fn s).feats.apst (fnOf fn s).feats.ps 0) 31 8 ≠ 0)
    (hps : bits (nth (fnOf fn s).feats.apst (fnOf fn s).feats.ps 0) 7 3 ≠ (fnOf fn s).feats.ps) :
    exec (.apstIdleExpiry fn) s = .next (after (repower (setFnPs fn (bits (nth (fnOf fn s).feats.apst (fnOf fn s).feats.ps 0) 7 3) s))) := by
  have hidle : (ctxsOf fn s).all (fun k => k.wait == .aer) = true := List.all_eq_true.2 fun k hk => by simp [hctx k hk]
  have hqueues : (fnOf fn s).sqs.all (fun q => q.2.head == q.2.tail) = true := List.all_eq_true.2 fun q hq => by simp [hsq q hq]
  exact if_pos (by simp [hen, ha, ht, hidle, hqueues, hps])

theorem exec_nonopEntryBegin_ready {s : State} (h3 : 3 ≤ chosenPs s) (hlt : s.pw.ps < chosenPs s) (he : s.pw.entering = 0) (hx : s.pw.exiting = false)
    (hw : s.pw.waitRound = false) (hr : entryReady s = true) : exec .nonopEntryBegin s =
      .next (after { s with pw := { s.pw with entering := chosenPs s, block := 1, beganUs := s.tm.elapsed, wakePend := false } }) :=
  if_pos ⟨h3, hlt, he, by simp [hx], by simp [hw], hr⟩

section
variable {s : State} (hent : s.pw.entering ≠ 0)
include hent

/-- A block that agreed: the next is asked, fetching having stopped. -/
def blockAgreed (s : State) : State := { s with pw := { s.pw with block := s.pw.block + 1, stopFetch := true } }

/-- What blocks 6 and 7 do as they agree to state 4: the journal is closed, the LUNs are parked. -/
def blockClosed (s : State) : State :=
  if s.pw.block = 6 ∧ s.pw.entering = 4 then
    { checkpoint (blockAgreed s) with jn := { (checkpoint (blockAgreed s)).jn with closing := .retain, opened := false } }
  else if s.pw.block = 7 ∧ s.pw.entering = 4 then
    { blockAgreed s with fl := { s.fl with parked := true }, pins := { s.pins with wpLow := true } }
  else blockAgreed s

omit hent in
theorem blockClosed_pw (s : State) : (blockClosed s).pw = (blockAgreed s).pw := by
  have hsaved : (checkpoint (blockAgreed s)).pw = (blockAgreed s).pw :=
    keeps_of_outside (x := .pw) (checkpoint_outside (List.Subset.refl _) _) (by decide)
  unfold blockClosed
  split
  · exact hsaved
  · split <;> rfl

theorem exec_sleepHandshakeReply_agrees {agree : Bool} (h : blockAgrees s.pw.block agree s = true) : exec (.sleepHandshakeReply agree) s =
    .next (after (if s.pw.block = 10 then entryDone s.pw.entering (blockClosed s) else blockClosed s)) := (if_neg hent).trans (if_pos h)

/-- An entry that a block refuses is over. -/
def entryRefused (s : State) : State :=
  raise 0xB010 1 [h1 s.pw.block, h1 s.pw.entering] { s with
    pw := { s.pw with entering := 0, block := 0, stopFetch := false, wakePend := false, waitRound := true, refCnt := satAdd 16 s.pw.refCnt 1,
                      refBlock := s.pw.block },
    fl := { s.fl with parked := false }, pins := { s.pins with wpLow := false } }

theorem exec_sleepHandshakeReply_refuses {agree : Bool} (h : blockAgrees s.pw.block agree s = false) :
    exec (.sleepHandshakeReply agree) s = .next (after (entryRefused s)) := (if_neg hent).trans (if_neg (by rw [h]; exact Bool.false_ne_true))

end

/-- An entry done, up to the mode: the device state, its counts and times. -/
def entryCounted (t : Nat) (s : State) : State :=
  let u := setPs t { s with pw := { s.pw with entering := 0, block := 0 } }
  let p := u.pw
  { u with pw := { p with
    ent3 := if t = 3 then satAdd 32 p.ent3 1 else p.ent3, ent4 := if t = 4 then satAdd 32 p.ent4 1 else p.ent4,
    entryUs := min (s.tm.elapsed - s.pw.beganUs) (2 ^ 32 - 1), entryYt := (s.tm.epoch * 1000 + s.tm.turn) * 1000 + s.tm.us,
    entryLocked := s.cad.lock, oscLost := false } }

/-- A wake recorded during the entry begins the exit. -/
def wakeKept (s : State) : State := if s.pw.wakePend then { s with pw := { s.pw with exiting := true, beganUs := s.tm.elapsed } } else s

theorem wakeKept_after (s : State) : (wakeKept s).pw.ps = s.pw.ps ∧ (wakeKept s).pw.entering = s.pw.entering ∧ (wakeKept s).pw.ent3 = s.pw.ent3 ∧
    (wakeKept s).m = s.m ∧ (wakeKept s).stb = s.stb := by
  unfold wakeKept
  split <;> exact ⟨rfl, rfl, rfl, rfl, rfl⟩

theorem entryDone_parts (t : Nat) (s : State) : entryDone t s = wakeKept (if t = 4 then
    setMode .retain { entryCounted t s with pins := { (entryCounted t s).pins with gpio := gpioLevels (entryCounted t s) } } else entryCounted t s) := rfl

theorem entryCounted_after {t : Nat} {s : State} (h : t ≠ s.pw.ps) : (entryCounted t s).pw.ps = t ∧ (entryCounted t s).pw.entering = 0 ∧
    (entryCounted t s).pw.ent3 = (if t = 3 then satAdd 32 s.pw.ent3 1 else s.pw.ent3) ∧ (entryCounted t s).m = s.m ∧ raises 0xB001 (entryCounted t s) := by
  obtain ⟨⟨res, at_, hpw⟩, hev, hm⟩ := setPs_new (s := { s with pw := { s.pw with entering := 0, block := 0 } }) h
  unfold entryCounted
  extract_lets _ u p
  have hp : p = _ := hpw
  have hu : raises 0xB001 u := hev
  have hum : u.m = s.m := hm
  clear_value u p
  subst hp
  exact ⟨rfl, rfl, rfl, hum, raises_of_eq rfl hu⟩

/-- Entry to state 3 done. -/
theorem entryDone_three {s : State} (h : 3 ≠ s.pw.ps) : (entryDone 3 s).pw.ps = 3 ∧ (entryDone 3 s).pw.entering = 0 ∧
    (entryDone 3 s).pw.ent3 = satAdd 32 s.pw.ent3 1 ∧ (entryDone 3 s).m = s.m ∧ raises 0xB001 (entryDone 3 s) := by
  obtain ⟨hps, hent, hcnt, hm, hev⟩ := entryCounted_after h
  obtain ⟨kps, kent, kcnt, km, kstb⟩ := wakeKept_after (entryCounted 3 s)
  have hdone : entryDone 3 s = wakeKept (entryCounted 3 s) := rfl
  rw [hdone]
  exact ⟨kps.trans hps, kent.trans hent, kcnt.trans hcnt, km.trans hm, raises_of_eq (congrArg Stb.raised kstb) hev⟩

/-- Entry to state 4 done: the device is in RETAIN. -/
theorem entryDone_four {s : State} (h : 4 ≠ s.pw.ps) : (entryDone 4 s).pw.ps = 4 ∧ (entryDone 4 s).pw.entering = 0 ∧
    (entryDone 4 s).m.cur = .retain ∧ raises 0xB001 (entryDone 4 s) := by
  obtain ⟨hps, hent, -, -, hev⟩ := entryCounted_after h
  rw [entryDone_parts, if_pos rfl]
  generalize entryCounted 4 s = t at *
  have hpw := congrArg (fun p : Pwr => (p.ps, p.entering)) (setMode_keeps (x := .pw) (by decide) .retain
    { t with pins := { t.pins with gpio := gpioLevels t } })
  have hgrow := grows_setMode .retain { t with pins := { t.pins with gpio := gpioLevels t } }
  have hcur := setMode_cur .retain { t with pins := { t.pins with gpio := gpioLevels t } }
  generalize setMode .retain { t with pins := { t.pins with gpio := gpioLevels t } } = u at *
  obtain ⟨hp, he⟩ := Prod.mk.inj hpw
  obtain ⟨kps, kent, -, km, kstb⟩ := wakeKept_after u
  have hraise : raises 0xB001 { t with pins := { t.pins with gpio := gpioLevels t } } := hev
  exact ⟨kps.trans (hp.trans hps), kent.trans (he.trans hent), (congrArg ModeS.cur km).trans hcur,
    raises_of_eq (congrArg Stb.raised kstb) (raises_mono hgrow hraise)⟩

/-! ## Exit (R354, R383, R386) -/

/-- An exit's operational state taken, with its record and its time. -/
def exitTaken (us : Nat) (s t : State) : State :=
  raise 0xB001 0 [h1 s.pw.ps, h1 (min 2 (chosenPs t))]
    { t with pw := { t.pw with ps := min 2 (chosenPs t), stopFetch := false, wakePend := false, exitUs := us } }

/-- The time an exit took. -/
def exitTime (s : State) : Nat := min (s.tm.elapsed - s.pw.beganUs) (2 ^ 32 - 1)

/-- The exit from RETAIN up to its state: the count reconciled, the part aged, residency counted, the LUNs unparked, the service period opened. -/
def retainLeft (hdr : Option (Nat × Nat)) (s : State) : State :=
  let s0 := reconcile hdr s
  let us := (s0.tm.epoch * 1000 + s0.tm.turn) * 1000 + s0.tm.us
  let adv := if s0.pw.entryYt ≤ us then us - s0.pw.entryYt else s.tm.elapsed - s.m.since
  let aged := ageBy (s0.tm.elapsed - s0.pw.roundAt) (tjMax16 s0) s0
  let s1 := accrue { aged with pw := { aged.pw with roundAt := s0.tm.elapsed } }
  { s1 with
    pw := { s1.pw with res := setNth s1.pw.res 4 (satAdd 64 (nth s1.pw.res 4 0) adv),
                       resEst := if s0.pw.entryLocked && !s0.pw.oscLost then s1.pw.resEst else satAdd 64 s1.pw.resEst adv },
    fl := { s1.fl with parked := false }, pins := { s1.pins with wpLow := false },
    jn := { s1.jn with opened := true, closing := .none } }

/-- The exit is over. -/
def exitOver (s : State) : State := { s with pw := { s.pw with exiting := false } }

theorem chosenPs_of_q {s t : State} (h : t.q = s.q) : chosenPs t = chosenPs s := by simp only [chosenPs, h]

theorem retainLeft_after (hdr : Option (Nat × Nat)) (s : State) : (retainLeft hdr s).fl.parked = false ∧ (retainLeft hdr s).pins.wpLow = false ∧
    (retainLeft hdr s).jn.opened = true ∧ chosenPs (retainLeft hdr s) = chosenPs s := by
  unfold retainLeft
  extract_lets s0 us adv aged _ s1
  have h0 : s0.q = s.q := keeps_of_outside (x := .q) (reconcile_outside (List.Subset.refl _) hdr s) (by decide)
  have ha : aged.q = s0.q := keeps_of_outside (x := .q) (ageBy_outside (List.Subset.refl _) _ _ s0) (by decide)
  have h1 : s1.q = aged.q := keeps_of_outside (x := .q) (accrue_outside (List.Subset.refl _) _) (by decide)
  exact ⟨rfl, rfl, rfl, chosenPs_of_q (h1.trans (ha.trans h0))⟩

section
variable {s : State} (hx : s.pw.exiting = true) (hm : s.m.cur.wakes = true) (hdr : Option (Nat × Nat))
include hx hm

theorem exec_nonopExitEnd_three (h4 : s.pw.ps ≠ 4) : exec (.nonopExitEnd hdr) s = .next (after (exitOver (exitTaken (exitTime s) s (accrue s)))) := by
  have hb : (s.pw.ps == 4) = false := beq_false_of_ne h4
  show execNonopExitEnd hdr s = _
  unfold execNonopExitEnd
  rw [if_pos (by rw [hx, hm]; rfl)]
  simp only [hb, Bool.false_eq_true, if_false]
  rfl

theorem exec_nonopExitEnd_four (h4 : s.pw.ps = 4) : exec (.nonopExitEnd hdr) s = .next (after (exitOver
    (setMode (baseMode (exitTaken (exitTime s) s (retainLeft hdr s))) (exitTaken (exitTime s) s (retainLeft hdr s))))) := by
  have hb : (s.pw.ps == 4) = true := beq_iff_eq.2 h4
  show execNonopExitEnd hdr s = _
  unfold execNonopExitEnd
  rw [if_pos (by rw [hx, hm]; rfl)]
  simp only [hb, if_true]
  rfl

end

/-! ## O56 -/

section
variable (s : State)

theorem housekeeping_counts (r : HkRound) (hm : s.m.cur.isBase = true ∨ s.m.cur = .sanitize ∨ s.m.cur = .halted) (hp : s.pw.ps ≠ 4) :
    ∃ u, exec (.housekeepingRound r) s = .next (afterIo u) ∧ u.pw.round = wrapAdd 32 s.pw.round 1 ∧ u.pw.roundAt = s.tm.elapsed ∧
      u.slk.holdMv = r.hold ∧ u.ts.life.powerUs = s.ts.life.powerUs + (s.tm.elapsed - s.pw.roundAt) := by
  obtain ⟨bmark, bts⟩ := roundBegun_after r s
  obtain ⟨rmark, rmv, rts⟩ := roundRead_after r (roundBegun r s)
  obtain ⟨amark, amv, ats⟩ := roundActed_after (roundRead r (roundBegun r s))
  obtain ⟨emark, eslk, elife⟩ := roundEnded_after (s.tm.elapsed - s.pw.roundAt) (roundActed (roundRead r (roundBegun r s)))
  have hx := exec_housekeepingRound_runs hm hp r
  generalize roundEnded (s.tm.elapsed - s.pw.roundAt) (roundActed (roundRead r (roundBegun r s))) = u at *
  have hmark : (u.pw.round, u.pw.roundAt) = (wrapAdd 32 s.pw.round 1, s.tm.elapsed) := emark.trans (amark.trans (rmark.trans bmark))
  obtain ⟨hround, hat⟩ := Prod.mk.inj hmark
  refine ⟨u, hx, hround, hat, ?_, ?_⟩
  · rw [eslk, amv, rmv]
  · rw [elife, ats, rts, bts]

theorem powerWindow_moves (hr : s.m.cur ≠ .reset) (ht : s.m.cur ≠ .retain) (hl : s.pw.limSeen ≤ pLim s) (p : Nat) :
    ∃ u, exec (.powerLoopWindow p) s = .next (after u) ∧ u.pw.pWin = min p 65535 ∧ u.pw.pPeak = max s.pw.pPeak (min p 65535) ∧ u.pw.limSeen = pLim s ∧
      u.zn = s.zn ∧ u.pw.f = (if 10 * pLim s < p then max 8 (s.pw.f - 4) else if p < 9 * pLim s then min 64 (s.pw.f + 1) else s.pw.f) := by
  obtain ⟨u, v, hx, hpw, -, hzn⟩ := exec_powerLoopWindow_shows hr ht p
  refine ⟨u, hx, by rw [hpw]; rfl, by rw [hpw]; rfl, by rw [hpw]; rfl, hzn, ?_⟩
  rw [hpw]
  exact if_neg (Nat.not_lt.2 hl)

theorem managementPort_answers (hs : plainWake s) : ∃ u, exec (.nvmeMiCommand none) s = .next (after u) ∧ u.ts.mi = s.ts.mi + 1 ∧
    u.ts.health = healthStatus s ∧ u.zn = s.zn ∧ u.m = s.m ∧
      (s.m.cur.wakes = true → s.pw.ps = 3 → s.pw.exiting = false → s.pw.entering = 0 → u.pw.exiting = true ∧ u.pw.wakeCause = 2) := by
  have hs' : plainWake (miTaken s) := hs
  have hkept : ∀ {x : Comp}, x ∉ [Comp.pw, .stb] → keeps x (miTaken s) (repower (wake 2 (miTaken s))) := fun hx =>
    keeps_of_outside ((repower_outside (List.Subset.refl _) _).trans (wake_outside (List.Subset.refl _) 2 hs')) hx
  have hts : (repower (wake 2 (miTaken s))).ts = (miTaken s).ts := hkept (x := .ts) (by decide)
  refine ⟨_, exec_nvmeMiCommand_none s, by rw [hts]; rfl, by rw [hts]; rfl, hkept (x := .zn) (by decide), hkept (x := .m) (by decide),
    fun hm h3 hx he => ?_⟩
  obtain ⟨hexit, hcause, hps⟩ := exitBegun_after { miTaken s with pw := { (miTaken s).pw with wakeCause := 2, duringEntry := false } }
  rw [wake_asleep (cause := 2) (s := miTaken s) hm h3 hx he, repower_asleep (hps.trans h3)]
  exact ⟨hexit, hcause⟩

theorem managementPort_restarts (hm : s.m.cur = .retain) (h4 : s.pw.ps = 4) (hr : s.pw.retLost = true) (he : s.pw.entering = 0) (hx : s.pw.exiting = false) :
    ∃ u, exec (.nvmeMiCommand none) s = .next (after u) ∧ u.m.cur = .reset ∧ u.q.ctxs = [] ∧ u.zn.wrs = [] := by
  have hwakes : (miTaken s).m.cur.wakes = true := by rw [show (miTaken s).m.cur = .retain from hm]; rfl
  have hanew := wake_anew (cause := 2) (s := miTaken s) hwakes h4 hr hx he
  obtain ⟨hcur, -, hctxs, hwrs, -⟩ := restart_empties true true { miTaken s with pw := { (miTaken s).pw with wakeCause := 2, duringEntry := false } }
  refine ⟨_, exec_nvmeMiCommand_none s, ?_⟩
  rw [hanew, enterReset]
  generalize restart true true _ = t at *
  have hm' : (repower t).m = t.m := repower_kept (x := .m) (by decide) t
  have hzn' : (repower t).zn = t.zn := repower_kept (x := .zn) (by decide) t
  rw [hm', repower_q, hzn']
  exact ⟨hcur, hctxs, hwrs⟩

theorem exit_ends (hdr : Option (Nat × Nat)) (hx : s.pw.exiting = true) (hm : s.m.cur.wakes = true) :
    (s.pw.ps ≠ 4 → ∃ u, exec (.nonopExitEnd hdr) s = .next (after u) ∧ u.pw.exiting = false ∧ u.pw.ps = min 2 (chosenPs s) ∧
      u.pw.stopFetch = false ∧ raises 0xB001 u ∧ u.m = s.m ∧ u.zn = s.zn) ∧
    (s.pw.ps = 4 → ∃ u, exec (.nonopExitEnd hdr) s = .next (after u) ∧ u.pw.exiting = false ∧ u.pw.ps = min 2 (chosenPs s) ∧
      u.m.cur.isBase = true ∧ u.fl.parked = false ∧ u.pins.wpLow = false ∧ u.jn.opened = true ∧ raises 0xB001 u) := by
  refine ⟨fun h4 => ?_, fun h4 => ?_⟩
  · obtain ⟨res, at_, hacc⟩ := accrue_pw s
    have hrun := exec_nonopExitEnd_three hx hm hdr h4
    rw [hacc] at hrun
    exact ⟨_, hrun, rfl, rfl, rfl, raises_raise .., rfl, rfl⟩
  · obtain ⟨hparked, hwp, hopened, hchosen⟩ := retainLeft_after hdr s
    have hrun := exec_nonopExitEnd_four hx hm hdr h4
    have hps : (exitTaken (exitTime s) s (retainLeft hdr s)).pw.ps = min 2 (chosenPs s) := congrArg (min 2) hchosen
    have hev : raises 0xB001 (exitTaken (exitTime s) s (retainLeft hdr s)) := raises_raise ..
    have hkept : (exitTaken (exitTime s) s (retainLeft hdr s)).fl = (retainLeft hdr s).fl ∧
      (exitTaken (exitTime s) s (retainLeft hdr s)).pins = (retainLeft hdr s).pins ∧ (exitTaken (exitTime s) s (retainLeft hdr s)).jn = (retainLeft hdr s).jn :=
      ⟨rfl, rfl, rfl⟩
    obtain ⟨hfl, hpins, hjn⟩ := hkept
    rw [← hfl] at hparked
    rw [← hpins] at hwp
    rw [← hjn] at hopened
    generalize exitTaken (exitTime s) s (retainLeft hdr s) = t at *
    have hmode : ∀ {x : Comp}, x ∉ [Comp.m, .q, .stb, .ci] → keeps x t (setMode (baseMode t) t) := fun hx => setMode_keeps hx _ t
    have hpw : (setMode (baseMode t) t).pw = t.pw := hmode (x := .pw) (by decide)
    have hfl' : (setMode (baseMode t) t).fl = t.fl := hmode (x := .fl) (by decide)
    have hpins' : (setMode (baseMode t) t).pins = t.pins := hmode (x := .pins) (by decide)
    have hjn' : (setMode (baseMode t) t).jn = t.jn := hmode (x := .jn) (by decide)
    have hcur : (setMode (baseMode t) t).m.cur = baseMode t := setMode_cur ..
    have hgrow := grows_setMode (baseMode t) t
    generalize setMode (baseMode t) t = u at *
    refine ⟨exitOver u, hrun, rfl, (congrArg Pwr.ps hpw).trans hps, ?_, (congrArg Fl.parked hfl').trans hparked, (congrArg Pins.wpLow hpins').trans hwp,
      (congrArg Jrn.opened hjn').trans hopened, raises_of_eq rfl (raises_mono hgrow hev)⟩
    show u.m.cur.isBase = true
    rw [hcur]
    exact baseMode_isBase t

theorem handshake_replies (hent : s.pw.entering ≠ 0) :
    (blockAgrees s.pw.block true s = true → s.pw.block < 10 → ∃ u, exec (.sleepHandshakeReply true) s = .next (after u) ∧
      u.pw.block = s.pw.block + 1 ∧ u.pw.stopFetch = true ∧ u.pw.entering = s.pw.entering) ∧
    (s.pw.block = 10 → s.pw.ps ≠ s.pw.entering → s.pw.entering = 3 → ∃ u, exec (.sleepHandshakeReply true) s = .next (after u) ∧
      u.pw.ps = 3 ∧ u.pw.entering = 0 ∧ u.pw.ent3 = satAdd 32 s.pw.ent3 1 ∧ u.m = s.m ∧ raises 0xB001 u) ∧
    (s.pw.block = 10 → s.pw.ps ≠ s.pw.entering → s.pw.entering = 4 → ∃ u, exec (.sleepHandshakeReply true) s = .next (after u) ∧
      u.pw.ps = 4 ∧ u.pw.entering = 0 ∧ u.m.cur = .retain ∧ raises 0xB001 u) := by
  have last : s.pw.block = 10 → exec (.sleepHandshakeReply true) s = .next (after (entryDone s.pw.entering (blockAgreed s))) := fun hb => by
    have hagree : blockAgrees s.pw.block true s = true := by rw [hb]; rfl
    have hclosed : blockClosed s = blockAgreed s := by rw [blockClosed, hb, if_neg (by omega), if_neg (by omega)]
    rw [exec_sleepHandshakeReply_agrees hent hagree, if_pos hb, hclosed]
  refine ⟨fun hagree hb => ?_, fun hb hps h3 => ?_, fun hb hps h4 => ?_⟩
  · have hrun := exec_sleepHandshakeReply_agrees hent hagree
    rw [if_neg (Nat.ne_of_lt hb)] at hrun
    refine ⟨_, hrun, ?_⟩
    rw [blockClosed_pw]
    exact ⟨rfl, rfl, rfl⟩
  · have hrun := last hb
    rw [h3] at hrun hps
    obtain ⟨dps, dent, dcnt, dm, dev⟩ := entryDone_three (s := blockAgreed s) (Ne.symm hps)
    exact ⟨_, hrun, dps, dent, dcnt, dm, dev⟩
  · have hrun := last hb
    rw [h4] at hrun hps
    obtain ⟨dps, dent, dcur, dev⟩ := entryDone_four (s := blockAgreed s) (Ne.symm hps)
    exact ⟨_, hrun, dps, dent, dcur, dev⟩

end

/-- Settles O56: windows and rounds by what they count, the entry block by block, the exit by the state it leaves. -/
theorem housekeepingAndSleep : Obligations.HousekeepingAndSleep := by
  unfold Obligations.HousekeepingAndSleep
  refine ⟨fun s => ⟨powerWindow_moves s, housekeeping_counts s, managementPort_answers s, fun _ => rfl⟩,
    fun s => ⟨fun fn hen ha hctx hsq ht hps => ?_, exec_nonopEntryBegin_ready, fun hent _ => ?_, exit_ends s, fun hm => ⟨if_pos hm, if_pos hm⟩,
      fun hm => ⟨if_neg hm, if_neg hm⟩, managementPort_restarts s⟩⟩
  · obtain ⟨hzn, -, hm⟩ := repower_setFnPs_same fn (bits (nth (fnOf fn s).feats.apst (fnOf fn s).feats.ps 0) 7 3) s
    have hfeats := congrArg Feats.ps (repower_setFnPs_feats fn (bits (nth (fnOf fn s).feats.apst (fnOf fn s).feats.ps 0) 7 3) s)
    exact ⟨_, exec_apstIdleExpiry_idle hen ha hctx hsq ht hps, hfeats, hzn, hm⟩
  · obtain ⟨hnext, hthree, hfour⟩ := handshake_replies s hent
    exact ⟨hnext, fun hno => ⟨_, exec_sleepHandshakeReply_refuses hent hno, raises_raise .., rfl, rfl, rfl, rfl, rfl⟩, hthree, hfour⟩

end Sys2Proof.Machine
